-- ==== Sys2Proof/Word.lean ====
section
/-!
DEFINITION. Word.lean: bytes, little-endian byte strings, the 256-byte sector, and the small index types of the module.
R3 (spec/00_scope.md): bit 0 of every field, register and memory word is its least significant bit; multi-byte fields are little-endian.
-/

namespace Sys2Proof

/-- One byte. -/
abbrev Byte := BitVec 8
/-- A string of bytes, the byte at the lowest offset first. -/
abbrev Bytes := List Byte
/-- A 256-byte sector (R253, R388), byte 0 in bits [7:0]. -/
abbrev Sector := BitVec 2048

/-- Partition number 0..63 (R425). -/
abbrev PartId := Fin 64
/-- Ring number 0..15 of a partition (R181). -/
abbrev RingId := Fin 16
/-- Logical array number 0..127 (R2). -/
abbrev ArrayId := Fin 128
/-- Strait number 0..17 (R269). -/
abbrev StraitId := Fin 18
/-- HBM stack number 0..23 (R233). -/
abbrev StackId := Fin 24
/-- A die: 0..3 are the array dies A0..A3, 4 is the hub. -/
abbrev DieId := Fin 5
/-- Device ID of a module or memory node (R234, R280). -/
abbrev Device := BitVec 16
/-- Bindery session index 0x00..0xFE (R312). -/
abbrev SessIx := Nat

/-- Little-endian value of a byte string (R3). -/
def leNat : Bytes → Nat
  | [] => 0
  | b :: bs => b.toNat + 256 * leNat bs

/-- The `k` low bytes of `n`, little-endian (R3). -/
def leBytes : Nat → Nat → Bytes
  | 0, _ => []
  | k + 1, n => BitVec.ofNat 8 n :: leBytes k (n / 256)

/-- `k` zero bytes. -/
def zeros (k : Nat) : Bytes := List.replicate k 0

/-- Bytes `off .. off+len-1` of a byte string, zero beyond its end. -/
def slice (bs : Bytes) (off len : Nat) : Bytes :=
  let t := (bs.drop off).take len
  t ++ zeros (len - t.length)

/-- Bits `[lo + w - 1 : lo]` of a number. -/
def bitsOf (v lo w : Nat) : Nat := (v / 2 ^ lo) % 2 ^ w

/-- Two's-complement reading of the low `w` bits (R14). -/
def signedOf (w v : Nat) : Int :=
  let u := v % 2 ^ w
  if u < 2 ^ (w - 1) then (u : Int) else (u : Int) - 2 ^ w

/-- Two's-complement code of `x` in `w` bits. -/
def codeOf (w : Nat) (x : Int) : Nat := (x % (2 ^ w : Int)).toNat

/-- The number of bits that are 1 in the low `w` bits of `v`. -/
def popCount : Nat → Nat → Nat
  | 0, _ => 0
  | w + 1, v => v % 2 + popCount w (v / 2)

/-- `⌈a / b⌉` on naturals, 0 when `b = 0`. -/
def ceilDiv (a b : Nat) : Nat := (a + b - 1) / b

/-- The smallest multiple of `b` that is at least `a`. -/
def roundUp (a b : Nat) : Nat := ceilDiv a b * b

/-- Bytes of a text in ASCII. -/
def asciiBytes (t : String) : Bytes := t.toList.map (fun c => BitVec.ofNat 8 c.toNat)

end Sys2Proof
end

