-- ==== Sys2Proof/Syntax.lean ====
section
/-!
DEFINITION. Syntax.lean: the commands of the JT480, one constructor per row of spec/opcode_table.json, and the data their operands carry.
The table gives no row a bit pattern, so a command is its operands: what a message, a register write, a timer or a sensor brings with it.
-/

namespace Sys2Proof

/-- Who sent a dictionary request: the session (0 for none) and, without a session, the source address and port (R556).
`flashFails`: module flash does not take the value that the request would leave in a persistent object (R544; notes/assumptions/48.md). -/
structure Req where
  sid : Nat
  src : Nat
  flashFails : Bool := false
deriving DecidableEq, Repr

/-- The route a dictionary message came by (R541, R564, R565). -/
inductive Route where
  | sideband | fabric | mailbox
deriving DecidableEq, Repr

/-- A dictionary message (R554) as received. `op` is the command's own. `tagOk`: the envelope's tag verified (R560). `flashFails`: as in `Req`. -/
structure DictMsg where
  version : Byte
  flags : Byte
  status : Byte
  index : BitVec 16
  sub : Byte
  count : Byte
  reqId : BitVec 16
  dest : Device
  sid : Nat
  src : Nat
  seq : Nat
  offset : Nat
  reserved : BitVec 16
  data : Bytes
  tagOk : Bool
  route : Route
  flashFails : Bool := false
deriving DecidableEq, Repr

/-- The transport part of a fabric packet (R282): its class, OP, class-specific fields and payload are the command's own.
`tagOk`: the GCM tag of R284 verified under the flow's key. `reserved`: header bits [98:96]. `stray`: the class, the OP or a bit of the class-specific fields is a reserved one (R283). -/
structure Pkt where
  strait : StraitId
  psn : Nat
  ackPsn : Nat
  ackValid : Bool
  dest : Device
  src : Device
  flow : Nat
  keygen : Bool
  hops : Nat
  reserved : BitVec 3
  stray : Bool := false
  tagOk : Bool
deriving DecidableEq, Repr

/-- One 256-byte sector of ciphertext with its stored 64-bit tag (R236, R391). -/
structure StoredSector where
  cipher : Sector
  tag : BitVec 64
deriving DecidableEq, Repr

/-- What the medium delivers when a sector is read (R392, R397): as stored with some corrected symbols, altered contents,
an uncorrectable line, or a counter line or tree node (`level`) that is lost with INTEGRITY or UNCORRECTABLE. -/
inductive Delivered where
  | asStored (corrected : Nat)
  | altered (s : StoredSector)
  | uncorrectable
  | treeLost (level : Nat) (integrity : Bool)
  | linkLost
  | peerFailed
deriving DecidableEq, Repr

/-- An operand address (R159): the space code of R160 and the byte offset. -/
structure Addr where
  space : BitVec 4
  off : BitVec 56
deriving DecidableEq, Repr

/-- A global address (R234). -/
structure GAddr where
  device : Device
  space : BitVec 2
  off : BitVec 46
deriving DecidableEq, Repr

/-- What a MEMRD or MEMWR names: a global address (R283), or, on a host flow, memory of a partition at the target (R300), whose encoding the spec does not give. -/
inductive Target where
  | global (g : GAddr)
  | partition (p : PartId) (va : Nat)
deriving DecidableEq, Repr

/-- A TICK announce (R291). `prio` and `master` order masters (R206); `arrival` is its arrival in local nanoseconds after the local tick. -/
structure Announce where
  strait : StraitId
  frame : Nat
  period : Nat
  next : Option Nat
  master : Device
  prio : Nat
  succ1 : Device
  succ2 : Device
  accDelay : Nat
  hops : Nat
  arrival : Int
  residence : Nat
deriving DecidableEq, Repr

/-- A flit as the receiver sees it (R271, R273): `correctable` is the FEC's verdict, `slots` the slots it carries per virtual channel. -/
structure Flit where
  correctable : Bool
  corrected : Nat
  fseq : BitVec 12
  ackFseq : BitVec 12
  creditVc : BitVec 3
  creditSlots : BitVec 8
  kind : BitVec 2
  reserved : BitVec 3
  slots : List (Nat × Nat)
deriving DecidableEq, Repr

/-- A handshake message (R434). `hop`: the strait of a hop-key handshake; none for a pair key. -/
structure Handshake where
  hop : Option StraitId
  unit : BitVec 128
  device : Device
  nonce : BitVec 256
  kemPub : Bytes
  cert : Bytes
  lifeCycle : Byte
  debugOpen : Bool
  fwDigest : BitVec 512
  ct : Bytes
  sig : Bytes
deriving DecidableEq, Repr

/-- The header and body of a CONTRIB data packet (R324, R325) with its CSF fields (R283). -/
structure ContribMsg where
  session : Nat
  layer : Nat
  step : Nat
  chunk : Nat
  dense : Bool
  exp : Byte
  part : Nat
  parts : Nat
  source : Nat
  rescaled : Bool
  leaf : Bool
  entries : List (Nat × Int)
  reservedZero : Bool
deriving DecidableEq, Repr

/-- A PARAM or TIPIN data chunk (R338, R341): its CSF fields and its payload. -/
structure ChunkMsg where
  session : Nat
  layer : Nat
  step : Nat
  chunk : Nat
  payload : Bytes
deriving DecidableEq, Repr

/-- A roster chunk (R358): CSF and header fields, and the bitmap as a list of ranks. -/
structure RosterMsg where
  session : Nat
  sender : Nat
  effective : Nat
  epoch : Nat
  snapshot : BitVec 32
  prevSnapshot : BitVec 32
  rollback : BitVec 32
  boundary : BitVec 32
  handover : BitVec 16
  doRollback : Bool
  doHandover : Bool
  doStop : Bool
  status : Byte
  live : List Nat
deriving DecidableEq, Repr

/-- A physical upset of an array while a line drains. -/
structure Upset where
  /-- Differences in the integer segment sums: output column, segment, difference (R485). -/
  diffs : List (Nat × Nat × Int) := []
  /-- The two copies of the alignment logic have disagreed (R486): the entries that the row takes because of it, as column, element and exponent. -/
  seam : Option (List (Nat × Int × Int)) := none
deriving DecidableEq, Repr

/-- What a frame tick finds at the tick instant, apart from the state: sensor values, attributions and the progress of transfers. -/
structure TickIn where
  /-- Whole degrees C of A0..A3 and H (R212, R549). -/
  temps : List Nat
  /-- The Lighthouse record reached the hub by step 6 (R213). -/
  recordArrived : Bool
  /-- The hub's own input-energy estimate of the ended frame in uJ (R213). -/
  hubEstimate : Nat
  /-- Length of the ended frame on the Lighthouse oscillator in us (R522). -/
  lengthUs : Nat
  /-- Advisory energy per partition in uJ (R536). -/
  attributed : List (PartId × Nat)
  /-- Advisory energy of the module base in uJ (R553). -/
  baseAttributed : Nat
  /-- Bytes that transfers still running have committed: array, entry, bytes (R172). -/
  moved : List (ArrayId × Nat × Nat)
  /-- Clocks since the start for slices still running (R186): partition, ring, clocks. -/
  clocks : List (PartId × RingId × Nat)
  /-- Sectors that the on-die scrub has corrected since the tick before, by stack (R254). -/
  scrub : List (StackId × Nat)
  /-- Clocks that a pass still running has waited since its last row or load: array, entry, and its BUBBLE, STALL and LOAD cycles (R58, R85). -/
  waits : List (ArrayId × Nat × Nat × Nat × Nat)
  /-- Candidates that a master reaches: priority and device (R203). -/
  reached : List (Nat × Device)
deriving DecidableEq, Repr

/-- A temperature sensor (R216, R254). -/
inductive TempSource where
  | die (d : DieId)
  | stack (k : StackId)
deriving DecidableEq, Repr

/-- A ready signal of R585. -/
inductive Ready where
  | railGood | pllLock | repairDone | trainDone (k : StackId) | logicReady
deriving DecidableEq, Repr

/-- How a strait training ended (R270): healthy data lanes in use, or failed. -/
inductive TrainResult where
  | lanes (n : Nat)
  | failed
deriving DecidableEq, Repr

/-- Why a strait goes down (R278). -/
inductive DownCause where
  | replayFailed | noCodeword | signalLost
deriving DecidableEq, Repr

/-- The outcome of a scan test (R497). -/
inductive TestResult where
  | pass
  | failRepairable (row : Bool)
  | failReproduced
deriving DecidableEq, Repr

/-- An unnumbered host request before IDE is up (R298). -/
inductive HostReq where
  | config | doe | spdm | other
deriving DecidableEq, Repr

/-- A request on the Lighthouse read-request port or at its mirror (R516, R535). -/
inductive LhRead where
  | minute (n : Nat) | seal (h : Nat) (off : Nat) | certificate (off : Nat)
deriving DecidableEq, Repr

/-- Which Lighthouse query subindex a session writes (R534). -/
inductive LhQueryKind where
  | frame | minute | hour | sealOffset | certOffset
deriving DecidableEq, Repr

/-- A calibration change as it reaches the Lighthouse (R531). -/
structure Calibration where
  lhUnit : BitVec 128
  nonce : BitVec 256
  body : Bytes
  signerKey : Bytes
  sig : Bytes
deriving DecidableEq, Repr

/-- A causeway unit as it arrives: its 256 bytes, and whether its tag verified (R294; notes/assumptions/114.md). -/
structure CswUnit where
  bytes : Bytes
  tagOk : Bool
deriving DecidableEq, Repr

/-- A read of a home's memory: the sectors that it asks for, and whether the home's RS(68,64) code finds one of them uncorrectable (R236, R262). -/
structure HomeRead where
  sectors : Nat
  bad : Bool := false
deriving DecidableEq, Repr

/-- The endpoint that a host request comes to, and whether the request passed the IDE stream's integrity check (R298; notes/assumptions/114.md). -/
structure HostLink where
  strait : StraitId
  ideOk : Bool := true
deriving DecidableEq, Repr

/-- A message of the mailbox, and the RESPONSE that comes back where another module executes it (R565; notes/assumptions/39.md). -/
structure MailRequest where
  msg : DictMsg
  back : Option Bytes := none
deriving DecidableEq, Repr

/-- The commands: one constructor per row of spec/opcode_table.json. -/
inductive Instr where
  -- frames, slices and arrays
  | frameTick (t : TickIn)
  | energyDueAdmit
  | sliceSplit (p : PartId) (r : RingId) (t : TickIn)
  | sliceStartOnArray (a : ArrayId)
  | passStart (a : ArrayId) (e : Nat)
  | stationaryTileLoad (a : ArrayId) (e : Nat) (waited : Nat)
  | tileLoadDone (a : ArrayId)
  | vectorOperandLoad (a : ArrayId) (e : Nat) (slot : Fin 4) (waited : Nat)
  | tableLoad (a : ArrayId) (e : Nat) (slot : Fin 4) (waited : Nat)
  | foldHalfFill (a : ArrayId) (e : Nat)
  | drainRow (a : ArrayId) (e : Nat) (bubbles stalls : Nat) (upset : Upset)
  | chainStandaloneGroup (a : ArrayId) (e : Nat) (stalls : Nat)
  | rowStatLand (a : ArrayId)
  | quantBlockWrite (a : ArrayId)
  | sbTileWrite (a : ArrayId)
  | columnCheckDone (a : ArrayId) (e : Nat)
  | disputeRerunStart (a : ArrayId)
  | disputeDecide (a : ArrayId) (agreesOriginal agreesCheck : Bool)
  | passEnd (a : ArrayId) (e : Nat)
  | moverStart (a : ArrayId) (e : Nat)
  | moverComplete (a : ArrayId) (e : Nat) (faults : List (Nat × Delivered))
  | sliceComplete (p : PartId) (r : RingId) (cycles energy : Nat)
  -- the tick on the fabric, and the governor
  | tickAnnounce (n : Announce)
  | tickProbe (k : StraitId) (t1 : Nat)
  | tickProbeReply (k : StraitId) (t2 t3 t4 : Nat)
  | tickMissed
  | tickSuccession (candidates : List (Nat × Device))
  | tickSelfMaster
  | peakGuardEngage (avg100us aboveMs : Nat)
  | peakGuardRelease (throttledUs : Nat) (stalled : List (ArrayId × Nat))
  | framePeriodWrite (q : Req) (us : BitVec 32)
  | ringEnableWrite (q : Req) (p : PartId) (r : RingId) (v : Byte)
  -- memory tiers
  | map (q : Req) (p : PartId)
  | unmap (q : Req) (p : PartId)
  | setAttr (q : Req) (p : PartId)
  | discard (q : Req) (p : PartId)
  | ptQuery (q : Req) (p : PartId) (va : BitVec 64)
  | rgnQuery (q : Req) (p : PartId) (va : BitVec 64)
  | poolHomeAccess (q : Req) (value : Option Bytes)
  | windowGranuleMove (p : PartId) (granule : Nat)
  | migrationSectorCopy (p : PartId) (page : Nat)
  | gatheringFetchStart
  | fetchSector (p : PartId) (entry : Nat) (bank : Nat) (read replica : Delivered)
  -- straits
  | straitTrainDone (k : StraitId) (r : TrainResult)
  | straitRetrainTimer (k : StraitId)
  | train (q : Req) (k : StraitId) (v : Byte)
  | straitModeWrite (q : Req) (k : StraitId) (v : Byte)
  | flitReceive (k : StraitId) (f : Flit)
  | nakReceive (k : StraitId) (ack : BitVec 12)
  | laneSwap (k : StraitId) (lane : Fin 9) (index : Nat)
  | laneRetrainNarrow (k : StraitId) (lane : Fin 9)
  | straitDown (k : StraitId) (c : DownCause)
  | hopKeyNextGeneration (k : StraitId) (tx : Bool) (index : Nat)
  | causewayUnitReceive (c : Fin 8) (a b : DieId) (unit : CswUnit)
  | causewayFail (c : Fin 8)
  -- flows and packets
  | flowOpen (owner : Nat) (peer : Device) (peerFlow : Nat) (classes : List Nat) (session : Option SessIx)
  | flowQuery (q : Req) (id : BitVec 32)
  | routeEntryAccess (q : Req) (value : Option (BitVec 32))
  | pureAckReceive (p : Pkt) (cls : Nat)
  | flowRetryTimeout (flow : Nat)
  | flowIntegrityLost (flow : Nat)
  | flowKeygenAdvance (flow : Nat)
  | pairKeyExpire (peer : Device)
  | memrdRequest (p : Pkt) (g : Target) (read : HomeRead) (tag : Byte)
  | memrdData (p : Pkt) (status tag : Byte) (data : List StoredSector)
  | memrdError (p : Pkt) (status tag : Byte)
  | memwr (p : Pkt) (g : Target) (tag : Byte) (data : List StoredSector)
  | atomicSectorCas (p : Pkt) (g : GAddr) (tag : Byte) (expected : BitVec 64) (new : StoredSector)
  | atomicResult (p : Pkt) (status tag : Byte) (stored : StoredSector)
  | wakePacket (p : Pkt) (target : Device)
  | hello (h : Handshake)
  | reply (h : Handshake)
  | finish (h : Handshake)
  -- the host and the ferry
  | hostConfigRequest (k : StraitId) (r : HostReq)
  | hostRead (k : HostLink) (off len : Nat)
  | hostWrite (k : HostLink) (off : Nat) (data : Bytes)
  | aptEntryWrite (q : Req) (value : BitVec 128)
  | mailboxGo (k : StraitId) (slot : Fin 16) (op : Byte) (m : MailRequest)
  -- the Bindery
  | sessionOpOpen (q : Req) (s : SessIx)
  | sessionDigestMatch (s : SessIx) (answers : List (Nat × BitVec 512))
  | sessionOpClose (q : Req) (s : SessIx)
  | closeLayer (q : Req) (s : SessIx) (v : BitVec 64)
  | withhold (q : Req) (s : SessIx) (v : BitVec 64)
  | contribData (p : Pkt) (m : ContribMsg)
  | foldWindowExpire (s : SessIx) (layer step bucket : Nat)
  | contribRoll (p : Pkt) (s : SessIx) (layer step : Nat) (ranks : List Nat)
  | contribAbsent (p : Pkt) (s : SessIx) (layer step : Nat) (whole : Bool)
  | contribRecover (p : Pkt) (s : SessIx) (layer step : Nat)
  | ownerDeadline (s : SessIx) (layer step : Nat)
  | paramData (p : Pkt) (m : ChunkMsg)
  | versionPublish (s : SessIx) (layer version : Nat)
  | paramResendRequest (p : Pkt) (s : SessIx) (layer version : Nat)
  | paramResendTimeout (s : SessIx) (layer version : Nat)
  | tipinData (p : Pkt) (m : ChunkMsg)
  -- elastic training
  | sessionHeartbeat (s : SessIx) (peer : Nat)
  | rankSilence (s : SessIx) (rank : Nat)
  | roster (p : Pkt) (m : RosterMsg)
  | rosterQuorumHold (s : SessIx)
  | departRequest (p : Pkt) (m : RosterMsg)
  | restoreFailed (p : Pkt) (m : RosterMsg)
  | keeperTimeout (s : SessIx) (layer : Nat)
  | departAtFrameSet (q : Req) (s : SessIx) (frame : BitVec 64)
  | departWithdraw (q : Req) (s : SessIx)
  | departDeadline (s : SessIx) (rank : Nat)
  | ownerQuery (q : Req) (s : SessIx) (layer : BitVec 16)
  -- memory protection
  | sectorRead (p : PartId) (va : BitVec 56) (d : Delivered)
  | sectorWrite (p : PartId) (va : BitVec 56) (data : Sector)
  | sectorPartialWrite (p : PartId) (va : BitVec 56) (data : Bytes) (d : Delivered)
  | rekeySector (p : PartId) (page : Nat) (d : Delivered)
  | regionSteady (p : PartId) (page : Nat)
  | rotationComplete (p : PartId)
  | hbmRowRepair (k : StackId) (row : Nat) (repairRowsLeft : Bool)
  | windowEccError (p : PartId) (off : Nat) (bank : Nat) (double : Bool)
  | alertAck (q : Req) (seq : BitVec 64)
  -- partitions, keys, attestation
  | quotaWrite (q : Req) (p : PartId) (sub : Byte) (value : Bytes)
  | create (q : Req) (p : PartId)
  | remove (q : Req) (p : PartId)
  | removalComplete (p : PartId)
  | partitionKey (q : Req) (blob : Bytes)
  | rotate (q : Req) (blob : Bytes)
  | jointKey (q : Req) (blob : Bytes)
  | hostGrantWrite (q : Req) (p : PartId) (v : Byte)
  | slotQuery (q : Req) (id : BitVec 16)
  | sign (q : Req)
  | loadCert (q : Req)
  -- life cycle and debug
  | newNonce (q : Req)
  | transition (q : Req)
  | transitionProgrammed
  | lhSealRequest (request : Bytes)
  | certWrite (q : Req) (cert : Bytes)
  | operatorKeyEnrol (q : Req) (digest : BitVec 512)
  | challenge (q : Req)
  | debugOpen (q : Req)
  -- repair
  | libBegin (q : Req)
  | libCommit (q : Req)
  | libChunk (q : Req) (data : Bytes)
  | testComplete (unit : BitVec 16) (r : TestResult)
  | testDeferLimit (unit : BitVec 16)
  | unitRetire (unit : BitVec 16)
  | suspectClear (unit : BitVec 16)
  | unitQuery (q : Req) (unit : BitVec 16)
  | histQuery (q : Req) (index : BitVec 32)
  | auditQuery (q : Req) (seq : BitVec 64)
  -- the Lighthouse
  | adcSample (uj : Nat)
  | occupancyWord (die : Fin 4) (seq : Byte) (entries : List Byte)
  | strobeOverdue (lengthUs : Nat)
  | selfTimedClose
  | minuteClose
  | lhPowerLoss (lengthUs : Nat)
  | lhPowerOn
  | calibrationChange (c : Calibration)
  | lhReadRequest (r : LhRead)
  | lhQuery (q : Req) (k : LhQueryKind) (v : BitVec 64)
  | lighthouseSilent
  -- the object dictionary
  | read (m : DictMsg)
  | write (m : DictMsg)
  | readBlock (m : DictMsg)
  | open1 (m : DictMsg)
  | open3 (m : DictMsg)
  | sessionClose (m : DictMsg)
  | segmentGapTimeout (q : Req) (object : Nat)
  | sessionIdleTimeout (sid : Nat)
  | descQuery (q : Req) (v : BitVec 32)
  -- I3C
  | entdaa (addr : BitVec 7)
  | rstdaa
  | setnewda (addr : BitVec 7)
  | getpid
  | getbcr
  | getdcr
  | getstatus
  | getmrl
  | getmwl
  | i3cPrivateWrite (data : Bytes)
  | i3cPrivateRead (len : Nat)
  | i3cRefresh (inputPowerW inputMv : BitVec 16)
  -- power and boot
  | inputTurnOn (railsOk : Bool)
  | inputTurnOff
  | overVoltage
  | modPwrEnRise
  | modPwrEnFall
  | modResetNAssert
  | watchdogExpire
  | thermalTrip (d : DieId)
  | straitSignalWake (k : StraitId)
  | sidebandWakeFrame (etherType : BitVec 16) (payload : Bytes) (macMatches : Bool)
  | stateRequestDoze (q : Req)
  | stateRequestStandby (q : Req)
  | stateRequestActive (q : Req)
  | dozeEntry (writeBackFailed : List StackId)
  | domainReady (d : DieId) (r : Ready)
  | domainReadyTimeout (d : DieId) (r : Ready)
  | domainOff (d : DieId)
  -- firmware
  | recoveryRequest (strait : Option StraitId) (fetchId : BitVec 64) (segment : Nat) (key : Bytes)
  | recoveryOffer (strait : Option StraitId) (fetchId : BitVec 64) (segment : Nat) (ct : Bytes) (total : Nat)
  | recoveryData (fetchId : BitVec 64) (off : Nat) (ct tag : Bytes)
  | recoveryResume (fetchId : BitVec 64) (off : Nat)
  | recoveryBusy (fetchId : BitVec 64)
  | recoveryDataGap
  | recoveryStraitTimeout
  | recoveryRestart
  | fwBegin (q : Req)
  | fwCommit (q : Req)
  | fwChunk (q : Req) (data : Bytes)
  -- the rest
  | registerWrite (q : Req) (index : BitVec 16) (sub : Byte) (value : Bytes)
  | probe (k : StraitId) (t1 t2 t3 : Nat)
  | dieTemperature (src : TempSource) (celsius : Nat)
  | signalDetect (k : StraitId)
  | pcieTraining (k : StraitId) (up : Bool) (width : Nat)
  | sbLinkStateChange (state : Byte)
  | icmpv6Echo (lighthouse : Bool) (payload : Bytes)
  | neighbourDiscovery (lighthouse : Bool) (solicitation : Bool) (addr : BitVec 128) (mac : BitVec 48)
  | modResetNRelease
  | signComplete (sid : Nat)
  | fwCommitComplete
  | libCommitComplete
deriving DecidableEq, Repr

end Sys2Proof
end

