-- ==== Sys2Proof/Config.lean ====
section
/-!
DEFINITION. Config.lean: what one unit or one implementation fixes, and the free values. Every constant below is opaque and has no body:
no proof can see a value of it, so a statement holds whatever it is.
Three kinds stand here. (1) Published standards that the spec names and does not restate (SHA3-512, KMAC256, XTS-AES-256, GMAC, AES-GCM,
ML-KEM-1024, ML-DSA-87): uninterpreted functions (notes/assumptions/1.md). (2) Per-unit data: identities, OTP digests, digests of firmware
(notes/assumptions/2.md). (3) Free values where the spec states no value (notes/assumptions/3.md).
-/

namespace Sys2Proof.Config

/-! Standards named by the spec. -/

/-- SHA3-512 of a byte string, as a 512-bit value (R315, R434, R448 ...). -/
opaque sha3 : Bytes → BitVec 512
/-- KMAC256(K, X, L bits, S) of R389 and R433. -/
opaque kmac256 : (key : Bytes) → (x : Bytes) → (bits : Nat) → (custom : String) → Bytes
/-- XTS-AES-256 of one 256-byte data unit (R390): for a key and a data unit number, a permutation of the sector. -/
opaque xts : (key : Bytes) → (unit : Nat) → Equiv.Perm Sector
/-- GMAC (R391): key, 96-bit nonce, authenticated data; 128-bit tag. -/
opaque gmac : (key : Bytes) → (nonce : Nat) → (aad : Bytes) → BitVec 128
/-- AES-256-GCM opening: key, nonce, authenticated data, ciphertext, tag; none when the tag fails (R438, R560, R597). -/
opaque gcmOpen : (key : Bytes) → (nonce : Nat) → (aad ct tag : Bytes) → Option Bytes
/-- AES-256-GCM sealing: key, nonce, authenticated data, plaintext; ciphertext followed by the 16-byte tag. -/
opaque gcmSeal : (key : Bytes) → (nonce : Nat) → (aad pt : Bytes) → Bytes
/-- ML-KEM-1024 encapsulation key of a seed (FIPS 203). -/
opaque kemPublic : (seed : Bytes) → Bytes
/-- ML-KEM-1024 decapsulation: seed and ciphertext to the shared secret. -/
opaque kemDecaps : (seed ct : Bytes) → Bytes
/-- ML-KEM-1024 encapsulation to a public key with fresh randomness number `n`: ciphertext and shared secret. -/
opaque kemEncaps : (pub : Bytes) → (n : Nat) → Bytes × Bytes
/-- ML-DSA-87 public key of the seed (FIPS 204). -/
opaque dsaPublic : (seed : Bytes) → Bytes
/-- ML-DSA-87 signature: seed, context string, message. -/
opaque dsaSign : (seed : Bytes) → (ctx : String) → (msg : Bytes) → Bytes
/-- ML-DSA-87 verification: public key, context string, message, signature. -/
opaque dsaVerify : (pub : Bytes) → (ctx : String) → (msg sig : Bytes) → Bool
/-- The public key that an identity certificate certifies, when the certificate verifies under Grenarea's certificate key (R435). -/
opaque certKey : (certificate : Bytes) → Option Bytes
/-- AES-256-XTS decryption of a firmware image in 4 KiB data units under the FLASH_IMAGE key (R594). -/
opaque imageDecrypt : (key image : Bytes) → Bytes
/-- AES-256-XTS encryption of a firmware image (R594, R599). -/
opaque imageEncrypt : (key image : Bytes) → Bytes

/-- AES-256 of one 16-byte block (R272): key and block. -/
opaque aes256 : (key : Bytes) → (block : Nat) → Bytes
/-- The bytes in a flit of a packet that the model holds by its fields only, by strait and flit index (notes/assumptions/105.md). -/
opaque wireBytes : (strait index : Nat) → Bytes

/-! Per-unit data. -/

/-- UNIT_ID, 16 bytes (R446, R548). -/
opaque unitId : BitVec 128
/-- LH_UNIT_ID, 16 bytes (R527, R534). -/
opaque lhUnitId : BitVec 128
/-- The unique secret, 256 bits of hub OTP (R430). -/
opaque uniqueSecret : BitVec 256
/-- The Lighthouse's own unique secret, and the ML-DSA-87 seed of its identity, which derives from it in a way that the spec does not restate (R515). -/
opaque lhSecret : BitVec 256
opaque lhIdentity : BitVec 256 → Bytes
/-- Hours that Lighthouse flash holds beyond the 26,304 of R529. -/
opaque lhMoreHours : Nat
/-- SHA3-512 digests in OTP of Grenarea's keys: life cycle (R468), debug (R474), scan library (R494), firmware (R595), maker (R559). -/
opaque otpLifeCycleDigest : BitVec 512
opaque otpDebugDigest : BitVec 512
opaque otpScanDigest : BitVec 512
opaque otpFirmwareDigest : BitVec 512
opaque otpMakerDigest : BitVec 512
/-- Digests in Lighthouse OTP: calibration signer (R531) and life-cycle key (R532). -/
opaque lhCalDigest : BitVec 512
opaque lhLifeCycleDigest : BitVec 512
/-- BOOT_ROM_DIGEST and LH_FIRMWARE_DIGEST of R446. -/
opaque bootRomDigest : BitVec 512
opaque lhFirmwareDigest : BitVec 512
/-- The Lighthouse certificate (R529). -/
opaque lhCertificate : Bytes
/-- HW_REVISION (R547) and HW_CODE (R548). -/
opaque hwRevision : Bytes
opaque hwCode : BitVec 16
/-- FW_VERSION text of an image (R547). -/
opaque fwVersion : (image : Bytes) → Bytes
/-- What a read answers where the spec states no value: index, subindex and an argument of the query. -/
opaque openRead : (index sub arg : Nat) → Bytes
/-- The module-private area apart from the Bindery carve-out: it lies in T1 (R233) and leaves at least one page (notes/assumptions/2.md). -/
opaque t1PrivateSize : Fin (768 * 2 ^ 30 - 2 ^ 21 + 1)
/-- T1_PRIVATE_BYTES of R245 apart from the Bindery carve-out. -/
def t1PrivateBase : Nat := t1PrivateSize.val
/-- MIN and MAX of an object that accepts no write, which R545 does not state. -/
opaque descRange : (index sub : Nat) → Nat × Nat
/-- I3C characteristics registers and limits, which R567 names without values. -/
opaque i3cBcr : Byte
opaque i3cDcr : Byte
opaque i3cStatus : BitVec 16
opaque i3cMaxRead : BitVec 16
opaque i3cMaxWrite : BitVec 16
/-- The upper 16 bits of the I3C provisioned ID, which R567 leaves to MIPI I3C (random-value form). -/
opaque i3cPidHigh : BitVec 16

/-! Free values: applied to the model's own counter `State.free`, or to the operands they depend on. -/

/-- Draw number `n` of the hub's entropy source (R430), 32 bytes. -/
opaque entropy : Nat → BitVec 256
/-- A free number: what draw `n` gives where the spec states no value. -/
opaque freeNat : Nat → Nat
/-- A free byte string where the spec states no contents. -/
opaque freeBytes : Nat → Bytes

end Sys2Proof.Config
end

