-- ==== Sys2Proof/Machine/State.lean ====
section
/-!
DEFINITION. Machine/State.lean: everything the spec gives the module, as plain data, grouped by subsystem; the faults and refusals; and the state at reset.
Each field's comment reads: name | width or type | rule | value at reset. "model" marks a field that the spec implies (work in progress) and names no register for.
A register whose table gives no default is marked CHOICE with the number of its log entry under notes/assumptions.
-/

namespace Sys2Proof.Machine

/-! ## Values -/

/-- A status code of R8. -/
inductive Status where
  | done | partialDone | deferred | overrun | split | poisonIn | saturated | rescaled | integrity | uncorrectable | keyRevoked
  | quota | stashFull | gatheringLate | linkLost | peerFailed | snapshotLost | contribDropped | checkMismatch | checkResolved
  | denied | badDescriptor | overlap | internal
deriving DecidableEq, Repr

/-- An A48 entry (R13, R16): poisoned (exponent code 0x200), or element and exponent with value `el * 2^ex`. -/
inductive A48 where
  | poison
  | val (el ex : Int)
deriving DecidableEq, Repr

/-- A block of integer elements with its exponent (R14, R17); `none` is POISON. -/
structure Blk where
  ex : Option Int
  els : List Int
deriving DecidableEq, Repr

/-! ## Descriptors and programs (chapters 3 and 5) -/

/-- TYPE of a list entry (R162). -/
inductive EntryType where
  | product | chain | move
deriving DecidableEq, Repr

/-- A gradient tag (R133). -/
structure GradTag where
  session : Nat
  layer : Nat
  tensor : Nat
  onesRow : Bool
  row0 : Nat
  col0 : Nat
  reserved : Nat
deriving DecidableEq, Repr

/-- A pass descriptor (R163). -/
structure PassDesc where
  type : EntryType
  chainAddr : BitVec 64
  recordAddr : BitVec 64
  m0 : Nat
  n0 : Nat
  outStride : Nat
  outExp : Nat
  outElem : Nat
  strmExp : Nat
  strmElem : Nat
  statExp : Nat
  statElem : Nat
  raw : Bool
  source : Bool
  strmStride : Nat
  storeBase : Nat
  m : Nat
  statStride : Nat
  tileN : Nat
  tileK : Nat
  check : Nat
  tagged : Bool
  ones : Bool
  fold : Bool
  resident : Bool
  reading : Bool
  pane : Nat
  layout : Nat
  drain : Nat
  strmFmt : Nat
  statFmt : Nat
  reserved : Nat
deriving DecidableEq, Repr

/-- A mover descriptor (R170). -/
structure MoveDesc where
  tag : BitVec 128
  src : BitVec 64
  dst : BitVec 64
  srcPitch : Nat
  dstPitch : Nat
  rowBytes : Nat
  rows : Nat
  tagged : Bool
  fence : Bool
  reserved : Nat
deriving DecidableEq, Repr

/-- A list entry (R162). -/
inductive Entry where
  | pass (d : PassDesc)
  | move (d : MoveDesc)
  | bad
deriving DecidableEq, Repr

/-- A stage word (R96). -/
structure Stage where
  constEl : Int
  constEx : Int
  constExRaw : Nat
  statBase : Nat
  arg : Nat
  slot : Nat
  kind : Nat
  discard : Bool
  recip : Bool
  statComb : Bool
  statMem : Bool
  statBuf : Bool
  swap : Bool
  opcode : Nat
  reserved : Nat
deriving DecidableEq, Repr

/-- An operand slot (R97). -/
structure Slot where
  elemAddr : BitVec 64
  expAddr : BitVec 64
  lineLen : Nat
  fmt : Nat
  kind : Nat
  reserved : Nat
deriving DecidableEq, Repr

/-- A chain program (R94, R95). -/
structure Chain where
  rowstat : BitVec 64
  count : Nat
  reserved : Nat
  stages : List Stage
  slots : List Slot
deriving DecidableEq, Repr

/-- A piecewise-linear table resident in a chain engine (R107, R109). -/
structure Table where
  addr : BitVec 64
  poisoned : Bool
  segExp : Int
  xLoEl : Int
  xLoEx : Int
  ents : List (Int × Int × Int × Int)
  named : Nat
deriving DecidableEq, Repr

/-- A slice header (R175). -/
structure SliceHdr where
  tableAddr : BitVec 64
  halfAddr : BitVec 64
  predEnergy : Nat
  predCycles : Nat
  arrayCount : Nat
  version : Nat
  session : Nat
  priority : Nat
  withdraw : Bool
  reserved : Nat
deriving DecidableEq, Repr

/-- A stationary tile as loaded (R51): element rows along K, block exponents by K block and column, and the descriptor fields of R167. -/
structure Tile where
  fmt : Nat
  elem : Nat
  exp : Nat
  stride : Nat
  k : Nat
  n : Nat
  els : List (List Int)
  exps : List (List (Option Int))
deriving DecidableEq, Repr

/-- A streamed line: elements, and one exponent per block of 32. -/
structure Line where
  els : List Int
  exps : List (Option Int)
deriving DecidableEq, Repr

/-! ## Work in progress on the arrays (model) -/

/-- Progress of one list entry of a running slice (R173, R174, R187). -/
structure EntryRun where
  desc : Entry
  chain : Option Chain := none
  started : Bool := false
  ended : Bool := false
  /-- Conditions met (R10, R12). -/
  conds : List Status := []
  /-- Committed extent (R187). -/
  done : Nat := 0
  /-- Rows already added by earlier attempts of a RAW pass (R169). -/
  skip : Nat := 0
  /-- Rows drained, or groups read for a standalone pass. -/
  rows : Nat := 0
  /-- Rows that have left the quantiser. -/
  quanted : Nat := 0
  /-- Lines taken into the fold buffer so far (R131). -/
  folded : Nat := 0
  /-- The entry stopped early (R248, R415, R451) and touches nothing more. -/
  stopped : Bool := false
  /-- The row at which the pass stops, found when a write of its statistic failed (R248): the rows before it are still written. -/
  stopAt : Option Nat := none
  /-- Units that a mover has itself poisoned: space and 256-byte unit (R415). -/
  selfPoison : List (Nat × Nat) := []
  /-- The stationary tile has been loaded, and has become the working tile. -/
  loaded : Bool := false
  working : Bool := false
  /-- The stationary tile that the pass's rows have used: a re-run of a disputed pass uses the same values (R52, R490). -/
  tile : Option Tile := none
  /-- When the pass started, as the array counts starts (R109). -/
  stamp : Nat := 0
  /-- VECTOR slots read: slot and values (R100). -/
  vectors : List (Nat × List A48) := []
  busy : Nat := 0
  bubble : Nat := 0
  stall : Nat := 0
  load : Nat := 0
  chainBusy : Nat := 0
  clamps : Nat := 0
  domain : Nat := 0
  /-- Checking on (R488), the column-check taps minus predictions, the checks' verdict and whether they have finished (R485). -/
  checked : Bool := false
  colDiff : List (Nat × Nat × Int) := []
  checkFailed : Bool := false
  checkDone : Bool := false
  /-- Rows written and not yet committed behind the check gate (R489). -/
  provisional : Nat := 0
  /-- Quantise runs in TIGHT mode without merging, because the record was delivered poisoned (R416). -/
  recordPoisoned : Bool := false
deriving DecidableEq, Repr

/-- One array's part of an admitted slice (R176). -/
structure ArrayRun where
  array : ArrayId
  listAddr : BitVec 64
  entRec : BitVec 64
  entries : List EntryRun
  started : Bool := false
  finished : Bool := false
deriving DecidableEq, Repr

/-- An admitted slice, or half, running in the frame. -/
structure SliceRun where
  hdr : SliceHdr
  seq : Nat
  arrays : List ArrayRun
  order : Nat
  charged : Nat
deriving DecidableEq, Repr

/-- What the scheduler remembers of the slice or half that stands at the head of its ring (R184 to R190). -/
structure Subject where
  /-- Admitted at least once | model | R185 | no -/
  admitted : Bool := false
  /-- ATTEMPTS | 8 bits | R186 | 0 -/
  attempts : Nat := 0
  /-- Consecutive OVERRUNS | 8 bits | R186 | 0 -/
  overruns : Nat := 0
  /-- Its number and the address of its completion record, as its latest offering found them; none where RECORD_BASE names no virtual address | model | R182, R186, R195 | 0, none -/
  seq : Nat := 0
  recAddr : Option Nat := none
  /-- CYCLES, ENERGY_UJ and FRAME of its latest attempt | 32, 32, 64 bits | R186 | 0 -/
  cycles : Nat := 0
  energy : Nat := 0
  frame : Nat := 0
deriving DecidableEq, Repr

/-- One level of a split slice (R190): the halves block, which half is current, the retired first half's status and gradient rows, and the slice that was split. -/
structure HalfLevel where
  halfAddr : BitVec 64
  second : Bool
  firstStatus : Status
  firstGrad : Nat
  outer : Subject
deriving DecidableEq, Repr

/-- A slice ring (R181) and what the scheduler remembers of its head slice (R184, R190, R220). -/
structure Ring where
  /-- RING_ENABLE | BOOL | R181 | 0 -/
  enable : Bool := false
  /-- HEADER_BASE | U64 | R181 | 0 -/
  headerBase : BitVec 64 := 0
  /-- RECORD_BASE | U64 | R181 | 0 -/
  recordBase : BitVec 64 := 0
  /-- RING_SIZE | U32 | R181 | 0 -/
  size : BitVec 32 := 0
  /-- TAIL_ADDR | U64 | R181 | 0 -/
  tailAddr : BitVec 64 := 0
  /-- HEAD | U64 | R181 | 0 -/
  head : BitVec 64 := 0
  /-- RING_STATE | U8 | R181 | 0x00 -/
  state : BitVec 8 := 0
  /-- FAULT_STATUS | U8 | R181 | 0x00 -/
  faultStatus : BitVec 8 := 0
  /-- Tail word read last | 64 bits | R183, R194 | 0 -/
  tail : Nat := 0
  /-- The head slice, or its current half | model | R184 | as Subject -/
  subj : Subject := {}
  /-- Consecutive offerings passed over for energy | model | R220 | 0 -/
  passedOver : Nat := 0
  /-- Split levels, innermost first | model | R190 | none -/
  halves : List HalfLevel := []
  /-- The admitted slice of this frame | model | R184 | none -/
  run : Option SliceRun := none
  /-- Both halves have retired and only the outer record is still to be written: its status and gradient rows | model | R191, R194 | none -/
  closing : Option (Status × Nat) := none
  /-- Record owed to a slice offered and not admitted: every condition that kept it out, and the frame of its offering | model | R12, R188, R217 | none -/
  owed : Option (List Status × Nat) := none
deriving DecidableEq, Repr

/-- A candidate of the admission in progress (R217, R218). -/
structure Candidate where
  part : PartId
  ring : RingId
  hdr : SliceHdr
  seq : Nat
  arrays : List ArrayRun
  e : Nat
  /-- A gathering that it reads is late (R259). -/
  late : Bool
  /-- An array that it names is out for test (R218). -/
  away : Bool
  /-- Stash pages that it may write and that are not backed (R149). -/
  pages : List Nat
  /-- The conditions that its record will be chosen from while it is not admitted (R10, R12). -/
  conds : List Status := [.deferred]
  /-- It was eligible and lacked energy when it was considered last (R220). -/
  missed : Bool := false
deriving DecidableEq, Repr

/-- An admission stopped before pass 2 because a due candidate stands (R220): the pool, the candidates not admitted, what each partition was admitted, and the clocks and arrays taken so far. -/
structure Admission where
  pool : Int
  rest : List Candidate
  spent : List (PartId × Nat)
deriving DecidableEq, Repr

/-- A row on its way through a chain engine to its quantiser (R89 to R116). -/
structure ChainRow where
  entry : Nat
  m : Nat
  lanes : List A48
  /-- Statistics not yet landed: buffer entry if STAT_BUF, value, and whether STAT_MEM (R111, R113). -/
  stats : List (Option Nat × A48 × Bool)
deriving DecidableEq, Repr

/-- One streamed line in the feeders of an array (R54): a token in each of the queues of one edge, each with its valid bit, its elements and the exponent of its segment. -/
structure FeedLine where
  entry : Nat
  m : Nat
  valid : Bool := true
  line : Line
deriving DecidableEq, Repr

/-- The engines of one logical array: what R2, R51, R71, R109, R111 and R129 place below it. -/
structure ArrayEng where
  /-- The slice whose list runs here | model | R219 | none -/
  cur : Option (PartId × RingId) := none
  /-- Working registers of the cells, by pane: 16 * layout + pane and the tile | tiles | R51, R76 | none -/
  working : List (Nat × Tile) := []
  /-- Shadow registers of the cells: the entry whose tile was loaded, its pane and the tile | tile | R51 | none -/
  shadow : Option (Nat × Nat × Tile) := none
  /-- Accumulator store, 131,072 A48 entries; unlisted entries hold the canonical zero | R71, R73 | all zero -/
  store : List (Nat × A48) := []
  /-- Row-statistic buffer, 512 A48 entries; unlisted entries hold the canonical zero | R111 | all zero -/
  rowbuf : List (Nat × A48) := []
  /-- Tables held, at most 4 | R109 | none -/
  tables : List Table := []
  /-- Order in which tables were named | model | R109 | 0 -/
  tableClock : Nat := 0
  /-- Fold buffer, at most 2 halves: the entry a half serves, its first line and the transposed lines | 2 halves of 64 KiB | R129 | empty -/
  fold : List (Nat × Nat × List Line) := []
  /-- Row feeders, left edge, and column feeders, top edge: the lines queued, oldest first | 256 queues of 64 tokens each | R54, R65 | empty -/
  rowFeed : List FeedLine := []
  colFeed : List FeedLine := []
  /-- Rows in the chain engine, oldest first | model | R90 | none -/
  rows : List ChainRow := []
  /-- Groups of a standalone row read so far | model | R117 | none -/
  group : List A48 := []
  /-- Store ranges written by tagged passes, not yet flushed: base, length, entry | model | R136 | none -/
  tagged : List (Nat × Nat × Nat) := []
  /-- A dispute: first entry of the group, last entry, and the spare unit of its re-run | model | R490 | none -/
  dispute : Option (Nat × Nat × Option Nat) := none
  /-- Arrays named by no admitted slice are power-gated | model | R574 | yes -/
  gated : Bool := true
deriving DecidableEq, Repr

/-! ## Tick and governor (chapter 6) -/

/-- The frame tick (R199 to R207, R291 to R293). -/
structure TickState where
  /-- FRAME_PERIOD_US | U32 | R201 | 2000, persistent -/
  period : BitVec 32 := 2000
  /-- FRAME_NUMBER | U64 | R201 | CHOICE 0 (log 4) -/
  frame : BitVec 64 := 0
  /-- TICK_ROLE | U8 | R201 | 0x00 -/
  role : BitVec 8 := 0
  /-- TICK_PRIORITY | U16 | R201 | 0, persistent -/
  priority : BitVec 16 := 0
  /-- TICK_MASTER_ID | U16 | R201 | 0xFFFF -/
  master : BitVec 16 := 0xFFFF
  /-- PERIOD_IN_FORCE_US | U32 | R201 | CHOICE 2000 (log 4) -/
  inForce : BitVec 32 := 2000
  /-- TICK_OFFSET_NS | I32 | R201 | 0 -/
  offset : Int := 0
  /-- MISSED_TICKS | U32 | R201 | 0 -/
  missed : BitVec 32 := 0
  /-- Consecutive missed packets | model | R205 | 0 -/
  missedRun : Nat := 0
  /-- The module has joined the tick | model | R207 | no -/
  joined : Bool := false
  /-- Ticks since joining | model | R207 | 0 -/
  ticks : Nat := 0
  /-- Period announced for the tick after the next | model | R202 | none -/
  announced : Option Nat := none
  /-- Period announced in the latest TICK packet, in force from the next tick | model | R202 | none -/
  nextPeriod : Option Nat := none
  /-- Priority of the master followed | model | R203 | none -/
  masterPrio : Option Nat := none
  /-- Successors named by the master | model | R203 | 0xFFFF each -/
  succ1 : Device := 0xFFFF
  succ2 : Device := 0xFFFF
  /-- Parent strait | model | R293 | none -/
  parent : Option StraitId := none
  /-- Announces heard in this frame: strait and accumulated delay | model | R293 | none -/
  heard : List (StraitId × Nat) := []
  /-- Frame numbers whose announce has been forwarded | model | R291 | none -/
  forwarded : List Nat := []
  /-- Correction of the frame timer still owed, in ns | model | R204 | 0 -/
  owedNs : Int := 0
  /-- The running frame is cut or stretched to the winning master's tick | model | R206 | no -/
  adjusted : Bool := false
  /-- The frame number that the next tick adopts from a winning master | model | R206 | none -/
  adopt : Option Nat := none
  /-- A read of counters may not straddle step 1; frame of the latest latch | model | R551 | 0 -/
  latchedFrame : BitVec 64 := 0
deriving DecidableEq, Repr

/-- The energy governor (R211 to R221). -/
structure Governor where
  /-- MODULE_POWER_LIMIT_W | U16 | R211 | 3300, persistent -/
  limit : BitVec 16 := 3300
  /-- PEAK_POWER_LIMIT_W | U16 | R211 | 3800, persistent -/
  peak : BitVec 16 := 3800
  /-- THERMAL_SOFT_C | U8 | R211 | 95, persistent -/
  soft : BitVec 8 := 95
  /-- THERMAL_HARD_C | U8 | R211 | 105, persistent -/
  hard : BitVec 8 := 105
  /-- BASE_POWER_W | U16 | R211 | 700 -/
  base : BitVec 16 := 700
  /-- SLICE_BUDGET_UJ | U32 | R211 | CHOICE 0 (log 4) -/
  budget : BitVec 32 := 0
  /-- OVERSHOOT_UJ | U32 | R211 | 0 -/
  overshoot : BitVec 32 := 0
  /-- DERATE | U32 | R211 | 65,536 -/
  derate : BitVec 32 := 65536
  /-- THROTTLE_US | U32 | R211 | 0 -/
  throttleUs : BitVec 32 := 0
  /-- ENERGY_CORRECTION, 64 of U16 | R211 | 16,384 each -/
  correction : Vector (BitVec 16) 64 := Vector.replicate 64 16384
  /-- ALLOTMENT_UJ, 64 of U32 | R211 | 0 each -/
  allotment : Vector (BitVec 32) 64 := Vector.replicate 64 0
  /-- Values of limit, peak, soft and hard in force since the latest step 6 | model | R211 | the defaults -/
  inForce : Nat × Nat × Nat × Nat := (3300, 3800, 95, 105)
  /-- Energy issued for the frame in progress in uJ | model | R212 | none -/
  issued : Option Nat := none
  /-- Input energy measured for the frame just ended in uJ | model | R213 | 0 -/
  measured : Nat := 0
  /-- The peak guard throttles the arrays | model | R215 | no -/
  throttled : Bool := false
  /-- The due candidate of this frame has been taken | model | R220 | no -/
  dueTaken : Bool := false
  /-- Admission order counter | model | R219 | 0 -/
  order : Nat := 0
  /-- Admission stopped before pass 2 | model | R220 | none -/
  admission : Option Admission := none
deriving DecidableEq, Repr

/-! ## Partitions (chapters 7, 12, 16) -/

/-- State of a partition (R426). -/
inductive PartState where
  | free | created | active | removing
deriving DecidableEq, Repr

/-- The quotas of a partition: written, or in force since the latest step 4 (R426, R447). -/
structure Quotas where
  /-- ARRAY_BITMAP | OCTETS(16) | R426 | 0 -/
  bitmap : BitVec 128 := 0
  /-- T1_QUOTA_BYTES | U64 | R426 | 0 -/
  t1 : BitVec 64 := 0
  /-- T2_QUOTA_BYTES | U64 | R426 | 0 -/
  t2 : BitVec 64 := 0
  /-- ENERGY_SHARE | U16 | R426 | 1,024 -/
  share : BitVec 16 := 1024
  /-- FLOW_QUOTA | U32 | R426 | 1,024 -/
  flows : BitVec 32 := 1024
  /-- KEY_SLOT_QUOTA | U16 | R426 | 16 -/
  slots : BitVec 16 := 16
deriving DecidableEq, Repr

/-- A gathering entry as the engine holds it (R255). -/
structure Gathering where
  pbuf0 : BitVec 64 := 0
  pbuf1 : BitVec 64 := 0
  replica : BitVec 64 := 0
  bytes : Nat := 0
  winOff : Nat := 0
  layer : Nat := 0
  session : Nat := 0
  banks : Nat := 0
  control : Nat := 0
  /-- The entry is held (R257). -/
  held : Bool := false
  /-- CURRENT | 32 bits | R255 | 0xFFFF_FFFF (none) -/
  current : Option Nat := none
  /-- PUBLISHED | 32 bits | R255 | 0xFFFF_FFFF (none) -/
  published : Option Nat := none
  /-- BANK_VERSION, 4 of 32 bits | R255 | 0 -/
  bankVersion : Vector Nat 4 := Vector.replicate 4 0
  /-- BANK_STATE, 4 of 2 bits: 0 EMPTY, 1 ARRIVING, 2 RESIDENT, 3 POISONED | R255 | 0 -/
  bankState : Vector (BitVec 2) 4 := Vector.replicate 4 0
  /-- LAST_STATUS | 8 bits | R255 | 0x00 -/
  lastStatus : BitVec 8 := 0
  /-- HEAL_PENDING | 1 bit | R255 | 0 -/
  healPending : Bool := false
  /-- Step 4 of the latest tick released it because the window shrank | model | R232, R267 | no -/
  shrunk : Bool := false
deriving DecidableEq, Repr

/-- A removal in progress (R450 to R455). -/
structure Removal where
  requestFrame : Nat
  aborted : Nat
  dropped : Nat
  forced : Bool
deriving DecidableEq, Repr

/-- A partition: its object 0x3000 + p, its memory object 0x5040 + p and its statistics 0x3100 + p. -/
structure Part where
  /-- PART_STATE | U8 | R426 | FREE -/
  state : PartState := .free
  /-- CLASS | U8 | R426 | 0x00 SERVE -/
  cls : BitVec 8 := 0
  /-- Subindexes 02 to 07 as last written | R426 | defaults of Quotas -/
  written : Quotas := {}
  /-- The same in force since the latest step 4 | R223, R447 | defaults of Quotas -/
  force : Quotas := {}
  /-- CREATE pending for the next step 4 | model | R427 | no -/
  createPending : Bool := false
  /-- OP_STATUS | U8 | R426 | 0x00 -/
  opStatus : BitVec 8 := 0
  /-- EPOCH | U8 | R426 | 0 -/
  epoch : BitVec 8 := 0
  /-- KEY_ID | OCTETS(16) | R426 | 0 -/
  keyId : BitVec 128 := 0
  /-- HOST_GRANT | BOOL | R426 | 0 -/
  hostGrant : Bool := false
  /-- JOINT_SESSION | U8 | R426 | 0xFF -/
  jointSession : BitVec 8 := 0xFF
  /-- JOINT_KEY_ID | OCTETS(16) | R426 | 0 -/
  jointKeyId : BitVec 128 := 0
  /-- REMOVAL_RECORD | OCTETS(32) | R426, R455 | 0 -/
  removalRecord : BitVec 256 := 0
  /-- The removal in progress | model | R450 | none -/
  removal : Option Removal := none
  /-- GEN parity of occupancy entries, inverted by each CREATE | 1 bit | R519 | 0 -/
  gen : Bool := false
  /-- MEM_STATE: 1 OVER_QUOTA | U8 | R245 | 0x00 -/
  overQuota : Bool := false
  /-- GATHER_TABLE | U64 | R245 | 0 -/
  gatherTable : BitVec 64 := 0
  /-- GATHER_COUNT | U16 | R245 | 0 -/
  gatherCount : BitVec 16 := 0
  /-- GATHER_TABLE in force since the latest step 3 | model | R255 | 0 -/
  gatherTableForce : BitVec 64 := 0
  /-- The engine's own copy of the entries, by index | model | R255 | none -/
  gatherings : List Gathering := []
  /-- ROTATION_STATE: 1 ROTATING | U8 | R417 | 0x00 -/
  rotating : Bool := false
  /-- Removals UNMAP and DISCARD waiting for step 4: page number, discard only | model | R246 | none -/
  releases : List (Nat × Bool) := []
  /-- Live counters 0x3100+p:00 to :1F by subindex, U64 each | R552 | 0 -/
  live : Vector (BitVec 64) 32 := Vector.replicate 32 0
  /-- Latched twins of the same | R551 | 0 -/
  latched : Vector (BitVec 64) 32 := Vector.replicate 32 0
  /-- STATUS_EVENTS, U32 by status code | R552 | 0 -/
  events : Vector (BitVec 32) 128 := Vector.replicate 128 0
  /-- Latched twin of STATUS_EVENTS | R551 | 0 -/
  eventsLatched : Vector (BitVec 32) 128 := Vector.replicate 128 0
  /-- POISONED_SECTORS live, and its twin | U64 | R417 | 0 -/
  poisonedSectors : BitVec 64 := 0
  poisonedLatched : BitVec 64 := 0
  /-- LATCHED_FRAME | U64 | R551 | 0 -/
  latchedFrame : BitVec 64 := 0
deriving DecidableEq, Repr

/-! ## Memory tiers and their protection (chapters 7 and 11) -/

/-- Where a page lies (TIER and LOCATOR of R240). -/
inductive Loc where
  | t1 (frame : Nat)
  | t2 (homeset slot : Nat)
  | unbacked
deriving DecidableEq, Repr

/-- A leaf page-table entry (R240); ACC of R249 beside it. -/
structure Leaf where
  loc : Loc
  stash : Bool
  param : Bool
  pin : Bool
  migrating : Bool := false
  heat : Nat := 0
  acc : Nat := 0
deriving DecidableEq, Repr

/-- Cause of a re-encryption (REASON of R399). -/
inductive Reason where
  | wrap | rotation | loss
deriving DecidableEq, Repr

/-- A region record (R399). -/
structure Region where
  /-- GEN | 32 bits | R399 | 0 -/
  gen : Nat := 0
  /-- EPOCH | 8 bits | R399 | 0 -/
  epoch : BitVec 8 := 0
  /-- WATERMARK | 14 bits | R399 | 0 -/
  watermark : Nat := 0
  /-- STATE is REKEYING | 2 bits | R399 | STEADY -/
  rekeying : Bool := false
  /-- REASON | 2 bits | R399 | 0b00 WRAP -/
  reason : Reason := .wrap
  /-- PEAK | 16 bits | R399 | 0 -/
  peak : Nat := 0
  /-- OLD_EPOCH | 8 bits | R399 | 0 -/
  oldEpoch : BitVec 8 := 0
  /-- SLOT | 19 bits | R399 | 0 -/
  slot : Nat := 0
  /-- A tree loss reached the region while it was copying or under re-encryption, and its re-encryption for LOSS is still to come | model | R252, R405, R413 | no -/
  lossDue : Bool := false
  /-- The old generation's PEAK, kept in the controller while REKEYING | model | R406 | 0 -/
  oldPeak : Nat := 0
  /-- Reads in flight under the old generation, and under the current one | model | R407 | 0 -/
  inFlightOld : Nat := 0
  inFlight : Nat := 0
  /-- Order in which the region entered re-encryption | model | R406 | 0 -/
  entered : Nat := 0
deriving DecidableEq, Repr

/-- A page copy in progress (R251). -/
structure Migration where
  part : PartId
  page : Nat
  dst : Loc
  watermark : Nat
  failed : Bool := false
deriving DecidableEq, Repr

/-- A home of the pool home list (R242). -/
structure Home where
  base : BitVec 64
  bytes : Nat
deriving DecidableEq, Repr

/-- A home set (R243): contribution per home, the homes' list indexes with each contribution's start, and slot count. -/
structure HomeSet where
  contribution : Nat
  homes : List (Nat × Nat)
  slots : Nat
deriving DecidableEq, Repr

/-- A gathering fetch (R258). -/
structure Fetch where
  part : PartId
  entry : Nat
  bank : Nat
  version : Nat
  pos : Nat := 0
  started : Bool := false
  poisoned : Bool := false
deriving DecidableEq, Repr

/-- A read of a T2 sector waiting on the fabric (R402, R407). -/
structure WaitRead where
  flow : Nat
  tag : Nat
  part : PartId
  va : Nat
  gen : Nat
  ctr : Nat
deriving DecidableEq, Repr

/-- The memory of the module. -/
structure Mem where
  /-- Window space of each partition as bytes by offset; unlisted bytes are zero | T0 | R230, R232 | all zero -/
  window : Vector (List Host.Cell) 64 := Vector.replicate 64 []
  /-- 256-byte window ranges marked poisoned | R415, R503 | none -/
  winPoison : Vector (List Nat) 64 := Vector.replicate 64 []
  /-- Granules of a changed bitmap still to be copied: partition, granule | model | R232 | none -/
  moves : List (PartId × Nat) := []
  /-- T1: ciphertext and tag by frame * 8192 + sector | 768 GiB | R233, R388 | nothing stored -/
  t1 : List (Nat × StoredSector) := []
  /-- This module's sectors on pool homes, by global address of the sector | T2 | R244, R236 | nothing stored -/
  t2 : List (Nat × StoredSector) := []
  /-- Ranges lent to the pool: borrowers' sectors by offset / 256 | R236 | nothing stored -/
  lent : List (Nat × StoredSector) := []
  /-- Counters by slot * 8192 + sector; unlisted counters are UNWRITTEN | 16 bits | R394, R395 | 0x0000 -/
  ctrs : List (Nat × Nat) := []
  /-- Counter slots in use | 393,216 slots | R395 | none -/
  slots : List Nat := []
  /-- Counter-tree words by stack, child level and child index: bit 63 WRITTEN, [55:0] MAC | R396 | 0 -/
  tree : List ((Nat × Nat × Nat) × BitVec 64) := []
  /-- Lines held by the counter-and-tag caches: stack, level, index | R398 | none -/
  cache : List (Nat × Nat × Nat) := []
  /-- Those of them that are dirty: written since they came in and not written back | R398, R422 | none -/
  dirty : List (Nat × Nat × Nat) := []
  /-- Non-leaf entries that are VALID, by partition: level and the address bits that lead to the entry, and its NEXT | 40 bits | R238, R239 | none -/
  tables : Vector (List (Nat × Nat)) 64 := Vector.replicate 64 []
  /-- Translation caches of the array dies and the hub: die, partition and page of the leaf entries held, at most 4,096 a die | R238 | none -/
  tlb : List (Nat × PartId × Nat) := []
  /-- Leaf entries by partition, ascending page number | R238, R240 | none -/
  pages : Vector (List (Nat × Leaf)) 64 := Vector.replicate 64 []
  /-- Region records by partition, ascending page number | R399 | none -/
  regions : Vector (List (Nat × Region)) 64 := Vector.replicate 64 []
  /-- Stack of the frame allocated last, and of the counter slot taken last | model | R233, R395 | before stack 0 -/
  lastStack : Nat := 23
  lastSlotStack : Nat := 23
  /-- Page copies in progress | model | R251 | none -/
  migrations : List Migration := []
  /-- Pool home list, 1,024 entries | R242 | unused -/
  homes : List (Nat × Home) := []
  /-- Home sets by index, at most 4,096 | R243 | none -/
  sets : List (Nat × HomeSet) := []
  /-- Homes found failed since the last step 4 | model | R263 | none -/
  failedHomes : List Nat := []
  /-- NARROW_SETS | count | R243 | 0 -/
  narrowSets : Nat := 0
  /-- T2_STRIPE_WIDTH | U16 | R245 | 32, persistent -/
  stripe : BitVec 16 := 32
  /-- POOL_LEND_BYTES | U64 | R245 | 0, persistent -/
  lendBytes : BitVec 64 := 0
  /-- MIGRATION_PAGES_PER_TICK | U16 | R245 | 256, persistent -/
  migPages : BitVec 16 := 256
  /-- PROMOTE_HEAT | U16 | R245 | 256, persistent -/
  promoteHeat : BitVec 16 := 256
  /-- Gathering fetches in queue order | model | R258 | none -/
  fetches : List Fetch := []
  /-- Reads waiting on the fabric | model | R407 | none -/
  waits : List WaitRead := []
  /-- Sector CAS operations that wait for their result: flow and tag | model | R289 | none -/
  casWaits : List (Nat × Nat) := []
  /-- Entries into re-encryption so far | model | R406 | 0 -/
  rekeyClock : Nat := 0
  /-- 0x5080:01 to :08 live by subindex: RS_CORRECTED, RS_UNCORRECTABLE, TAG_FAILURES, TREE_LOSSES, REKEYS, REKEY_WAITS, CACHE_HITS, CACHE_MISSES | U64 | R417 | 0 -/
  counters : Vector (BitVec 64) 16 := Vector.replicate 16 0
  /-- Latched twins of 0x5080 | U64 | R551 | 0 -/
  countersLatched : Vector (BitVec 64) 16 := Vector.replicate 16 0
  /-- Stacks whose refresh is doubled | model | R254 | none -/
  doubledRefresh : List StackId := []
  /-- STACKS_FAILED as stack numbers | U32 | R587, R600 | 0 -/
  stacksFailed : List Nat := []
  /-- Stacks in self-refresh | model | R254, R582 | none -/
  selfRefresh : Bool := false
  /-- Root words saved in hub SRAM | model | R422 | none -/
  savedRoots : List ((Nat × Nat × Nat) × BitVec 64) := []
  /-- On-die scrub results per stack, counted over the ticks | count | R254 | 0 -/
  scrub : List (StackId × Nat) := []
  /-- Temperature that each stack read last, in whole degrees C | model | R254 | none read -/
  stackTemps : List (StackId × Nat) := []
deriving DecidableEq, Repr

/-! ## Fabric (chapter 8) -/

/-- LINK_STATE codes (R275). -/
inductive LinkState where
  | off | detect | training | handshake | up | host | failed
deriving DecidableEq, Repr

/-- A packet the module sends (R282, R283): its header fields, and its payload sealed under the flow's key with the tag after it. `flow` is the sender's own context. -/
structure OutPkt where
  flow : Nat
  psn : Nat
  ackPsn : Nat
  ackValid : Bool
  dest : Device
  src : Device
  destFlow : Nat
  len : Nat
  cls : Nat
  op : Nat
  keygen : Bool
  hops : Nat := 16
  csf : Nat
  body : Bytes
deriving DecidableEq, Repr

/-- A packet that waits for credit (R274): one of this module, sent first or again, or one that passes through. -/
inductive Waiting where
  | own (o : OutPkt) (again : Bool)
  | through (p : Pkt) (cls op len : Nat)
deriving DecidableEq, Repr

/-- A flit as it was sent (R271 to R273): its index since the hop key was installed, the key's generation, the lane replaced by lane 8, its header and its ciphertext. -/
structure SentFlit where
  index : Nat
  gen : Nat
  spare : BitVec 8
  header : BitVec 40
  cipher : Bytes
deriving DecidableEq, Repr

/-- Slots of the receiver's buffers by virtual channel (R274). -/
def bufferSlots : Vector Nat 5 := #v[64, 1024, 2048, 2048, 2048]

/-- A strait (R269 to R279). -/
structure Strait where
  /-- LINK_STATE | U8 | R279 | 0x00 OFF -/
  link : LinkState := .off
  /-- STRAIT_MODE | U8 | R279 | 0x01 FABRIC, persistent -/
  mode : BitVec 8 := 1
  /-- DELAY_ASYM_NS | I16 | R279 | 0, persistent -/
  asym : BitVec 16 := 0
  /-- WIDTH | U8 | R279 | 0 -/
  width : BitVec 8 := 0
  /-- SPARE_IN_USE | U8 | R279 | 0xFF -/
  spare : BitVec 8 := 0xFF
  /-- PEER_DEVICE | U16 | R279 | 0xFFFF -/
  peer : Device := 0xFFFF
  /-- PEER_STRAIT | U8 | R279 | 0xFF -/
  peerStrait : BitVec 8 := 0xFF
  /-- LINK_DELAY_NS | U32 | R279 | 0 -/
  delay : BitVec 32 := 0
  /-- 10 to 15 live by subindex - 0x10: FEC_CORRECTED, FEC_UNCORRECTED, REPLAYS, RETRAINS (U32, not live), TX_SLOTS, RX_SLOTS | U64 | R279 | 0 -/
  counters : Vector (BitVec 64) 6 := Vector.replicate 6 0
  /-- Latched twins | U64 | R551 | 0 -/
  latched : Vector (BitVec 64) 6 := Vector.replicate 6 0
  /-- TAG_FAILURES of the strait | count | R284, R298 | 0 -/
  tagFailures : Nat := 0
  /-- Failed trainings in a row | model | R278 | 0 -/
  trainFails : Nat := 0
  /-- Failed replays of the same flit in a row | model | R278 | 0 -/
  replayFails : Nat := 0
  /-- Lanes found faulty | model | R276, R505 | none -/
  badLanes : List (Fin 9) := []
  /-- A lane swap agreed and not yet in force: the lane, and the flit index | model | R276 | none -/
  swap : Option (Fin 9 × Nat) := none
  /-- Index of the next flit to send | 64 bits | R272 | 0 -/
  txIndex : Nat := 0
  /-- Flits kept for replay, oldest first | 2,048 flits | R273 | none -/
  replay : List SentFlit := []
  /-- Packets that wait for credit, per virtual channel | model | R274 | none -/
  queue : Vector (List Waiting) 5 := Vector.replicate 5 []
  /-- What VC 1 to 4 may still send in the round of their weights | packets | R274 | 0 -/
  turn : Vector Nat 4 := Vector.replicate 4 0
  /-- Index of the flit expected next | model | R272 | 0 -/
  rxIndex : Nat := 0
  /-- A NAK has been sent and not answered | model | R273 | no -/
  nakSent : Bool := false
  /-- Credit held per virtual channel | slots | R274 | CHOICE the peer's buffers (log 106) -/
  credit : Vector Nat 5 := bufferSlots
  /-- Slots in this end's receive buffers per virtual channel | slots | R274 | 0 -/
  held : Vector Nat 5 := Vector.replicate 5 0
  /-- Slots freed and not yet returned as credit | slots | R274 | 0 -/
  owed : Vector Nat 5 := Vector.replicate 5 0
  /-- Latest hop key generation per direction (tx, rx), and the flit index from which it is in force | R309 | 0 -/
  hopGen : Nat × Nat := (0, 0)
  hopSwitch : Option Nat × Option Nat := (none, none)
  /-- Departure of the outstanding probe | model | R292 | none -/
  probeT1 : Option Nat := none
  /-- IDE stream established in HOST mode | model | R298 | no -/
  ide : Bool := false
deriving DecidableEq, Repr

/-- State of a flow context (R287). -/
inductive FlowState where
  | free | opening | opened | closing | lost | revoked
deriving DecidableEq, Repr

/-- A flow context (R287). -/
structure Flow where
  /-- TX_PSN | 48 bits | R287 | 0 -/
  txPsn : Nat := 0
  /-- ACKED_PSN | 48 bits | R287 | 0 -/
  ackedPsn : Nat := 0
  /-- RX_PSN | 48 bits | R287 | 0 -/
  rxPsn : Nat := 0
  /-- PEER_FLOW | 18 bits | R287 | 0 -/
  peerFlow : Nat := 0
  /-- PEER_DEVICE | 16 bits | R287 | 0xFFFF -/
  peer : Device := 0xFFFF
  /-- OWNER | 8 bits | R287 | 0 -/
  owner : Nat := 0
  /-- TX_KEY_SLOT, RX_KEY_SLOT | 12 bits each | R287 | 0 -/
  txKey : Nat := 0
  rxKey : Nat := 0
  /-- CLASS_MASK as the classes permitted | 9 bits | R287 | 0 -/
  classes : List Nat := []
  /-- ROUTE, the number of the candidate in use | 2 bits | R287 | 0 -/
  route : Nat := 0
  /-- KEYGEN | 1 bit | R287 | 0 -/
  keygen : Bool := false
  /-- RETRIES | 4 bits | R287 | 0 -/
  retries : Nat := 0
  /-- LAST_STATUS | 8 bits | R287 | 0x00 -/
  lastStatus : BitVec 8 := 0
  /-- STATE | 8 bits | R287 | 0x00 FREE -/
  state : FlowState := .free
  /-- Packets sent and not acknowledged | model | R285 | none -/
  unacked : List OutPkt := []
  /-- Slots of the previous key generation, send and receive, while it is held | model | R285 | none -/
  oldKeys : Option (Nat × Nat) := none
  /-- Tag failures of the expected PSN in a row | model | R284 | 0 -/
  tagFails : Nat := 0
  /-- Bindery session served | model | R286 | none -/
  session : Option SessIx := none
  /-- Frame of the latest use | model | R436 | 0 -/
  used : Nat := 0
deriving DecidableEq, Repr

/-- An aperture entry (R299). -/
structure Aperture where
  raw : BitVec 128
  /-- Treated as INVALID since the partition it names was removed | model | R451 | no -/
  voided : Bool := false
deriving DecidableEq, Repr

/-- A causeway (R294, R295). -/
structure Causeway where
  /-- Marked failed | model | R295 | no -/
  failed : Bool := false
  /-- Resends of one unit in a row | model | R295 | 0 -/
  resendRun : Nat := 0
  /-- Index of the unit expected next, towards the first and towards the second of the dies it joins | 64 bits | R294 | 0 -/
  next : Nat × Nat := (0, 0)
  /-- Index of the unit sent next, by direction | 64 bits | R294 | 0 -/
  sent : Nat × Nat := (0, 0)
  /-- Replay buffer, by direction: the last 1,024 units sent, each with its index and as it was sealed | R294 | empty -/
  replay : List (Nat × Bytes) × List (Nat × Bytes) := ([], [])
deriving DecidableEq, Repr

/-- A handshake in progress (R434). -/
structure HsState where
  hop : Option StraitId
  opener : Bool
  peer : Device
  /-- The peer's HELLO or REPLY fields, once heard. -/
  peerCert : Bytes := []
  peerDebug : Bool := false
  peerFw : BitVec 512 := 0
  /-- The shared secret of our own encapsulation, and the transcript so far. -/
  ss : Bytes := []
  transcript : Bytes
deriving DecidableEq, Repr

/-- A host read sent on a host flow and not yet completed (R300, R301): the sectors asked for by tag, and those that came. -/
structure HostWait where
  strait : StraitId
  flow : Nat
  off : Nat
  len : Nat
  tags : List Nat
  got : List (Nat × Bytes) := []
  /-- Posted writes of its endpoint that were unacknowledged when it came: strait, flow and PSN (R301). -/
  after : List (StraitId × Nat × Nat) := []
  failed : Bool := false
deriving DecidableEq, Repr

/-- The fabric side of the hub. -/
structure Fabric where
  /-- S0 to S17 | R269 | defaults of Strait -/
  straits : Vector Strait 18 := Vector.replicate 18 {}
  /-- Open flow contexts by number, of 262,144 | R286, R287 | none -/
  flows : List (Nat × Flow) := []
  /-- Route table by destination | 32 bits | R281 | 0, persistent -/
  routes : List (Nat × BitVec 32) := []
  /-- DEVICE_ID | U16 | R280 | 0xFFFF, persistent -/
  deviceId : Device := 0xFFFF
  /-- DEVICE_ID in force since the latest reset | model | R280 | 0xFFFF -/
  idInForce : Device := 0xFFFF
  /-- VC_WEIGHT 01 to 04 | U8 each | R274 | 64, persistent -/
  vcWeight : Vector (BitVec 8) 4 := Vector.replicate 4 64
  /-- FERRY_DEVICE | U16 | R296 | 0xFFFF, persistent -/
  ferry : Device := 0xFFFF
  /-- APERTURE_BYTES | U64 | R299 | CHOICE 0x20_0000 (log 4), persistent -/
  apertureBytes : BitVec 64 := 0x200000
  /-- APERTURE_BYTES in force since the latest reset | model | R299 | 0x20_0000 -/
  apertureForce : Nat := 0x200000
  /-- Aperture entries by granule | OCTETS(16) | R299 | 0, persistent -/
  aperture : List (Nat × Aperture) := []
  /-- Causeways 0 to 7 | R295, R483 | working -/
  causeways : Vector Causeway 8 := Vector.replicate 8 {}
  /-- CAUSEWAY_STATS 01 to 08: units, resends, relayed, detoured, of the hub causeways and then of the neighbour causeways (log 12) | U64 | R295 | 0 -/
  causewayStats : Vector (BitVec 64) 8 := Vector.replicate 8 0
  /-- UNROUTABLE, TAG_FAILURES, KEY_REVOKED, dropped for reserved fields, WAKE sets emitted, failed handshakes | counts | R281, R283, R284, R290, R304, R435 | 0 -/
  unroutable : Nat := 0
  tagFailures : Nat := 0
  keyRevoked : Nat := 0
  dropped : Nat := 0
  wakes : Nat := 0
  hsFailures : Nat := 0
  /-- Handshakes in progress | model | R434 | none -/
  handshakes : List HsState := []
  /-- Mailbox slots with GO set: strait, slot, request ID, device addressed | model | R565 | none -/
  mailbox : List (StraitId × Fin 16 × BitVec 16 × Device) := []
  /-- Host reads waiting for their data | model | R300, R301 | none -/
  hostWaits : List HostWait := []
  /-- Packets of posted host writes: strait, flow and PSN | model | R301 | none -/
  hostPosts : List (StraitId × Nat × Nat) := []
deriving DecidableEq, Repr

/-! ## Keys (chapter 12) -/

/-- A key slot (R431): its attribute word's fields and the value that no object reads. -/
structure KeySlot where
  /-- STATE is REVOKED (a listed slot is otherwise LIVE) | 2 bits | R431 | FREE -/
  revoked : Bool := false
  /-- OWNER | 8 bits | R431 | 0x00 -/
  owner : Nat
  /-- EPOCH | 8 bits | R431 | 0 -/
  epoch : Nat
  /-- PURPOSE | 8 bits | R432 | 0x00 -/
  purpose : Nat
  /-- KIND | 4 bits | R431 | 0x0 -/
  kind : Nat
  /-- PARENT | 13 bits | R431 | 0x1FFF -/
  parent : Nat := 0x1FFF
  /-- MASK | 7 bits | R431 | 0 -/
  mask : Nat
  /-- Peer or index the key serves | model | R432 | 0 -/
  tag : Nat := 0
  value : Bytes
deriving DecidableEq, Repr

/-- The key ladder. -/
structure Keys where
  /-- Key slots in use by number, of 4,096 | R431, R432 | none -/
  slots : List (Nat × KeySlot) := []
  /-- LADDER_REFUSALS | count | R433 | 0 -/
  refusals : BitVec 64 := 0
  /-- Nonces of the last 64 signed reports, each with "used by an import" | R439 | none -/
  nonces : List (BitVec 256 × Bool) := []
  /-- Firmware digest of each peer with a pair key | model | R435 | none -/
  peerFw : List (Nat × BitVec 512) := []
deriving DecidableEq, Repr

/-! ## The Bindery (chapters 9 and 10) -/

/-- A tensor entry of the configuration block (R314). -/
structure TensorCfg where
  rows : Nat
  cols : Nat
  imageElem : Nat
  imageExp : Nat
  initAddr : BitVec 64
  workFmt : Nat
  workMode : Nat
  decay : Nat
deriving DecidableEq, Repr

/-- A layer entry (R314). -/
structure LayerCfg where
  firstTensor : Nat
  tensorCount : Nat
  ownerRank : Nat
  optimizer : Nat
  imageBytes : Nat
deriving DecidableEq, Repr

/-- A rank entry (R314). -/
structure RankCfg where
  device : Device
  part : PartId
  owner : Bool
deriving DecidableEq, Repr

/-- A session's configuration block (R313, R314). -/
structure SessCfg where
  session : Nat
  cls : Nat
  baseStep : Nat
  b1 : Nat
  b2 : Nat
  lr : Nat
  wd : Nat
  epsEl : Int
  epsEx : Int
  lrExp : Nat
  initReduce : Int
  headroom : Nat
  deadline : Nat
  foldWindow : Nat
  minOwners : Nat
  keepers : Nat
  snapPeriod : Nat
  ranks : List RankCfg
  layers : List LayerCfg
  tensors : List TensorCfg
  steps : List (Nat × Nat × Nat)
deriving DecidableEq, Repr

/-- A partial or contribution of one bucket (R322, R326): exponent (none POISON) and its entries by index. -/
structure Partial where
  ex : Option Int
  ents : List (Nat × Int)
  rescaled : Bool := false
deriving DecidableEq, Repr

/-- A scale-state record (R34). -/
structure ScaleRec where
  openFrame : Nat := 0
  histValid : List Bool := []
  history : List Int := []
  satCount : Nat := 0
  openNeed : Int := -127
  openValid : Bool := false
  poisonSeen : Bool := false
  sat : Bool := false
  frozen : Bool := false
  histPos : Nat := 0
  histLen : Nat := 16
  headroom : Nat := 1
  heldExp : Int := 0
  mode : Nat := 0
  fmt : Nat := 0
  reserved : Nat := 0
deriving DecidableEq, Repr

/-- Owner state of one tensor: master BI32, first and second moment, and the records of master, m, s and working copy (R336, R341). -/
structure OwnTensor where
  master : List Blk
  m : List Blk
  s : List Blk
  recs : List ScaleRec
deriving DecidableEq, Repr

/-- A committed row of a TREE step (R320): its ring, slice, array, list entry and row, and the elements that its entries name. -/
structure WaitRow where
  ring : Nat
  seq : Nat
  array : Nat
  entry : Nat
  row : Nat
  cells : List (Nat × A48)
deriving DecidableEq, Repr

/-- A rank's own work on one step of a layer (R319 to R327). -/
structure StepWork where
  step : Nat
  /-- Step buffer G by block of 64 elements (R319). -/
  g : List (Nat × Blk) := []
  /-- Rows committed in TREE mode that wait for the next tick (R320). -/
  waiting : List WaitRow := []
  closed : Bool := false
  withheld : Bool := false
  /-- Contribution built and retained: bucket, partial, sent (R323). -/
  contrib : List (Nat × Partial × Bool) := []
  /-- Partials waiting for the fold window (R327). -/
  held : List (Nat × Partial) := []
  /-- A roll held until the rank closes (R327). -/
  roll : Option (List Nat) := none
  /-- RECOVER has come for the step (R333): this rank answers with leaves. -/
  recovered : Bool := false
deriving DecidableEq, Repr

/-- The owner's reduction of one step of a layer (R328 to R335). -/
structure Reduction where
  step : Nat
  tree : Bool
  recovering : Bool := false
  /-- A48 accumulator by element (R328). -/
  acc : List (Nat × A48) := []
  /-- Leaves by rank and bucket (R329). -/
  leaves : List (Nat × Nat × Partial) := []
  /-- Ranks counted (roll bits, or leaves), ranks whose leaf is whole, and ranks that gave notice. -/
  counted : List Nat := []
  given : List Nat := []
  absent : List Nat := []
  dropped : List Nat := []
  rescaled : List Nat := []
  selfDone : Bool := false
  rollDone : Bool := false
  deadline : Nat
deriving DecidableEq, Repr

/-- A snapshot shadow (R363): its step, its bytes, and at a keeper the chunks received. -/
structure Shadow where
  step : Nat
  bytes : Bytes
  complete : Bool
  /-- Ranks that keep it (R364), and the next chunk to tip in (R365). -/
  keepers : List Nat := []
  next : Nat := 0
deriving DecidableEq, Repr

/-- A keeper's copy (R364, R365): owner rank, step, chunks received. -/
structure KeepCopy where
  owner : Nat
  step : Nat
  chunks : List (Nat × Bytes)
  complete : Bool
deriving DecidableEq, Repr

/-- A published version that an owner keeps (R340), or that a rank receives (R339): chunk number and bytes. -/
structure Version where
  version : Nat
  chunks : List (Nat × Bytes)
  firstFrame : Nat := 0
  published : Bool := false
  /-- Image chunks that stand in the parameter buffer; one that waits for a running fetch does not (R339). -/
  placed : List Nat := []
deriving DecidableEq, Repr

/-- One layer of a session at this rank. -/
structure Layer where
  /-- Versions being received or received (R339). -/
  recv : List Version := []
  /-- Agreed exponents and mode by version: bucket exponents, TREE (R334, R320). -/
  agreed : List (Nat × List Int × Bool) := []
  /-- Residual by block of 64 elements (R322). -/
  residual : List (Nat × Blk) := []
  steps : List StepWork := []
  /-- Steps closed or withheld (R319, R321). -/
  closed : List Nat := []
  /-- Owner state (R317): tensors, kept versions, reduction, shadows. -/
  tensors : List OwnTensor := []
  kept : List Version := []
  reduction : List Reduction := []
  late : Nat := 0
  shadows : List Shadow := []
  keeps : List KeepCopy := []
  /-- Restore in progress: step wanted, keepers still to ask, chunks received (R371). -/
  restore : Option (Nat × List Nat × List (Nat × Bytes)) := none
  /-- The version received last from the owner (R366). -/
  newest : Option Nat := none
  /-- Buckets of which not every part has come: flow, step, bucket, next part, and what came (R324). -/
  parts : List (Nat × Nat × Nat × Nat × Partial) := []
  /-- Ranks that departed since the last record of the layer (R343). -/
  departed : List Nat := []
  /-- Frame in which the keeper was asked last (R371). -/
  restoreAsked : Nat := 0
deriving DecidableEq, Repr

/-- Elastic state of a session (R355 to R381). -/
structure Elastic where
  /-- ROSTER_EPOCH | U32 | R361 | 0 -/
  epoch : Nat := 0
  /-- LIVE_RANKS as ranks | OCTETS(512) | R361 | none -/
  live : List Nat := []
  /-- COORDINATOR | U16 | R361 | 0xFFFF -/
  coordinator : Option Nat := none
  /-- SNAPSHOT_STEP | U32 | R361 | 0xFFFF_FFFF -/
  snapshot : BitVec 32 := 0xFFFFFFFF
  /-- PREV_SNAPSHOT_STEP | U32 | R361 | 0xFFFF_FFFF -/
  prevSnapshot : BitVec 32 := 0xFFFFFFFF
  /-- ROLLBACK_STEP | U32 | R361 | 0xFFFF_FFFF -/
  rollback : BitVec 32 := 0xFFFFFFFF
  /-- RESTORE_VERSION | U32 | R361 | 0xFFFF_FFFF -/
  restoreVersion : BitVec 32 := 0xFFFFFFFF
  /-- DEPART_AT_FRAME | U64 | R361 | 0 -/
  departAt : BitVec 64 := 0
  /-- DEPART_STATE | U8 | R361 | 0x00 NONE -/
  departState : BitVec 8 := 0
  /-- STOP_STATUS | U8 | R361 | 0x00 -/
  stopStatus : BitVec 8 := 0
  /-- Owner map in effect, by layer | model | R370 | none -/
  owners : List Nat := []
  /-- Owner map of a handover from step h on | model | R379 | none -/
  handoverMap : Option (Nat × List Nat) := none
  /-- SNAP_BASE | model | R363 | 0 -/
  snapBase : Nat := 0
  /-- A roster accepted and not yet applied | model | R357 | none -/
  next : Option RosterMsg := none
  /-- Ranks found departed, with failure semantics or not | model | R356 | none -/
  found : List (Nat × Bool) := []
  /-- Ticks the quorum hold has persisted | model | R360 | 0 -/
  held : Nat := 0
  /-- Quorum holds counted | model | R360 | 0 -/
  holds : Nat := 0
  /-- Requests queued at the coordinator: rank, deadline | model | R376 | none -/
  requests : List (Nat × Nat) := []
  /-- The rank handing over, and the handover step | model | R376 | none -/
  handing : Option (Nat × Nat) := none
  /-- A DEPART_REQUEST to send at the next tick: its EFFECTIVE_FRAME | model | R376, R377 | none -/
  sendRequest : Option Nat := none
  /-- RESTORE_FAILED received for this step | model | R375 | none -/
  restoreFailed : Option Nat := none
  /-- Rosters discarded, tip-in copies lost, keeper shortfalls | counts | R359, R364, R367 | 0 -/
  discarded : Nat := 0
  tipinLost : Nat := 0
  shortfall : Nat := 0
  /-- Chunks of images discarded | count | R339 | 0 -/
  imageDropped : Nat := 0
  /-- Resend requests for an older version discarded | count | R340 | 0 -/
  resendsDropped : Nat := 0
  /-- Owners of the layers when the snapshot that is being restored was taken | model | R371 | none -/
  snapOwners : List Nat := []
  /-- STOP that the next roster must set (R370) | model | none -/
  stopNext : Option Status := none
deriving DecidableEq, Repr

/-- A Bindery session 0x7001 + s (R316). -/
structure Session where
  /-- SESSION_STATE: 0 FREE, 1 FORMING, 2 RUNNING, 3 STOPPED | U8 | R316 | 0x00 -/
  state : BitVec 8 := 0
  /-- CONFIG_ADDR | U64 | R316 | 0 -/
  configAddr : BitVec 64 := 0
  /-- OP_STATUS | U8 | R316 | 0x00 -/
  opStatus : BitVec 8 := 0
  /-- CONFIG_DIGEST | OCTETS(64) | R316 | 0 -/
  digest : BitVec 512 := 0
  /-- MY_RANK | U16 | R316 | 0xFFFF -/
  myRank : Option Nat := none
  /-- TOPK | U16 | R316 | 256 -/
  topk : BitVec 16 := 256
  /-- REDUCE_MODE | U8 | R316 | 0x00 RING -/
  reduceMode : BitVec 8 := 0
  /-- RECORD_BASE | U64 | R316 | 0 -/
  recordBase : BitVec 64 := 0
  /-- RECORD_SLOTS | U32 | R316 | 0 -/
  recordSlots : BitVec 32 := 0
  /-- RECORD_COUNT | U64 | R316 | 0 -/
  recordCount : BitVec 64 := 0
  /-- LR_NOW, WD_NOW | U16 | R316 | LR and WD of the block -/
  lrNow : BitVec 16 := 0
  wdNow : BitVec 16 := 0
  /-- LR_NOW and WD_NOW in force since the latest tick | model | R316 | as LR_NOW, WD_NOW -/
  lrForce : BitVec 16 := 0
  wdForce : BitVec 16 := 0
  /-- 10 to 15 live by subindex - 0x10: GRAD_ROWS_DROPPED, CONTRIB_SENT, PARTIALS_FOLDED, RESCALED_EVENTS, LATE_ARRIVALS, RECOVERIES | R316 | 0 -/
  counters : Vector (BitVec 64) 6 := Vector.replicate 6 0
  /-- Latched twins | R551 | 0 -/
  latched : Vector (BitVec 64) 6 := Vector.replicate 6 0
  /-- The local rank's partition | model | R312 | none -/
  part : Option PartId := none
  /-- The configuration block read at OPEN | model | R313 | none -/
  cfg : Option SessCfg := none
  /-- Carve-out bytes reserved | model | R315 | 0 -/
  reserved : Nat := 0
  /-- Owner ranks that answered with an equal digest, and ranks whose digest differs | model | R315 | none -/
  agreed : List Nat := []
  differ : List Nat := []
  elastic : Elastic := {}
  layers : List Layer := []
  /-- Steps of which this rank withholds every layer from a point on: step | model | R321 | none -/
  withholding : List Nat := []
  /-- Values clamped at exponent 127 in a fold | count | R326 | 0 -/
  clamps : Nat := 0
deriving DecidableEq, Repr

/-- A gradient row delivered by a tagged pass or a flush (R134, R135): whose slice it is, the array and list entry that delivered it, its tag, its row and its entries. -/
structure GradRow where
  part : PartId
  ring : RingId
  array : ArrayId
  entry : Nat
  tag : GradTag
  row : Nat
  ents : List A48
deriving DecidableEq, Repr

/-- The Bindery of the hub. -/
structure Bindery where
  /-- CARVEOUT_BYTES | U64 | R316 | 0, persistent -/
  carveout : BitVec 64 := 0
  /-- Sessions by index | R316 | FREE -/
  sessions : List (Nat × Session) := []
  /-- Gradient rows delivered and provisional, in the order of delivery | model | R137 | none -/
  provisional : List GradRow := []
deriving DecidableEq, Repr

/-! ## Life cycle and debug (chapter 13) -/

structure Life where
  /-- Life-cycle word of hub OTP | 64 bits | R465 | 0x0 -/
  word : BitVec 64 := 0
  /-- LC_NONCE; zero for none | OCTETS(32) | R469 | 0 -/
  nonce : BitVec 256 := 0
  /-- LC_REQUEST staged for the next TRANSITION | OCTETS(7,275) | R469 | empty -/
  request : Bytes := []
  /-- LC_STATUS | U8 | R469 | 0x00 -/
  status : BitVec 8 := 0
  /-- A transition in progress: its target code | model | R470 | none -/
  running : Option Nat := none
  /-- An accepted transition waits for reset | model | R470 | no -/
  waitReset : Bool := false
  /-- State code in force since the latest reset | model | R471 | 0x01 MAKER -/
  force : Nat := 1
  /-- Transition record in module flash | R470 | empty -/
  flashRequest : Bytes := []
  /-- Identity certificate in module flash | OCTETS(8,192) | R469 | empty -/
  cert : Bytes := []
  /-- OPERATOR_KEY_DIGEST in OTP | OCTETS(64) | R469 | 0 -/
  operatorDigest : BitVec 512 := 0
  /-- STATE_RECOVERED of this boot | 1 bit | R473 | 0 -/
  recovered : Bool := false
  /-- DBG_CHALLENGE; zero for none | OCTETS(32) | R475 | 0 -/
  challenge : BitVec 256 := 0
  /-- DBG_RESPONSE staged for the next OPEN | OCTETS(7,275) | R475 | empty -/
  response : Bytes := []
  /-- DBG_STATE | U8 | R475 | 0x00 CLOSED -/
  dbg : BitVec 8 := 0
  /-- DBG_STATUS | U8 | R475 | 0x00 -/
  dbgStatus : BitVec 8 := 0
deriving DecidableEq, Repr

/-! ## Errors, test and repair (chapter 14) -/

/-- State of a unit (R484). -/
inductive UnitState where
  | inService | spare | underTest | retired
deriving DecidableEq, Repr

/-- A physical unit (R483, R509). -/
structure PUnit where
  state : UnitState := .inService
  suspect : Bool := false
  nextTest : Nat := 0
  strikeFrames : List Nat := []
  deferrals : Nat := 0
  /-- SERVES: the logical array | R509 | position order (R483) -/
  serves : Option Nat := none
  /-- The logical array it was taken from without a spare | model | R497 | none -/
  takenFrom : Option Nat := none
  rowsUsed : Nat := 0
  colsUsed : Nat := 0
  /-- Unresolved disputes in a row on the unit | model | R493 | 0 -/
  unresolved : Nat := 0
  /-- Passed every test since its last strike | model | R499 | yes -/
  testsPassed : Bool := true
  /-- A repair was made and the unit awaits its retest; a test has finished and it leaves at step 5 | model | R497 | no -/
  retest : Bool := false
  leaving : Bool := false
  /-- The fault is proven permanent and the unit awaits retirement | model | R499 | no -/
  permanent : Bool := false
deriving DecidableEq, Repr

/-- A unit-history entry (R498). -/
structure HistEntry where
  frame : Nat
  unit : Nat
  event : Nat
  stateAfter : Nat
  strikes : Nat
  detail : Nat
deriving DecidableEq, Repr

/-- A fault-audit entry (R507). -/
structure AuditEntry where
  seq : Nat
  frame : Nat
  rangeVa : Nat
  rangeBytes : Nat
  device : Nat
  unit : Nat
  part : Nat
  source : Nat
  status : Nat
  detail : Nat
  /-- OFFSET_US | 32 bits | R507 | free value: the model keeps no clock within a frame (log 3) -/
  offsetUs : Nat
deriving DecidableEq, Repr

structure Ras where
  /-- Physical units by number | R483, R484 | arrays in position order, spares at 32 and 33 of each die -/
  units : List (Nat × PUnit) := []
  /-- Unit history, oldest first | 64 MiB of flash | R498 | empty -/
  history : List HistEntry := []
  /-- FAULT_AUDIT | U64 | R507 | 0 -/
  auditCount : Nat := 0
  /-- The latest 4,096 audit entries | R507 | none -/
  audit : List AuditEntry := []
  /-- TEST_INTERVAL_FRAMES | U32 | R508 | 1,800,000, persistent -/
  testInterval : BitVec 32 := 1800000
  /-- HISTORY_WINDOW_FRAMES | U32 | R508 | 43,200,000, persistent -/
  window : BitVec 32 := 43200000
  /-- CHECK_POLICY, 64 of U8 | R508 | 0x00, persistent -/
  policy : Vector (BitVec 8) 64 := Vector.replicate 64 0
  /-- Logical arrays lost or absent, not yet taken from bitmaps | model | R502, R587 | none -/
  lost : List Nat := []
  lostPending : List Nat := []
  /-- Logical arrays out for test without a spare | model | R496 | none -/
  out : List Nat := []
  /-- Installed scan library | R494 | empty -/
  library : Bytes := []
  /-- Library staging area, its chunks by offset | R495 | empty -/
  libStage : List (Nat × Bytes) := []
  /-- LIB_OFFSET | U32 | R508 | 0 -/
  libOffset : BitVec 32 := 0
  /-- LIB_STATUS | U8 | R508 | 0x00 -/
  libStatus : BitVec 8 := 0
  /-- Repair maps: LINE_REPAIRS, WINDOW_REPAIRS, HBM_ROWS_REPAIRED, HBM_BANKS_RETIRED | R506 | 0 -/
  lineRepairs : Nat := 0
  windowRepairs : Nat := 0
  hbmRows : Nat := 0
  hbmBanks : Nat := 0
  /-- REPAIR_MAP_GENERATION | 32 bits | R506 | CHOICE 0 (log 4) -/
  repairGen : Nat := 0
  /-- Window rows and HBM rows recorded for repair at the next boot | model | R503, R504 | none -/
  pendingWindow : List Nat := []
  pendingHbm : List (Nat × Nat) := []
  /-- Corrected errors per window bank in this frame | model | R503 | none -/
  windowErrors : List (Nat × Nat) := []
deriving DecidableEq, Repr

/-! ## The Lighthouse (chapter 15) -/

/-- A frame record (R522). -/
structure FrameRec where
  frame : Nat
  seq : Nat
  minute : Nat
  energyMj : Nat
  lengthUs : Nat
  belowUs : Nat
  overUs : Nat
  gapUs : Nat
  peakW : Nat
  sealCount : Nat
  flags : Nat
  counts : List Nat
deriving DecidableEq, Repr

/-- A minute record (R525). -/
structure MinuteRec where
  minute : Nat
  firstFrame : Nat
  lastFrame : Nat
  energyMj : Nat
  records : Nat
  sealCount : Nat
  belowMs : Nat
  overMs : Nat
  gapMs : Nat
  seconds : Nat
  peakW : Nat
  flags : Nat
  counts : List Nat
deriving DecidableEq, Repr

/-- An hour seal (R527). -/
structure HourSeal where
  hour : Nat
  seconds : Nat
  energyMj : Nat
  sealCount : Nat
  flags : Nat
  chain : BitVec 512
  signature : Bytes
deriving DecidableEq, Repr

structure Lighthouse where
  /-- Powered | model | R589 | no -/
  powered : Bool := false
  /-- First power-on has happened | model | R530 | no -/
  everOn : Bool := false
  /-- LH_STATE of the hub: NOT_RESPONDING | U8 | R534 | 0x00 -/
  silent : Bool := false
  /-- Energy accumulator in uJ | 64 bits | R517 | 0 -/
  accUj : Nat := 0
  /-- ENERGY_TOTAL_MJ kept in uJ | R534 | 0 -/
  totalUj : Nat := 0
  /-- Latest 8 sample energies for POWER_NOW_W | R534 | none -/
  samples : List Nat := []
  /-- Open frame record: below-floor us, over-range us, gap us, peak W, flags, array-us per partition | model | R518, R520 | 0 -/
  belowUs : Nat := 0
  overUs : Nat := 0
  gapUs : Nat := 0
  peakW : Nat := 0
  flags : Nat := 0
  counts : Vector Nat 64 := Vector.replicate 64 0
  /-- LH_SEQ of the next frame record | 64 bits | R522 | 0 -/
  seq : Nat := 0
  /-- Ring of the latest 4,096 frame records | R523 | none -/
  ring : List FrameRec := []
  /-- MINUTE_SEQ of the open minute | 64 bits | R524 | 0 -/
  minute : Nat := 0
  /-- Frame records gathered by the open minute | model | R524 | none -/
  gathered : List FrameRec := []
  /-- Lighthouse time since the minute opened, and since power-on, in us | model | R524 | 0 -/
  minuteUs : Nat := 0
  uptimeUs : Nat := 0
  /-- Minute records in flash, oldest first | R529 | none -/
  minutes : List MinuteRec := []
  /-- Hour seals in flash, oldest first | R529 | none -/
  seals : List HourSeal := []
  /-- Chain value after the latest minute record | 512 bits | R526 | c_init -/
  chain : Option (BitVec 512) := none
  /-- Hours due for a seal and not yet sealed | model | R530 | none -/
  sealDue : List Nat := []
  /-- OVERWRITTEN_HOURS | U64 | R534 | 0 -/
  overwritten : Nat := 0
  /-- SEAL_STATE: 1 SEALED | OTP | R532 | OPEN -/
  sealed : Bool := false
  /-- SEAL_COUNT thermometer | OTP | R531 | 0 -/
  sealCount : Nat := 0
  /-- CAL_NONCE | OCTETS(32) | R534 | 0 -/
  calNonce : BitVec 256 := 0
  /-- Calibration in force, and one that takes effect at the next frame record | R531 | empty -/
  calibration : Bytes := []
  calPending : Option Bytes := none
  /-- Last occupancy sequence number per array die | model | R520 | none -/
  tapSeq : Vector (Option Byte) 4 := Vector.replicate 4 none
  /-- GEN bit seen per partition in the open minute | model | R520 | none -/
  genSeen : Vector (Option Bool) 64 := Vector.replicate 64 none
  /-- The last frame number recorded, and strobes being missed | model | R521 | none -/
  lastFrame : Option Nat := none
  holdover : Bool := false
  /-- The next frame record carries POWER_ON | model | R530 | no -/
  powerOn : Bool := false
  /-- Pulses on LH_PULSE since power-on | signal | R533 | 0 -/
  pulses : Nat := 0
  /-- LH_PLCA_NODE_ID | U8 | R564 | 0xFF -/
  plcaNode : BitVec 8 := 0xFF
deriving DecidableEq, Repr

/-! ## The object dictionary (chapter 16) -/

/-- Role of a session (R543, R559). -/
inductive Role where
  | maker | operator | enrol | tenant | meter
deriving DecidableEq, Repr

/-- Query and mapping values of one partition's memory object, held per session (R556). -/
structure PerPart where
  /-- PT_QUERY_VA and the leaf entry read when it was written | U64 | R240, R245 | 0 -/
  ptQuery : BitVec 64 := 0
  ptEntry : BitVec 64 := 0
  /-- RGN_QUERY_VA and the region record read when it was written | U64, OCTETS(16) | R417 | 0 -/
  rgnQuery : BitVec 64 := 0
  rgnRecord : BitVec 128 := 0
  /-- MAP_VA, MAP_PAGES, MAP_ATTR, MAP_STATUS | U64, U32, U8, U8 | R245 | 0 -/
  mapVa : BitVec 64 := 0
  mapPages : BitVec 32 := 0
  mapAttr : BitVec 8 := 0
  mapStatus : BitVec 8 := 0
deriving DecidableEq, Repr

/-- Values held per session (R556); every one 0 at the session's start. -/
structure PerSession where
  /-- DESC_QUERY | U32 | R545 | 0 -/
  descQuery : BitVec 32 := 0
  /-- SLOT_QUERY_ID | U16 | R431 | 0 -/
  slotQuery : BitVec 16 := 0
  /-- FLOW_QUERY_ID | U32 | R287 | 0 -/
  flowQuery : BitVec 32 := 0
  /-- ROUTE_DEST | U16 | R281 | 0 -/
  routeDest : BitVec 16 := 0
  /-- APT_INDEX | U32 | R299 | 0 -/
  aptIndex : BitVec 32 := 0
  /-- POOL_HOME_INDEX | U16 | R245 | 0 -/
  poolIndex : BitVec 16 := 0
  /-- The values of each partition's memory object | as PerPart | R245, R417 | none -/
  parts : List (Nat × PerPart) := []
  /-- OWNER_QUERY_LAYER of each Bindery session's object | U16 | R361 | 0 -/
  ownerLayer : List (Nat × BitVec 16) := []
  /-- AUDIT_QUERY_SEQ | U64 | R507 | 0 -/
  auditSeq : BitVec 64 := 0
  /-- HIST_QUERY_INDEX | U32 | R508 | 0 -/
  histIndex : BitVec 32 := 0
  /-- UNIT_QUERY | U16 | R508 | 0 -/
  unitQuery : BitVec 16 := 0
  /-- ATT_NONCE | OCTETS(32) | R445 | 0 -/
  attNonce : BitVec 256 := 0
  /-- ATT_STATUS | U8 | R445 | 0x00 -/
  attStatus : BitVec 8 := 0
  /-- The report or certificate in the buffer; ATT_BYTES is its length | R445 | empty -/
  attData : Bytes := []
  /-- ATT_OFFSET | U32 | R445 | 0 -/
  attOffset : BitVec 32 := 0
  /-- The report being signed | model | R445 | none -/
  attPending : Option Bytes := none
  /-- FRAME_QUERY, MINUTE_QUERY, HOUR_QUERY | U64 | R534 | 0 -/
  frameQuery : BitVec 64 := 0
  minuteQuery : BitVec 64 := 0
  hourQuery : BitVec 64 := 0
  /-- SEAL_OFFSET, CERT_OFFSET | U16 | R534 | 0 -/
  sealOffset : BitVec 16 := 0
  certOffset : BitVec 16 := 0
deriving DecidableEq, Repr

/-- A response kept for repetition (R558): request ID, index, subindex, offset, data; status, flags, data of the answer. -/
structure Kept where
  reqId : BitVec 16
  index : Nat
  sub : Nat
  offset : Nat
  data : Bytes
  status : Status
  more : Bool
  answer : Bytes
deriving DecidableEq, Repr

/-- A dictionary session, or a sender without one (sid 0). -/
structure DSess where
  sid : Nat
  src : Nat := 0
  role : Role
  part : Option PartId := none
  bound : Bool := true
  route : Route := .sideband
  /-- The key proved at OPEN_3, for the enrolling session (R559). -/
  ownKey : Bytes := []
  slot : Option Nat := none
  keyIn : Bytes := []
  keyOut : Bytes := []
  /-- SEQ accepted and sent last (R554, R562). -/
  seqIn : Nat := 0
  seqOut : Nat := 0
  /-- Ended by key revocation (R562). -/
  revoked : Bool := false
  vals : PerSession := {}
  /-- Values staged, by object: 256 * index + subindex, 2^24 + OP for a session opening (R555, R560). -/
  staged : List (Nat × Bytes) := []
  /-- Values held for segmented reads, by object, 2^32 + ... for a block (R555). -/
  held : List (Nat × Bytes) := []
  /-- The last 8 responses, newest first (R558). -/
  kept : List Kept := []
deriving DecidableEq, Repr

/-- A session opening in progress (R560). -/
structure Opening where
  sid : Nat
  src : Nat
  role : Nat
  part : Option PartId
  kemSeed : Bytes
  transcript : Bytes
deriving DecidableEq, Repr

structure Dict where
  sessions : List DSess := []
  openings : List Opening := []
  /-- Events written to the mailbox's event ring: its head word, of 64 entries | R565 | 0 -/
  eventHead : Nat := 0
  /-- 0x1110:01 STATUS_EVENTS, U32 by code | R553 | 0 -/
  events : Vector (BitVec 32) 128 := Vector.replicate 128 0
  eventsLatched : Vector (BitVec 32) 128 := Vector.replicate 128 0
  /-- 0x1110:02 to :06 by subindex: DICT_REQUESTS, DICT_DROPPED, SESSION_OPEN_FAILURES, BUDGET_FALLBACKS, BASE_ATTRIBUTED_UJ | U64 | R553 | 0 -/
  counters : Vector (BitVec 64) 8 := Vector.replicate 8 0
  countersLatched : Vector (BitVec 64) 8 := Vector.replicate 8 0
  /-- 0x6F08:01 SB_FRAMES_RX and :02 SB_FRAMES_TX by subindex, live | U64 | R564 | 0 -/
  sb : Vector (BitVec 64) 3 := Vector.replicate 3 0
  sbLatched : Vector (BitVec 64) 3 := Vector.replicate 3 0
  /-- Unacknowledged integrity alerts, by audit SEQ | ALERT_CAUSES[0] | R414, R549 | none -/
  alerts : List Nat := []
  /-- THERMAL alert | ALERT_CAUSES[1] | R549 | 0 -/
  thermal : Bool := false
  /-- LIGHTHOUSE alert | ALERT_CAUSES[2] | R549 | 0 -/
  lhAlert : Bool := false
deriving DecidableEq, Repr

/-- Sideband and I3C (R564, R567). -/
structure Side where
  /-- SB_LINK_STATE | U8 | R564 | 0x00 DOWN -/
  link : BitVec 8 := 0
  /-- SB_UDP_PORT | U16 | R564 | 30462, persistent -/
  port : BitVec 16 := 30462
  /-- SB_UDP_PORT in force since the latest reset | model | R564 | 30462 -/
  portForce : BitVec 16 := 30462
  /-- PLCA_NODE_ID | U8 | R564 | 0xFF, persistent -/
  node : BitVec 8 := 0xFF
  /-- PLCA_NODE_COUNT | U8 | R564 | 17, persistent -/
  nodes : BitVec 8 := 17
  /-- SB_STATIC_ADDR | OCTETS(16) | R564 | 0, persistent -/
  addr : BitVec 128 := 0
  /-- Neighbour caches of the hub and the Lighthouse | model | R564 | empty -/
  neighbours : List (BitVec 128 × BitVec 48) := []
  lhNeighbours : List (BitVec 128 × BitVec 48) := []
  /-- I3C dynamic address | 7 bits | R567 | none -/
  i3cAddr : Option (BitVec 7) := none
  /-- I3C read position | 8 bits | R567 | CHOICE 0 (log 4) -/
  i3cPos : Nat := 0
  /-- I3C readout as refreshed last | R567 | empty -/
  i3cData : Bytes := []
  /-- INPUT_POWER_W, INPUT_MV | U16 | R549 | CHOICE 0 (log 4) -/
  powerW : BitVec 16 := 0
  mv : BitVec 16 := 0
deriving DecidableEq, Repr

/-! ## Power and firmware (chapter 17) -/

/-- Where a compute domain stands in its sequence (R585, R588, R600). -/
inductive DomainState where
  | off
  | powering (step : Nat) (trained : List Nat) (retry : Bool)
  | up
  | stopping
  | failed
deriving DecidableEq, Repr

/-- Module states (R549, R580); `off` is OFF, in which nothing is read. -/
inductive ModState where
  | off | standby | doze | active | starting | stopping | stoppingPending | booting | recovery
deriving DecidableEq, Repr

structure Power where
  /-- MODULE_STATE | U8 | R549 | OFF -/
  mod : ModState := .off
  /-- STATE_REQUEST | U8 | R549 | 0x03 -/
  request : BitVec 8 := 3
  /-- RESET_CAUSE | U8 | R549 | CHOICE 0x01 POWER_ON (log 4) -/
  cause : BitVec 8 := 1
  /-- BOOT_COUNT | U32 | R549 | 0, persistent -/
  boots : BitVec 32 := 0
  /-- DIE_TEMPS of A0..A3, H | OCTETS(5) | R549 | 0xFF each (not powered) -/
  temps : Vector (BitVec 8) 5 := Vector.replicate 5 0xFF
  /-- LAST_WAKE | U8 | R600 | 0x00 -/
  lastWake : BitVec 8 := 0
  /-- Management domain and Lighthouse of DOMAIN_STATUS | R600 | OFF -/
  mgmtUp : Bool := false
  /-- Compute domains A0..A3, hub of DOMAIN_STATUS | R600 | OFF -/
  domains : Vector DomainState 5 := Vector.replicate 5 .off
  /-- Input within its thresholds | model | R572 | no -/
  input : Bool := false
  /-- MOD_PWR_EN level | pin | R577 | low (pull-down) -/
  pwrEn : Bool := false
  /-- MOD_RESET_N held low | pin | R577 | no (pull-up) -/
  resetLow : Bool := false
  /-- MOD_THERM_TRIP_N asserted | pin | R577 | no -/
  tripped : Bool := false
  /-- DIE_HOT_Ax_N asserted | pins | R577 | no -/
  hot : Vector Bool 4 := Vector.replicate 4 false
  /-- State the sequence in progress heads for | model | R581 | none -/
  target : Option ModState := none
  /-- The sequence started from DOZE | model | R585 | no -/
  fromDoze : Bool := false
  /-- Request latched behind the sequence | model | R591 | none -/
  latched : Option ModState := none
  /-- DOZE or STANDBY accepted, to begin at the end of the next tick window | model | R581 | none -/
  atTick : Option ModState := none
  /-- The tick window of that request has run | model | R582 | no -/
  windowRun : Bool := false
  /-- Reset cause to report at the next boot | model | R592 | none -/
  nextCause : Option (BitVec 8) := none
  /-- The boot halted without firmware in SCRAPPED | model | R463 | no -/
  scrapped : Bool := false
deriving DecidableEq, Repr

/-- A recovery fetch in progress at the requester (R596). -/
structure FetchRun where
  fetchId : BitVec 64
  kemSeed : Bytes
  strait : Option StraitId
  ct : Bytes := []
  total : Option Nat := none
  data : Bytes := []
deriving DecidableEq, Repr

/-- A recovery fetch served (R598). -/
structure ServeRun where
  fetchId : BitVec 64
  strait : Option StraitId
  key : Bytes
  secret : Option Bytes
  sent : Nat
deriving DecidableEq, Repr

structure Firmware where
  /-- Firmware image in module flash, encrypted | R594 | empty -/
  flash : Bytes := []
  /-- Running image, plaintext | R593 | none -/
  running : Option Bytes := none
  /-- Staging area by offset | R599 | empty -/
  stage : List (Nat × Bytes) := []
  /-- FW_OFFSET | U32 | R599 | 0 -/
  offset : BitVec 32 := 0
  /-- FW_STATUS | U8 | R599 | 0x00 -/
  status : BitVec 8 := 0
  /-- FW_SECURITY_FLOOR thermometer | OTP | R595 | 0 -/
  floor : Nat := 0
  /-- FW_RECOVERED | BOOL | R599 | 0 -/
  recovered : Bool := false
  /-- Image being written by COMMIT | model | R599 | none -/
  committing : Option Bytes := none
  /-- Fetch in progress, and fetch served | model | R596, R598 | none -/
  fetch : Option FetchRun := none
  serve : Option ServeRun := none
deriving DecidableEq, Repr

/-! ## Outputs -/

/-- What the module sends or drives, in order. -/
inductive Output where
  /-- A packet on its flow's route (R282). -/
  | packet (p : OutPkt)
  /-- A packet sent again from its stored ciphertext (R285). -/
  | resent (p : OutPkt)
  /-- A pure acknowledgement (R283, R288). -/
  | ack (flow psn : Nat)
  /-- A packet forwarded on a strait with HOPS decremented (R281). -/
  | forwarded (strait : StraitId) (p : Pkt) (cls : Nat)
  /-- A flit with KIND NAK from an index (R273), or flits resent as they were first sent. -/
  | nak (strait : StraitId) (index : Nat)
  | flitsResent (strait : StraitId) (flits : List SentFlit)
  /-- The LANE_SWAP ordered set with the lane and the agreed flit index (R276). -/
  | laneSwap (strait : StraitId) (lane : Fin 9) (index : Nat)
  /-- A unit that a die relays, sealed under the key of the causeway that it leaves by (R295), and the request for a resend of a unit (R294). -/
  | cswUnit (causeway : Fin 8) (index : Nat) (sealedUnit : Bytes)
  | cswResend (causeway : Fin 8) (index : Nat) (sealedUnit : Bytes)
  /-- A TICK announce, probe and probe reply (R291, R292). -/
  | announce (n : Announce)
  | probe (strait : StraitId)
  | probeReply (strait : StraitId) (t1 t2 t3 : Nat)
  /-- The WAKE ordered set (R303). -/
  | wakeSet (strait : StraitId)
  /-- A handshake message: 0 HELLO, 1 REPLY, 2 FINISH (R434). -/
  | handshake (kind : Nat) (hop : Option StraitId) (peer : Device) (nonce : BitVec 256) (ct sig : Bytes)
  /-- A dictionary response (R554). Its data is as it travels: in a session over the sideband or a host flow it is sealed in the session's envelope, with the tag that follows it (R560). On a dictionary flow it is the payload that the flow itself seals. The answer to a command that stands for the end of a write carries no data. -/
  | response (sid src : Nat) (reqId : BitVec 16) (status : Status) (more : Bool) (data : Bytes)
  /-- A dictionary EVENT to a session, its 24 bytes as they travel (R560, R566). -/
  | event (sid : Nat) (data : Bytes)
  /-- An event has landed in an entry of the mailbox's event ring; the head word moves on and MSI-X vector 0 is raised (R297, R565). -/
  | mailboxEvent (entry : Nat) (data : Bytes) (vector : Nat)
  /-- This rank's digest of a session, given to another rank (R315). -/
  | sessionDigest (session rank : Nat) (digest : BitVec 512)
  /-- OPEN_2 (R560). -/
  | open2 (src sid : Nat) (nonce : BitVec 256) (kemPub sig : Bytes)
  /-- The completion of a host request: data, or Unsupported Request, or Completer Abort (R298, R300). -/
  | hostData (strait : StraitId) (data : Bytes)
  | hostUnsupported (strait : StraitId)
  | hostAbort (strait : StraitId)
  /-- A response of another module that lands in a mailbox slot (R565). -/
  | mailboxData (strait : StraitId) (slot : Fin 16) (response : Bytes)
  /-- Mailbox DONE with its route status, and its MSI-X vector (R565). -/
  | mailboxDone (strait : StraitId) (slot : Fin 16) (status : Status) (vector : Nat)
  /-- A sector read's result: the plaintext, or poisoned with a status (R402). -/
  | sectorData (p : PartId) (va : Nat) (data : Option Sector) (status : Status)
  /-- The Lighthouse's record line (R516) and LH_PULSE (R533). -/
  | recordLine (r : FrameRec)
  | lhAnswer (data : Bytes)
  | lhPulse
  /-- The hub's request port (R532). -/
  | lhRequest (request : Bytes)
  /-- An I3C answer or NACK (R567). -/
  | i3c (data : Bytes)
  | i3cNack
  /-- ICMPv6 echo reply and neighbour advertisement (R564). -/
  | echoReply (lighthouse : Bool) (payload : Bytes)
  | advert (lighthouse : Bool) (mac : BitVec 48)
  /-- A recovery message: kind, fetch, segment, offset, data (R597). -/
  | recovery (strait : Option StraitId) (kind : Nat) (fetchId : BitVec 64) (segment off : Nat) (data : Bytes)
deriving DecidableEq, Repr

/-! ## Faults, refusals, the state -/

/-- Why a step stops. Each names an event that the state gives no cause for: the spec gives it no effect there. -/
inductive Fault where
  /-- Raised by an internal event (a drain, a load, a timer, a completion) whose cause is absent from the state. Safe: the hardware cannot produce it. -/
  | noCause
deriving DecidableEq, Repr

/-- Why a command has no meaning here. -/
inductive Refusal where
  /-- Raised by an arm of exec that has no meaning yet. Safe. -/
  | notModelled (mnemonic : String)
deriving DecidableEq, Repr

/-- The state of the module. -/
structure State where
  /-- Commands waiting, first in first out | model | - | empty -/
  pending : List Instr := []
  /-- What the module has sent, oldest first | model | - | empty -/
  out : List Output := []
  /-- Index of the next free value or entropy draw | model (not the spec's) | log 3 | CHOICE 0 -/
  free : Nat := 0
  tick : TickState := {}
  gov : Governor := {}
  parts : Vector Part 64 := Vector.replicate 64 {}
  rings : Vector (Vector Ring 16) 64 := Vector.replicate 64 (Vector.replicate 16 {})
  arrays : Vector ArrayEng 128 := Vector.replicate 128 {}
  mem : Mem := {}
  fab : Fabric := {}
  keys : Keys := {}
  bind : Bindery := {}
  life : Life := {}
  ras : Ras := {}
  lh : Lighthouse := {}
  dict : Dict := {}
  side : Side := {}
  pow : Power := {}
  fw : Firmware := {}
deriving DecidableEq, Repr

/-- The units of R483 as the module leaves Grenarea: arrays 0..31 of each die serving logical arrays in order, positions 32 and 33 spare.
The first test of a unit falls one TEST_INTERVAL_FRAMES after frame 0 (log 4). -/
def initialArrays : List (Nat × PUnit) :=
  (List.range 136).map fun i =>
    (0x1000 + i,
      if i % 34 < 32 then { nextTest := 1800000, serves := some (32 * (i / 34) + i % 34) }
      else { nextTest := 1800000, state := .spare })

/-- The module as delivered, before its input is first applied: every object at its default, memory with nothing stored, and the units in place (log 4). -/
def State.reset : State := { ras := { units := initialArrays } }

end Sys2Proof.Machine
end

