-- ==== Sys2Proof/Machine/Ops.lean ====
section
/-!
DEFINITION. Machine/Ops.lean: shared operations: sorted lists of key and value, byte windows, updates of one element of the state's vectors,
and `need`, by which a command whose cause is absent stops.
-/

namespace Sys2Proof.Machine

/-- What a meaning answers. -/
abbrev Res := Host.Outcome State Fault Refusal

/-- The effect `t` where the cause holds; otherwise the event cannot occur and the step stops. -/
def need (cause : Bool) (t : State) : Res := if cause then .next t else .fault .noCause

/-- What comes from outside has its effect `t` where the unit hears it; otherwise nobody acts on it and nothing changes (R580). -/
def heard (on : Bool) (s t : State) : Res := .next (if on then t else s)

/-! Lists sorted by a number, no key twice. -/

/-- The value at a key. -/
def alGet {α : Type} (k : Nat) : List (Nat × α) → Option α
  | [] => none
  | (j, v) :: r => if j = k then some v else alGet k r

/-- Put a value at a key, keeping the order. -/
def alSet {α : Type} (k : Nat) (v : α) : List (Nat × α) → List (Nat × α)
  | [] => [(k, v)]
  | (j, w) :: r => if k < j then (k, v) :: (j, w) :: r else if j = k then (k, v) :: r else (j, w) :: alSet k v r

/-- Remove a key. -/
def alDel {α : Type} (k : Nat) (l : List (Nat × α)) : List (Nat × α) := l.filter (fun x => x.1 ≠ k)

/-- Put a value, removing the entry where it is what an unlisted key reads as. -/
def alPut {α : Type} [DecidableEq α] (d : α) (k : Nat) (v : α) (l : List (Nat × α)) : List (Nat × α) :=
  if v = d then alDel k l else alSet k v l

/-- Change the value at a key, where there is one. -/
def alMod {α : Type} (k : Nat) (f : α → α) (l : List (Nat × α)) : List (Nat × α) :=
  l.map (fun x => if x.1 = k then (x.1, f x.2) else x)

/-- Value at a key of any kind. -/
def kvGet {κ α : Type} [DecidableEq κ] (k : κ) (l : List (κ × α)) : Option α := (l.find? (fun x => x.1 = k)).map (·.2)
/-- Put a value at a key of any kind. -/
def kvSet {κ α : Type} [DecidableEq κ] (k : κ) (v : α) (l : List (κ × α)) : List (κ × α) := (k, v) :: l.filter (fun x => x.1 ≠ k)

/-! Byte windows: canonical lists of cells; an unlisted byte is zero (R232). -/

/-- Keys strictly rise. -/
def keysRise {α : Type} : List (Nat × α) → Bool
  | [] => true
  | [_] => true
  | a :: b :: r => decide (a.1 < b.1) && keysRise (b :: r)

/-- The canonical form of a window: addresses strictly rise and no cell is zero. -/
def Memory.wf (m : List Host.Cell) : Bool := keysRise m && m.all (fun c => c.2 ≠ 0)

/-- One byte of a window. -/
def cellRead (m : List Host.Cell) (a : Nat) : Byte := (alGet a m).getD 0
/-- Write one byte of a window. -/
def cellWrite (a : Nat) (b : Byte) (m : List Host.Cell) : List Host.Cell := alPut 0 a b m
/-- `len` bytes from `a`. -/
def cellsRead (m : List Host.Cell) (a len : Nat) : Bytes := (List.range len).map (fun i => cellRead m (a + i))
/-- Write bytes from `a` on. -/
def cellsWrite : Nat → Bytes → List Host.Cell → List Host.Cell
  | _, [], m => m
  | a, b :: bs, m => cellsWrite (a + 1) bs (cellWrite a b m)

/-! Sectors. -/

/-- The 256 bytes of a sector. -/
def sectorBytes (x : Sector) : Bytes := (List.range 256).map (fun i => x.extractLsb' (8 * i) 8)
/-- A sector from its bytes, byte 0 lowest. -/
def bytesSector (b : Bytes) : Sector := BitVec.ofNat 2048 (leNat (b.take 256))

/-! Updates of one element. -/

def modVec {α : Type} {n : Nat} (v : Vector α n) (i : Fin n) (f : α → α) : Vector α n := v.set i (f v[i])

/-- Add to a 64-bit counter of a vector by its subindex; nothing beyond its end. -/
def bump {w n : Nat} (v : Vector (BitVec w) n) (i : Nat) (k : Nat) : Vector (BitVec w) n :=
  if h : i < n then v.set i (v[i] + BitVec.ofNat w k) else v

def State.updPart (s : State) (p : PartId) (f : Part → Part) : State := { s with parts := modVec s.parts p f }
def State.updRing (s : State) (p : PartId) (r : RingId) (f : Ring → Ring) : State :=
  { s with rings := modVec s.rings p (fun v => modVec v r f) }
def State.updArray (s : State) (a : ArrayId) (f : ArrayEng → ArrayEng) : State := { s with arrays := modVec s.arrays a f }
def State.updStrait (s : State) (k : StraitId) (f : Strait → Strait) : State :=
  { s with fab := { s.fab with straits := modVec s.fab.straits k f } }
/-- Send outputs. -/
def State.emit (s : State) (o : List Output) : State := { s with out := s.out ++ o }
/-- Frames received (1) or sent (2) on the sideband (R564). -/
def Dict.frames (i k : Nat) (d : Dict) : Dict := { d with sb := bump d.sb i k }
/-- Send recovery messages over a strait, or over the sideband, which counts them. -/
def State.emitOver (k : Option StraitId) (o : List Output) (s : State) : State :=
  if k.isSome then s.emit o else { s with out := s.out ++ o, dict := s.dict.frames 2 o.length }
/-- A recovery message heard over a strait, or over the sideband, which counts it. -/
def State.hear (k : Option StraitId) (s : State) : State := if k.isSome then s else { s with dict := s.dict.frames 1 1 }
/-- Of these sessions, those on the sideband: each event to one of them is one frame (R566). -/
def Dict.sideband (l : List Nat) (d : Dict) : Nat := (d.sessions.filter (fun x => l.contains x.sid && x.route = .sideband)).length
/-- The 32-byte header of a dictionary message (R554), of VERSION 1. -/
def dictHeader (op flags status index sub count reqId dest sid seq off len : Nat) : Bytes :=
  [1] ++ leBytes 1 op ++ leBytes 1 flags ++ leBytes 1 status ++ leBytes 2 index ++ leBytes 1 sub ++ leBytes 1 count ++ leBytes 2 reqId ++ leBytes 2 dest ++ leBytes 4 sid ++
  leBytes 8 seq ++ leBytes 4 off ++ leBytes 2 len ++ zeros 2
/-- The data of a message of the module in a session, as it travels (R560): under the envelope the header is authenticated and the data encrypted, the nonce being the direction and SEQ, and a tag follows; a dictionary flow seals it itself. -/
def DSess.wire (x : DSess) (route : Route) (header data : Bytes) : Bytes :=
  if route = .fabric then data else Config.gcmSeal x.keyOut (2 ^ 95 + (x.seqOut + 1) % 2 ^ 64) header data
/-- The next message of the module in a session takes the next SEQ (R554). -/
def DSess.sent (x : DSess) : DSess := { x with seqOut := x.seqOut + 1 }

/-- The 24 bytes of an EVENT (R566). -/
def eventData (event part frame audit : Nat) : Bytes := leBytes 1 event ++ leBytes 1 part ++ zeros 6 ++ leBytes 8 frame ++ leBytes 8 audit
/-- The EVENT as one session gets it. -/
def DSess.event (x : DSess) (event part frame audit : Nat) : Bytes :=
  x.wire x.route (dictHeader 5 0 0 0 0 0 0 0xFFFF x.sid (x.seqOut + 1) 0 24) (eventData event part frame audit)
/-- An event about partition `p` goes to a session: to every OPERATOR session, and to those of the partition's TENANT (R566). -/
def DSess.hears (p : Nat) (x : DSess) : Bool := !x.revoked && (x.role = .operator || (x.role = .tenant && (x.part.map (·.val)) = some p))
/-- Send an event (R565, R566): one message to each session that it goes to. At the ferry, one to a session of the mailbox lands in the event ring. -/
def Dict.notify (ferry : Bool) (event part frame audit : Nat) (d : Dict) : Dict × List Output :=
  let to' := d.sessions.filter (DSess.hears part)
  let ring := if ferry then to'.filter (fun x : DSess => x.route = .mailbox) else []
  ({ d with sessions := d.sessions.map (fun x : DSess => if x.hears part then x.sent else x), eventHead := d.eventHead + ring.length }.frames 2 (d.sideband (to'.map DSess.sid)),
   to'.map (fun x => Output.event x.sid (x.event event part frame audit)) ++
   ring.zipIdx.map (fun r => Output.mailboxEvent ((d.eventHead + r.2) % 64) (r.1.event event part frame audit) 0))

/-- Add to a live partition counter (R552). -/
def Part.count (i k : Nat) (x : Part) : Part := { x with live := bump x.live i k }

/-- The partition with a number, where there is one. -/
def partOf (n : Nat) : Option PartId := if h : n < 64 then some ⟨n, h⟩ else none
/-- The logical array with a number. -/
def arrayOf (n : Nat) : Option ArrayId := if h : n < 128 then some ⟨n, h⟩ else none
/-- All partitions, rings, arrays and straits in ascending order. -/
def allParts : List PartId := List.finRange 64
def allRings : List RingId := List.finRange 16
def allArrays : List ArrayId := List.finRange 128
def allStraits : List StraitId := List.finRange 18

end Sys2Proof.Machine
end

