-- ==== Sys2Proof/Machine/Flags.lean ====
section
/-!
DEFINITION. Machine/Flags.lean: status codes (R8), their precedence (R10), and the counting of conditions (R12, R552, R553).
-/

namespace Sys2Proof.Machine

/-- The 8-bit code of a status (R8). -/
def Status.code : Status → Nat
  | .done => 0x00 | .partialDone => 0x01 | .deferred => 0x02 | .overrun => 0x03 | .split => 0x04
  | .poisonIn => 0x10 | .saturated => 0x11 | .rescaled => 0x12
  | .integrity => 0x20 | .uncorrectable => 0x21 | .keyRevoked => 0x22
  | .quota => 0x30 | .stashFull => 0x31 | .gatheringLate => 0x32
  | .linkLost => 0x40 | .peerFailed => 0x41 | .snapshotLost => 0x42 | .contribDropped => 0x43
  | .checkMismatch => 0x50 | .checkResolved => 0x51
  | .denied => 0x60 | .badDescriptor => 0x61 | .overlap => 0x62
  | .internal => 0x7F

/-- The 24 codes of R8. -/
def Status.all : List Status :=
  [Status.done, .partialDone, .deferred, .overrun, .split, .poisonIn, .saturated, .rescaled, .integrity, .uncorrectable, .keyRevoked,
   .quota, .stashFull, .gatheringLate, .linkLost, .peerFailed, .snapshotLost, .contribDropped, .checkMismatch, .checkResolved,
   .denied, .badDescriptor, .overlap, .internal]

/-- The status of a code, where the table of R8 has it. -/
def Status.ofCode (c : Nat) : Option Status := Status.all.find? (fun s => s.code = c)

/-- The place of a status in the order of R10, lines one to fifteen and within a line as first written. -/
def Status.rank : Status → Nat
  | .internal => 0
  | .denied => 1 | .badDescriptor => 2 | .overlap => 3
  | .keyRevoked => 4 | .integrity => 5 | .uncorrectable => 6
  | .linkLost => 7 | .peerFailed => 8 | .snapshotLost => 9
  | .quota => 10 | .stashFull => 11
  | .poisonIn => 12 | .checkMismatch => 13 | .contribDropped => 14
  | .split => 15 | .overrun => 16 | .gatheringLate => 17 | .deferred => 18 | .partialDone => 19
  | .checkResolved => 20 | .rescaled => 21 | .saturated => 22 | .done => 23

/-- The one of two conditions that stands first in R10. -/
def Status.first (a b : Status) : Status := if a.rank ≤ b.rank then a else b

/-- The code that a record carries for its conditions (R10); DONE when there is none. -/
def Status.choose (l : List Status) : Status := l.foldl Status.first .done

/-- Add a condition to a record's conditions, once. -/
def addCond (c : Status) (l : List Status) : List Status := if c = .done ∨ l.contains c then l else c :: l

/-- Count a condition in a partition's STATUS_EVENTS (R552). -/
def Part.event (c : Status) (x : Part) : Part := { x with events := bump x.events c.code 1 }
/-- Count a condition in the module's STATUS_EVENTS (R553). -/
def Dict.event (c : Status) (x : Dict) : Dict := { x with events := bump x.events c.code 1 }

/-- The distinct conditions of one record, each of which counts once (R553). -/
def recordConds (l : List Status) (carried : Status) : List Status := (carried :: l).dedup

end Sys2Proof.Machine
end

