-- ==== Sys2Proof/Machine/Access.lean ====
section
/-!
DEFINITION. Machine/Access.lean: who sends a dictionary request and what it may do (R543, R559, R564, R463, R472), the per-session values (R556), and the answer to a request.
A command that stands for the final segment of a write is answered with request ID 0; requests that travel as WRITE messages carry their own (notes/assumptions/8.md).
-/

namespace Sys2Proof.Machine

/-- The session of a request; without a session, the record of its source address and port (R556). -/
def findSess (s : State) (q : Req) : Option DSess := s.dict.sessions.find? (fun x => x.sid = q.sid && (q.sid ≠ 0 || x.src = q.src))

/-- The role of a request; METER without a live session (R543). -/
def roleOf (s : State) (q : Req) : Role :=
  if q.sid = 0 then .meter else match findSess s q with | some x => if x.revoked then .meter else x.role | none => .meter

/-- A full OPERATOR session. -/
def isOperator (s : State) (q : Req) : Bool := roleOf s q = .operator
/-- A MAKER session. -/
def isMaker (s : State) (q : Req) : Bool := roleOf s q = .maker
/-- A bound TENANT session of partition `p`. -/
def isTenant (s : State) (q : Req) (p : PartId) : Bool :=
  roleOf s q = .tenant && (match findSess s q with | some x => x.bound && x.part = some p | none => false)
/-- OPERATOR, or TENANT of `p`. -/
def opOrTenant (s : State) (q : Req) (p : PartId) : Bool := isOperator s q || isTenant s q p
def opOrMaker (s : State) (q : Req) : Bool := isOperator s q || isMaker s q

/-- The hub answers dictionary requests (R564): STANDBY, DOZE, ACTIVE, RECOVERY, and the sequences between them that keep the management domain up. -/
def reachable (s : State) : Bool := s.pow.mgmtUp && s.pow.mod ≠ .off && s.pow.mod ≠ .booting

/-- The object at an index is served in the module's present state (R463, R472, R547, R564). -/
def served (s : State) (index : Nat) : Bool :=
  if s.life.force = 5 ∨ s.pow.scrapped then index = 0x1018 || index = 0xA000 || index = 0xA003
  else if s.pow.mod = .recovery then index = 0x1018 || index = 0xA000 || index = 0xA003 || index = 0xA001
  else if s.pow.mod = .active ∨ s.pow.mod = .doze then true
  else (0x1000 ≤ index && index ≤ 0x11FF) || (0x6F00 ≤ index && index ≤ 0x6FFF) || (0xA000 ≤ index && index ≤ 0xA0FF) || (0xB000 ≤ index && index ≤ 0xB0FF)

/-- The per-session values of a request (R556). -/
def perOf (s : State) (q : Req) : PerSession := ((findSess s q).map (·.vals)).getD {}

/-- Change a session's record; a request without a session gets its record at its first use. -/
def updSess (q : Req) (f : DSess → DSess) (s : State) : State :=
  let ses := match findSess s q with
    | some _ => s.dict.sessions.map (fun x => if x.sid = q.sid && (q.sid ≠ 0 || x.src = q.src) then f x else x)
    | none => if q.sid = 0 then f { sid := 0, src := q.src, role := .meter } :: s.dict.sessions else s.dict.sessions
  { s with dict := { s.dict with sessions := ses } }

def updPer (q : Req) (f : PerSession → PerSession) (s : State) : State := updSess q (fun x => { x with vals := f x.vals }) s

/-- The session's values of one partition's memory object. -/
def perPart (s : State) (q : Req) (p : PartId) : PerPart := (alGet p.val (perOf s q).parts).getD {}
def updPerPart (q : Req) (p : PartId) (f : PerPart → PerPart) (s : State) : State :=
  updPer q (fun v => { v with parts := alSet p.val (f ((alGet p.val v.parts).getD {})) v.parts }) s

/-- A request has been executed (R553): on the sideband, one frame came and its answer of `n` frames goes out. -/
def executed (q : Req) (n : Nat) (s : State) : State :=
  let d := { s.dict with counters := bump s.dict.counters 2 1 }
  let onSb : Bool := match findSess s q with | some x => x.route = .sideband | none => true
  { s with dict := if onSb then (d.frames 1 1).frames 2 n else d }

/-- The answer to a request that stands for a write. -/
def answer (q : Req) (r : State × Status) : State := (executed q 1 r.1).emit [.response q.sid q.src 0 r.2 false []]
/-- The data of an answer in a request's session, as it travels (R560). -/
def reqWire (s : State) (q : Req) (index sub : Nat) (st : Status) (b : Bytes) : Bytes :=
  match findSess s q with
  | some x => if q.sid = 0 then b else x.wire x.route (dictHeader 4 0 st.code index sub 0 0 0xFFFF q.sid (x.seqOut + 1) 0 b.length) b
  | none => b
/-- The answer to a request that reads an object; it takes the session's next SEQ. -/
def answerData (q : Req) (index sub : Nat) (r : State × Status × Bytes) : State :=
  let s := executed q 1 r.1
  (if q.sid = 0 then s else updSess q DSess.sent s).emit [.response q.sid q.src 0 r.2.1 false (reqWire s q index sub r.2.1 r.2.2)]

/-- A write is carried out by `f` where the object is served and the requester may use it; otherwise it ends DENIED and changes nothing (R6, R543). -/
def guarded (s : State) (index : Nat) (may : Bool) (f : State × Status) : State × Status :=
  if served s index && may then f else (s, .denied)

/-- A write of a persistent object stands only once module flash has taken it: when that flash write fails, the WRITE ends INTERNAL and the old value stands (R544). -/
def flashed (q : Req) (persistent : Bool) (s : State) (r : State × Status) : State × Status :=
  if q.flashFails && persistent && r.2 = .done then (s, .internal) else r

/-- A software request at a module that hears it. -/
def software (s : State) (t : State) : Res := heard (reachable s) s t

end Sys2Proof.Machine
end

