-- ==== Sys2Proof/Machine/Protect.lean ====
section
/-!
DEFINITION. Machine/Protect.lean: inline encryption and integrity of external memory (chapter 11): keys of a region (R389), counters (R394, R400), the counter tree (R396, R413),
reading and writing a sector (R402 to R404), re-encryption (R405 to R408), audit and alert (R410, R411, R414), and the translation of an address to its place (R238, R244, R251).
Memory work runs on `VM`, the groups of the state that it can touch; `State.putVM` puts them back, so every other group is unchanged by construction.
-/

namespace Sys2Proof.Machine

/-- A sector of a T2 page that has been written (R283, R289): its global address, the tag that a sector CAS expects there, none for a plain MEMWR, and the sector as it is stored. -/
structure T2Write where
  part : PartId
  gaddr : Nat
  expected : Option (BitVec 64)
  new : StoredSector
deriving DecidableEq, Repr

/-- An open flow to a peer that permits a class, of an owner. -/
def findFlow (s : State) (owner : Nat) (peer : Device) (cls : Nat) (session : Option SessIx) : Option Nat :=
  (s.fab.flows.find? (fun x => x.2.state = .opened && x.2.owner = owner && x.2.peer = peer && x.2.classes.contains cls && x.2.session = session)).map (·.1)

/-- The pool flow of a partition to a device: its own, or the module's (R286). -/
def poolFlow (s : State) (p : PartId) (d : Device) : Option Nat :=
  match findFlow s p.val d 1 none with
  | some f => some f
  | none => findFlow s 0x40 d 1 none

/-- This module is its group's ferry (R296). -/
def isFerry (s : State) : Bool := s.fab.idInForce ≠ 0xFFFF && s.fab.idInForce = s.fab.ferry

/-- The groups of the state that memory work reads and writes; `keys`, `frame`, `die`, `ferry` and `reach` are read only: the die whose translation cache serves the access, whether this module is the ferry, and which devices a partition has a pool flow to.
`sends` collects the T2 sectors written. -/
structure VM where
  mem : Mem
  parts : Vector Part 64
  ras : Ras
  dict : Dict
  out : List Output
  free : Nat
  keys : Keys
  frame : Nat
  die : Nat := 4
  ferry : Bool := false
  reach : PartId → Device → Bool
  sends : List T2Write := []

def State.vm (s : State) : VM :=
  { mem := s.mem, parts := s.parts, ras := s.ras, dict := s.dict, out := s.out, free := s.free, keys := s.keys, frame := s.tick.frame.toNat, ferry := isFerry s, reach := fun p d => (poolFlow s p d).isSome }

/-- The same for engines on a die, whose translation cache they use (R238). -/
def State.vmOn (s : State) (die : Nat) : VM := { s.vm with die := die }

def State.putVM (s : State) (v : VM) : State :=
  { s with mem := v.mem, parts := v.parts, ras := v.ras, dict := v.dict, out := v.out, free := v.free }

/-! Audit and alerts. -/

/-- Enter a fault-audit entry (R507); entries are numbered from 1 and the latest 4,096 are held. -/
def VM.audit (e : AuditEntry) (v : VM) : VM :=
  let n := v.ras.auditCount + 1
  let e := { e with seq := n, frame := v.frame, offsetUs := Config.freeNat v.free % 2 ^ 32 }
  { v with ras := { v.ras with auditCount := n, audit := (e :: v.ras.audit).take 4096 }, free := v.free + 1 }

/-- An audit entry with its number, frame and time still to be set. -/
def auditOf (source : Nat) (st : Status) (part va bytes : Nat) (device : Nat := 0xFFFF) (unit : Nat := 0) (detail : Nat := 0) : AuditEntry :=
  { seq := 0, frame := 0, rangeVa := va, rangeBytes := bytes, device := device, unit := unit, part := part, source := source, status := st.code, detail := detail, offsetUs := 0 }

/-- Raise the integrity alert of R414 for the audit entry written last: the alert, and the events of R566. -/
def VM.alert (p : Nat) (v : VM) : VM :=
  let n := v.ras.auditCount
  let r := v.dict.notify v.ferry 1 p v.frame n
  { v with dict := { r.1 with alerts := n :: v.dict.alerts }, out := v.out ++ r.2 }

/-- Count in 0x5080 (R417): 1 corrected, 2 uncorrectable, 3 tag failures, 4 tree losses, 5 rekeys, 6 rekey waits, 7 hits, 8 misses. -/
def VM.stat (i k : Nat) (v : VM) : VM := { v with mem := { v.mem with counters := bump v.mem.counters i k } }

def VM.updPart (p : PartId) (f : Part → Part) (v : VM) : VM := { v with parts := modVec v.parts p f }

/-- A condition counts in the partition's and in the module's STATUS_EVENTS (R12, R552, R553). -/
def VM.event (p : PartId) (c : Status) (v : VM) : VM :=
  { (v.updPart p (Part.event c)) with dict := v.dict.event c }

/-! Places. -/

def pageOf (va : Nat) : Nat := va % 2 ^ 56 / 2 ^ 21
def sectorOf (va : Nat) : Nat := va / 256 % 8192
def lbnOf (va : Nat) : Nat := va % 2 ^ 56 / 256

/-- The non-leaf entry that an address takes at a level of the page table, 0 to 2 (R238): VA[55:48], then 9 more bits at each level. -/
def walkKey (level va : Nat) : Nat := level * 2 ^ 32 + va % 2 ^ 56 / 2 ^ (48 - 9 * level)
/-- Every level above the leaf exists (R238, R239). -/
def walks (m : Mem) (p : PartId) (va : Nat) : Bool := [0, 1, 2].all (fun l => (alGet (walkKey l va) m.tables[p]).isSome)
/-- The leaf entry that a walk finds. -/
def VM.leaf (v : VM) (p : PartId) (va : Nat) : Option Leaf := if walks v.mem p va then alGet (pageOf va) v.mem.pages[p] else none

/-- Where the next table lies: an offset of the private area, 4 KiB aligned, that no other table has; which one is a free value (notes/assumptions/104.md). -/
def VM.newTable (v : VM) : Nat :=
  let used := allParts.flatMap (fun p => v.mem.tables[p].map (·.2))
  let first := Config.freeNat v.free
  ((List.range (used.length + 1)).map (fun k => (first + k) % 2 ^ 28 * 4096)).find? (fun o => !used.contains o) |>.getD 0

/-- The table of one level that an address needs comes to exist. -/
def VM.growTable (p : PartId) (va : Nat) (v : VM) (level : Nat) : VM :=
  if (alGet (walkKey level va) v.mem.tables[p]).isSome then v
  else { v with mem := { v.mem with tables := modVec v.mem.tables p (alSet (walkKey level va) v.newTable) }, free := v.free + 1 }

/-- A translation: a hit in the die's cache, or a walk that brings the leaf entry in. The entry that gives way in a full cache is a free value. -/
def VM.translate (p : PartId) (va : Nat) (v : VM) : VM :=
  let k := (v.die, p, pageOf va)
  if v.mem.tlb.contains k then v
  else
    let mine := v.mem.tlb.filter (fun x => x.1 = v.die)
    let full := decide (4096 ≤ mine.length)
    let victim := mine.getD (Config.freeNat v.free % max mine.length 1) k
    { v with mem := { v.mem with tlb := k :: (if full then v.mem.tlb.erase victim else v.mem.tlb) }, free := if full then v.free + 1 else v.free }

/-- A page's leaf entry is gone, and every translation cache changes with it. -/
def VM.dropLeaf (p : PartId) (page : Nat) (v : VM) : VM :=
  { v with mem := { v.mem with pages := modVec v.mem.pages p (alDel page), tlb := v.mem.tlb.filter (fun x => !(x.2.1 = p && x.2.2 = page)) } }

def VM.region (v : VM) (p : PartId) (page : Nat) : Region := (alGet page v.mem.regions[p]).getD {}
def VM.setRegion (p : PartId) (page : Nat) (r : Region) (v : VM) : VM :=
  { v with mem := { v.mem with regions := modVec v.mem.regions p (alSet page r) } }
/-- A leaf entry is written; the tables above it exist from then on (R238). -/
def VM.setLeaf (p : PartId) (page : Nat) (l : Leaf) (v : VM) : VM :=
  let v := [0, 1, 2].foldl (VM.growTable p (page * 2 ^ 21)) v
  { v with mem := { v.mem with pages := modVec v.mem.pages p (alSet page l) } }

/-- t2_locate of R244: the global address word of byte `o` of a T2 page. -/
def t2Locate (m : Mem) (set slot o : Nat) : Nat :=
  match alGet set m.sets with
  | none => 0
  | some hs =>
    let w := max hs.homes.length 1
    let g := 32 * slot + o / 65536
    let (home, start) := hs.homes.getD (g % w) (0, 0)
    let base := ((alGet home m.homes).map (fun h => h.base.toNat)).getD 0
    base + start + (g / w) * 65536 + o % 65536

/-- The home of the list that holds byte `o` of a T2 page. -/
def t2Home (m : Mem) (set slot o : Nat) : Nat :=
  match alGet set m.sets with
  | none => 0
  | some hs => (hs.homes.getD ((32 * slot + o / 65536) % max hs.homes.length 1) (0, 0)).1

/-- The place a sector is accessed at, through the migration watermark (R251). -/
def VM.place (v : VM) (p : PartId) (va : Nat) (l : Leaf) : Loc :=
  match v.mem.migrations.find? (fun m => m.part = p && m.page = pageOf va) with
  | some m => if sectorOf va < m.watermark then m.dst else l.loc
  | none => l.loc

/-- What is stored at a place for sector `i` of a page; zero ciphertext and tag where nothing is. -/
def storedAt (m : Mem) (loc : Loc) (i : Nat) : StoredSector :=
  let none' : StoredSector := { cipher := 0, tag := 0 }
  match loc with
  | .t1 f => (alGet (f * 8192 + i) m.t1).getD none'
  | .t2 h sl => (alGet (t2Locate m h sl (256 * i)) m.t2).getD none'
  | .unbacked => none'

/-- Store a sector at a place. -/
def storeAt (loc : Loc) (i : Nat) (x : StoredSector) (m : Mem) : Mem :=
  match loc with
  | .t1 f => { m with t1 := alSet (f * 8192 + i) x m.t1 }
  | .t2 h sl => { m with t2 := alSet (t2Locate m h sl (256 * i)) x m.t2 }
  | .unbacked => m

/-- The stack whose controller serves a page: its frame's, or its counter slot's for a page in T2 (R395, R406). -/
def stackOf (loc : Loc) (slot : Nat) : Nat :=
  match loc with
  | .t1 f => f / 16384
  | _ => slot / 16384

/-! Keys. -/

/-- A live slot's value for an engine whose bit is in its mask (R433). -/
def liveKey (k : Keys) (owner purpose : Nat) (sel : KeySlot → Bool) (engine : Nat) : Option Bytes :=
  (k.slots.find? (fun x => !x.2.revoked && x.2.owner = owner && x.2.purpose = purpose && x.2.mask / 2 ^ engine % 2 = 1 && sel x.2)).map (·.2.value)

/-- The base key of a partition page (R389, R442). -/
def VM.baseKey (v : VM) (p : PartId) (l : Leaf) (epoch : Nat) : Option Bytes :=
  if v.parts[p].cls = 2 && l.param then liveKey v.keys p.val 4 (fun _ => true) 0
  else liveKey v.keys p.val 2 (fun k => k.epoch = epoch) 0

/-- KMAT of a region (R389). -/
def kmat (base : Bytes) (page gen epoch : Nat) : Bytes :=
  Config.kmac256 base (leBytes 8 page ++ leBytes 4 gen ++ leBytes 1 epoch) 768 "JT480 REGION"

/-- The tag of a sector (R391): the first 64 bits of the GMAC. -/
def sectorTag (km : Bytes) (lbn ctr : Nat) (c : Sector) : BitVec 64 :=
  (Config.gmac (slice km 64 32) (lbn * 2 ^ 48 + ctr * 2 ^ 32) (leBytes 6 lbn ++ leBytes 2 ctr ++ sectorBytes c)).extractLsb' 0 64

/-- A sector under its key: ciphertext and tag (R390, R391, R403). -/
def sealSector (km : Bytes) (lbn ctr : Nat) (x : Sector) : StoredSector :=
  let c := Config.xts (slice km 0 64) (lbn * 2 ^ 16 + ctr) x
  { cipher := c, tag := sectorTag km lbn ctr c }

/-- Opening: none where the tag fails (R393, R402). -/
def openSector (km : Bytes) (lbn ctr : Nat) (x : StoredSector) : Option Sector :=
  if sectorTag km lbn ctr x.cipher = x.tag then some ((Config.xts (slice km 0 64) (lbn * 2 ^ 16 + ctr)).symm x.cipher) else none

/-- Generation and epoch that a sector is under (R406). -/
def genOf (r : Region) (i : Nat) : Nat × Nat :=
  if r.rekeying && r.watermark ≤ i then (r.gen - 1, r.oldEpoch.toNat) else (r.gen, r.epoch.toNat)

/-! Counters and the tree. -/

def ctrKey (r : Region) (i : Nat) : Nat := r.slot * 8192 + i
/-- The counter of a sector; an unlisted counter is UNWRITTEN (R394). -/
def ctrOf (m : Mem) (r : Region) (i : Nat) : Nat := (alGet (ctrKey r i) m.ctrs).getD 0

/-- The 64 bytes of a child of the tree: a counter line at level 0, a node of 8 words above (R394, R396). -/
def treeBytes (m : Mem) (stack level idx : Nat) : Bytes :=
  if level = 0 then
    ((List.range 32).map (fun i => leBytes 2 ((alGet ((stack * 16384 + idx / 256) * 8192 + idx % 256 * 32 + i) m.ctrs).getD 0))).flatten
  else ((List.range 8).map (fun w => leBytes 8 ((kvGet (stack, level - 1, 8 * idx + w) m.tree).getD 0).toNat)).flatten

/-- The tree key of a stack (R396). -/
def treeKey (k : Keys) (stack : Nat) : Bytes := (liveKey k 0x40 0x14 (fun x => x.tag = stack) 0).getD []

/-- Update the word that names a child and every word above it (R396, R398): WRITTEN and the child's MAC. -/
def treeUpdate (k : Keys) (stack idx : Nat) (m : Mem) : Mem :=
  { m with tree := ((List.range 8).foldl (fun (acc : Mem × Nat) level =>
      let (m, i) := acc
      let mac := leNat ((Config.kmac256 (treeKey k stack) (leBytes 1 stack ++ leBytes 1 level ++ leBytes 4 i ++ treeBytes m stack level i) 56 "").take 7)
      ({ m with tree := kvSet (stack, level, i) (BitVec.ofNat 64 (2 ^ 63 + mac)) m.tree }, i / 8)) (m, idx)).1.tree }

/-- Set a sector's counter and bring the tree up to date. -/
def setCtr (k : Keys) (r : Region) (i c : Nat) (m : Mem) : Mem :=
  treeUpdate k (r.slot / 16384) (r.slot % 16384 * 256 + i / 32) { m with ctrs := alPut 0 (ctrKey r i) c m.ctrs }

/-- Clear the 256 counter lines of a slot: four words of one level-3 node become WRITTEN = 0 (R401). -/
def clearSlot (k : Keys) (slot : Nat) (m : Mem) : Mem :=
  let st := slot / 16384
  let leaf := slot % 16384 * 256
  let under (c : Nat × Nat × Nat) : Bool := c.1 = st && c.2.1 ≤ 2 && c.2.2 * 8 ^ c.2.1 / 256 = leaf / 256
  let m := { m with ctrs := m.ctrs.filter (fun c => c.1 / 8192 ≠ slot), cache := m.cache.filter (fun c => !under c), dirty := m.dirty.filter (fun c => !under c),
                    tree := m.tree.filter (fun w => !(w.1.1 = st && ((w.1.2.1 = 0 && w.1.2.2 / 256 = leaf / 256) ||
                      (w.1.2.1 = 1 && w.1.2.2 / 32 = leaf / 256) || (w.1.2.1 = 2 && w.1.2.2 / 4 = leaf / 256)))) }
  let i3 := leaf / 512
  { m with tree := ((List.range 5).foldl (fun (acc : Mem × Nat) n =>
      let (m, i) := acc
      let mac := leNat ((Config.kmac256 (treeKey k st) (leBytes 1 st ++ leBytes 1 (n + 3) ++ leBytes 4 i ++ treeBytes m st (n + 3) i) 56 "").take 7)
      ({ m with tree := kvSet (st, n + 3, i) (BitVec.ofNat 64 (2 ^ 63 + mac)) m.tree }, i / 8)) (m, i3)).1.tree }

/-- One cached line lies on the way from another up to the root (R396). -/
def above (a b : Nat × Nat × Nat) : Bool := a.1 = b.1 && b.2.1 < a.2.1 && a.2.1 ≤ 7 && b.2.2 / 8 ^ (a.2.1 - b.2.1) = a.2.2

/-- The parent of a line of the tree becomes dirty when the line is written back, since its word takes the line's new MAC (R398); the root is on the die. -/
def writeBack (c : Nat × Nat × Nat) (dirty : List (Nat × Nat × Nat)) : List (Nat × Nat × Nat) :=
  if c.2.1 < 7 then ((c.1, c.2.1 + 1, c.2.2 / 8) :: dirty.erase c).dedup else dirty.erase c

/-- What the caches hold: the lines, those that are dirty, and the free values used so far. -/
structure CacheSt where
  cache : List (Nat × Nat × Nat)
  dirty : List (Nat × Nat × Nat)
  free : Nat

/-- Make room for a line in its stack's cache of 2 MiB (R398): a line gives way that is no ancestor of a dirty one, written back first where it is dirty itself. Which one is a free value. -/
def CacheSt.room (st : Nat) (keep : List (Nat × Nat × Nat)) (x : CacheSt) : CacheSt :=
  let mine := x.cache.filter (fun c => c.1 = st)
  if mine.length < 32768 then x
  else
    let may := mine.filter (fun c => !keep.contains c && !x.dirty.any (fun d => above c d))
    match may[Config.freeNat x.free % max may.length 1]? with
    | none => x
    | some c => { cache := x.cache.erase c, dirty := if x.dirty.contains c then writeBack c x.dirty else x.dirty, free := x.free + 1 }

/-- A line comes into the cache of its stack. -/
def CacheSt.bring (st : Nat) (path : List (Nat × Nat × Nat)) (x : CacheSt) (c : Nat × Nat × Nat) : CacheSt :=
  if x.cache.contains c then x else let y := x.room st path; { y with cache := c :: y.cache }

/-- Look lines up in the cache of a stack (R398): the first counts as a hit or a miss, and those that are missing come in. A write leaves the first one dirty. -/
def VM.cacheLines (st : Nat) (path : List (Nat × Nat × Nat)) (write : Bool) (v : VM) : VM :=
  let line := path.headD (st, 0, 0)
  let x := path.foldl (CacheSt.bring st path) { cache := v.mem.cache, dirty := v.mem.dirty, free := v.free }
  { v with free := x.free,
           mem := { v.mem with counters := bump v.mem.counters (if v.mem.cache.contains line then 7 else 8) 1, cache := x.cache,
                               dirty := if write && !x.dirty.contains line then line :: x.dirty else x.dirty } }

/-- The counter line of a sector and its ancestors below the root (R396). -/
def treePath (r : Region) (i : Nat) : List (Nat × Nat × Nat) :=
  (List.range 8).map (fun l => (r.slot / 16384, l, (r.slot % 16384 * 256 + i / 32) / 8 ^ l))

/-- An access of a sector looks up its counter line, and the tag line of a T1 frame in the frame's own stack (R398); level 8 stands for tag lines. -/
def VM.cacheLook (r : Region) (i : Nat) (loc : Loc) (write : Bool) (v : VM) : VM :=
  let v := v.cacheLines (r.slot / 16384) (treePath r i) write
  match loc with
  | .t1 f => v.cacheLines (f / 16384) [(f / 16384, 8, f % 16384 * 1024 + i / 8)] write
  | _ => v

/-- The child of a level on the way to a sector is read from HBM: neither it nor a line below it on the way is cached, and its word says that it has been written (R397, R398). -/
def treeReads (m : Mem) (r : Region) (i level : Nat) : Bool :=
  (treePath r i).take (level + 1) |>.all (fun c => !m.cache.contains c && (kvGet c m.tree).getD 0 ≠ 0)

/-! Access counting (R249). -/

def VM.touch (p : PartId) (va : Nat) (acc : Bool) (v : VM) : VM :=
  if acc then { v with mem := { v.mem with pages := modVec v.mem.pages p (alMod (pageOf va) (fun l => { l with acc := l.acc + 1 })) } } else v

/-! Failures. -/

/-- Every read that waits on a sector ends with the same poisoned result (R411, R421). -/
def VM.endWaits (p : PartId) (va : Nat) (st : Status) (v : VM) : VM :=
  let same (w : WaitRead) : Bool := w.part = p && w.va / 256 = va / 256
  (v.mem.waits.filter same).foldl (fun v w =>
    let r := v.region p (pageOf w.va)
    let r := if r.rekeying ∧ w.gen + 1 = r.gen then { r with inFlightOld := r.inFlightOld - 1 } else { r with inFlight := r.inFlight - 1 }
    let v := v.setRegion p (pageOf w.va) r
    { v with mem := { v.mem with waits := v.mem.waits.erase w }, out := v.out ++ [.sectorData p w.va none st] }) v

/-- A sector becomes POISONED in one step (R410, R411), with its audit entry; an INTEGRITY failure raises the alert. -/
def VM.markPoisoned (p : PartId) (va : Nat) (st : Status) (v : VM) : VM :=
  let r := v.region p (pageOf va)
  let v := { v with mem := setCtr v.keys r (sectorOf va) 0xFFFF v.mem }
  let v := v.updPart p (fun x => { x with poisonedSectors := x.poisonedSectors + 1 })
  let v := match st with | .integrity => v.stat 3 1 | .uncorrectable => v.stat 2 1 | _ => v
  let v := v.audit (auditOf 1 st p.val (va / 256 * 256) 256 (detail := r.slot / 16384))
  let v := v.event p st
  match st with
  | .integrity => (v.alert p.val).endWaits p va st
  | .uncorrectable => v.endWaits p va st
  | _ => v

/-- A region enters re-encryption (R405); any re-encryption is one that a loss has asked for. -/
def VM.enterRekey (p : PartId) (page : Nat) (reason : Reason) (epoch : Nat) (v : VM) : VM :=
  let r := v.region p page
  let v := v.setRegion p page { r with rekeying := true, lossDue := false, reason := reason, oldEpoch := r.epoch, epoch := BitVec.ofNat 8 epoch, gen := r.gen + 1,
                                       watermark := 0, oldPeak := r.peak, peak := 0, inFlightOld := r.inFlight, inFlight := 0, entered := v.mem.rekeyClock }
  ({ v with mem := { v.mem with rekeyClock := v.mem.rekeyClock + 1 } }).stat 5 1

/-- A page copy of the page is in progress (R252). -/
def VM.migrating (v : VM) (p : PartId) (page : Nat) : Bool := v.mem.migrations.any (fun m => m.part = p && m.page = page)

/-- Pages of all partitions whose counters lie in slots `lo..hi` of the module. -/
def pagesInSlots (m : Mem) (lo hi : Nat) : List (PartId × Nat) :=
  allParts.flatMap fun p => (m.pages[p].filter (fun x => x.2.loc ≠ .unbacked &&
    (let sl := ((alGet x.1 m.regions[p]).getD {}).slot; lo ≤ sl && sl ≤ hi))).map (fun x => (p, x.1))

/-- A counter line or node is lost (R413): every counter below becomes POISONED, each region below enters re-encryption, ranges are audited, INTEGRITY raises the alert. -/
def VM.treeLoss (r : Region) (i level : Nat) (integrity : Bool) (v : VM) : VM :=
  let st := r.slot / 16384
  let line := r.slot % 16384 * 256 + i / 32
  let first := line / 8 ^ level * 8 ^ level
  let count := 8 ^ level
  let status : Status := if integrity then .integrity else .uncorrectable
  let ctrs := (List.range (count * 32)).foldl (fun l n =>
    let sec := first * 32 + n
    alSet ((st * 16384 + sec / 8192) * 8192 + sec % 8192) 0xFFFF l) v.mem.ctrs
  let before := v.mem.ctrs
  let m := { v.mem with ctrs := ctrs }
  let m := (List.range count).foldl (fun m n => treeUpdate v.keys st (first + n) m) m
  let v := ({ v with mem := m }).stat 4 1
  (pagesInSlots v.mem (st * 16384 + first / 256) (st * 16384 + (first + count - 1) / 256)).foldl (fun v (pp : PartId × Nat) =>
    let (p, page) := pp
    let reg := v.region p page
    let base := (st * 16384 + first / 256)
    let lo := if reg.slot = base then first % 256 * 32 else 0
    let n := min (count * 32) (8192 - lo)
    -- those that were POISONED before the loss do not count again (R417)
    let fresh := ((List.range n).filter (fun k => (alGet (reg.slot * 8192 + lo + k) before).getD 0 ≠ 0xFFFF)).length
    let v := v.updPart p (fun x => { x with poisonedSectors := x.poisonedSectors + BitVec.ofNat 64 fresh })
    let v := if reg.rekeying || v.migrating p page then v.setRegion p page { reg with lossDue := true } else v.enterRekey p page .loss reg.epoch.toNat
    let v := v.audit (auditOf 1 status p.val (page * 2 ^ 21 + lo * 256) (n * 256) (detail := st))
    let v := v.event p status
    if integrity then v.alert p.val else v) v

/-! Reading and writing a sector. -/

/-- What a sector read gives: data, poison with a status, or an unmapped page. -/
inductive RdRes where
  | data (x : Sector)
  | poisoned (st : Status)
  | unmapped
deriving DecidableEq, Repr

/-- The status of a read's result. -/
def RdRes.status : RdRes → Status
  | .data _ => .done
  | .poisoned st => st
  | .unmapped => .quota

/-- The stack that holds a page, or its counters, has failed in this boot (R587). -/
def VM.absent (v : VM) (p : PartId) (va : Nat) (l : Leaf) : Bool :=
  v.mem.stacksFailed.contains ((v.region p (pageOf va)).slot / 16384) || (match v.place p va l with | .t1 f => v.mem.stacksFailed.contains (f / 16384) | _ => false)

/-- Read of a sector by R402, `d` being what the medium delivers. -/
def VM.readSector (p : PartId) (va : Nat) (d : Delivered) (acc : Bool) (v : VM) : VM × RdRes :=
  match v.leaf p va with
  | none => (v, .unmapped)
  | some l =>
    if l.loc = .unbacked then (v, .data 0)
    else
      let v := v.translate p va
      let r := v.region p (pageOf va)
      let i := sectorOf va
      let (gen, epoch) := genOf r i
      match v.baseKey p l epoch with
      | none => (v, .poisoned .keyRevoked)
      | some base =>
        let d := match d with | .treeLost level _ => if treeReads v.mem r i level then d else .asStored 0 | _ => d
        let v := (v.touch p va acc).cacheLook r i (v.place p va l) false
        match d with
        | .treeLost level integ => (v.treeLoss r i level integ, .poisoned (if integ then .integrity else .uncorrectable))
        | _ =>
          let c := ctrOf v.mem r i
          if c = 0 then (v, .data 0)
          else if c = 0xFFFF then (v, .poisoned (if v.absent p va l then .uncorrectable else .poisonIn))
          else
            let km := kmat base (pageOf va) gen epoch
            let judge (v : VM) (x : StoredSector) : VM × RdRes :=
              match openSector km (lbnOf va) c x with
              | some x => (v, .data x)
              | none => (v.markPoisoned p va .integrity, .poisoned .integrity)
            match d with
            | .asStored n => judge (v.stat 1 n) (storedAt v.mem (v.place p va l) i)
            | .altered x => judge v x
            | .uncorrectable => (v.markPoisoned p va .uncorrectable, .poisoned .uncorrectable)
            | .linkLost => ((v.audit (auditOf 2 .linkLost p.val (va / 256 * 256) 256)).event p .linkLost, .poisoned .linkLost)
            | .peerFailed => ((v.audit (auditOf 2 .peerFailed p.val (va / 256 * 256) 256)).event p .peerFailed, .poisoned .peerFailed)
            | .treeLost _ _ => (v, .poisoned .integrity)

/-- A device that a place of a T2 page needs is out of reach: no flow to its home is open. -/
def VM.cutOff (v : VM) (p : PartId) (loc : Loc) (i : Nat) : Bool :=
  match loc with | .t2 h k => !v.reach p (BitVec.ofNat 16 (t2Locate v.mem h k (256 * i) / 2 ^ 48)) | _ => false

/-- The sector stored at a T2 place is to go to its home: by a sector CAS where part of it was replaced, else by a MEMWR (R283, R289). -/
def VM.sendOf (p : PartId) (v : VM) (loc : Loc) (i : Nat) (cas : Bool) (x : StoredSector) : List T2Write :=
  match loc with
  | .t2 h k => [{ part := p, gaddr := t2Locate v.mem h k (256 * i), expected := if cas then some (storedAt v.mem loc i).tag else none, new := x }]
  | _ => []

/-- Re-encrypt the next sector of a region that is REKEYING and advance its watermark (R406); a T2 sector goes to its home. A sector that cannot be read now, because its home is out of reach or its key is gone, waits. -/
def VM.rekeyOne (p : PartId) (page : Nat) (d : Delivered) (v : VM) : VM :=
  let r := v.region p page
  let i := r.watermark
  let va := page * 2 ^ 21 + 256 * i
  let c := ctrOf v.mem r i
  if c = 0 ∨ c = 0xFFFF then v.setRegion p page { r with watermark := i + 1 }
  else
    let (v, x) := v.readSector p va d false
    let r := v.region p page
    match x, v.leaf p va with
    | .data x, some l =>
      match v.baseKey p l r.epoch.toNat with
      | none => v
      | some base =>
        let km := kmat base page r.gen r.epoch.toNat
        let loc := v.place p va l
        let y := sealSector km (lbnOf va) 1 x
        if v.cutOff p loc i then v
        else ({ v with mem := setCtr v.keys r i 1 (storeAt loc i y v.mem), sends := v.sends ++ v.sendOf p loc i false y }).setRegion p page { r with watermark := i + 1, peak := max r.peak 1 }
    | .poisoned st, _ => if st = .linkLost ∨ st = .peerFailed ∨ st = .keyRevoked then v else v.setRegion p page { r with watermark := i + 1 }
    | _, _ => v

/-- What a region missed while it was copying or under re-encryption, a loss, a rotation or a new wrap, it enters now (R252, R405, R408, R418). -/
def VM.enterMissed (p : PartId) (page : Nat) (v : VM) : VM :=
  let r := v.region p page
  let param := match alGet page v.mem.pages[p] with | some l => v.parts[p].cls = 2 && l.param | none => false
  if r.rekeying ∨ v.migrating p page then v
  else if r.lossDue then v.enterRekey p page .loss r.epoch.toNat
  else if v.parts[p].rotating ∧ r.epoch ≠ v.parts[p].epoch ∧ !param then v.enterRekey p page .rotation v.parts[p].epoch.toNat
  else if 0xF000 ≤ r.peak then v.enterRekey p page .wrap r.epoch.toNat
  else v

/-- The region becomes STEADY when its sectors are done and no read under the old generation is in flight (R407). -/
def VM.steady (p : PartId) (page : Nat) (v : VM) : VM :=
  let r := v.region p page
  if r.rekeying ∧ 8192 ≤ r.watermark ∧ r.inFlightOld = 0 then
    (v.setRegion p page { r with rekeying := false, watermark := 8192 }).enterMissed p page
  else v

/-- Run a re-encryption on until the watermark has passed sector `i` (a write that waits, R406). -/
def VM.rekeyPast (p : PartId) (page i : Nat) (v : VM) : VM :=
  (List.range (i + 1 - (v.region p page).watermark)).foldl (fun v _ => v.rekeyOne p page (.asStored 0)) v

/-- A free value. -/
def VM.draw (v : VM) : VM := { v with free := v.free + 1 }

/-- The page with which a copying page is exchanged (R250): its place is our destination and ours is its. -/
def exchangePartner (m : Mem) (q : Migration) (l : Leaf) : Option (Migration × Leaf) :=
  m.migrations.findSome? fun o =>
    if o.part = q.part ∧ o.page = q.page then none
    else match alGet o.page m.pages[o.part] with
      | some lo => if o.dst = l.loc ∧ lo.loc = q.dst then some (o, lo) else none
      | none => none

/-- Copy the next sector of a migration (R251): ciphertext and tag unchanged; a T2 home gets its sector by a MEMWR. The two sectors of an exchange change places in one step. -/
def VM.migrateOne (p : PartId) (page : Nat) (v : VM) : VM :=
  match v.mem.migrations.find? (fun m => m.part = p && m.page = page), alGet page v.mem.pages[p] with
  | some m, some l =>
    let i := m.watermark
    let x := storedAt v.mem l.loc i
    let mem := if ctrOf v.mem (v.region p page) i = 0 then v.mem else storeAt m.dst i x v.mem
    let sends := if ctrOf v.mem (v.region p page) i = 0 then [] else v.sendOf p m.dst i false x
    let (mem, sends, q, qp) := match exchangePartner v.mem m l with
      | some (o, lo) => if ctrOf v.mem (v.region o.part o.page) i = 0 then (mem, sends, o.part, o.page)
        else (storeAt o.dst i (storedAt v.mem lo.loc i) mem, sends ++ v.sendOf o.part o.dst i false (storedAt v.mem lo.loc i), o.part, o.page)
      | none => (mem, sends, p, page)
    { v with sends := v.sends ++ sends, mem := { mem with migrations := mem.migrations.map (fun w =>
        if (w.part = p && w.page = page) || (w.part = q && w.page = qp) then { w with watermark := w.watermark + 1 } else w) } }
  | _, _ => v

/-- Another page, or another page's copy, holds a place. -/
def heldByOther (m : Mem) (p : PartId) (page : Nat) (loc : Loc) : Bool :=
  m.migrations.any (fun q => !(q.part = p && q.page = page) && q.dst = loc) ||
  allParts.any (fun q => m.pages[q].any (fun x => !(q = p && x.1 = page) && x.2.loc = loc))

/-- The place of a page is given back: its stored sectors are dropped. -/
def freeLoc (loc : Loc) (m : Mem) : Mem :=
  match loc with
  | .t1 f => { m with t1 := m.t1.filter (fun x => x.1 / 8192 ≠ f) }
  | .t2 h sl => { m with t2 := m.t2.filter (fun x => !((List.range 32).any (fun k => t2Locate m h sl (k * 65536) / 65536 = x.1 / 65536))) }
  | .unbacked => m

/-- After the last sector the leaf changes and the source is freed (R251); a re-encryption that waited begins (R418). -/
def VM.migrateEnd (p : PartId) (page : Nat) (v : VM) : VM :=
  match v.mem.migrations.find? (fun m => m.part = p && m.page = page), alGet page v.mem.pages[p] with
  | some m, some l =>
    if m.watermark < 8192 then v
    else
      let mem := if heldByOther v.mem p page l.loc then v.mem else freeLoc l.loc v.mem
      let v := { v with mem := { mem with migrations := mem.migrations.filter (fun q => !(q.part = p && q.page = page)) } }
      let v := v.setLeaf p page { l with loc := m.dst, migrating := false }
      (v.updPart p (Part.count 0x14 1)).enterMissed p page
  | _, _ => v

/-- Finish a page copy (a write that waits through the copy, R418). -/
def VM.migrateAll (p : PartId) (page : Nat) (v : VM) : VM :=
  match v.mem.migrations.find? (fun m => m.part = p && m.page = page) with
  | some m => ((List.range (8192 - m.watermark)).foldl (fun v _ => v.migrateOne p page) v).migrateEnd p page
  | none => v

/-- The counter that a write of sector `i` takes (R400, R406): against the peak of the generation that the sector is under. -/
def nextCtr (m : Mem) (r : Region) (i : Nat) : Nat :=
  let c := ctrOf m r i
  if c = 0xFFFF then (if r.rekeying && r.watermark ≤ i then r.oldPeak else r.peak) + 1 else c + 1

/-- A write whose counter would exceed 0xFFFE waits through a copy and a re-encryption (R406, R418). -/
def VM.writeWait (p : PartId) (va : Nat) (v : VM) : VM :=
  let page := pageOf va
  let i := sectorOf va
  if nextCtr v.mem (v.region p page) i ≤ 0xFFFE then v
  else
    let v := (v.stat 6 1).migrateAll p page
    let v := if (v.region p page).rekeying then v else v.enterRekey p page .wrap (v.region p page).epoch.toNat
    v.rekeyPast p page i

/-- The write of a sector whose turn has come (R403): counter by R400, encryption under the current key, tag, and the three stored together. A T2 home out of reach takes nothing. -/
def VM.writeNow (p : PartId) (va : Nat) (x : Sector) (acc cas : Bool) (v : VM) : VM × Status :=
  match v.leaf p va with
  | none => (v, .quota)
  | some l =>
    if v.cutOff p (v.place p va l) (sectorOf va) then (v, .linkLost)
    -- a stack that has failed takes nothing (notes/assumptions/113.md)
    else if v.absent p va l then (v, .uncorrectable)
    else
      let v := v.translate p va
      let page := pageOf va
      let i := sectorOf va
      let r := v.region p page
      let (gen, epoch) := genOf r i
      match v.baseKey p l epoch with
      | none => (v, .keyRevoked)
      | some base =>
        let v := (v.touch p va acc).cacheLook r i (v.place p va l) true
        let c := nextCtr v.mem r i
        let old := r.rekeying && r.watermark ≤ i
        let y := sealSector (kmat base page gen epoch) (lbnOf va) c x
        let m := storeAt (v.place p va l) i y v.mem
        let v := { v with mem := setCtr v.keys r i c m, sends := v.sends ++ v.sendOf p (v.place p va l) i cas y }
        let v := v.setRegion p page (if old then { r with oldPeak := max r.oldPeak c } else { r with peak := max r.peak c })
        (if 0xF000 ≤ c ∧ !r.rekeying ∧ !v.migrating p page then v.enterRekey p page .wrap r.epoch.toNat else v, .done)

/-- Write of a whole sector (R403, R406); `cas`: part of it was merged into the sector as stored (R404). -/
def VM.writeAs (p : PartId) (va : Nat) (x : Sector) (acc cas : Bool) (v : VM) : VM × Status :=
  match v.leaf p va with
  | none => (v, .quota)
  | some l => if l.loc = .unbacked then (v, .quota) else (v.writeWait p va).writeNow p va x acc cas
def VM.writeSector (p : PartId) (va : Nat) (x : Sector) (acc : Bool) (v : VM) : VM × Status := v.writeAs p va x acc false

/-- A write by anyone but a slice's entries that finds no backed page is entered in the fault audit (R241). -/
def VM.refused (p : PartId) (va len : Nat) (st : Status) (v : VM) : VM := if st = .quota then v.audit (auditOf 1 st p.val va len) else v

/-- Bytes put over a sector from offset `o` on. -/
def mergeSector (old : Sector) (o : Nat) (b : Bytes) : Sector :=
  let bs := sectorBytes old
  bytesSector (bs.take o ++ b.take (256 - o) ++ bs.drop (o + b.length))

/-- Write of part of a sector by R404 and R412: `va` is the address of the first byte and `b` stays within the sector. -/
def VM.writePart (p : PartId) (va : Nat) (b : Bytes) (d : Delivered) (acc : Bool) (v : VM) : VM × Status :=
  match v.leaf p va with
  | none => (v, .quota)
  | some l =>
    if l.loc = .unbacked then (v, .quota)
    else if va % 256 = 0 ∧ b.length = 256 then v.writeSector p va (bytesSector b) acc
    else
      match v.readSector p (va / 256 * 256) d false with
      | (v, .data old) => v.writeAs p (va / 256 * 256) (mergeSector old (va % 256) b) acc true
      | (v, .poisoned st) => (v, st)
      | (v, .unmapped) => (v, .quota)

/-! Byte ranges, through sectors delivered as stored. -/

/-- The pieces of a byte range by sector: address and length. -/
def piecesGo : Nat → Nat → Nat → List (Nat × Nat)
  | 0, _, _ => []
  | f + 1, va, len => if len = 0 then [] else let n := min len (256 - va % 256); (va, n) :: piecesGo f (va + n) (len - n)

def pieces (va len : Nat) : List (Nat × Nat) := piecesGo (len / 256 + 2) va len

/-- Read a range: none where a sector is unmapped or poisoned. -/
def VM.readBytes (p : PartId) (va len : Nat) (v : VM) : VM × Option Bytes :=
  (pieces va len).foldl (fun (acc : VM × Option Bytes) (x : Nat × Nat) =>
    match acc with
    | (v, none) => (v, none)
    | (v, some bs) =>
      match v.readSector p (x.1 / 256 * 256) (.asStored 0) false with
      | (v, .data s) => (v, some (bs ++ slice (sectorBytes s) (x.1 % 256) x.2))
      | (v, _) => (v, none)) (v, some [])

/-- The first status other than done that reading a range meets. -/
def VM.readStatus (p : PartId) (va len : Nat) (v : VM) : Status :=
  ((pieces va len).foldl (fun (acc : VM × Status) (x : Nat × Nat) =>
    if acc.2 = .done then let (w, y) := acc.1.readSector p (x.1 / 256 * 256) (.asStored 0) false; (w, y.status) else acc) (v, .done)).2

/-- Write a range, stopping at the first sector that rejects it; bytes written and the status. -/
def VM.writeBytes (p : PartId) (va : Nat) (b : Bytes) (acc : Bool) (v : VM) : VM × Nat × Status :=
  (pieces va b.length).foldl (fun (t : VM × Nat × Status) (x : Nat × Nat) =>
    match t with
    | (v, n, st) =>
      if st = .done then
        match v.writePart p x.1 (slice b n x.2) (.asStored 0) acc with
        | (v, .done) => (v, n + x.2, .done)
        | (v, st) => (v, n, st)
      else (v, n, st)) (v, 0, .done)

/-- Make a whole sector POISONED, as a mover's poisoned bytes do (R415); the counters under its key go on from PEAK (R400). -/
def VM.poisonSector (p : PartId) (va : Nat) (v : VM) : VM × Status :=
  match v.leaf p va with
  | none => (v, .quota)
  | some l =>
    if l.loc = .unbacked then (v, .quota)
    else
      let r := v.region p (pageOf va)
      if ctrOf v.mem r (sectorOf va) = 0xFFFF then (v, .done)
      else (({ v with mem := setCtr v.keys r (sectorOf va) 0xFFFF v.mem }).updPart p (fun x => { x with poisonedSectors := x.poisonedSectors + 1 }), .done)

/-! The window space of a partition. -/

/-- The window range is marked poisoned in some 256-byte range it touches (R415). -/
def winPoisoned (m : Mem) (p : PartId) (off len : Nat) : Bool :=
  m.winPoison[p].any (fun u => u * 256 < off + len && off < (u + 1) * 256)

/-- Write bytes to the window; a range that is wholly covered loses its mark (R415). -/
def winWrite (p : PartId) (off : Nat) (b : Bytes) (m : Mem) : Mem :=
  { m with window := modVec m.window p (cellsWrite off b),
           winPoison := modVec m.winPoison p (fun l => l.filter (fun u => !(off ≤ u * 256 && (u + 1) * 256 ≤ off + b.length))) }

/-- Mark the 256-byte ranges that a byte range lands in (R415). -/
def winMark (p : PartId) (off len : Nat) (m : Mem) : Mem :=
  { m with winPoison := modVec m.winPoison p (fun l => (l ++ ((List.range ((off + len + 255) / 256 - off / 256)).map (fun i => off / 256 + i))).dedup) }

/-- Number of arrays in a bitmap, and the window size (R230). -/
def bitmapList (b : BitVec 128) : List Nat := (List.range 128).filter (fun i => b.getLsbD i)
def windowBytes (b : BitVec 128) : Nat := 3 * 2 ^ 20 * (bitmapList b).length

end Sys2Proof.Machine
end

