-- ==== Sys2Proof/Machine/MemMap.lean ====
section
/-!
DEFINITION. Machine/MemMap.lean: backing of pages (R233, R243, R395, R401), mapping requests (R246), quotas (R247), stash reservation (R149),
migration planning (R249, R250), releases (R246, R264, R419) and the replacement of failed homes (R263).
-/

namespace Sys2Proof.Machine

/-! Use and room. -/

/-- The place a page counts in: its destination from the moment a migration is planned (R250). -/
def countedLoc (m : Mem) (p : PartId) (page : Nat) (l : Leaf) : Loc :=
  match m.migrations.find? (fun q => q.part = p && q.page = page) with | some q => q.dst | none => l.loc

def Loc.isT1 : Loc → Bool | .t1 _ => true | _ => false
def Loc.isT2 : Loc → Bool | .t2 _ _ => true | _ => false

/-- T1_USE_PAGES and T2_USE_PAGES of R245. -/
def t1Use (m : Mem) (p : PartId) : Nat := (m.pages[p].filter (fun x => (countedLoc m p x.1 x.2).isT1)).length
def t2Use (m : Mem) (p : PartId) : Nat := (m.pages[p].filter (fun x => (countedLoc m p x.1 x.2).isT2)).length
/-- UNBACKED_PAGES of R245. -/
def unbackedPages (m : Mem) (p : PartId) : Nat := (m.pages[p].filter (fun x => x.2.loc = .unbacked)).length

/-- A quota in whole pages (R247). -/
def quotaPages (q : BitVec 64) : Nat := q.toNat / 2 ^ 21

/-- T1_PRIVATE_BYTES of R245: the unit's own size with the Bindery carve-out (notes/assumptions/2.md). -/
def t1Private (carveout : Nat) : Nat := Config.t1PrivateBase + carveout

/-- Every place held by a page or by the destination of a copy. -/
def heldLocs (m : Mem) : List Loc :=
  (allParts.flatMap fun p => m.pages[p].map (fun x => x.2.loc)) ++ m.migrations.map (fun q => q.dst)

/-- Frames that partitions may take: those after the private area and the lent range (R233; their places: notes/assumptions/9.md). -/
def frameFloor (m : Mem) (priv : Nat) : Nat := ceilDiv (priv + m.lendBytes.toNat) (2 ^ 21)

/-- Free frames of a stack; a failed stack has none (R587). -/
def freeFrames (m : Mem) (priv : Nat) (st : Nat) : List Nat :=
  let used := heldLocs m
  (List.range 16384).filterMap fun i =>
    let f := st * 16384 + i
    if frameFloor m priv ≤ f ∧ !used.contains (.t1 f) ∧ !m.stacksFailed.contains st then some f else none

/-- The stacks in round-robin order after the one used last (R233, R395). -/
def stackOrder (last : Nat) : List Nat := (List.range 24).map (fun i => (last + 1 + i) % 24)

/-- Take a free frame: the stacks round-robin; which free frame of the stack is a free value (R233, log 3). -/
def VM.takeFrame (priv : Nat) (v : VM) : Option (VM × Loc) :=
  (stackOrder v.mem.lastStack).findSome? fun st =>
    match freeFrames v.mem priv st with
    | [] => none
    | l => some ({ v with mem := { v.mem with lastStack := st }, free := v.free + 1 }, .t1 (l.getD (Config.freeNat v.free % l.length) 0))

/-- Free counter slots of a stack (R395); a failed stack has none (R587). -/
def freeSlots (m : Mem) (st : Nat) : List Nat := if m.stacksFailed.contains st then [] else ((List.range 16384).map (fun i => st * 16384 + i)).filter (fun c => !m.slots.contains c)

/-- Take a counter slot: the stacks round-robin; which free slot of the stack is a free value (R395, log 3). -/
def VM.takeSlot (v : VM) : Option (VM × Nat) :=
  (stackOrder v.mem.lastSlotStack).findSome? fun st =>
    match freeSlots v.mem st with
    | [] => none
    | l =>
      let c := l.getD (Config.freeNat v.free % l.length) 0
      some ({ v with mem := { v.mem with lastSlotStack := st, slots := c :: v.mem.slots }, free := v.free + 1 }, c)

/-! Home sets (R243). -/

/-- Bytes of a home that its sets hold. -/
def homeUsed (m : Mem) (home : Nat) : Nat :=
  (m.sets.map (fun s => if s.2.homes.any (fun h => h.1 = home) then s.2.contribution else 0)).foldl (· + ·) 0
def homeFree (m : Mem) (home : Nat) (h : Home) : Nat := h.bytes - homeUsed m home
/-- Where the next contribution of a home starts. -/
def homeNext (m : Mem) (home : Nat) : Nat :=
  (m.sets.map (fun s => (s.2.homes.map (fun h => if h.1 = home then h.2 + s.2.contribution else 0)).foldl max 0)).foldl max 0

/-- Insert by descending first component, stable. -/
def insDesc (x : Nat × Nat) : List (Nat × Nat) → List (Nat × Nat)
  | [] => [x]
  | y :: r => if y.1 < x.1 then x :: y :: r else y :: insDesc x r

/-- Homes with at least 64 KiB free: free bytes and index, most free first, ties in list order. -/
def homesByRoom (m : Mem) (skip : List Nat) : List (Nat × Nat) :=
  ((m.homes.filter (fun h => 65536 ≤ homeFree m h.1 h.2 && !skip.contains h.1 && !m.failedHomes.contains h.1)).map (fun h => (homeFree m h.1 h.2, h.1))).foldl (fun l x => insDesc x l) []

/-- Form a new home set (R243); none when no home has room or 4,096 sets are held. -/
def formSet (m : Mem) : Option (Mem × Nat) :=
  let cand := (homesByRoom m []).take m.stripe.toNat
  match cand.getLast?, (List.range 4096).find? (fun i => (alGet i m.sets).isNone) with
  | some (least, _), some idx =>
    let c := min (least / 65536 * 65536) (2 ^ 30)
    let hs : HomeSet := { contribution := c, homes := cand.map (fun h => (h.2, homeNext m h.2)), slots := c * cand.length / 2 ^ 21 }
    some ({ m with sets := alSet idx hs m.sets, narrowSets := if cand.length < m.stripe.toNat then m.narrowSets + 1 else m.narrowSets }, idx)
  | _, _ => none

/-- The lowest free slot of the lowest-numbered set that has one. -/
def freeSetSlot (m : Mem) : Option (Nat × Nat) :=
  let used := heldLocs m
  m.sets.findSome? fun s => ((List.range s.2.slots).find? (fun k => !used.contains (.t2 s.1 k))).map (fun k => (s.1, k))

/-- Take a T2 slot (R243). -/
def VM.takeT2 (v : VM) : Option (VM × Loc) :=
  match freeSetSlot v.mem with
  | some (h, k) => some (v, .t2 h k)
  | none =>
    match formSet v.mem with
    | some (m, _) => (freeSetSlot m).map (fun x => ({ v with mem := m }, .t2 x.1 x.2))
    | none => none

/-! Backing. -/

/-- A page takes backing at a place (R401): a slot, GEN + 1, PEAK 0, WATERMARK 8,192 and cleared counters, under the current epoch (R408). -/
def VM.backAt (p : PartId) (page : Nat) (leaf : Leaf) (v : VM) : Option VM :=
  match v.takeSlot with
  | none => none
  | some (v, c) =>
    let r := v.region p page
    let v := v.setRegion p page { r with gen := r.gen + 1, peak := 0, watermark := 8192, rekeying := false, slot := c, epoch := v.parts[p].epoch, inFlight := 0, inFlightOld := 0 }
    some ({ v with mem := clearSlot v.keys c v.mem }.setLeaf p page leaf)

/-- Back a page in T1, in T2, or in T1 while its quota has room and T2 after that (R246); none ends QUOTA. PLACE: 0 ANY, 1 T1, 2 T2. -/
def VM.backPage (priv : Nat) (p : PartId) (page place : Nat) (mk : Loc → Leaf) (v : VM) : Option VM :=
  if v.parts[p].overQuota then none
  else
    let t1 := if t1Use v.mem p < quotaPages v.parts[p].force.t1 then v.takeFrame priv else none
    let t2 := fun (_ : Unit) => if t2Use v.mem p < quotaPages v.parts[p].force.t2 then v.takeT2 else none
    let got := if place = 1 then t1 else if place = 2 then t2 () else (match t1 with | some x => some x | none => t2 ())
    match got with
    | none => none
    | some (v, loc) => v.backAt p page (mk loc)

/-- Give a page's backing back: its place, its slot, its copy and its re-encryption (R264, R401, R419). -/
def VM.unback (p : PartId) (page : Nat) (v : VM) : VM :=
  -- an exchange is completed first: the other page's sectors lie on both places
  let v := match v.mem.migrations.find? (fun q => q.part = p && q.page = page), alGet page v.mem.pages[p] with
    | some q, some l => if (exchangePartner v.mem q l).isSome then v.migrateAll p page else v
    | _, _ => v
  match alGet page v.mem.pages[p] with
  | none => v
  | some l =>
    let r := v.region p page
    let m := (v.mem.migrations.filter (fun q => q.part = p && q.page = page)).foldl (fun m q => freeLoc q.dst m) (freeLoc l.loc v.mem)
    let m := { m with migrations := m.migrations.filter (fun q => !(q.part = p && q.page = page)),
                      slots := if l.loc = .unbacked then m.slots else m.slots.erase r.slot }
    ({ v with mem := m }).setRegion p page { r with rekeying := false, watermark := 8192 }

/-! Mapping requests (R246). -/

/-- The attribute byte MAP_ATTR. -/
def attrStash (a : Nat) : Bool := a % 2 = 1
def attrParam (a : Nat) : Bool := a / 2 % 2 = 1
def attrPin (a : Nat) : Bool := a / 4 % 2 = 1
def attrPlace (a : Nat) : Nat := a / 8 % 4

/-- The pages of a request whose address and length have the form of R246. -/
def mapPages (va : BitVec 64) (n : Nat) : Option (List Nat) :=
  if va.toNat % 2 ^ 21 = 0 ∧ 1 ≤ n ∧ va.toNat + n * 2 ^ 21 ≤ 2 ^ 56 then some ((List.range n).map (fun i => va.toNat / 2 ^ 21 + i)) else none

/-- A JOINT partition without its joint key maps no PARAM page (R442). -/
def paramBarred (x : Part) (keys : Keys) (p : PartId) (param : Bool) : Bool :=
  x.cls = 2 && param && (keys.slots.find? (fun k => k.2.owner = p.val && k.2.purpose = 4 && !k.2.revoked)).isNone

/-- Map pages one after another; none when some page finds no backing. -/
def VM.mapAll (priv : Nat) (p : PartId) (attr : Nat) : List Nat → VM → Option VM
  | [], v => some v
  | page :: rest, v =>
    let mk (loc : Loc) : Leaf := { loc := loc, stash := attrStash attr, param := attrParam attr, pin := attrPin attr }
    if attrStash attr then VM.mapAll priv p attr rest (v.setLeaf p page (mk .unbacked))
    else match v.backPage priv p page (attrPlace attr) mk with
      | some v => VM.mapAll priv p attr rest v
      | none => none

/-- MAP (R246): in full or not at all. -/
def VM.doMap (priv : Nat) (p : PartId) (va : BitVec 64) (n attr : Nat) (v : VM) : VM × Status :=
  match mapPages va n with
  | none => (v, .denied)
  | some pages =>
    if v.parts[p].state ≠ .active ∨ 32 ≤ attr ∨ attrPlace attr = 3 ∨
       (attrStash attr ∧ (attrPlace attr ≠ 0 ∨ attrPin attr ∨ attrParam attr)) ∨
       paramBarred v.parts[p] v.keys p (attrParam attr) ∨ pages.any (fun g => (alGet g v.mem.pages[p]).isSome) then (v, .denied)
    else match v.mapAll priv p attr pages with
      | some v => (v, .done)
      | none => (v, .quota)

/-- SET_ATTR (R246). -/
def VM.doSetAttr (p : PartId) (va : BitVec 64) (n attr : Nat) (v : VM) : VM × Status :=
  match mapPages va n with
  | none => (v, .denied)
  | some pages =>
    if v.parts[p].state ≠ .active ∨ 32 ≤ attr ∨ attrPlace attr = 3 ∨ paramBarred v.parts[p] v.keys p (attrParam attr) ∨
       pages.any (fun g => match alGet g v.mem.pages[p] with | none => true | some l => l.stash && (attrPin attr || attrParam attr)) then (v, .denied)
    else
      ({ v with mem := { v.mem with pages := modVec v.mem.pages p (fun l => pages.foldl (fun l g =>
          alMod g (fun x => if x.stash then x else { x with pin := attrPin attr, param := attrParam attr }) l) l) } }, .done)

/-- UNMAP and DISCARD wait for step 4 (R246). -/
def VM.doRelease (p : PartId) (va : BitVec 64) (n : Nat) (discard : Bool) (v : VM) : VM × Status :=
  match mapPages va n with
  | none => (v, .denied)
  | some pages =>
    if v.parts[p].state ≠ .active ∨ pages.any (fun g => match alGet g v.mem.pages[p] with | none => true | some l => discard && !l.stash) then (v, .denied)
    else (v.updPart p (fun x => { x with releases := x.releases ++ pages.map (fun g => (g, discard)) }), .done)

/-- The releases of a partition take effect (R246, step 4). -/
def VM.applyReleases (p : PartId) (v : VM) : VM :=
  let v := v.parts[p].releases.foldl (fun v (g, discard) =>
    let v := v.unback p g
    if discard then { v with mem := { v.mem with pages := modVec v.mem.pages p (alMod g (fun l => { l with loc := .unbacked, migrating := false })) } }
    else v.dropLeaf p g) v
  v.updPart p (fun x => { x with releases := [] })

/-- The leaf entry of R240 as its 64-bit word; zero where the page is not mapped. -/
def leafWord (m : Mem) (p : PartId) (page : Nat) : BitVec 64 :=
  match alGet page m.pages[p] with
  | none => 0
  | some l =>
    let (tier, loc) := match l.loc with | .t1 f => (0, f) | .t2 h k => (1, h * 2 ^ 28 + k) | .unbacked => (2, 0)
    BitVec.ofNat 64 (2 ^ 63 + tier * 2 ^ 61 + (if l.stash then 2 ^ 60 else 0) + (if l.param then 2 ^ 59 else 0) + (if l.pin then 2 ^ 58 else 0) +
      (if l.migrating then 2 ^ 57 else 0) + l.heat * 2 ^ 40 + loc)

def Reason.code : Reason → Nat | .wrap => 0 | .rotation => 1 | .loss => 2

/-- The region record of R399 as its 128-bit word. -/
def regionWord (r : Region) : BitVec 128 :=
  BitVec.ofNat 128 (r.gen % 2 ^ 32 * 2 ^ 96 + r.epoch.toNat * 2 ^ 88 + r.watermark * 2 ^ 74 + (if r.rekeying then 2 ^ 72 else 0) + r.reason.code * 2 ^ 70 +
    r.peak * 2 ^ 48 + r.oldEpoch.toNat * 2 ^ 40 + r.slot)

/-! Stash reservation (R149, R150). -/

/-- A partition may take a page by its quotas (R150, R223). -/
def VM.quotaRoom (p : PartId) (v : VM) : Bool :=
  !v.parts[p].overQuota && (t1Use v.mem p < quotaPages v.parts[p].force.t1 || t2Use v.mem p < quotaPages v.parts[p].force.t2)

/-- Back every UNBACKED page of a list from T1 quota, else T2. When some page finds no room none is backed: STASH_FULL where neither quota has room (R150), QUOTA where the module has no frame, home or counter slot left for it (R243, R395). -/
def VM.reserve (priv : Nat) (p : PartId) : List Nat → VM → Except Status VM
  | [], v => .ok v
  | g :: rest, v =>
    match alGet g v.mem.pages[p] with
    | some l =>
      if l.loc = .unbacked then
        match v.backPage priv p g 0 (fun loc => { l with loc := loc }) with
        | some w => VM.reserve priv p rest w
        | none => .error (if v.quotaRoom p then .quota else .stashFull)
      else VM.reserve priv p rest v
    | none => VM.reserve priv p rest v

/-! Step 4 of the tick: heat, quota, migration (R247, R249, R250). -/

/-- HEAT of R249; ACC restarts. -/
def heatPages (m : Mem) : Mem :=
  { m with pages := m.pages.map (fun l => l.map (fun x => (x.1, { x.2 with heat := min 65535 (x.2.heat / 2 + ceilDiv x.2.acc 64), acc := 0 }))) }

/-- Insert by a key, ascending, stable. -/
def insKey {α : Type} (key : α → Nat) (x : α) : List α → List α
  | [] => [x]
  | y :: r => if key y ≤ key x then y :: insKey key x r else x :: y :: r
/-- Sort by a key, ascending, equal keys in the order they stand. -/
def sortKey {α : Type} (key : α → Nat) (l : List α) : List α := l.foldl (fun acc x => insKey key x acc) []

/-- Pages of a tier that may be moved: not copying and not under re-encryption (R252). -/
def movable (v : VM) (p : PartId) (t1 : Bool) : List (Nat × Leaf) :=
  v.mem.pages[p].filter (fun x => (if t1 then x.2.loc.isT1 else x.2.loc.isT2) && !v.migrating p x.1 && !(v.region p x.1).rekeying)

/-- Plan the copy of a page to a place (R250): it counts there from now on. -/
def VM.plan (p : PartId) (page : Nat) (dst : Loc) (v : VM) : VM :=
  { v with mem := { v.mem with migrations := v.mem.migrations ++ [{ part := p, page := page, dst := dst, watermark := 0 }],
                               pages := modVec v.mem.pages p (alMod page (fun l => { l with migrating := true })) } }

/-- Demotions for quota of one partition (R250, 1): unpinned pages by ascending HEAT, then pinned ones, ties by address. The flag: its excess could not be planned for want of T2 room. -/
def VM.demote (p : PartId) (v : VM) : VM × Bool :=
  let cand := sortKey (fun x : Nat × Leaf => x.2.heat) ((movable v p true).filter (fun x => !x.2.pin)) ++
              sortKey (fun x : Nat × Leaf => x.2.heat) ((movable v p true).filter (fun x => x.2.pin))
  cand.foldl (fun (acc : VM × Bool) x =>
    let (v, short) := acc
    if t1Use v.mem p ≤ quotaPages v.parts[p].force.t1 ∨ v.mem.migPages.toNat ≤ v.mem.migrations.length then (v, short)
    else if quotaPages v.parts[p].force.t2 ≤ t2Use v.mem p then (v, true)
    else match v.takeT2 with
      | some (v, loc) => (v.plan p x.1 loc, short)
      | none => (v, true)) (v, false)

/-- Promotions over all partitions (R250, 2). -/
def VM.promote (priv : Nat) (v : VM) : VM :=
  let cand := (allParts.flatMap fun p => ((movable v p false).filter (fun x => v.mem.promoteHeat.toNat ≤ x.2.heat)).map (fun x => (p, x.1, x.2)))
  (sortKey (fun x : PartId × Nat × Leaf => 65535 - x.2.2.heat) cand).foldl (fun v (p, page, l) =>
    let room := v.mem.migPages.toNat - v.mem.migrations.length
    if room = 0 then v
    else match (if t1Use v.mem p < quotaPages v.parts[p].force.t1 then v.takeFrame priv else none) with
      | some (v, loc) => v.plan p page loc
      | none =>
        -- T1 is full, for the partition's quota or for want of a frame: exchange with the coldest unpinned T1 page, whose HEAT is below half the candidate's
        match (sortKey (fun x : Nat × Leaf => x.2.heat) ((movable v p true).filter (fun x => !x.2.pin))).head? with
        | some (cold, cl) => if 2 * cl.heat < l.heat ∧ 2 ≤ room then (v.plan p cold l.loc).plan p page cl.loc else v
        | none => v) v

/-- MEM_STATE after the planning of this step 4 (R247). -/
def VM.overQuota (p : PartId) (short : Bool) (v : VM) : VM :=
  let over1 := quotaPages v.parts[p].force.t1 < t1Use v.mem p
  let over2 := quotaPages v.parts[p].force.t2 < t2Use v.mem p
  v.updPart p (fun x => { x with overQuota := if over2 ∨ (over1 ∧ short) then true else if !over1 ∧ !over2 then false else x.overQuota })

/-- MEM_STATE where no migration is planned (R223, R247, R583). -/
def VM.judgeQuota (v : VM) : VM := allParts.foldl (fun v p => if v.parts[p].state = .active then v.overQuota p false else v) v

/-- The whole planning of step 4 (R250): demotions of partitions in ascending number, then promotions. -/
def VM.planMigrations (priv : Nat) (v : VM) : VM :=
  let v := allParts.foldl (fun v p =>
    if v.parts[p].state = .active then let (w, short) := v.demote p; w.overQuota p short else v) v
  v.promote priv

/-! Failed homes (R263). -/

/-- A copy of a page ends before it is complete. -/
def VM.dropCopy (p : PartId) (page : Nat) (v : VM) : VM :=
  { v with mem := { v.mem with migrations := v.mem.migrations.filter (fun w => !(w.part = p && w.page = page)),
                               pages := modVec v.mem.pages p (alMod page (fun l => { l with migrating := false })) } }

/-- The copy is given up and the page stays whole at its source: what has been written beyond the watermark's other side comes back (R263). The other page of an exchange stays where it was too. -/
def VM.abandonCopy (p : PartId) (page : Nat) (v : VM) : VM :=
  match v.mem.migrations.find? (fun m => m.part = p && m.page = page), alGet page v.mem.pages[p] with
  | some q, some l =>
    let other := exchangePartner v.mem q l
    let back (m : Mem) (i : Nat) : Mem :=
      let ours := storedAt m q.dst i
      let theirs := storedAt m l.loc i
      let m := if ctrOf m (v.region p page) i = 0 then m else storeAt l.loc i ours m
      match other with
      | some (o, _) => if ctrOf m (v.region o.part o.page) i = 0 then m else storeAt q.dst i theirs m
      | none => m
    let m := (List.range q.watermark).foldl back v.mem
    let w := { v with mem := if other.isSome then m else freeLoc q.dst m }.dropCopy p page
    match other with
    | some (o, _) => ((w.dropCopy o.part o.page).enterMissed p page).enterMissed o.part o.page
    | none => w.enterMissed p page
  | _, _ => v

/-- Some stripe of a T2 place lies on a home. -/
def onHome (m : Mem) (home : Nat) (loc : Loc) : Bool := match loc with | .t2 h k => (List.range 32).any (fun i => t2Home m h k (65536 * i) = home) | _ => false

/-- Sectors of a T2 page that a promotion has already copied to T1. -/
def copiedSectors (m : Mem) (p : PartId) (page : Nat) : Nat := ((m.migrations.find? (fun q => q.part = p && q.page = page)).map (·.watermark)).getD 0

/-- Replace a failed home in each set that uses it: demotions to it are abandoned, sectors that lay on it and have not been promoted are poisoned with their ranges audited, and the home with the most room takes its place (R243, R263). -/
def VM.replaceHome (home : Nat) (v : VM) : VM :=
  let v := (v.mem.migrations.filter (fun q => onHome v.mem home q.dst)).foldl (fun v q => v.abandonCopy q.part q.page) v
  let hit := v.mem.sets.filter (fun s => s.2.homes.any (fun h => h.1 = home))
  hit.foldl (fun v s =>
    -- the sectors of every page of the set that lay on the failed home
    let lost := allParts.flatMap fun p => v.mem.pages[p].filterMap (fun x => match x.2.loc with
      | .t2 h k => if h = s.1 then some (p, x.1, k) else none
      | _ => none)
    let v := lost.foldl (fun v (p, page, k) =>
      let r := v.region p page
      let secs := (List.range 8192).filter (fun i => copiedSectors v.mem p page ≤ i && t2Home v.mem s.1 k (256 * i) = home && (let c := ctrOf v.mem r i; c ≠ 0 && c ≠ 0xFFFF))
      let v := secs.foldl (fun v i => { v with mem := setCtr v.keys r i 0xFFFF v.mem }) v
      if secs.isEmpty then v
      else (v.updPart p (fun x => { x with poisonedSectors := x.poisonedSectors + BitVec.ofNat 64 secs.length })).audit
        (auditOf 2 .peerFailed p.val (page * 2 ^ 21 + 256 * secs.headD 0) (256 * (secs.getLastD 0 - secs.headD 0 + 1))
          (device := ((alGet home v.mem.homes).map (fun h => h.base.toNat / 2 ^ 48)).getD 0xFFFF))) v
    match (homesByRoom v.mem (home :: s.2.homes.map (·.1))).find? (fun x => s.2.contribution ≤ x.1) with
    | some (_, n) =>
      let hs := { s.2 with homes := s.2.homes.map (fun h => if h.1 = home then (n, homeNext v.mem n) else h) }
      { v with mem := { v.mem with sets := alSet s.1 hs v.mem.sets } }
    | none => v) v

def VM.replaceHomes (v : VM) : VM :=
  let w := v.mem.failedHomes.foldl (fun v h => v.replaceHome h) v
  { w with mem := { w.mem with failedHomes := [] } }

end Sys2Proof.Machine
end

