-- ==== Sys2Proof/Machine/Ras.lean ====
section
/-!
DEFINITION. Machine/Ras.lean: units, strikes, history, in-field test, retirement, the scan library, window and HBM repair (chapter 14).
-/

namespace Sys2Proof.Machine

/-! Units (R483, R484). -/

/-- The unit with a number; a unit that is not listed is in service without strikes. -/
def Ras.unit (r : Ras) (u : Nat) : PUnit := (alGet u r.units).getD {}
def Ras.setUnit (u : Nat) (x : PUnit) (r : Ras) : Ras := { r with units := alSet u x r.units }
def Ras.updUnit (u : Nat) (f : PUnit → PUnit) (r : Ras) : Ras := r.setUnit u (f (r.unit u))

/-- KIND and INDEX of a unit number. -/
def unitKind (u : Nat) : Nat := u / 4096
def unitIndex (u : Nat) : Nat := u % 4096
/-- The number names a unit of R483. -/
def unitExists (u : Nat) : Bool :=
  match unitKind u with
  | 1 => unitIndex u < 136 | 2 => unitIndex u < 136 | 3 => unitIndex u < 1024 | 4 => unitIndex u < 768 | 5 => unitIndex u < 162 | 6 => unitIndex u < 8
  | _ => false
/-- The die of an ARRAY or CHECKER unit. -/
def unitDie (u : Nat) : Nat := unitIndex u / 34

/-- STRIKES: strikes within the window (R499). -/
def strikesIn (window frame : Nat) (x : PUnit) : Nat := (x.strikeFrames.filter (fun f => frame < f + window)).length

def UnitState.code : UnitState → Nat | .inService => 0 | .spare => 1 | .underTest => 2 | .retired => 3

/-- Enter an event in the history (R498); when the area is full the oldest entry that may go gives way. -/
def Ras.enter (frame u event detail : Nat) (r : Ras) : Ras :=
  let x := r.unit u
  let e : HistEntry := { frame := frame, unit := u, event := event, stateAfter := x.state.code + (if x.suspect then 128 else 0),
                         strikes := strikesIn r.window.toNat frame x, detail := detail }
  let h := r.history
  let h := if h.length < 2097152 then h else
    match h.find? (fun e => e.event ≤ 3) with | some old => h.erase old | none => h
  { r with history := h ++ [e] }

/-- SUSPECT is set, once (R499). -/
def Ras.suspect (frame u : Nat) (r : Ras) : Ras :=
  let x := r.unit u
  if x.suspect ∨ x.state = .retired then r else (r.setUnit u { x with suspect := true }).enter frame u 7 0

/-- A strike (R499): entered, SUSPECT set, and the third within the window makes the fault permanent. -/
def Ras.strike (frame u detail : Nat) (r : Ras) : Ras :=
  let x := r.unit u
  let x := { x with strikeFrames := frame :: x.strikeFrames, testsPassed := true }
  let x := { x with permanent := x.permanent || 3 ≤ strikesIn r.window.toNat frame x }
  ((r.setUnit u x).enter frame u 1 detail).suspect frame u

/-- The physical array unit that serves a logical array. -/
def Ras.serving (r : Ras) (a : Nat) : Option Nat := (r.units.find? (fun x => x.2.serves = some a && x.2.state = .inService)).map (·.1)

/-- Spares of a die that are free, ascending; one that runs a re-run is not (R510). -/
def Ras.spares (r : Ras) (die : Nat) (busy : List Nat) : List Nat :=
  (r.units.filter (fun x => unitKind x.1 = 1 && unitDie x.1 = die && x.2.state = .spare && !x.2.permanent && !busy.contains x.1)).map (·.1)

/-- Spare units that run a re-run now. -/
def rerunUnits (s : State) : List Nat := allArrays.filterMap (fun a => (s.arrays[a].dispute).bind (fun d => d.2.2))

def frameNow (s : State) : Nat := s.tick.frame.toNat

/-! Retirement (R499, R502). -/

/-- Audit entry of a retirement or a lost array (R507). -/
def rasAudit (u : Nat) (s : State) : State := s.putVM (s.vm.audit (auditOf 5 .internal 0x40 0 0 (unit := u)))

/-- Retire a unit: an ARRAY's logical array goes to a spare of its die, or is lost; a CHECKER takes its ARRAY with it. -/
def retireOne (u : Nat) (s : State) : State :=
  let x := s.ras.unit u
  let ras := (s.ras.setUnit u { x with state := .retired, suspect := false, serves := none, takenFrom := none, leaving := false, retest := false, permanent := true }).enter (frameNow s) u 6 0
  let a := match x.serves with | some a => some a | none => x.takenFrom
  let ras := match unitKind u, a with
    | 1, some a =>
      match ras.spares (unitDie u) (rerunUnits s) with
      | sp :: _ => { ras.setUnit sp { ras.unit sp with state := .inService, serves := some a } with out := ras.out.erase a }
      | [] => { ras with lostPending := (a :: ras.lostPending).dedup, out := ras.out.erase a }.enter (frameNow s) u 9 a
    | _, _ => ras
  -- the retirement and the loss of a logical array are entries of their own (R507)
  let isLost : Bool := match a with | some a => !s.ras.lostPending.contains a && ras.lostPending.contains a | none => false
  let s := rasAudit u { s with ras := ras }
  if isLost then rasAudit u s else s

def retireUnit (u : Nat) (s : State) : State :=
  let s := retireOne u s
  if unitKind u = 2 ∧ (s.ras.unit (0x1000 + unitIndex u)).state ≠ .retired then retireOne (0x1000 + unitIndex u) s else s

/-- No slice runs on the logical array that a unit serves. -/
def unitIdle (s : State) (u : Nat) : Bool :=
  match (s.ras.unit u).serves with
  | some a => match arrayOf a with | some a => s.arrays[a].cur.isNone | none => true
  | none => true

/-- UNIT_RETIRE: the fault is permanent and no slice runs on the unit (R499, R502). -/
def execUnitRetire (u : BitVec 16) (s : State) : Res :=
  need ((s.ras.unit u.toNat).permanent && (s.ras.unit u.toNat).state ≠ .retired && unitIdle s u.toNat) (retireUnit u.toNat s)

/-- The window has passed since the last strike and every test since has been passed (R499). -/
def mayClear (s : State) (u : Nat) : Bool :=
  let x := s.ras.unit u
  x.suspect && x.testsPassed && !x.permanent && strikesIn s.ras.window.toNat (frameNow s) x = 0

def execSuspectClear (u : BitVec 16) (s : State) : Res :=
  need (mayClear s u.toNat)
    { s with ras := (s.ras.setUnit u.toNat { s.ras.unit u.toNat with suspect := false }).enter (frameNow s) u.toNat 8 0 }

/-! In-field test (R496, R497). -/

/-- The next test after one in this frame (R496). -/
def nextTestFrame (r : Ras) (frame : Nat) (x : PUnit) : Nat := frame + (if x.suspect then r.testInterval.toNat / 8 else r.testInterval.toNat)

/-- A CHECKER is out of service while its ARRAY is tested (R484, R496); it is tested with it and has no next test of its own (notes/assumptions/112.md). -/
def Ras.pairState (u : Nat) (st : UnitState) (r : Ras) : Ras :=
  let c := 0x2000 + unitIndex u
  if (r.unit c).state = .retired then r else r.setUnit c { r.unit c with state := st }

/-- The CHECKER's part of a test has failed (R497): no repair covers a check unit, and its fault is permanent. -/
def checkerFailed (u : Nat) (s : State) : State :=
  { s with ras := (s.ras.setUnit u { s.ras.unit u with permanent := true, testsPassed := false }).enter (frameNow s) u 4 (Config.freeNat s.free), free := s.free + 1 }

/-- The outcome of a scan test of an ARRAY (R497). The history's DETAIL of a failure is a free value (log 3). -/
def testDone (u : Nat) (res : TestResult) (s : State) : State :=
  let f := frameNow s
  let x := s.ras.unit u
  let d := Config.freeNat s.free
  let passed (r : Ras) : Ras := (r.setUnit u { r.unit u with leaving := true, retest := false, nextTest := nextTestFrame r f x, deferrals := 0 }).enter f u 3 0
  let broken (r : Ras) : Ras := (r.setUnit u { r.unit u with permanent := true, retest := false, testsPassed := false }).enter f u 4 d
  let ras := match res with
    | .pass => passed s.ras
    | .failReproduced => broken s.ras
    | .failRepairable row =>
      if x.retest ∨ (if row then 4 ≤ x.rowsUsed else 4 ≤ x.colsUsed) then broken s.ras
      else
        let r := (s.ras.enter f u 4 d).setUnit u { x with rowsUsed := if row then x.rowsUsed + 1 else x.rowsUsed, colsUsed := if row then x.colsUsed else x.colsUsed + 1, retest := true }
        { r with lineRepairs := r.lineRepairs + 1, repairGen := r.repairGen + 1 }.enter f u 5 d
  { s with ras := ras, free := s.free + 1 }

/-- A test finishes for an ARRAY, or finds its CHECKER at fault. -/
def execTestComplete (u : BitVec 16) (r : TestResult) (s : State) : Res :=
  need ((s.ras.unit u.toNat).state = .underTest && !(s.ras.unit u.toNat).leaving && !(s.ras.unit u.toNat).permanent)
    (if unitKind u.toNat = 2 then (match r with | .pass => { s with ras := s.ras.enter (frameNow s) u.toNat 3 0 } | _ => checkerFailed u.toNat s) else testDone u.toNat r s)

/-- A partition's bitmap in force holds the logical array. -/
def heldArray (s : State) (a : Nat) : Bool := allParts.any (fun p => s.parts[p].state ≠ .free && s.parts[p].force.bitmap.getLsbD a)

/-- Take a unit out for test without a spare: its logical array is out until it returns (R224, R496). -/
def takeOut (u : Nat) (r : Ras) : Ras :=
  let x := r.unit u
  let r := (r.setUnit u { x with state := .underTest, takenFrom := x.serves, serves := none, deferrals := 0 }).pairState u .underTest
  match x.serves with | some a => { r with out := (a :: r.out).dedup } | none => r

/-- Deferred 64 times, the unit goes without a spare (R496). -/
def execTestDeferLimit (u : BitVec 16) (s : State) : Res :=
  need ((s.ras.unit u.toNat).state = .inService && 64 ≤ (s.ras.unit u.toNat).deferrals && unitIdle s u.toNat) { s with ras := takeOut u.toNat s.ras }

/-- Units leave test (R497). -/
def leaveTests (r : Ras) : Ras :=
  (r.units.filter (fun x => x.2.state = .underTest && x.2.leaving)).foldl (fun r x =>
    let r := r.pairState x.1 .inService
    match x.2.takenFrom with
    | some a => { r.setUnit x.1 { x.2 with state := .inService, serves := some a, takenFrom := none, leaving := false } with out := r.out.erase a }
    | none => r.setUnit x.1 { x.2 with state := .spare, leaving := false }) r

/-- Step 5 of the tick (R208, R496): units that have finished leave test, then due units in ascending number, at most one per die under test. -/
def testSwaps (s : State) : State :=
  let busy := rerunUnits s
  let ras := leaveTests s.ras
  let due := (ras.units.filter (fun x => unitKind x.1 = 1 && (x.2.state = .inService || x.2.state = .spare) && !x.2.permanent && x.2.nextTest ≤ frameNow s)).map (·.1)
  let ras := due.foldl (fun r u =>
    let x := r.unit u
    if r.units.any (fun y => unitKind y.1 = 1 && y.2.state = .underTest && unitDie y.1 = unitDie u) ∨ busy.contains u then r
    else match x.serves with
      | none => (r.setUnit u { x with state := .underTest, deferrals := 0 }).pairState u .underTest
      | some a =>
        if !heldArray s a then takeOut u r
        -- spares that units due for retirement will take are not free for a test (R511)
        else match (r.spares (unitDie u) (u :: busy)).drop (r.units.filter (fun y => unitKind y.1 = 1 && unitDie y.1 = unitDie u && y.2.permanent && y.2.serves.isSome && y.2.state ≠ .retired)).length with
          | sp :: _ => ((r.setUnit sp { r.unit sp with state := .inService, serves := some a }).setUnit u { x with state := .underTest, serves := none, deferrals := 0 }).pairState u .underTest
          | [] => if 64 ≤ x.deferrals then takeOut u r else r.setUnit u { x with deferrals := x.deferrals + 1 }) ras
  { s with ras := ras }

/-! Queries (R507 to R509). -/

def opUnitQuery (q : Req) (u : BitVec 16) (s : State) : State × Status :=
  guarded s 0x9004 (isOperator s q && unitExists u.toNat) (updPer q (fun x => { x with unitQuery := u }) s, .done)
def execUnitQuery (q : Req) (u : BitVec 16) (s : State) : Res := software s (answer q (opUnitQuery q u s))

def opHistQuery (q : Req) (i : BitVec 32) (s : State) : State × Status :=
  guarded s 0x9005 (isOperator s q) (updPer q (fun x => { x with histIndex := i }) s, .done)
def execHistQuery (q : Req) (i : BitVec 32) (s : State) : Res := software s (answer q (opHistQuery q i s))

def opAuditQuery (q : Req) (n : BitVec 64) (s : State) : State × Status :=
  guarded s 0x9010 (isOperator s q || roleOf s q = .tenant) (updPer q (fun x => { x with auditSeq := n }) s, .done)
def execAuditQuery (q : Req) (n : BitVec 64) (s : State) : Res := software s (answer q (opAuditQuery q n s))

/-- The 32 bytes of UNIT_STATUS (R509). -/
def unitStatusBytes (s : State) (u : Nat) : Bytes :=
  let x := s.ras.unit u
  leBytes 1 x.state.code ++ leBytes 1 (x.deferrals % 128 + (if x.suspect then 128 else 0)) ++ leBytes 2 (x.serves.getD 0xFFFF) ++
  leBytes 1 (strikesIn s.ras.window.toNat (frameNow s) x) ++ leBytes 1 (x.colsUsed + 16 * x.rowsUsed) ++ zeros 10 ++
  leBytes 8 (x.strikeFrames.headD 0) ++ leBytes 8 (if unitKind u = 1 then x.nextTest else 0)

/-- The 32 bytes of a history entry (R498). -/
def histBytes (e : HistEntry) : Bytes :=
  leBytes 16 e.detail ++ zeros 3 ++ leBytes 1 e.strikes ++ leBytes 1 e.stateAfter ++ leBytes 1 e.event ++ leBytes 2 e.unit ++ leBytes 8 e.frame

/-- The 64 bytes of an audit entry (R507). -/
def auditBytes (e : AuditEntry) : Bytes :=
  leBytes 8 e.detail ++ zeros 18 ++ leBytes 1 e.status ++ leBytes 1 e.source ++ leBytes 1 e.part ++ leBytes 2 e.unit ++ leBytes 2 e.device ++
  leBytes 4 e.rangeBytes ++ leBytes 7 e.rangeVa ++ leBytes 4 e.offsetUs ++ leBytes 8 e.frame ++ leBytes 8 e.seq

/-- REPAIR_SUMMARY (R506). -/
def repairSummary (s : State) : Bytes :=
  let r := s.ras
  let cnt (f : Nat × PUnit → Bool) : Nat := (r.units.filter f).length
  (List.range 4).flatMap (fun d => leBytes 1 (cnt (fun x => unitKind x.1 = 1 && unitDie x.1 = d && x.2.state = .spare))) ++
  (List.range 4).flatMap (fun d => leBytes 1 (cnt (fun x => unitKind x.1 = 1 && unitDie x.1 = d && x.2.state = .retired))) ++
  leBytes 2 (r.lost ++ r.lostPending).dedup.length ++ leBytes 2 r.lineRepairs ++ leBytes 2 r.windowRepairs ++ leBytes 2 r.hbmRows ++ leBytes 2 r.hbmBanks ++
  leBytes 4 (bitsNat' (allStraits.map (fun k => s.fab.straits[k].spare ≠ 0xFF))) ++ leBytes 2 (cnt (fun x => x.2.suspect)) ++
  leBytes 4 r.history.length ++ leBytes 4 r.repairGen
where
  bitsNat' : List Bool → Nat
    | [] => 0
    | b :: t => (if b then 1 else 0) + 2 * bitsNat' t

/-! The scan library (R494, R495). -/

/-- The staged file: chunks by offset, laid one after another up to TOTAL_BYTES. -/
def stagedFile (l : List (Nat × Bytes)) : Bytes :=
  let head := (alGet 0 l).getD []
  let total := leNat (slice head 8 4)
  ((List.range (ceilDiv total 1024)).flatMap (fun i => slice ((alGet (i * 1024) l).getD []) 0 1024)).take total

/-- The library is accepted (R494), with a version above the installed one. -/
def libOk (f installed : Bytes) : Bool :=
  let key := slice f 80 2592
  leNat (slice f 0 4) = 1 && 1 ≤ leNat (slice f 4 4) && leNat (slice f 8 4) = f.length && 7299 ≤ f.length && f.length ≤ 2 ^ 26 &&
  Config.sha3 key = Config.otpScanDigest &&
  Config.dsaVerify key "JT480 SCAN LIBRARY" (leBytes 64 (Config.sha3 (f.take 80)).toNat) (slice f 2672 4627) &&
  leBytes 64 (Config.sha3 (f.drop 7299)).toNat = slice f 16 64 &&
  (if installed.isEmpty then 0 else leNat (slice installed 4 4)) < leNat (slice f 4 4)

/-- BEGIN clears the staging area (R495); while a file is being verified it is refused (log 10). -/
def opLibBegin (q : Req) (s : State) : State × Status :=
  guarded s 0x9020 (opOrMaker s q && s.ras.libStatus ≠ 1)
    ({ s with ras := { s.ras with libStage := [], libStatus := 0 } }, .done)
def execLibBegin (q : Req) (s : State) : Res := software s (answer q (opLibBegin q s))

/-- A chunk lands at LIB_OFFSET (R495). -/
def opLibChunk (q : Req) (d : Bytes) (s : State) : State × Status :=
  guarded s 0x9020 (opOrMaker s q && s.ras.libStatus ≠ 1 && d.length = 1024)
    ({ s with ras := { s.ras with libStage := alSet s.ras.libOffset.toNat d s.ras.libStage } }, .done)
def execLibChunk (q : Req) (d : Bytes) (s : State) : Res := software s (answer q (opLibChunk q d s))

/-- COMMIT starts the verification (R495). -/
def opLibCommit (q : Req) (s : State) : State × Status :=
  guarded s 0x9020 (opOrMaker s q && s.ras.libStatus ≠ 1) ({ s with ras := { s.ras with libStatus := 1 } }, .done)
def execLibCommit (q : Req) (s : State) : Res := software s (answer q (opLibCommit q s))

/-- The verification ends: the library is swapped in, or LIB_STATUS reads DENIED and nothing changes (R495). -/
def execLibCommitComplete (s : State) : Res :=
  let f := stagedFile s.ras.libStage
  need (s.ras.libStatus = 1)
    { s with ras := if libOk f s.ras.library then { s.ras with library := f, libStage := [], libStatus := 0 } else { s.ras with libStatus := 0x60 } }

/-! Window and HBM repair (R503, R504). -/

/-- A window-store error (R503). A double error poisons the 256-byte range and strikes the bank; the sixteenth single error of a row in a frame is entered. A row is taken as a 256-byte range of the partition's window (log 11). -/
def windowEcc (p : PartId) (off bank : Nat) (dbl : Bool) (s : State) : State :=
  let u := 0x3000 + bank
  let key := (p.val * 2 ^ 24 + off / 256) * 1024 + bank
  let n := (alGet key s.ras.windowErrors).getD 0 + 1
  let f := frameNow s
  if dbl then
    let s := { s with ras := { s.ras with pendingWindow := (key :: s.ras.pendingWindow).dedup }.strike f u (off / 256) }
    s.putVM (({ s.vm with mem := winMark p (off / 256 * 256) 256 s.mem }.audit (auditOf 1 .uncorrectable p.val 0 256 (unit := u))).event p .uncorrectable)
  else
    let r := { s.ras with windowErrors := alSet key n s.ras.windowErrors }
    { s with ras := if n = 16 then { r with pendingWindow := (key :: r.pendingWindow).dedup }.enter f u 0xA (off / 256) else r }

/-- The window range exists and the array dies are up. -/
def execWindowEccError (p : PartId) (off bank : Nat) (dbl : Bool) (s : State) : Res :=
  need (off < windowBytes s.parts[p].force.bitmap && bank < 1024 && s.pow.mod = .active) (windowEcc p off bank dbl s)

/-- The pseudo-channel of a stack on which sector `i` of a frame lies (R233). -/
def pseudoChannel (i : Nat) : Nat := i % 32

/-- A stack's row is repaired, or its bank retired when it has no repair rows left; contents are copied unchanged (R504). Which sectors the row holds, and with them its pseudo-channel, is a free value (log 3). -/
def hbmRepair (k : StackId) (row : Nat) (left : Bool) (s : State) : State :=
  let u := 0x4000 + k.val * 32 + pseudoChannel (Config.freeNat s.free)
  let r := if left then { s.ras with hbmRows := s.ras.hbmRows + 1, pendingHbm := (k.val, row) :: s.ras.pendingHbm } else { s.ras with hbmBanks := s.ras.hbmBanks + 1 }
  { s with ras := { r with repairGen := r.repairGen + 1 }.enter (frameNow s) u 5 row, free := s.free + 1 }

/-- The die of a stack. -/
def stackDie (k : StackId) : DieId := ⟨k.val / 6, by have := k.isLt; omega⟩

def execHbmRowRepair (k : StackId) (row : Nat) (left : Bool) (s : State) : Res :=
  need (s.pow.domains[stackDie k] = .up && !s.mem.stacksFailed.contains k.val) (hbmRepair k row left s)

end Sys2Proof.Machine
end

