-- ==== Sys2Proof/Machine/Numeric.lean ====
section
/-!
DEFINITION. Machine/Numeric.lean: exact dyadic arithmetic of the module: rounding (R24), align_add (R61), narrow48 (R102), the functions of R104 and R105,
the need exponent (R27) and the quantiser's elements (R28).
-/

namespace Sys2Proof.Machine

/-- `a / d` rounded half to even (R24). -/
def rheDiv (a : Int) (d : Nat) : Int :=
  let q := a / (d : Int)
  let r := a % (d : Int)
  if 2 * r < d then q else if (d : Int) < 2 * r then q + 1 else if q % 2 = 0 then q else q + 1

/-- `el * 2^k` rounded half to even to an integer (R24). -/
def rheShift (el : Int) (k : Int) : Int :=
  if 0 ≤ k then el * 2 ^ k.toNat else rheDiv el (2 ^ (-k).toNat)

/-- Number of bits of `n`, 0 for 0. -/
def bitLen (n : Nat) : Nat := if n = 0 then 0 else Nat.log2 n + 1

/-- The exponent of the canonical zero (R18, R72). -/
def zeroExp : Int := -127
/-- The canonical zero of A48 (R72). -/
def A48.zero : A48 := .val 0 zeroExp
/-- The largest A48 element (R14). -/
def max48 : Int := 2 ^ 47 - 1

/-- The canonical form of an A48 value (R72): a zero element carries exponent -127. -/
def A48.canon : A48 → A48
  | .poison => .poison
  | .val el ex => if el = 0 then .zero else .val el ex

/-- align_add of R61. The procedure states no bound: an exponent above +511 is brought back by `addA48` (notes/assumptions/90.md). -/
def alignAdd (x y : A48) : A48 :=
  match x, y with
  | .val a ea, .val b eb =>
    if b = 0 then (if a = 0 then .zero else .val a ea)
    else if a = 0 then .val b eb
    else
      let e := max ea eb
      let t := rheDiv a (2 ^ (e - ea).toNat) + rheDiv b (2 ^ (e - eb).toNat)
      let (t, e) := if max48 < t.natAbs then (rheDiv t 2, e + 1) else (t, e)
      if t = 0 then .zero else .val t e
  | _, _ => .poison

/-- align_add brought back to A48 by R102 where its exponent has left the A48 range; the flag tells that the sum was clamped (notes/assumptions/90.md). -/
def addA48 (x y : A48) : A48 × Bool :=
  match alignAdd x y with
  | .poison => (.poison, false)
  | .val t e => if 511 < e then (.val (if t < 0 then -max48 else max48) 511, true) else (.val t e, false)

/-- column_sum of R61 over segment sums in ascending order (R62). -/
def columnSum (segs : List A48) : A48 := segs.foldl alignAdd .zero

/-- The smallest shift that brings `p` into 48 bits after rounding (R102). -/
def narrowShift (p : Int) : Nat :=
  let s0 := bitLen p.natAbs - 47
  if (rheDiv p (2 ^ s0)).natAbs ≤ max48.natAbs then s0 else s0 + 1

/-- narrow48 of R102 on `p * 2^e`; the flag tells that CHAIN_CLAMPS is counted. -/
def narrow48 (p e : Int) : A48 × Bool :=
  if p = 0 then (.zero, false)
  else
    let s := narrowShift p
    let q := rheDiv p (2 ^ s)
    let e := e + s
    if 511 < e then (.val (if p < 0 then -max48 else max48) 511, true)
    else
      let (q, e) := if e < -511 then (rheDiv q (2 ^ (-511 - e).toNat), -511) else (q, e)
      (if q = 0 then .zero else .val q e, false)

/-- The exact integer `v` carried with an element of 24 significant bits, as every result of R104 is (notes/assumptions/6.md). -/
def sig24 (v e : Int) : A48 × Bool :=
  if v = 0 then (.zero, false)
  else
    let b := bitLen v.natAbs
    if b ≤ 24 then narrow48 (v * 2 ^ (24 - b)) (e - (24 - b : Nat)) else narrow48 (rheDiv v (2 ^ (b - 24))) (e + (b - 24 : Nat))

/-- The result of clamping at the top of the A48 range (R105). -/
def clampTop : A48 := .val max48 511

/-- Exact comparison of `a * 2^ea` with `b * 2^eb`. -/
def dyCompare (a ea b eb : Int) : Ordering :=
  let m := min ea eb
  compare (a * 2 ^ (ea - m).toNat) (b * 2 ^ (eb - m).toNat)

/-! The functions of R104: the exact value rounded to 24 significant bits, half to even. -/

/-- `n / d` (positive) rounded to 24 significant bits: integer and exponent. -/
def round24 (n d : Nat) : Int × Int :=
  -- choose a scale with at least 24 quotient bits, keep a sticky remainder, then round once
  let k : Nat := 64 + bitLen d - min (bitLen n) (bitLen d)
  let m := n * 2 ^ k / d
  let sticky := if n * 2 ^ k % d = 0 then 0 else 1
  let w := 2 * m + sticky
  let sh := bitLen w - 24
  (rheDiv w (2 ^ sh), (sh : Int) - 1 - k)

/-- Integer square root by Newton's iteration with fuel. -/
def sqrtGo : Nat → Nat → Nat → Nat
  | 0, _, x => x
  | f + 1, n, x => let y := (x + n / x) / 2; if y < x then sqrtGo f n y else x

/-- Integer square root. -/
def natSqrt (n : Nat) : Nat := if n = 0 then 0 else sqrtGo (bitLen n + 8) n (2 ^ (bitLen n / 2 + 1))

/-- RECIP of R104 on a value that is not zero: 1/(el * 2^ex). -/
def recipOf (el ex : Int) : A48 × Bool :=
  let (q, e) := round24 1 el.natAbs
  narrow48 (if el < 0 then -q else q) (e - ex)

/-- RSQRT of R104 on a positive value. -/
def rsqrtOf (el ex : Int) : A48 × Bool :=
  -- 1/sqrt(n * 2^(2h)) with n made to carry an even exponent; 1/sqrt(n) = sqrt(2^(2k)/n)/2^k
  let odd := ex % 2 ≠ 0
  let n := if odd then el.toNat * 2 else el.toNat
  let h := (if odd then ex - 1 else ex) / 2
  let k := 80 + bitLen n
  let t := 2 ^ (2 * k) / n
  let r := natSqrt t
  let exact := r * r = t ∧ 2 ^ (2 * k) % n = 0
  let w := 2 * r + (if exact then 0 else 1)
  let sh := bitLen w - 24
  narrow48 (rheDiv w (2 ^ sh)) ((sh : Int) - 1 - k - h)

/-- Fixed-point bounds of `2^f` for `f = num / 2^den` in [0,1), at `prec` fraction bits: the bits of `f` pick factors `2^(2^-i)`, each a square root of the one before. -/
def exp2Go : Nat → Nat → Nat → Nat → Nat → Nat → Nat × Nat
  | 0, _, _, _, lo, hi => (lo, hi + 1)
  | f + 1, prec, num, rt, lo, hi =>
    -- rt bounds 2^(2^-i) from below within 1 unit; num holds the remaining bits, top bit first
    let rt' := natSqrt (rt * 2 ^ prec)
    let bit := num / 2 ^ f % 2
    if bit = 1 then exp2Go f prec num rt' (lo * rt' / 2 ^ prec) (hi * (rt' + 2) / 2 ^ prec + 1)
    else exp2Go f prec num rt' lo hi

/-- Bounds of `2^(num/2^den)`, scaled by `2^prec`; `0 ≤ num < 2^den`. -/
def exp2Bounds (prec den num : Nat) : Nat × Nat := exp2Go den prec num (2 * 2 ^ prec) (2 ^ prec) (2 ^ prec)

/-- Try precisions until both bounds round to the same 24-bit value. -/
def agree24 : List Nat → (Nat → Nat × Nat) → Nat × Int
  | [], _ => (0, 0)
  | [p], b => let (lo, _) := b p; let sh := bitLen lo - 24; ((rheDiv lo (2 ^ sh)).toNat, (sh : Int) - p)
  | p :: ps, b =>
    let (lo, hi) := b p
    let sh := bitLen lo - 24
    -- the exact value lies strictly between lo and hi unless they are equal
    let l := rheDiv (2 * lo + (if lo = hi then 0 else 1)) (2 ^ (sh + 1))
    let h := rheDiv (2 * hi - (if lo = hi then 0 else 1)) (2 ^ (sh + 1))
    if l = h then (l.toNat, (sh : Int) - p) else agree24 ps b

/-- EXP2 of R104 and R105. The exact value is irrational unless the argument is an integer, so some precision separates it from every rounding boundary. -/
def exp2Of (el ex : Int) : A48 × Bool :=
  if dyCompare el ex 512 0 ≠ .lt then (clampTop, true)
  else if dyCompare el ex (-511) 0 = .lt then (.zero, false)
  else if 0 ≤ ex then sig24 1 (el * 2 ^ ex.toNat)
  else
    let den := (-ex).toNat
    let ip := el / 2 ^ den
    let fp := (el % 2 ^ den).toNat
    if fp = 0 then sig24 1 ip
    -- 2^f - 1 < 2^-26 for f < 2^-26: the result rounds to 1
    else if fp * 2 ^ 26 < 2 ^ den then sig24 1 ip
    else
      -- bits of f below 2^-512 stay far below any rounding interval of the candidates
      let (q, e) := agree24 [160, 400, 900] (fun p => exp2Bounds p den fp)
      narrow48 q (e + ip)

/-- Fraction bits of log2 of `x / 2^prec` in [1,2) by repeated squaring, with lower and upper bounds on x. -/
def log2Go : Nat → Nat → Nat → Nat → Nat → Nat × Nat
  | 0, _, _, _, acc => (acc, 0)
  | f + 1, prec, lo, hi, acc =>
    let lo' := lo * lo / 2 ^ prec
    let hi' := hi * hi / 2 ^ prec + 1
    if 2 * 2 ^ prec ≤ lo' then log2Go f prec (lo' / 2) (hi' / 2 + 1) (2 * acc + 1)
    else if hi' < 2 * 2 ^ prec then log2Go f prec lo' hi' (2 * acc)
    else (acc, f + 1)

/-- LOG2 of R104 on a positive value. log2 is irrational unless the argument is a power of two. -/
def log2Of (el ex : Int) : A48 × Bool :=
  let n := el.toNat
  let b := bitLen n - 1
  let ip : Int := ex + b
  if n = 2 ^ b then sig24 ip 0
  else
    let prec := 400
    let bits := 160
    let x := n * 2 ^ prec / 2 ^ b
    let (acc, left) := log2Go bits prec x (x + 1) 0
    -- acc holds bits - left fraction bits, truncated; the true value is above it and not representable
    let got := bits - left
    let v : Int := ip * 2 ^ got + acc
    let w := 2 * v + 1
    let sh := bitLen w.natAbs - 24
    narrow48 (rheDiv w (2 ^ sh)) ((sh : Int) - 1 - got)

/-! Formats and the quantiser. -/

/-- The largest element a format produces, by code (R14). -/
def maxCode (fmt : Nat) : Int :=
  match fmt with
  | 0 => 7 | 3 => 7
  | 1 => 127 | 4 => 127
  | 2 => 32767 | 5 => 32767
  | 6 => 2 ^ 31 - 1
  | 7 => 255
  | _ => max48

/-- The smallest element a format produces (R14, R28). -/
def minCode (fmt : Nat) : Int := if fmt = 7 then 0 else -maxCode fmt

/-- Bits per element of a format code (R14). -/
def elemBits (fmt : Nat) : Nat :=
  match fmt with
  | 0 => 4 | 3 => 4 | 1 => 8 | 4 => 8 | 7 => 8 | 2 => 16 | 5 => 16 | 6 => 32 | _ => 48

/-- The format is square-blocked (R14). -/
def isSB (fmt : Nat) : Bool := fmt = 3 || fmt = 4 || fmt = 5

/-- Length of a block along its line (R14). -/
def blockLen (fmt : Nat) : Nat := if fmt = 6 then 64 else 32

/-- Element bytes per block (R14). -/
def blockBytes (fmt : Nat) : Nat := if isSB fmt then 1024 * elemBits fmt / 8 else blockLen fmt * elemBits fmt / 8

/-- A stored element code read as a value (R15, R20): the most negative code reads as the symmetric minimum. -/
def readElem (fmt code : Nat) : Int :=
  if fmt = 7 then (code % 256 : Nat)
  else
    let v := signedOf (elemBits fmt) code
    if v < -maxCode fmt then -maxCode fmt else v

/-- The exponent byte (R17): none is POISON. -/
def readExp (b : Byte) : Option Int := if b = 0x80 then none else some b.toInt

/-- The exponent byte of a block's exponent. -/
def writeExp : Option Int → Byte
  | none => 0x80
  | some e => BitVec.ofInt 8 e

/-- A block's `i`-th element as an exact value (R13), poisoned when its block is. -/
def elemVal (b : Blk) (i : Nat) : A48 :=
  match b.ex with
  | none => .poison
  | some e => A48.canon (.val (b.els.getD i 0) e)

/-- Every magnitude fits the largest code under exponent `e` (R27). -/
def fitsAt (fmt : Nat) (vs : List A48) (e : Int) : Bool :=
  vs.all fun v => match v with
    | .poison => true
    | .val el ex => if fmt = 7 then rheShift el (ex - e) ≤ maxCode fmt else (rheShift el (ex - e)).natAbs ≤ (maxCode fmt).natAbs

/-- The need exponent of R27: the smallest exponent in -127..127 under which every value fits, else 127. -/
def needExp (fmt : Nat) (vs : List A48) : Int :=
  match (List.range 255).find? (fun i => fitsAt fmt vs ((i : Int) - 127)) with
  | some i => (i : Int) - 127
  | none => 127

/-- Some value is poisoned. -/
def anyPoison (vs : List A48) : Bool := vs.any (fun v => v = .poison)

/-- Elements under exponent `e` with the number clamped (R25, R28). -/
def quantElems (fmt : Nat) (e : Int) (vs : List A48) : List Int × Nat :=
  let qs := vs.map fun v => match v with | .poison => 0 | .val el ex => rheShift el (ex - e)
  (qs.map (fun q => max (minCode fmt) (min (maxCode fmt) q)), (qs.filter (fun q => maxCode fmt < q ∨ q < minCode fmt)).length)

/-- The exponent under which every value of a block is already an element: that of its first value that is not zero. A widening keeps it (R29). -/
def keptExp (vs : List A48) : Int :=
  match vs.find? (fun v => match v with | .val el _ => el ≠ 0 | .poison => false) with
  | some (.val _ e) => e
  | _ => zeroExp

/-- The close of R36, performed when the open entry is of an earlier frame. HELD_EXP becomes the maximum of the valid entries below HIST_LEN and HEADROOM; where driver software has left none valid the
maximum of R36 has no value, and HELD_EXP becomes -128 + HEADROOM (notes/assumptions/91.md). -/
def ScaleRec.close (f : Nat) (r : ScaleRec) : ScaleRec :=
  if r.openValid ∧ r.openFrame ≠ f then
    let r := if r.frozen then r else
      let hist := (r.history ++ List.replicate 16 0).take 16 |>.set r.histPos r.openNeed
      let val := ((r.histValid ++ List.replicate 16 false).take 16 |>.set r.histPos true)
      let val := val.zipIdx.map (fun (b, i) => b && decide (i < r.histLen))
      let top := (hist.zip val).foldl (fun m (h, b) => if b then max m h else m) (-128)
      { r with history := hist, histValid := val, histPos := (r.histPos + 1) % r.histLen, heldExp := min 127 (top + r.headroom) }
    { r with openValid := false }
  else r

/-- merge_need of R36 after its close. -/
def ScaleRec.merge (f : Nat) (nb : Int) (r : ScaleRec) : ScaleRec :=
  let r := r.close f
  if r.openValid then { r with openNeed := max r.openNeed nb }
  else { r with openNeed := nb, openValid := true, openFrame := f }

/-- The exponent of an output block (R26, R28, R29, R45): a widening keeps its source's; TIGHT takes the need exponent; HELD takes HELD_EXP, never below -127,
and +127 where the block does not fit even there. -/
def chooseExp (keep : Bool) (fmt : Nat) (vs : List A48) (r : ScaleRec) : Int :=
  if keep then keptExp vs
  else
    let nb := needExp fmt vs
    if r.mode = 0 ∨ (nb = 127 ∧ !fitsAt fmt vs 127) then nb else max (-127) r.heldExp

/-- The quantiser's result for one block: the block, the record, and the elements clamped. -/
structure Quantised where
  blk : Blk
  record : ScaleRec
  clamped : Nat
deriving DecidableEq, Repr

/-- quantise_block of R28 in frame `f`. The held exponent is read after the close of R36. -/
def quantise (keep : Bool) (fmt f : Nat) (vs : List A48) (r : ScaleRec) : Quantised :=
  if anyPoison vs then { blk := { ex := none, els := vs.map (fun _ => 0) }, record := { r with poisonSeen := true }, clamped := 0 }
  else
    let r := r.close f
    let e := chooseExp keep fmt vs r
    let (els, n) := quantElems fmt e vs
    let r := { r with sat := r.sat || n > 0, satCount := min (r.satCount + n) (2 ^ 64 - 1) }
    { blk := { ex := some (if els.all (· = 0) then zeroExp else e), els := els }, record := r.merge f (needExp fmt vs), clamped := n }

/-- A quantise without a record (R416: TIGHT mode, no merge); also tells how many elements were clamped. -/
def quantiseTight (fmt : Nat) (vs : List A48) : Blk × Nat :=
  if anyPoison vs then ({ ex := none, els := vs.map (fun _ => 0) }, 0)
  else
    let e := needExp fmt vs
    let (els, n) := quantElems fmt e vs
    ({ ex := some (if els.all (· = 0) then zeroExp else e), els := els }, n)

end Sys2Proof.Machine
end

