-- ==== Sys2Proof/Machine/Operands.lean ====
section
/-!
DEFINITION. Machine/Operands.lean: every operand form and structure of partition memory, read from its bytes and written to them:
operand addresses (R159, R160), list entries (R162, R163, R170), gradient tags (R133), chain programs (R95 to R97), tables (R107), scale-state records (R34),
slice headers and array tables (R175, R176), records (R186, R187), A48 words (R16), global addresses (R234).
-/

namespace Sys2Proof.Machine

/-! Addresses. -/

/-- An operand address word (R159). -/
def addrOf (w : BitVec 64) : Addr := { space := w.extractLsb' 60 4, off := w.extractLsb' 0 56 }
/-- The reserved bits of an operand address word are zero (R159). -/
def addrFormOk (w : BitVec 64) : Bool := w.extractLsb' 56 4 = 0
/-- The word names space VIRTUAL in the form of R159. -/
def isVirtual (w : BitVec 64) : Bool := addrFormOk w && w.extractLsb' 60 4 = 2
/-- The bare 56-bit virtual address of a VIRTUAL word. -/
def vaOf (w : BitVec 64) : Nat := (w.extractLsb' 0 56).toNat
/-- The VIRTUAL word of a virtual address. -/
def vaWord (va : Nat) : BitVec 64 := BitVec.ofNat 64 (2 * 2 ^ 60 + va % 2 ^ 56)
/-- A byte distance added to a VIRTUAL word modulo 2^56, space kept (R159). -/
def vaAdd (w : BitVec 64) (d : Nat) : BitVec 64 := vaWord (vaOf w + d)
/-- A word in the VIRTUAL form of R159, aligned. An object stated as VIRTUAL takes no other word, 0 not either (R159, R181, R245; notes/assumptions/7.md). -/
def virtualAt (al : Nat) (w : BitVec 64) : Bool := isVirtual w && vaOf w % al = 0
/-- The same, where its table lets the field be 0. -/
def virtualOrZero (al : Nat) (w : BitVec 64) : Bool := w = 0 || virtualAt al w

/-- A global address word (R234). -/
def gaddrOf (w : BitVec 64) : GAddr :=
  { device := w.extractLsb' 48 16, space := w.extractLsb' 46 2, off := w.extractLsb' 0 46 }
def gaddrWord (g : GAddr) : BitVec 64 := g.device ++ g.space ++ g.off

/-! Gradient tags, passes and movers. -/

/-- A gradient tag from its 128 bits (R133). -/
def tagOf (v : Nat) : GradTag :=
  { session := bitsOf v 120 8, layer := bitsOf v 104 16, tensor := bitsOf v 96 8, reserved := bitsOf v 65 31,
    onesRow := bitsOf v 64 1 = 1, row0 := bitsOf v 32 32, col0 := bitsOf v 0 32 }

/-- A pass descriptor from its 64 bytes (R163). -/
def passOf (b : Bytes) : PassDesc :=
  let v := leNat (b.take 64)
  { type := if bitsOf v 0 2 = 1 then .product else .chain,
    chainAddr := BitVec.ofNat 64 (bitsOf v 448 64), recordAddr := BitVec.ofNat 64 (bitsOf v 384 64),
    m0 := bitsOf v 360 24, n0 := bitsOf v 336 24, outStride := bitsOf v 320 16, outExp := bitsOf v 288 32, outElem := bitsOf v 256 32,
    strmExp := bitsOf v 224 32, strmElem := bitsOf v 192 32, statExp := bitsOf v 160 32, statElem := bitsOf v 128 32,
    raw := bitsOf v 121 1 = 1, source := bitsOf v 120 1 = 1, strmStride := bitsOf v 104 16, storeBase := bitsOf v 87 17,
    m := bitsOf v 64 23, statStride := bitsOf v 48 16, tileN := bitsOf v 38 10, tileK := bitsOf v 28 10,
    check := bitsOf v 25 2, tagged := bitsOf v 24 1 = 1, ones := bitsOf v 23 1 = 1, fold := bitsOf v 22 1 = 1,
    resident := bitsOf v 21 1 = 1, reading := bitsOf v 20 1 = 1, pane := bitsOf v 16 4, layout := bitsOf v 14 2,
    drain := bitsOf v 10 4, strmFmt := bitsOf v 6 4, statFmt := bitsOf v 2 4,
    reserved := bitsOf v 122 6 + bitsOf v 27 1 }

/-- The gradient tag of a tagged pass (R163). -/
def PassDesc.tag (d : PassDesc) : GradTag := tagOf (d.chainAddr.toNat * 2 ^ 64 + d.recordAddr.toNat)

/-- A mover descriptor from its 64 bytes (R170). -/
def moveOf (b : Bytes) : MoveDesc :=
  let v := leNat (b.take 64)
  { tag := BitVec.ofNat 128 (bitsOf v 384 128), src := BitVec.ofNat 64 (bitsOf v 320 64), dst := BitVec.ofNat 64 (bitsOf v 256 64),
    srcPitch := bitsOf v 224 32, dstPitch := bitsOf v 192 32, rowBytes := bitsOf v 160 32, rows := bitsOf v 128 32,
    tagged := bitsOf v 3 1 = 1, fence := bitsOf v 2 1 = 1, reserved := bitsOf v 4 124 }

/-- A list entry from its 64 bytes (R162). -/
def entryOf (b : Bytes) : Entry :=
  match bitsOf (leNat (b.take 64)) 0 2 with
  | 0 => .bad
  | 3 => .move (moveOf b)
  | _ => .pass (passOf b)

/-! Chain programs and tables. -/

/-- A signed 24-bit element, its most negative code read by R15. -/
def elem24 (v : Nat) : Int := let x := signedOf 24 v; if x = -(2 ^ 23) then -(2 ^ 23 - 1) else x

/-- A stage word from its 16 bytes (R96). -/
def stageOf (b : Bytes) : Stage :=
  let v := leNat (b.take 16)
  { constEl := elem24 (bitsOf v 104 24), constEx := signedOf 8 (bitsOf v 96 8), constExRaw := bitsOf v 96 8,
    statBase := bitsOf v 48 9, arg := bitsOf v 40 8, slot := bitsOf v 32 2, kind := bitsOf v 24 3,
    discard := bitsOf v 21 1 = 1, recip := bitsOf v 20 1 = 1, statComb := bitsOf v 19 1 = 1, statMem := bitsOf v 18 1 = 1,
    statBuf := bitsOf v 17 1 = 1, swap := bitsOf v 16 1 = 1, opcode := bitsOf v 0 8,
    reserved := bitsOf v 57 39 + bitsOf v 34 6 + bitsOf v 27 5 + bitsOf v 22 2 + bitsOf v 8 8 }

/-- An operand slot from its 32 bytes (R97). -/
def slotOf (b : Bytes) : Slot :=
  let v := leNat (b.take 32)
  { elemAddr := BitVec.ofNat 64 (bitsOf v 192 64), expAddr := BitVec.ofNat 64 (bitsOf v 128 64), lineLen := bitsOf v 96 32,
    fmt := bitsOf v 8 4, kind := bitsOf v 0 4, reserved := bitsOf v 12 84 + bitsOf v 4 4 }

/-- A chain program from its 288 bytes (R94 to R97). -/
def chainOf (b : Bytes) : Chain :=
  let h := leNat (b.take 32)
  { rowstat := BitVec.ofNat 64 (bitsOf h 192 64), reserved := bitsOf h 4 188, count := bitsOf h 0 4,
    stages := (List.range 8).map (fun i => stageOf (slice b (32 + 16 * i) 16)),
    slots := (List.range 4).map (fun i => slotOf (slice b (160 + 32 * i) 32)) }

/-- A table from its 2,112 bytes (R107). -/
def tableOf (addr : BitVec 64) (b : Bytes) : Table :=
  let h := leNat (b.take 64)
  { addr := addr, poisoned := false, segExp := signedOf 8 (bitsOf h 32 8), xLoEl := elem24 (bitsOf h 8 24), xLoEx := signedOf 8 (bitsOf h 0 8),
    ents := (List.range 256).map (fun i =>
      let v := leNat (slice b (64 + 8 * i) 8)
      (elem24 (bitsOf v 40 24), signedOf 8 (bitsOf v 32 8), elem24 (bitsOf v 8 24), signedOf 8 (bitsOf v 0 8))),
    named := 0 }

/-- A table passes the check of R107. -/
def tableOk (b : Bytes) : Bool :=
  let h := leNat (b.take 64)
  let seg := signedOf 8 (bitsOf h 32 8)
  bitsOf h 40 472 = 0 && -64 ≤ seg && seg ≤ 16 && bitsOf h 0 8 ≠ 0x80 &&
  (List.range 256).all (fun i => let v := leNat (slice b (64 + 8 * i) 8); bitsOf v 32 8 ≠ 0x80 && bitsOf v 0 8 ≠ 0x80)

/-! A48 words (R16). -/

/-- The 8-byte layout of an A48 entry. -/
def a48Word : A48 → Nat
  | .poison => 0x200 * 2 ^ 48
  | .val el ex => codeOf 10 ex * 2 ^ 48 + codeOf 48 el

/-- An entry restored from its 8 bytes (R74): reserved bits set give POISON, a zero element the canonical zero. -/
def a48Restore (w : Nat) : A48 :=
  if bitsOf w 58 6 ≠ 0 ∨ bitsOf w 48 10 = 0x200 then .poison
  else A48.canon (.val (readElem 8 (bitsOf w 0 48)) (signedOf 10 (bitsOf w 48 10)))

/-! Scale-state records (R34). -/

/-- A record from its 64 bytes. -/
def scaleOf (b : Bytes) : ScaleRec :=
  let v := leNat (b.take 64)
  { openFrame := bitsOf v 320 64, histValid := (List.range 16).map (fun i => bitsOf v (256 + i) 1 = 1),
    history := (List.range 16).map (fun i => signedOf 8 (bitsOf v (128 + 8 * i) 8)), satCount := bitsOf v 64 64,
    openNeed := signedOf 8 (bitsOf v 56 8), openValid := bitsOf v 51 1 = 1, poisonSeen := bitsOf v 50 1 = 1, sat := bitsOf v 49 1 = 1,
    frozen := bitsOf v 48 1 = 1, histPos := bitsOf v 40 8, histLen := bitsOf v 32 8, headroom := bitsOf v 24 8,
    heldExp := signedOf 8 (bitsOf v 16 8), mode := bitsOf v 8 8, fmt := bitsOf v 0 8,
    reserved := bitsOf v 384 128 + bitsOf v 272 48 + bitsOf v 52 4 }

/-- The bits of a list of booleans, first lowest. -/
def bitsNat : List Bool → Nat
  | [] => 0
  | b :: r => (if b then 1 else 0) + 2 * bitsNat r

/-- The 64 bytes of a record. -/
def scaleBytes (r : ScaleRec) : Bytes :=
  let hist := ((List.range 16).map (fun i => codeOf 8 (r.history.getD i 0) * 2 ^ (8 * i))).foldl (· + ·) 0
  leBytes 64 (r.openFrame * 2 ^ 320 + bitsNat (r.histValid.take 16) * 2 ^ 256 + hist * 2 ^ 128 + r.satCount * 2 ^ 64 + codeOf 8 r.openNeed * 2 ^ 56 +
    bitsNat [r.frozen, r.sat, r.poisonSeen, r.openValid] * 2 ^ 48 + r.histPos * 2 ^ 40 + r.histLen * 2 ^ 32 + r.headroom * 2 ^ 24 +
    codeOf 8 r.heldExp * 2 ^ 16 + r.mode * 2 ^ 8 + r.fmt)

/-- The conditions of R35 under which a record named by a pass of output format `fmt` is rejected do not hold. -/
def scaleOk (fmt : Nat) (r : ScaleRec) : Bool :=
  r.reserved = 0 && r.mode ≤ 1 && 1 ≤ r.histLen && r.histLen ≤ 16 && r.histPos < r.histLen && r.headroom ≤ 8 && r.heldExp ≠ -128 && r.fmt = fmt

/-! Slice headers, array tables and records. -/

/-- A slice header from its 32 bytes (R175). -/
def headerOf (b : Bytes) : SliceHdr :=
  let v := leNat (b.take 32)
  { tableAddr := BitVec.ofNat 64 (bitsOf v 192 64), halfAddr := BitVec.ofNat 64 (bitsOf v 128 64), predEnergy := bitsOf v 96 32,
    predCycles := bitsOf v 72 24, arrayCount := bitsOf v 64 8, version := bitsOf v 32 32, session := bitsOf v 24 8,
    priority := bitsOf v 16 8, withdraw := bitsOf v 8 1 = 1, reserved := bitsOf v 9 7 + bitsOf v 0 8 }

/-- An array-table entry (R176): list, entry records, count, array, reserved bits. -/
structure TableEntry where
  list : BitVec 64
  entRec : BitVec 64
  count : Nat
  array : Nat
  reserved : Nat
deriving DecidableEq, Repr

/-- An array-table entry from its 32 bytes. -/
def tableEntryOf (b : Bytes) : TableEntry :=
  let v := leNat (b.take 32)
  { list := BitVec.ofNat 64 (bitsOf v 192 64), entRec := BitVec.ofNat 64 (bitsOf v 128 64), reserved := bitsOf v 24 104,
    count := bitsOf v 8 16, array := bitsOf v 0 8 }

/-- A completion record (R186). -/
structure SliceRec where
  frame : Nat
  cycles : Nat
  energy : Nat
  seq : Nat
  gradRows : Nat
  attempts : Nat
  overruns : Nat
  badEntry : Nat := 0xFFFF
  badArray : Nat := 0xFF
  final : Bool
  status : Status
deriving DecidableEq, Repr

/-- The 32 bytes of a completion record. -/
def sliceRecBytes (r : SliceRec) : Bytes :=
  leBytes 1 r.status.code ++ zeros 1 ++ leBytes 1 (if r.final then 1 else 0) ++ leBytes 1 r.badArray ++ leBytes 2 r.badEntry ++
  leBytes 1 (min r.overruns 255) ++ leBytes 1 (min r.attempts 255) ++ leBytes 4 r.gradRows ++ leBytes 4 r.seq ++ leBytes 4 r.energy ++
  leBytes 4 r.cycles ++ leBytes 8 r.frame

/-- The 16 bytes of an entry record (R187). -/
def entryRecBytes (st : Status) (done : Nat) : Bytes := leBytes 1 st.code ++ zeros 7 ++ leBytes 8 done

/-- A gathering-table entry's fields that driver software writes (R255), with its reserved bits. -/
def gatherOf (b : Bytes) : Gathering × Nat :=
  let v := leNat (b.take 64)
  ({ pbuf0 := BitVec.ofNat 64 (bitsOf v 448 64), pbuf1 := BitVec.ofNat 64 (bitsOf v 384 64), replica := BitVec.ofNat 64 (bitsOf v 320 64),
     bytes := bitsOf v 288 32, winOff := bitsOf v 256 32, layer := bitsOf v 48 16, session := bitsOf v 40 8,
     banks := bitsOf v 12 4, control := bitsOf v 10 2 }, bitsOf v 17 7 + bitsOf v 0 10)

/-- The RO bytes of a gathering entry: bytes 2 to 4 and 8 to 31 (R255). -/
def gatherRoBytes (g : Gathering) : Bytes × Bytes :=
  let ver (o : Option Nat) := o.getD 0xFFFFFFFF
  ([BitVec.ofNat 8 (if g.healPending then 1 else 0), g.lastStatus,
    BitVec.ofNat 8 (g.bankState[0].toNat + 4 * g.bankState[1].toNat + 16 * g.bankState[2].toNat + 64 * g.bankState[3].toNat)],
   leBytes 4 g.bankVersion[0] ++ leBytes 4 g.bankVersion[1] ++ leBytes 4 g.bankVersion[2] ++ leBytes 4 g.bankVersion[3] ++
   leBytes 4 (ver g.published) ++ leBytes 4 (ver g.current))

end Sys2Proof.Machine
end

