-- ==== Sys2Proof/Machine/Chain.lean ====
section
/-!
DEFINITION. Machine/Chain.lean: tensors in the window store (R14, R19 to R22, R31, R32, R164), products of one line (R48, R60 to R67), and the chain engine's stages (R99 to R113).
-/

namespace Sys2Proof.Machine

/-! Blocks of a tensor in the window. -/

/-- 4-bit codes, element 2j in the low half of byte j (R20). -/
def packNibbles : List Int → Bytes
  | a :: b :: r => BitVec.ofNat 8 (codeOf 4 a + 16 * codeOf 4 b) :: packNibbles r
  | [a] => [BitVec.ofNat 8 (codeOf 4 a)]
  | [] => []

/-- The elements of a block's bytes (R15, R20). -/
def unpackElems (fmt : Nat) (b : Bytes) : List Int :=
  let n := elemBits fmt / 8
  if n = 0 then b.flatMap (fun x => [readElem fmt (x.toNat % 16), readElem fmt (x.toNat / 16)])
  else (List.range (b.length / n)).map (fun i => readElem fmt (leNat (slice b (i * n) n)))

/-- The bytes of a block's elements (R20). -/
def packElems (fmt : Nat) (l : List Int) : Bytes :=
  let n := elemBits fmt / 8
  if n = 0 then packNibbles l else l.flatMap (fun x => leBytes n (codeOf (8 * n) x))

/-- The block with its elements at `elem` and its exponent byte at `ex`; a marked range it touches makes it POISON (R31, R32). -/
def winBlk (m : Mem) (p : PartId) (fmt elem ex : Nat) : Blk :=
  if winPoisoned m p elem (blockBytes fmt) || winPoisoned m p ex 1 then { ex := none, els := [] }
  else { ex := readExp (cellRead m.window[p] ex), els := unpackElems fmt (cellsRead m.window[p] elem (blockBytes fmt)) }

/-- Write a block: elements, then its exponent byte (R18, R31 are the quantiser's). -/
def winPutBlk (p : PartId) (fmt elem ex : Nat) (b : Blk) (m : Mem) : Mem :=
  winWrite p ex [writeExp b.ex] (winWrite p elem (packElems fmt b.els) m)

/-- The 1×32 block `j` of line `i` (R164); an SB tile presents 32 of them (R22). -/
def lineBlk (m : Mem) (p : PartId) (fmt elem ex stride i j : Nat) : Blk :=
  if isSB fmt then
    let n := i / 32 * stride + j
    let b := winBlk m p fmt (elem + n * blockBytes fmt) (ex + n)
    { b with els := (b.els.drop (32 * (i % 32))).take 32 }
  else
    let n := i * stride + j
    winBlk m p fmt (elem + n * blockBytes fmt) (ex + n)

/-- The block `j` of column `i` of an SB operand: column `i` of each tile, under the tile's exponent (R22, R130). -/
def columnBlk (m : Mem) (p : PartId) (fmt elem ex stride i j : Nat) : Blk :=
  let n := j * stride + i / 32
  let b := winBlk m p fmt (elem + n * blockBytes fmt) (ex + n)
  { b with els := (List.range 32).map (fun t => b.els.getD (32 * t + i % 32) 0) }

/-- A line of `n` elements from its blocks; positions beyond are padding and zero (R21). -/
def lineOf (n : Nat) (blk : Nat → Blk) : Line :=
  let bs := (List.range (ceilDiv n 32)).map blk
  { els := (bs.flatMap (fun b => (List.range 32).map (fun i => b.els.getD i 0))).take n, exps := bs.map (·.ex) }

/-- `n` elements of row `row` from column `col` on, of a tensor with lines of `len` elements; an element beyond the line is padding (R21). -/
def tensorRow (m : Mem) (p : PartId) (fmt elem ex len row col n : Nat) : List A48 :=
  (List.range n).map fun j =>
    let c := col + j
    if len ≤ c then .zero
    else
      let b := lineBlk m p fmt elem ex (ceilDiv len 32) row (c / 32)
      elemVal b (c % 32)

/-! Geometry (R49, R76). -/

/-- Element width of a stationary or streamed format in bits, none for a format that is no array operand. -/
def arrayBits (fmt : Nat) : Option Nat := if fmt < 6 then some (elemBits fmt) else none

/-- The largest stationary tile, K and N, of the mode of two formats in a pane layout (R49, R76). -/
def modeTile (stat strm layout : Nat) : Option (Nat × Nat) :=
  let full : Option (Nat × Nat) := match arrayBits stat, arrayBits strm with
    | some 8, some 8 => some (256, 256)
    | some 4, some 4 => some (512, 512)
    | some 16, some 16 => some (128, 128)
    | some 4, some 8 => some (256, 512)
    | some 8, some 4 => some (512, 256)
    | _, _ => none
  full.map (fun t => (t.1 / 2 ^ layout, t.2 / 2 ^ layout))

/-- Output width and reduction extent by their role (R79). -/
def PassDesc.width (d : PassDesc) : Nat := if d.type = .product ∧ d.reading then d.tileK else d.tileN
def PassDesc.extent (d : PassDesc) : Nat := if d.reading then d.tileN else d.tileK
/-- The pass reaches the chain engine (R70, R117). -/
def PassDesc.chains (d : PassDesc) : Bool := d.type = .chain || d.drain = 0 || d.drain = 3 || d.drain = 4
/-- The pass writes the accumulator store (R70). -/
def PassDesc.stores (d : PassDesc) : Bool := d.type = .product && 1 ≤ d.drain && d.drain ≤ 4
/-- The row pitch of store entries (R71). -/
def PassDesc.pitch (d : PassDesc) : Nat := roundUp d.width 32
/-- Pane key: layout and pane. -/
def PassDesc.paneKey (d : PassDesc) : Nat := 16 * d.layout + d.pane
/-- The store entries of a pass: first and one past the last (R71, R117). -/
def PassDesc.storeRange (d : PassDesc) : Nat × Nat := (d.storeBase, d.storeBase + d.m * d.pitch)
/-- Completes at once (R79). -/
def PassDesc.empty (d : PassDesc) : Bool := d.m = 0 || d.width = 0
/-- The pass uses the cells' tile (R79, R80). -/
def PassDesc.needsTile (d : PassDesc) : Bool := d.type = .product && !d.empty && d.extent ≠ 0

/-! The stationary tile and one line's product. -/

/-- The stationary tile of a pass as the load path reads it (R51, R164). -/
def readTile (m : Mem) (p : PartId) (d : PassDesc) : Tile :=
  let blk (k n : Nat) : Blk :=
    if isSB d.statFmt then lineBlk m p d.statFmt d.statElem d.statExp d.statStride k (n / 32) else lineBlk m p d.statFmt d.statElem d.statExp d.statStride n (k / 32)
  { fmt := d.statFmt, elem := d.statElem, exp := d.statExp, stride := d.statStride, k := d.tileK, n := d.tileN,
    els := (List.range d.tileK).map (fun k => (List.range d.tileN).map (fun n =>
      (blk k n).els.getD (if isSB d.statFmt then n % 32 else k % 32) 0)),
    exps := (List.range (ceilDiv d.tileK 32)).map (fun kb => (List.range d.tileN).map (fun n => (blk (32 * kb) n).ex)) }

/-- Some block of the tile is POISON. -/
def Tile.poisoned (t : Tile) : Bool := t.exps.any (fun r => r.any (·.isNone))

/-- The streamed line `i` of a pass: as it lies, or folded with the ones line (R130, R132). -/
def readLine (m : Mem) (p : PartId) (d : PassDesc) (i : Nat) : Line :=
  if d.fold then
    if d.ones ∧ i + 1 = d.m then { els := List.replicate d.extent 1, exps := List.replicate (ceilDiv d.extent 32) (some 0) }
    else lineOf d.extent (fun j => columnBlk m p d.strmFmt d.strmElem d.strmExp d.strmStride i j)
  else lineOf d.extent (fun j => lineBlk m p d.strmFmt d.strmElem d.strmExp d.strmStride i j)

/-- Some block of the line is POISON. -/
def Line.poisoned (l : Line) : Bool := l.exps.any (·.isNone)

/-- Stationary elements along the reduction axis that meet output entry `c`, and the exponent of their segment `j` (R48, R65). -/
def Tile.along (t : Tile) (transposed : Bool) (c : Nat) : List Int := if transposed then t.els.getD c [] else t.els.map (fun r => r.getD c 0)
def Tile.segExp (t : Tile) (transposed : Bool) (c j : Nat) : Option Int :=
  if transposed then (t.exps.getD (c / 32) []).getD (32 * j) none else (t.exps.getD j []).getD c none

/-- The exact sum of a segment's products (R60). -/
def segSum (x w : List Int) : Int := (List.zipWith (· * ·) x w).foldl (· + ·) 0

/-- The upset of output `c` in segment `j`, zero where there is none. -/
def upsetAt (u : List (Nat × Nat × Int)) (c j : Nat) : Int := ((u.filter (fun x => x.1 = c && x.2.1 = j)).map (·.2.2)).foldl (· + ·) 0

/-- Segment sums of output entry `c` (R60, R64). -/
def segments (t : Tile) (transposed : Bool) (extent : Nat) (l : Line) (u : List (Nat × Nat × Int)) (c : Nat) : List A48 :=
  let w := t.along transposed c
  (List.range (ceilDiv extent 32)).map fun j =>
    match l.exps.getD j none, t.segExp transposed c j with
    | some ex, some ew => .val (segSum ((l.els.drop (32 * j)).take 32) ((w.drop (32 * j)).take 32) + upsetAt u c j) (ex + ew)
    | _, _ => .poison

/-- One output row (R48, R61, R62, R65): the column sum of each entry's segments. With no reduction every entry is the canonical zero (R80). -/
def productRow (t : Tile) (d : PassDesc) (l : Line) (u : List (Nat × Nat × Int)) : List A48 :=
  (List.range d.width).map (fun c => columnSum (segments t d.reading d.extent l u c))

/-- The upsets that fall into segments whose blocks are both sound (R487): the differences that the checks see. -/
def seenUpsets (t : Tile) (d : PassDesc) (l : Line) (u : List (Nat × Nat × Int)) : List (Nat × Nat × Int) :=
  u.filter (fun x => x.1 < d.width && x.2.1 < ceilDiv d.extent 32 && (l.exps.getD x.2.1 none).isSome && (t.segExp d.reading x.1 x.2.1).isSome && x.2.2 ≠ 0)

/-- line_check of R485 fails in some segment: array taps and check unit differ by the sum of the line's upsets in the segment. -/
def lineFails (segs : Nat) (u : List (Nat × Nat × Int)) : Bool := (List.range segs).any (fun j => ((u.filter (fun x => x.2.1 = j)).map (·.2.2)).foldl (· + ·) 0 ≠ 0)
/-- column_check of R485 fails: some column and segment differ over all lines of the pass. -/
def columnFails (u : List (Nat × Nat × Int)) : Bool :=
  u.any (fun x => ((u.filter (fun y => y.1 = x.1 && y.2.1 = x.2.1)).map (·.2.2)).foldl (· + ·) 0 ≠ 0)

/-! Stages (R101 to R106). -/

/-- What a stage gives in a lane: the value, CHAIN_CLAMPS and DOMAIN_CLAMPS counted. -/
abbrev LaneRes := A48 × Nat × Nat

def clampRes (r : A48 × Bool) : LaneRes := (r.1, if r.2 then 1 else 0, 0)
def plain (x : A48) : LaneRes := (x, 0, 0)

/-- align_add, then narrow48 (R103). -/
def addNarrow (x y : A48) : LaneRes :=
  match alignAdd x y with
  | .poison => plain .poison
  | .val t e => clampRes (narrow48 t e)

/-- An A48 value negated. -/
def A48.neg : A48 → A48 | .poison => .poison | .val a e => .val (-a) e

/-- Exact comparison of two A48 values that are not poisoned. -/
def a48Compare (x y : A48) : Ordering :=
  match x, y with
  | .val a ea, .val b eb => dyCompare a ea b eb
  | _, _ => .eq

/-- The condition of a CSEL (R101) on the sign of its operand. -/
def condHolds (arg : Nat) (b : Int) : Bool :=
  match arg with
  | 0 => 0 < b | 1 => 0 ≤ b | 2 => b < 0 | 3 => b ≤ 0 | 4 => b = 0 | _ => b ≠ 0

/-- RECIP and OPERAND_RECIP (R104, R105). -/
def recipRes : A48 → LaneRes
  | .poison => plain .poison
  | .val a e => if a = 0 then (clampTop, 1, 0) else clampRes (recipOf a e)

/-- table_eval of R108. -/
def tableEval (t : Table) (a e : Int) : LaneRes :=
  if t.poisoned then plain .poison
  else
    -- everything in units of 2^m, m below every exponent
    let m := min e (min t.xLoEx t.segExp)
    let off := a * 2 ^ (e - m).toNat - t.xLoEl * 2 ^ (t.xLoEx - m).toNat
    let w := (2 : Int) ^ (t.segExp - m).toNat
    let i := max 0 (min 255 (off / w))
    let d := off - i * w
    let (y0, ye, sl, se) := t.ents.getD i.toNat (0, 0, 0, 0)
    let n := min ye (se + m)
    clampRes (narrow48 (y0 * 2 ^ (ye - n).toNat + sl * d * 2 ^ (se + m - n).toNat) n)

/-- One stage in one lane, with operand `b` (R103 to R106). -/
def laneOp (st : Stage) (tbl : Option Table) (x b : A48) : LaneRes :=
  let arg := signedOf 8 st.arg
  match x, b with
  | .poison, _ => plain .poison
  | _, .poison => plain .poison
  | .val a ea, .val c ec =>
    match st.opcode with
    | 0x01 => addNarrow x b
    | 0x02 => if st.swap then addNarrow x.neg b else addNarrow x b.neg
    | 0x03 => clampRes (narrow48 (a * c) (ea + ec))
    | 0x04 => clampRes (narrow48 a (ea + arg))
    | 0x05 => clampRes (narrow48 (rheShift (a * c) (ea + ec - arg)) arg)
    | 0x06 => plain (match a48Compare x b with | .lt => x | .gt => b | .eq => if st.swap then b else x)
    | 0x07 => plain (match a48Compare x b with | .gt => x | .lt => b | .eq => if st.swap then b else x)
    | 0x08 => plain (if condHolds st.arg c then x else A48.canon (.val st.constEl st.constEx))
    | 0x09 => clampRes (exp2Of a ea)
    | 0x0A => if a ≤ 0 then ((sig24 (-1024) 0).1, 0, if a < 0 then 1 else 0) else clampRes (log2Of a ea)
    | 0x0B => recipRes x
    | 0x0C => if a ≤ 0 then (clampTop, 1, if a < 0 then 1 else 0) else clampRes (rsqrtOf a ea)
    | 0x0D => match tbl with | some t => tableEval t a ea | none => plain .poison
    | _ => plain x

/-! Row reduction (R110). -/

/-- A statistic with the CHAIN_CLAMPS counted on the way to it (R102). -/
abbrev Stat := A48 × Nat

/-- One level of the tree: neighbours combined. -/
def treeLevel (f : Stat → Stat → Stat) : List Stat → List Stat
  | a :: b :: r => f a b :: treeLevel f r
  | l => l

/-- The fixed binary tree over lane indices; the groups of a wider row meet in its upper levels in ascending order. -/
def treeFold (f : Stat → Stat → Stat) : Nat → List Stat → Stat
  | 0, l => l.headD (.zero, 0)
  | n + 1, l => match l with | [] => (.zero, 0) | [x] => x | l => treeFold f n (treeLevel f l)

/-- The larger value; of two equal ones the first. -/
def a48Max (x y : A48) : A48 :=
  match x, y with
  | .poison, _ => .poison
  | _, .poison => .poison
  | x, y => if a48Compare x y = .lt then y else x

/-- Two statistics combined: SUM by align_add brought back to A48 (R102, R110), MAX by exact comparison. -/
def joinStat (arg : Nat) (x y : Stat) : Stat :=
  if arg = 0 then let r := addA48 x.1 y.1; (r.1, x.2 + y.2 + (if r.2 then 1 else 0)) else (a48Max x.1 y.1, x.2 + y.2)
/-- The statistic of a row's active lanes: ARG 0 SUM, 1 MAX. -/
def rowStat (arg : Nat) (lanes : List A48) : Stat := treeFold (joinStat arg) 10 (lanes.map (fun x => (x, 0)))
/-- STAT_COMB: the statistic combined with the entry's old value (R111). -/
def combStat (arg : Nat) (old new : A48) : Stat := joinStat arg (old, 0) (new, 0)

/-! A row through the stages. -/

/-- A row between stages: lanes, the nearest earlier statistic, statistics to land, clamp counts. -/
structure RowRun where
  lanes : List A48
  stat : A48 := .zero
  stats : List (Option Nat × A48 × Bool) := []
  clamps : Nat := 0
  domain : Nat := 0
deriving DecidableEq, Repr

/-- Buffer entry `i` as a later stage of the same row combines with it: the row's own earlier writes have landed (R111). -/
def RowRun.entry (r : RowRun) (buf : Nat → A48) (i : Nat) : A48 := (((r.stats.filter (fun t => t.1 = some i)).getLast?).map (·.2.1)).getD (buf i)

/-- One stage over all lanes of row `m`. `opnd` gives the operand's lane values, `buf` the row-statistic buffer as the row sees it.
A statistic that STAT_COMB combines goes combined into the buffer; ROWSTAT and the row-statistic region take the row's own statistic (notes/assumptions/93.md). -/
def stageRun (m : Nat) (opnd : Stage → A48 → List A48) (buf : Nat → A48) (tbl : Nat → Option Table) (r : RowRun) (st : Stage) : RowRun :=
  if st.opcode = 0x0E then
    let v := rowStat st.arg r.lanes
    let i := st.statBase + m
    let c : Stat := if st.statBuf ∧ st.statComb then combStat st.arg (r.entry buf i) v.1 else (v.1, 0)
    let b := if st.statBuf then [(some i, c.1, false)] else []
    { r with stat := v.1, stats := r.stats ++ b ++ (if st.statMem then [(none, v.1, true)] else []), clamps := r.clamps + v.2 + c.2 }
  else if st.opcode = 0x0F ∨ st.opcode = 0 then r
  else
    let b := opnd st r.stat
    -- a stage of kind NONE has no operand to take the reciprocal of (R99)
    let b : List LaneRes := if st.recip ∧ st.kind ≠ 0 then b.map recipRes else b.map plain
    let res := List.zipWith (laneOp st (tbl st.slot)) r.lanes (b.map (·.1))
    let sum (f : LaneRes → Nat) (l : List LaneRes) : Nat := (l.map f).foldl (· + ·) 0
    { r with lanes := res.map (·.1), clamps := r.clamps + sum (·.2.1) res + sum (·.2.1) b, domain := r.domain + sum (·.2.2) res + sum (·.2.2) b }

/-- The program's stages before its quantise stage, over a row (R90, R106). -/
def chainRun (c : Chain) (m : Nat) (opnd : Stage → A48 → List A48) (buf : Nat → A48) (tbl : Nat → Option Table) (lanes : List A48) : RowRun :=
  (c.stages.take (c.count - 1)).foldl (stageRun m opnd buf tbl) { lanes := lanes }

/-- The quantise stage of a program. -/
def Chain.quant (c : Chain) : Stage := c.stages.getD (c.count - 1) { constEl := 0, constEx := 0, constExRaw := 0, statBase := 0, arg := 0, slot := 0, kind := 0, discard := false, recip := false, statComb := false, statMem := false, statBuf := false, swap := false, opcode := 0, reserved := 0 }
def Chain.outFmt (c : Chain) : Nat := c.quant.arg
def Chain.discards (c : Chain) : Bool := c.quant.discard
def Chain.slot (c : Chain) (i : Nat) : Slot := c.slots.getD i { elemAddr := 0, expAddr := 0, lineLen := 0, fmt := 0, kind := 0, reserved := 0 }
/-- Stages in use. -/
def Chain.used (c : Chain) : List Stage := c.stages.take c.count
/-- Slots of a kind that a used stage names: VECTOR 2, STREAM 3 by the stage's kind, TABLE by its opcode. -/
def Chain.vectorSlots (c : Chain) : List Nat := ((c.used.filter (fun s => s.kind = 2)).map (·.slot)).dedup
def Chain.streamSlots (c : Chain) : List Nat := ((c.used.filter (fun s => s.kind = 3)).map (·.slot)).dedup
def Chain.tableSlots (c : Chain) : List Nat := ((c.used.filter (fun s => s.opcode = 0x0D)).map (·.slot)).dedup
/-- The program writes the row-statistic region. -/
def Chain.statMem (c : Chain) : Bool := c.used.any (fun s => s.opcode = 0x0E && s.statMem)

/-- The operand's value in each lane of row `m` (R99). -/
def stageOperand (mem : Mem) (p : PartId) (d : PassDesc) (c : Chain) (vectors : List (Nat × List A48)) (buf : Nat → A48) (m w : Nat) (st : Stage) (stat : A48) : List A48 :=
  match st.kind with
  | 1 => List.replicate w (A48.canon (.val st.constEl st.constEx))
  | 2 => let v := (alGet st.slot vectors).getD []; (List.range w).map (fun j => v.getD j .zero)
  | 3 => let s := c.slot st.slot; tensorRow mem p s.fmt (s.elemAddr.extractLsb' 0 56).toNat (s.expAddr.extractLsb' 0 56).toNat s.lineLen (d.m0 + m) d.n0 w
  | 4 => List.replicate w stat
  | 5 => List.replicate w (buf (st.statBase + m))
  | 6 => (List.range w).map (fun j => A48.canon (.val ((d.m0 + m : Nat) - (d.n0 + j : Nat) : Int) 0))
  | _ => List.replicate w .zero

/-- A VECTOR operand's lane values (R99, R100). -/
def vectorOperand (mem : Mem) (p : PartId) (d : PassDesc) (s : Slot) : List A48 :=
  tensorRow mem p s.fmt (s.elemAddr.extractLsb' 0 56).toNat (s.expAddr.extractLsb' 0 56).toNat s.lineLen 0 d.n0 d.width

end Sys2Proof.Machine
end

