-- ==== Sys2Proof/Machine/KeyOps.lean ====
section
/-!
DEFINITION. Machine/KeyOps.lean: key slots and the ladder's derivations (R431 to R433, R460), shared by flows, imports and sessions.
-/

namespace Sys2Proof.Machine

/-- A free number of a range, searched from a free value on (log 3): which of the free ones is taken is not stated. -/
def pickFree (used : Nat → Bool) (lo n seed : Nat) : Option Nat :=
  ((List.range n).find? (fun i => !used (lo + (seed + i) % n))).map (fun i => lo + (seed + i) % n)

/-- Slots that a partition holds (KEY_SLOTS_USED, R426). -/
def slotsUsed (k : Keys) (p : PartId) : Nat := (k.slots.filter (fun x => x.2.owner = p.val)).length

/-- Free shared slots 256..4,095 (R432). -/
def sharedFree (k : Keys) : Nat := 3840 - (k.slots.filter (fun x => 256 ≤ x.1)).length

/-- Room for `n` more slots of a partition: its quota and the shared slots (R429, R439, R460). -/
def roomFor (s : State) (p : PartId) (n : Nat) : Bool :=
  slotsUsed s.keys p + n ≤ s.parts[p].force.slots.toNat && n ≤ sharedFree s.keys

/-- Put a key into a free shared slot, or into a reserved one 0..255 (R432); its number. -/
def addKey (shared : Bool) (k : KeySlot) (s : State) : Option (State × Nat) :=
  let used (i : Nat) : Bool := (alGet i s.keys.slots).isSome
  (pickFree used (if shared then 256 else 0) (if shared then 3840 else 256) (Config.freeNat s.free)).map
    (fun i => ({ s with keys := { s.keys with slots := alSet i k s.keys.slots }, free := s.free + 1 }, i))

/-- Erase a slot. -/
def eraseKey (i : Nat) (s : State) : State := { s with keys := { s.keys with slots := alDel i s.keys.slots } }

/-- A fresh value of the entropy source, 32 bytes (R430). -/
def State.entropy (s : State) : Bytes × State := (leBytes 32 (Config.entropy s.free).toNat, { s with free := s.free + 1 })

def unitIdBytes : Bytes := leBytes 16 Config.unitId.toNat
def lhUnitIdBytes : Bytes := leBytes 16 Config.lhUnitId.toNat
def secretBytes : Bytes := leBytes 32 Config.uniqueSecret.toNat

/-- Derivations of R433. -/
def identitySeed : Bytes := Config.kmac256 secretBytes [] 256 "JT480 IDENTITY"
def kemSeed : Bytes := Config.kmac256 secretBytes [] 512 "JT480 TENANT KEM"
def flashKey : Bytes := Config.kmac256 secretBytes [] 256 "JT480 FLASH"
def bootKey (boot : Bytes) (purpose index : Nat) : Bytes :=
  Config.kmac256 secretBytes (boot ++ leBytes 1 purpose ++ leBytes 1 index) 256 "JT480 BOOT KEY"
def partitionMemory (secret salt : Bytes) (p e : Nat) : Bytes :=
  Config.kmac256 secret (salt ++ unitIdBytes ++ leBytes 1 p ++ leBytes 1 e) 256 "JT480 PARTITION MEMORY"
def jointMemory (secret salt : Bytes) (p sess : Nat) : Bytes :=
  Config.kmac256 secret (salt ++ unitIdBytes ++ leBytes 1 p ++ leBytes 1 sess) 256 "JT480 JOINT MEMORY"
def tenantRoot (secret : Bytes) (p e : Nat) : Bytes :=
  Config.kmac256 secret (unitIdBytes ++ leBytes 1 p ++ leBytes 1 e) 256 "JT480 TENANT SESSION"
def keyIdOf (secret : Bytes) (p : Nat) : BitVec 128 :=
  BitVec.ofNat 128 (leNat (Config.kmac256 secret (unitIdBytes ++ leBytes 1 p) 128 "JT480 KEY ID"))
def sessionFlowKey (pair : Bytes) (sess : Nat) (digest : BitVec 512) : Bytes :=
  Config.kmac256 pair (leBytes 1 sess ++ leBytes 64 digest.toNat) 256 "JT480 SESSION FLOW"
def nextGenKey (k : Bytes) (g : Nat) : Bytes := Config.kmac256 k (leBytes 4 g) 256 "JT480 NEXT GENERATION"

/-- Mask bits of R431 by purpose (R432). -/
def purposeMask : Nat → Nat
  | 0x02 => 1 | 0x04 => 1 | 0x05 => 2 | 0x10 => 16 | 0x12 => 1 | 0x13 => 9 | 0x14 => 1 | 0x15 => 4 | 0x16 => 2 | 0x17 => 2 | 0x18 => 10 | 0x19 => 2
  | 0x1A => 32 | 0x1B => 64 | _ => 0
/-- KIND of R431 by purpose (R432). -/
def purposeKind : Nat → Nat
  | 0x01 => 1 | 0x03 => 1 | 0x02 => 3 | 0x04 => 3 | 0x05 => 3 | 0x18 => 3 | 0x16 => 2 | 0x17 => 2 | 0x19 => 2 | _ => 0

/-- A slot of a purpose with its mask and kind by R432. -/
def keyOf (owner purpose epoch tag : Nat) (parent : Nat) (value : Bytes) : KeySlot :=
  { owner := owner, epoch := epoch, purpose := purpose, kind := purposeKind purpose, parent := parent, mask := purposeMask purpose, tag := tag, value := value }

/-- The attribute word of a slot (R431). -/
def slotAttr (k : Keys) (i : Nat) : BitVec 64 :=
  match alGet i k.slots with
  | none => BitVec.ofNat 64 (0x1FFF * 2 ^ 15)
  | some x => BitVec.ofNat 64 ((if x.revoked then 2 else 1) * 2 ^ 62 + x.owner * 2 ^ 48 + x.epoch % 256 * 2 ^ 40 + x.purpose * 2 ^ 32 + x.kind * 2 ^ 28 + x.parent * 2 ^ 15 + x.mask)

/-- The live slot of a purpose with a tag. -/
def findKey (k : Keys) (owner purpose tag : Nat) : Option (Nat × KeySlot) :=
  k.slots.find? (fun x => !x.2.revoked && x.2.owner = owner && x.2.purpose = purpose && x.2.tag = tag)

/-- PAIR keys are held per peer and direction: tag is the device times two, plus one for the key we receive under. -/
def pairTag (peer : Device) (rx : Bool) : Nat := peer.toNat * 2 + (if rx then 1 else 0)
/-- HOP keys are held per strait, direction and generation. -/
def hopTag (k : Nat) (rx : Bool) : Nat := k * 2 + (if rx then 1 else 0)

/-- The previous generation of a HOP key (R432). -/
def prevHopTag (k : Nat) (rx : Bool) : Nat := 64 + hopTag k rx

/-- A live pair key in both directions (R432). -/
def havePair (k : Keys) (peer : Device) : Bool := (findKey k 0x40 0x17 (pairTag peer false)).isSome && (findKey k 0x40 0x17 (pairTag peer true)).isSome

end Sys2Proof.Machine
end

