-- ==== Sys2Proof/Machine/Wake.lean ====
section
/-!
DEFINITION. Machine/Wake.lean: wakes (R590, R591), the keys that the ladder derives at a boot (R432, R433), and what a loss of tenant state takes (R457, R544).
-/

namespace Sys2Proof.Machine

/-! Keys of the ladder (R432, R433, R464). -/

/-- Put a key of the module into a reserved slot, in place of one with the same purpose and tag. -/
def setModuleKey (owner purpose tag : Nat) (value : Bytes) (s : State) : State :=
  let s := { s with keys := { s.keys with slots := s.keys.slots.filter (fun k => !(k.2.owner = owner && k.2.purpose = purpose && k.2.tag = tag)) } }
  match addKey false (keyOf owner purpose 0 tag 0x1FFF value) s with
  | some (s, _) => s
  | none => s

/-- The keys that the unique secret gives at every boot; KEM_DECAPS only while tenant-key derivation is not fused off. -/
def ladderKeys (s : State) : State :=
  let s := setModuleKey 0x40 0x1A 0 flashKey (setModuleKey 0x40 0x10 0 identitySeed s)
  if s.life.force < 4 then setModuleKey 0x40 0x11 0 kemSeed s else s

/-- The keys of a boot value drawn before step 4 (R433, R593). -/
def bootKeys (s : State) : State :=
  let (boot, s) := s.entropy
  let s := setModuleKey 0x41 0x13 0 (bootKey boot 0x13 0) (setModuleKey 0x40 0x12 0 (bootKey boot 0x12 0) s)
  let s := (List.range 24).foldl (fun s k => setModuleKey 0x40 0x14 k (bootKey boot 0x14 k) s) s
  (List.range 16).foldl (fun s k => setModuleKey 0x40 0x15 k (bootKey boot 0x15 k) s) s

/-! Loss of tenant state (R457, R580, R584). -/

/-- Memory after a loss of power or a reset: nothing stored, nothing mapped; the persistent objects stand (R423, R544). -/
def Mem.lost (m : Mem) : Mem :=
  { lendBytes := m.lendBytes, stripe := m.stripe, migPages := m.migPages, promoteHeat := m.promoteHeat, homes := m.homes, stacksFailed := m.stacksFailed }

/-- A strait after its power or its reset: its persistent subindexes, and the lanes that are out for good. -/
def Strait.lost (x : Strait) : Strait := { mode := x.mode, asym := x.asym, badLanes := [] }

/-- The fabric after a reset: no flow, no handshake; routes, aperture and the persistent objects stand. -/
def Fabric.lost (f : Fabric) : Fabric :=
  { straits := Vector.ofFn (fun k => f.straits[k].lost), routes := f.routes, deviceId := f.deviceId, idInForce := f.idInForce, vcWeight := f.vcWeight,
    ferry := f.ferry, apertureBytes := f.apertureBytes, apertureForce := f.apertureForce, aperture := f.aperture }

/-- Slots that outlive a shut-down to STANDBY: the management domain keeps its own identity, flash, debug and operator keys. -/
def keptInStandby (k : KeySlot) : Bool := k.purpose = 0x10 || k.purpose = 0x11 || k.purpose = 0x19 || k.purpose = 0x1A || k.purpose = 0x1B

/-- Everything that the compute domains and the partitions held is gone: partitions, rings, arrays, memory, Bindery, flows and the keys of them; every partition reads FREE. -/
def loseTenants (s : State) : State :=
  { s with parts := Vector.replicate 64 {}, rings := Vector.replicate 64 (Vector.replicate 16 {}), arrays := Vector.replicate 128 {},
           mem := s.mem.lost, fab := s.fab.lost, bind := { carveout := s.bind.carveout },
           keys := { s.keys with slots := s.keys.slots.filter (fun k => keptInStandby k.2), peerFw := [] },
           dict := { s.dict with sessions := s.dict.sessions.filter (fun x => x.role ≠ .tenant), openings := s.dict.openings.filter (fun o => o.role ≠ 4) },
           ras := { s.ras with lost := s.ras.lost.filter (fun a => s.ras.units.all (fun u => u.2.serves ≠ some a)), lostPending := [], windowErrors := [] } }

/-- The module leaves the tick (R584). -/
def leaveTick (s : State) : State :=
  { s with tick := { period := s.tick.period, priority := s.tick.priority, role := 5, missed := s.tick.missed },
           gov := { s.gov with issued := none, budget := 0, overshoot := 0, derate := 65536, throttleUs := 0, allotment := Vector.replicate 64 0, throttled := false, dueTaken := false, order := 0, admission := none } }

/-! Power-up (R585, R586, R590, R591). -/

/-- A domain starts its first step. -/
def startDomain (d : DieId) (s : State) : State := { s with pow := { s.pow with domains := s.pow.domains.set d (.powering 1 [] false) } }

/-- The four array-die domains start. -/
def startDies (s : State) : State := [(0 : DieId), 1, 2, 3].foldl (fun s d => startDomain d s) s

/-- From STANDBY: step 4 of the boot (R593). -/
def startFromStandby (s : State) : State :=
  let s := startDomain 4 (bootKeys s)
  { s with pow := { s.pow with mod := .booting, fromDoze := false, target := some .active, cause := s.pow.nextCause.getD s.pow.cause, nextCause := none }, mem := { s.mem with stacksFailed := [] } }

/-- From DOZE: the array dies, those that have failed apart (R586, R587). -/
def startFromDoze (s : State) : State :=
  let s := [(0 : DieId), 1, 2, 3].foldl (fun s d => if s.pow.domains[d] = .failed then s else startDomain d s) s
  { s with pow := { s.pow with mod := .starting, fromDoze := true, target := some .active } }

/-- A wake (R590, R591): it acts while MOD_PWR_EN is high and no trip stands; during a shut-down it is latched. -/
def wake (code : BitVec 8) (s : State) : State :=
  if !s.pow.pwrEn ∨ s.pow.tripped then s
  else
    let noted : State := { s with pow := { s.pow with request := 3, lastWake := code } }
    match s.pow.mod with
    | .standby => if s.pow.scrapped ∨ s.pow.domains[4] = .failed then s else startFromStandby noted
    | .doze => startFromDoze noted
    | .stopping | .stoppingPending => { noted with pow := { noted.pow with mod := .stoppingPending, latched := some .active } }
    | _ => s

end Sys2Proof.Machine
end

