-- ==== Sys2Proof/Machine/Flows.lean ====
section
/-!
DEFINITION. Machine/Flows.lean: flow contexts (R286 to R290), packets in and out (R281 to R285), and the memory packets (R283, R289), with the T2 reads that wait on them (R402, R407).
-/

namespace Sys2Proof.Machine

/-! Routes (R281). -/

/-- Numbers 0 to 3 of the valid candidates of a route entry. -/
def validCands (w : BitVec 32) : List Nat := (List.range 4).filter (fun i => w.getLsbD (20 + i))
/-- The strait of a candidate. -/
def candStrait (w : BitVec 32) (i : Nat) : Nat := w.toNat / 32 ^ i % 32
/-- The candidate that a flow starts on: valid candidate number DEST_FLOW mod v. -/
def startCand (w : BitVec 32) (destFlow : Nat) : Nat := (validCands w).getD (destFlow % max (validCands w).length 1) 0
/-- The next valid candidate after one (R288). -/
def nextCand (w : BitVec 32) (r : Nat) : Nat := (((List.range 4).map (fun i => (r + 1 + i) % 4)).find? (fun i => (validCands w).contains i)).getD r

def routeOf (s : State) (d : Device) : BitVec 32 := (alGet d.toNat s.fab.routes).getD 0
/-- The strait is up for fabric traffic. -/
def straitUp (s : State) (k : Nat) : Bool := if h : k < 18 then s.fab.straits[k].link = .up else false
/-- The first candidate that is up, starting from the one of the flow. -/
def liveRoute (s : State) (d : Device) (flow : Nat) : Option Nat :=
  let w := routeOf s d
  let c := validCands w
  (List.range c.length).findSome? (fun i => let k := candStrait w (c.getD ((flow + i) % c.length) 0); if straitUp s k then some k else none)

def getFlow (s : State) (f : Nat) : Option Flow := alGet f s.fab.flows
def setFlow (f : Nat) (x : Flow) (s : State) : State := { s with fab := { s.fab with flows := alSet f x s.fab.flows } }

/-- The strait that a flow's packets leave by, where it is up: a hop flow's own, else the candidate of the flow's ROUTE (R281, R288). -/
def flowStrait (s : State) (f : Nat) (x : Flow) : Option StraitId :=
  if h : f < 18 then some ⟨f, h⟩
  else
    let w := routeOf s x.peer
    let k := candStrait w x.route
    if h : k < 18 then (if (validCands w).contains x.route ∧ s.fab.straits[k].link = .up then some ⟨k, h⟩ else none) else none

/-! Flits (R271 to R273). -/

/-- Slots of a packet (R282). -/
def slotsOf (len : Nat) : Nat := ceilDiv (48 + len) 64
/-- The virtual channel of a class and OP (R274). -/
def vcOf (cls op : Nat) : Nat :=
  match cls with
  | 1 => if op = 0 then 1 else 2
  | 2 => 3
  | 3 => if op = 0 then 1 else 2
  | 4 => 4
  | 5 => 3
  | 6 => 3
  | 8 => if op = 0 then 1 else 2
  | _ => 0

/-- The counter block of AES-256 in counter mode: key generation, flit index and block index (their widths: log 107). -/
def ctrBlock (gen index block : Nat) : Nat := (gen % 2 ^ 32 * 2 ^ 64 + index % 2 ^ 64) * 2 ^ 32 + block
/-- A flit under its hop key (R272). -/
def flitCrypt (key : Bytes) (gen index : Nat) (b : Bytes) : Bytes :=
  b.zipIdx.map (fun x => x.1 ^^^ (Config.aes256 key (ctrBlock gen index (x.2 / 16))).getD (x.2 % 16) 0)

/-- Generation of the send key for a flit index (R309). -/
def Strait.genAt (x : Strait) (i : Nat) : Nat := match x.hopSwitch.1 with | some n => if i < n then x.hopGen.1 - 1 else x.hopGen.1 | none => x.hopGen.1
/-- The send key of a generation: the latest, or the previous one (R432). -/
def hopKey (s : State) (k : StraitId) (gen : Nat) : Bytes :=
  ((findKey s.keys 0x40 0x16 (if gen = s.fab.straits[k].hopGen.1 then hopTag k.val false else prevHopTag k.val false)).map (·.2.value)).getD []

/-- The virtual channel whose freed slots the next flit returns: the lowest that owes any (log 106). -/
def Strait.owes (x : Strait) : Fin 5 := ((List.finRange 5).find? (fun c => x.owed[c] ≠ 0)).getD 0

/-- The header of the next flit of a kind (R271). -/
def Strait.header (kind : Nat) (x : Strait) : BitVec 40 :=
  BitVec.ofNat 40 ((x.txIndex % 4096) * 2 ^ 28 + ((x.rxIndex + 4095) % 4096) * 2 ^ 16 + x.owes.val * 2 ^ 13 + min 255 x.owed[x.owes] * 2 ^ 5 + kind * 2 ^ 3)

/-- A lane swap that is due at the next flit takes effect (R276). -/
def Strait.swapped (x : Strait) : Strait :=
  match x.swap with
  | some (l, n) => if n ≤ x.txIndex then { x with spare := BitVec.ofNat 8 l.val, swap := none } else x
  | none => x

/-- A packet's slots leave in the next flit (R271 to R274, R279): it takes credit and returns what is owed, and it is kept for replay with the last 2,048. -/
def Strait.sent (key : Nat → Bytes) (vc slots : Nat) (bytes : Bytes) (y : Strait) : Strait :=
  let x := y.swapped
  let g := x.genAt x.txIndex
  let h := x.header 0
  let f : SentFlit := { index := x.txIndex, gen := g, spare := x.spare, header := h, cipher := flitCrypt (key g) g x.txIndex (leBytes 5 h.toNat ++ bytes ++ zeros (1280 - bytes.length)) }
  { x with counters := bump x.counters 4 slots, credit := if h : vc < 5 then x.credit.set vc (x.credit[vc] - slots) else x.credit,
           owed := x.owed.set x.owes (x.owed[x.owes] - min 255 x.owed[x.owes]),
           txIndex := x.txIndex + 1, replay := (x.replay ++ [f]).drop (x.replay.length + 1 - 2048) }

/-- A flit with a packet leaves on a strait. The bytes of a packet that the model holds by its fields only are the unit's (log 105). -/
def sendFlit (k : StraitId) (vc slots : Nat) (bytes : Option Bytes) (s : State) : State :=
  s.updStrait k (fun x => x.sent (hopKey s k) vc slots (bytes.getD (Config.wireBytes k.val x.txIndex)))

/-! Packets (R282, R284, R285). -/

/-- The 256-bit header. -/
def OutPkt.header (o : OutPkt) : BitVec 256 :=
  BitVec.ofNat 256 ((o.psn % 2 ^ 48) * 2 ^ 208 + (o.ackPsn % 2 ^ 48) * 2 ^ 160 + o.dest.toNat * 2 ^ 144 + o.src.toNat * 2 ^ 128 + (o.destFlow % 2 ^ 18) * 2 ^ 110 + (o.len % 2 ^ 11) * 2 ^ 99 +
    (o.cls % 16) * 2 ^ 92 + (o.op % 16) * 2 ^ 88 + (if o.ackValid then 2 ^ 87 else 0) + (if o.keygen then 2 ^ 86 else 0) + (o.hops % 64) * 2 ^ 80 + o.csf % 2 ^ 80)

/-- The key in a slot. -/
def slotKey (s : State) (i : Nat) : Bytes := ((alGet i s.keys.slots).map (·.value)).getD []

/-- The next packet of a flow: its payload under AES-256-GCM with the flow's send key, the PSN in the nonce's upper half and the header with HOPS zero as the data authenticated. -/
def mkPkt (s : State) (f : Nat) (x : Flow) (hops cls op csf : Nat) (payload : Bytes) : OutPkt :=
  let o : OutPkt := { flow := f, psn := x.txPsn, ackPsn := x.rxPsn - 1, ackValid := decide (0 < x.rxPsn), dest := x.peer, src := s.fab.idInForce, destFlow := x.peerFlow,
                      len := payload.length, cls := cls, op := op, keygen := x.keygen, hops := hops, csf := csf, body := [] }
  { o with body := Config.gcmSeal (slotKey s x.txKey) (x.txPsn % 2 ^ 48 * 2 ^ 48) (leBytes 32 ({ o with hops := 0 } : OutPkt).header.toNat) payload }

/-! Credit and arbitration (R274). -/

def Waiting.slots : Waiting → Nat
  | .own o _ => slotsOf o.len
  | .through _ _ _ len => slotsOf len
def Waiting.vc : Waiting → Nat
  | .own o _ => vcOf o.cls o.op
  | .through _ cls op _ => vcOf cls op
def Waiting.bytes : Waiting → Option Bytes
  | .own o _ => some (leBytes 32 o.header.toNat ++ o.body)
  | .through _ _ _ _ => none
def Waiting.output (k : StraitId) : Waiting → Output
  | .own o again => if again then .resent o else .packet o
  | .through p cls _ _ => .forwarded k { p with hops := p.hops - 1 } cls

/-- The first packet of a channel has credit for all of its slots. -/
def Strait.ready (x : Strait) (c : Fin 5) : Bool := match x.queue[c] with | w :: _ => w.slots ≤ x.credit[c] | [] => false

/-- The channel that sends next: VC 0 first, then VC 1 to 4 in a round that gives each as many packets as its weight (log 106). -/
def Strait.choose (weight : Vector (BitVec 8) 4) (x : Strait) : Option (Fin 5 × Vector Nat 4) :=
  let bulk : List (Fin 4) := List.finRange 4
  if x.ready 0 then some (0, x.turn)
  else match bulk.find? (fun c => x.ready c.succ && x.turn[c] ≠ 0) with
    | some c => some (c.succ, x.turn.set c (x.turn[c] - 1))
    | none =>
      let full : Vector Nat 4 := weight.map (·.toNat)
      (bulk.find? (fun c => x.ready c.succ)).map (fun (c : Fin 4) => (c.succ, full.set c (full[c] - 1)))

/-- Waiting packets leave while their channels hold credit. -/
def pump (k : StraitId) : Nat → State → State
  | 0, s => s
  | n + 1, s =>
    match s.fab.straits[k].choose s.fab.vcWeight with
    | none => s
    | some (c, turn) =>
      match s.fab.straits[k].queue[c] with
      | [] => s
      | w :: rest => pump k n ((sendFlit k w.vc w.slots w.bytes (s.updStrait k (fun x => { x with queue := x.queue.set c rest, turn := turn }))).emit [w.output k])

/-- Packets that wait on a strait. -/
def Strait.waiting (x : Strait) : Nat := (x.queue.toList.map (·.length)).foldl (· + ·) 0

/-- What waits on a strait that is up goes out as far as the credit reaches. -/
def drainQueue (k : StraitId) (s : State) : State := if s.fab.straits[k].link = .up then pump k s.fab.straits[k].waiting s else s

/-- A packet joins its channel. -/
def Strait.enqueue (w : Waiting) (x : Strait) : Strait := { x with queue := if h : w.vc < 5 then x.queue.set w.vc (x.queue[w.vc] ++ [w]) else x.queue }

/-- A packet is given to a strait. -/
def sendOn (k : StraitId) (w : Waiting) (s : State) : State := drainQueue k (s.updStrait k (Strait.enqueue w))

/-- A flow's packet goes to the flow's strait. It is UNROUTABLE where no valid candidate is up (R281); otherwise R288 sends it again on another. A packet for the module itself is delivered locally. -/
def routePkt (o : OutPkt) (again : Bool) (x : Flow) (s : State) : State :=
  if 18 ≤ o.flow ∧ x.peer = s.fab.idInForce then s.emit [if again then .resent o else .packet o]
  else match flowStrait s o.flow x with
    | some k => sendOn k (.own o again) s
    | none => if (liveRoute s x.peer 0).isNone then { s with fab := { s.fab with unroutable := s.fab.unroutable + 1 } } else s

/-- Send a packet on a flow with HOPS left (R282, R285): the next PSN, kept until it is acknowledged. A flow that is not open, or a module without a device ID, sends nothing (R280). -/
def sendPktHops (hops f cls op csf : Nat) (payload : Bytes) (s : State) : State :=
  match getFlow s f with
  | some x =>
    if x.state = .opened ∧ (s.fab.idInForce ≠ 0xFFFF ∨ f < 18) then
      let o := mkPkt s f x hops cls op csf payload
      routePkt o false x (setFlow f { x with txPsn := x.txPsn + 1, unacked := x.unacked ++ [o], used := frameNow s } s)
    else s
  | none => s
/-- A packet that starts here has 16 hops. -/
def sendPkt (f cls op csf : Nat) (payload : Bytes) (s : State) : State := sendPktHops 16 f cls op csf payload s

/-- A pure acknowledgement (R283, R288): a packet of one slot in the class of its flow, which waits for no credit, since it is due within 2 µs (log 106). -/
def sendAck (f psn : Nat) (s : State) : State :=
  let s := match getFlow s f with
    | some x => (match flowStrait s f x with | some k => sendFlit k (if f < 18 then 0 else vcOf (x.classes.headD 0) 15) 1 none s | none => s)
    | none => s
  s.emit [.ack f psn]

/-! Waiting reads and lost flows. -/

/-- A waiting read ends (R402, R407): its generation's count falls, and the reader has its result. -/
def finishWait (w : WaitRead) (data : Option Sector) (st : Status) (s : State) : State :=
  let r := s.vm.region w.part (pageOf w.va)
  let r := if r.rekeying ∧ w.gen + 1 = r.gen then { r with inFlightOld := r.inFlightOld - 1 } else { r with inFlight := r.inFlight - 1 }
  let s := s.putVM (s.vm.setRegion w.part (pageOf w.va) r)
  ({ s with mem := { s.mem with waits := s.mem.waits.erase w } }).emit [.sectorData w.part w.va data st]

/-- Contexts become REVOKED at once, and nothing further is sent on them (R290). Operations that wait on them, what has not been acknowledged among them, end at their next resend (R308). -/
def revokeFlows (sel : Flow → Bool) (s : State) : State :=
  { s with fab := { s.fab with flows := s.fab.flows.map (fun x => if sel x.2 then (x.1, { x.2 with state := .revoked, lastStatus := 0x22 }) else x) } }

/-! Handshakes are offered (R434). -/

/-- SHA3-512 of the running firmware image (R434, R446). -/
def fwDigest (s : State) : BitVec 512 := match s.fw.running with | some b => Config.sha3 b | none => 0

/-- The fields that HELLO and REPLY carry, in the order of R434 (their byte layout: log 14). -/
def helloBytes (hop : Bool) (unit : BitVec 128) (dev : Device) (nonce : BitVec 256) (kemPub cert : Bytes) (lc : Byte) (dbg : Bool) (fw : BitVec 512) : Bytes :=
  [if hop then 0 else 1] ++ leBytes 16 unit.toNat ++ leBytes 2 dev.toNat ++ leBytes 32 nonce.toNat ++ kemPub ++ cert ++ [lc, if dbg then 1 else 0] ++ leBytes 64 fw.toNat

/-- This module's own fields. -/
def ownHello (s : State) (hop : Bool) (nonce : BitVec 256) : Bytes :=
  helloBytes hop Config.unitId s.fab.idInForce nonce (Config.kemPublic kemSeed) s.life.cert (BitVec.ofNat 8 s.life.force) (s.life.dbg ≠ 0) (fwDigest s)

/-- A handshake message leaves; on a strait its slots are counted (R279). -/
def sendHandshake (kind : Nat) (hop : Option StraitId) (peer : Device) (nonce : BitVec 256) (ct sig : Bytes) (len : Nat) (s : State) : State :=
  State.emit (match hop with | some k => s.updStrait k (fun x => { x with counters := bump x.counters 4 (slotsOf len) }) | none => s) [.handshake kind hop peer nonce ct sig]

/-- Offer a HELLO on a strait, or to a peer for a pair key. Neither end knows the other's unit ID before it hears it, so each offers and the one with the higher ID answers (log 14). -/
def offerHello (hop : Option StraitId) (peer : Device) (s : State) : State :=
  let (n, s) := s.entropy
  let nonce := BitVec.ofNat 256 (leNat n)
  let h : HsState := { hop := hop, opener := true, peer := peer, transcript := ownHello s hop.isSome nonce }
  let same (x : HsState) : Bool := x.opener && x.hop = hop && (hop.isSome || x.peer = peer)
  sendHandshake 0 hop peer nonce [] [] h.transcript.length { s with fab := { s.fab with handshakes := h :: s.fab.handshakes.filter (fun x => !same x) } }

/-! Opening (R286, R427, R429, R435, R436, R460). -/

/-- Contexts that an owner holds (FLOWS_USED). -/
def flowsUsed (s : State) (owner : Nat) : Nat := (s.fab.flows.filter (fun x => x.2.owner = owner && 18 ≤ x.1)).length

/-- Session flow keys of both directions, derived from the pair keys and put into shared slots. -/
def sessionKeys (peer : Device) (sess : Nat) (digest : BitVec 512) (s : State) : Option (State × Nat × Nat) :=
  match findKey s.keys 0x40 0x17 (pairTag peer false), findKey s.keys 0x40 0x17 (pairTag peer true) with
  | some (i, tx), some (j, rx) =>
    match addKey true (keyOf 0x41 0x18 0 (sess * 2 ^ 17 + pairTag peer false) i (sessionFlowKey tx.value sess digest)) s with
    | some (s, a) => (addKey true (keyOf 0x41 0x18 0 (sess * 2 ^ 17 + pairTag peer true) j (sessionFlowKey rx.value sess digest)) s).map (fun r => (r.1, a, r.2))
    | none => none
  | _, _ => none

/-- A session flow of a JOINT session goes only to a peer that runs the same firmware (R435). -/
def jointBarred (s : State) (peer : Device) (session : Option SessIx) : Bool :=
  match session with
  | some sx => (match (alGet sx s.bind.sessions).bind (·.cfg) with
    | some c => c.cls = 2 && (match alGet peer.toNat s.keys.peerFw with | some d => d ≠ fwDigest s | none => false)
    | none => false)
  | none => false

/-- The kinds of flow that an engine opens (R286). -/
inductive FlowKind where
  | pool | session | dictionary | host
deriving DecidableEq, Repr

/-- The kind that an owner, its classes and its session make; none where R286 has no such kind. -/
def flowKind (owner : Nat) (classes : List Nat) (session : Option SessIx) : Option FlowKind :=
  if classes = [] then none
  else if session.isSome then (if owner = 0x41 ∧ classes.all (fun c => c = 4 || c = 5 || c = 6) then some .session else none)
  else if owner = 0x41 then none
  else if classes.all (fun c => c = 8) then some .dictionary
  else if classes.all (fun c => c = 1 || c = 2 || c = 3) then some .pool
  else if owner = 0x40 ∧ classes.all (fun c => c = 1 || c = 2 || c = 8) then some .host
  else none

/-- The slot of the key of a dictionary flow: a TENANT session's of the partition, or an operator session's (R286). -/
def dictSlot (s : State) (owner : Nat) : Option Nat :=
  (s.keys.slots.find? (fun k => !k.2.revoked && k.2.owner = owner && k.2.purpose = (if owner = 0x40 then 0x19 else 0x05))).map (·.1)

/-- The slots of the keys under which a context runs, where its peer has a pair key (R286, R460). -/
def flowSlots (kind : FlowKind) (owner : Nat) (peer : Device) (session : Option SessIx) (s : State) : Option (State × Nat × Nat) :=
  match kind with
  | .session =>
    let sx := session.getD 0
    sessionKeys peer sx (((alGet sx s.bind.sessions).map (·.digest)).getD 0) s
  | .dictionary => (dictSlot s owner).map (fun i => (s, i, i))
  | _ => some (s, ((findKey s.keys 0x40 0x17 (pairTag peer false)).map (·.1)).getD 0, ((findKey s.keys 0x40 0x17 (pairTag peer true)).map (·.1)).getD 0)

/-- A flow open by one of the module's engines: the state, and what the engine records. A peer without a pair key is first asked for one, and the context stands OPENING; a dictionary flow needs none, but the key of a session. -/
def openFlow (owner : Nat) (peer : Device) (peerFlow : Nat) (classes : List Nat) (session : Option SessIx) (s : State) : State × Status :=
  let used (i : Nat) : Bool := (getFlow s i).isSome
  let partOk := match partOf owner with | some p => s.parts[p].state = .active | none => owner = 0x40 || owner = 0x41
  let quotaOk := match partOf owner with | some p => decide (flowsUsed s owner < s.parts[p].force.flows.toNat) | none => true
  if !partOk ∨ s.fab.idInForce = 0xFFFF then (s, .denied)
  else match flowKind owner classes session with
  | none => (s, .denied)
  | some kind =>
    if !quotaOk then (s, .quota)
    else match pickFree used 18 262125 (Config.freeNat s.free) with
      | none => (s, .quota)
      | some f =>
        let s := { s with free := s.free + 1 }
        let base : Flow := { peerFlow := peerFlow, peer := peer, owner := owner, classes := classes, session := session, used := frameNow s, route := startCand (routeOf s peer) peerFlow }
        if jointBarred s peer session then (s, .denied)
        else if havePair s.keys peer ∨ kind = .dictionary then
          match flowSlots kind owner peer session s with
          | some (s, tx, rx) => (setFlow f { base with txKey := tx, rxKey := rx, state := .opened } s, .done)
          | none => (s, if kind = .dictionary then .denied else .quota)
        else
          (offerHello none peer (setFlow f { base with state := .opening } s), .done)

end Sys2Proof.Machine
end

