-- ==== Sys2Proof/Machine/Fabric.lean ====
section
/-!
DEFINITION. Machine/Fabric.lean: straits, lanes and flits (R269 to R279, R303 to R309), causeways (R294, R295), the route table and flow queries (R281, R287).
-/

namespace Sys2Proof.Machine

/-- The hub's domain is up (R585): straits exist only then. -/
def hubUp (s : State) : Bool := s.pow.domains[4] = .up

/-- A strait's hop flow is closed: its context is free (R278, R287). -/
def dropHop (k : StraitId) (s : State) : State := { s with fab := { s.fab with flows := alDel k.val s.fab.flows } }

/-- A training begins (R275, R278): RETRAINS counts it, and the strait has no data lane until it ends. -/
def beginTraining (k : StraitId) (s : State) : State :=
  (dropHop k s).updStrait k (fun x => { x with link := .training, width := 0, counters := bump x.counters 3 1 })

/-- What a strait's flit layer holds before flits flow: nothing kept for replay or waiting, fresh indices, and the credit of empty buffers (R272 to R274). -/
def Strait.fresh (x : Strait) : Strait :=
  { x with replay := [], queue := Vector.replicate 5 [], turn := Vector.replicate 4 0, txIndex := 0, rxIndex := 0, nakSent := false, replayFails := 0, swap := none,
           credit := bufferSlots, held := Vector.replicate 5 0, owed := Vector.replicate 5 0, hopGen := (0, 0), hopSwitch := (none, none) }

/-- The strait goes down (R278): its replay buffer is discarded, and it waits in DETECT for its retrain time. -/
def goDown (k : StraitId) (s : State) : State :=
  (dropHop k s).updStrait k (fun x => { x.fresh with link := .detect, width := 0, probeT1 := none })

/-- A failed training or handshake (R278, R435): after 64 in a row the strait is FAILED. -/
def trainFail (k : StraitId) (s : State) : State :=
  (goDown k s).updStrait k (fun x => { x with trainFails := x.trainFails + 1, link := if 64 ≤ x.trainFails + 1 then .failed else .detect })

/-- The unit of a lane (R483). -/
def laneUnit (k : StraitId) (lane : Nat) : Nat := 0x5000 + 9 * k.val + lane
/-- Lanes with a permanent fault: never again data lanes (R505). -/
def permLanes (s : State) (k : StraitId) : List (Fin 9) :=
  (List.finRange 9).filter (fun l => (s.ras.unit (laneUnit k l.val)).permanent)

/-- Lanes found faulty, those out for good among them: they outlive a reset in the wear record (R505). -/
def faultyLanes (s : State) (k : StraitId) : List (Fin 9) := (s.fab.straits[k].badLanes ++ permLanes s k).dedup

/-- A training ends with `n` data lanes: 8 with at most one lane out for good, or 4 under R277, where two lanes have failed and four are healthy; anything else leaves the strait down (R270). -/
def trained8or4 (s : State) (k : StraitId) (n : Nat) : Bool :=
  (n = 8 && (permLanes s k).length ≤ 1) || (n = 4 && 2 ≤ (faultyLanes s k).length && (faultyLanes s k).length ≤ 5)

/-- The strait enters HANDSHAKE with fresh flit indices (R272), and this end offers its HELLO (R434). -/
def enterHandshake (k : StraitId) (n : Nat) (s : State) : State :=
  let bad := if n = 8 then permLanes s k else faultyLanes s k
  let spare : BitVec 8 := if n = 8 then (match bad.find? (fun l => l.val ≠ 8) with | some l => BitVec.ofNat 8 l.val | none => 0xFF) else s.fab.straits[k].spare
  let s := s.updStrait k (fun x => { x.fresh with link := .handshake, width := BitVec.ofNat 8 n, spare := spare, badLanes := bad })
  offerHello (some k) 0xFFFF s

/-- STRAIT_TRAIN_DONE (R270, R275, R277, R278). -/
def execStraitTrainDone (k : StraitId) (r : TrainResult) (s : State) : Res :=
  need (hubUp s && s.fab.straits[k].link = .training)
    (match r with
     | .lanes n => if trained8or4 s k n then enterHandshake k n s else trainFail k s
     | .failed => trainFail k s)

/-- The retrain back-off expires (R278): a strait in fabric mode that went down trains again. -/
def execStraitRetrainTimer (k : StraitId) (s : State) : Res :=
  need (hubUp s && s.fab.straits[k].link = .detect && s.fab.straits[k].mode = 1 && s.fab.straits[k].counters[3] ≠ 0) (beginTraining k s)

/-- A write of TRAIN (R278, R279): 1 leaves FAILED and trains now; a strait that is OFF or in host mode only leaves FAILED. -/
def opTrain (q : Req) (k : StraitId) (v : Byte) (s : State) : State × Status :=
  guarded s (0x6000 + k.val) (isOperator s q && v.toNat ≤ 1)
    (if v = 1 ∧ s.fab.straits[k].mode = 1 ∧ hubUp s then
       (beginTraining k (s.updStrait k (fun x => { x with trainFails := 0 })), .done)
     else if v = 1 ∧ s.fab.straits[k].link = .failed then
       (s.updStrait k (fun x => { x with trainFails := 0, link := if x.mode = 0 ∨ !hubUp s then .off else .detect }), .done)
     else (s, .done))
def execTrain (q : Req) (k : StraitId) (v : Byte) (s : State) : Res := software s (answer q (opTrain q k v s))

/-- A write of STRAIT_MODE (R279, R296): OFF leaves the lanes idle, FABRIC trains (log 13), HOST waits for the host. A FAILED strait stays so, until TRAIN is written (R278). -/
def opStraitMode (q : Req) (k : StraitId) (v : Byte) (s : State) : State × Status :=
  guarded s (0x6000 + k.val) (isOperator s q && v.toNat ≤ 2 && (v ≠ 2 || (16 ≤ k.val && isFerry s)))
    (if v = s.fab.straits[k].mode then (s, .done)
     else if s.fab.straits[k].link = .failed then (s.updStrait k (fun x => { x with mode := v, ide := false }), .done)
     else
       let s := (goDown k s).updStrait k (fun x => { x with mode := v, ide := false, trainFails := 0, link := if v = 0 ∨ !hubUp s then .off else .detect })
       (if v = 1 ∧ hubUp s then beginTraining k s else s, .done))
def execStraitModeWrite (q : Req) (k : StraitId) (v : Byte) (s : State) : Res := software s (answer q (flashed q true s (opStraitMode q k v s)))

/-! Flits (R271 to R274). -/

/-- The receiver discards the flit and asks once for a resend from the one it expects (R273). -/
def askResend (k : StraitId) (s : State) : State :=
  if s.fab.straits[k].nakSent then s
  else (s.updStrait k (fun x => { x with nakSent := true })).emit [.nak k ((s.fab.straits[k].rxIndex + 4095) % 4096)]

/-- Index of the oldest flit kept for replay; the next to send where none is. -/
def Strait.oldest (x : Strait) : Nat := match x.replay with | f :: _ => f.index | [] => x.txIndex

/-- The flits up to the one acknowledged are no longer kept (R273): `ack` is modulo 4,096, and names a flit that has been sent. -/
def Strait.acked (ack : Nat) (x : Strait) : Strait :=
  let d := (ack + 1 + 4096 - x.oldest % 4096) % 4096
  if d ≤ x.replay.length ∧ d ≠ 0 then { x with replay := x.replay.drop d, replayFails := 0 } else x

/-- Credits returned in a flit header (R274); codes 5 to 7 are reserved and return none. -/
def Strait.credited (vc slots : Nat) (x : Strait) : Strait :=
  { x with credit := if h : vc < 5 then x.credit.set vc (x.credit[vc] + slots) else x.credit }

/-- Slots of a flit come into this end's buffers, per channel. -/
def Strait.takes (slots : List (Nat × Nat)) (x : Strait) : Strait :=
  slots.foldl (fun x c => { x with held := if h : c.1 < 5 then x.held.set c.1 (x.held[c.1] + c.2) else x.held }) x

/-- An accepted flit: the index, acknowledgement and credits, and the slots of a DATA flit. -/
def Strait.flit (f : Flit) (x : Strait) : Strait :=
  let x := { x with rxIndex := x.rxIndex + 1, nakSent := false }
  if f.kind = 3 ∨ f.reserved ≠ 0 then x
  else
    let x := (x.acked f.ackFseq.toNat).credited f.creditVc.toNat f.creditSlots.toNat
    if f.kind = 0 then { x.takes f.slots with counters := bump x.counters 5 ((f.slots.map (·.2)).foldl (· + ·) 0) } else x

/-- The flits after the one that a NAK names are resent in order, as they were first sent (R273, R307, R309). A NAK for the same flit again is one more failed replay (R278). -/
def nakIn (k : StraitId) (ack : BitVec 12) (s : State) : State :=
  let old := s.fab.straits[k].oldest
  let x := s.fab.straits[k].acked ack.toNat
  (s.updStrait k (fun _ => { x with counters := bump x.counters 2 x.replay.length, replayFails := if x.oldest = old then x.replayFails + 1 else 0 })).emit
    [.flitsResent k x.replay]

/-- A flit as decrypted under the index expected next (R271 to R274): uncorrectable or out of sequence it is discarded with one NAK, otherwise accepted; KIND NAK asks for a resend too, and credit lets waiting packets go.
A reserved KIND or bit leaves its place in the sequence and nothing else (log 106). -/
def flitIn (k : StraitId) (f : Flit) (s : State) : State :=
  if !f.correctable then askResend k (s.updStrait k (fun x => { x with counters := bump x.counters 1 1 }))
  else
    let s := s.updStrait k (fun x => { x with counters := bump x.counters 0 f.corrected })
    if f.fseq.toNat ≠ s.fab.straits[k].rxIndex % 4096 then askResend k s
    else if f.kind = 2 ∧ f.reserved = 0 then nakIn k f.ackFseq (s.updStrait k (fun x => { x with rxIndex := x.rxIndex + 1, nakSent := false }))
    else drainQueue k (s.updStrait k (Strait.flit f))

/-- Flits flow: a hop key is installed, and before that the strait carries only the handshake (R272). -/
def flitsFlow (s : State) (k : StraitId) : Bool := hubUp s && s.fab.straits[k].link = .up
/-- The strait is trained (R275). -/
def flowing (s : State) (k : StraitId) : Bool := hubUp s && (s.fab.straits[k].link = .up || s.fab.straits[k].link = .handshake)

def execFlitReceive (k : StraitId) (f : Flit) (s : State) : Res := need (flitsFlow s k) (flitIn k f s)

/-- A NAK flit (R271, R273). -/
def execNakReceive (k : StraitId) (ack : BitVec 12) (s : State) : Res := need (flitsFlow s k) (nakIn k ack s)

/-- A packet has been taken out of the receive buffers: its slots are owed as credit (R274). -/
def returnSlots (k : StraitId) (vc slots : Nat) (s : State) : State :=
  s.updStrait k (fun x => if h : vc < 5 then { x with held := x.held.set vc (x.held[vc] - slots), owed := x.owed.set vc (x.owed[vc] + min slots x.held[vc]) } else x)

/-! Lanes (R276, R277, R505). -/

/-- A lane swap (R276): the lane's traffic moves to lane 8 from the agreed index on, at once where the next flit has reached it; the LANE_SWAP ordered set carries the index, and the lane is struck. -/
def execLaneSwap (k : StraitId) (lane : Fin 9) (index : Nat) (s : State) : Res :=
  need (flowing s k && s.fab.straits[k].spare = 0xFF && s.fab.straits[k].swap.isNone && s.fab.straits[k].width = 8 && lane.val ≠ 8)
    (State.emit { s.updStrait k (fun x => Strait.swapped { x with swap := some (lane, index), badLanes := lane :: x.badLanes }) with
      ras := s.ras.strike (frameNow s) (laneUnit k lane.val) lane.val } [.laneSwap k lane index])

/-- A second lane fails while the spare is in use (R277): the strait retrains to 4 lanes, or goes down with fewer than 4 healthy lanes. -/
def execLaneRetrainNarrow (k : StraitId) (lane : Fin 9) (s : State) : Res :=
  need (flowing s k && (s.fab.straits[k].spare ≠ 0xFF || s.fab.straits[k].swap.isSome) && !s.fab.straits[k].badLanes.contains lane)
    (let s := { s.updStrait k (fun x => { x with badLanes := lane :: x.badLanes }) with ras := s.ras.strike (frameNow s) (laneUnit k lane.val) lane.val }
     if 9 - (faultyLanes s k).length < 4 then goDown k s else beginTraining k (goDown k s))

/-- The strait goes down (R278). -/
def execStraitDown (k : StraitId) (c : DownCause) (s : State) : Res :=
  need (flowing s k && (c ≠ .replayFailed || 8 ≤ s.fab.straits[k].replayFails)) (goDown k s)

/-- The switch of one direction to the next hop-key generation from a flit index on (R309, R432, R433): its slot takes the next key, and the previous one stands beside it. -/
def switchHopKey (k : StraitId) (tx : Bool) (index : Nat) (s : State) : State :=
  let g := (if tx then s.fab.straits[k].hopGen.1 else s.fab.straits[k].hopGen.2) + 1
  let s := s.updStrait k (fun x => { x with hopGen := if tx then (g, x.hopGen.2) else (x.hopGen.1, g), hopSwitch := if tx then (some index, x.hopSwitch.2) else (x.hopSwitch.1, some index) })
  match findKey s.keys 0x40 0x16 (hopTag k.val (!tx)) with
  | some (i, old) =>
    setModuleKey 0x40 0x16 (prevHopTag k.val (!tx)) old.value
      { s with keys := { s.keys with slots := alSet i { old with value := nextGenKey old.value g, epoch := g % 256 } s.keys.slots } }
  | none => s

/-- Both ends switch hop-key generation at an agreed flit index. Flits kept for replay stand as they were encrypted. -/
def execHopKeyNextGeneration (k : StraitId) (tx : Bool) (index : Nat) (s : State) : Res :=
  need (flitsFlow s k && (findKey s.keys 0x40 0x16 (hopTag k.val (!tx))).isSome) (switchHopKey k tx index s)

/-! Causeways (R294, R295). -/

/-- CAUSEWAY_STATS of a causeway: those of the hub causeways come first (log 12). -/
def cswStat (c : Fin 8) (kind n : Nat) (v : Vector (BitVec 64) 8) : Vector (BitVec 64) 8 := bump v ((if c.val < 4 then 0 else 4) + kind) n

/-- The causeway links two dies that are up: its array dies by R483, and the hub for the first four. -/
def cswDies : Nat → List (Fin 5)
  | 0 => [0, 4] | 1 => [1, 4] | 2 => [2, 4] | 3 => [3, 4] | 4 => [0, 1] | 5 => [1, 3] | 6 => [3, 2] | _ => [2, 0]

def cswUp (s : State) (c : Fin 8) : Bool := !s.fab.causeways[c].failed && (cswDies c.val).all (fun d => s.pow.domains[d] = .up)

/-! Paths (R295). -/

/-- The causeway that joins two dies. -/
def cswBetween (a b : DieId) : Option (Fin 8) := (List.finRange 8).find? (fun c => cswDies c.val = [a, b] || cswDies c.val = [b, a])
/-- The two legs from one die to another by way of a third, where both work. -/
def legs (s : State) (a m b : DieId) : Option (List (Fin 8)) :=
  match cswBetween a m, cswBetween m b with
  | some c, some d => if cswUp s c ∧ cswUp s d then some [c, d] else none
  | _, _ => none
/-- The path between two dies, and whether it is a detour: the direct causeway; where it has failed, by way of a neighbouring array die (traffic with the hub) or of the hub (between neighbours).
Dies without a causeway are relayed by the hub, or by their lower-numbered common neighbour that works. -/
def cswPath (s : State) (a b : DieId) : Option (List (Fin 8) × Bool) :=
  if a = b then none
  else match cswBetween a b with
  | some c =>
    if cswUp s c then some ([c], false)
    else (([4, 0, 1, 2, 3] : List DieId).filterMap (fun m => legs s a m b)).head?.map (fun p => (p, true))
  | none => match legs s a 4 b with
    | some p => some (p, false)
    | none => (([0, 1, 2, 3] : List DieId).filterMap (fun m => legs s a m b)).head?.map (fun p => (p, true))

/-- Direction of a causeway towards a die: its second die, or its first. -/
def cswTo (c : Fin 8) (d : DieId) : Nat := if (cswDies c.val).head? = some d then 0 else 1
/-- One of the two directions, and its change. -/
def bySide {α : Type} (dir : Nat) (x : α × α) : α := if dir = 0 then x.1 else x.2
def onSide {α : Type} (dir : Nat) (v : α) (x : α × α) : α × α := if dir = 0 then (v, x.2) else (x.1, v)
/-- The die at which a leg of a path ends. -/
def legEnd (c : Fin 8) (from' : DieId) : DieId := ((cswDies c.val).find? (fun d => d ≠ from')).getD from'

/-- The key of a causeway and direction (R432). -/
def cswKey (s : State) (c : Fin 8) (dir : Nat) : Bytes := ((findKey s.keys 0x40 0x15 (2 * c.val + dir)).map (·.2.value)).getD []
/-- A 256-byte unit under AES-256-GCM with its index as the nonce and its tag cut to 64 bits (R294). -/
def sealUnit (key : Bytes) (index : Nat) (b : Bytes) : Bytes := (Config.gcmSeal key index [] b).take (b.length + 8)

/-- The sealed unit of an index is kept with the last 1,024 for replay. -/
def Causeway.keep (dir i : Nat) (u : Bytes) (x : Causeway) : Causeway :=
  let l := bySide dir x.replay ++ [(i, u)]
  { x with sent := onSide dir (i + 1) x.sent, replay := onSide dir (l.drop (l.length - 1024)) x.replay }
/-- The unit of an index as it is kept for replay. -/
def Causeway.kept (dir i : Nat) (x : Causeway) : Bytes := (((bySide dir x.replay).reverse.find? (fun u => u.1 = i)).map (·.2)).getD []

/-- A unit is sent on a causeway under an index. -/
def cswSend (c : Fin 8) (dir i : Nat) (b : Bytes) (s : State) : State :=
  { s with fab := { s.fab with causeways := modVec s.fab.causeways c (Causeway.keep dir i (sealUnit (cswKey s c dir) i b)) } }
/-- The unit that arrives was sent: one that was relayed, or that is resent, has its index already. -/
def cswSent (c : Fin 8) (dir : Nat) (b : Bytes) (s : State) : State :=
  if bySide dir s.fab.causeways[c].next < bySide dir s.fab.causeways[c].sent then s else cswSend c dir (bySide dir s.fab.causeways[c].next) b s

/-- A unit is accepted: counted, and its direction's index moves on. -/
def cswTake (c : Fin 8) (dir : Nat) (s : State) : State :=
  { s with fab := { s.fab with
     causeways := modVec s.fab.causeways c (fun x => { x with resendRun := 0, next := onSide dir (bySide dir x.next + 1) x.next }),
     causewayStats := cswStat c 0 1 s.fab.causewayStats } }

/-- A die that is not the unit's last passes it on, sealed under the leaving causeway's key; the hub's ordinary relay and a detour are counted apart. -/
def cswRelay (c d : Fin 8) (at' : DieId) (detour : Bool) (b : Bytes) (s : State) : State :=
  let dir := cswTo d (legEnd d at')
  let i := bySide dir s.fab.causeways[d].sent
  let s := cswSend d dir i b s
  State.emit { s with fab := { s.fab with causewayStats := cswStat c (if detour then 3 else 2) 1 s.fab.causewayStats } } [.cswUnit d i (s.fab.causeways[d].kept dir i)]

/-- A unit on its way from die `a` to die `b` is received on a causeway of its path: accepted and, before its last die, relayed; one whose tag fails is resent as it is kept for replay, which is counted and changes no byte delivered (R294, R295). -/
def cswUnitIn (c : Fin 8) (a : DieId) (path : List (Fin 8)) (detour tagOk : Bool) (unit : Bytes) (s : State) : State :=
  let first := path.head? = some c
  let at' := if first then legEnd c a else (path.head?.map (fun p => legEnd c (legEnd p a))).getD a
  let dir := cswTo c at'
  let s := cswSent c dir unit s
  if tagOk then
    match (if first then path.drop 1 else []) with
    | d :: _ => cswRelay c d at' detour unit (cswTake c dir s)
    | [] => cswTake c dir s
  else
    State.emit { s with fab := { s.fab with
      causeways := modVec s.fab.causeways c (fun x => { x with resendRun := x.resendRun + 1 }),
      causewayStats := cswStat c 1 1 s.fab.causewayStats } } [.cswResend c (bySide dir s.fab.causeways[c].next) (s.fab.causeways[c].kept dir (bySide dir s.fab.causeways[c].next))]

def execCausewayUnitReceive (c : Fin 8) (a b : DieId) (unit : CswUnit) (s : State) : Res :=
  match cswPath s a b with
  | some (path, detour) => need (cswUp s c && path.contains c && unit.bytes.length = 256) (cswUnitIn c a path detour unit.tagOk unit.bytes s)
  | none => .fault .noCause

/-- A die with no working causeway is marked failed, and its logical arrays are lost (R295, R502). -/
def loseDie (d : Fin 4) (s : State) : State :=
  let cs := (List.finRange 8).filter (fun c => (cswDies c.val).contains ⟨d.val, by omega⟩)
  if cs.all (fun c => s.fab.causeways[c].failed) then
    { s with pow := { s.pow with domains := s.pow.domains.set d.val .failed },
             ras := { s.ras with lostPending := (s.ras.lostPending ++ (List.range 32).map (fun i => 32 * d.val + i)).dedup } }
  else s

/-- Sixteen resends of one unit have failed (R295, R505): the causeway is failed and struck. -/
def execCausewayFail (c : Fin 8) (s : State) : Res :=
  need (cswUp s c && 16 ≤ s.fab.causeways[c].resendRun)
    (let s := { s with fab := { s.fab with causeways := modVec s.fab.causeways c (fun x => { x with failed := true }) },
                       ras := s.ras.strike (frameNow s) (0x6000 + c.val) 0 }
     (List.finRange 4).foldl (fun s d => if (cswDies c.val).contains ⟨d.val, by omega⟩ then loseDie d s else s) s)

/-! Routes and queries (R281, R287). -/

/-- A route entry's form: reserved bits zero and every valid candidate a strait. -/
def routeOk (w : BitVec 32) : Bool := w.toNat < 2 ^ 24 && (validCands w).all (fun i => decide (candStrait w i < 18))

/-- A write of ROUTE_ENTRY for the destination of ROUTE_DEST. -/
def opRouteEntry (q : Req) (w : BitVec 32) (s : State) : State × Status :=
  guarded s 0x6021 (isOperator s q && routeOk w)
    ({ s with fab := { s.fab with routes := alPut 0 (perOf s q).routeDest.toNat w s.fab.routes } }, .done)

/-- ROUTE_ENTRY is written with a value, or read without one. -/
def execRouteEntryAccess (q : Req) (value : Option (BitVec 32)) (s : State) : Res :=
  software s (match value with
    | some w => answer q (flashed q true s (opRouteEntry q w s))
    | none => answerData q 0x6021 2 (if served s 0x6021 && opOrMaker s q then (s, .done, leBytes 4 (routeOf s (perOf s q).routeDest).toNat) else (s, .denied, [])))

/-- A write of FLOW_QUERY_ID: a TENANT names only contexts of its own partition. -/
def opFlowQuery (q : Req) (id : BitVec 32) (s : State) : State × Status :=
  let mine := match findSess s q, getFlow s id.toNat with
    | some x, some f => roleOf s q = .tenant && x.bound && (x.part.map (·.val)) = some f.owner
    | _, _ => false
  guarded s 0x6040 (id.toNat < 262144 && (isOperator s q || mine)) (updPer q (fun x => { x with flowQuery := id }) s, .done)
def execFlowQuery (q : Req) (id : BitVec 32) (s : State) : Res := software s (answer q (opFlowQuery q id s))

def FlowState.code : FlowState → Nat | .free => 0 | .opening => 1 | .opened => 2 | .closing => 3 | .lost => 4 | .revoked => 5

/-- The record of a flow context (R287). -/
def flowRecord (x : Flow) : Bytes :=
  let ids := ((x.peerFlow * 2 ^ 16 + x.peer.toNat) * 2 ^ 8 + x.owner) * 2 ^ 24 + x.txKey * 2 ^ 12 + x.rxKey
  let mask := ((x.classes.dedup.filter (fun c => 1 ≤ c && c ≤ 9)).map (fun c => 2 ^ (c - 1))).foldl (· + ·) 0
  leBytes 32 (x.txPsn % 2 ^ 48 * 2 ^ 208 + x.ackedPsn % 2 ^ 48 * 2 ^ 160 + x.rxPsn % 2 ^ 48 * 2 ^ 112 + ids * 2 ^ 46 + mask * 2 ^ 37 + x.route % 4 * 2 ^ 35 +
    (if x.keygen then 2 ^ 34 else 0) + x.retries % 16 * 2 ^ 30 + x.lastStatus.toNat * 2 ^ 8 + x.state.code)

end Sys2Proof.Machine
end

