-- ==== Sys2Proof/Machine/Packets.lean ====
section
/-!
DEFINITION. Machine/Packets.lean: how a packet is received or forwarded (R281 to R284, R288, R290), the memory packets (R283, R289, R402), retries and lost flows (R284, R288, R308), key generations (R285) and WAKE (R304).
-/

namespace Sys2Proof.Machine

/-! The gate of every packet. -/

def Fabric.drop (f : Fabric) : Fabric := { f with dropped := f.dropped + 1 }

/-- What a partition has written to T2 is visible in the hall: its homes have acknowledged every sector (R188, R253, R289). -/
def outputsVisible (s : State) (p : PartId) : Bool :=
  s.fab.flows.all (fun x => (x.2.owner ≠ p.val && x.2.owner ≠ 0x40) || x.2.unacked.all (fun o => o.cls ≠ 2 && o.cls ≠ 3))

/-- A packet for another device (R281): forwarded on its candidate with HOPS decremented, or dropped as UNROUTABLE. -/
def forwardPkt (p : Pkt) (cls op len : Nat) (s : State) : State :=
  let lost : State := { s with fab := { s.fab with unroutable := s.fab.unroutable + 1 } }
  if p.hops = 0 then lost
  else match liveRoute s p.dest p.flow with
    | some k => if h : k < 18 then sendOn ⟨k, h⟩ (.through p cls op len) s else lost
    | none => lost

/-- A packet for a revoked context (R290, R451): counted as KEY_REVOKED, in its partition's removal too, and not acknowledged. -/
def dropRevoked (x : Flow) (s : State) : State :=
  let s := { s with fab := { s.fab with keyRevoked := s.fab.keyRevoked + 1 } }
  match partOf x.owner with
  | some p => s.updPart p (fun y => { y with removal := y.removal.map (fun r => { r with dropped := r.dropped + 1 }) })
  | none => s

/-- The acknowledgement that a packet carries (R288): packets up to it are done with, and progress ends the retries. -/
def Flow.takeAck (p : Pkt) (x : Flow) : Flow :=
  if p.ackValid ∧ x.ackedPsn ≤ p.ackPsn ∧ p.ackPsn < x.txPsn then
    { x with ackedPsn := p.ackPsn, retries := if x.unacked.any (fun o => o.psn ≤ p.ackPsn) then 0 else x.retries, unacked := x.unacked.filter (fun o => p.ackPsn < o.psn) }
  else x

/-- A failed tag (R284): counted, and the expected PSN's run of failures grows. -/
def tagFailed (p : Pkt) (x : Flow) (s : State) : State :=
  let s := { s with fab := { s.fab with tagFailures := s.fab.tagFailures + 1 } }
  if p.psn = x.rxPsn then setFlow p.flow { x with tagFails := x.tagFails + 1 } s else s

/-- Posted writes of an endpoint that are not acknowledged (R301). -/
def openPosts (s : State) (k : StraitId) : List (StraitId × Nat × Nat) :=
  s.fab.hostPosts.filter (fun q => q.1 = k && (match getFlow s q.2.1 with | some x => x.unacked.any (fun o => o.psn = q.2.2) | none => false))

/-- Every write posted before a host read has been acknowledged. -/
def HostWait.clear (s : State) (h : HostWait) : Bool := h.after.all (fun q => !(openPosts s h.strait).contains q)

/-- Host reads that have their bytes, or have failed, complete once every earlier posted write is acknowledged (R300, R301); a failed one completes with Completer Abort. -/
def flushHost (s : State) : State :=
  let fin (h : HostWait) : Bool := (h.failed || h.tags.all (fun t => (alGet t h.got).isSome)) && h.clear s
  let outs := (s.fab.hostWaits.filter fin).map (fun h =>
    if h.failed then Output.hostAbort h.strait
    else Output.hostData h.strait (slice (h.tags.flatMap (fun t => (alGet t h.got).getD [])) h.off h.len))
  { s with fab := { s.fab with hostWaits := s.fab.hostWaits.filter (fun h => !fin h) } }.emit outs

/-- The key generation of a packet is held: the current one, or the previous one until all that was sent under it has been acknowledged (R285). -/
def Flow.holds (p : Pkt) (x : Flow) : Bool := p.keygen = x.keygen || x.oldKeys.isSome
/-- The previous generation is dropped when a packet of the current one is accepted and nothing sent under the previous one is unacknowledged. -/
def Flow.dropOld (p : Pkt) (x : Flow) : Flow := if p.keygen = x.keygen ∧ x.unacked.all (fun o => o.keygen = x.keygen) then { x with oldKeys := none } else x

/-- A packet addressed to this module (R283, R284, R288, R290). `ok`: its fields keep the rules of its class. `eff`: what an accepted packet does. -/
def deliverPkt (p : Pkt) (cls : Nat) (ok : Bool) (eff : State → State) (s : State) : State :=
  match getFlow s p.flow with
  | none => { s with fab := s.fab.drop }
  | some x =>
    if x.state = .revoked then dropRevoked x s
    else if (x.state ≠ .opened ∧ x.state ≠ .closing) ∨ p.reserved ≠ 0 ∨ p.stray ∨ !x.classes.contains cls ∨ !ok then { s with fab := s.fab.drop }
    else if !p.tagOk ∨ !x.holds p then tagFailed p x s
    else
      let x := x.takeAck p
      if p.psn = x.rxPsn then
        sendAck p.flow p.psn (eff (flushHost (setFlow p.flow ({ x with rxPsn := x.rxPsn + 1, tagFails := 0, used := frameNow s }.dropOld p) s)))
      else if p.psn < x.rxPsn then sendAck p.flow (x.rxPsn - 1) (flushHost (setFlow p.flow x s))
      else flushHost (setFlow p.flow x s)

/-- The packet is for this module: a hop flow reaches only the neighbour; every other packet names its device (R280, R281, R286). -/
def forMe (s : State) (p : Pkt) : Bool := p.flow < 18 || (s.fab.idInForce ≠ 0xFFFF && p.dest = s.fab.idInForce)

/-- A packet that arrives on a strait that is up: its slots are freed (R274), and it is delivered, forwarded, or dropped by a module without a device ID. -/
def recvPkt (p : Pkt) (cls op len : Nat) (ok : Bool) (eff : State → State) (s : State) : State :=
  let s := returnSlots p.strait (vcOf cls op) (slotsOf len) s
  if forMe s p then deliverPkt p cls ok eff s
  else if s.fab.idInForce = 0xFFFF ∨ p.reserved ≠ 0 then { s with fab := s.fab.drop }
  else forwardPkt p cls op len s

/-- A packet arrives only on a strait that is up. -/
def onStrait (p : Pkt) (s t : State) : Res := need (hubUp s && s.fab.straits[p.strait].link = .up) t

/-! Sectors on the wire. -/

/-- LEN of a packet that carries `n` sectors with their tags (R283). -/
def sectorsLen (n : Nat) : Nat := roundUp (264 * n) 32
/-- The payload: each sector's ciphertext and then its tag, padded with zero (log 15). -/
def sectorsBytes (l : List StoredSector) : Bytes :=
  let b := l.flatMap (fun x => sectorBytes x.cipher ++ leBytes 8 x.tag.toNat)
  b ++ zeros (sectorsLen l.length - b.length)

/-- The rules of R235 for an address in a packet. -/
def gaddrOk (g : GAddr) : Bool := g.device ≠ 0xFFFF && g.space ≠ 0 && g.space ≠ 3

/-- The range of this module's lent memory holds `n` sectors from the address (R236). -/
def lentHolds (s : State) (g : GAddr) (n : Nat) : Bool :=
  g.device = s.fab.idInForce && g.space = 1 && g.off.toNat + 256 * n ≤ s.mem.lendBytes.toNat

def lentAt (m : Mem) (i : Nat) : StoredSector := (alGet i m.lent).getD { cipher := 0, tag := 0 }

/-- Host memory behind this ferry is reached (R302): a strait of the ferry is in HOST mode. -/
def hostBehind (s : State) : Bool := isFerry s && (s.fab.straits[16].link = .host || s.fab.straits[17].link = .host)

/-! MEMRD (R283, R289). -/

/-- The CSF of a data or error response. -/
def respCsf (st : Status) (tag : Byte) : Nat := st.code * 256 + tag.toNat

/-- The read that waits on a flow with a tag. -/
def waitOf (s : State) (f : Nat) (tag : Byte) : Option WaitRead := s.mem.waits.find? (fun w => w.flow = f && w.tag = tag.toNat)

/-- A waiting read fails (R263, R402): poison, an audit entry, and a home that is lost or failed waits for its replacement. -/
def failWait (w : WaitRead) (st : Status) (s : State) : State :=
  let home := match s.vm.leaf w.part w.va with
    | some l => (match l.loc with | .t2 h k => [t2Home s.mem h k (256 * sectorOf w.va)] | _ => [])
    | none => []
  -- a line that its lender found uncorrectable leaves the sector POISONED, for this read and the others that wait on it (R393, R411)
  if st = .uncorrectable then s.putVM (s.vm.markPoisoned w.part w.va st) else
  let s := s.putVM ((s.vm.audit (auditOf 2 st w.part.val (w.va / 256 * 256) 256)).event w.part st)
  let s := if st = .linkLost ∨ st = .peerFailed then { s with mem := { s.mem with failedHomes := (home ++ s.mem.failedHomes).dedup } } else s
  finishWait w none st s

/-- Data for a waiting read (R402): tag and key of the generation that the read took. -/
def dataWait (w : WaitRead) (x : StoredSector) (s : State) : State :=
  let v := s.vm
  let r := v.region w.part (pageOf w.va)
  let epoch := if w.gen = r.gen then r.epoch.toNat else r.oldEpoch.toNat
  match (v.leaf w.part w.va).bind (fun l => v.baseKey w.part l epoch) with
  | none => finishWait w none .keyRevoked s
  | some base =>
    match openSector (kmat base (pageOf w.va) w.gen epoch) (lbnOf w.va) w.ctr x with
    | some d => finishWait w (some d) .done s
    -- the read that brought the data ends with the others that wait on the sector (R421)
    | none => s.putVM (v.markPoisoned w.part w.va .integrity)

/-- A host read waits on the flow for the tag (R300). -/
def hostWaitOf (s : State) (f : Nat) (tag : Byte) : Bool := s.fab.hostWaits.any (fun h => h.flow = f && h.tags.contains tag.toNat)

/-- What came for a host read, or its failure with the status in the fault audit (R300). -/
def hostTake (f : Nat) (tag : Byte) (st : Status) (data : Bytes) (s : State) : State :=
  let s := { s with fab := { s.fab with hostWaits := s.fab.hostWaits.map (fun h =>
    if h.flow = f ∧ h.tags.contains tag.toNat then (if st = .done then { h with got := alSet tag.toNat data h.got } else { h with failed := true }) else h) } }
  if st = .done then s else s.putVM (s.vm.audit (auditOf 4 st 0x40 0 0))

/-- A MEMRD data packet (R283, R402): the first sector answers the read with its tag; a packet that no read waits for changes nothing more. -/
def takeData (f : Nat) (st tag : Byte) (data : List StoredSector) (s : State) : State :=
  if hostWaitOf s f tag then
    flushHost (hostTake f tag (if st = 0 then .done else (Status.ofCode st.toNat).getD .internal) (data.flatMap (fun x => sectorBytes x.cipher)) s)
  else match waitOf s f tag with
  | none => s
  | some w =>
    match data with
    | x :: _ => if st = 0 then dataWait w x s else failWait w ((Status.ofCode st.toNat).getD .internal) s
    | [] => failWait w ((Status.ofCode st.toNat).getD .internal) s

def execMemrdData (p : Pkt) (st tag : Byte) (data : List StoredSector) (s : State) : Res :=
  onStrait p s (recvPkt p 1 1 (sectorsLen data.length) true (takeData p.flow st tag data) s)

def takeError (f : Nat) (st tag : Byte) (s : State) : State :=
  if hostWaitOf s f tag then flushHost (hostTake f tag (match (Status.ofCode st.toNat).getD .internal with | .done => .internal | c => c) [] s)
  else match waitOf s f tag with
  | some w => failWait w ((Status.ofCode st.toNat).getD .internal) s
  | none => s

/-- A MEMRD error packet ends the waiting read with its status (R283). -/
def execMemrdError (p : Pkt) (st tag : Byte) (s : State) : Res :=
  onStrait p s (recvPkt p 1 2 0 true (takeError p.flow st tag) s)

/-! MEMWR and ATOMIC (R289). -/

/-- Store sectors in the lent range. -/
def lentStore (i : Nat) : List StoredSector → Mem → Mem
  | [], m => m
  | x :: r, m => lentStore (i + 1) r { m with lent := alSet i x m.lent }

/-- A sector CAS (R289): the sector is replaced only when its stored tag is the expected one; the sector found comes back either way. -/
def casSector (p : Pkt) (g : GAddr) (tag : Byte) (expected : BitVec 64) (new : StoredSector) (s : State) : State :=
  if s.pow.mod = .doze then sendPkt p.flow 3 1 (respCsf .denied tag) [] s else
  let i := g.off.toNat / 256
  let old := lentAt s.mem i
  let s := if old.tag = expected then { s with mem := lentStore i [new] s.mem } else s
  sendPkt p.flow 3 1 (respCsf .done tag) (sectorsBytes [old]) s

def execAtomicSectorCas (p : Pkt) (g : GAddr) (tag : Byte) (expected : BitVec 64) (new : StoredSector) (s : State) : Res :=
  onStrait p s (recvPkt p 3 0 288 (gaddrOk g && g.off.toNat % 256 = 0 && lentHolds s g 1) (casSector p g tag expected new) s)

/-- An ATOMIC result ends the sector CAS that waits for it (R289). A CAS that its home did not carry out leaves the home's copy behind: the failure is audited. -/
def takeCas (p : Pkt) (st tag : Byte) (s : State) : State :=
  if s.mem.casWaits.contains (p.flow, tag.toNat) then
    let s := { s with mem := { s.mem with casWaits := s.mem.casWaits.erase (p.flow, tag.toNat) } }
    if st = 0 then s else s.putVM (s.vm.audit (auditOf 2 ((Status.ofCode st.toNat).getD .internal) 0x40 0 0))
  else s

def execAtomicResult (p : Pkt) (st tag : Byte) (_stored : StoredSector) (s : State) : Res :=
  onStrait p s (recvPkt p 3 1 (sectorsLen 1) true (takeCas p st tag) s)

/-! Acknowledgements, retries and lost flows. -/

/-- A pure acknowledgement (R283, R288): it takes no place in the PSN order and is not acknowledged (log 17). -/
def takePureAck (p : Pkt) (cls : Nat) (s : State) : State :=
  let s := returnSlots p.strait (if p.flow < 18 then 0 else vcOf cls 15) 1 s
  if forMe s p then
    match getFlow s p.flow with
    | none => { s with fab := s.fab.drop }
    | some x =>
      if x.state = .revoked then dropRevoked x s
      else if p.reserved ≠ 0 ∨ p.stray ∨ !x.classes.contains cls ∨ !p.ackValid then { s with fab := s.fab.drop }
      else if !p.tagOk ∨ !x.holds p then tagFailed p x s
      else flushHost (setFlow p.flow (x.takeAck p) s)
  else if s.fab.idInForce = 0xFFFF then { s with fab := s.fab.drop }
  else forwardPkt p cls 15 0 s

def execPureAckReceive (p : Pkt) (cls : Nat) (s : State) : Res := onStrait p s (takePureAck p cls s)

/-- Mailbox requests to a device end with a status and no response (R565). -/
def mailLost (peer : Device) (st : Status) (s : State) : State :=
  let mine := s.fab.mailbox.filter (fun m => m.2.2.2 = peer)
  State.emit { s with fab := { s.fab with mailbox := s.fab.mailbox.filter (fun m => m.2.2.2 ≠ peer) } }
    (mine.map (fun m => Output.mailboxDone m.1 m.2.1 st (1 + m.2.1.val % 7)))

/-- The partition that a flow serves: its owner, or the one of its session. -/
def flowPart (s : State) (x : Flow) : Option PartId :=
  match partOf x.owner with | some p => some p | none => x.session.bind (fun i => (alGet i s.bind.sessions).bind (·.part))

/-- Writes, sector CASes and contributions that a flow has not had acknowledged end with a status (R288): each write in the fault audit, and the status counted for the partition. -/
def endSends (x : Flow) (st : Status) (s : State) : State :=
  if x.unacked.isEmpty then s
  else
    let v := (x.unacked.filter (fun o => o.cls = 2 || o.cls = 3)).foldl (fun v _ => v.audit (auditOf 1 st ((flowPart s x).elim 0x40 (·.val)) 0 0 (device := x.peer.toNat))) s.vm
    s.putVM (match flowPart s x with | some p => v.event p st | none => v)

/-- Host reads that wait on a flow, for data or for a write posted on it, have failed. -/
def failHost (f : Nat) (x : Flow) (s : State) : State :=
  { s with fab := { s.fab with hostWaits := s.fab.hostWaits.map (fun h =>
      if h.flow = f ∨ h.after.any (fun q => q.2.1 = f && x.unacked.any (fun o => o.psn = q.2.2)) then { h with failed := true } else h) } }

/-- Every operation that waits on a flow ends with a status (R284, R288, R308): sector reads, sector CASes, writes and contributions, host reads, and mailbox requests. `x` is the context as it was; its packets are no longer kept. -/
def endFlowOps (f : Nat) (x : Flow) (st : Status) (s : State) : State :=
  let s := (s.mem.waits.filter (fun w => w.flow = f)).foldl (fun s w => failWait w st s) s
  let s := { s with mem := { s.mem with casWaits := s.mem.casWaits.filter (fun c => c.1 ≠ f) } }
  let s := flushHost (failHost f x (endSends x st s))
  if x.classes.contains 8 then mailLost x.peer st s else s

/-- A flow is lost with a status (R284, R288). -/
def loseFlow (f : Nat) (x : Flow) (st : Status) (s : State) : State :=
  endFlowOps f x st (setFlow f { x with state := .lost, lastStatus := BitVec.ofNat 8 st.code, retries := if st = .linkLost then 8 else x.retries, unacked := [] } s)

/-- 32 us without progress (R288): resend from ACKED_PSN + 1 on the next candidate; at 8 retries the flow is LOST. On a revoked context nothing is resent, and what waits on it ends (R308). -/
def retryFlow (f : Nat) (x : Flow) (s : State) : State :=
  if x.state = .revoked then endFlowOps f x .keyRevoked (setFlow f { x with unacked := [] } s)
  else if 8 ≤ x.retries + 1 then loseFlow f x .linkLost s
  else
    let y := { x with retries := x.retries + 1, route := nextCand (routeOf s x.peer) x.route }
    x.unacked.foldl (fun s o => routePkt o true y s) (setFlow f y s)

/-- Something waits on a flow. -/
def flowBusy (s : State) (f : Nat) (x : Flow) : Bool :=
  !x.unacked.isEmpty || s.mem.waits.any (fun w => w.flow = f) || s.mem.casWaits.any (fun c => c.1 = f) || s.fab.hostWaits.any (fun h => h.flow = f) ||
    (x.classes.contains 8 && s.fab.mailbox.any (fun m => m.2.2.2 = x.peer))

/-- The flow has packets that wait for an acknowledgement, or is revoked with operations waiting. -/
def mayRetry (s : State) (f : Nat) : Bool :=
  match getFlow s f with
  | some x => (x.state = .opened && !x.unacked.isEmpty) || (x.state = .revoked && flowBusy s f x)
  | none => false

def execFlowRetryTimeout (f : Nat) (s : State) : Res :=
  need (hubUp s && mayRetry s f) (match getFlow s f with | some x => retryFlow f x s | none => s)

/-- Eight failures of one PSN (R284): the flow is lost with INTEGRITY, and the alert is raised. -/
def execFlowIntegrityLost (f : Nat) (s : State) : Res :=
  need (match getFlow s f with | some x => x.state = .opened && 8 ≤ x.tagFails | none => false)
    (match getFlow s f with
     | some x =>
       let s := loseFlow f x .integrity s
       s.putVM ((s.vm.audit (auditOf 8 .integrity x.owner 0 0 (device := x.peer.toNat))).alert x.owner)
     | none => s)

/-- One direction of a flow moves to its next generation (R285, R433): the derived key takes a slot of its own beside the previous one; where no shared slot is free the flow goes on under its key (log 108). -/
def nextFlowKey (f slot : Nat) (rx : Bool) (s : State) : State × Nat :=
  match alGet slot s.keys.slots with
  | none => (s, slot)
  | some k =>
    match addKey (256 ≤ slot) { k with value := nextGenKey k.value 1, epoch := 1, parent := slot, tag := 2 ^ 40 + 2 * f + (if rx then 1 else 0) } s with
    | some (s, i) => (s, i)
    | none => (s, slot)

/-- A flow's PSN has reached 2^47 (R285): KEYGEN toggles and the PSN goes on. -/
def execFlowKeygenAdvance (f : Nat) (s : State) : Res :=
  need (match getFlow s f with | some x => x.state = .opened && !x.keygen && (2 ^ 47 ≤ x.txPsn || 2 ^ 47 ≤ x.rxPsn) | none => false)
    (match getFlow s f with
     | some x =>
       let (s, t) := nextFlowKey f x.txKey false s
       let (s, r) := nextFlowKey f x.rxKey true s
       setFlow f { x with keygen := true, oldKeys := some (x.txKey, x.rxKey), txKey := t, rxKey := r } s
     | none => s)

/-! Opening, and pair keys that expire. -/

/-- An engine's open of a flow; a refusal is recorded against the owning partition (R286). -/
def execFlowOpen (owner : Nat) (peer : Device) (peerFlow : Nat) (classes : List Nat) (session : Option SessIx) (s : State) : Res :=
  need (hubUp s)
    (let r := openFlow owner peer peerFlow classes session s
     match partOf owner with
     | some p => if r.2 = .done then r.1 else r.1.putVM (r.1.vm.event p r.2)
     | none => r.1)

/-- Flows that run under the pair key of a peer. -/
def pairFlows (s : State) (peer : Device) : List (Nat × Flow) := s.fab.flows.filter (fun x => 18 ≤ x.1 && x.2.peer = peer && x.2.session.isNone)

/-- No flow has used the pair key for 1,000 frames (R436): it ceases to be LIVE, and its idle contexts close. -/
def execPairKeyExpire (peer : Device) (s : State) : Res :=
  need (havePair s.keys peer && (pairFlows s peer).all (fun x => x.2.used + 1000 ≤ frameNow s))
    { s with keys := { s.keys with slots := s.keys.slots.filter (fun k => !(k.2.purpose = 0x17 && k.2.tag / 2 = peer.toNat)) },
             fab := { s.fab with flows := s.fab.flows.filter (fun x => !(18 ≤ x.1 && x.2.peer = peer && x.2.session.isNone)) } }

/-! WAKE (R303, R304). -/

/-- The device is this module: a DOZE ends, and in ACTIVE nothing more happens (R304, R590). Its neighbour with a strait that is not UP emits the ordered set; otherwise the packet travels on by route while hops are left. -/
def wakeDevice (target : Device) (hops : Nat) (s : State) : State :=
  let lost : State := { s with fab := { s.fab with unroutable := s.fab.unroutable + 1 } }
  if target = s.fab.idInForce then (if s.pow.mod = .doze then wake 6 s else s)
  else match allStraits.find? (fun k => s.fab.straits[k].peer = target && s.fab.straits[k].link ≠ .up) with
    | some k => { s with fab := { s.fab with wakes := s.fab.wakes + 1 } }.emit [.wakeSet k]
    | none => match liveRoute s target 0 with
      | some k => if hops = 0 then lost else sendPktHops (hops - 1) k 9 0 target.toNat [] s
      | none => lost

def execWakePacket (p : Pkt) (target : Device) (s : State) : Res :=
  onStrait p s (recvPkt p 9 0 0 true (fun s => if s.fab.idInForce = 0xFFFF then { s with fab := s.fab.drop } else wakeDevice target p.hops s) s)

end Sys2Proof.Machine
end

