-- ==== Sys2Proof/Machine/Tiers.lean ====
section
/-!
DEFINITION. Machine/Tiers.lean: commands of the memory tiers (chapter 7) and of memory protection (chapter 11) that need no packet:
mapping requests, queries, the home list, granule moves, page copies, re-encryption and the acknowledgement of alerts.
-/

namespace Sys2Proof.Machine

/-- T1_PRIVATE_BYTES now (R245). -/
def privBytes (s : State) : Nat := t1Private s.bind.carveout.toNat

/-- Set MAP_STATUS of the session (R246). -/
def setMapStatus (q : Req) (p : PartId) (r : State × Status) : State × Status :=
  (updPerPart q p (fun x => { x with mapStatus := BitVec.ofNat 8 r.2.code }) r.1, r.2)

/-- MAP_OP (R246): 1 MAP, 2 UNMAP, 3 SET_ATTR, 4 DISCARD; the write is answered with MAP_STATUS. -/
def opMapOp (code : Nat) (q : Req) (p : PartId) (s : State) : State × Status :=
  guarded s (0x5040 + p.val) (opOrTenant s q p)
    (let x := perPart s q p
     let n := x.mapPages.toNat
     let r := match code with
       | 1 => s.vm.doMap (privBytes s) p x.mapVa n x.mapAttr.toNat
       | 2 => s.vm.doRelease p x.mapVa n false
       | 3 => s.vm.doSetAttr p x.mapVa n x.mapAttr.toNat
       | 4 => s.vm.doRelease p x.mapVa n true
       | _ => (s.vm, .denied)
     setMapStatus q p (s.putVM r.1, r.2))

/-- MAP (R246). -/
def execMap (q : Req) (p : PartId) (s : State) : Res := software s (answer q (opMapOp 1 q p s))
/-- UNMAP (R246). -/
def execUnmap (q : Req) (p : PartId) (s : State) : Res := software s (answer q (opMapOp 2 q p s))
/-- SET_ATTR (R246). -/
def execSetAttr (q : Req) (p : PartId) (s : State) : Res := software s (answer q (opMapOp 3 q p s))
/-- DISCARD (R246). -/
def execDiscard (q : Req) (p : PartId) (s : State) : Res := software s (answer q (opMapOp 4 q p s))

/-- A write of PT_QUERY_VA (R240, R245): the leaf entry is read at that moment. -/
def opPtQuery (q : Req) (p : PartId) (va : BitVec 64) (s : State) : State × Status :=
  guarded s (0x5040 + p.val) (opOrTenant s q p && va.toNat < 2 ^ 56)
    (updPerPart q p (fun x => { x with ptQuery := va, ptEntry := leafWord s.mem p (pageOf va.toNat) }) s, .done)

def execPtQuery (q : Req) (p : PartId) (va : BitVec 64) (s : State) : Res := software s (answer q (opPtQuery q p va s))

/-- A write of RGN_QUERY_VA (R417): the region record is read at that moment. -/
def opRgnQuery (q : Req) (p : PartId) (va : BitVec 64) (s : State) : State × Status :=
  guarded s (0x5040 + p.val) (opOrTenant s q p && va.toNat < 2 ^ 56 && va.toNat % 2 ^ 21 = 0)
    (updPerPart q p (fun x => { x with rgnQuery := va, rgnRecord := regionWord (s.vm.region p (pageOf va.toNat)) }) s, .done)

def execRgnQuery (q : Req) (p : PartId) (va : BitVec 64) (s : State) : Res := software s (answer q (opRgnQuery q p va s))

/-! The pool home list (R242). -/

/-- The 16 bytes of a home-list entry. -/
def homeBytes (m : Mem) (i : Nat) : Bytes :=
  match alGet i m.homes with | some h => leBytes 8 h.base.toNat ++ leBytes 8 h.bytes | none => zeros 16

/-- Write entry `i` of the home list (R242): a global address in space POOL aligned to 64 KiB and a multiple of 64 KiB, or all zero; a home in use is neither removed nor shrunk. -/
def opPoolHome (q : Req) (v : Bytes) (s : State) : State × Status :=
  guarded s 0x5010 (isOperator s q)
    (let i := (perOf s q).poolIndex.toNat
     let base := BitVec.ofNat 64 (leNat (v.take 8))
     let n := leNat ((v.drop 8).take 8)
     let g := gaddrWordOk base
     let old := alGet i s.mem.homes
     let used := homeUsed s.mem i
     let unused := leNat v = 0
     let ok := v.length = 16 && i < 1024 && (unused || (g && n % 65536 = 0)) &&
       (used = 0 || (match old with | some h => !unused && h.base = base && h.bytes ≤ n | none => true))
     if ok then ({ s with mem := { s.mem with homes := if unused then alDel i s.mem.homes else alSet i { base := base, bytes := n } s.mem.homes } }, .done)
     else (s, .denied))
where
  /-- The word is a global address in space POOL of a device other than 0xFFFF, aligned to 64 KiB. -/
  gaddrWordOk (w : BitVec 64) : Bool := w.extractLsb' 46 2 = 1 && w.extractLsb' 48 16 ≠ 0xFFFF && w.toNat % 65536 = 0

/-- POOL_HOME is written with a value, or read without one. -/
def execPoolHomeAccess (q : Req) (value : Option Bytes) (s : State) : Res :=
  software s (match value with
    | some v => answer q (flashed q true s (opPoolHome q v s))
    | none => answerData q 0x5010 2 (if served s 0x5010 && opOrMaker s q then (s, .done, homeBytes s.mem (perOf s q).poolIndex.toNat) else (s, .denied, [])))

/-! Movement of windows and pages. -/

/-- A granule of a changed bitmap has been moved (R232): its bytes are as before, and reads of it no longer wait. -/
def execWindowGranuleMove (p : PartId) (granule : Nat) (s : State) : Res :=
  need (s.mem.moves.contains (p, granule)) { s with mem := { s.mem with moves := s.mem.moves.erase (p, granule) } }

/-- One sector of a page copy (R251, R263). It waits while the home that takes it is out of reach. -/
def VM.copySector (p : PartId) (page : Nat) (v : VM) : VM :=
  match v.mem.migrations.find? (fun m => m.part = p && m.page = page), alGet page v.mem.pages[p] with
  | some q, some l =>
    let bad (loc : Loc) : Bool := match loc with | .t2 h k => v.mem.failedHomes.contains (t2Home v.mem h k (256 * q.watermark)) | _ => false
    if 8192 ≤ q.watermark then v.migrateEnd p page
    else if bad q.dst then v.abandonCopy p page
    else if v.cutOff p q.dst q.watermark then v
    else
      let r := v.region p page
      let c := ctrOf v.mem r q.watermark
      let v := if bad l.loc ∧ c ≠ 0 ∧ c ≠ 0xFFFF then v.markPoisoned p (page * 2 ^ 21 + 256 * q.watermark) .peerFailed else v
      (v.migrateOne p page).migrateEnd p page
  | _, _ => v

/-! Re-encryption. -/

/-- The regions that a stack controller re-encrypts now: the first two to have entered (R406). -/
def rekeyNow (v : VM) (st : Nat) : List (PartId × Nat) :=
  let all := allParts.flatMap fun p => v.mem.regions[p].filterMap (fun x =>
    match alGet x.1 v.mem.pages[p] with
    | some l => if x.2.rekeying && x.2.watermark < 8192 && stackOf l.loc x.2.slot = st then some (x.2.entered, p, x.1) else none
    | none => none)
  ((sortKey (fun x : Nat × PartId × Nat => x.1) all).take 2).map (fun x => (x.2.1, x.2.2))

/-- The region's turn to be re-encrypted has come. -/
def mayRekey (v : VM) (p : PartId) (page : Nat) : Bool :=
  match alGet page v.mem.pages[p] with
  | some l => v.parts[p].state = .active && (v.region p page).rekeying && (rekeyNow v (stackOf l.loc (v.region p page).slot)).contains (p, page)
  | none => false

/-- The region may become STEADY (R407). -/
def maySteady (v : VM) (p : PartId) (page : Nat) : Bool :=
  let r := v.region p page
  r.rekeying && 8192 ≤ r.watermark && r.inFlightOld = 0

def execRegionSteady (p : PartId) (page : Nat) (s : State) : Res :=
  need (maySteady s.vm p page) (s.putVM (s.vm.steady p page))

/-- Backed pages not yet STEADY under the new epoch: ROTATION_PAGES_LEFT (R408, R417). -/
def rotationLeft (v : VM) (p : PartId) : Nat :=
  if v.parts[p].rotating then
    (v.mem.pages[p].filter (fun x => x.2.loc ≠ .unbacked && !(v.parts[p].cls = 2 && x.2.param) &&
      (let r := v.region p x.1; r.rekeying || r.epoch ≠ v.parts[p].epoch))).length
  else 0

/-- Every page is STEADY under the new epoch: the old secret and memory key are destroyed (R408, R440). -/
def finishRotation (p : PartId) (s : State) : State :=
  let e := s.parts[p].epoch.toNat
  { s with parts := modVec s.parts p (fun x => { x with rotating := false }),
           keys := { s.keys with slots := s.keys.slots.filter (fun k => !(k.2.owner = p.val && (k.2.purpose = 1 || k.2.purpose = 2) && k.2.epoch ≠ e)) } }

def execRotationComplete (p : PartId) (s : State) : Res :=
  need (s.parts[p].rotating && rotationLeft s.vm p = 0) (finishRotation p s)

/-! Alerts. -/

/-- ALERT_ACK (R414, R549): every integrity alert whose audit SEQ is at most the value is acknowledged. -/
def opAlertAck (q : Req) (seq : BitVec 64) (s : State) : State × Status :=
  guarded s 0x1102 (isOperator s q) ({ s with dict := { s.dict with alerts := s.dict.alerts.filter (fun n => seq.toNat < n) } }, .done)

def execAlertAck (q : Req) (seq : BitVec 64) (s : State) : Res := software s (answer q (opAlertAck q seq s))

end Sys2Proof.Machine
end

