-- ==== Sys2Proof/Machine/Sectors.lean ====
section
/-!
DEFINITION. Machine/Sectors.lean: an engine's read, write and partial write of one sector of partition memory (R402 to R404, R412), with the packets of a page in T2 (R283, R289).
-/

namespace Sys2Proof.Machine

/-- External memory is powered and out of self-refresh (R580, R582). -/
def memUp (s : State) : Bool := hubUp s && s.pow.mod = .active

/-- The home of a T2 place: its device and the address word of the sector. -/
def homeDevice (m : Mem) (h k i : Nat) : Device := BitVec.ofNat 16 (t2Locate m h k (256 * i) / 2 ^ 48)

/-- A tag that no read and no sector CAS on the flow waits for. -/
def waitTag (s : State) (f : Nat) : Nat :=
  ((List.range 256).find? (fun t => !s.mem.waits.any (fun w => w.flow = f && w.tag = t) && !s.mem.casWaits.contains (f, t))).getD 0

/-- The operands of a sector CAS on the wire (R283): the tag expected, the new sector and its tag, padded with zero. -/
def casBytes (expected : BitVec 64) (x : StoredSector) : Bytes :=
  let b := leBytes 8 expected.toNat ++ sectorBytes x.cipher ++ leBytes 8 x.tag.toNat
  b ++ zeros (288 - b.length)

/-- A sector of a T2 page goes to its home (R253, R283, R289): a MEMWR, or a sector CAS that waits for its result. -/
def sendT2 (s : State) (w : T2Write) : State :=
  match poolFlow s w.part (BitVec.ofNat 16 (w.gaddr / 2 ^ 48)) with
  | none => s
  | some f =>
    match w.expected with
    | none => sendPkt f 2 0 (w.gaddr * 2 ^ 16) (sectorsBytes [w.new]) s
    | some old => sendPkt f 3 0 (w.gaddr * 2 ^ 16 + waitTag s f) (casBytes old w.new) { s with mem := { s.mem with casWaits := s.mem.casWaits ++ [(f, waitTag s f)] } }

/-- What memory work has left, with the packets of the T2 sectors that it wrote. -/
def State.putWrites (s : State) (v : VM) : State := v.sends.foldl sendT2 (s.putVM v)

/-- A T2 sector is asked of its home, and the read waits on the fabric (R402, R407). Without an open flow the home cannot be reached. -/
def askHome (p : PartId) (va h k : Nat) (s : State) : State :=
  let i := sectorOf va
  let r := s.vm.region p (pageOf va)
  let (gen, _) := genOf r i
  match poolFlow s p (homeDevice s.mem h k i) with
  | none => (s.putVM ((s.vm.audit (auditOf 2 .linkLost p.val va 256)).event p .linkLost)).emit [.sectorData p va none .linkLost]
  | some f =>
    let t := waitTag s f
    let w : WaitRead := { flow := f, tag := t, part := p, va := va, gen := gen, ctr := ctrOf s.mem r i }
    let r := if r.rekeying ∧ gen + 1 = r.gen then { r with inFlightOld := r.inFlightOld + 1 } else { r with inFlight := r.inFlight + 1 }
    let s := s.putVM ((s.vm.touch p va true).setRegion p (pageOf va) r)
    sendPkt f 1 0 (t2Locate s.mem h k (256 * i) * 2 ^ 16 + t) [] { s with mem := { s.mem with waits := s.mem.waits ++ [w] } }

/-- The ladder refuses the key of a slot that is not LIVE, and counts it (R433). -/
def countRefusal (st : Status) (s : State) : State := if st = .keyRevoked then { s with keys := { s.keys with refusals := s.keys.refusals + 1 } } else s

/-- Read of a sector (R402): at once from T1, by a packet from T2. A counter that is UNWRITTEN or POISONED, or a key that is gone, ends a T2 read at once. -/
def readOp (p : PartId) (va : Nat) (d : Delivered) (s : State) : State :=
  let now (s : State) : State :=
    let r := s.vm.readSector p va d true
    (countRefusal r.2.status (s.putVM r.1)).emit [.sectorData p va (match r.2 with | .data x => some x | _ => none) r.2.status]
  match s.vm.leaf p va with
  | none => now s
  | some l =>
    match s.vm.place p va l, d with
    | .t2 h k, .asStored _ | .t2 h k, .altered _ | .t2 h k, .uncorrectable =>
      let r := s.vm.region p (pageOf va)
      let c := ctrOf s.mem r (sectorOf va)
      if c = 0 ∨ c = 0xFFFF ∨ (s.vm.baseKey p l (genOf r (sectorOf va)).2).isNone then now s else askHome p va h k s
    | _, _ => now s

def execSectorRead (p : PartId) (va : BitVec 56) (d : Delivered) (s : State) : Res :=
  need (memUp s && va.toNat % 256 = 0) (readOp p va.toNat d s)

/-- What a write that is not performed leaves: an audit entry with its status (R241), and the condition counted. -/
def writeFailed (p : PartId) (va : Nat) (st : Status) (s : State) : State :=
  countRefusal st (s.putVM ((s.vm.audit (auditOf 1 st p.val va 256)).event p st))

/-- What a write did: its state with the packets of a T2 sector, or its failure. -/
def writeOp (p : PartId) (va : Nat) (run : VM → VM × Status) (s : State) : State :=
  let r := run s.vm
  if r.2 = .done then s.putWrites r.1 else writeFailed p va r.2 (s.putVM r.1)

/-- Write of a whole sector (R403): a T2 sector goes to its home as a MEMWR. -/
def execSectorWrite (p : PartId) (va : BitVec 56) (x : Sector) (s : State) : Res :=
  need (memUp s && va.toNat % 256 = 0) (writeOp p va.toNat (fun v => v.writeSector p va.toNat x true) s)

/-- Write of part of a sector (R404, R412): a T2 sector is replaced by a sector CAS against the tag that was read (R289). -/
def execSectorPartialWrite (p : PartId) (va : BitVec 56) (b : Bytes) (d : Delivered) (s : State) : Res :=
  let sec := va.toNat / 256 * 256
  need (memUp s && 1 ≤ b.length && va.toNat % 256 + b.length ≤ 256) (writeOp p sec (fun v => v.writePart p va.toNat b d true) s)

/-- The next sector of a re-encryption (R406). -/
def execRekeySector (p : PartId) (page : Nat) (d : Delivered) (s : State) : Res :=
  need (mayRekey s.vm p page && s.pow.mod = .active) (s.putWrites (s.vm.rekeyOne p page d))

/-- A page copy goes on by a sector (R251); a sector for a pool home goes out on the flow to it. -/
def execMigrationSectorCopy (p : PartId) (page : Nat) (s : State) : Res :=
  need (s.vm.migrating p page && s.pow.mod = .active) (s.putWrites (s.vm.copySector p page))

end Sys2Proof.Machine
end

