-- ==== Sys2Proof/Machine/Gather.lean ====
section
/-!
DEFINITION. Machine/Gather.lean: gatherings (R255 to R262): the engine's copy of the entries, step 3 of the tick, and what a slice reads of them at admission (R259).
-/

namespace Sys2Proof.Machine

/-- S of R256: the bytes of a bank. -/
def bankBytes (g : Gathering) : Nat := roundUp g.bytes 65536
/-- Window range of a held entry's banks. -/
def banksEnd (g : Gathering) : Nat := g.winOff + g.banks * bankBytes g

/-- The entry keeps every range, alignment and form of R255 and R159. -/
def gatherForm (g : Gathering) (reserved : Nat) : Bool :=
  reserved = 0 && g.control ≤ 1 && g.bytes % 256 = 0 && 256 ≤ g.bytes && g.bytes ≤ 2 ^ 31 && g.winOff % 65536 = 0 && 1 ≤ g.banks && g.banks ≤ 4 &&
  isVirtual g.pbuf0 && vaOf g.pbuf0 % 256 = 0 && isVirtual g.pbuf1 && vaOf g.pbuf1 % 256 = 0 &&
  (g.session ≠ 0xFF || (g.banks = 1 && g.pbuf1 = g.pbuf0))

/-- release(e) of R257; its fetches are stopped beside it. -/
def Gathering.release (g : Gathering) : Gathering := { g with held := false, bankState := Vector.replicate 4 0, healPending := false }

/-- Stop every fetch into an entry. -/
def stopFetches (p : PartId) (i : Nat) (v : VM) : VM :=
  { v with mem := { v.mem with fetches := v.mem.fetches.filter (fun f => !(f.part = p && f.entry = i)) } }

def getGather (v : VM) (p : PartId) (i : Nat) : Option Gathering := v.parts[p].gatherings[i]?
def setGather (p : PartId) (i : Nat) (g : Gathering) (v : VM) : VM := v.updPart p (fun x => { x with gatherings := x.gatherings.set i g })

/-- Report the RO fields of an entry in the table (R255); a write that fails is lost, counted and audited, and the copy stands. -/
def reportGather (p : PartId) (i : Nat) (v : VM) : VM :=
  match getGather v p i with
  | none => v
  | some g =>
    let base := v.parts[p].gatherTableForce
    if !isVirtual base then v
    else
      let a := vaOf base + 64 * i
      let (lo, hi) := gatherRoBytes g
      let (v, _, s1) := v.writeBytes p (a + 2) lo false
      let (v, _, s2) := if s1 = .done then v.writeBytes p (a + 8) hi false else (v, 0, s1)
      if s2 = .done then v else (v.audit (auditOf 3 s2 p.val a 64)).event p s2

/-- The procedure of R257 on an entry as read, given the held entries before it and the window size. -/
def gatherStep (window : Nat) (before : List Gathering) (old new : Gathering) (reserved : Nat) : Gathering × Option Nat :=
  let changed := old.held && (new.pbuf0 ≠ old.pbuf0 || new.pbuf1 ≠ old.pbuf1 || new.bytes ≠ old.bytes || new.winOff ≠ old.winOff || new.banks ≠ old.banks || new.session ≠ old.session)
  let e := { new with held := old.held, current := old.current, published := old.published, bankVersion := old.bankVersion, bankState := old.bankState,
                      lastStatus := old.lastStatus, healPending := old.healPending }
  if changed ∨ !gatherForm new reserved then ({ e with lastStatus := 0x61 }.release, none)
  else
    let newer : Bool := match e.published, e.current with | some a, some c => decide (c < a) | some _, none => true | none, _ => false
    let e := if e.session ≠ 0xFF ∧ newer then { e with current := e.published, healPending := false } else e
    let e := if e.session = 0xFF then { e with current := some 0 } else e
    if e.control = 0 then (e.release, none)
    else if window < banksEnd e ∨ before.any (fun b => b.held && b.winOff < banksEnd e && e.winOff < banksEnd b) then ({ e with lastStatus := 0x62 }.release, none)
    else
      let e := { e with held := true }
      match e.current with
      | none => (e, none)
      | some c =>
        let b := c % e.banks
        if h : b < 4 then
          if e.bankVersion[b] ≠ c ∨ e.bankState[b] = 0 ∨ (e.bankState[b] = 3 ∧ !e.healPending) then
            ({ e with bankVersion := e.bankVersion.set b c, bankState := e.bankState.set b 1 }, some b)
          else (e, none)
        else (e, none)

/-- One entry at step 3. -/
def tickEntry (p : PartId) (i : Nat) (v : VM) : VM :=
  match getGather v p i with
  | none => v
  | some old =>
    let base := v.parts[p].gatherTableForce
    if !isVirtual base then v
    else
      let a := vaOf base + 64 * i
      match v.readBytes p a 64 with
      | (w, none) => let st := v.readStatus p a 64; (w.audit (auditOf 3 st p.val a 64)).event p st
      | (v, some b) =>
        let (new, reserved) := gatherOf b
        let (e, q) := gatherStep (windowBytes v.parts[p].force.bitmap) (v.parts[p].gatherings.take i) old new reserved
        let v := setGather p i e v
        let v := if e.held then v else stopFetches p i v
        let v := match q with
          | some bank =>
            let f : Fetch := { part := p, entry := i, bank := bank, version := e.current.getD 0 }
            { v with mem := { v.mem with fetches := v.mem.fetches.filter (fun x => !(x.part = p && x.entry = i && x.bank = bank)) ++ [f] } }
          | none => v
        let (lo, hi) := gatherRoBytes e
        if slice b 2 3 = lo ∧ slice b 8 24 = hi then v else reportGather p i v

/-- Step 3 for one partition: the table as written takes effect, entries beyond the count are released, and each entry runs R257. -/
def tickGatherPart (p : PartId) (v : VM) : VM :=
  let n := v.parts[p].gatherCount.toNat
  let v := (List.range (v.parts[p].gatherings.length - n)).foldl (fun v k => stopFetches p (n + k) v) v
  let grow (l : List Gathering) : List Gathering := l.take n ++ List.replicate (n - l.length) ({} : Gathering)
  let v := v.updPart p (fun x => { x with gatherTableForce := x.gatherTable, gatherings := (grow x.gatherings).map (fun g => { g with shrunk := false }) })
  (List.range n).foldl (fun v i => tickEntry p i v) v

/-- Step 3 of the tick (R208, R258): partitions in ascending number. -/
def tickGather (v : VM) : VM := allParts.foldl (fun v p => if v.parts[p].state = .active then tickGatherPart p v else v) v

/-- Gatherings with a bank at or beyond the new window size are released with QUOTA (R232), and slices of this tick find them absent (R267). -/
def shrinkGather (p : PartId) (window : Nat) (v : VM) : VM :=
  (List.range v.parts[p].gatherings.length).foldl (fun v i =>
    match getGather v p i with
    | some g => if g.held ∧ window < banksEnd g then reportGather p i (setGather p i { g with lastStatus := 0x30, shrunk := true }.release (stopFetches p i v)) else v
    | none => v) v

/-- A queued fetch starts in queue order (R258). -/
def execGatheringFetchStart (s : State) : Res :=
  need (memUp s && s.mem.fetches.any (fun f => !f.started))
    { s with mem := { s.mem with fetches := startFirst s.mem.fetches } }
where
  startFirst : List Fetch → List Fetch
    | [] => []
    | f :: r => if f.started then f :: startFirst r else { f with started := true } :: r

/-! What a slice reads at admission (R259). -/

/-- What R259 says of a slice: rejected, gone, late, or eligible; the worst of its inputs stands. -/
inductive GatherVerdict where
  | ok | late | gone | bad | denied
deriving DecidableEq, Repr

def GatherVerdict.rank : GatherVerdict → Nat | .bad => 0 | .denied => 1 | .gone => 2 | .late => 3 | .ok => 4

/-- A window input of `len` bytes at `off` against the held entries, for a slice of a session and version. -/
def gatherInput (gs : List Gathering) (session version off len : Nat) : GatherVerdict :=
  let touches (g : Gathering) : Bool := g.winOff < off + len && off < banksEnd g
  let hit := gs.filter (fun g => g.held && touches g)
  match hit with
  | [] => if gs.any (fun g => g.shrunk && touches g) then .late else .ok
  | [g] =>
    let v := if g.session = 0xFF then 0 else version
    let b := if g.session = 0xFF then 0 else version % g.banks
    let lo := g.winOff + b * bankBytes g
    -- the bytes of the bank are those of the image's granules
    if !(lo ≤ off && off + len ≤ lo + bankBytes g && (g.session = 0xFF || g.session = session)) then .bad
    else
      let holds := if h : b < 4 then g.bankVersion[b] = v && g.bankState[b] ≠ 0 else false
      if holds then .ok
      else match g.current with
        | none => .late
        | some c => if c ≤ v then .late else .gone
  | _ => .bad

/-- Window bytes that a slice may name as input: those of the window, and in the tick that shrank it the banks that it took (R267). -/
def readLimit (gs : List Gathering) (window : Nat) : Nat := ((gs.filter (·.shrunk)).map banksEnd).foldl max window

/-- An output that intersects a held bank is denied (R259). -/
def gatherOutput (gs : List Gathering) (off len : Nat) : GatherVerdict :=
  if gs.any (fun g => g.held && g.winOff < off + len && off < banksEnd g) then .denied else .ok

end Sys2Proof.Machine
end

