-- ==== Sys2Proof/Machine/Lists.lean ====
section
/-!
DEFINITION. Machine/Lists.lean: what list entries read and write (R164, R174, R178), and the checks of a slice at each offering
(R5, R35, R52, R66, R71, R77, R98, R107, R114, R115, R117, R130 to R136, R161 to R171, R175 to R179).
-/

namespace Sys2Proof.Machine

/-! Byte ranges of entries. -/

/-- A set of bytes of a space of R160: `count` runs of `len` bytes, `pitch` apart. `wide`: tracked in 256-byte sectors, as movers are (R174). -/
structure Area where
  space : Nat
  base : Nat
  pitch : Nat
  count : Nat
  len : Nat
  wide : Bool := false
  /-- The target of a RAW pass, as read or as written (R168, R179). -/
  raw : Bool := false
deriving DecidableEq, Repr

/-- First byte and one past the last. -/
def Area.lo (a : Area) : Nat := a.base
def Area.hi (a : Area) : Nat := if a.count = 0 ∨ a.len = 0 then a.base else a.base + (a.count - 1) * a.pitch + a.len
/-- The run `i` in the units that R174 keeps. -/
def Area.run (a : Area) (i : Nat) : Nat × Nat :=
  let lo := a.base + i * a.pitch
  if a.wide then (lo / 256 * 256, roundUp (lo + a.len) 256) else (lo, lo + a.len)
/-- The smallest interval of 256-byte sectors that covers it (R178). -/
def Area.hull (a : Area) : Nat × Nat := (a.lo / 256 * 256, roundUp a.hi 256)
def Area.isEmpty (a : Area) : Bool := a.hi ≤ a.lo

/-- Two ranges share a byte. -/
def rangesMeet (x y : Nat × Nat) : Bool := x.1 < y.2 && y.1 < x.2 && x.1 < x.2 && y.1 < y.2

/-- Two areas touch a common unit (R174). -/
def Area.meets (a b : Area) : Bool :=
  a.space = b.space && !a.isEmpty && !b.isEmpty && rangesMeet (a.lo / 256 * 256, roundUp a.hi 256) (b.lo / 256 * 256, roundUp b.hi 256) &&
  (List.range a.count).any (fun i => (List.range b.count).any (fun j => rangesMeet (a.run i) (b.run j)))

/-- What an entry reads and writes, one area for each region (R178). -/
structure Use where
  reads : List Area := []
  writes : List Area := []
deriving DecidableEq, Repr

/-- Element and exponent area of `nr` block rows and `nc` blocks from block (r0, c0) on (R164). -/
def gridAreas (fmt elem ex stride r0 nr c0 nc : Nat) : List Area :=
  let b := blockBytes fmt
  [{ space := 1, base := elem + (r0 * stride + c0) * b, pitch := stride * b, count := nr, len := nc * b },
   { space := 1, base := ex + r0 * stride + c0, pitch := stride, count := nr, len := nc }]

/-- Blocks of a tensor that rows r..r+m-1 and elements c..c+w-1 touch. -/
def tensorAreas (fmt elem ex stride r m c w : Nat) : List Area :=
  if m = 0 ∨ w = 0 then []
  else
    let bl := blockLen fmt
    if isSB fmt then gridAreas fmt elem ex stride (r / 32) ((r + m - 1) / 32 - r / 32 + 1) (c / 32) ((c + w - 1) / 32 - c / 32 + 1)
    else gridAreas fmt elem ex stride r m (c / bl) ((c + w - 1) / bl - c / bl + 1)

/-- The stationary tile's area, where the pass loads it. -/
def statAreas (d : PassDesc) : List Area :=
  if !d.needsTile ∨ d.resident then []
  else if isSB d.statFmt then tensorAreas d.statFmt d.statElem d.statExp d.statStride 0 d.tileK 0 d.tileN
  else tensorAreas d.statFmt d.statElem d.statExp d.statStride 0 d.tileN 0 d.tileK

/-- The streamed operand's area, whole. A folded pass reads its source's columns; the ones line reads nothing (R130, R132). -/
def strmAreas (d : PassDesc) : List Area :=
  if d.empty then []
  else if d.type = .chain then
    if d.source then tensorAreas d.strmFmt d.strmElem d.strmExp d.strmStride 0 d.m 0 d.width else []
  else if d.extent = 0 then []
  else if d.fold then tensorAreas d.strmFmt d.strmElem d.strmExp d.strmStride 0 d.extent 0 (if d.ones then d.m - 1 else d.m)
  else tensorAreas d.strmFmt d.strmElem d.strmExp d.strmStride 0 d.m 0 d.extent

def winOf (w : BitVec 64) : Nat := (w.extractLsb' 0 56).toNat
def spaceOf (w : BitVec 64) : Nat := (w.extractLsb' 60 4).toNat

/-- Blocks per line of a slot's tensor. -/
def Slot.stride (s : Slot) : Nat := ceilDiv s.lineLen 32

def vectorAreas (d : PassDesc) (s : Slot) : List Area := tensorAreas s.fmt (winOf s.elemAddr) (winOf s.expAddr) s.stride 0 1 d.n0 d.width
/-- Rows m..m+n-1 of a STREAM operand. -/
def streamAreas (d : PassDesc) (s : Slot) (m n : Nat) : List Area := tensorAreas s.fmt (winOf s.elemAddr) (winOf s.expAddr) s.stride (d.m0 + m) n d.n0 d.width
def tableAreas (s : Slot) : List Area := [{ space := 1, base := winOf s.elemAddr, pitch := 0, count := 1, len := 2112 }]
/-- Rows m..m+n-1 of the target that a RAW pass reads (R168); it is read whether or not the result is written. -/
def rawAreas (d : PassDesc) (c : Chain) (m n : Nat) : List Area :=
  if !d.raw ∨ d.empty then [] else (tensorAreas c.outFmt d.outElem d.outExp d.outStride (d.m0 + m) n d.n0 d.width).map (fun a => { a with raw := true })
/-- Rows m..m+n-1 of the output. -/
def outAreas (d : PassDesc) (c : Chain) (m n : Nat) : List Area :=
  if c.discards ∨ d.empty then [] else (tensorAreas c.outFmt d.outElem d.outExp d.outStride (d.m0 + m) n d.n0 d.width).map (fun a => { a with raw := d.raw })
/-- Rows m..m+n-1 of the row-statistic region (R113). -/
def statRegion (d : PassDesc) (c : Chain) (m n : Nat) : List Area :=
  if c.statMem ∧ !d.empty then [{ space := spaceOf c.rowstat, base := winOf c.rowstat + 8 * (d.m0 + m), pitch := 0, count := 1, len := 8 * n }] else []

/-- A mover's source and destination (R170); a gradient flush writes no memory. -/
def moveAreas (d : MoveDesc) : List Area × List Area :=
  let area (w : BitVec 64) (pitch : Nat) : List Area :=
    if spaceOf w = 1 ∨ spaceOf w = 2 then [{ space := spaceOf w, base := winOf w, pitch := pitch, count := d.rows, len := d.rowBytes, wide := true }] else []
  (area d.src d.srcPitch, area d.dst d.dstPitch)

/-- Everything an entry reads and writes in memory (R178): scale-state records, the store and the row-statistic buffer are exempt. -/
def entryUse (e : Entry) (c : Option Chain) : Use :=
  match e with
  | .bad => {}
  | .move d => let a := moveAreas d; { reads := a.1, writes := a.2 }
  | .pass d =>
    let base := statAreas d ++ strmAreas d
    match c with
    | none => { reads := base }
    | some c =>
      { reads := base ++ [{ space := 2, base := winOf d.chainAddr, pitch := 0, count := 1, len := 288 }] ++
          (if d.empty then [] else c.vectorSlots.flatMap (fun i => vectorAreas d (c.slot i)) ++ c.streamSlots.flatMap (fun i => streamAreas d (c.slot i) 0 d.m) ++
            c.tableSlots.flatMap (fun i => tableAreas (c.slot i))) ++ rawAreas d c 0 d.m,
        writes := outAreas d c 0 d.m ++ statRegion d c 0 d.m }

/-! Checks of a chain program (R95 to R98, R107). -/

/-- The kinds that an opcode permits (R101). -/
def kindOk (st : Stage) : Bool :=
  match st.opcode with
  | 0x01 | 0x02 | 0x03 | 0x05 | 0x06 | 0x07 | 0x08 => 1 ≤ st.kind && st.kind ≤ 6
  | _ => st.kind = 0
/-- The ARG that an opcode allows (R101). -/
def argOk (st : Stage) : Bool :=
  match st.opcode with
  | 0x04 | 0x05 => true
  | 0x08 => st.arg ≤ 5
  | 0x0E => st.arg ≤ 1
  | 0x0F => st.arg ≤ 6
  | _ => st.arg = 0

/-- A used stage is well formed; `before`: a row-reduce stage stands before it; `rows` and `share`: the rows and the buffer share of the pass (R98, R111). -/
def stageOk (d : PassDesc) (c : Chain) (last before : Bool) (st : Stage) : Bool :=
  let k := match st.kind with | 2 => 1 | 3 => 2 | _ => if st.opcode = 0x0D then 3 else 0
  let share := 512 / 4 ^ d.layout
  let usesBuf := st.kind = 5 || (st.opcode = 0x0E && (st.statBuf || st.statComb))
  st.opcode ≤ 0x0F && st.reserved = 0 && st.constExRaw ≠ 0x80 && kindOk st && argOk st && (last == decide (st.opcode = 0x0F)) &&
  (k = 0 || (c.slot st.slot).kind = k) &&
  (st.kind ≠ 4 || (before && d.width ≤ 256 / 2 ^ d.layout)) &&
  (!usesBuf || (d.pane * share ≤ st.statBase && st.statBase + d.m ≤ (d.pane + 1) * share)) &&
  (!st.discard || st.opcode = 0x0F) && (!(st.statBuf || st.statComb || st.statMem) || st.opcode = 0x0E)

/-- A slot is well formed (R97). -/
def slotOk (s : Slot) : Bool :=
  s.kind ≤ 3 && s.reserved = 0 && addrFormOk s.elemAddr && addrFormOk s.expAddr &&
  (s.kind = 0 || (addrFormOk s.elemAddr && spaceOf s.elemAddr = 1 &&
    (if s.kind = 3 then s.expAddr = 0 && s.fmt = 0 && winOf s.elemAddr % 64 = 0
     else addrFormOk s.expAddr && spaceOf s.expAddr = 1 && s.fmt ≤ 5 && 1 ≤ s.lineLen && s.lineLen ≤ 2 ^ 31)))

/-- The program passes R98 for a pass. -/
def chainOk (d : PassDesc) (c : Chain) : Bool :=
  let n := c.count
  1 ≤ n && n ≤ 8 && c.reserved = 0 &&
  (List.range n).all (fun i => match c.stages[i]? with
    | some st => stageOk d c (decide (i + 1 = n)) ((c.stages.take i).any (fun x => x.opcode = 0x0E)) st
    | none => false) &&
  (c.stages.drop n).all (fun st => st = stageOf (zeros 16)) &&
  c.slots.all slotOk && (c.slots.filter (fun s => s.kind = 2)).length ≤ 2 &&
  (if c.statMem then addrFormOk c.rowstat && (spaceOf c.rowstat = 1 || spaceOf c.rowstat = 2) && winOf c.rowstat % 8 = 0 else c.rowstat = 0)

/-! Checks of a pass (R163 to R169). -/

/-- The mode, reading and shape of a product (R49, R66, R76, R130, R132, R164, R167). -/
def productForm (d : PassDesc) : Bool :=
  (match modeTile d.statFmt d.strmFmt d.layout with | some t => d.tileK ≤ t.1 && d.tileN ≤ t.2 | none => false) &&
  (!d.reading || isSB d.statFmt) && (!d.fold || (!d.reading && isSB d.strmFmt)) && (!d.ones || d.fold) &&
  d.statElem % blockBytes d.statFmt = 0 && d.strmElem % blockBytes d.strmFmt = 0 &&
  !d.raw && !d.source && d.check ≤ 2 && d.drain ≤ 5 &&
  (if d.tagged then d.drain = 1 || d.drain = 2 || d.drain = 5 else d.drain ≠ 5)

/-- Fields that a product does not use are zero (R166, R134). -/
def productUnused (d : PassDesc) : Bool :=
  (if d.tagged then d.tag.reserved = 0 && d.tag.tensor ≠ 0xFF else d.chains || (d.chainAddr = 0 && d.recordAddr = 0)) &&
  (d.chains || (d.m0 = 0 && d.n0 = 0 && d.outStride = 0 && d.outExp = 0 && d.outElem = 0)) &&
  (d.stores || d.storeBase = 0)

/-- Form of a standalone chain pass and its unused fields (R93, R117, R166). -/
def standaloneForm (d : PassDesc) : Bool :=
  d.statExp = 0 && d.statElem = 0 && d.statFmt = 0 && d.statStride = 0 && d.tileK = 0 && !d.reading && !d.resident && !d.fold && !d.ones && !d.tagged &&
  d.drain = 0 && d.check = 0 && d.tileN ≤ 512 &&
  (if d.source then d.storeBase = 0 && d.strmFmt ≤ 5 && d.strmElem % blockBytes d.strmFmt = 0
   else d.strmFmt = 0 && d.strmElem = 0 && d.strmExp = 0 && d.strmStride = 0)

/-- The store range lies in the store, or in the pane's region (R71, R77, R117). -/
def storeOk (d : PassDesc) : Bool :=
  let share := 131072 / 4 ^ d.layout
  let (lo, hi) := d.storeRange
  d.empty || (d.pane * share ≤ lo && hi ≤ (d.pane + 1) * share)

/-- The output's place (R115, R164, R165, R168). -/
def outputOk (d : PassDesc) (c : Chain) : Bool :=
  d.m0 + d.m ≤ 2 ^ 24 && d.n0 + d.width ≤ 2 ^ 24 &&
  ((c.discards && !d.raw) || (d.outElem % blockBytes c.outFmt = 0 &&
    (if isSB c.outFmt then d.m0 % 32 = 0 && d.n0 % 32 = 0 else d.n0 % blockLen c.outFmt = 0))) &&
  (!d.raw || isSB c.outFmt) &&
  (if c.discards then d.recordAddr = 0 else isVirtual d.recordAddr && vaOf d.recordAddr % 64 = 0)

/-- The tile left for a resident pass: the last one loaded in the pane, under the same layout (R52, R167). -/
def residentDesc (d : PassDesc) (earlier : List Entry) : Option PassDesc :=
  earlier.foldl (fun acc e => match e with
    | .pass x => if x.needsTile && !x.resident then (if x.paneKey = d.paneKey then some x else if x.layout ≠ d.layout then none else acc) else acc
    | _ => acc) none

def residentOk (d : PassDesc) (earlier : List Entry) : Bool :=
  !d.resident || (match residentDesc d earlier with
    | some x => x.statFmt = d.statFmt && x.statElem = d.statElem && x.statExp = d.statExp && x.statStride = d.statStride && x.tileK = d.tileK && x.tileN = d.tileN
    | none => false)

/-- Every window area ends within the window, every virtual one within the space (R161). -/
def areasInside (window : Nat) (l : List Area) : Bool :=
  l.all (fun a => a.isEmpty || (if a.space = 1 then a.hi ≤ window else a.hi ≤ 2 ^ 56))

/-- The partition takes part in a session (R134, R177, R312). -/
def takesPart (s : State) (p : PartId) (sess : Nat) : Bool :=
  match alGet sess s.bind.sessions with | some x => x.state ≠ 0 && x.part = some p | none => false

/-- A pass entry with its program: the codes of R177 that it fails with. -/
def passFails (s : State) (p : PartId) (window : Nat) (earlier : List Entry) (d : PassDesc) (c : Option Chain) (rec : Option ScaleRec) (tables : List Bool) : List Status :=
  let form := if d.type = .product then productForm d && productUnused d else standaloneForm d
  let chain := match c with
    | some c => chainOk d c && outputOk d c && (match rec with | some r => scaleOk c.outFmt r | none => true) && tables.all id
    | none => !d.chains
  let addr := !d.chains || (isVirtual d.chainAddr && vaOf d.chainAddr % 64 = 0)
  let store := if d.type = .product then !d.stores || storeOk d else d.source || storeOk d
  let use := entryUse (.pass d) c
  let ok := d.reserved = 0 && d.layout ≤ 2 && d.pane < 4 ^ d.layout && form && addr && chain && store && residentOk d earlier && areasInside (readLimit s.parts[p].gatherings window) use.reads && areasInside window use.writes
  (if ok then [] else [.badDescriptor]) ++ (if d.tagged ∧ !takesPart s p d.tag.session then [.denied] else [])

/-- The space and range of a mover's end (R171). -/
def endOk (window : Nat) (w : BitVec 64) (pitch rows bytes : Nat) : Bool :=
  let hi := winOf w + (rows - 1) * pitch + bytes
  addrFormOk w && (match spaceOf w with
    | 1 => hi ≤ window
    | 2 => hi ≤ 2 ^ 56
    | 3 => winOf w % 8 = 0 && pitch % 8 = 0 && bytes % 8 = 0 && hi ≤ 131072 * 8
    | 4 => winOf w % 8 = 0 && pitch % 8 = 0 && bytes % 8 = 0 && hi ≤ 512 * 8
    | 5 => winOf w = 0
    | _ => false)

/-- A mover entry: the codes it fails with (R135, R171). -/
def moveFails (s : State) (p : PartId) (window : Nat) (d : MoveDesc) : List Status :=
  let tag := tagOf d.tag.toNat
  let ok := d.reserved = 0 && 1 ≤ d.rows && 1 ≤ d.rowBytes && d.rowBytes * d.rows < 2 ^ 40 &&
    endOk (readLimit s.parts[p].gatherings window) d.src d.srcPitch d.rows d.rowBytes && endOk window d.dst d.dstPitch d.rows d.rowBytes && spaceOf d.src ≠ 5 &&
    (if d.tagged then spaceOf d.dst = 5 && spaceOf d.src = 3 && tag.reserved = 0 && tag.tensor ≠ 0xFF else spaceOf d.dst ≠ 5 && d.tag = 0)
  (if ok then [] else [.badDescriptor]) ++ (if d.tagged ∧ !takesPart s p tag.session then [.denied] else [])

/-! Reading a slice. -/

/-- A list as read: the entries, each with its program where it names one that could be read. -/
structure ListRead where
  array : Nat
  list : BitVec 64
  entRec : BitVec 64
  /-- Entry, its program, and the address and poison of a read that failed. -/
  entries : List (Entry × Option Chain × Bool)
deriving DecidableEq, Repr

/-- The program of a pass that runs one, and whether it could not be read. -/
def readChain (p : PartId) (v : VM) (e : Entry) : Option Chain × Bool :=
  match e with
  | .pass d =>
    if d.chains && isVirtual d.chainAddr then
      (match (v.readBytes p (vaOf d.chainAddr) 288).2 with | some b => (some (chainOf b), false) | none => (none, true))
    else (none, false)
  | _ => (none, false)

/-- A list of `n` entries. -/
def readEntries (p : PartId) (v : VM) (list : BitVec 64) (n : Nat) : List (Entry × Option Chain × Bool) :=
  (List.range n).map fun i =>
    match (v.readBytes p (vaOf list + 64 * i) 64).2 with
    | some b => let e := entryOf b; let c := readChain p v e; (e, c.1, c.2)
    | none => (.bad, none, true)

/-- A failed check: code, array and entry that it names (R177). -/
abbrev Fail := Status × Nat × Nat

/-- The scale-state record that a pass names, where its sector can be read (R35). -/
def readRecord (p : PartId) (v : VM) (d : PassDesc) : Option ScaleRec :=
  if isVirtual d.recordAddr then ((v.readBytes p (vaOf d.recordAddr) 64).2).map scaleOf else none

/-- The tables of a program that can be checked at admission pass R107. -/
def tablesPass (p : PartId) (m : Mem) (c : Option Chain) : List Bool :=
  match c with
  | none => []
  | some c => c.tableSlots.map (fun i =>
      let a := winOf (c.slot i).elemAddr
      winPoisoned m p a 2112 || tableOk (cellsRead m.window[p] a 2112))

/-- The failures of one list's entries, in order. -/
def listFails (s : State) (p : PartId) (window : Nat) (l : ListRead) : List Fail :=
  (List.range l.entries.length).flatMap fun i =>
    match l.entries[i]? with
    | none => []
    | some (e, c, unread) =>
      let earlier := (l.entries.take i).map (·.1)
      let f := match e with
        | .bad => [Status.badDescriptor]
        | .move d => moveFails s p window d
        | .pass d => passFails s p window earlier d c (if d.chains then readRecord p s.vm d else none) (tablesPass p s.mem c) ++
            (if unread then [Status.badDescriptor] else [])
      f.map (fun st => (st, l.array, i))

/-! Store ranges of tagged passes (R136). -/

/-- The store range that an entry touches, and how: tagged pass, untagged pass, flush, or reader. Every untagged mover out of the store counts, whatever its destination, and a strided source counts as the
hull of its rows (notes/assumptions/96.md). -/
def storeTouch (e : Entry) : Option ((Nat × Nat) × Bool) :=
  match e with
  | .pass d =>
    if d.empty then none
    else if d.stores then some (d.storeRange, d.tagged)
    else if d.type = .chain ∧ !d.source then some (d.storeRange, false)
    else none
  | .move d => if spaceOf d.src = 3 ∧ !d.tagged then some ((winOf d.src / 8, (winOf d.src + (d.rows - 1) * d.srcPitch + d.rowBytes + 7) / 8), false) else none
  | .bad => none

/-- Entries whose store range meets one of the other sort (R136). -/
def taggedFails (l : ListRead) : List Fail :=
  let t := (l.entries.map (fun e => storeTouch e.1)).zipIdx
  t.filterMap (fun x => match x.1 with
    | some (r, k) => if t.any (fun y => match y.1 with | some (q, j) => k != j && rangesMeet r q | none => false) then some (.denied, l.array, x.2) else none
    | none => none)

/-! The overlap rule (R178, R179). -/

/-- What is left of an interval beside others. -/
def subtractOne (x : Nat × Nat) (cut : Nat × Nat) : List (Nat × Nat) :=
  if !rangesMeet x cut then [x] else (if x.1 < cut.1 then [(x.1, cut.1)] else []) ++ (if cut.2 < x.2 then [(cut.2, x.2)] else [])
def subtractAll (x : Nat × Nat) (cuts : List (Nat × Nat)) : List (Nat × Nat) := cuts.foldl (fun l c => l.flatMap (fun y => subtractOne y c)) [x]

/-- An interval of sectors with its space, and the array and entry whose access it is; `raw`: a RAW target. -/
structure Span where
  space : Nat
  range : Nat × Nat
  array : Nat
  entry : Nat
  raw : Bool := false
deriving DecidableEq, Repr

def Span.meets (x y : Span) : Bool := x.space = y.space && rangesMeet x.range y.range

/-- Outputs of a list (R178). -/
def outSpans (l : ListRead) : List Span :=
  (l.entries.zipIdx).flatMap fun x =>
    ((entryUse x.1.1 x.1.2.1).writes.filter (fun a => !a.isEmpty)).map (fun a => { space := a.space, range := a.hull, array := l.array, entry := x.2, raw := a.raw })

/-- Inputs of a list: what its entries read and no earlier entry of it writes (R178). -/
def inSpans (l : ListRead) : List Span :=
  let outs := outSpans l
  (l.entries.zipIdx).flatMap fun x =>
    ((entryUse x.1.1 x.1.2.1).reads.filter (fun a => !a.isEmpty)).flatMap fun a =>
      (subtractAll a.hull ((outs.filter (fun o => o.space = a.space && o.entry < x.2)).map (·.range))).map
        (fun r => { space := a.space, range := r, array := l.array, entry := x.2, raw := a.raw })

/-- Record areas: each list's entry records and the completion record's slot. -/
def recordSpans (ls : List ListRead) (rec : Nat) : List Span :=
  ls.map (fun l => { space := 2, range := (vaOf l.entRec / 256 * 256, roundUp (vaOf l.entRec + 16 * l.entries.length) 256), array := l.array, entry := 0xFFFF }) ++
  [{ space := 2, range := (rec / 256 * 256, roundUp (rec + 32) 256), array := 0xFF, entry := 0xFFFF }]

/-- The entries, in table and list order, whose ranges overlap against R179. -/
def overlapFails (ls : List ListRead) (rec : Nat) : List Fail :=
  let outs := ls.flatMap outSpans
  let ins := ls.flatMap inSpans
  let recs := recordSpans ls rec
  let own (o i : Span) : Bool := o.raw && i.raw && i.array = o.array && i.entry = o.entry
  let badOut := outs.filter (fun o => ins.any (fun i => i.meets o && !own o i) ||
    outs.any (fun x => x.array ≠ o.array && x.meets o) || recs.any (fun r => r.meets o))
  let badIn := ins.filter (fun i => outs.any (fun o => i.meets o && !own o i) || recs.any (fun r => r.meets i))
  let badRec := (recs.zipIdx).filter (fun x => (recs.zipIdx).any (fun y => x.2 ≠ y.2 && x.1.meets y.1))
  let bad := badOut ++ badIn
  (ls.flatMap fun l => (List.range l.entries.length).filterMap (fun i => if bad.any (fun b => b.array = l.array && b.entry = i) then some (Status.overlap, l.array, i) else none)) ++
  badRec.map (fun x => (Status.overlap, x.1.array, 0xFFFF))

/-! The slice (R175 to R177). -/

/-- A slice as read at an offering. -/
structure SliceRead where
  hdr : SliceHdr
  lists : List ListRead
deriving DecidableEq, Repr

/-- Breaches of a header. -/
def headerFails (s : State) (p : PartId) (h : SliceHdr) : List Fail :=
  let ok := h.reserved = 0 && isVirtual h.tableAddr && vaOf h.tableAddr % 32 = 0 && virtualOrZero 32 h.halfAddr && 1 ≤ h.predEnergy && 1 ≤ h.predCycles &&
    1 ≤ h.arrayCount && h.arrayCount ≤ 128 && (h.session ≠ 0xFF || h.version = 0)
  (if ok then [] else [(.badDescriptor, 0xFF, 0xFFFF)]) ++ (if h.session ≠ 0xFF ∧ !takesPart s p h.session then [(.denied, 0xFF, 0xFFFF)] else [])

/-- The array table's entries; none where one cannot be read. -/
def readTable (p : PartId) (v : VM) (h : SliceHdr) : List (Option TableEntry) :=
  (List.range (min h.arrayCount 128)).map (fun i => ((v.readBytes p (vaOf h.tableAddr + 32 * i) 32).2).map tableEntryOf)

/-- Breaches of entry `i` of the array table (R176, R177). -/
def tableFails (s : State) (p : PartId) (t : List (Option TableEntry)) (i : Nat) : List Fail :=
  match t[i]? with
  | none => []
  | some none => [(.badDescriptor, 0xFF, 0xFFFF)]
  | some (some e) =>
      let rises := match (if i = 0 then none else t[i - 1]?) with | some (some y) => decide (y.array < e.array) | _ => true
      let ok := e.reserved = 0 && isVirtual e.list && vaOf e.list % 64 = 0 && isVirtual e.entRec && vaOf e.entRec % 16 = 0 && 1 ≤ e.count && e.array < 128 && rises &&
        vaOf e.list + 64 * e.count ≤ 2 ^ 56 && vaOf e.entRec + 16 * e.count ≤ 2 ^ 56
      (if ok then [] else [(.badDescriptor, e.array, 0xFFFF)]) ++ (if e.array < 128 ∧ !s.parts[p].force.bitmap.getLsbD e.array then [(.denied, e.array, 0xFFFF)] else [])

/-- The list that a table entry names. -/
def readList (p : PartId) (v : VM) (e : TableEntry) : ListRead :=
  { array := e.array, list := e.list, entRec := e.entRec,
    entries := if isVirtual e.list ∧ vaOf e.list + 64 * e.count ≤ 2 ^ 56 then readEntries p v e.list e.count else [] }

/-- Entries of a list that write a registered bank (R261), or read one against its entry (R259). -/
def gatherFails (s : State) (p : PartId) (h : SliceHdr) (l : ListRead) : List Fail :=
  ((l.entries.zipIdx).flatMap (fun x => (entryUse x.1.1 x.1.2.1).writes.filterMap (fun a =>
    if a.space = 1 ∧ !a.isEmpty ∧ gatherOutput s.parts[p].gatherings a.hull.1 (a.hull.2 - a.hull.1) = .denied then some (Status.denied, l.array, x.2) else none))) ++
  (inSpans l).filterMap (fun i =>
    if i.space = 1 ∧ gatherInput s.parts[p].gatherings h.session h.version i.range.1 (i.range.2 - i.range.1) = .bad then some (Status.badDescriptor, l.array, i.entry) else none)

/-- Every failure of a slice's header, table and lists: the header's, then each table entry's and its list's in list order (R177). A RAW pass in a slice with halves breaks R169 by the header's HALF_ADDR
and names no entry (notes/assumptions/95.md). -/
def allFails (s : State) (p : PartId) (rec : Nat) (h : SliceHdr) (t : List (Option TableEntry)) (lists : List ListRead) : List Fail :=
  let window := windowBytes s.parts[p].force.bitmap
  let raw := h.halfAddr ≠ 0 ∧ lists.any (fun l => l.entries.any (fun e => match e.1 with | .pass d => d.raw | _ => false))
  let laps := overlapFails lists rec
  headerFails s p h ++ (if raw then [(.badDescriptor, 0xFF, 0xFFFF)] else []) ++
  (List.range t.length).flatMap (fun k =>
    tableFails s p t k ++
    (match t[k]? with
     | some (some e) =>
       let l := readList p s.vm e
       sortKey (fun f : Fail => f.2.2) (listFails s p window l ++ taggedFails l ++ gatherFails s p h l ++ laps.filter (fun f => f.2.1 = l.array && f.2.2 ≠ 0xFFFF))
     | _ => [])) ++
  laps.filter (fun f => f.2.2 = 0xFFFF)

/-- A slice's header, table and lists with their failures; its completion record lies at `rec`. The table is read wherever the header says in due form where it lies. -/
def checkOne (s : State) (p : PartId) (rec : Nat) (h : SliceHdr) : SliceRead × List Fail :=
  let t := if isVirtual h.tableAddr ∧ vaOf h.tableAddr % 32 = 0 then readTable p s.vm h else []
  let lists := t.filterMap (fun e => e.map (readList p s.vm))
  ({ hdr := h, lists := lists }, allFails s p rec h t lists)

/-- The two headers of a halves block (R190). -/
def readHalves (p : PartId) (v : VM) (addr : BitVec 64) : Option (SliceHdr × SliceHdr) :=
  ((v.readBytes p (vaOf addr) 128).2).map (fun b => (headerOf (b.take 32), headerOf (slice b 32 32)))

/-- A slice and its halves to a depth of three (R177), counted from the outermost slice (notes/assumptions/95.md); a failure in a halves block names no entry. -/
def checkSlice (s : State) (p : PartId) (rec : Nat) : Nat → SliceHdr → SliceRead × List Fail
  | 0, h => checkOne s p rec h
  | n + 1, h =>
    let r := checkOne s p rec h
    if h.halfAddr = 0 ∨ !isVirtual h.halfAddr then r
    else match readHalves p s.vm h.halfAddr with
      | none => (r.1, r.2 ++ [(.badDescriptor, 0xFF, 0xFFFF)])
      | some (a, b) =>
        let half (x : SliceHdr) (off : Nat) : List Fail :=
          (if x.session = h.session ∧ x.version = h.version then [] else [(.badDescriptor, 0xFF, 0xFFFF)]) ++
          (checkSlice s p (vaOf h.halfAddr + off) n x).2.map (fun f => (f.1, 0xFF, 0xFFFF))
        (r.1, r.2 ++ half a 64 ++ half b 96)

/-- The failure that the record carries: the first of DENIED, BAD_DESCRIPTOR and OVERLAP, at its first entry (R177). -/
def firstFail (l : List Fail) : Option Fail :=
  let pick (c : Status) : Option Fail := l.find? (fun f => f.1 = c)
  (pick .denied).or ((pick .badDescriptor).or (pick .overlap))

/-- What the gatherings say of a slice whose checks pass (R259): the worst of its window inputs. -/
def gatherVerdict (s : State) (p : PartId) (r : SliceRead) : GatherVerdict :=
  (r.lists.flatMap inSpans).foldl (fun w i =>
    if i.space = 1 then
      let g := gatherInput s.parts[p].gatherings r.hdr.session r.hdr.version i.range.1 (i.range.2 - i.range.1)
      if g.rank < w.rank then g else w
    else w) .ok

/-- Stash pages that a slice may write and that are not backed (R149). -/
def stashPages (s : State) (p : PartId) (r : SliceRead) : List Nat :=
  ((r.lists.flatMap outSpans).flatMap (fun o => if o.space = 2 then
    (s.mem.pages[p].filter (fun x => x.2.stash && x.2.loc = .unbacked && rangesMeet (x.1 * 2 ^ 21, (x.1 + 1) * 2 ^ 21) o.range)).map (·.1) else [])).dedup

end Sys2Proof.Machine
end

