-- ==== Sys2Proof/Machine/Runs.lean ====
section
/-!
DEFINITION. Machine/Runs.lean: the slice that runs on an array, the order between the entries of one list (R173, R174, R489), and mover transfers (R74, R135, R170 to R172, R248, R415).
-/

namespace Sys2Proof.Machine

/-! The running list. -/

/-- What an array runs: partition, ring, slice, and the array's part of it. -/
def hereRun (s : State) (a : ArrayId) : Option (PartId × RingId × SliceRun × ArrayRun) :=
  s.arrays[a].cur.bind fun pr => s.rings[pr.1][pr.2].run.bind fun run =>
    (run.arrays.find? (fun x => x.array = a)).map (fun x => (pr.1, pr.2, run, x))

/-- The entries of the list that an array runs. -/
def entriesOf (s : State) (a : ArrayId) : List EntryRun := match hereRun s a with | some (_, _, _, x) => x.entries | none => []
def entryAt (s : State) (a : ArrayId) (e : Nat) : Option EntryRun := (entriesOf s a)[e]?
def partHere (s : State) (a : ArrayId) : PartId := match s.arrays[a].cur with | some (p, _) => p | none => 0
/-- The number of the slice that runs on an array (R182). -/
def sliceHere (s : State) (a : ArrayId) : Nat := match hereRun s a with | some (_, _, run, _) => run.seq | none => 0

/-- Change the part of the running slice that an array has. -/
def updRun (a : ArrayId) (f : ArrayRun → ArrayRun) (s : State) : State :=
  match s.arrays[a].cur with
  | some (p, r) => s.updRing p r (fun g => { g with run := g.run.map (fun run => { run with arrays := run.arrays.map (fun x => if x.array = a then f x else x) }) })
  | none => s
/-- Change entry `e` of the running list. -/
def updEntry (a : ArrayId) (e : Nat) (f : EntryRun → EntryRun) (s : State) : State := updRun a (fun x => { x with entries := x.entries.modify e f }) s
def addConds (a : ArrayId) (e : Nat) (l : List Status) (s : State) : State := updEntry a e (fun x => { x with conds := l.foldl (fun c st => addCond st c) x.conds }) s

def EntryRun.pass (x : EntryRun) : Option PassDesc := match x.desc with | .pass d => some d | _ => none
def EntryRun.move (x : EntryRun) : Option MoveDesc := match x.desc with | .move d => some d | _ => none
/-- An array pass. -/
def EntryRun.isProduct (x : EntryRun) : Bool := match x.desc with | .pass d => d.type = .product | _ => false
/-- The entry has nothing left to read or write (R174). -/
def EntryRun.over' (x : EntryRun) : Bool := x.ended || x.stopped
/-- All rows of a pass have drained or been read. -/
def EntryRun.drained (x : EntryRun) : Bool := x.over' || (match x.desc with | .pass d => d.m ≤ x.rows | _ => false)
/-- All rows of a pass have left the chain engine. -/
def EntryRun.left (x : EntryRun) : Bool := x.over' || (match x.desc with | .pass d => d.m ≤ x.rows && (!d.chains || d.m ≤ x.quanted) | _ => true)

/-! Groups of the check gate (R489). -/

/-- The entry that opens the group of each product pass of a pane, in list order. -/
def groupStarts (key : Nat) (l : List EntryRun) : List (Nat × Nat) :=
  ((l.zipIdx).foldl (fun (acc : List (Nat × Nat) × Option Nat) x =>
    match x.1.desc with
    | .pass d =>
      if d.type = .product ∧ !d.empty ∧ d.paneKey = key then
        match d.drain with
        | 1 => (acc.1 ++ [(x.2, x.2)], some x.2)
        | 2 => let g := acc.2.getD x.2; (acc.1 ++ [(x.2, g)], some g)
        | 4 => (acc.1 ++ [(x.2, acc.2.getD x.2)], none)
        | _ => (acc.1 ++ [(x.2, x.2)], none)
      else acc
    | _ => acc) ([], none)).1

/-- The entries of the group of entry `e`. -/
def groupOf (l : List EntryRun) (e : Nat) : List Nat :=
  match (l[e]?).bind (·.pass) with
  | some d =>
    let gs := groupStarts d.paneKey l
    match alGet e gs with
    | some g => (gs.filter (fun x => x.2 = g)).map (·.1)
    | none => [e]
  | none => [e]

/-- Every check of every pass of the group has finished and passed, or a dispute about it has been decided. -/
def gateOpen (l : List EntryRun) (e : Nat) : Bool :=
  (groupOf l e).all (fun i => match l[i]? with | some x => !x.checked || (x.checkDone && !x.checkFailed) | none => true)

/-! Order between entries (R174, R232, R258). -/

/-- The area of a window lies in granules still to be moved, or in bank bytes still to arrive. -/
def notArrived (s : State) (p : PartId) (a : Area) : Bool :=
  a.space = 1 && !a.isEmpty &&
  (s.mem.moves.any (fun g => g.1 = p && rangesMeet (g.2 * 65536, (g.2 + 1) * 65536) (a.lo, a.hi)) ||
   s.mem.fetches.any (fun f => f.part = p && (match s.parts[p].gatherings[f.entry]? with
     | some g => let lo := g.winOff + f.bank * bankBytes g; rangesMeet (lo + 256 * f.pos, lo + g.bytes) (a.lo, a.hi)
     | none => false)))

/-- Earlier entries allow a write of the areas. -/
def mayWrite (s : State) (a : ArrayId) (e : Nat) (areas : List Area) : Bool :=
  ((entriesOf s a).take e).all (fun y =>
    let u := entryUse y.desc y.chain
    !(u.writes ++ u.reads).any (fun w => areas.any (fun x => w.meets x)) || (y.over' && y.provisional = 0))

/-- Entries of an on-array space that a mover's end touches, as the hull of its rows: space 3 the store, 4 the row-statistic buffer. -/
def endEntries (space : Nat) (d : MoveDesc) (w : BitVec 64) (pitch : Nat) : List (Nat × Nat) :=
  if spaceOf w = space then [(winOf w / 8, (winOf w + (d.rows - 1) * pitch + d.rowBytes + 7) / 8)] else []
/-- Store entries that a mover reads or writes, and row-statistic entries. -/
def moveStore (d : MoveDesc) : List (Nat × Nat) := endEntries 3 d d.src d.srcPitch ++ endEntries 3 d d.dst d.dstPitch
def moveBuf (d : MoveDesc) : List (Nat × Nat) := endEntries 4 d d.src d.srcPitch ++ endEntries 4 d d.dst d.dstPitch

/-- Row-statistic entries that a pass reads or writes: its ROWBUF operands, and its row-reduce stages with STAT_BUF (R99, R111). -/
def passBuf (d : PassDesc) (c : Option Chain) : List (Nat × Nat) :=
  match c with
  | some c => if d.empty then [] else (c.used.filter (fun st => st.kind = 5 || (st.opcode = 0x0E && st.statBuf))).map (fun st => (st.statBase, st.statBase + d.m))
  | none => []
/-- Row-statistic entries that an entry touches. -/
def bufUse (y : EntryRun) : List (Nat × Nat) := match y.desc with | .pass d => passBuf d y.chain | .move d => moveBuf d | .bad => []

/-- Earlier entries allow entry `e` to touch row-statistic entries (R111, R113, R174): movers that touch them have ended, and, for a mover, passes that touch them have left the chain engine with their gate open. -/
def mayBuf (s : State) (a : ArrayId) (e : Nat) (mover : Bool) (ranges : List (Nat × Nat)) : Bool :=
  ((entriesOf s a).take e).all fun y =>
    !(bufUse y).any (fun r => ranges.any (rangesMeet r)) ||
    (match y.desc with | .move _ => y.over' | .pass _ => !mover || (y.left && y.provisional = 0) | .bad => true)

/-- Earlier users of the array's Bindery port, BINDERY passes and flushes, have delivered their rows (R135). -/
def portFree (s : State) (a : ArrayId) (e : Nat) : Bool :=
  ((entriesOf s a).take e).all fun y =>
    match y.desc with
    | .pass d => !(d.type = .product && d.drain = 5 && !d.empty) || y.drained
    | .move d => !d.tagged || y.over'
    | .bad => true

/-- Earlier entries allow entry `e` to touch a store range (R87, R135, R174, R489): movers that touch it have ended, standalone passes that read it have read it, passes that write it have drained, and, where `e` writes, no other group's gate is closed over it. -/
def mayStore (s : State) (a : ArrayId) (e : Nat) (writes : Bool) (range : Nat × Nat) : Bool :=
  let l := entriesOf s a
  (l.take e).zipIdx.all fun x =>
    match x.1.desc with
    | .move d => x.1.over' || !(moveStore d).any (fun r => rangesMeet r range)
    | .pass d =>
      if !(d.stores || (d.type = .chain && !d.source)) ∨ d.empty ∨ !rangesMeet d.storeRange range then true
      else x.1.drained && (!(writes || s.arrays[a].dispute.isSome) || (groupOf l e).contains x.2 || gateOpen l x.2)
    | .bad => true

/-! Remote window bytes (R231). -/

/-- Bytes of a run that lie in segments of dies other than the array's. -/
def remoteRun (bitmap : List Nat) (die lo hi : Nat) : Nat :=
  ((bitmap.zipIdx).map (fun x =>
    let a := max lo (x.2 * 3145728)
    let b := min hi ((x.2 + 1) * 3145728)
    if x.1 / 32 ≠ die ∧ a < b then b - a else 0)).foldl (· + ·) 0

/-- Count the remote bytes of a read by engines of a die. -/
def countRemoteOn (die : Nat) (p : PartId) (areas : List Area) (s : State) : State :=
  let bm := bitmapList s.parts[p].force.bitmap
  let n := (areas.map (fun x => if x.space = 1 then ((List.range x.count).map (fun i => remoteRun bm die (x.base + i * x.pitch) (x.base + i * x.pitch + x.len))).foldl (· + ·) 0 else 0)).foldl (· + ·) 0
  s.updPart p (Part.count 0x0D n)
/-- Count the remote bytes of a read by an array's engines. -/
def countRemote (a : ArrayId) (areas : List Area) (s : State) : State := countRemoteOn (a.val / 32) (partHere s a) areas s

/-! Movers. -/

/-- The sectors that a transfer finds bad, by sector number. -/
abbrev Faults := List (Nat × Delivered)

/-- What reading part of a mover's source gives: bytes, the worst status of its poisoned bytes, which bytes are poisoned, and the status that stops it. -/
structure SrcRead where
  bytes : Bytes
  poison : List Status := []
  stop : Option Status := none
deriving DecidableEq, Repr

/-- Bytes `off..off+len-1` of a list of A48 entries in their 8-byte layout (R16). -/
def a48Bytes (store : List (Nat × A48)) (off len : Nat) : Bytes :=
  (List.range len).map (fun i => (leBytes 8 (a48Word ((alGet ((off + i) / 8) store).getD .zero))).getD ((off + i) % 8) 0)

/-- Read `len` bytes of virtual memory from `va`, sector by sector; it stops at an unmapped sector or a revoked key (R248, R451). -/
def readVirtual (p : PartId) (faults : Faults) (va len : Nat) (v : VM) : VM × SrcRead :=
  (pieces va len).foldl (fun (acc : VM × SrcRead) x =>
    match acc with
    | (v, r) =>
      if r.stop.isSome then (v, r)
      else
        match v.readSector p (x.1 / 256 * 256) ((alGet (x.1 / 256) faults).getD (.asStored 0)) true with
        | (v, .data d) => (v, { r with bytes := r.bytes ++ slice (sectorBytes d) (x.1 % 256) x.2 })
        | (v, .poisoned .keyRevoked) => (v, { r with stop := some .keyRevoked })
        | (v, .poisoned st) => (v, { r with bytes := r.bytes ++ zeros x.2, poison := addCond .poisonIn (addCond st r.poison) })
        | (v, .unmapped) => (v, { r with stop := some .quota })) (v, { bytes := [] })

/-- Read a piece of a mover's source. -/
def readSource (s : State) (a : ArrayId) (p : PartId) (faults : Faults) (w : BitVec 64) (off len : Nat) : State × SrcRead :=
  let at' := winOf w + off
  match spaceOf w with
  | 1 => (countRemote a [{ space := 1, base := at', pitch := 0, count := 1, len := len }] s,
          { bytes := cellsRead s.mem.window[p] at' len, poison := if winPoisoned s.mem p at' len then [.poisonIn] else [] })
  | 2 => let r := readVirtual p faults at' len (s.vmOn (a.val / 32)); (s.putVM r.1, r.2)
  | 3 => (s, { bytes := a48Bytes s.arrays[a].store at' len })
  | 4 => (s, { bytes := a48Bytes s.arrays[a].rowbuf at' len })
  | _ => (s, { bytes := [] })

/-- Write a piece to a mover's destination, which lies in one unit: the status that stops it, and the units it poisons itself (R412, R415). -/
def writeDest (s : State) (a : ArrayId) (p : PartId) (w : BitVec 64) (off : Nat) (r : SrcRead) (own : List (Nat × Nat)) : State × Option Status × List (Nat × Nat) :=
  let at' := winOf w + off
  let bad := !r.poison.isEmpty
  let unit := (spaceOf w, at' / 256)
  let entries := (List.range (r.bytes.length / 8)).map (fun i => a48Restore (leNat (slice r.bytes (8 * i) 8)))
  let put (l : List (Nat × A48)) : List (Nat × A48) := (entries.zipIdx).foldl (fun l x => alPut .zero (at' / 8 + x.2) (if bad then .poison else x.1) l) l
  match spaceOf w with
  | 1 =>
    let m := winWrite p at' r.bytes s.mem
    ({ s with mem := if bad then winMark p at' r.bytes.length m else m }, none, if bad then unit :: own else own)
  | 2 =>
    if bad then
      match (s.vmOn (a.val / 32)).poisonSector p at' with
      | (v, .done) => (s.putVM v, none, unit :: own)
      | (v, st) => (s.putVM v, some st, own)
    else
      match (s.vmOn (a.val / 32)).writePart p at' r.bytes (.asStored 0) true with
      | (v, .done) => (s.putWrites v, none, own)
      | (v, .poisonIn) => (s.putVM v, if own.contains unit then none else some .poisonIn, own)
      | (v, st) => (s.putVM v, some st, own)
  | 3 => (s.updArray a (fun x => { x with store := put x.store }), none, own)
  | 4 => (s.updArray a (fun x => { x with rowbuf := put x.rowbuf }), none, own)
  | _ => (s, none, own)

/-- Bytes left in the destination's unit. -/
def destRoom (w : BitVec 64) (off : Nat) : Nat := if spaceOf w = 3 ∨ spaceOf w = 4 then 8 else 256 - (winOf w + off) % 256

/-- Copy pieces of entry `e` until `n` bytes are committed or the transfer stops (R172, R248, R415). -/
def copyGo (a : ArrayId) (e : Nat) (d : MoveDesc) (faults : Faults) (n : Nat) : Nat → State → State
  | 0, s => s
  | f + 1, s =>
    match entryAt s a e with
    | none => s
    | some x =>
      if n ≤ x.done ∨ x.stopped then s
      else
        let row := x.done / d.rowBytes
        let col := x.done % d.rowBytes
        let len := min (min (d.rowBytes - col) (n - x.done)) (destRoom d.dst (row * d.dstPitch + col))
        let p := partHere s a
        let (s, r) := readSource s a p faults d.src (row * d.srcPitch + col) len
        let (s, stop, own) := if r.bytes.isEmpty then (s, none, x.selfPoison) else writeDest s a p d.dst (row * d.dstPitch + col) r x.selfPoison
        let stop' := match stop with | some st => some st | none => r.stop
        let s := addConds a e (r.poison ++ stop'.toList) s
        copyGo a e d faults n f (updEntry a e (fun y => { y with done := if stop.isSome then y.done else y.done + r.bytes.length, selfPoison := own, stopped := stop'.isSome }) s)

/-- The rows of a gradient flush, from the store to the Bindery (R135, R137): provisional until the slice completes. -/
def flushRows (a : ArrayId) (e : Nat) (d : MoveDesc) (s : State) : State :=
  match s.arrays[a].cur with
  | none => s
  | some (p, r) =>
    let tag := tagOf d.tag.toNat
    let rows := (List.range d.rows).map (fun i => ({
      part := p, ring := r, array := a, entry := e, tag := { tag with onesRow := tag.onesRow && decide (i + 1 = d.rows) }, row := i,
      ents := (List.range (d.rowBytes / 8)).map (fun j => (alGet ((winOf d.src + i * d.srcPitch) / 8 + j) s.arrays[a].store).getD .zero) } : GradRow))
    { s with bind := { s.bind with provisional := s.bind.provisional ++ rows } }

/-- The part of a transfer that commits its first `n` bytes. -/
def MoveDesc.upTo (d : MoveDesc) (n : Nat) : MoveDesc := if n ≤ d.rowBytes then { d with rows := 1, rowBytes := n } else { d with rows := min d.rows (ceilDiv n d.rowBytes) }

/-- The earlier entries of the list let a transfer go on to its first `n` bytes (R135, R174). -/
def moverFree (s : State) (a : ArrayId) (e : Nat) (d : MoveDesc) (n : Nat) : Bool :=
  let d := d.upTo n
  let (src, dst) := moveAreas d
  let l := entriesOf s a
  src.all (fun x => !notArrived s (partHere s a) x) &&
  (l.take e).all (fun y => !((entryUse y.desc y.chain).writes.any (fun w => src.any (fun x => w.meets x))) || (y.over' && y.provisional = 0)) &&
  mayWrite s a e dst && (moveStore d).all (fun r => mayStore s a e (spaceOf d.dst = 3 || d.tagged) r) && mayBuf s a e true (moveBuf d) && (!d.tagged || portFree s a e)

/-- Run a transfer on until `n` bytes are committed. -/
def copyTo (a : ArrayId) (e : Nat) (d : MoveDesc) (faults : Faults) (n : Nat) (s : State) : State :=
  if d.tagged then s else copyGo a e d faults (min n (d.rows * d.rowBytes)) (min n (d.rows * d.rowBytes) + 1) s

/-- Bytes that a transfer must have committed for an area of its destination to hold them all. -/
def neededBytes (d : MoveDesc) (x : Area) : Nat :=
  let total := d.rows * d.rowBytes
  if spaceOf d.dst ≠ x.space ∨ x.hi ≤ winOf d.dst then 0
  else if d.dstPitch = 0 then total
  else
    let last := (x.hi - 1 - winOf d.dst) / d.dstPitch
    if d.rows ≤ last then total else min total (last * d.rowBytes + min d.rowBytes (x.hi - winOf d.dst - last * d.dstPitch))

/-- Earlier entries allow a read of the areas (R140, R174, R489): passes that write them have ended with their gate open, and movers that write them have ended, or have started and may go on so far. -/
def mayRead (s : State) (a : ArrayId) (e : Nat) (areas : List Area) : Bool :=
  areas.all (fun x => !notArrived s (partHere s a) x) &&
  (((entriesOf s a).take e).zipIdx).all (fun y =>
    let hits := (entryUse y.1.desc y.1.chain).writes.any (fun w => areas.any (fun x => w.meets x))
    !hits || (match y.1.desc with
      | .move d => y.1.over' || (y.1.started && moverFree s a y.2 d ((areas.map (neededBytes d)).foldl max 0))
      | _ => y.1.over' && y.1.provisional = 0))

/-- Movers in flight have delivered what a later entry reads (R174): they are run on so far. -/
def advanceMovers (a : ArrayId) (e : Nat) (areas : List Area) (s : State) : State :=
  (List.range e).foldl (fun s i =>
    match entryAt s a i with
    | some y => (match y.desc with
      | .move d =>
        if y.started ∧ !y.over' then copyTo a i d [] ((areas.map (neededBytes d)).foldl max 0) s else s
      | _ => s)
    | none => s) s

/-- Transfers of a list in flight (R173). -/
def inFlight (l : List EntryRun) : Nat := (l.filter (fun x => x.move.isSome && x.started && !x.over')).length

/-- MOVER_START: fewer than four in flight, and a fence waits for every earlier entry (R170, R173). -/
def moverReady (s : State) (a : ArrayId) (e : Nat) : Bool :=
  let l := entriesOf s a
  match l[e]? with
  | some x => (match x.desc with
    | .move d => !x.started && inFlight l < 4 && (!d.fence || (l.take e).all (·.over'))
    | _ => false)
  | none => false

def execMoverStart (a : ArrayId) (e : Nat) (s : State) : Res :=
  need (moverReady s a e) (updEntry a e (fun x => { x with started := true }) s)

/-- Everything on the array is done: entries ended, gates open (R219). -/
def arrayDone (l : List EntryRun) : Bool := l.all (fun x => x.over' && x.provisional = 0 && (!x.checked || (x.checkDone && !x.checkFailed)))

/-- The array has finished the list of its slice and is free for the next one. -/
def finishArray (a : ArrayId) (s : State) : State :=
  if s.arrays[a].cur.isSome ∧ arrayDone (entriesOf s a) ∧ s.arrays[a].dispute.isNone then
    (updRun a (fun x => { x with finished := true }) s).updArray a (fun x => { x with cur := none })
  else s

/-- MOVER_COMPLETE: every byte is committed, or the transfer has stopped (R172). -/
def moverEnd (a : ArrayId) (e : Nat) (d : MoveDesc) (faults : Faults) (s : State) : State :=
  let s := if d.tagged then updEntry a e (fun x => { x with done := d.rows }) (flushRows a e d s) else copyTo a e d faults (d.rows * d.rowBytes) s
  finishArray a (updEntry a e (fun x => { x with ended := true }) s)

def execMoverComplete (a : ArrayId) (e : Nat) (faults : Faults) (s : State) : Res :=
  match entryAt s a e with
  | some x => (match x.desc with
    | .move d => need (x.started && !x.ended && (x.stopped || moverFree s a e d (d.rows * d.rowBytes))) (moverEnd a e d faults s)
    | _ => .fault .noCause)
  | none => .fault .noCause

end Sys2Proof.Machine
end

