-- ==== Sys2Proof/Machine/Arrays.lean ====
section
/-!
DEFINITION. Machine/Arrays.lean: passes on an array and its chain engine: loads, rows, statistics, the quantiser's writes (chapters 2 to 5), and the checks of a pass with its disputes (R485 to R493).
-/

namespace Sys2Proof.Machine

/-! Starting (R79, R166 to R169, R173, R488). -/

/-- Checking is on for a pass of a partition (R488); the second part: the pass asked for none and is refused. -/
def checkOn (cls policy : Nat) (check : Nat) : Bool × Bool :=
  match cls with
  | 0 => (check = 1, false)
  | 1 => if check = 2 then (decide (policy ≠ 0), decide (policy ≠ 0)) else (true, false)
  | _ => (true, check = 2)

/-- Two passes use common cells: the same pane, or different layouts (R76, R173). -/
def cellsMeet (x y : PassDesc) : Bool := x.layout ≠ y.layout || x.pane = y.pane

/-- The cell mode, reading and layout agree (R77). -/
def sameMode (x y : PassDesc) : Bool := x.layout = y.layout && x.reading = y.reading && elemBits x.statFmt = elemBits y.statFmt && elemBits x.strmFmt = elemBits y.strmFmt

/-- Two product passes may not be active at one moment: they differ in layout, cell mode or reading, or drain to different chain programs (R68, R77). -/
def clash (d y : PassDesc) : Bool := !sameMode d y || (d.layout ≠ 0 && d.chains && y.chains && d.chainAddr ≠ y.chainAddr)

/-- Pass `e` may start beside the passes before it, and beside those after it that have started (R68, R77, R117, R173). -/
def passMayStart (l : List EntryRun) (e : Nat) (d : PassDesc) : Bool :=
  (l.take e).all (fun x =>
    match x.desc with
    | .pass y =>
      if y.empty ∨ x.over' then x.started || x.over'
      else if d.type = .chain ∨ y.type = .chain then x.started && x.left
      else if clash d y then x.drained || (!x.started && !cellsMeet d y)
      else !cellsMeet d y || x.started
    | _ => true) &&
  (l.drop (e + 1)).all (fun x =>
    match x.desc with
    | .pass y => !x.started || x.drained || d.empty || y.empty || !clash d y
    | _ => true)

/-- A pass starts: its program is read once, checking is settled, a RAW pass skips what is added, and a degenerate pass is done (R79, R94, R169).
A program that has become unreadable since the admission leaves the pass with the copy that the admission read (notes/assumptions/97.md). -/
def passStart (a : ArrayId) (e : Nat) (x : EntryRun) (d : PassDesc) (s : State) : State :=
  let p := partHere s a
  let prog := match readChain p s.vm x.desc with | (some c, _) => some c | _ => x.chain
  let (on, refused) := if d.type = .product then checkOn s.parts[p].cls.toNat s.ras.policy[p].toNat d.check else (false, false)
  let skip := min x.skip d.m
  let done := d.empty || (d.raw && d.m ≤ skip)
  let s := s.updPart p (fun y => (y.count 0x0F (if on && !d.empty then 1 else 0)).count 0x12 (if refused then 1 else 0))
  let names : List (BitVec 64) := match prog with | some c => c.tableSlots.map (fun i => (c.slot i).elemAddr) | none => []
  let s := s.updArray a (fun y => { y with tableClock := y.tableClock + 1, tables := y.tables.map (fun t => if names.contains t.addr then { t with named := y.tableClock + 1 } else t) })
  finishArray a (updEntry a e (fun y => { y with started := true, stamp := s.arrays[a].tableClock, chain := prog, checked := on && !d.empty, rows := skip, quanted := skip, done := y.done + skip, ended := done }) s)

def execPassStart (a : ArrayId) (e : Nat) (s : State) : Res :=
  match entryAt s a e with
  | some x => (match x.desc with
    | .pass d => need (!x.started && !x.ended && passMayStart (entriesOf s a) e d) (passStart a e x d s)
    | _ => .fault .noCause)
  | none => .fault .noCause

/-- Poisoned blocks were read: the record will carry POISON_IN (R33). -/
def sawPoison (a : ArrayId) (e : Nat) (b : Bool) (s : State) : State := if b then addConds a e [.poisonIn] s else s

/-! Loads (R51 to R53, R100, R109, R128, R131). -/

/-- The load path is free and the pass is the next one with a tile to load (R53). -/
def loadReady (s : State) (a : ArrayId) (e : Nat) (x : EntryRun) (d : PassDesc) : Bool :=
  d.needsTile && !d.resident && !x.loaded && !x.over' && s.arrays[a].shadow.isNone &&
  ((entriesOf s a).take e).all (fun y => match y.desc with | .pass z => !(z.needsTile && !z.resident) || y.working || y.over' | _ => true) &&
  mayRead s a e (statAreas d)

def loadTile (a : ArrayId) (e waited : Nat) (d : PassDesc) (s : State) : State :=
  let s := countRemote a (statAreas d) (advanceMovers a e (statAreas d) s)
  let t := readTile s.mem (partHere s a) d
  let s := s.updArray a (fun y => { y with shadow := some (e, d.paneKey, t) })
  sawPoison a e t.poisoned (updEntry a e (fun y => { y with loaded := true, load := y.load + waited }) s)

def execStationaryTileLoad (a : ArrayId) (e : Nat) (waited : Nat) (s : State) : Res :=
  match entryAt s a e with
  | some x => (match x.desc with
    | .pass d => need (loadReady s a e x d) (loadTile a e waited d s)
    | _ => .fault .noCause)
  | none => .fault .noCause

/-- The earlier array passes on the same cells have streamed their last token (R51). -/
def boundaryReached (l : List EntryRun) (e : Nat) (d : PassDesc) : Bool :=
  (l.take e).all (fun x => match x.desc with | .pass y => !(y.type = .product && cellsMeet d y) || x.drained | _ => true)

/-- The shadow becomes the working tile at the pass boundary (R51). -/
def swapTile (a : ArrayId) (e k : Nat) (t : Tile) (s : State) : State :=
  updEntry a e (fun y => { y with working := true })
    (s.updArray a (fun y => { y with shadow := none, working := (k, t) :: y.working.filter (fun w => w.1 / 16 = k / 16 && w.1 ≠ k) }))

def execTileLoadDone (a : ArrayId) (s : State) : Res :=
  match s.arrays[a].shadow with
  | some (e, k, t) => (match (entryAt s a e).bind (·.pass) with
    | some d => need (boundaryReached (entriesOf s a) e d) (swapTile a e k t s)
    | none => .fault .noCause)
  | none => .fault .noCause

/-- VECTOR operand of a slot, read once (R100). -/
def loadVector (a : ArrayId) (e slot waited : Nat) (d : PassDesc) (c : Chain) (s : State) : State :=
  let ar := vectorAreas d (c.slot slot)
  let s := countRemote a ar (advanceMovers a e ar s)
  let v := vectorOperand s.mem (partHere s a) d (c.slot slot)
  sawPoison a e (anyPoison v) (updEntry a e (fun y => { y with vectors := alSet slot v y.vectors, load := y.load + waited }) s)

def execVectorOperandLoad (a : ArrayId) (e : Nat) (slot : Fin 4) (waited : Nat) (s : State) : Res :=
  match entryAt s a e with
  | some x => (match x.desc, x.chain with
    | .pass d, some c => need (x.started && !x.over' && c.vectorSlots.contains slot.val && (alGet slot.val x.vectors).isNone && mayRead s a e (vectorAreas d (c.slot slot.val)))
        (loadVector a e slot.val waited d c s)
    | _, _ => .fault .noCause)
  | none => .fault .noCause

/-- Tables named by passes that are still in the chain engine (R109). -/
def tablesInUse (l : List EntryRun) : List (BitVec 64) :=
  (l.filter (fun x => x.started && !x.left)).flatMap (fun x => match x.chain with | some c => c.tableSlots.map (fun i => (c.slot i).elemAddr) | none => [])

/-- The table that gives way: the one named longest ago among those not in use (R109). -/
def evictable (ts : List Table) (used : List (BitVec 64)) : Option Table :=
  ((sortKey (fun t : Table => t.named) (ts.filter (fun t => !used.contains t.addr)))).head?

/-- The start of the latest pass that names a table: what R109 counts as its last naming. -/
def namedAt (l : List EntryRun) (addr : BitVec 64) : Nat :=
  ((l.filter (fun x => x.started && (match x.chain with | some c => c.tableSlots.any (fun i => (c.slot i).elemAddr = addr) | none => false))).map (·.stamp)).foldl max 0

/-- A table is loaded and checked again (R107, R109). -/
def loadTable (a : ArrayId) (e slot waited : Nat) (c : Chain) (s : State) : State :=
  let ar := tableAreas (c.slot slot)
  let s := countRemote a ar (advanceMovers a e ar s)
  let p := partHere s a
  let addr := (c.slot slot).elemAddr
  let b := cellsRead s.mem.window[p] (winOf addr) 2112
  let bad := winPoisoned s.mem p (winOf addr) 2112 || !tableOk b
  let y := s.arrays[a]
  let t := { tableOf addr b with poisoned := bad, named := namedAt (entriesOf s a) addr }
  let keep := if y.tables.length < 4 then y.tables else match evictable y.tables (tablesInUse (entriesOf s a)) with | some o => y.tables.filter (fun x => x.addr ≠ o.addr) | none => y.tables
  sawPoison a e bad (updEntry a e (fun y => { y with load := y.load + waited }) (s.updArray a (fun y => { y with tables := keep ++ [t] })))

def execTableLoad (a : ArrayId) (e : Nat) (slot : Fin 4) (waited : Nat) (s : State) : Res :=
  match entryAt s a e with
  | some x => (match x.chain with
    | some c =>
      let addr := (c.slot slot.val).elemAddr
      let ts := s.arrays[a].tables
      need (x.started && !x.over' && c.tableSlots.contains slot.val && ts.all (fun t => t.addr ≠ addr) &&
          (ts.length < 4 || (evictable ts (tablesInUse (entriesOf s a))).isSome) && mayRead s a e (tableAreas (c.slot slot.val)))
        (loadTable a e slot.val waited c s)
    | none => .fault .noCause)
  | none => .fault .noCause

/-- Folded lines of a pass, the ones line apart. -/
def foldLines (d : PassDesc) : Nat := if d.ones then d.m - 1 else d.m
/-- The source blocks of `n` folded lines from `first` on. -/
def foldAreas (d : PassDesc) (first n : Nat) : List Area := if n = 0 then [] else tensorAreas d.strmFmt d.strmElem d.strmExp d.strmStride 0 d.extent first n

/-- A half may fill: one is free, and every earlier fold pass is in the buffer whole (R131). -/
def foldReady (s : State) (a : ArrayId) (e : Nat) (x : EntryRun) (d : PassDesc) : Bool :=
  d.type = .product && d.fold && !d.empty && d.extent ≠ 0 && !x.over' && x.folded < foldLines d && (s.arrays[a].fold.filter (fun h => !((entryAt s a h.1).map EntryRun.over').getD true)).length < 2 &&
  ((entriesOf s a).take e).all (fun y => match y.desc with | .pass z => !(z.type = .product && z.fold && !z.empty && z.extent ≠ 0) || y.over' || foldLines z ≤ y.folded | _ => true) &&
  mayRead s a e (foldAreas d x.folded (min 256 (foldLines d - x.folded)))

def fillFold (a : ArrayId) (e : Nat) (x : EntryRun) (d : PassDesc) (s : State) : State :=
  let n := min 256 (foldLines d - x.folded)
  let s := countRemote a (foldAreas d x.folded n) (advanceMovers a e (foldAreas d x.folded n) s)
  let lines := (List.range n).map (fun i => readLine s.mem (partHere s a) d (x.folded + i))
  -- halves of passes that are over are free (R131)
  let live := s.arrays[a].fold.filter (fun h => !((entryAt s a h.1).map EntryRun.over').getD true)
  let s := s.updArray a (fun y => { y with fold := live ++ [(e, x.folded, lines)] })
  sawPoison a e (lines.any Line.poisoned) (updEntry a e (fun y => { y with folded := y.folded + n }) s)

def execFoldHalfFill (a : ArrayId) (e : Nat) (s : State) : Res :=
  match entryAt s a e with
  | some x => (match x.desc with
    | .pass d => need (foldReady s a e x d) (fillFold a e x d s)
    | _ => .fault .noCause)
  | none => .fault .noCause

/-! The chain engine (R89 to R113). -/

/-- The row-statistic buffer as the next row sees it: rows before it that have not landed count (R111). -/
def bufView (x : ArrayEng) (i : Nat) : A48 :=
  let pend := x.rows.flatMap (fun r => r.stats.filterMap (fun st => if st.1 = some i then some st.2.1 else none))
  (pend.getLast?).getD ((alGet i x.rowbuf).getD .zero)

/-- The program's operands stand ready: vectors read, tables resident (R100, R109). -/
def chainReady (x : ArrayEng) (y : EntryRun) (c : Chain) : Bool :=
  c.vectorSlots.all (fun i => (alGet i y.vectors).isSome) && c.tableSlots.all (fun i => x.tables.any (fun t => t.addr = (c.slot i).elemAddr))

/-- Lane groups that carry one line of each of several passes (R69): a pass alone takes ceil(W / 256); panes together keep the lanes below their cell columns, and share a group only across columns. -/
def groupsOf (ds : List PassDesc) : Nat :=
  match ds with
  | [] => 0
  | [d] => ceilDiv d.width 256
  | d :: _ =>
    let n := 2 ^ d.layout
    ((List.range n).map (fun q => ((ds.filter (fun y => y.pane % n = q)).map (fun y => ceilDiv y.width (256 / n))).foldl (· + ·) 0)).foldl max 0

/-- Other panes that drain to the chain engine with entry `e` and have sent their row `m` (notes/assumptions/98.md). -/
def besides (l : List EntryRun) (e m : Nat) (d : PassDesc) : List PassDesc :=
  if d.type = .chain ∨ d.layout = 0 then []
  else (l.zipIdx).filterMap (fun x => match x.1.desc with
    | .pass y => if x.2 ≠ e && y.type = .product && y.chains && x.1.started && !x.1.over' && m < x.1.rows then some y else none
    | _ => none)

/-- Clocks in which a valid group enters stage 1 for row `m` of entry `e` (R69, R91, R118). -/
def laneGroups (l : List EntryRun) (e m : Nat) (d : PassDesc) : Nat := groupsOf (d :: besides l e m d) - groupsOf (besides l e m d)

/-- Row `m` of entry `e` through the stages. -/
def rowThrough (s : State) (a : ArrayId) (y : EntryRun) (d : PassDesc) (c : Chain) (m : Nat) (lanes : List A48) : RowRun :=
  let x := s.arrays[a]
  chainRun c m (stageOperand s.mem (partHere s a) d c y.vectors (bufView x) m lanes.length) (bufView x)
    (fun i => x.tables.find? (fun t => t.addr = (c.slot i).elemAddr)) lanes

/-- STREAM areas of row `m`. -/
def rowStreams (d : PassDesc) (c : Chain) (m : Nat) : List Area := c.streamSlots.flatMap (fun i => streamAreas d (c.slot i) m 1)

/-- A STREAM block of the row is POISON. -/
def streamPoison (s : State) (a : ArrayId) (d : PassDesc) (c : Chain) (m w : Nat) : Bool :=
  c.streamSlots.any (fun i => let sl := c.slot i
    anyPoison (tensorRow s.mem (partHere s a) sl.fmt (winOf sl.elemAddr) (winOf sl.expAddr) sl.lineLen (d.m0 + m) d.n0 w))

/-- A row enters the chain engine and waits for its quantiser. -/
def pushRow (a : ArrayId) (e m : Nat) (y : EntryRun) (d : PassDesc) (c : Chain) (lanes : List A48) (s : State) : State :=
  let r := rowThrough s a y d c m lanes
  let n := laneGroups (entriesOf s a) e m d
  -- every pass that uses a poisoned table carries POISON_IN, the one that loaded it and the later ones (notes/assumptions/99.md)
  let badTable := c.tableSlots.any (fun i => s.arrays[a].tables.any (fun t => t.addr = (c.slot i).elemAddr && t.poisoned))
  let s' := sawPoison a e (badTable || streamPoison s a d c m lanes.length) (countRemote a (rowStreams d c m) s)
  let s' := s'.updArray a (fun x => { x with rows := x.rows ++ [{ entry := e, m := m, lanes := r.lanes, stats := r.stats }] })
  updEntry a e (fun z => { z with chainBusy := z.chainBusy + n, clamps := z.clamps + r.clamps, domain := z.domain + r.domain }) s'

/-! Draining a row (R48, R56, R69 to R72, R80, R134, R485). -/

/-- Each output entry combined with its store entry, or in its place (R70, R72, R87). -/
def storeRow (accumulate : Bool) (base : Nat) (row : List A48) (store : List (Nat × A48)) : List (Nat × A48) :=
  (row.zipIdx).foldl (fun l x =>
    let i := base + x.2
    alPut .zero i (if accumulate then (addA48 ((alGet i l).getD .zero) x.1).1 else A48.canon x.1) l) store

/-- The entries of a row as they stand in the store. -/
def storeRead (store : List (Nat × A48)) (base w : Nat) : List A48 := (List.range w).map (fun j => (alGet (base + j) store).getD .zero)

/-- The feeders of the edge that a pass enters by (R54, R65). -/
def feedOf (x : ArrayEng) (d : PassDesc) : List FeedLine := if d.reading then x.colFeed else x.rowFeed
def setFeed (d : PassDesc) (l : List FeedLine) (x : ArrayEng) : ArrayEng := if d.reading then { x with colFeed := l } else { x with rowFeed := l }

/-- Line `m` as the feeders hold it. -/
def fedLine (s : State) (a : ArrayId) (e : Nat) (d : PassDesc) (m : Nat) : Option Line :=
  ((feedOf s.arrays[a] d).find? (fun f => f.entry = e && f.m = m && f.valid)).map (·.line)

/-- Line `m` as it enters the feeders: from the fold buffer, or from the window (R54, R130). -/
def sourceLine (s : State) (a : ArrayId) (e : Nat) (d : PassDesc) (m : Nat) : Option Line :=
  if d.fold ∧ !(d.ones ∧ m + 1 = d.m) then
    (s.arrays[a].fold.find? (fun h => h.1 = e && h.2.1 ≤ m && m < h.2.1 + h.2.2.length)).bind (fun h => h.2.2[m - h.2.1]?)
  else some (readLine s.mem (partHere s a) d m)

/-- The line that drains as row `m`. -/
def drainLine (s : State) (a : ArrayId) (e : Nat) (d : PassDesc) (m : Nat) : Option Line := (fedLine s a e d m).or (sourceLine s a e d m)

/-- Window blocks that line `m` takes from the window. -/
def lineAreas (d : PassDesc) (m : Nat) : List Area :=
  if d.extent = 0 ∨ d.fold then [] else tensorAreas d.strmFmt d.strmElem d.strmExp d.strmStride m 1 0 d.extent

/-- The store range of one row. -/
def rowStore (d : PassDesc) (m : Nat) : Nat × Nat := (d.storeBase + m * d.pitch, d.storeBase + m * d.pitch + d.width)

/-- The next row of a product may drain. -/
def drainReady (s : State) (a : ArrayId) (e : Nat) (x : EntryRun) (d : PassDesc) : Bool :=
  let m := x.rows
  d.type = .product && x.started && !x.over' && x.stopAt.isNone && m < d.m && boundaryReached (entriesOf s a) e d &&
  (!d.needsTile || (!s.gov.throttled && (d.resident || x.working) && (alGet d.paneKey s.arrays[a].working).isSome && (d.fold || (fedLine s a e d m).isSome || mayRead s a e (lineAreas d m)))) &&
  (!d.needsTile || (drainLine s a e d m).isSome) &&
  (!d.chains || (match x.chain with | some c => chainReady s.arrays[a] x c && mayRead s a e (rowStreams d c m) | none => false)) &&
  (!d.stores || mayStore s a e true (rowStore d m)) && mayBuf s a e false (passBuf d x.chain) && (d.drain ≠ 5 || portFree s a e)

/-- Lines after row `m` that the feeders take in while it drains: as many as a free value says, up to 64 tokens a queue, and no further than the lines that may be read (R54, notes/assumptions/100.md). -/
def aheadLines (s : State) (a : ArrayId) (e : Nat) (d : PassDesc) (m : Nat) : List Nat :=
  if !d.needsTile ∨ d.m ≤ m + 1 then []
  else ((List.range (min (Config.freeNat s.free % 65) (d.m - (m + 1)))).map (fun i => m + 1 + i)).takeWhile (fun i =>
    (fedLine s a e d i).isSome || (if d.fold then (sourceLine s a e d i).isSome else mayRead s a e (lineAreas d i)))

/-- The feeders after row `m` has left them. -/
def fillFeeders (a : ArrayId) (e m : Nat) (d : PassDesc) (s : State) : State :=
  let l := aheadLines s a e d m
  let new := l.filter (fun i => (fedLine s a e d i).isNone)
  let areas := new.flatMap (lineAreas d)
  let s := countRemote a areas (advanceMovers a e areas s)
  let fed : List FeedLine := l.filterMap (fun i => (drainLine s a e d i).map (fun x => { entry := e, m := i, line := x }))
  { s.updArray a (setFeed d ((feedOf s.arrays[a] d).filter (fun f => f.entry ≠ e) ++ fed)) with free := if d.needsTile && decide (m + 1 < d.m) then s.free + 1 else s.free }

/-- The tile of a pass without one. -/
def noTile : Tile := { fmt := 0, elem := 0, exp := 0, stride := 0, k := 0, n := 0, els := [], exps := [] }

/-- A check has failed: the group is disputed (R490). -/
def raiseDispute (a : ArrayId) (e : Nat) (s : State) : State :=
  let g := groupOf (entriesOf s a) e
  let s := updEntry a e (fun y => { y with checkFailed := true }) s
  if s.arrays[a].dispute.isSome then s else s.updArray a (fun y => { y with dispute := some (g.headD e, g.getLastD e, none) })

/-- A gradient row of a BINDERY pass, provisional until the slice completes (R134, R137). -/
def bindRow (a : ArrayId) (e : Nat) (d : PassDesc) (m : Nat) (row : List A48) (s : State) : State :=
  match s.arrays[a].cur with
  | none => s
  | some (p, r) =>
    { s with bind := { s.bind with provisional := s.bind.provisional ++
        [{ part := p, ring := r, array := a, entry := e, tag := { d.tag with onesRow := d.tag.onesRow && decide (m + 1 = d.m) }, row := m, ents := row }] } }

/-- The row as it leaves seams whose alignment logic has erred: entries that the upset names hold what it names (R486). -/
def seamRow (u : Upset) (row : List A48) : List A48 :=
  match u.seam with
  | none => row
  | some l => (row.zipIdx).map (fun x => match alGet x.2 l with | some v => A48.canon (.val v.1 v.2) | none => x.1)

/-- Row `m` of a pass leaves the drain. -/
def drainOne (a : ArrayId) (e bubbles stalls : Nat) (upset : Upset) (d : PassDesc) (s : State) : State :=
  match entryAt s a e with
  | none => s
  | some x =>
    let m := x.rows
    let areas := lineAreas d m ++ (match x.chain with | some c => if d.chains then rowStreams d c m else [] | none => [])
    let s := advanceMovers a e areas s
    let s := if (fedLine s a e d m).isSome then s else countRemote a (lineAreas d m) s
    let t := if d.needsTile then (alGet d.paneKey s.arrays[a].working).getD noTile else noTile
    let l := if d.needsTile then (drainLine s a e d m).getD { els := [], exps := [] } else { els := [], exps := [] }
    let row := seamRow upset (if d.needsTile then productRow t d l upset.diffs else List.replicate d.width .zero)
    let s := fillFeeders a e m d s
    -- a line that has left the fold buffer frees its half with the last one
    let s := s.updArray a (fun y => { y with fold := y.fold.filter (fun h => !(h.1 = e && h.2.1 + h.2.2.length ≤ m + 1)) })
    let base := d.storeBase + m * d.pitch
    let s := if d.stores then s.updArray a (fun y => { y with store := storeRow (d.drain = 2 || d.drain = 4) base row y.store }) else s
    let s := if d.drain = 5 then bindRow a e d m row s else s
    let seen := if x.checked then seenUpsets t d l upset.diffs else []
    let s := updEntry a e (fun y => { y with rows := m + 1, tile := if d.needsTile then some t else none, busy := y.busy + (if d.needsTile then 1 else 0), bubble := y.bubble + bubbles, stall := y.stall + stalls, colDiff := y.colDiff ++ seen }) s
    let s := sawPoison a e (d.needsTile && l.poisoned) s
    let s := match x.chain with
      | some c => if d.chains then pushRow a e m x d c (if d.stores then storeRead s.arrays[a].store base d.width else row) s else s
      | none => s
    if lineFails (ceilDiv d.extent 32) seen ∨ (x.checked ∧ upset.seam.isSome) then raiseDispute a e s else s

def execDrainRow (a : ArrayId) (e : Nat) (bubbles stalls : Nat) (upset : Upset) (s : State) : Res :=
  match entryAt s a e with
  | some x => (match x.desc with
    | .pass d => need (drainReady s a e x d) (drainOne a e bubbles stalls upset d s)
    | _ => .fault .noCause)
  | none => .fault .noCause

/-! Standalone chain passes (R117, R168, R169). -/

/-- Blocks that row `m` of a WINDOW source takes. -/
def sourceAreas (d : PassDesc) (m : Nat) : List Area := if d.source then tensorAreas d.strmFmt d.strmElem d.strmExp d.strmStride m 1 0 d.width else []

/-- Row `m` of the source, entries `j..j+n-1`. -/
def sourceGroup (s : State) (a : ArrayId) (d : PassDesc) (m j n : Nat) : List A48 :=
  if d.source then (List.range n).map (fun i => elemVal (lineBlk s.mem (partHere s a) d.strmFmt d.strmElem d.strmExp d.strmStride m ((j + i) / 32)) ((j + i) % 32))
  else storeRead s.arrays[a].store (d.storeBase + m * d.pitch + j) n

/-- The target's row of a RAW pass, widened (R168). -/
def rawTarget (s : State) (a : ArrayId) (d : PassDesc) (c : Chain) (m : Nat) : List A48 :=
  (List.range d.width).map (fun j => elemVal (lineBlk s.mem (partHere s a) c.outFmt d.outElem d.outExp d.outStride (d.m0 + m) ((d.n0 + j) / 32)) ((d.n0 + j) % 32))

def groupReady (s : State) (a : ArrayId) (e : Nat) (x : EntryRun) (d : PassDesc) : Bool :=
  let m := x.rows
  d.type = .chain && x.started && !x.over' && x.stopAt.isNone && m < d.m &&
  (match x.chain with
   | some c => chainReady s.arrays[a] x c && mayRead s a e (sourceAreas d m ++ rowStreams d c m ++ rawAreas d c m 1)
   | none => false) &&
  mayBuf s a e false (passBuf d x.chain) &&
  (d.source || mayStore s a e false (rowStore d m))

/-- One group of a row enters; the last one of the row sends the row through the stages. -/
def standaloneOne (a : ArrayId) (e stalls : Nat) (d : PassDesc) (c : Chain) (s : State) : State :=
  match entryAt s a e with
  | none => s
  | some x =>
    let m := x.rows
    let got := s.arrays[a].group
    let n := min 256 (d.width - got.length)
    let s := advanceMovers a e (sourceAreas d m ++ rowStreams d c m ++ rawAreas d c m 1) s
    let s := if got.isEmpty then countRemote a (sourceAreas d m ++ rawAreas d c m 1) s else s
    let new := sourceGroup s a d m got.length n
    let all := got ++ new
    let s := sawPoison a e (anyPoison new) (updEntry a e (fun y => { y with stall := y.stall + stalls }) s)
    if all.length < d.width then s.updArray a (fun y => { y with group := all })
    else
      let tgt := if d.raw then rawTarget s a d c m else []
      let sums := if d.raw then List.zipWith addA48 tgt all else all.map (fun x => (x, false))
      let lanes := sums.map (·.1)
      let s := updEntry a e (fun y => { y with clamps := y.clamps + (sums.filter (·.2)).length }) s
      let s := sawPoison a e (anyPoison tgt) (s.updArray a (fun y => { y with group := [] }))
      pushRow a e m x d c lanes (updEntry a e (fun y => { y with rows := m + 1 }) s)

def execChainStandaloneGroup (a : ArrayId) (e : Nat) (stalls : Nat) (s : State) : Res :=
  match entryAt s a e with
  | some x => (match x.desc, x.chain with
    | .pass d, some c => need (groupReady s a e x d) (standaloneOne a e stalls d c s)
    | _, _ => .fault .noCause)
  | none => .fault .noCause

/-! Landing statistics (R111, R113, R248). -/

/-- A pass stops at row `m` (R248): that row and the later ones leave the engine, the feeders and the fold buffer without effect; the rows before it go on to their quantiser. -/
def dropRows (a : ArrayId) (e m : Nat) (s : State) : State :=
  s.updArray a (fun y => { y with rows := y.rows.filter (fun r => !(r.entry = e && m ≤ r.m)), group := [], rowFeed := y.rowFeed.filter (fun f => f.entry ≠ e),
                                  colFeed := y.colFeed.filter (fun f => f.entry ≠ e), fold := y.fold.filter (fun h => h.1 ≠ e) })

/-- A pass that stops early has stopped once the rows before its stop have left the engine. -/
def settleStop (a : ArrayId) (e : Nat) (s : State) : State :=
  updEntry a e (fun y => if y.stopAt.isSome ∧ s.arrays[a].rows.all (fun r => r.entry ≠ e) then { y with stopped := true } else y) s

/-- One statistic into the row-statistic region; the status that stops the pass. -/
def landRegion (a : ArrayId) (d : PassDesc) (c : Chain) (m : Nat) (v : A48) (s : State) : State × Option Status :=
  let off := winOf c.rowstat + 8 * (d.m0 + m)
  let b := leBytes 8 (a48Word v)
  if spaceOf c.rowstat = 1 then ({ s with mem := winWrite (partHere s a) off b s.mem }, none)
  else
    match (s.vmOn (a.val / 32)).writeBytes (partHere s a) off b true with
    | (v, _, .done) => (s.putWrites v, none)
    | (v, _, st) => (s.putVM v, some st)

/-- The statistics of the oldest row that has any. -/
def landRow (a : ArrayId) (r : ChainRow) (d : PassDesc) (c : Chain) (s : State) : State :=
  let buf := r.stats.filterMap (fun t => t.1.map (fun i => (i, t.2.1)))
  let s := s.updArray a (fun y => { y with rowbuf := buf.foldl (fun l x => alPut .zero x.1 x.2 l) y.rowbuf, rows := y.rows.map (fun q => if q.entry = r.entry ∧ q.m = r.m then { q with stats := [] } else q) })
  let mem := r.stats.filter (fun t => t.2.2)
  let (s, st) := mem.foldl (fun (acc : State × Option Status) t => if acc.2.isSome then acc else landRegion a d c r.m t.2.1 acc.1) (s, none)
  match st with
  | some st => settleStop a r.entry (dropRows a r.entry r.m (updEntry a r.entry (fun y => { y with stopAt := some r.m, conds := addCond st y.conds }) s))
  | none => s

def execRowStatLand (a : ArrayId) (s : State) : Res :=
  match s.arrays[a].rows.find? (fun r => !r.stats.isEmpty) with
  | some r => (match (entryAt s a r.entry).bind (·.pass), (entryAt s a r.entry).bind (·.chain) with
    | some d, some c => need (mayWrite s a r.entry (statRegion d c r.m 1)) (landRow a r d c s)
    | _, _ => .fault .noCause)
  | none => .fault .noCause

/-! Quantising and writing (R27, R28, R36, R114 to R116, R416). -/

/-- A pass that only converts its source to a wider format (R29): no stage before the quantise stage changes a lane, and the formats are BI4 to BI8, BI8 to BI16, or SB to BI of the same width (notes/assumptions/92.md). -/
def widens (d : PassDesc) (c : Chain) : Bool :=
  d.type = .chain && d.source && !d.raw && (c.stages.take (c.count - 1)).all (fun st => st.opcode = 0 || st.opcode = 0x0E) &&
  [(0, 1), (1, 2), (3, 0), (4, 1), (5, 2)].contains (d.strmFmt, c.outFmt)

/-- Blocks quantised under a record: the blocks, the record, and how many elements were clamped. -/
def quantBlocks (keep : Bool) (fmt f : Nat) (rec : Option ScaleRec) (blocks : List (List A48)) : List Blk × Option ScaleRec × Nat :=
  blocks.foldl (fun (acc : List Blk × Option ScaleRec × Nat) vs =>
    match acc.2.1 with
    | some r => let q := quantise keep fmt f vs r; (acc.1 ++ [q.blk], some q.record, acc.2.2 + q.clamped)
    | none => let q := quantiseTight fmt vs; (acc.1 ++ [q.1], none, acc.2.2 + q.2)) ([], rec, 0)

/-- Blocks of an output go through the quantiser: the record is read, merged and written back as one operation; a record delivered poisoned leaves TIGHT mode without a merge (R36, R416). -/
def quantWrite (a : ArrayId) (e : Nat) (d : PassDesc) (fmt : Nat) (blocks : List (List A48 × Nat × Nat)) (s : State) : State :=
  match entryAt s a e with
  | none => s
  | some x =>
    let p := partHere s a
    let f := s.tick.frame.toNat
    let va := vaOf d.recordAddr
    let st := s.vm.readStatus p va 64
    let (v, rd) := if x.recordPoisoned then (s.vmOn (a.val / 32), none) else (s.vmOn (a.val / 32)).readBytes p va 64
    let failed := rd.isNone && !x.recordPoisoned
    let keep := match x.chain with | some c => widens d c | none => false
    let (bs, rec, n) := quantBlocks keep fmt f (rd.map scaleOf) (blocks.map (·.1))
    let v := match rec with | some r => (v.writeBytes p va (scaleBytes r) false).1 | none => v
    let s := s.putWrites v
    let s := { s with mem := (List.zip bs blocks).foldl (fun (m : Mem) (b : Blk × List A48 × Nat × Nat) => winPutBlk p fmt b.2.2.1 b.2.2.2 b.1 m) s.mem }
    let s := s.updPart p (Part.count 0x0E n)
    updEntry a e (fun y => { y with recordPoisoned := y.recordPoisoned || failed,
                                    conds := addCond (if n = 0 then .done else .saturated) (addCond (if failed then st else .done) y.conds) }) s

/-- Rows are committed, or provisional while the group's gate is closed (R187, R489). -/
def commitRows (a : ArrayId) (e n : Nat) (s : State) : State :=
  let l := entriesOf s a
  let shut := (match l[e]? with | some x => x.isProduct | none => false) && !gateOpen l e
  settleStop a e (updEntry a e (fun y => { y with quanted := y.quanted + n, done := if shut then y.done else y.done + n, provisional := if shut then y.provisional + n else y.provisional }) s)

/-- A row in blocks of a BI output: lanes padded with zero to a whole block, and where the block lies (R19, R21, R114). -/
def biBlocks (d : PassDesc) (fmt m : Nat) (lanes : List A48) : List (List A48 × Nat × Nat) :=
  let bl := blockLen fmt
  (List.range (ceilDiv lanes.length bl)).map fun i =>
    let vs := (lanes.drop (i * bl)).take bl
    let n := (d.m0 + m) * d.outStride + d.n0 / bl + i
    (vs ++ List.replicate (bl - vs.length) .zero, d.outElem + n * blockBytes fmt, d.outExp + n)

/-- The oldest row of a pass with a BI output, or whose program discards, whose statistics have landed. -/
def quantRow (s : State) (a : ArrayId) : Option (ChainRow × PassDesc × Chain) :=
  s.arrays[a].rows.findSome? fun r =>
    match (entryAt s a r.entry).bind (·.pass), (entryAt s a r.entry).bind (·.chain) with
    | some d, some c =>
      if (c.discards || !isSB c.outFmt) && r.stats.isEmpty && (s.arrays[a].rows.find? (fun q => q.entry = r.entry)).map (·.m) = some r.m then some (r, d, c) else none
    | _, _ => none

def quantOne (a : ArrayId) (r : ChainRow) (d : PassDesc) (c : Chain) (s : State) : State :=
  let s := s.updArray a (fun y => { y with rows := y.rows.filter (fun q => !(q.entry = r.entry && q.m = r.m)) })
  commitRows a r.entry 1 (if c.discards then s else quantWrite a r.entry d c.outFmt (biBlocks d c.outFmt r.m r.lanes) s)

def execQuantBlockWrite (a : ArrayId) (s : State) : Res :=
  match quantRow s a with
  | some (r, d, c) => need (c.discards || mayWrite s a r.entry (outAreas d c r.m 1)) (quantOne a r d c s)
  | none => .fault .noCause

/-- Rows of an SB tile row: the lanes of each row by its place in the tile; rows that are missing are padding (R21, R115). -/
def tileBlocks (d : PassDesc) (fmt tr : Nat) (rows : List ChainRow) (w : Nat) : List (List A48 × Nat × Nat) :=
  (List.range (ceilDiv w 32)).map fun i =>
    let vs := (List.range 32).flatMap fun k =>
      let l := ((rows.find? (fun r => (d.m0 + r.m) % 32 = k)).map (·.lanes)).getD []
      (List.range 32).map (fun j => if 32 * i + j < w then l.getD (32 * i + j) .zero else .zero)
    let n := tr * d.outStride + d.n0 / 32 + i
    (vs, d.outElem + n * blockBytes fmt, d.outExp + n)

/-- The oldest complete tile row of an SB output: its last row, or the last row of the pass or before its stop (R115, R248; notes/assumptions/116.md), has come and every statistic has landed. -/
def quantTile (s : State) (a : ArrayId) : Option (List ChainRow × Nat × PassDesc × Chain) :=
  s.arrays[a].rows.findSome? fun r =>
    match (entryAt s a r.entry).bind (·.pass), (entryAt s a r.entry).bind (·.chain) with
    | some d, some c =>
      let tr := (d.m0 + r.m) / 32
      let mine := s.arrays[a].rows.filter (fun q => q.entry = r.entry && (d.m0 + q.m) / 32 = tr)
      let first := (s.arrays[a].rows.find? (fun q => q.entry = r.entry)).map (·.m)
      if !c.discards ∧ isSB c.outFmt ∧ ((d.m0 + r.m) % 32 = 31 ∨ r.m + 1 = d.m ∨ (entryAt s a r.entry).bind (·.stopAt) = some (r.m + 1)) ∧ mine.all (fun q => q.stats.isEmpty) ∧ (mine.head?).map (·.m) = first then some (mine, tr, d, c) else none
    | _, _ => none

def tileOne (a : ArrayId) (rows : List ChainRow) (tr : Nat) (d : PassDesc) (c : Chain) (s : State) : State :=
  let e := (rows.head?.map (·.entry)).getD 0
  let s := s.updArray a (fun y => { y with rows := y.rows.filter (fun q => !(q.entry = e && rows.any (fun r => r.m = q.m))) })
  commitRows a e rows.length (quantWrite a e d c.outFmt (tileBlocks d c.outFmt tr rows d.width) s)

def execSbTileWrite (a : ArrayId) (s : State) : Res :=
  match quantTile s a with
  | some (rows, tr, d, c) =>
    let e := (rows.head?.map (·.entry)).getD 0
    need (mayWrite s a e (outAreas d c ((rows.head?.map (·.m)).getD 0) rows.length)) (tileOne a rows tr d c s)
  | none => .fault .noCause

/-! The end of a pass (R58, R118, R174). -/

/-- The counts of a pass go into its partition's statistics. -/
def addCounts (p : PartId) (x : EntryRun) (s : State) : State :=
  s.updPart p (fun y => ((((((y.count 5 x.busy).count 6 x.bubble).count 7 x.stall).count 8 x.load).count 9 x.chainBusy).count 0xA x.clamps).count 0xB x.domain)

def endPass (a : ArrayId) (e : Nat) (x : EntryRun) (s : State) : State :=
  finishArray a (updEntry a e (fun y => { y with ended := true, busy := 0, bubble := 0, stall := 0, load := 0, chainBusy := 0, clamps := 0, domain := 0 }) (addCounts (partHere s a) x s))

def execPassEnd (a : ArrayId) (e : Nat) (s : State) : Res :=
  match entryAt s a e with
  | some x => (match x.desc with
    | .pass _ => need (x.started && !x.ended && x.left) (endPass a e x s)
    | _ => .fault .noCause)
  | none => .fault .noCause

/-! Column checks and the gate (R485, R489). -/

/-- The gate of a group opens: its provisional rows are committed. -/
def openGate (a : ArrayId) (e : Nat) (s : State) : State :=
  let g := groupOf (entriesOf s a) e
  let s := g.foldl (fun s i => updEntry a i (fun y => { y with done := y.done + y.provisional, provisional := 0 }) s) s
  finishArray a s

def columnDone (a : ArrayId) (e : Nat) (s : State) : State :=
  let bad := match entryAt s a e with | some x => columnFails x.colDiff | none => false
  let s := updEntry a e (fun y => { y with checkDone := true }) s
  let s := if bad then raiseDispute a e s else s
  if gateOpen (entriesOf s a) e then openGate a e s else s

def execColumnCheckDone (a : ArrayId) (e : Nat) (s : State) : Res :=
  match entryAt s a e with
  | some x => need (x.checked && !x.checkDone && x.started && x.drained) (columnDone a e s)
  | none => .fault .noCause

/-! Disputes (R490 to R493). -/

/-- The physical unit of a logical array. -/
def physOf (s : State) (a : ArrayId) : Nat := (s.ras.serving a.val).getD (0x1000 + 34 * (a.val / 32) + a.val % 32)

/-- The spare for a re-run: on the same die first (R490). -/
def rerunSpare (s : State) (a : ArrayId) : Option Nat :=
  let busy := rerunUnits s
  let die := unitDie (physOf s a)
  (s.ras.spares die busy).head?.or ((List.range 4).findSome? (fun d => if d = die then none else (s.ras.spares d busy).head?))

def execDisputeRerunStart (a : ArrayId) (s : State) : Res :=
  match s.arrays[a].dispute, rerunSpare s a with
  | some (f, l, none), some u => .next (s.updArray a (fun y => { y with dispute := some (f, l, some u) }))
  | _, _ => .fault .noCause

/-- The rows of a group's pass without upsets, as the re-run array computes them (R490): from the same lines, and from the tile as the pass itself had it (R52). -/
def cleanRows (s : State) (a : ArrayId) (x : EntryRun) (d : PassDesc) : List (List A48) :=
  let p := partHere s a
  let t := if d.needsTile then x.tile.getD (readTile s.mem p d) else noTile
  (List.range d.m).map (fun m => if d.needsTile then productRow t d (readLine s.mem p d m) [] else List.replicate d.width .zero)

/-- The store after a pass of the group, from the re-run's rows. -/
def cleanStore (s : State) (a : ArrayId) (x : EntryRun) (d : PassDesc) (store : List (Nat × A48)) : List (Nat × A48) :=
  if d.stores then ((cleanRows s a x d).zipIdx).foldl (fun st x => storeRow (d.drain = 2 || d.drain = 4) (d.storeBase + x.2 * d.pitch) x.1 st) store else store

/-- Write the output rows of a pass in place of the provisional ones (R492). Its statistics are formed again without being combined (log 19). -/
def rewriteRows (a : ArrayId) (e : Nat) (d : PassDesc) (c : Chain) (rows : List (List A48)) (s : State) : State :=
  match entryAt s a e with
  | none => s
  | some x =>
    if c.discards then s
    else
      let out : List ChainRow := (rows.zipIdx).map (fun r => { entry := e, m := r.2, lanes := (rowThrough s a x d c r.2 r.1).lanes, stats := [] })
      -- a poisoned row leaves every stage poisoned (R106)
      let blocks := if isSB c.outFmt then
          ((out.map (fun r => (d.m0 + r.m) / 32)).dedup).flatMap (fun tr => tileBlocks d c.outFmt tr (out.filter (fun r => (d.m0 + r.m) / 32 = tr)) d.width)
        else out.flatMap (fun r => biBlocks d c.outFmt r.m r.lanes)
      quantWrite a e d c.outFmt blocks s

/-- The gradient rows of a BINDERY pass are replaced. -/
def replaceRows (a : ArrayId) (e : Nat) (rows : List (List A48)) (s : State) : State :=
  match s.arrays[a].cur with
  | none => s
  | some (p, r) =>
    { s with bind := { s.bind with provisional := s.bind.provisional.map (fun x =>
        if x.part = p ∧ x.ring = r ∧ x.array = a ∧ x.entry = e then { x with ents := rows.getD x.row x.ents } else x) } }

/-- The re-run's result stands for one pass of the group (R492). -/
def rerunPass (a : ArrayId) (e : Nat) (s : State) : State :=
  match entryAt s a e with
  | none => s
  | some x =>
    match x.desc with
    | .pass d =>
      let rows := cleanRows s a x d
      let s := s.updArray a (fun y => { y with store := cleanStore s a x d y.store })
      let final := (List.range d.m).map (fun m => if d.stores then storeRead s.arrays[a].store (d.storeBase + m * d.pitch) d.width else rows.getD m [])
      let s := if d.drain = 5 then replaceRows a e rows s else s
      match x.chain with
      | some c => if d.chains then rewriteRows a e d c final s else s
      | none => s
    | _ => s

/-- No result stands for one pass of the group: its output blocks and its store range are POISON, and its record says so (R33, R492, R157). -/
def poisonPass (a : ArrayId) (e : Nat) (s : State) : State :=
  match entryAt s a e with
  | none => s
  | some x =>
    match x.desc with
    | .pass d =>
      let row := List.replicate d.width A48.poison
      let s := if d.stores then s.updArray a (fun y => { y with store := (List.range d.m).foldl (fun st m => storeRow false (d.storeBase + m * d.pitch) row st) y.store }) else s
      let s := if d.drain = 5 then replaceRows a e (List.replicate d.m row) s else s
      match x.chain with
      | some c => if d.chains then rewriteRows a e d c (List.replicate d.m row) s else s
      | none => s
    | _ => s

/-- The re-run array, on unit `u`, has read a pass's operands for itself (R231, R490). -/
def countRerun (a : ArrayId) (u e : Nat) (s : State) : State :=
  match (entryAt s a e).bind (·.pass) with
  | some d => countRemoteOn (unitDie u) (partHere s a) (statAreas { d with resident := false } ++ strmAreas d) s
  | none => s

/-- Audit of a dispute (R507). -/
def auditDispute (a : ArrayId) (st : Status) (u : Nat) (s : State) : State :=
  s.putVM (s.vm.audit (auditOf 5 st (partHere s a).val 0 0 (unit := u) (detail := sliceHere s a)))

/-- The dispute is decided (R491, R492): who takes a strike, what stands, and the gate opens. -/
def decideDispute (a : ArrayId) (orig check : Bool) (f l u : Nat) (s : State) : State :=
  let g := groupOf (entriesOf s a) f
  let phys := physOf s a
  let fr := frameNow s
  let s := g.foldl (fun s e => countRerun a u e s) s
  let ras := if orig then s.ras.strike fr (0x2000 + unitIndex phys) f
    else if check then s.ras.strike fr phys f
    else (s.ras.strike fr phys f).strike fr u f
  let st : Status := if orig ∨ check then .checkResolved else .checkMismatch
  let s := { s with ras := ras }
  let s := s.updPart (partHere s a) (Part.count (if orig ∨ check then 0x10 else 0x11) 1)
  let s := if orig then s else if check then
      -- the store range starts afresh with the group's OVERWRITE pass
      g.foldl (fun s e => rerunPass a e s) s
    else g.foldl (fun s e => poisonPass a e s) s
  let s := g.foldl (fun s e => addConds a e [st] (updEntry a e (fun y => { y with checkFailed := false, checkDone := true }) s)) s
  let s := s.updArray a (fun y => { y with dispute := none })
  let s := { s with ras := s.ras.updUnit phys (fun x => { x with unresolved := 0 }) }
  openGate a l (auditDispute a st phys s)

/-- Every pass of the group has drained and its rows have been written. -/
def groupFinished (s : State) (a : ArrayId) (e : Nat) : Bool :=
  let l := entriesOf s a
  (groupOf l e).all (fun i => match l[i]? with | some x => x.started && x.drained && x.left | none => true)

def execDisputeDecide (a : ArrayId) (agreesOriginal agreesCheck : Bool) (s : State) : Res :=
  match s.arrays[a].dispute with
  | some (f, l, some u) => need (!(agreesOriginal && agreesCheck) && groupFinished s a f) (decideDispute a agreesOriginal agreesCheck f l u s)
  | _ => .fault .noCause

end Sys2Proof.Machine
end

