-- ==== Sys2Proof/Machine/Grad.lean ====
section
/-!
DEFINITION. Machine/Grad.lean: gradient rows: where an entry of a row lies (R318), the step buffer (R319), and the commit of a slice's rows (R137, R320).
-/

namespace Sys2Proof.Machine

/-! Sessions and their layers. -/

def getSess (s : State) (i : Nat) : Option Session := alGet i s.bind.sessions
def updSession (i : Nat) (f : Session → Session) (s : State) : State := { s with bind := { s.bind with sessions := alMod i f s.bind.sessions } }
/-- Add to a live counter of a session by its subindex - 0x10 (R316). -/
def Session.count (i k : Nat) (x : Session) : Session := { x with counters := bump x.counters i k }
def Session.layer (x : Session) (l : Nat) : Layer := x.layers.getD l {}
def Session.updLayer (l : Nat) (f : Layer → Layer) (x : Session) : Session := { x with layers := x.layers.modify l f }
/-- Change layer `l` of session `i`. -/
def updLayer (i l : Nat) (f : Layer → Layer) (s : State) : State := updSession i (Session.updLayer l f) s

/-- The tensors of a layer, in table order (R314). -/
def SessCfg.tensorsOf (c : SessCfg) (l : Nat) : List TensorCfg :=
  match c.layers[l]? with | some x => (c.tensors.drop x.firstTensor).take x.tensorCount | none => []
/-- Buckets of a tensor: 4,096 elements each, the last one padded with zero (R318). -/
def TensorCfg.buckets (t : TensorCfg) : Nat := ceilDiv (t.rows * t.cols) 4096
/-- Number of the first bucket of tensor `k` of a layer (R318). -/
def bucketBase (ts : List TensorCfg) (k : Nat) : Nat := ((ts.take k).map TensorCfg.buckets).foldl (· + ·) 0
/-- Buckets of a layer. -/
def SessCfg.bucketsOf (c : SessCfg) (l : Nat) : Nat := bucketBase (c.tensorsOf l) (c.tensorsOf l).length

/-! From a row's entry to an element (R318). -/

/-- The element, counted over the layer's buckets, of entry `j` of row `r` of a tagged pass or flush; none outside the tensor. -/
def gradCell (ts : List TensorCfg) (t : GradTag) (r j : Nat) : Option Nat :=
  let k := if t.onesRow then t.tensor + 1 else t.tensor
  let row := if t.onesRow then 0 else t.row0 + r
  match ts[k]? with
  | some x => if row < x.rows ∧ t.col0 + j < x.cols then some (bucketBase ts k * 4096 + row * x.cols + t.col0 + j) else none
  | none => none

/-- The elements that a row's entries name, with the entries. -/
def gradCells (ts : List TensorCfg) (t : GradTag) (r : Nat) (row : List A48) : List (Nat × A48) :=
  (row.zipIdx).filterMap (fun x => (gradCell ts t r x.2).map (fun k => (k, x.1)))

/-! The step buffer (R319). -/

/-- A block of 64 zeros in BI32. -/
def zeroBlk : Blk := { ex := some zeroExp, els := List.replicate 64 0 }

/-- Add entries into a block of BI32 by its element within the block: align_add, then TIGHT by R27. -/
def addToBlk (b : Blk) (l : List (Nat × A48)) : Blk :=
  let vs := (List.range 64).map (fun i => (l.filter (fun x => x.1 = i)).foldl (fun v x => alignAdd v x.2) (elemVal b i))
  (quantiseTight 6 vs).1

/-- Add entries to a buffer of blocks by element of the layer. -/
def addToG (l : List (Nat × A48)) (g : List (Nat × Blk)) : List (Nat × Blk) :=
  ((l.map (fun x => x.1 / 64)).dedup).foldl (fun g b =>
    alSet b (addToBlk ((alGet b g).getD zeroBlk) ((l.filter (fun x => x.1 / 64 = b)).map (fun x => (x.1 % 64, x.2)))) g) g

/-- The work of a rank on a step of a layer, opened where fewer than two steps are open (R319); none for a step that is closed or a third one. -/
def Layer.openStep (v : Nat) (x : Layer) : Option Layer :=
  if x.steps.any (fun w => w.step = v) then (if x.steps.any (fun w => w.step = v && w.closed) then none else some x)
  else if x.closed.contains v then none
  else if 2 ≤ (x.steps.filter (fun w => !w.closed)).length then none
  else some { x with steps := x.steps ++ [{ step := v }] }

def Layer.updStep (v : Nat) (f : StepWork → StepWork) (x : Layer) : Layer := { x with steps := x.steps.map (fun w => if w.step = v then f w else w) }
def Layer.step (x : Layer) (v : Nat) : Option StepWork := x.steps.find? (fun w => w.step = v)
/-- The mode of a step as its version announced it (R320). -/
def Layer.tree (x : Layer) (v : Nat) : Bool := match alGet v x.agreed with | some (_, t) => t | none => false

/-- One committed row of slice `seq` for step `v` (R318 to R320): added at once in RING mode, at the next tick in TREE mode; a row that holds an entry outside its tensor, and a row for a step that is not open, is counted as dropped. -/
def commitRow (v seq : Nat) (g : GradRow) (x : Session) : Session :=
  let t := g.tag
  match x.cfg with
  | none => x.count 0 1
  | some c =>
    let cells := gradCells (c.tensorsOf t.layer) t g.row g.ents
    match (x.layer t.layer).openStep v with
    | none => x.count 0 1
    | some y =>
      let w' : WaitRow := { ring := g.ring.val, seq := seq, array := g.array.val, entry := g.entry, row := g.row, cells := cells }
      let y := y.updStep v (fun w => if y.tree v then { w with waiting := w.waiting ++ [w'] } else { w with g := addToG cells w.g })
      (x.updLayer t.layer (fun _ => y)).count 0 (if cells.length < g.ents.length then 1 else 0)

/-! The commit (R137). -/

/-- Rows that a slice has delivered and that are provisional. -/
def provisionalRows (s : State) (p : PartId) (r : RingId) : List GradRow := s.bind.provisional.filter (fun x => x.part = p && x.ring = r)

/-- The rows of a slice are discarded (R137, R151). -/
def dropGrad (p : PartId) (r : RingId) (s : State) : State :=
  { s with bind := { s.bind with provisional := s.bind.provisional.filter (fun x => !(x.part = p && x.ring = r)) } }

/-- The rows of a slice are committed into the step buffers of its VERSION. -/
def commitGrad (p : PartId) (r : RingId) (v seq : Nat) (s : State) : State :=
  dropGrad p r ((provisionalRows s p r).foldl (fun s x => updSession x.tag.session (commitRow v seq x) s) s)

/-- The place of a waiting row: by ring and then slice (R320), and within a slice by array, list entry and row, so that the sum does not depend on the order of delivery (notes/assumptions/94.md). -/
def WaitRow.place (x : WaitRow) : Nat := (((x.ring * 2 ^ 64 + x.seq) * 128 + x.array) * 2 ^ 32 + x.entry) * 2 ^ 32 + x.row
/-- Rows committed in TREE mode are added at the tick. -/
def addWaiting (w : StepWork) : StepWork := { w with waiting := [], g := (sortKey WaitRow.place w.waiting).foldl (fun g x => addToG x.cells g) w.g }
def treeAdd (s : State) : State :=
  { s with bind := { s.bind with sessions := s.bind.sessions.map (fun x => (x.1, { x.2 with layers := x.2.layers.map (fun l => { l with steps := l.steps.map (fun w => if w.waiting.isEmpty then w else addWaiting w) }) })) } }

end Sys2Proof.Machine
end

