-- ==== Sys2Proof/Machine/Slices.lean ====
section
/-!
DEFINITION. Machine/Slices.lean: slice rings and their records (R181 to R196), abort, split and completion (R189 to R193, R221), offering and admission (R184, R217 to R220).
-/

namespace Sys2Proof.Machine

/-! Where the head slice stands (R182, R190). -/

/-- Slot of the slice at the head. -/
def Ring.slotNo (g : Ring) : Nat := g.head.toNat % max g.size.toNat 1
/-- Header of the head slice, or of its current half. -/
def Ring.hdrVa (g : Ring) : Nat :=
  match g.halves with | [] => vaOf g.headerBase + 32 * g.slotNo | l :: _ => vaOf l.halfAddr + (if l.second then 32 else 0)
/-- Its completion record. -/
def Ring.recVa (g : Ring) : Nat :=
  match g.halves with | [] => vaOf g.recordBase + 32 * g.slotNo | l :: _ => vaOf l.halfAddr + (if l.second then 96 else 64)
/-- Where the record of the whole head slice lies, and that of its current half; none where the base is no virtual address. -/
def Ring.topRec (g : Ring) : Option Nat := if isVirtual g.recordBase then some (vaOf g.recordBase + 32 * g.slotNo) else none
def Ring.recAddr (g : Ring) : Option Nat := match g.halves with | [] => g.topRec | l :: _ => if isVirtual l.halfAddr then some g.recVa else none
/-- The number of the slice that the scheduler works on. -/
def Ring.topSeq (g : Ring) : Nat := match g.halves.getLast? with | some l => l.outer.seq | none => g.subj.seq

/-- Bytes of a structure that a VIRTUAL base names; none where they cannot be read. -/
def readAt (s : State) (p : PartId) (base : BitVec 64) (va len : Nat) : Option Bytes :=
  if isVirtual base then (s.vm.readBytes p va len).2 else none

/-- Write a record (R188, R416). -/
def writeRec (p : PartId) (base : BitVec 64) (va : Nat) (b : Bytes) (s : State) : State × Status :=
  if isVirtual base then let r := s.vm.writeBytes p va b false; (s.putWrites (r.1.refused p va b.length r.2.2), r.2.2) else (s, .quota)

/-- The ring is FAULTED and read no further (R182, R194, R416). -/
def faultRing (p : PartId) (r : RingId) (st : Status) (s : State) : State :=
  s.updRing p r (fun g => { g with state := 2, faultStatus := BitVec.ofNat 8 st.code, run := none })

/-- Conditions of one record are counted, for the partition and the module (R12, R552, R553). -/
def countConds (p : PartId) (l : List Status) (s : State) : State := l.dedup.foldl (fun s c => s.putVM (s.vm.event p c)) s

/-! Completion records and retirement (R186, R188, R191). -/

/-- No entry is named. -/
def noEntry : Nat × Nat := (0xFF, 0xFFFF)

/-- The completion record of a slice or half as it now stands. -/
def Subject.record (x : Subject) (final : Bool) (st : Status) (grad : Nat) (bad : Nat × Nat) : SliceRec :=
  { frame := x.frame, cycles := min x.cycles 0xFFFFFFFF, energy := min x.energy 0xFFFFFFFF, seq := x.seq % 2 ^ 32, gradRows := grad,
    attempts := x.attempts, overruns := x.overruns, badEntry := bad.2, badArray := bad.1, final := final, status := st }

/-- Write the completion record of a slice or half; one without an address cannot be written (R194). -/
def putSubject (p : PartId) (x : Subject) (final : Bool) (st : Status) (grad : Nat) (bad : Nat × Nat) (s : State) : State × Status :=
  match x.recAddr with
  | some va => let r := s.vm.writeBytes p va (sliceRecBytes (x.record final st grad bad)) false; (s.putWrites (r.1.refused p va 32 r.2.2), r.2.2)
  | none => (s, .quota)

/-- Write the completion record of the head slice or half. -/
def putRecord (p : PartId) (r : RingId) (final : Bool) (st : Status) (grad : Nat) (bad : Nat × Nat) (s : State) : State × Status :=
  putSubject p s.rings[p][r].subj final st grad bad s

/-- HEAD advances past a retired slice, unless it has been written meanwhile (R195). -/
def advanceHead (p : PartId) (r : RingId) (s : State) : State :=
  (s.updRing p r (fun g => { g with head := if g.head.toNat = g.subj.seq then g.head + 1 else g.head, subj := {}, passedOver := 0, halves := [], run := none, closing := none, owed := none })).updPart p (Part.count 2 1)

/-- What follows once the final record of the head slice or half stands: the next half, or the slice that was split (R191), or HEAD. A record that cannot be written faults the ring, and what is unretired stays at the head (R194). -/
def retired : Nat → PartId → RingId → Status → Nat → State → State
  | 0, _, _, _, _, s => s
  | n + 1, p, r, st, grad, s =>
    match s.rings[p][r].halves with
    | [] => advanceHead p r s
    | l :: rest =>
      if !l.second then
        s.updRing p r (fun g => { g with halves := { l with second := true, firstStatus := st, firstGrad := grad } :: rest, subj := { seq := g.subj.seq }, passedOver := 0, run := none, closing := none })
      else
        let st' := Status.first l.firstStatus st
        let s := s.updRing p r (fun g => { g with halves := rest, subj := l.outer, run := none, closing := some (st', l.firstGrad + grad) })
        match putRecord p r true st' (l.firstGrad + grad) noEntry (countConds p [l.firstStatus, st] s) with
        | (s, .done) => retired n p r st' (l.firstGrad + grad) s
        | (s, c) => faultRing p r c s

/-- Depth to which halves may split (R177). -/
def halfDepth : Nat := 8

/-- Retire the head slice or half: its final record, and what follows. -/
def retire (p : PartId) (r : RingId) (st : Status) (grad : Nat) (bad : Nat × Nat) (s : State) : State :=
  match putRecord p r true st grad bad s with
  | (s, .done) => retired halfDepth p r st grad s
  | (s, c) => faultRing p r c s

/-! Entry records (R187, R188). -/

/-- An entry that the slice's end leaves unfinished: not ended, or with rows still behind its gate (R489, R493). -/
def EntryRun.cut (x : EntryRun) : Bool := x.started && !x.stopped && (!x.ended || x.provisional ≠ 0 || (x.checked && !(x.checkDone && !x.checkFailed)))

/-- Status and extent of an entry's record. `code`: the slice's abort code. -/
def EntryRun.status (x : EntryRun) (code : Status) : Status :=
  if !x.started then .deferred else if x.cut then Status.choose (code :: x.conds) else Status.choose x.conds

/-- The extent: gradient rows count only in a completed slice, and an entry that only a store sees has none (R137, R187). -/
def EntryRun.extent (x : EntryRun) (completed : Bool) : Nat :=
  match x.desc with
  | .pass d => if !x.started then x.skip else if d.drain = 5 ∧ d.type = .product then (if completed then x.rows else 0) else if d.chains then x.done else 0
  | .move d => if !x.started then 0 else if d.tagged then (if completed then x.done else 0) else x.done
  | .bad => 0

/-- Conditions that apply to an entry's record. -/
def EntryRun.allConds (x : EntryRun) (code : Status) : List Status := x.status code :: (if x.cut then code :: x.conds else x.conds)

/-- Write the entry records of an attempt; the first write that fails. -/
def putEntries (p : PartId) (code : Status) (completed : Bool) (run : SliceRun) (s : State) : State × Status :=
  run.arrays.foldl (fun acc a => (a.entries.zipIdx).foldl (fun (acc : State × Status) x =>
    if acc.2 = .done then writeRec p a.entRec (vaOf a.entRec + 16 * x.2) (entryRecBytes (x.1.status code) (x.1.extent completed)) acc.1 else acc) acc) (s, Status.done)

/-! Ending an attempt (R189, R190, R193, R248, R415, R451). -/

/-- How an attempt has ended, with its records still to be written. -/
structure Closing where
  part : PartId
  ring : RingId
  run : SliceRun
  /-- The code of entries that the end cut, and of the slice. -/
  entryCode : Status
  status : Status
  completed : Bool
  final : Bool
  split : Bool
deriving DecidableEq, Repr

def runEntries (run : SliceRun) : List EntryRun := run.arrays.flatMap (·.entries)
/-- Conditions met by the slice as a whole. -/
def runConds (run : SliceRun) : List Status := ((runEntries run).flatMap (·.conds)).dedup
/-- An entry stopped early: the slice retires and is not requeued (R248, R415). -/
def runStopped (run : SliceRun) : Bool := (runEntries run).any (·.stopped)

/-- A transfer runs on to its first `n` bytes where the earlier entries let it (R174). -/
def copyFree (a : ArrayId) (e : Nat) (d : MoveDesc) (n : Nat) (s : State) : State := if moverFree s a e d n then copyTo a e d [] n s else s

/-- Bytes beyond the committed ones may hold the new contents as well (R172): how many do is a free value (notes/assumptions/88.md), and the entry's record stands. -/
def spillMover (a : ArrayId) (e : Nat) (d : MoveDesc) (s : State) : State :=
  match entryAt s a e with
  | none => s
  | some x =>
    updEntry a e (fun _ => x) (copyFree a e d (x.done + Config.freeNat s.free % (d.rows * d.rowBytes - x.done + 1)) { s with free := s.free + 1 })

/-- Transfers in flight are cut where they stand (R172, R189). -/
def cutMovers (a : ArrayId) (moved : List (ArrayId × Nat × Nat)) (s : State) : State :=
  (List.range (entriesOf s a).length).foldl (fun s e =>
    match entryAt s a e with
    | none => s
    | some x => (match x.desc with
      | .move d =>
        if x.started ∧ !x.over' then
          spillMover a e d (match moved.find? (fun m => m.1 = a && m.2.1 = e) with | some m => copyFree a e d m.2.2 s | none => s)
        else s
      | _ => s)) s

/-- A dispute that the end leaves undecided (R493): history, and the second in a row makes the ARRAY unit SUSPECT. -/
def leaveDispute (a : ArrayId) (s : State) : State :=
  match s.arrays[a].dispute with
  | none => s
  | some (f, _, _) =>
    let u := physOf s a
    let ras := s.ras.enter (frameNow s) u 2 f
    let n := (s.ras.unit u).unresolved + 1
    let ras := (if 2 ≤ n then ras.suspect (frameNow s) u else ras).updUnit u (fun x => { x with unresolved := if 2 ≤ n then 0 else n })
    let s := auditDispute a .overrun u { s with ras := ras }
    s.updArray a (fun y => { y with dispute := none })

/-- The engines of an array drop what they hold of a slice. -/
def ArrayEng.clear (y : ArrayEng) : ArrayEng :=
  { y with cur := none, shadow := none, fold := [], rowFeed := [], colFeed := [], rows := [], group := [], tagged := [], dispute := none }

/-- The counts of an entry with the bubbles, stalls and load waits in which the tick found it (R58, R85). -/
def EntryRun.withWaits (l : List (ArrayId × Nat × Nat × Nat × Nat)) (a : ArrayId) (e : Nat) (x : EntryRun) : EntryRun :=
  (l.filter (fun w => w.1 = a && w.2.1 = e)).foldl (fun x w => { x with bubble := x.bubble + w.2.2.1, stall := x.stall + w.2.2.2.1, load := x.load + w.2.2.2.2 }) x

/-- Every array of a slice stops; the counts of its passes belong to this frame (R209). -/
def stopArrays (p : PartId) (r : RingId) (t : TickIn) (arrays : List ArrayId) (s : State) : State :=
  arrays.foldl (fun s a =>
    if s.arrays[a].cur = some (p, r) then
      let s := leaveDispute a (cutMovers a t.moved s)
      let s := ((entriesOf s a).zipIdx).foldl (fun s x => if x.1.started ∧ !x.1.ended ∧ x.1.pass.isSome then addCounts p (x.1.withWaits t.waits a x.2) s else s) s
      s.updArray a ArrayEng.clear
    else s) s

/-! ENERGY_CORRECTION (R221). -/

/-- It moves one eighth of the way towards the observed ratio. -/
def correctionOf (f : Nat) (energy pred : Nat) : Nat :=
  let d := rheDiv ((energy : Int) * 16384 - (f : Int) * (pred : Int)) (8 * pred)
  (max 4096 (min 65535 ((f : Int) + d))).toNat

def learnCorrection (p : PartId) (energy pred : Nat) (s : State) : State :=
  { s with gov := { s.gov with correction := modVec s.gov.correction p (fun f => BitVec.ofNat 16 (correctionOf f.toNat energy pred)) } }

/-! The end of an attempt. -/

/-- An attempt ends by `code` (OVERRUN at the tick, KEY_REVOKED at a removal) or, where every list is finished and its outputs are visible, completes (R188, R193). Its engines stop, its gradient rows are discarded unless it completed, and its conditions are counted. -/
def endAttempt (p : PartId) (r : RingId) (code : Status) (t : TickIn) (s : State) : State × Option Closing :=
  match s.rings[p][r].run with
  | none => (s, none)
  | some run0 =>
    let s := stopArrays p r t (run0.arrays.map (·.array)) s
    let run := (s.rings[p][r].run).getD run0
    let completed := run.arrays.all (·.finished) && outputsVisible s p
    let g := s.rings[p][r]
    let stop := runStopped run
    let n := g.subj.overruns + 1
    let split := !completed && code = .overrun && !stop && 2 ≤ n && run.hdr.halfAddr ≠ 0
    let own := if completed then .done else if split then Status.split else code
    let clocks := ((t.clocks.find? (fun c => c.1 = p && c.2.1 = r)).map (·.2.2)).getD g.subj.cycles
    let st := Status.choose (own :: runConds run)
    let x : Subject := { g.subj with cycles := clocks, energy := Config.freeNat s.free % 2 ^ 32, frame := frameNow s, overruns := if completed then 0 else if code = .overrun then n else g.subj.overruns }
    let s := { s.updRing p r (fun g => { g with subj := x }) with free := s.free + 1 }
    let s := if completed then s else dropGrad p r s
    let s := s.updPart p (fun y => (y.count 3 (if !completed && code = .overrun then 1 else 0)).count 4 (if split then 1 else 0))
    let s := (runEntries run).foldl (fun s e => countConds p (e.allConds code) s) s
    let s := countConds p (st :: own :: runConds run) s
    (s, some { part := p, ring := r, run := run, entryCode := code, status := st, completed := completed, final := completed || stop || code ≠ .overrun, split := split })

/-- The run is over; a slice that is split leaves its first half at the head, whether or not its records can be written (R184, R190). -/
def endRun (c : Closing) (g : Ring) : Ring :=
  if c.split then
    { g with run := none, passedOver := 0, subj := { seq := g.subj.seq },
             halves := { halfAddr := c.run.hdr.halfAddr, second := false, firstStatus := .done, firstGrad := 0, outer := g.subj } :: g.halves }
  else { g with run := none }

/-- The records of an attempt that has ended (R188, R209): entry records first, then the completion record; a completed slice retires, a split one offers its halves, any other stays at the head.
Its gradient rows are committed once its own final record stands (R137). A slice that finishes after its ring was disabled retires as any other (R195; notes/assumptions/101.md). -/
def closeAttempt (c : Closing) (s : State) : State :=
  let p := c.part
  let r := c.ring
  let x := s.rings[p][r].subj
  match putEntries p c.entryCode c.completed c.run (s.updRing p r (endRun c)) with
  | (s, .done) =>
    let grad := if c.completed then (provisionalRows s p r).length else 0
    match putSubject p x c.final c.status grad noEntry s with
    | (s, .done) =>
      if c.final then retired halfDepth p r c.status grad (if c.completed then commitGrad p r c.run.hdr.version c.run.seq s else s) else s
    | (s, st) => dropGrad p r (faultRing p r st s)
  | (s, st) => dropGrad p r (faultRing p r st s)

/-- The abort of one running slice, with its records. -/
def abortRun (p : PartId) (r : RingId) (code : Status) (t : TickIn) (s : State) : State :=
  match endAttempt p r code t s with
  | (s, some c) => closeAttempt c s
  | (s, none) => s

/-- SLICE_SPLIT: a second overrun in a row of a slice with a halves block (R190). -/
def maySplit (s : State) (p : PartId) (r : RingId) : Bool :=
  match s.rings[p][r].run with
  | some run => run.hdr.halfAddr ≠ 0 && 1 ≤ s.rings[p][r].subj.overruns && !run.arrays.all (·.finished)
  | none => false

def execSliceSplit (p : PartId) (r : RingId) (t : TickIn) (s : State) : Res := need (maySplit s p r) (abortRun p r .overrun t s)

/-! Completion within the frame (R188, R221). -/

def completeRun (p : PartId) (r : RingId) (run : SliceRun) (cycles energy : Nat) (s : State) : State :=
  let st := Status.choose (runConds run)
  let s := s.updRing p r (fun g => { g with subj := { g.subj with cycles := cycles, energy := energy, frame := frameNow s, overruns := 0 } })
  let s := (runEntries run).foldl (fun s e => countConds p (e.allConds .done) s) s
  let s := countConds p (st :: runConds run) s
  let s := learnCorrection p (min energy 0xFFFFFFFF) run.hdr.predEnergy s
  closeAttempt { part := p, ring := r, run := run, entryCode := .done, status := st, completed := true, final := true, split := false } s

def execSliceComplete (p : PartId) (r : RingId) (cycles energy : Nat) (s : State) : Res :=
  match s.rings[p][r].run with
  | some run => need (run.arrays.all (·.finished) && outputsVisible s p) (completeRun p r run cycles energy s)
  | none => .fault .noCause

/-! Starting on an array (R71, R73, R111, R219). -/

/-- Slices admitted to an array and not finished there: order, partition, ring. -/
def waitingOn (s : State) (a : ArrayId) : List (Nat × PartId × RingId) :=
  allParts.flatMap fun p => allRings.filterMap fun r =>
    match s.rings[p][r].run with
    | some run => (match run.arrays.find? (fun x => x.array = a) with | some x => if x.finished then none else some (run.order, p, r) | none => none)
    | none => none

/-- The array takes up the list: its store, its row-statistic buffer and its tables start afresh (R73, R109, R111). -/
def startList (a : ArrayId) (p : PartId) (r : RingId) (s : State) : State :=
  let s := s.updArray a (fun y => { y.clear with cur := some (p, r), working := [], store := [], rowbuf := [], tables := [], tableClock := 0 })
  updRun a (fun x => { x with started := true }) s

def execSliceStartOnArray (a : ArrayId) (s : State) : Res :=
  match (sortKey (fun x : Nat × PartId × RingId => x.1) (waitingOn s a)).head? with
  | some (_, p, r) => need (s.arrays[a].cur.isNone && s.gov.admission.isNone) (startList a p r s)
  | none => .fault .noCause

/-! Offering (R183 to R185, R192, R194). -/

/-- The tail word, read once per tick; one that cannot be read leaves the tail unchanged and is counted. -/
def readTail (p : PartId) (r : RingId) (s : State) : State :=
  let g := s.rings[p][r]
  match readAt s p g.tailAddr (vaOf g.tailAddr) 8 with
  | some b => s.updRing p r (fun g => { g with tail := leNat b })
  | none => if isVirtual g.tailAddr then countConds p [s.vm.readStatus p (vaOf g.tailAddr) 8] s else s

/-- Gradient rows that the retired halves of the head slice have committed. -/
def halvesGrad (g : Ring) : Nat := (g.halves.map (fun l => if l.second then l.firstGrad else 0)).foldl (· + ·) 0

/-- Entry records of a slice that never ran (R192): never started, and nothing committed. -/
def putUnrun (p : PartId) (h : SliceHdr) (s : State) : State × Status :=
  let t := if isVirtual h.tableAddr ∧ vaOf h.tableAddr % 32 = 0 then readTable p s.vm h else []
  (t.filterMap id).foldl (fun acc e => (List.range e.count).foldl (fun (acc : State × Status) i =>
    if acc.2 = .done ∧ isVirtual e.entRec then writeRec p e.entRec (vaOf e.entRec + 16 * i) (entryRecBytes .deferred 0) acc.1 else acc) acc) (s, Status.done)

/-- WITHDRAW (R192): the slice retires whole, whichever of its halves stands at the head. -/
def withdrawSlice (p : PartId) (r : RingId) (h : SliceHdr) (s : State) : State :=
  let grad := halvesGrad s.rings[p][r]
  let s := s.updRing p r (fun g => { g with subj := match g.halves.getLast? with | some l => { l.outer with frame := frameNow s } | none => g.subj, halves := [], closing := none })
  match if s.rings[p][r].subj.admitted then (s, Status.done) else putUnrun p h s with
  | (s, .done) => retire p r .partialDone grad noEntry (countConds p [.partialDone] s)
  | (s, c) => faultRing p r c s

/-- What is remembered belongs to the slice at HEAD: where HEAD has been written, another slice stands there, which has not been admitted (R195). The record to be written states this frame's offering (R186). -/
def Ring.stamp (frame : Nat) (g : Ring) : Ring :=
  let g := if g.topSeq = g.head.toNat then g else { g with subj := {}, halves := [], closing := none, passedOver := 0 }
  let g := { g with halves := g.halves.dropLast ++ (g.halves.getLast?.map (fun l : HalfLevel => { l with outer := { l.outer with seq := g.head.toNat, recAddr := g.topRec } })).toList }
  { g with subj := { g.subj with frame := frame, seq := g.head.toNat, recAddr := g.recAddr } }
def stampOffer (p : PartId) (r : RingId) (s : State) : State := s.updRing p r (Ring.stamp (frameNow s))

/-- A slice that the checks reject (R184, R185). -/
def rejectSlice (p : PartId) (r : RingId) (fails : List Fail) (f : Fail) (s : State) : State :=
  let st := if s.rings[p][r].subj.admitted then Status.partialDone else f.1
  retire p r st 0 (f.2.1, f.2.2) (countConds p (st :: fails.map (·.1)) s)

/-- The result of an offering: what the ring presents to admission. -/
abbrev Offer := SliceRead × Nat

/-- offer() of R184, with at most 16 slices passed over. -/
def offerLoop (p : PartId) (r : RingId) : Nat → State → State × Option Offer
  | 0, s => (s, none)
  | n + 1, s =>
    let g := s.rings[p][r]
    let h := g.head.toNat
    if g.state = 2 then (s, none)
    else if g.tail < h ∨ h + g.size.toNat < g.tail then (faultRing p r .badDescriptor s, none)
    else if g.tail = h ∨ n = 0 then (s, none)
    else
      let s := stampOffer p r s
      let g := s.rings[p][r]
      match g.closing with
      | some (st, grad) => offerLoop p r n (retire p r st grad noEntry s)
      | none =>
        match (readAt s p g.headerBase (vaOf g.headerBase + 32 * g.slotNo) 32).map headerOf with
        | some top =>
          if top.withdraw then offerLoop p r n (withdrawSlice p r top s)
          else
            let hdr := if g.halves.isEmpty then some top else ((s.vm.readBytes p g.hdrVa 32).2).map headerOf
            match hdr with
            | some hdr =>
              let (read, fails) := checkSlice s p g.recVa (3 - g.halves.length) hdr
              match firstFail fails with
              | some f => offerLoop p r n (rejectSlice p r fails f s)
              | none =>
                if gatherVerdict s p read = .gone then
                  offerLoop p r n (retire p r .gatheringLate 0 noEntry (countConds p [.gatheringLate] s))
                else (s, some (read, h))
            | none => offerLoop p r n (rejectSlice p r [] (.badDescriptor, 0xFF, 0xFFFF) s)
        | none => offerLoop p r n (rejectSlice p r [] (.badDescriptor, 0xFF, 0xFFFF) s)

/-! Candidates (R217, R218). -/

/-- An array's part of a slice as admitted. -/
def arrayRun (l : ListRead) : Option ArrayRun :=
  (arrayOf l.array).map (fun a => { array := a, listAddr := l.list, entRec := l.entRec, entries := l.entries.map (fun e => { desc := e.1, chain := e.2.1 }) })

/-- The candidate that an offered slice makes; its energy with the partition's correction (R217). -/
def candidateOf (p : PartId) (r : RingId) (o : Offer) (s : State) : Candidate :=
  let arrays := o.1.lists.filterMap arrayRun
  { part := p, ring := r, hdr := o.1.hdr, seq := o.2, arrays := arrays,
    e := ceilDiv (o.1.hdr.predEnergy * s.gov.correction[p].toNat) 16384,
    late := gatherVerdict s p o.1 = .late, away := arrays.any (fun x => s.ras.out.contains x.array.val), pages := stashPages s p o.1 }

/-- Rings that are offered at a tick (R182, R195, R450). -/
def ringOffers (s : State) (p : PartId) (r : RingId) : Bool := s.parts[p].state = .active && s.rings[p][r].enable && s.rings[p][r].state ≠ 2 && s.rings[p][r].run.isNone

/-- Offer every ring in order; the candidates. -/
def offerAll (s : State) : State × List Candidate :=
  (allParts.flatMap (fun p => allRings.map (fun r => (p, r)))).foldl (fun (acc : State × List Candidate) pr =>
    if ringOffers acc.1 pr.1 pr.2 then
      match offerLoop pr.1 pr.2 17 (readTail pr.1 pr.2 acc.1) with
      | (s, some o) => (s, acc.2 ++ [candidateOf pr.1 pr.2 o s])
      | (s, none) => (s, acc.2)
    else acc) (s, [])

/-- Usable clocks of the frame (R200). -/
def usableClocks (s : State) : Nat := (s.tick.inForce.toNat - 20) * 1100

/-- PRED_CYCLES of the slices admitted to an array in this frame. -/
def clocksOn (s : State) (a : ArrayId) : Nat :=
  ((allParts.flatMap fun p => allRings.filterMap fun r => (s.rings[p][r].run).bind (fun run =>
    if run.arrays.any (fun x => x.array = a) then some run.hdr.predCycles else none))).foldl (· + ·) 0

/-- Condition 5 of R218. -/
def fitsClocks (s : State) (c : Candidate) : Bool :=
  c.arrays.all (fun x => clocksOn s x.array = 0) || c.arrays.all (fun x => clocksOn s x.array + c.hdr.predCycles ≤ usableClocks s)

/-- The offered slice's stash pages are reserved (R149), whatever else may keep it out (notes/assumptions/102.md); or the reason why they cannot be (R150). -/
def reserveStash (c : Candidate) (s : State) : State × List Status :=
  match s.vm.reserve (privBytes s) c.part c.pages with
  | .ok v => (s.putVM v, [])
  | .error st => (s, [st])

/-- Every condition of R218 that a candidate fails now, by its code; none where it is eligible. -/
def eligible (c : Candidate) (s : State) : State × List Status :=
  let r := reserveStash c s
  (r.1, r.2 ++ (if c.late then [.gatheringLate] else []) ++ (if c.away || !fitsClocks s c then [.deferred] else []))

/-- Rows that earlier attempts have added are skipped by RAW passes (R169, R180). -/
def skipRaw (p : PartId) (s : State) (a : ArrayRun) : ArrayRun :=
  { a with entries := (a.entries.zipIdx).map (fun x =>
      match x.1.desc with
      | .pass d => if d.raw then { x.1 with skip := match readAt s p a.entRec (vaOf a.entRec + 16 * x.2) 16 with | some b => leNat (b.drop 8) | none => 0 } else x.1
      | _ => x.1) }

/-- A candidate is admitted (R185, R186, R217, R219). -/
def admitOne (c : Candidate) (s : State) : State :=
  let arrays := if s.rings[c.part][c.ring].subj.attempts = 0 then c.arrays else c.arrays.map (skipRaw c.part s)
  let s := s.updRing c.part c.ring (fun g =>
    { g with subj := { g.subj with admitted := true, attempts := min 255 (g.subj.attempts + 1) }, passedOver := 0, owed := none,
             run := some { hdr := c.hdr, seq := c.seq, arrays := arrays, order := s.gov.order, charged := c.e } })
  { s.updPart c.part (Part.count 1 1) with gov := { s.gov with order := s.gov.order + 1 } }

/-- Consider a candidate with so much energy left: admitted, or why not. -/
def consider (c : Candidate) (fits : Bool) (s : State) : State × Candidate × Bool :=
  match eligible c s with
  | (s, []) => if fits then (admitOne c s, c, true) else (s, { c with conds := [.deferred], missed := true }, false)
  | (s, l) => (s, { c with conds := l, missed := false }, false)

/-! The two passes (R217, R220). -/

/-- Order of pass 1: partition, PRIORITY, ring. -/
def Candidate.place (c : Candidate) : Nat := (c.part.val * 256 + c.hdr.priority) * 16 + c.ring.val

/-- Energy admitted to a partition in this frame. -/
def spentOf (l : List (PartId × Nat)) (p : PartId) : Nat := (kvGet p l).getD 0
def spend (p : PartId) (e : Nat) (l : List (PartId × Nat)) : List (PartId × Nat) := kvSet p (spentOf l p + e) l

/-- Whether `x` comes before `y` in pass 2: SERVE first, then the smaller ratio of energy to share, share 0 last, then pass 1's order. -/
def before2 (s : State) (spent : List (PartId × Nat)) (x y : Candidate) : Bool :=
  let serve (c : Candidate) : Bool := s.parts[c.part].cls = 0
  let sh (c : Candidate) : Nat := s.parts[c.part].force.share.toNat
  if serve x ≠ serve y then serve x
  else if serve x then x.place < y.place
  else
    let l := spentOf spent x.part * sh y
    let r := spentOf spent y.part * sh x
    if (sh x = 0) ≠ (sh y = 0) then sh y = 0
    else if sh x ≠ 0 ∧ l ≠ r then l < r
    else x.place < y.place

/-- The first of a list by an order. -/
def firstBy (before : Candidate → Candidate → Bool) : List Candidate → Option Candidate
  | [] => none
  | c :: r => match firstBy before r with | some d => if before d c then some d else some c | none => some c

/-- Where pass 1 leaves admission: the state, what each partition has left and was admitted, and the candidates not admitted. -/
structure Pass1 where
  state : State
  left : List (PartId × Nat)
  spent : List (PartId × Nat)
  rest : List Candidate

def pass1 (cands : List Candidate) (allot : List (PartId × Nat)) (s : State) : Pass1 :=
  (sortKey Candidate.place cands).foldl (fun (a : Pass1) c =>
    match consider c (c.e ≤ spentOf a.left c.part) a.state with
    | (s, _, true) => { a with state := s, left := kvSet c.part (spentOf a.left c.part - c.e) a.left, spent := spend c.part c.e a.spent }
    | (s, c, false) => { a with state := s, rest := a.rest ++ [c] }) { state := s, left := allot, spent := [], rest := [] }

/-- Pass 2 over the candidates not yet tried; those that stay out. -/
def pass2 : Nat → Int → List (PartId × Nat) → List Candidate → List Candidate → State → State × List Candidate
  | 0, _, _, rest, out, s => (s, out ++ rest)
  | n + 1, pool, spent, rest, out, s =>
    match firstBy (before2 s spent) rest with
    | none => (s, out)
    | some c =>
      let rest := rest.erase c
      match consider c ((c.e : Int) ≤ pool) s with
      | (s, _, true) => pass2 n (pool - c.e) (spend c.part c.e spent) rest out s
      | (s, c, false) => pass2 n pool spent rest (out ++ [c]) s

/-- The candidates that stay out: what their records will carry, the run of offerings passed over for energy, and GATHERING_LATE_ARRAY_FRAMES (R188, R220, R222). -/
def leaveOut (out : List Candidate) (s : State) : State :=
  out.foldl (fun s c =>
    let s := s.updRing c.part c.ring (fun g => { g with owed := some (c.conds, frameNow s), passedOver := if c.missed then g.passedOver + 1 else g.passedOver })
    if c.conds.contains .gatheringLate then s.updPart c.part (Part.count 0x0C (c.arrays.filter (fun x => clocksOn s x.array = 0)).length) else s) s

def finishAdmission (a : Admission) (s : State) : State :=
  let r := pass2 a.rest.length a.pool a.spent a.rest [] s
  leaveOut r.2 { r.1 with gov := { r.1.gov with admission := none } }

/-- The due candidate: eligible, passed over longest, ties in the order of pass 2 (R220). -/
def duePick (a : Admission) (s : State) : Option Candidate :=
  let run (c : Candidate) : Nat := s.rings[c.part][c.ring].passedOver
  firstBy (fun x y => if run x ≠ run y then run y < run x else before2 s a.spent x y)
    (a.rest.filter (fun c => 16 ≤ run c && (eligible c s).2.isEmpty))

/-- admit() of R217 up to the due candidate; pass 2 follows at once where none is due. -/
def admitAll (cands : List Candidate) (s : State) : State :=
  let b := s.gov.budget.toNat
  let parts := (cands.map (·.part)).dedup
  let total := (parts.map (fun p => s.parts[p].force.share.toNat)).foldl (· + ·) 0
  let allot := parts.map (fun p => (p, if total = 0 then 0 else b * s.parts[p].force.share.toNat / total))
  let s := { s with gov := { s.gov with allotment := Vector.ofFn (fun p => BitVec.ofNat 32 (spentOf allot p)), admission := none } }
  if s.gov.derate = 0 then leaveOut cands s
  else
    let pool := b - (allot.map (·.2)).foldl (· + ·) 0
    let r := pass1 cands allot s
    let a : Admission := { pool := (pool + (r.left.map (·.2)).foldl (· + ·) 0 : Nat), rest := r.rest, spent := r.spent }
    if (duePick a r.state).isSome then { r.state with gov := { r.state.gov with admission := some a } } else finishAdmission a r.state

/-- ENERGY_DUE_ADMIT: the due candidate is admitted ahead of pass 2, and the pool may go below zero (R220). -/
def dueAdmit (a : Admission) (s : State) : State :=
  match duePick a s with
  | some c =>
    let s := admitOne c ((eligible c s).1)
    finishAdmission { a with pool := a.pool - c.e, rest := a.rest.erase c, spent := spend c.part c.e a.spent } s
  | none => finishAdmission a s

def execEnergyDueAdmit (s : State) : Res :=
  match s.gov.admission with
  | some a => .next (dueAdmit a s)
  | none => .fault .noCause

/-- Records owed since the last tick (R188, R208 step 7): the completion record only, FINAL = 0. -/
def payOwed (s : State) : State :=
  (allParts.flatMap (fun p => allRings.map (fun r => (p, r)))).foldl (fun s pr =>
    match s.rings[pr.1][pr.2].owed with
    | none => s
    | some (l, f) =>
      let s := s.updRing pr.1 pr.2 (fun g => { g with owed := none, subj := { g.subj with frame := f } })
      if s.parts[pr.1].state = .active then
        match putRecord pr.1 pr.2 false (Status.choose l) 0 noEntry (countConds pr.1 l s) with
        | (s, .done) => s
        | (s, c) => faultRing pr.1 pr.2 c s
      else s) s

/-! RING_ENABLE (R181, R182, R195). -/

/-- 1 enables the ring, from HEAD on; 0 stops its offering and ends a fault. -/
def opRingEnable (q : Req) (p : PartId) (r : RingId) (v : Byte) (s : State) : State × Status :=
  guarded s (0x4000 + 16 * p.val + r.val) (opOrTenant s q p && v.toNat ≤ 1 && (v = 0 || s.parts[p].state = .active))
    (s.updRing p r (fun g => if v = 0 then { g with enable := false, state := 0 } else { g with enable := true, state := if g.enable then g.state else 1 }), .done)
def execRingEnableWrite (q : Req) (p : PartId) (r : RingId) (v : Byte) (s : State) : Res := software s (answer q (opRingEnable q p r v s))

end Sys2Proof.Machine
end

