-- ==== Sys2Proof/Machine/Ticks.lean ====
section
/-!
DEFINITION. Machine/Ticks.lean: the tick on the fabric (R202 to R207, R291 to R293), reaching ACTIVE at boot step 8 (R593, R595), the peak guard (R215), the frame period (R201, R202) and temperatures (R216, R254).
-/

namespace Sys2Proof.Machine

/-! Reaching ACTIVE (R593, R595). -/

/-- Every array-die domain has finished its sequence (R587). -/
def diesSettled (s : State) : Bool := [(0 : DieId), 1, 2, 3].all (fun d => s.pow.domains[d] = .up || s.pow.domains[d] = .failed)
/-- Boot step 8 is reached: hub and array dies have finished their sequences. -/
def bootReady (s : State) : Bool := s.pow.mod = .booting && hubUp s && diesSettled s

/-- SECURITY_VERSION of the running image (R594). -/
def runningVersion (s : State) : Nat := ((s.fw.running.getD []).getD 6 0).toNat

/-! Requests for a lower state (R581, R582, R584, R591, R602). -/

/-- Compute domains that are not off or failed start down (R588). -/
def stopDomains (ds : List DieId) (s : State) : State :=
  { s with pow := { s.pow with domains := Vector.ofFn (fun d : Fin 5 => match s.pow.domains[d] with
      | .off => .off
      | .failed => .failed
      | x => if ds.contains d then .stopping else x) } }

/-- The shut-down to STANDBY begins: the module leaves the tick, and tenant state is lost. -/
def beginStandby (s : State) : State :=
  let s := stopDomains [0, 1, 2, 3, 4] (loseTenants (leaveTick s))
  { s with pow := { s.pow with mod := .stopping, target := some .standby, atTick := none, windowRun := false, latched := none, fromDoze := false } }

/-- The window of the tick after an accepted request has run, or there is no tick to wait for. -/
def windowEnd (s : State) : State :=
  if s.pow.mod ≠ .active then s
  else match s.pow.atTick with
  | some .doze => { s with pow := { s.pow with mod := .stopping, target := some .doze, windowRun := true } }
  | some _ => beginStandby s
  | none => s

/-- DOZE is denied while a session is FORMING or RUNNING, or a borrower holds bytes of the lent range. -/
def dozeBarred (s : State) : Bool := s.bind.sessions.any (fun x => x.2.state = 1 || x.2.state = 2) || !s.mem.lent.isEmpty

/-- An accepted request waits for the next tick; a module that has not joined has none, and begins at once. -/
def acceptLower (target : ModState) (s : State) : State :=
  let t := { s with pow := { s.pow with atTick := some target, windowRun := false } }
  if s.tick.joined then t else windowEnd t

def setRequest (v : BitVec 8) (s : State) : State := { s with pow := { s.pow with request := v } }
def setLatched (mod : ModState) (l : Option ModState) (s : State) : State := { s with pow := { s.pow with mod := mod, latched := l } }

/-- STATE_REQUEST := DOZE. -/
def requestDoze (s : State) : State × Status :=
  match s.pow.mod with
  | .active => if dozeBarred s then (s, .denied) else (acceptLower .doze (setRequest 2 s), .done)
  | .doze => (setRequest 2 s, .done)
  | .starting => (setLatched .starting (some .doze) (setRequest 2 s), .done)
  | .stopping | .stoppingPending => if s.pow.target = some .doze then (setLatched .stopping none (setRequest 2 s), .done) else (s, .denied)
  | _ => (s, .denied)

/-- STATE_REQUEST := STANDBY. -/
def requestStandby (s : State) : State × Status :=
  if !allParts.all (fun p => s.parts[p].state = .free) then (s, .denied)
  else match s.pow.mod with
  | .active => (acceptLower .standby (setRequest 1 s), .done)
  | .doze => (beginStandby (setRequest 1 s), .done)
  | .standby => (setRequest 1 s, .done)
  | .starting => (setLatched .starting (some .standby) (setRequest 1 s), .done)
  | .stopping | .stoppingPending => (setLatched .stopping (if s.pow.target = some .doze then some .standby else none) (setRequest 1 s), .done)
  | _ => (s, .denied)

/-- A power-up has finished: MOD_PWR_EN low takes the module down at once, and a request that waited is carried out as if written now. -/
def carryLatched (s : State) : State :=
  let t := { s with pow := { s.pow with latched := none } }
  if !s.pow.pwrEn then beginStandby { t with pow := { t.pow with nextCause := some 3 } }
  else match s.pow.latched with
    | some .doze => (requestDoze t).1
    | some .standby => (requestStandby t).1
    | _ => t

/-- The array dies have all finished after DOZE: the module is ACTIVE again. Window and engines have lost their power, every bank is EMPTY, the root words are restored (R422, R583). -/
def returned (s : State) : State :=
  let s := { s with
    mem := { s.mem with window := Vector.replicate 64 [], winPoison := Vector.replicate 64 [], moves := [], fetches := [], selfRefresh := false, savedRoots := [],
                        tree := s.mem.savedRoots.foldl (fun t x => kvSet x.1 x.2 t) s.mem.tree },
    parts := s.parts.map (fun x => { x with gatherings := x.gatherings.map (fun g => { g with bankState := Vector.replicate 4 0 }) }),
    arrays := Vector.replicate 128 {},
    pow := { s.pow with mod := .active, target := none, fromDoze := false } }
  carryLatched s

/-- Whether that was the last domain of a return from DOZE. -/
def settle (s : State) : State := if s.pow.mod = .starting ∧ s.pow.fromDoze ∧ diesSettled s then returned s else s

/-- MODULE_STATE becomes ACTIVE, and the firmware floor rises to the running image's version. -/
def reachActive (s : State) : State :=
  if bootReady s then
    carryLatched { s with pow := { s.pow with mod := .active, target := none }, fw := { s.fw with floor := max s.fw.floor (runningVersion s) } }
  else s

/-! Order of masters (R203). -/

/-- (priority, device) stands before another. -/
def masterBefore (p : Nat) (d : Device) (p' : Nat) (d' : Device) : Bool := p < p' || (p = p' && d.toNat < d'.toNat)

/-- The role of a follower by the successors that the master names. -/
def followRole (own s1 s2 : Device) : BitVec 8 := if own ≠ 0xFFFF ∧ s1 = own then 2 else if own ≠ 0xFFFF ∧ s2 = own then 3 else 0

/-- The module originates and forwards packets (R280): it has a device ID. -/
def mayOriginate (s : State) : Bool := s.fab.idInForce ≠ 0xFFFF

/-- The straits that carry announces: up and in fabric mode. -/
def tickStraits (s : State) : List StraitId := allStraits.filter (fun k => s.fab.straits[k].link = .up && s.fab.straits[k].mode = 1)

/-! Announces (R206, R207, R291, R293). -/

/-- Accumulated delay of an announce at its arrival. -/
def announceDelay (n : Announce) (s : State) : Nat := n.accDelay + s.fab.straits[n.strait].delay.toNat

/-- TICK packets with 32 bytes of payload leave on straits, ahead of all other traffic (R274, R279, R291). -/
def sendTicks (ks : List StraitId) (s : State) : State := ks.foldl (fun s k => sendFlit k 0 (slotsOf 32) none s) s

/-- The first announce received for a frame goes on over every other strait, once, with its hop count lowered and the residence time added (R280, R291). -/
def forwardAnnounce (n : Announce) (s : State) : State :=
  if n.hops = 0 ∨ s.tick.forwarded.contains n.frame ∨ !mayOriginate s then s
  else
    let acc := announceDelay n s + n.residence
    (sendTicks ((tickStraits s).filter (fun k => k ≠ n.strait)) { s with tick := { s.tick with forwarded := n.frame :: s.tick.forwarded } }).emit
      (((tickStraits s).filter (fun k => k ≠ n.strait)).map (fun k => Output.announce { n with strait := k, accDelay := acc, hops := n.hops - 1, arrival := 0, residence := 0 }))

/-- What an announce says of the master followed: its identity, its successors and the period of the next frame, which is the one in force with the master unless it announces another (R202, R203). -/
def takeMaster (n : Announce) (s : State) : State :=
  { s with tick := { s.tick with master := n.master, masterPrio := some n.prio, succ1 := n.succ1, succ2 := n.succ2, nextPeriod := some (n.next.getD n.period), missedRun := 0,
                                 role := followRole s.fab.idInForce n.succ1 n.succ2 } }

/-- The copy counts for the tick when it stands on the parent strait, or has the smallest delay of those heard within 10 us while none came on the parent (R293). -/
def disciplines (n : Announce) (s : State) : Bool :=
  n.arrival ≤ 10000 &&
  (s.tick.parent = some n.strait ||
   (s.tick.heard.all (fun h => announceDelay n s < h.2) && s.tick.heard.all (fun h => s.tick.parent ≠ some h.1)))

/-- An announce of the master followed, for the frame in progress. -/
def hearAnnounce (n : Announce) (s : State) : State :=
  let s := takeMaster n s
  let off : Int := announceDelay n s - n.arrival
  let s := if disciplines n s then { s with tick := { s.tick with offset := off, owedNs := off - max (-50) (min 50 off) } } else s
  let t := forwardAnnounce n s
  if n.arrival ≤ 10000 then { t with tick := { t.tick with heard := t.tick.heard ++ [(n.strait, announceDelay n s)] } } else t

/-- The first announce that a booting module receives (R207): it joins with the master's frame number. -/
def joinTick (n : Announce) (s : State) : State :=
  let s := { s with tick := { s.tick with joined := true, ticks := 0, frame := BitVec.ofNat 64 n.frame, inForce := BitVec.ofNat 32 n.period, parent := some n.strait, heard := [], forwarded := [], announced := none } }
  reachActive (hearAnnounce n s)

/-- Another master's announce (R206): it is followed, and where the phases differ the running frame ends at its next tick, with its frame number and period from then on. -/
def adoptMaster (n : Announce) (s : State) : State :=
  if n.frame = s.tick.frame.toNat ∧ n.arrival ≤ 10000 then hearAnnounce n { s with tick := { s.tick with announced := none } }
  else forwardAnnounce n (takeMaster n { s with tick := { s.tick with adjusted := true, adopt := some (n.frame + 1), parent := some n.strait, heard := [], announced := none } })

/-- An announce of another master is followed when it stands before the master followed (R206), or when the one followed has been silent for two ticks, so that a successor has taken over (R205). -/
def followsOther (n : Announce) (s : State) : Bool :=
  masterBefore n.prio n.master (s.tick.masterPrio.getD 65536) s.tick.master || (s.tick.role ≠ 1 && 2 ≤ s.tick.missedRun)

def announceIn (n : Announce) (s : State) : State :=
  if !s.tick.joined then joinTick n s
  else if n.master = s.tick.master ∧ s.tick.role ≠ 1 then (if n.frame = s.tick.frame.toNat then hearAnnounce n s else forwardAnnounce n s)
  else if n.master ≠ s.fab.idInForce ∧ followsOther n s then adoptMaster n s
  else forwardAnnounce n s

/-- TICK_ANNOUNCE: a module that has not joined takes it from boot step 8 on. -/
def execTickAnnounce (n : Announce) (s : State) : Res :=
  need ((tickStraits s).contains n.strait && (s.tick.joined || bootReady s || s.pow.mod = .active)) (announceIn n s)

/-! Probes (R292). -/

def execTickProbe (k : StraitId) (t1 : Nat) (s : State) : Res :=
  need ((tickStraits s).contains k && mayOriginate s) ((sendFlit k 0 (slotsOf 0) none (s.updStrait k (fun x => { x with probeT1 := some t1 }))).emit [.probe k])

/-- LINK_DELAY_NS from the four times (R292), a half rounded by R24. -/
def linkDelay (t1 t2 t3 t4 : Nat) (asym : Int) : Nat := (rheDiv (((t4 : Int) - t1) - ((t3 : Int) - t2) - asym) 2).toNat

def probeDone (k : StraitId) (t1 t2 t3 t4 : Nat) (s : State) : State :=
  s.updStrait k (fun x => { x with probeT1 := none, delay := BitVec.ofNat 32 (linkDelay t1 t2 t3 t4 x.asym.toInt) })

def execTickProbeReply (k : StraitId) (t2 t3 t4 : Nat) (s : State) : Res :=
  match s.fab.straits[k].probeT1 with
  | some t1 => need ((tickStraits s).contains k) (probeDone k t1 t2 t3 t4 s)
  | none => .fault .noCause

/-- A probe arrives and is answered with its arrival and the reply's departure; a module without a device ID answers none (R280). -/
def execProbe (k : StraitId) (t1 t2 t3 : Nat) (s : State) : Res := need ((tickStraits s).contains k) (if mayOriginate s then (sendFlit k 0 (slotsOf 0) none s).emit [.probeReply k t1 t2 t3] else s)

/-! Missed ticks and succession (R205). -/

def execTickMissed (s : State) : Res :=
  need (s.tick.joined && s.tick.role ≠ 1 && s.tick.heard.isEmpty)
    { s with tick := { s.tick with missed := s.tick.missed + 1, missedRun := s.tick.missedRun + 1, role := 4 } }

/-- A master names the next two candidates that it reaches as its successors (R203). -/
def nameSuccessors (cands : List (Nat × Device)) (s : State) : State :=
  let others := sortKey (fun x : Nat × Device => x.1 * 65536 + x.2.toNat) (cands.filter (fun c => c.2 ≠ s.fab.idInForce && c.1 ≠ 0))
  { s with tick := { s.tick with succ1 := ((others.head?).map (·.2)).getD 0xFFFF, succ2 := (((others.drop 1).head?).map (·.2)).getD 0xFFFF } }

/-- This module becomes master: it goes on with the frame numbers and the period in force, and names its successors. -/
def becomeMaster (cands : List (Nat × Device)) (s : State) : State :=
  let s := nameSuccessors cands s
  { s with tick := { s.tick with role := 1, master := s.fab.idInForce, masterPrio := some s.tick.priority.toNat, missedRun := 0, parent := none, announced := none, nextPeriod := none } }

/-- Whether succession falls on this module after the packets missed so far; after six, on the first candidate that it reaches, itself among them. -/
def succeeds (cands : List (Nat × Device)) (s : State) : Bool :=
  let n := s.tick.missedRun
  let own := s.fab.idInForce
  own ≠ 0xFFFF &&
  ((2 ≤ n && s.tick.succ1 = own) || (4 ≤ n && s.tick.succ2 = own) ||
   (6 ≤ n && s.tick.priority ≠ 0 && cands.all (fun c => c.1 = 0 || c.2 = own || masterBefore s.tick.priority.toNat own c.1 c.2)))

def execTickSuccession (cands : List (Nat × Device)) (s : State) : Res :=
  need (s.tick.joined && s.tick.role ≠ 1 && 2 ≤ s.tick.missedRun) (if succeeds cands s then becomeMaster cands s else s)

/-- Boot step 8 without an announce (R593): a candidate starts as master at frame 1; any other module reaches ACTIVE without having joined. -/
def selfMaster (s : State) : State :=
  if s.tick.priority ≠ 0 then
    let s := becomeMaster [] { s with tick := { s.tick with joined := true, ticks := 0, frame := 1, inForce := s.tick.period, heard := [], forwarded := [] } }
    reachActive s
  else reachActive { s with tick := { s.tick with role := 5 } }

def execTickSelfMaster (s : State) : Res := need (bootReady s && !s.tick.joined) (selfMaster s)

/-! FRAME_PERIOD_US (R201, R202). -/

/-- A write is stored; a master announces it at its next tick. -/
def opFramePeriod (q : Req) (us : BitVec 32) (s : State) : State × Status :=
  guarded s 0x2000 (isOperator s q && 500 ≤ us.toNat && us.toNat ≤ 8000 && us.toNat % 100 = 0)
    ({ s with tick := { s.tick with period := us, announced := if s.tick.role = 1 then some us.toNat else s.tick.announced } }, .done)
def execFramePeriodWrite (q : Req) (us : BitVec 32) (s : State) : Res := software s (answer q (flashed q true s (opFramePeriod q us s)))

/-! The peak guard (R215). -/

/-- The guard throttles: the 100 us average in W is above the peak limit, or the power has been above the continuous limit for 16 ms. -/
def execPeakGuardEngage (avg100us aboveMs : Nat) (s : State) : Res :=
  need (s.pow.mod = .active && !s.gov.throttled && (s.gov.inForce.2.1 < avg100us || 16 ≤ aboveMs)) { s with gov := { s.gov with throttled := true } }

/-- The throttle is lifted: its time, and the clocks that each pass was held, are counted. -/
def releaseGuard (us : Nat) (stalled : List (ArrayId × Nat)) (s : State) : State :=
  let s := { s with gov := { s.gov with throttled := false, throttleUs := s.gov.throttleUs + BitVec.ofNat 32 us } }
  stalled.foldl (fun s x =>
    match (entriesOf s x.1).findIdx? (fun e => e.started && !e.over' && e.pass.isSome && !e.drained) with
    | some e => updEntry x.1 e (fun y => { y with stall := y.stall + x.2 }) s
    | none => s) s

def execPeakGuardRelease (us : Nat) (stalled : List (ArrayId × Nat)) (s : State) : Res := need s.gov.throttled (releaseGuard us stalled s)

/-! Temperatures (R216, R254, R566, R577). -/

/-- The hottest powered logic die; none when no die is powered. -/
def hottest (s : State) : Option Nat :=
  ((List.finRange 5).filterMap (fun d => if s.pow.temps[d] = 0xFF then none else some s.pow.temps[d].toNat)).foldl (fun m t => some (max t (m.getD 0))) none

/-- Send an event to every OPERATOR session and to the TENANT sessions of the partition named; 0xFF for none (R566). -/
def sendEvent (event part : Nat) (s : State) : State :=
  let r := s.dict.notify (isFerry s) event part (frameNow s) 0
  { s with out := s.out ++ r.2, dict := r.1 }

/-- The THERMAL cause stands while the hottest die is at or above THERMAL_HARD_C; its event is sent when it rises. -/
def thermalCause (s : State) : State :=
  let hot : Bool := match hottest s with | some t => decide (s.gov.inForce.2.2.2 ≤ t) | none => false
  let t := { s with dict := { s.dict with thermal := hot } }
  if hot ∧ !s.dict.thermal then sendEvent 2 0xFF t else t

/-- A die's temperature is known: DIE_TEMPS, DIE_HOT_Ax_N and the THERMAL cause. -/
def setTemp (d : DieId) (c : Nat) (s : State) : State :=
  let pow := { s.pow with temps := s.pow.temps.set d (BitVec.ofNat 8 (min c 254)) }
  let pow := if h : d.val < 4 then { pow with hot := pow.hot.set d.val (decide (s.gov.inForce.2.2.1 ≤ c)) } else pow
  thermalCause { s with pow := pow }

/-- A stack's temperature is known: above 85 degrees it refreshes at twice the rate (R254). -/
def setStackTemp (k : StackId) (c : Nat) (s : State) : State :=
  { s with mem := { s.mem with stackTemps := kvSet k c s.mem.stackTemps, doubledRefresh := if 85 < c then (k :: s.mem.doubledRefresh).dedup else s.mem.doubledRefresh.erase k } }

def execDieTemperature (src : TempSource) (c : Nat) (s : State) : Res :=
  match src with
  | .die d => need (s.pow.domains[d] = .up) (setTemp d c s)
  | .stack k => need (s.pow.domains[stackDie k] = .up && !s.mem.stacksFailed.contains k.val) (setStackTemp k c s)

end Sys2Proof.Machine
end

