-- ==== Sys2Proof/Machine/Lighthouse.lean ====
section
/-!
DEFINITION. Machine/Lighthouse.lean: the metering die: energy (R517, R518, R533), occupancy (R519, R520), frame and minute records, the chain and the hour seals (R521 to R527), flash (R529), power (R530), calibration and the seal (R531, R532), and reads (R534, R535, R537).
The requests of R468 that the seal and the life cycle check are read here.
-/

namespace Sys2Proof.Machine

/-! Signed requests (R468, R474). -/

/-- The fields of a transition request or a debug response. -/
structure SignedReq where
  format : Nat
  target : Nat
  reservedZero : Bool
  unit : BitVec 128
  nonce : BitVec 256
  key : Bytes
  sig : Bytes
  head : Bytes
deriving DecidableEq, Repr

def signedReq (b : Bytes) : SignedReq :=
  { format := leNat (slice b 0 4), target := leNat (slice b 4 1), reservedZero := slice b 5 3 = zeros 3, unit := BitVec.ofNat 128 (leNat (slice b 8 16)),
    nonce := BitVec.ofNat 256 (leNat (slice b 24 32)), key := slice b 56 2592, sig := slice b 2648 4627, head := slice b 0 56 }

/-- The signer's key hashes to a digest, and its signature verifies under a context string. -/
def SignedReq.signed (digest : BitVec 512) (ctx : String) (x : SignedReq) : Bool :=
  Config.sha3 x.key = digest && Config.dsaVerify x.key ctx (leBytes 64 (Config.sha3 x.head).toNat) x.sig

/-! The measuring chain (R517, R518, R533). -/

/-- The increment of a sample of `uj` in 125 us: nothing below 5 W, clipped at 5,000 W. -/
def increment (uj : Nat) : Nat := if uj < 625 then 0 else min uj 625000

/-- One sample pair. LH_PULSE follows where the total passes a multiple of 10 J. -/
def sample (uj : Nat) (l : Lighthouse) : Lighthouse × Bool :=
  let e := increment uj
  let total := l.totalUj + e
  let pulse := total / 10000000 ≠ l.totalUj / 10000000
  ({ l with accUj := l.accUj + e, totalUj := total, samples := (e :: l.samples).take 8, peakW := max l.peakW (rheDiv e 125).toNat,
            belowUs := l.belowUs + (if uj < 625 then 125 else 0), overUs := l.overUs + (if 475000 < uj then 125 else 0),
            flags := l.flags ||| (if uj < 625 then 0x20 else 0) ||| (if 475000 < uj then 0x10 else 0), pulses := l.pulses + (if pulse then 1 else 0) }, pulse)

def execAdcSample (uj : Nat) (s : State) : Res :=
  let (l, pulse) := sample uj s.lh
  need s.lh.powered (({ s with lh := l }).emit (if pulse then [.lhPulse] else []))

/-! Minutes, the chain and the seals (R524 to R527, R529). -/

/-- The 576 bytes of a minute record. -/
def minuteBytes (m : MinuteRec) : Bytes :=
  leBytes 2 m.flags ++ leBytes 2 m.peakW ++ leBytes 8 m.seconds ++ leBytes 4 m.gapMs ++ leBytes 4 m.overMs ++ leBytes 4 m.belowMs ++ leBytes 4 m.sealCount ++ leBytes 4 m.records ++
  leBytes 8 m.energyMj ++ leBytes 8 m.lastFrame ++ leBytes 8 m.firstFrame ++ leBytes 8 m.minute ++ (m.counts.take 64).flatMap (fun c => leBytes 8 c)

/-- c_init, and the chain's next value. -/
def chainInit : BitVec 512 := Config.sha3 (asciiBytes "JT480 LIGHTHOUSE CHAIN" ++ leBytes 16 Config.lhUnitId.toNat)
def chainNext (c : BitVec 512) (m : MinuteRec) : BitVec 512 := Config.sha3 (leBytes 64 c.toNat ++ minuteBytes m)

def sumBy {α : Type} (f : α → Nat) (l : List α) : Nat := (l.map f).foldl (· + ·) 0
def maxBy {α : Type} (f : α → Nat) (l : List α) : Nat := (l.map f).foldl max 0

/-- The minute record of the frame records gathered. -/
def minuteOf (l : Lighthouse) (extra : Nat) : MinuteRec :=
  let g := l.gathered
  { minute := l.minute, firstFrame := (g.head?.map (·.frame)).getD (2 ^ 64 - 1), lastFrame := (g.getLast?.map (·.frame)).getD (2 ^ 64 - 1), energyMj := sumBy (·.energyMj) g, records := g.length,
    sealCount := max l.sealCount (maxBy (·.sealCount) g), belowMs := sumBy (·.belowUs) g / 1000, overMs := sumBy (·.overUs) g / 1000, gapMs := sumBy (·.gapUs) g / 1000,
    seconds := l.uptimeUs / 1000000, peakW := maxBy (·.peakW) g,
    flags := g.foldl (fun f r => f ||| r.flags) 0 ||| extra ||| (if l.minuteUs < 60000000 then 0x400 else 0), counts := (List.range 64).map (fun p => sumBy (fun r : FrameRec => r.counts.getD p 0) g) }

/-- Bytes 0 to 183 of a seal. -/
def sealHead (h : HourSeal) : Bytes :=
  leBytes 4 1 ++ zeros 4 ++ leBytes 16 Config.lhUnitId.toNat ++ leBytes 8 h.hour ++ leBytes 8 h.seconds ++ leBytes 8 h.energyMj ++ leBytes 4 h.sealCount ++ leBytes 4 h.flags ++
  leBytes 64 h.chain.toNat ++ leBytes 64 Config.lhFirmwareDigest.toNat
/-- The 4,811 bytes of a seal. -/
def sealBytes (h : HourSeal) : Bytes := sealHead h ++ h.signature

/-- Write the seal of an hour whose last minute has closed; `chain` is the value after it. -/
def writeSeal (hour : Nat) (chain : BitVec 512) (l : Lighthouse) : Lighthouse :=
  let ms := l.minutes.filter (fun m => m.minute / 60 = hour)
  let h : HourSeal := { hour := hour, seconds := (ms.getLast?.map (·.seconds)).getD 0, energyMj := sumBy (·.energyMj) ms, sealCount := maxBy (·.sealCount) ms,
                        flags := ms.foldl (fun f m => f ||| m.flags) 0, chain := chain, signature := [] }
  { l with seals := l.seals ++ [{ h with signature := Config.dsaSign (Config.lhIdentity Config.lhSecret) "JT480 LIGHTHOUSE SEAL" (leBytes 64 (Config.sha3 (sealHead h)).toNat) }],
           sealDue := l.sealDue.filter (fun x => x ≠ hour) }

/-- Hours that flash holds (R529). -/
def flashHours : Nat := 26304 + Config.lhMoreHours

/-- Room for one more minute: a full flash erases its oldest sealed hour as a whole. -/
def makeRoom (l : Lighthouse) : Lighthouse :=
  if l.minutes.length < 60 * flashHours then l
  else match l.seals with
    | h :: r => { l with seals := r, minutes := l.minutes.filter (fun m => m.minute / 60 ≠ h.hour), overwritten := l.overwritten + 1 }
    | [] => l

/-- The open minute closes: its record goes to flash and into the chain, and the next minute opens. `sign`: an hour that ends is sealed now. -/
def closeMinute (extra : Nat) (sign : Bool) (l : Lighthouse) : Lighthouse :=
  let m := minuteOf l extra
  let c := chainNext (l.chain.getD chainInit) m
  let l := makeRoom l
  let l := { l with minutes := l.minutes ++ [m], chain := some c, minute := l.minute + 1, gathered := [], minuteUs := 0, genSeen := Vector.replicate 64 none }
  if m.minute % 60 = 59 then (if sign then writeSeal (m.minute / 60) c l else { l with sealDue := l.sealDue ++ [m.minute / 60] }) else l

/-- 60 s have been counted and a frame record has closed since. -/
def minuteDue (l : Lighthouse) : Bool := 60000000 ≤ l.minuteUs && !l.gathered.isEmpty

/-- The minute closes together with the frame record that found it due. -/
def execMinuteClose (s : State) : Res := need (s.lh.powered && minuteDue s.lh) { s with lh := closeMinute 0 true s.lh }

/-! Frame records (R521 to R523). -/

/-- The open frame record closes with its number, its length and the flags of its case. -/
def closeFrame (frame lengthUs flags : Nat) (l : Lighthouse) : Lighthouse × FrameRec :=
  let l := if minuteDue l then closeMinute 0 true l else l
  let r : FrameRec :=
    { frame := frame, seq := l.seq, minute := l.minute, energyMj := l.accUj / 1000, lengthUs := lengthUs, belowUs := l.belowUs, overUs := l.overUs, gapUs := l.gapUs, peakW := l.peakW,
      sealCount := l.sealCount, flags := l.flags ||| flags ||| (if l.powerOn then 0x80 else 0), counts := l.counts.toList }
  ({ l with accUj := l.accUj % 1000, seq := l.seq + 1, ring := (l.ring ++ [r]).drop (l.ring.length + 1 - 4096), gathered := l.gathered ++ [r], minuteUs := l.minuteUs + lengthUs,
            uptimeUs := l.uptimeUs + lengthUs, belowUs := 0, overUs := 0, gapUs := 0, peakW := 0, flags := if l.calPending.isSome then 0x100 else 0, counts := Vector.replicate 64 0,
            powerOn := false, calibration := l.calPending.getD l.calibration, calPending := none }, r)

/-- The record goes out on the record line, which is then not silent (R537). -/
def emitRecord (r : Lighthouse × FrameRec) (s : State) : State :=
  ({ s with lh := { r.1 with silent := false }, dict := { s.dict with lhAlert := false } }).emit [.recordLine r.2]

/-- An edge of the tick strobe, with the number of the frame that ended (R521). -/
def strobe (frame lengthUs : Nat) (adjusted : Bool) (s : State) : State :=
  if !s.lh.powered then s
  else
    let jump : Bool := s.lh.holdover && (match s.lh.lastFrame with | some n => n + 1 ≠ frame | none => false)
    let (l, r) := closeFrame frame lengthUs ((if adjusted then 4 else 0) ||| (if jump then 8 else 0)) s.lh
    emitRecord ({ l with lastFrame := some frame, holdover := false }, r) s

/-- No edge within the last period plus 100 us. -/
def overdue (lengthUs : Nat) (s : State) : State :=
  let n := (s.lh.lastFrame.getD 0) + 1
  let (l, r) := closeFrame n lengthUs 2 s.lh
  emitRecord ({ l with lastFrame := some n, holdover := true }, r) s

def execStrobeOverdue (lengthUs : Nat) (s : State) : Res := need (s.lh.powered && s.lh.lastFrame.isSome) (overdue lengthUs s)

/-- One second without a tick. -/
def selfTimed (s : State) : State :=
  let (l, r) := closeFrame (2 ^ 64 - 1) 1000000 1 s.lh
  emitRecord ({ l with lastFrame := none, holdover := false }, r) s

def execSelfTimedClose (s : State) : Res := need (s.lh.powered && !s.tick.joined) (selfTimed s)

/-! Occupancy (R519, R520). -/

/-- One entry of a word: an array-microsecond of its partition, or a gap for a reserved holder. -/
def tapEntry (e : Byte) (l : Lighthouse) : Lighthouse :=
  match partOf (e.toNat % 128) with
  | some p => { l with counts := modVec l.counts p (· + 1), genSeen := modVec l.genSeen p (fun _ => some (e.getLsbD 7)) }
  | none => if e.toNat % 128 < 0x7E then { l with gapUs := l.gapUs + 1, flags := l.flags ||| 0x40 } else l

/-- The parity of a partition has changed since it was seen in the open minute. -/
def genChanged (l : Lighthouse) (e : Byte) : Bool :=
  match partOf (e.toNat % 128) with
  | some p => (match l.genSeen[p] with | some g => g ≠ e.getLsbD 7 | none => false)
  | none => false

/-- An occupancy word: skipped sequence numbers are gaps, and a change of parity closes the minute before the open frame record. -/
def tapWord (die : Fin 4) (seq : Byte) (entries : List Byte) (l : Lighthouse) : Lighthouse :=
  let gap := match l.tapSeq[die] with | some k => (seq - k - 1).toNat | none => 0
  let l := { l with gapUs := l.gapUs + gap, flags := if gap = 0 then l.flags else l.flags ||| 0x40, tapSeq := l.tapSeq.set die (some seq) }
  let l := if entries.any (genChanged l) ∧ !l.gathered.isEmpty then closeMinute 0 true l else l
  entries.foldl (fun l e => tapEntry e l) l

def execOccupancyWord (die : Fin 4) (seq : Byte) (entries : List Byte) (s : State) : Res :=
  need (s.lh.powered && s.pow.domains[die.val] = .up && entries.length = 34) { s with lh := tapWord die seq entries s.lh }

/-! Power (R530). -/

/-- The input has fallen below 38 V: the open record closes and the open minute is written with POWER_LOSS; a seal that falls due waits. -/
def lhDown (lengthUs : Nat) (s : State) : State :=
  let frame := match s.lh.lastFrame with | some n => n + 1 | none => 2 ^ 64 - 1
  let (l, r) := closeFrame frame lengthUs (if s.lh.lastFrame.isNone then 1 else 0) s.lh
  let l := closeMinute 0x200 false l
  emitRecord ({ l with powered := false, ring := [], samples := [], tapSeq := Vector.replicate 4 none, lastFrame := none, holdover := false }, r) s

def execLhPowerLoss (lengthUs : Nat) (s : State) : Res := need (s.lh.powered && !s.pow.input) (lhDown lengthUs s)

/-- A fresh nonce; zero when sealed (R534). -/
def freshCal (s : State) : State :=
  if s.lh.sealed then { s with lh := { s.lh with calNonce := 0 } } else { s with lh := { s.lh with calNonce := Config.entropy s.free }, free := s.free + 1 }

def lhUp (s : State) : State :=
  let c := if s.lh.everOn then s.lh.chain.getD chainInit else chainInit
  let l := s.lh.sealDue.foldl (fun l h => writeSeal h c l) { s.lh with chain := some c }
  freshCal { s with lh := { l with powered := true, everOn := true, powerOn := true } }

def execLhPowerOn (s : State) : Res := need (!s.lh.powered && s.pow.input) (lhUp s)

/-! Calibration and the seal (R531, R532). -/

/-- A change is accepted (R531). The order in which its bytes are signed is not stated: unit, nonce, body (log 14). -/
def calOk (l : Lighthouse) (c : Calibration) : Bool :=
  c.lhUnit = Config.lhUnitId && l.calNonce ≠ 0 && c.nonce = l.calNonce && !l.sealed && decide (l.sealCount < 255) && Config.sha3 c.signerKey = Config.lhCalDigest &&
  Config.dsaVerify c.signerKey "JT480 LIGHTHOUSE CALIBRATION" (leBytes 16 c.lhUnit.toNat ++ leBytes 32 c.nonce.toNat ++ c.body) c.sig

/-- An accepted change counts in OTP and stands from the next frame record; either way the nonce is used up. -/
def calibrate (c : Calibration) (s : State) : State :=
  freshCal (if calOk s.lh c then { s with lh := { s.lh with sealCount := s.lh.sealCount + 1, calPending := some c.body } } else s)

def execCalibrationChange (c : Calibration) (s : State) : Res := need s.lh.powered (calibrate c s)

/-- The seal is programmed by a request that meets R532. -/
def sealBy (b : Bytes) (s : State) : State :=
  let x := signedReq b
  if s.lh.powered ∧ x.format = 1 ∧ x.reservedZero ∧ (x.target = 3 ∨ x.target = 4 ∨ x.target = 5) ∧ x.unit = Config.unitId ∧ x.signed Config.lhLifeCycleDigest "JT480 LIFE CYCLE" then
    { s with lh := { s.lh with sealed := true, calNonce := 0 } }
  else s

/-- A request on the request port; one that fails is discarded. -/
def execLhSealRequest (b : Bytes) (s : State) : Res := need (s.lh.powered && s.pow.mgmtUp) (sealBy b s)

/-! Reads (R516, R534, R535, R537). -/

/-- The 320 bytes of a frame record. -/
def frameBytes (r : FrameRec) : Bytes :=
  leBytes 2 r.flags ++ zeros 12 ++ leBytes 4 r.sealCount ++ leBytes 2 r.peakW ++ leBytes 4 r.gapUs ++ leBytes 4 r.overUs ++ leBytes 4 r.belowUs ++ leBytes 4 r.lengthUs ++ leBytes 4 r.energyMj ++
  leBytes 8 r.minute ++ leBytes 8 r.seq ++ leBytes 8 r.frame ++ (r.counts.take 64).flatMap (fun c => leBytes 4 c)

/-- What a read names; none where it is erased or not yet closed. -/
def lhFind (l : Lighthouse) : LhRead → Option Bytes
  | .minute n => (l.minutes.find? (fun m => m.minute = n)).map minuteBytes
  | .seal h off => (l.seals.find? (fun x => x.hour = h)).map (fun x => slice (sealBytes x) off 1024)
  | .certificate off => some (slice Config.lhCertificate off 1024)

/-- A read request is answered on the record line, and changes nothing. A read that names nothing is answered with no bytes. -/
def execLhReadRequest (r : LhRead) (s : State) : Res := need (s.lh.powered && s.pow.mgmtUp) (s.emit [.lhAnswer ((lhFind s.lh r).getD [])])

/-- A write of a query subindex of the mirror, by any role. -/
def opLhQuery (q : Req) (k : LhQueryKind) (v : BitVec 64) (s : State) : State × Status :=
  let fits := match k with | .frame | .minute | .hour => true | .sealOffset | .certOffset => decide (v.toNat < 65536)
  guarded s (match k with | .frame => 0xB003 | .minute => 0xB004 | .hour => 0xB005 | .sealOffset => 0xB005 | .certOffset => 0xB007) fits
    (updPer q (fun p => match k with
      | .frame => { p with frameQuery := v }
      | .minute => { p with minuteQuery := v }
      | .hour => { p with hourQuery := v }
      | .sealOffset => { p with sealOffset := v.setWidth 16 }
      | .certOffset => { p with certOffset := v.setWidth 16 }) s, .done)

def execLhQuery (q : Req) (k : LhQueryKind) (v : BitVec 64) (s : State) : Res := software s (answer q (opLhQuery q k v s))

/-- The record line is silent (R537): NOT_RESPONDING, the alert and its event, and an audit entry, whose SOURCE and STATUS are not stated: a free value picks the one, and a code of R8 for the other (log 3). -/
def lhSilent (s : State) : State :=
  let t : State := { s with lh := { s.lh with silent := true }, dict := { s.dict with lhAlert := true }, free := s.free + 2 }
  let t := t.putVM (t.vm.audit { auditOf 0 .done 0x40 0 0 with source := Config.freeNat s.free % 256, status := (Status.all.getD (Config.freeNat s.free / 256 % 24) .done).code })
  let r := t.dict.notify (isFerry t) 3 0xFF (frameNow t) t.ras.auditCount
  if s.lh.silent then s else { t with out := t.out ++ r.2, dict := r.1 }

def execLighthouseSilent (s : State) : Res := need s.pow.mgmtUp (lhSilent s)

end Sys2Proof.Machine
end

