-- ==== Sys2Proof/Machine/Optim.lean ====
section
/-!
DEFINITION. Machine/Optim.lean: the Bindery's arithmetic and its byte layouts: contributions and folds (R322, R324 to R326), leaves (R329), agreed exponents (R334), the optimizer step (R336, R337), images and chunks (R338), shadows (R341) and step records (R342, R343).
-/

namespace Sys2Proof.Machine

/-! Exact dyadic arithmetic, brought to A48 by narrow48 (R336). -/

/-- The exact sum of two values. -/
def dyAdd : A48 → A48 → A48
  | .val a ea, .val b eb =>
    if a = 0 then .val b eb else if b = 0 then .val a ea
    else let m := min ea eb; .val (a * 2 ^ (ea - m).toNat + b * 2 ^ (eb - m).toNat) m
  | _, _ => .poison
/-- The exact product of two values. -/
def dyMul : A48 → A48 → A48
  | .val a ea, .val b eb => .val (a * b) (ea + eb)
  | _, _ => .poison
def dyNarrow : A48 → A48
  | .val a e => (narrow48 a e).1
  | .poison => .poison
def opAdd (x y : A48) : A48 := dyNarrow (dyAdd x y)
def opMul (x y : A48) : A48 := dyNarrow (dyMul x y)
/-- RECIP by R104 and R105. -/
def opRcp (x : A48) : A48 := (recipRes x).1
/-- x × RSQRT(x), and 0 for 0 (R336). -/
def opSqrt : A48 → A48
  | .val a e => if a ≤ 0 then .zero else opMul (.val a e) (rsqrtOf a e).1
  | .poison => .poison

/-- `q` is the value rounded half to even under an exponent. -/
def atExp (e : Int) : A48 → Int
  | .val a ea => rheShift a (ea - e)
  | .poison => 0

/-- The largest magnitude of an int32 (R322, R326, R334). -/
def max32 : Int := 2 ^ 31 - 1

/-! A contribution (R322). -/

/-- |x| < |y|, exactly. -/
def magLt : A48 → A48 → Bool
  | .val a ea, .val b eb => dyCompare a.natAbs ea b.natAbs eb = .lt
  | _, _ => false

/-- Insert by descending magnitude, after those that are not smaller. -/
def insMag (x : Nat × A48) : List (Nat × A48) → List (Nat × A48)
  | [] => [x]
  | y :: r => if magLt y.2 x.2 then x :: y :: r else y :: insMag x r

/-- The k entries of largest magnitude, ties to the lower index. -/
def topEntries (k : Nat) (l : List (Nat × A48)) : List (Nat × A48) := (l.foldl (fun acc x => insMag x acc) []).take k

/-- The first exponent from `e` on under which every value fits int32. -/
def fitFrom (e : Int) (vs : List A48) : Int :=
  match (List.range 2048).find? (fun d => vs.all (fun v => (atExp (e + d) v).natAbs ≤ max32.natAbs)) with
  | some d => e + d
  | none => e

/-- The 4,096 values of bucket `b` in a buffer of blocks of 64. -/
def bucketVals (b : Nat) (g : List (Nat × Blk)) : List A48 :=
  (List.range 64).flatMap (fun j => let x := (alGet (b * 64 + j) g).getD zeroBlk; (List.range 64).map (fun i => elemVal x i))

/-- Put a bucket's values into a buffer, in BI32 by R27. -/
def putBucket (b : Nat) (vs : List A48) (g : List (Nat × Blk)) : List (Nat × Blk) :=
  (List.range 64).foldl (fun g j => alPut zeroBlk (b * 64 + j) (quantiseTight 6 ((List.range 64).map (fun i => vs.getD (64 * j + i) .zero))).1 g) g

/-- build(b) of R322: the entries under their exponent, and the new residual values. An exponent above 127 is not stated: as in a fold (R326) it stays at 127 and the values are clamped, what they lose going to the residual (log 110). -/
def buildBucket (k : Nat) (e0 : Int) (g r : List A48) : Partial × List A48 :=
  let x := (List.range 4096).map (fun i => dyAdd (g.getD i .zero) (r.getD i .zero))
  let s := topEntries k ((x.zipIdx.map (fun y => (y.2, y.1))).filter (fun y => match y.2 with | .val a _ => a ≠ 0 | .poison => false))
  let e := min 127 (fitFrom e0 (s.map (·.2)))
  let q := (s.map (fun y => (y.1, max (-max32) (min max32 (atExp e y.2))))).filter (fun y => y.2 ≠ 0)
  let ents := q.foldl (fun l y => alSet y.1 y.2 l) []
  ({ ex := some e, ents := ents, rescaled := e ≠ e0 },
   x.zipIdx.map (fun y => match alGet y.2 ents with | some v => dyAdd y.1 (.val (-v) e) | none => y.1))

/-! Folding (R326). -/

/-- Halve every value until all fit; the exponent rises with each halving. -/
def halveFit : Nat → Int → List (Nat × Int) → Int × List (Nat × Int)
  | 0, e, l => (e, l)
  | n + 1, e, l => if l.all (fun y => y.2.natAbs ≤ max32.natAbs) then (e, l) else halveFit n (e + 1) (l.map (fun y => (y.1, rheDiv y.2 2)))

/-- fold(P, Q): the merged partial, whether it was renormalised, and how many values the clamp at exponent 127 concerned. -/
def foldPartial (x y : Partial) : Partial × Bool × Nat :=
  match x.ex, y.ex with
  | some ea, some eb =>
    let e := max ea eb
    let l := y.ents.foldl (fun l v => alSet v.1 ((alGet v.1 l).getD 0 + rheShift v.2 (eb - e)) l) (x.ents.map (fun v => (v.1, rheShift v.2 (ea - e))))
    let (f, l) := halveFit 4 e l
    let l := l.filter (fun v => v.2 ≠ 0)
    let hot := f ≠ e
    ({ ex := some (min f 127), ents := l.map (fun v => (v.1, max (-max32) (min max32 v.2))), rescaled := x.rescaled || y.rescaled || hot }, hot, if 127 < f then l.length else 0)
  | _, _ => ({ ex := none, ents := [], rescaled := x.rescaled || y.rescaled }, false, 0)

/-! Reduction (R328, R329, R334). -/

/-- Add a partial's entries to the owner's accumulator, in order of arrival. -/
def accAdd (b : Nat) (x : Partial) (acc : List (Nat × A48)) : List (Nat × A48) :=
  match x.ex with
  | some e => x.ents.foldl (fun l v => alSet (b * 4096 + v.1) (alignAdd ((alGet (b * 4096 + v.1) l).getD .zero) (.val v.2 e)) l) acc
  | none => acc

/-- The leaves of one element combined over the fixed tree of rank numbers. -/
def leafElem (ranks : Nat) (leaves : List (Nat × Nat × Partial)) (el : Nat) : A48 :=
  (treeFold (fun x y => ((addA48 x.1 y.1).1, 0)) 13 ((List.range ranks).map (fun r =>
    match leaves.find? (fun x => x.1 = r && x.2.1 = el / 4096) with
    | some (_, _, x) => ((match x.ex, alGet (el % 4096) x.ents with | some e, some v => A48.val v e | _, _ => A48.zero), 0)
    | none => (A48.zero, 0)))).1

/-- The reduced sums of a TREE layer step, by element that some leaf holds. -/
def treeSums (ranks : Nat) (leaves : List (Nat × Nat × Partial)) : List (Nat × A48) :=
  ((leaves.flatMap (fun x => x.2.2.ents.map (fun v => x.2.1 * 4096 + v.1))).dedup).foldl (fun l el => alSet el (leafElem ranks leaves el) l) []

/-- The agreed exponents of the next step (R334). -/
def nextExps (buckets headroom : Nat) (acc : List (Nat × A48)) (old : List Int) (any : Bool) : List Int :=
  (List.range buckets).map (fun b =>
    let vs := (acc.filter (fun x => x.1 / 4096 = b && (match x.2 with | .val a _ => decide (a ≠ 0) | .poison => false))).map (·.2)
    if !any || vs.isEmpty then old.getD b 0 else min 127 (needExp 6 vs + headroom))

/-! Quantising whole tensors (R336, R337). -/

/-- Quantise consecutive values by blocks of the format, padded with zero; the record goes from block to block. -/
def quantAll (fmt f : Nat) (vs : List A48) (r : ScaleRec) : List Blk × ScaleRec :=
  let n := if isSB fmt then 1024 else blockLen fmt
  (List.range (ceilDiv vs.length n)).foldl (fun acc i =>
    let q := quantise false fmt f ((List.range n).map (fun j => vs.getD (i * n + j) .zero)) acc.2
    (acc.1 ++ [q.blk], q.record)) ([], r)

/-- Value `i` of consecutive blocks of `n` elements. -/
def blksVal (n : Nat) (l : List Blk) (i : Nat) : A48 := match l[i / n]? with | some b => elemVal b (i % n) | none => .zero

def TensorCfg.size (t : TensorCfg) : Nat := t.rows * t.cols

/-- What an optimizer step needs beside a tensor's state. -/
structure OptIn where
  optimizer : Nat
  n : Nat
  b1 : Nat
  b2 : Nat
  lr : A48
  wd : A48
  c1 : A48
  c2 : A48
  eps : A48
  frame : Nat

def fix16 (v : Nat) : A48 := .val v (-16)

/-- step(i) of R336 over one tensor; `acc` gives the reduced sums by element. -/
def optTensor (o : OptIn) (t : TensorCfg) (acc : Nat → A48) (x : OwnTensor) : OwnTensor :=
  let idx := List.range t.size
  let rn := opRcp (.val o.n 0)
  let g (i : Nat) : A48 := opMul (acc i) rn
  let rec' (k : Nat) : ScaleRec := x.recs.getD k {}
  let keep1 : A48 := .val (65536 - o.b1) (-16)
  let keep2 : A48 := .val (65536 - o.b2) (-16)
  let mNew (i : Nat) : A48 :=
    let old := opMul (fix16 o.b1) (blksVal 32 x.m i)
    if o.optimizer = 0 then opAdd old (opMul keep1 (g i)) else opAdd old (g i)
  let (m, rm) := if o.optimizer ≤ 1 then quantAll 1 o.frame (idx.map mNew) (rec' 1) else (x.m, rec' 1)
  let sNew (i : Nat) : A48 :=
    let old := blksVal 32 x.s i
    opSqrt (opAdd (opMul (fix16 o.b2) (opMul old old)) (opMul keep2 (opMul (g i) (g i))))
  let (sq, rs) := if o.optimizer = 0 then quantAll 7 o.frame (idx.map sNew) (rec' 2) else (x.s, rec' 2)
  let u (i : Nat) : A48 :=
    match o.optimizer with
    | 0 => opMul (opMul o.c1 (blksVal 32 m i)) (opRcp (opAdd (opMul o.c2 (blksVal 32 sq i)) o.eps))
    | 1 => blksVal 32 m i
    | _ => g i
  let wd : A48 := if t.decay = 1 then o.wd else .zero
  let pNew (i : Nat) : A48 :=
    let p := blksVal 64 x.master i
    opAdd p (opMul o.lr (opAdd (u i) (opMul wd p))).neg
  let (ms, rp) := quantAll 6 o.frame (idx.map pNew) (rec' 0)
  { master := ms, m := m, s := sq, recs := [rp, rm, rs, rec' 3] }

/-! Images (R314, R337). -/

/-- Put bytes over a byte string, which keeps its length. -/
def putAt (off : Nat) (x b : Bytes) : Bytes := (b.take off ++ x ++ b.drop (off + x.length)).take b.length

/-- The master values in the order in which the working format's blocks take them: tiles of 32 × 32 for SB; for BI, lines along ROWS (R14, R19). -/
def workVals (t : TensorCfg) (master : List Blk) : List A48 :=
  let at' (r c : Nat) : A48 := if r < t.rows ∧ c < t.cols then blksVal 64 master (r * t.cols + c) else .zero
  if isSB t.workFmt then
    (List.range (ceilDiv t.rows 32)).flatMap (fun tr => (List.range (ceilDiv t.cols 32)).flatMap (fun tc =>
      (List.range 1024).map (fun i => at' (32 * tr + i / 32) (32 * tc + i % 32))))
  else (List.range t.cols).flatMap (fun c => (List.range (roundUp t.rows 32)).map (fun r => at' r c))

/-- Quantise a tensor's working copy and lay it into the image. -/
def workTensor (f : Nat) (t : TensorCfg) (x : OwnTensor) (image : Bytes) : OwnTensor × Bytes :=
  let (bs, r) := quantAll t.workFmt f (workVals t x.master) (x.recs.getD 3 {})
  let image := putAt t.imageElem (bs.flatMap (fun b => packElems t.workFmt b.els)) image
  ({ x with recs := x.recs.set 3 r }, putAt t.imageExp (bs.map (fun b => writeExp b.ex)) image)

/-- The working copies of a layer's tensors, and its image. -/
def workLayer (f bytes : Nat) (ts : List TensorCfg) (xs : List OwnTensor) : List OwnTensor × Bytes :=
  (ts.zip xs).foldl (fun acc y => let r := workTensor f y.1 y.2 acc.2; (acc.1 ++ [r.1], r.2)) ([], zeros bytes)

/-- Master parameters, moments or records are poisoned: nothing is published (R348). -/
def OwnTensor.poisoned (x : OwnTensor) : Bool := (x.master ++ x.m ++ x.s).any (fun b => b.ex.isNone)

/-! Shadows (R341). -/

def pad256 (b : Bytes) : Bytes := b ++ zeros (roundUp b.length 256 - b.length)
/-- Elements and exponents of consecutive blocks, each on a 256-byte boundary. -/
def blksBytes (fmt : Nat) (l : List Blk) : Bytes := pad256 (l.flatMap (fun b => packElems fmt b.els)) ++ pad256 (l.map (fun b => writeExp b.ex))
def blksSize (fmt n : Nat) : Nat := let k := ceilDiv n (blockLen fmt); roundUp (k * blockBytes fmt) 256 + roundUp k 256
def blksFrom (fmt n : Nat) (b : Bytes) : List Blk :=
  let k := ceilDiv n (blockLen fmt)
  let ex := roundUp (k * blockBytes fmt) 256
  (List.range k).map (fun i => { ex := readExp (b.getD (ex + i) 0), els := unpackElems fmt (slice b (i * blockBytes fmt) (blockBytes fmt)) })

/-- The shadow of a layer: tensor by tensor the master, m where the optimizer keeps it, s where it does, and the four records. -/
def shadowBytes (optimizer : Nat) (xs : List OwnTensor) : Bytes :=
  xs.flatMap (fun x => blksBytes 6 x.master ++ (if optimizer ≤ 1 then blksBytes 1 x.m else []) ++ (if optimizer = 0 then blksBytes 7 x.s else []) ++
    (List.range 4).flatMap (fun k => scaleBytes (x.recs.getD k {})))

def tensorShadow (optimizer n : Nat) : Nat := blksSize 6 n + (if optimizer ≤ 1 then blksSize 1 n else 0) + (if optimizer = 0 then blksSize 7 n else 0) + 256
/-- Bytes of a layer's shadow. -/
def shadowSize (optimizer : Nat) (ts : List TensorCfg) : Nat := (ts.map (fun t => tensorShadow optimizer t.size)).foldl (· + ·) 0

def ownTensorFrom (optimizer n : Nat) (b : Bytes) : OwnTensor :=
  let o1 := blksSize 6 n
  let o2 := o1 + (if optimizer ≤ 1 then blksSize 1 n else 0)
  let o3 := o2 + (if optimizer = 0 then blksSize 7 n else 0)
  { master := blksFrom 6 n b, m := if optimizer ≤ 1 then blksFrom 1 n (b.drop o1) else [], s := if optimizer = 0 then blksFrom 7 n (b.drop o2) else [],
    recs := (List.range 4).map (fun k => scaleOf (slice b (o3 + 64 * k) 64)) }

/-- Owner state from a shadow's bytes. -/
def shadowState (optimizer : Nat) : List TensorCfg → Bytes → List OwnTensor
  | [], _ => []
  | t :: r, b => ownTensorFrom optimizer t.size b :: shadowState optimizer r (b.drop (tensorShadow optimizer t.size))

/-! Step records (R342, R343). -/

/-- What a step record says. -/
structure StepRec where
  frame : Nat
  step : Nat
  layer : Nat
  owner : Nat
  contributors : List Nat
  absent : List Nat
  dropped : Nat
  late : Nat
  rescaled : Nat
  mode : Nat
  nextTree : Bool
  skipped : Bool
  status : Status
deriving DecidableEq, Repr

/-- A bitmap of ranks as 512 bytes. -/
def rankBits (l : List Nat) : Bytes := leBytes 512 ((l.dedup.map (fun r => 2 ^ r)).foldl (· + ·) 0)

/-- The 1,088 bytes of a step record. -/
def stepRecBytes (r : StepRec) : Bytes :=
  leBytes 1 r.status.code ++ leBytes 1 ((if r.skipped then 16 else 0) + (if r.nextTree then 32 else 0) + 64 * (r.mode % 4)) ++ zeros 32 ++
  leBytes 4 r.rescaled ++ leBytes 4 r.late ++ leBytes 2 r.dropped ++ leBytes 2 r.absent.length ++ leBytes 2 r.contributors.length ++
  leBytes 2 r.owner ++ leBytes 2 r.layer ++ leBytes 4 r.step ++ leBytes 8 r.frame ++ rankBits r.contributors ++ rankBits r.absent

/-- NEXT_MODE of a step record's bytes. -/
def recTree (b : Bytes) : Bool := (b.getD 1 0).getLsbD 5

/-! Chunks of a version (R338). -/

def imageChunks (imageBytes : Nat) : Nat := ceilDiv imageBytes 1024
def expChunks (buckets : Nat) : Nat := ceilDiv buckets 1024
/-- Chunks of a whole version. -/
def chunkCount (imageBytes buckets : Nat) : Nat := imageChunks imageBytes + expChunks buckets + 2

def expBytes (l : List Int) : Bytes := l.map (fun e => BitVec.ofInt 8 e)

/-- The chunks of a version. -/
def versionChunks (image : Bytes) (exps : List Int) (rec : Bytes) : List (Nat × Bytes) :=
  let ni := imageChunks image.length
  let eb := expBytes exps
  let ne := expChunks eb.length
  (List.range ni).map (fun c => (c, (image.drop (1024 * c)).take 1024)) ++ (List.range ne).map (fun c => (ni + c, (eb.drop (1024 * c)).take 1024)) ++
  [(ni + ne, rec.take 1024), (ni + ne + 1, rec.drop 1024)]

/-- The agreed exponents that a version's chunks carry. -/
def Version.exps (imageBytes buckets : Nat) (x : Version) : List Int :=
  ((List.range (expChunks buckets)).flatMap (fun c => (alGet (imageChunks imageBytes + c) x.chunks).getD [])).take buckets |>.map (fun b => b.toInt)
/-- The step record that a version's chunks carry. -/
def Version.record (imageBytes buckets : Nat) (x : Version) : Bytes :=
  let n := imageChunks imageBytes + expChunks buckets
  (alGet n x.chunks).getD [] ++ slice ((alGet (n + 1) x.chunks).getD []) 0 64

/-! Contribution packets (R324, R325). -/

def pad32 (b : Bytes) : Bytes := b ++ zeros (roundUp b.length 32 - b.length)

/-- The 32-byte chunk header. -/
def contribHeader (kind : Nat) (ex : Byte) (part parts entries source : Nat) (rescaled leaf : Bool) : Bytes :=
  zeros 21 ++ leBytes 1 ((if rescaled then 1 else 0) + (if leaf then 2 else 0)) ++ zeros 2 ++ leBytes 2 source ++ leBytes 2 entries ++ leBytes 1 parts ++ leBytes 1 part ++ [ex] ++ leBytes 1 kind

/-- The payloads that carry a partial: DENSE with more than 2,048 entries, SPARSE otherwise; a partial without an entry, unless it is POISON, takes no packet. -/
def contribPayloads (x : Partial) (leaf : Option Nat) : List Bytes :=
  let n := x.ents.length
  let src := leaf.getD 0xFFFF
  let hdr (kind part parts cnt : Nat) : Bytes := contribHeader kind (writeExp x.ex) part parts cnt src x.rescaled leaf.isSome
  if 2048 < n then
    (List.range 17).map (fun p =>
      let cnt := min 248 (4096 - 248 * p)
      pad32 (hdr 1 p 17 cnt ++ (List.range cnt).flatMap (fun i => leBytes 4 (codeOf 32 ((alGet (248 * p + i) x.ents).getD 0)))))
  else
    let parts := if x.ex.isNone then max 1 (ceilDiv n 124) else ceilDiv n 124
    (List.range parts).map (fun p =>
      let es := (x.ents.drop (124 * p)).take 124
      pad32 (hdr 0 p parts es.length ++ es.flatMap (fun v => leBytes 4 (codeOf 32 v.2) ++ leBytes 4 v.1)))

/-- The payload of a ROLL, of a RECOVER and of an ABSENT notice. -/
def rollPayload (ranks : List Nat) : Bytes := contribHeader 2 0 0 1 0 0xFFFF false false ++ rankBits ranks
def recoverPayload : Bytes := contribHeader 3 0 0 1 0 0xFFFF false false
def absentPayload (whole : Bool) : Bytes := leBytes 1 (if whole then 1 else 0) ++ zeros 31

end Sys2Proof.Machine
end

