-- ==== Sys2Proof/Machine/Params.lean ====
section
/-!
DEFINITION. Machine/Params.lean: ranks, the ring and the broadcast tree (R327, R339, R370); versions published, delivered and resent (R338 to R340); snapshots taken and tipped in (R363 to R365).
-/

namespace Sys2Proof.Machine

/-! Ranks. -/

/-- The local rank. -/
def Session.me (x : Session) : Nat := x.myRank.getD 0xFFFF
def Session.isLive (x : Session) (r : Nat) : Bool := x.elastic.live.contains r
/-- The session runs here: FORMING or RUNNING, with its block. -/
def Session.open' (x : Session) : Bool := (x.state = 1 || x.state = 2) && x.cfg.isSome
def Session.layersOf (x : Session) : Nat := match x.cfg with | some c => c.layers.length | none => 0

/-- Owner of a layer for step `v` (R370, R379). -/
def Session.ownerOf (x : Session) (l v : Nat) : Nat :=
  match x.elastic.handoverMap with
  | some (h, m) => if h ≤ v then m.getD l 0xFFFF else x.elastic.owners.getD l 0xFFFF
  | none => x.elastic.owners.getD l 0xFFFF

/-- The live ranks after `r` in ascending order, wrapping, without `r` itself. -/
def ringAfter (live : List Nat) (r : Nat) : List Nat := live.filter (fun x => r < x) ++ live.filter (fun x => x < r)

/-- The next rank on the ring of a layer's owner (R327): from the rank after the owner round to the owner. -/
def ringNext (live : List Nat) (owner me : Nat) : Nat :=
  match ((ringAfter live owner).dropWhile (fun x => x ≠ me)).drop 1 with | r :: _ => r | [] => owner
/-- The first rank of the ring: the owner itself where it is alone. -/
def ringFirst (live : List Nat) (owner : Nat) : Nat := (ringAfter live owner).headD owner

/-- The ranks that a rank forwards to in the tree listed from a root (R339). -/
def treeKids (live : List Nat) (root me : Nat) : List Nat :=
  let l := root :: ringAfter live root
  match l.findIdx? (fun x => x = me) with
  | some i => (l.drop (2 * i + 1)).take 2
  | none => []
/-- The rank that a rank receives from in that tree. -/
def treeParent (live : List Nat) (root me : Nat) : Option Nat :=
  let l := root :: ringAfter live root
  match l.findIdx? (fun x => x = me) with
  | some i => if i = 0 then none else l[(i - 1) / 2]?
  | none => none

/-- Rank of a device in a session. -/
def rankOfDevice (x : Session) (d : Device) : Option Nat := match x.cfg with | some c => c.ranks.findIdx? (fun r => r.device = d) | none => none
/-- Rank that a packet on a flow comes from. -/
def senderRank (s : State) (x : Session) (flow : Nat) : Option Nat := (getFlow s flow).bind (fun f => rankOfDevice x f.peer)

/-- The session flow to a rank. -/
def rankFlow (s : State) (i rank cls : Nat) : Option Nat :=
  ((getSess s i).bind (·.cfg)).bind (fun c => (c.ranks[rank]?).bind (fun r => findFlow s 0x41 r.device cls (some i)))

/-- The CSF of CONTRIB, PARAM and TIPIN packets (R283). -/
def sessCsf (i layer step chunk : Nat) : Nat := (i % 2 ^ 8 * 2 ^ 16 + layer % 2 ^ 16) * 2 ^ 56 + step % 2 ^ 32 * 2 ^ 24 + chunk % 2 ^ 24

/-- Send a session packet to a rank; without an open flow it is not sent. -/
def sendRank (i rank cls op layer step chunk : Nat) (payload : Bytes) (s : State) : State :=
  match rankFlow s i rank cls with
  | some f => sendPkt f cls op (sessCsf i layer step chunk) (pad32 payload) s
  | none => s

/-! Sizes of a layer. -/

def SessCfg.layer (c : SessCfg) (l : Nat) : LayerCfg := c.layers.getD l { firstTensor := 0, tensorCount := 0, ownerRank := 0, optimizer := 0, imageBytes := 0 }
def SessCfg.imageBytes (c : SessCfg) (l : Nat) : Nat := (c.layer l).imageBytes
def SessCfg.chunks (c : SessCfg) (l : Nat) : Nat := chunkCount (c.imageBytes l) (c.bucketsOf l)
def SessCfg.shadow (c : SessCfg) (l : Nat) : Nat := shadowSize (c.layer l).optimizer (c.tensorsOf l)

/-- The newest version that an owner has published; its layer steps below are closed. -/
def Layer.ownStep (x : Layer) : Option Nat := (x.kept.map (·.version)).foldl (fun m v => some (match m with | some w => max v w | none => v)) none

/-! Placing image chunks (R339, R258). -/

/-- The partition's gathering entry of a session's layer. -/
def gatheringOf (s : State) (p : PartId) (i l : Nat) : Option (Nat × Gathering) :=
  ((s.parts[p].gatherings.zipIdx).find? (fun g => g.1.session = i && g.1.layer = l)).map (fun g => (g.2, g.1))

/-- A fetch of another version still has to read one of the four sectors of a chunk from the same buffer. -/
def chunkWaits (s : State) (p : PartId) (e v c : Nat) : Bool :=
  s.mem.fetches.any (fun f => f.part = p && f.entry = e && f.version ≠ v && f.version % 2 = v % 2 && f.pos < 4 * c + 4)

/-- Write a chunk into a parameter buffer and its replica; done when both writes are. -/
def writeChunk (p : PartId) (g : Gathering) (v c : Nat) (b : Bytes) (s : State) : State × Status :=
  let base := vaOf (if v % 2 = 0 then g.pbuf0 else g.pbuf1)
  let b := b.take (g.bytes - 1024 * c)
  let va := (base + 1024 * c) % 2 ^ 56
  let r := s.vm.writeBytes p va b true
  let s := s.putWrites (r.1.refused p va b.length r.2.2)
  if r.2.2 = .done ∧ g.replica ≠ 0 then
    let va := (base + g.replica.toNat + 1024 * c) % 2 ^ 56
    let r := s.vm.writeBytes p va b true
    (s.putWrites (r.1.refused p va b.length r.2.2), r.2.2)
  else (s, r.2.2)

def Layer.updRecv (v : Nat) (f : Version → Version) (x : Layer) : Layer := { x with recv := x.recv.map (fun r => if r.version = v then f r else r) }

/-- The image of a version is whole in its buffer. -/
def Version.imageDone (x : Version) (imageBytes : Nat) : Bool := (List.range (imageChunks imageBytes)).all (fun c => x.placed.contains c)

/-- A resend that is visible ends HEAL_PENDING (R262). -/
def healed (i l v : Nat) (s : State) : State :=
  match getSess s i with
  | some x =>
    match x.cfg, x.part, (x.layer l).recv.find? (fun r => r.version = v) with
    | some c, some p, some r =>
      match gatheringOf s p i l with
      | some (e, g) =>
        if r.published ∧ g.healPending ∧ g.published = some v ∧ r.imageDone (c.imageBytes l) then s.putWrites (reportGather p e (setGather p e { g with healPending := false } s.vm)) else s
      | none => s
    | _, _, _ => s
  | none => s

/-- Place one image chunk that has come. One that no entry takes is discarded and counted; one whose write fails stays unplaced. -/
def placeChunk (i l v c : Nat) (s : State) : State :=
  match getSess s i with
  | some x =>
    match x.cfg, x.part, (x.layer l).recv.find? (fun r => r.version = v) with
    | some cfg, some p, some r =>
      match alGet c r.chunks, gatheringOf s p i l with
      | some b, some (e, g) =>
        if g.bytes ≠ cfg.imageBytes l then
          let s := s.putVM (reportGather p e (setGather p e { g with lastStatus := 0x61 } s.vm))
          updSession i (fun x => { x with elastic := { x.elastic with imageDropped := x.elastic.imageDropped + 1 } }) s
        else if r.placed.contains c ∨ chunkWaits s p e v c then s
        else
          match writeChunk p g v c b s with
          | (s, .done) => healed i l v (updLayer i l (Layer.updRecv v (fun r => { r with placed := c :: r.placed })) s)
          | (s, st) => s.putVM (s.vm.event p st)
      | some _, none => updSession i (fun x => { x with elastic := { x.elastic with imageDropped := x.elastic.imageDropped + 1 } }) s
      | none, _ => s
    | _, _, _ => s
  | none => s

/-- Chunks of a layer that waited for a fetch are placed where they now may (R258). -/
def placeWaiting (i l : Nat) (s : State) : State :=
  match getSess s i with
  | some x =>
    match x.cfg with
    | some c => (x.layer l).recv.foldl (fun s r => (List.range (imageChunks (c.imageBytes l))).foldl (fun s k =>
        if (alGet k r.chunks).isSome ∧ !r.placed.contains k then placeChunk i l r.version k s else s) s) s
    | none => s
  | none => s

/-- A chunk of a version has come: it is kept, and an image chunk is placed. A version below the one before the newest published is discarded, and so is one that a rollback has abandoned (R369). -/
def takeChunk (i l v c : Nat) (b : Bytes) (s : State) : State :=
  match getSess s i with
  | some x =>
    match x.cfg with
    | some cfg =>
      let old : Bool := (match (x.layer l).newest with | some n => decide (v + 1 < n) | none => false) || (x.elastic.restoreVersion ≠ 0xFFFFFFFF && v < x.elastic.restoreVersion.toNat)
      if cfg.chunks l ≤ c ∨ old then s
      else
        let f := frameNow s
        let s := updLayer i l (fun y =>
          let y := if y.recv.any (fun r => r.version = v) then y else { y with recv := y.recv ++ [{ version := v, chunks := [], firstFrame := f }] }
          y.updRecv v (fun r => { r with chunks := alSet c b r.chunks })) s
        if c < imageChunks (cfg.imageBytes l) then placeChunk i l v c s else s
    | none => s
  | none => s

/-! Publishing (R338, R339). -/

/-- Send a chunk to this rank's children in the tree listed from the layer's owner. -/
def forwardChunk (i l v c : Nat) (b : Bytes) (s : State) : State :=
  match getSess s i with
  | some x => (treeKids x.elastic.live (x.ownerOf l (v - 1)) x.me).foldl (fun s r => sendRank i r 5 0 l v c b s) s
  | none => s

/-- The keepers of a snapshot (R364); which rank has no room, an owner cannot tell, and it takes each to have it (log 20). -/
def keepersOf (live : List Nat) (owner keepers : Nat) : List Nat := (ringAfter live owner).take keepers

/-- Snapshot w is taken where (w - SNAP_BASE) mod SNAPSHOT_PERIOD = 0 (R363). -/
def takeShadow (i l w : Nat) (s : State) : State :=
  updSession i (fun x =>
    match x.cfg with
    | some c =>
      if x.elastic.snapBase ≤ w ∧ (w - x.elastic.snapBase) % max c.snapPeriod 1 = 0 then
        let ks := keepersOf x.elastic.live x.me c.keepers
        let y := x.updLayer l (fun y => { y with shadows := (y.shadows.filter (fun h => h.complete)) ++ [{ step := w, bytes := shadowBytes (c.layer l).optimizer y.tensors, complete := false, keepers := ks }] })
        { y with elastic := { y.elastic with shortfall := y.elastic.shortfall + (c.keepers - ks.length) } }
      else x
    | none => x) s

/-- The two latest complete shadows stay (R363). -/
def trimShadows (l : List Shadow) : List Shadow :=
  let done := (sortKey (fun h : Shadow => h.step) (l.filter (fun h => h.complete)))
  done.drop (done.length - 2) ++ l.filter (fun h => !h.complete)

/-- Tip-ins that follow the chunks of version `v` (R365): chunk c of snapshot w goes after version w + 1 + floor(c T / NC). A shadow is complete with version w + T. -/
def tipIns (i l v : Nat) (s : State) : State :=
  match getSess s i with
  | some x =>
    match x.cfg with
    | some c =>
      let t := c.snapPeriod
      let s := (x.layer l).shadows.foldl (fun s h =>
        if h.complete then s
        else
          let nc := ceilDiv h.bytes.length 1024
          (List.range nc).foldl (fun s k =>
            if h.step + 1 + k * t / max nc 1 = v then h.keepers.foldl (fun s r => if x.isLive r then sendRank i r 6 0 l h.step k ((h.bytes.drop (1024 * k)).take 1024) s else s) s else s) s) s
      updLayer i l (fun y => { y with shadows := trimShadows (y.shadows.map (fun h => if h.step + t ≤ v then { h with complete := true } else h)) }) s
    | none => s
  | none => s

/-- The owner publishes a version: it keeps the chunks of its last two, sends each down the tree, places them for its own rank, takes a snapshot where one is due, and sends the tip-ins that follow. -/
def publish (i l v : Nat) (image : Bytes) (exps : List Int) (rec : Bytes) (s : State) : State :=
  let cs := versionChunks image exps rec
  let s := updLayer i l (fun y => { y with kept := (y.kept.filter (fun r => v ≤ r.version + 1)) ++ [{ version := v, chunks := cs }] }) s
  let s := cs.foldl (fun s c => takeChunk i l v c.1 c.2 (forwardChunk i l v c.1 c.2 s)) s
  tipIns i l v (takeShadow i l v s)

/-! A version becomes visible (R339). -/

/-- The record of a version goes into slot RECORD_COUNT mod RECORD_SLOTS; without a slot, which R342 does not provide for, nothing is written and the version is published all the same (notes/assumptions/111.md). -/
def writeRecord (x : Session) (p : PartId) (b : Bytes) (s : State) : State × Status :=
  if x.recordSlots = 0 ∨ !isVirtual x.recordBase then (s, .done)
  else
    let va := (vaOf x.recordBase + 1088 * (x.recordCount.toNat % x.recordSlots.toNat)) % 2 ^ 56
    let r := s.vm.writeBytes p va b false
    (s.putWrites (r.1.refused p va b.length r.2.2), r.2.2)

/-- What publication leaves in the layer: agreed exponents and mode, contributions of the step before given up, older versions dropped. -/
def Layer.publish (v : Nat) (exps : List Int) (tree : Bool) (x : Layer) : Layer :=
  { (x.updRecv v (fun r => { r with published := true })) with
    newest := some v, agreed := (alSet v (exps, tree) x.agreed).filter (fun a => v ≤ a.1 + 1),
    steps := x.steps.filter (fun w => !(w.closed && decide (w.step < v))),
    recv := (x.recv.map (fun r => if r.version = v then { r with published := true } else r)).filter (fun r => v ≤ r.version + 1) }

/-- Every chunk has come, the image stands in its buffer and is visible, and no later version is published. -/
def mayPublish (s : State) (i l v : Nat) : Bool :=
  match getSess s i with
  | some x =>
    match x.cfg, (x.layer l).recv.find? (fun r => r.version = v) with
    | some c, some r => x.open' && !r.published && decide (l < c.layers.length) && (List.range (c.chunks l)).all (fun k => (alGet k r.chunks).isSome) && r.imageDone (c.imageBytes l) &&
        (match x.part with | some p => outputsVisible s p | none => true) && (match (x.layer l).newest with | some n => decide (n < v) | none => true)
    | _, _ => false
  | none => false

def publishLocal (i l v : Nat) (s : State) : State :=
  match getSess s i with
  | some x =>
    match x.cfg, x.part, (x.layer l).recv.find? (fun r => r.version = v) with
    | some c, some p, some r =>
      let ib := c.imageBytes l
      let nb := c.bucketsOf l
      match writeRecord x p (r.record ib nb) s with
      | (s, .done) =>
        let s := updSession i (fun x => { x.updLayer l (Layer.publish v (r.exps ib nb) (recTree (r.record ib nb))) with recordCount := x.recordCount + 1 }) s
        match gatheringOf s p i l with
        | some (e, g) => s.putVM (reportGather p e (setGather p e { g with published := some v } s.vm))
        | none => s
      | (s, st) => s.putVM (s.vm.event p st)
    | _, _, _ => s
  | none => s

def execVersionPublish (i : SessIx) (l v : Nat) (s : State) : Res := need (hubUp s && mayPublish s i l v) (publishLocal i l v s)

/-! Resends (R340, R262). -/

/-- Bring a version's image afresh: its chunks are written again as they come. -/
def expectResend (i l v : Nat) (s : State) : State := updLayer i l (Layer.updRecv v (fun r => if r.published then { r with placed := [] } else r)) s

/-- The owner's answer: those exact chunks, or the request is discarded. The flag: it was answered. -/
def answerResend (i l v rank : Nat) (s : State) : State × Bool :=
  match getSess s i with
  | some x =>
    match (x.layer l).kept.find? (fun r => r.version = v) with
    | some r => (if rank = x.me then r.chunks.foldl (fun s c => takeChunk i l v c.1 c.2 s) s else r.chunks.foldl (fun s c => sendRank i rank 5 0 l v c.1 c.2 s) s, true)
    | none => (s, false)
  | none => (s, false)

/-- One resend request to the owner of the layer. -/
def requestResend (i l v : Nat) (s : State) : State :=
  match getSess s i with
  | some x =>
    let s := expectResend i l v s
    let o := x.ownerOf l (v - 1)
    if o = x.me then (answerResend i l v o s).1 else sendRank i o 5 1 l v 0 [] s
  | none => s

/-- DEADLINE_FRAMES have passed since the first chunk of a version that is not published here (R340). -/
def resendDue (s : State) (i l v : Nat) : Bool :=
  match getSess s i with
  | some x =>
    match x.cfg, (x.layer l).recv.find? (fun r => r.version = v) with
    | some c, some r => x.open' && !r.published && decide (r.firstFrame + c.deadline ≤ frameNow s)
    | _, _ => false
  | none => false

def execParamResendTimeout (i : SessIx) (l v : Nat) (s : State) : Res := need (hubUp s && resendDue s i l v) (requestResend i l v s)

/-- A PARAM chunk (R338, R339): the first arrival goes on down the tree; the payload without its padding is kept. Chunks naming no layer of the table are not versions. -/
def paramIn (flow : Nat) (m : ChunkMsg) (s : State) : State :=
  match getSess s m.session with
  | some x =>
    match x.cfg with
    | some c =>
      if !x.open' ∨ c.layers.length ≤ m.layer ∨ (senderRank s x flow).isNone then s
      else
        let ib := c.imageBytes m.layer
        let ni := imageChunks ib
        let n := if m.chunk < ni then min 1024 (ib - 1024 * m.chunk) else if m.chunk < ni + expChunks (c.bucketsOf m.layer) then min 1024 (c.bucketsOf m.layer - 1024 * (m.chunk - ni)) else if m.chunk + 1 = c.chunks m.layer then 64 else 1024
        let b := m.payload.take n
        let had := ((x.layer m.layer).recv.find? (fun r => r.version = m.step)).any (fun r => (alGet m.chunk r.chunks).isSome)
        let s := if had then s else forwardChunk m.session m.layer m.step m.chunk b s
        takeChunk m.session m.layer m.step m.chunk b s
    | none => s
  | none => s

def execParamData (p : Pkt) (m : ChunkMsg) (s : State) : Res :=
  onStrait p s (recvPkt p 5 0 (roundUp m.payload.length 32) (m.payload.length ≤ 1024) (paramIn p.flow m) s)

end Sys2Proof.Machine
end

