-- ==== Sys2Proof/Machine/Contrib.lean ====
section
/-!
DEFINITION. Machine/Contrib.lean: contributions closed, withheld, folded and rolled (R321 to R327, R345 to R347), the owner's reduction, deadline and recovery (R328 to R335, R350), and the close of a layer step with its new version (R334 to R338, R342, R343).
-/

namespace Sys2Proof.Machine

/-! Sending. -/

/-- Send a partial or a leaf of a bucket to a rank. -/
def sendContrib (i rank l v b : Nat) (x : Partial) (leaf : Option Nat) (s : State) : State :=
  (contribPayloads x leaf).foldl (fun s q => sendRank i rank 4 0 l v b q s) s

/-- Send a partial on to the next rank of the ring. -/
def forwardPartial (i l v b : Nat) (y : Partial) (s : State) : State :=
  match getSess s i with
  | some x => sendContrib i (ringNext x.elastic.live (x.ownerOf l v) x.me) l v b y none s
  | none => s

/-! The owner's reduction (R328, R329, R332). -/

/-- NEXT_MODE of the version that the step was computed with: TREE. -/
def ownTree (x : Session) (l v : Nat) : Bool :=
  match x.cfg, (x.layer l).kept.find? (fun r => r.version = v) with
  | some c, some r => recTree (r.record (c.imageBytes l) (c.bucketsOf l))
  | _, _ => true

/-- Change the reduction of a step; the first item for it starts it and its deadline. -/
def modRed (i l v : Nat) (f : Reduction → Reduction) (s : State) : State :=
  updSession i (fun x =>
    let fresh : Reduction := { step := v, tree := ownTree x l v, deadline := frameNow s + (match x.cfg with | some c => c.deadline | none => 0) }
    x.updLayer l (fun y =>
      let rs := if y.reduction.any (fun r => r.step = v) then y.reduction else y.reduction ++ [fresh]
      { y with reduction := rs.map (fun r => if r.step = v then f r else r) })) s

def redOf (x : Session) (l v : Nat) : Option Reduction := (x.layer l).reduction.find? (fun r => r.step = v)

/-- Where a step stands at this rank as owner: open, closed, or not this rank's yet. -/
inductive OwnAt where
  | current | late | other
deriving DecidableEq, Repr

def ownAt (x : Session) (l v : Nat) : OwnAt :=
  match (x.layer l).ownStep with
  | some w => if v = w then .current else if v < w then .late else .other
  | none => match x.elastic.handoverMap with | some (h, _) => if v = h then .current else .other | none => .other

/-- An arrival for a closed layer step is discarded and counted (R332). -/
def countLate (i l : Nat) (s : State) : State := updSession i (fun x => (x.updLayer l (fun y => { y with late := y.late + 1 })).count 4 1) s

/-- A leaf at the owner; one with EXP POISON excludes its rank alone (R333). -/
def Reduction.leaf (r b : Nat) (y : Partial) (whole : Bool) (x : Reduction) : Reduction :=
  if y.ex.isNone then { x with leaves := x.leaves.filter (fun q => q.1 ≠ r), dropped := (r :: x.dropped).dedup, given := (r :: x.given).dedup }
  else if x.dropped.contains r then x
  else { x with leaves := x.leaves.filter (fun q => !(q.1 = r && q.2.1 = b)) ++ [(r, b, y)], rescaled := if y.rescaled then (b :: x.rescaled).dedup else x.rescaled,
                given := if whole then (r :: x.given).dedup else x.given }

/-- A partial at the owner in RING mode (R328). -/
def Reduction.partial' (b : Nat) (y : Partial) (x : Reduction) : Reduction :=
  { x with acc := accAdd b y x.acc, rescaled := if y.rescaled then (b :: x.rescaled).dedup else x.rescaled }

/-! The close of a layer step (R334 to R343). -/

/-- The image that a kept version carries. -/
def Version.image (imageBytes : Nat) (x : Version) : Bytes := (List.range (imageChunks imageBytes)).flatMap (fun c => (alGet c x.chunks).getD [])

/-- The constants of R336 for step `v`. -/
def optIn (x : Session) (c : SessCfg) (l v n frame : Nat) : OptIn :=
  let (c1, c2, mult) := c.steps.getD (min (v - c.baseStep) (c.steps.length - 1)) (0, 0, 0)
  let lr := if c.cls = 2 then c.lr else x.lrForce.toNat
  let wd := if c.cls = 2 then c.wd else x.wdForce.toNat
  { optimizer := (c.layer l).optimizer, n := n, b1 := c.b1, b2 := c.b2, lr := .val (lr * mult) (-(31 + (c.lrExp : Int))), wd := fix16 wd, c1 := fix16 c1, c2 := fix16 c2,
    eps := .val c.epsEl c.epsEx, frame := frame }

/-- The optimizer step over a layer's tensors. -/
def optLayer (o : OptIn) (ts : List TensorCfg) (acc : List (Nat × A48)) (xs : List OwnTensor) : List OwnTensor :=
  ((ts.zip xs).zipIdx).map (fun y => optTensor o y.1.1 (fun i => (alGet (bucketBase ts y.2 * 4096 + i) acc).getD .zero) y.1.2)

/-- Distinct partitions that contributors come from (R335). -/
def distinctOwners (c : SessCfg) (counted : List Nat) : Nat := ((counted.filterMap (fun r => c.ranks[r]?)).map (fun r => (r.device, r.part))).dedup.length

/-- Ranks counted in a reduction, in ascending order. -/
def Reduction.contributors (x : Reduction) : List Nat :=
  sortKey id (((if x.tree ∨ x.recovering then x.given.filter (fun r => !x.dropped.contains r && !x.absent.contains r) else x.counted)).dedup)

/-- STATUS of a step record (R343). -/
def stepStatus (lost : Bool) (dropped : Nat) (skipped : Bool) (rescaled : Nat) : Status :=
  Status.choose ((if lost then [.peerFailed] else []) ++ (if dropped ≠ 0 ∨ skipped then [.contribDropped] else []) ++ (if rescaled ≠ 0 then [.rescaled] else []))

/-- The departing owner sends a layer's state of version h, its complete shadows and the one being tipped to the new owner (R379). -/
def handOver (i l h dst : Nat) (s : State) : State :=
  match getSess s i with
  | some x =>
    match x.cfg with
    | some c =>
      let y := x.layer l
      let all := (h, shadowBytes (c.layer l).optimizer y.tensors) :: y.shadows.map (fun d => (d.step, d.bytes))
      all.foldl (fun s d => (List.range (ceilDiv d.2.length 1024)).foldl (fun s k => sendRank i dst 6 0 l d.1 k ((d.2.drop (1024 * k)).take 1024) s) s) s
    | none => s
  | none => s

/-- The layer step closes: the sum, the divisor, the optimizer step or its skip, the new agreed exponents, the record, and version v + 1. -/
def closeStep (i l v : Nat) (s : State) : State :=
  match getSess s i with
  | none => s
  | some x =>
    match x.cfg, redOf x l v, (x.layer l).kept.find? (fun r => r.version = v) with
    | some c, some r, some old =>
      let ts := c.tensorsOf l
      let y := x.layer l
      let ib := c.imageBytes l
      let nb := c.bucketsOf l
      let counted := r.contributors
      let acc := if r.tree ∨ r.recovering then treeSums c.ranks.length (r.leaves.filter (fun q => counted.contains q.1)) else r.acc
      let n := counted.length
      let skipped : Bool := n = 0 || (c.cls = 2 && decide (distinctOwners c counted < c.minOwners))
      let xs := if skipped then y.tensors else optLayer (optIn x c l v n (frameNow s)) ts acc y.tensors
      let w := if skipped then (xs, old.image ib) else workLayer (frameNow s) ib ts xs
      let exps := nextExps nb c.headroom acc (old.exps ib nb) (n ≠ 0)
      let nextTree := x.reduceMode = 1 || (match x.elastic.handoverMap with | some (h, _) => v + 1 = h | none => false)
      let lost := y.departed.any (fun d => !counted.contains d)
      let rec' : StepRec :=
      { frame := frameNow s, step := v, layer := l, owner := x.me, contributors := counted, absent := x.elastic.live.filter (fun d => !counted.contains d),
        dropped := r.dropped.length, late := y.late, rescaled := r.rescaled.length, mode := if r.recovering then 2 else if r.tree then 1 else 0, nextTree := nextTree, skipped := skipped,
        status := stepStatus lost r.dropped.length skipped r.rescaled.length }
      let s := updLayer i l (fun y => { y with tensors := w.1, reduction := y.reduction.filter (fun q => q.step ≠ v), late := 0, departed := [] }) s
      if w.1.any OwnTensor.poisoned then s
      else
        let s := publish i l (v + 1) w.2 exps (stepRecBytes rec') s
        match x.elastic.handoverMap, x.elastic.handing with
        | some (h, m), some (who, _) => if v + 1 = h ∧ who = x.me then handOver i l h (m.getD l 0xFFFF) s else s
        | _, _ => s
    | _, _, _ => s

/-- The step is whole (R328, R329): in RING mode the roll and the owner's own close; otherwise a leaf or a notice of every live rank. -/
def mayClose (x : Session) (r : Reduction) : Bool :=
  if r.tree ∨ r.recovering then x.elastic.live.all (fun k => r.given.contains k || r.absent.contains k) else r.rollDone && r.selfDone

def tryClose (i l v : Nat) (s : State) : State :=
  match getSess s i with
  | some x => match redOf x l v with | some r => if (x.layer l).ownStep = some v ∧ mayClose x r then closeStep i l v s else s | none => s
  | none => s

/-! Recovery (R333). -/

/-- What this rank answers as owner of the step in its own recovery: its retained contribution, its absence, or nothing yet. -/
def ownAnswer (x : Session) (l v : Nat) (r : Reduction) : Reduction :=
  match (x.layer l).step v with
  | some w =>
    if w.withheld then { r with absent := (x.me :: r.absent).dedup }
    else if w.closed then { (w.contrib.foldl (fun r q => r.leaf x.me q.1 q.2.1 true) r) with given := (x.me :: r.given).dedup } else r
  | none => r

/-- The owner discards its accumulation, sends RECOVER to every live rank, and treats the step as TREE with a fresh deadline. -/
def startRecovery (i l v : Nat) (s : State) : State :=
  match getSess s i with
  | some x =>
    let d := frameNow s + (match x.cfg with | some c => c.deadline | none => 0)
    let s := modRed i l v (fun r => ownAnswer x l v { r with recovering := true, acc := [], leaves := [], counted := [], given := [], absent := [], dropped := [], rescaled := [], rollDone := false, deadline := d }) s
    let s := updSession i (fun x => (x.count 5 1).updLayer l (Layer.updStep v (fun w => { w with recovered := true, held := [], roll := none }))) s
    let s := (x.elastic.live.filter (fun r => r ≠ x.me)).foldl (fun s r => sendRank i r 4 0 l v 0xFFFFFF recoverPayload s) s
    tryClose i l v s
  | none => s

/-- The deadline of the layer step has come (R332). -/
def deadlineDue (s : State) (i l v : Nat) : Bool :=
  match getSess s i with
  | some x => (match redOf x l v with | some r => x.open' && (x.layer l).ownStep = some v && decide (r.deadline ≤ frameNow s) | none => false)
  | none => false

def deadlineFalls (i l v : Nat) (s : State) : State :=
  match getSess s i with
  | some x => match redOf x l v with | some r => if r.tree ∨ r.recovering then closeStep i l v s else startRecovery i l v s | none => s
  | none => s

def execOwnerDeadline (i : SessIx) (l v : Nat) (s : State) : Res := need (hubUp s && deadlineDue s i l v) (deadlineFalls i l v s)

/-! A rank's own close (R321 to R323, R327). -/

/-- The work on a step, opened where there is none. -/
def openWork (i l v : Nat) (s : State) : State :=
  updLayer i l (fun y => if y.steps.any (fun w => w.step = v) then y else { y with steps := y.steps ++ [{ step := v }] }) s

def workOf (s : State) (i l v : Nat) : Option StepWork := (getSess s i).bind (fun x => (x.layer l).step v)
def updWork (i l v : Nat) (f : StepWork → StepWork) (s : State) : State := updLayer i l (Layer.updStep v f) s

/-- Own contributions of a step go out alone, as partials or as leaves, and are marked as sent. -/
def sendOwn (i l v dst : Nat) (leaf : Option Nat) (all : Bool) (s : State) : State :=
  match workOf s i l v with
  | some w =>
    let out := w.contrib.filter (fun q => all || !q.2.2)
    let s := out.foldl (fun s q => sendContrib i dst l v q.1 q.2.1 leaf s) s
    updSession i (fun x => (x.updLayer l (Layer.updStep v (fun w => { w with contrib := w.contrib.map (fun q => (q.1, q.2.1, true)) }))).count 1 out.length) s
  | none => s

/-- The roll at a rank that has closed or withheld (R327, 5): held contributions go out, its bit is set unless it withheld, and the roll goes on. -/
def passRoll (i l v : Nat) (ranks : List Nat) (s : State) : State :=
  match getSess s i with
  | some x =>
    let dst := ringNext x.elastic.live (x.ownerOf l v) x.me
    let s := sendOwn i l v dst none false s
    let withheld := match workOf s i l v with | some w => w.withheld | none => true
    let ranks := if withheld then ranks else (x.me :: ranks).dedup
    updWork i l v (fun w => { w with roll := none }) (sendRank i dst 4 0 l v 0xFFFFFF (rollPayload ranks) s)
  | none => s

/-- Count the renormalisations and clamps of a fold, or of a build. -/
def countFold (folds hot clamps : Nat) (x : Session) : Session := { (x.count 2 folds).count 3 hot with clamps := x.clamps + clamps }

/-- Own contribution to a bucket that is not sent yet. -/
def unsent (w : StepWork) (b : Nat) : Option Partial := (w.contrib.find? (fun q => q.1 = b && !q.2.2)).map (·.2.1)

/-- Fold an arrived partial with the own unsent contribution and forward the result (R327, 1). -/
def foldOn (i l v b : Nat) (y own : Partial) (s : State) : State :=
  let (z, hot, n) := foldPartial y own
  let s := updSession i (fun x => ((countFold 1 (if hot then 1 else 0) n x).updLayer l (Layer.updStep v (fun w =>
    { w with contrib := w.contrib.map (fun q => if q.1 = b then (q.1, q.2.1, true) else q) }))).count 1 1) s
  forwardPartial i l v b z s

/-- Partials that waited for the fold window go on when the rank closes. -/
def releaseHeld (i l v : Nat) (s : State) : State :=
  match workOf s i l v with
  | some w =>
    let s := updWork i l v (fun w => { w with held := [] }) s
    w.held.foldl (fun s h =>
      match (workOf s i l v).bind (fun w => unsent w h.1) with
      | some own => foldOn i l v h.1 h.2 own s
      | none => forwardPartial i l v h.1 h.2 s) s
  | none => s

/-- After the close: leaves to the owner in TREE mode or in a recovery; in RING mode held partials, and the roll where it is here or starts here. -/
def afterClose (i l v : Nat) (s : State) : State :=
  match getSess s i, workOf s i l v with
  | some x, some w =>
    let o := x.ownerOf l v
    if o = x.me then
      let alone := ringFirst x.elastic.live o = x.me
      let s := modRed i l v (fun r =>
        let r := if r.tree ∨ r.recovering then
            (if w.withheld then { r with absent := (x.me :: r.absent).dedup }
             else { (w.contrib.foldl (fun r q => r.leaf x.me q.1 q.2.1 true) r) with given := (x.me :: r.given).dedup })
          else
            (if w.withheld then r else { (w.contrib.foldl (fun r q => r.partial' q.1 q.2.1) r) with counted := (x.me :: r.counted).dedup })
        { r with selfDone := true, rollDone := r.rollDone || alone }) s
      tryClose i l v (updWork i l v (fun w => { w with contrib := w.contrib.map (fun q => (q.1, q.2.1, true)) }) s)
    else if (x.layer l).tree v ∨ w.recovered then (if w.withheld then s else sendOwn i l v o (some x.me) false s)
    else
      let s := releaseHeld i l v s
      match w.roll with
      | some ranks => passRoll i l v ranks s
      | none => if ringFirst x.elastic.live o = x.me then passRoll i l v [] s else s
  | _, _ => s

/-- The rank withholds a layer: a notice to the owner, G discarded, the residual unchanged. -/
def withholdLayer (i l v : Nat) (s : State) : State :=
  match getSess s i with
  | some x =>
    let s := updLayer i l (fun y => { y.updStep v (fun w => { w with closed := true, withheld := true, g := [], waiting := [] }) with closed := (v :: y.closed).dedup }) (openWork i l v s)
    let o := x.ownerOf l v
    afterClose i l v (if o = x.me then s else sendRank i o 4 1 l v 0 (absentPayload false) s)
  | none => s

/-- A residual block delivered poisoned is rewritten as zero (R349). -/
def mendResidual (g : List (Nat × Blk)) : List (Nat × Blk) := g.filter (fun b => b.2.ex.isSome)

/-- The contribution of every bucket, and the residual after it (R322). -/
def buildLayer (i l v : Nat) (s : State) : State :=
  match getSess s i with
  | some x =>
    match x.cfg with
    | none => s
    | some c =>
      let y := x.layer l
      let g := match y.step v with | some w => (addWaiting w).g | none => []
      let exps := match alGet v y.agreed with | some a => a.1 | none => []
      let r := (List.range (c.bucketsOf l)).foldl (fun (acc : List (Nat × Partial × Bool) × List (Nat × Blk)) b =>
        let q := buildBucket x.topk.toNat (exps.getD b 0) (bucketVals b g) (bucketVals b acc.2)
        (if q.1.ents.isEmpty then acc.1 else acc.1 ++ [(b, q.1, false)], putBucket b q.2 acc.2)) ([], y.residual)
      let hot := (r.1.filter (fun q => q.2.1.rescaled)).length
      let s := updSession i (fun x => (x.updLayer l (fun y => { y.updStep v (fun w => { w with closed := true, g := [], waiting := [], contrib := r.1 }) with
        residual := r.2, closed := (v :: y.closed).dedup })).count 3 hot) (openWork i l v s)
      afterClose i l v s
  | none => s

/-- A block of G that the close reads is poisoned, or a block of the residual. -/
def closePoison (y : Layer) (v : Nat) : Bool × Bool :=
  ((match y.step v with | some w => (addWaiting w).g.any (fun b => b.2.ex.isNone) | none => false), y.residual.any (fun b => b.2.ex.isNone))

/-- CLOSE_LAYER on a step that is open: withheld where it must be, built otherwise. A poisoned row withholds every layer that is closed later in the step too (R321), a poisoned residual this one (R349). -/
def closeRank (i l v : Nat) (s : State) : State :=
  match getSess s i with
  | some x =>
    let (pg, pr) := closePoison (x.layer l) v
    if x.withholding.contains v then withholdLayer i l v s
    else if pg then withholdLayer i l v (updSession i (fun x => { x with withholding := v :: x.withholding }) s)
    else if pr then withholdLayer i l v (updLayer i l (fun y => { y with residual := mendResidual y.residual }) s)
    else buildLayer i l v s
  | none => s

/-- The session object's roles (R316): OPERATOR, and the TENANT of the local rank's partition; before there is one, any TENANT. -/
def sessMay (s : State) (q : Req) (i : Nat) : Bool :=
  isOperator s q ||
  (match (getSess s i).bind (·.part) with
   | some p => isTenant s q p
   | none => roleOf s q = .tenant && (match findSess s q with | some x => x.bound | none => false))

/-- A step of a layer that this rank may close: its version is published here, and it is not closed yet. -/
def closable (x : Session) (l v : Nat) : Bool :=
  x.open' && decide (l < x.layersOf) && (alGet v (x.layer l).agreed).isSome && !(x.layer l).closed.contains v

/-- A write of CLOSE_LAYER (R316, R321). -/
def opCloseLayer (q : Req) (i : Nat) (w : BitVec 64) (s : State) : State × Status :=
  let l := w.toNat % 2 ^ 16
  let v := w.toNat / 2 ^ 16
  guarded s (0x7001 + i) (i < 255 && sessMay s q i && w.toNat < 2 ^ 48 && (match getSess s i with | some x => closable x l v | none => false)) (closeRank i l v s, .done)
def execCloseLayer (q : Req) (i : SessIx) (w : BitVec 64) (s : State) : Res := software s (answer q (opCloseLayer q i w s))

/-- Layers of step `v` that this rank has not closed. -/
def unclosed (x : Session) (v : Nat) : List Nat := (List.range x.layersOf).filter (fun l => !(x.layer l).closed.contains v)

/-- WITHHOLD: a layer and every layer closed after it, or every layer of the step not yet sent (R321). -/
def withhold (i l v : Nat) (s : State) : State :=
  match getSess s i with
  | some x =>
    let s := updSession i (fun x => { x with withholding := (v :: x.withholding).dedup }) s
    (if l = 0xFFFF then unclosed x v else [l]).foldl (fun s l => withholdLayer i l v s) s
  | none => s

def opWithhold (q : Req) (i : Nat) (w : BitVec 64) (s : State) : State × Status :=
  let l := w.toNat % 2 ^ 16
  let v := w.toNat / 2 ^ 16
  guarded s (0x7001 + i) (i < 255 && sessMay s q i && w.toNat < 2 ^ 48 &&
    (match getSess s i with | some x => x.open' && (l = 0xFFFF || (unclosed x v).contains l) | none => false)) (withhold i l v s, .done)
def execWithhold (q : Req) (i : SessIx) (w : BitVec 64) (s : State) : Res := software s (answer q (opWithhold q i w s))

/-! Partials at a rank (R327, R347). -/

/-- What has come of a bucket with this packet: the whole partial once its last part is here (R324, R325). Flows deliver in order. -/
def assemble (flow : Nat) (m : ContribMsg) (y : Layer) : Layer × Option Partial :=
  let key (k : Nat × Nat × Nat × Nat × Partial) : Bool := k.1 = flow && k.2.1 = m.step && k.2.2.1 = m.chunk
  let mine := y.parts.find? key
  let rest := y.parts.filter (fun k => !key k)
  let ex := readExp m.exp
  let ents := m.entries.filter (fun e => e.2 ≠ 0 && e.1 < 4096)
  let next : Option Partial :=
    if m.part = 0 then some { ex := ex, ents := ents.foldl (fun l e => alSet e.1 e.2 l) [], rescaled := m.rescaled }
    else match mine with
      | some (_, _, _, n, x) => if n = m.part then some { x with ents := ents.foldl (fun l e => alSet e.1 e.2 l) x.ents, rescaled := x.rescaled || m.rescaled } else none
      | none => none
  match next with
  | some x => if m.part + 1 < m.parts then ({ y with parts := rest ++ [(flow, m.step, m.chunk, m.part + 1, x)] }, none) else ({ y with parts := rest }, some x)
  | none => ({ y with parts := rest }, none)

/-- The rank has closed or withheld the step. -/
def Layer.closedAt (y : Layer) (v : Nat) : Bool := (match y.step v with | some w => w.closed | none => false) || y.closed.contains v

/-- A partial on the ring at a rank that is not the owner. -/
def partialIn (i l v b : Nat) (y : Partial) (s : State) : State :=
  match getSess s i with
  | some x =>
    let lay := x.layer l
    let w := lay.step v
    if (w.map (·.recovered)).getD false then s
    else if y.ex.isNone then forwardPartial i l v b y s
    else match w.bind (fun w => unsent w b) with
      | some own => foldOn i l v b y own s
      | none =>
        if lay.closedAt v ∨ (w.map (fun w => w.held.any (fun h => h.1 = b))).getD false then forwardPartial i l v b y s
        else updWork i l v (fun w => { w with held := w.held ++ [(b, y)] }) (openWork i l v s)
  | none => s

/-- FOLD_WINDOW_US has passed (R327, 2): the waiting partial goes on unchanged. -/
def windowDue (s : State) (i l v b : Nat) : Bool := match workOf s i l v with | some w => !w.closed && w.held.any (fun h => h.1 = b) | none => false

def windowFalls (i l v b : Nat) (s : State) : State :=
  match (workOf s i l v).bind (fun w => w.held.find? (fun h => h.1 = b)) with
  | some h => forwardPartial i l v b h.2 (updWork i l v (fun w => { w with held := w.held.filter (fun k => k.1 ≠ b) }) s)
  | none => s

def execFoldWindowExpire (i : SessIx) (l v b : Nat) (s : State) : Res := need (hubUp s && windowDue s i l v b) (windowFalls i l v b s)

/-! Arrivals (R327 to R333, R385). -/

/-- A whole leaf or partial at the owner. A rank's leaf is whole when each of its buckets is here; where fewer are, whether more come is not stated, and is a free value (log 21). -/
def ownerTakes (i l v b rank : Nat) (leaf : Bool) (y : Partial) (s : State) : State :=
  match getSess s i with
  | some x =>
    let r := redOf x l v
    let tree := match r with | some r => r.tree || r.recovering | none => ownTree x l v
    if leaf then
      if !tree then s
      else
        let nb := match x.cfg with | some c => c.bucketsOf l | none => 0
        let have' := ((match r with | some r => (r.leaves.filter (fun q => q.1 = rank)).map (·.2.1) | none => []) ++ [b]).dedup.length
        let whole := nb ≤ have' || Config.freeNat s.free % 2 = 1
        tryClose i l v (modRed i l v (Reduction.leaf rank b y whole) { s with free := s.free + 1 })
    else if tree then s
    else if y.ex.isNone then startRecovery i l v (modRed i l v id s)
    else modRed i l v (Reduction.partial' b y) s
  | none => s

/-- A CONTRIB data packet. -/
def contribIn (flow : Nat) (m : ContribMsg) (s : State) : State :=
  match getSess s m.session with
  | some x =>
    match senderRank s x flow with
    | some rank =>
      if !x.open' ∨ x.layersOf ≤ m.layer then s
      else if x.ownerOf m.layer m.step = x.me ∧ (!x.isLive rank ∨ ownAt x m.layer m.step = .late) then countLate m.session m.layer s
      else
        let (y, got) := assemble flow m (x.layer m.layer)
        let s := updLayer m.session m.layer (fun _ => y) s
        match got with
        | none => s
        | some z =>
          if x.ownerOf m.layer m.step = x.me then
            (if ownAt x m.layer m.step = .current then ownerTakes m.session m.layer m.step m.chunk (if m.leaf then m.source else rank) m.leaf z s else s)
          else partialIn m.session m.layer m.step m.chunk z s
    | none => s
  | none => s

def execContribData (p : Pkt) (m : ContribMsg) (s : State) : Res :=
  onStrait p s (recvPkt p 4 0 (roundUp (32 + (if m.dense then 4 else 8) * m.entries.length) 32) (m.reservedZero && m.part < m.parts && m.entries.length ≤ (if m.dense then 248 else 124)) (contribIn p.flow m) s)

/-- A roll (R327, 5): held until the rank has closed or withheld the layer; at the owner its bits are the ranks counted. -/
def rollIn (flow i l v : Nat) (ranks : List Nat) (s : State) : State :=
  match getSess s i with
  | some x =>
    match senderRank s x flow with
    | some rank =>
      if !x.open' ∨ x.layersOf ≤ l then s
      else if x.ownerOf l v = x.me then
        if !x.isLive rank ∨ ownAt x l v = .late then countLate i l s
        else if ownAt x l v ≠ .current then s
        else
          let tree := match redOf x l v with | some r => r.tree || r.recovering | none => ownTree x l v
          if tree then s else tryClose i l v (modRed i l v (fun r => { r with rollDone := true, counted := (r.counted ++ ranks).dedup }) s)
      else
        let w := (x.layer l).step v
        if (w.map (·.recovered)).getD false then s
        else if (x.layer l).closedAt v then passRoll i l v ranks s
        else updWork i l v (fun w => { w with roll := some ranks }) (openWork i l v s)
    | none => s
  | none => s

def execContribRoll (p : Pkt) (i : SessIx) (l v : Nat) (ranks : List Nat) (s : State) : Res :=
  onStrait p s (recvPkt p 4 0 544 (ranks.all (fun r => decide (r < 4096))) (rollIn p.flow i l v ranks) s)

/-- An ABSENT notice (R325): for the layer, or for every layer of the step not yet sent. -/
def noticeOne (i l v rank : Nat) (whole : Bool) (s : State) : State :=
  match getSess s i with
  | some x =>
    if x.ownerOf l v ≠ x.me then s
    else match ownAt x l v with
      | .late => if whole then s else countLate i l s
      | .other => s
      | .current =>
        let gave : Bool := match redOf x l v with | some r => r.given.contains rank || r.leaves.any (fun q => q.1 = rank) | none => false
        if whole ∧ gave then s else tryClose i l v (modRed i l v (fun r => { r with absent := (rank :: r.absent).dedup }) s)
  | none => s

def absentIn (flow i l v : Nat) (whole : Bool) (s : State) : State :=
  match getSess s i with
  | some x =>
    match senderRank s x flow with
    | some rank =>
      if !x.open' then s
      else if !x.isLive rank then countLate i l s
      else (if whole then List.range x.layersOf else [l]).foldl (fun s l => noticeOne i l v rank whole s) s
    | none => s
  | none => s

def execContribAbsent (p : Pkt) (i : SessIx) (l v : Nat) (whole : Bool) (s : State) : Res :=
  onStrait p s (recvPkt p 4 1 32 true (absentIn p.flow i l v whole) s)

/-- RECOVER at a rank (R333, R350): its retained contribution as leaves, an ABSENT notice where it withheld or holds none any more, or leaves at its close. -/
def recoverIn (flow i l v : Nat) (s : State) : State :=
  match getSess s i with
  | some x =>
    if !x.open' ∨ x.layersOf ≤ l ∨ senderRank s x flow ≠ some (x.ownerOf l v) then s
    else
      let o := x.ownerOf l v
      let absent (s : State) : State := sendRank i o 4 1 l v 0 (absentPayload false) s
      if (match (x.layer l).newest with | some n => decide (v < n) | none => false) then absent s
      else
        let s := updWork i l v (fun w => { w with recovered := true, held := [], roll := none }) (openWork i l v s)
        match workOf s i l v with
        | some w => if w.withheld then absent s else if w.closed then sendOwn i l v o (some x.me) true s else s
        | none => s
  | none => s

def execContribRecover (p : Pkt) (i : SessIx) (l v : Nat) (s : State) : Res :=
  onStrait p s (recvPkt p 4 0 32 true (recoverIn p.flow i l v) s)

end Sys2Proof.Machine
end

