-- ==== Sys2Proof/Machine/Bindery.lean ====
section
/-!
DEFINITION. Machine/Bindery.lean: sessions: the configuration block (R313, R314), OPEN, the digest exchange and CLOSE (R312, R315, R354, R443), and the session object's plain values (R316).
-/

namespace Sys2Proof.Machine

/-! The configuration block (R313, R314). -/

def rankCfgOf (b : Bytes) : RankCfg := let v := leNat b; { device := BitVec.ofNat 16 (bitsOf v 48 16), part := Fin.ofNat 64 (bitsOf v 42 6), owner := bitsOf v 40 1 = 1 }
def layerCfgOf (b : Bytes) : LayerCfg :=
  let v := leNat b
  { firstTensor := bitsOf v 96 32, tensorCount := bitsOf v 88 8, ownerRank := bitsOf v 72 16, optimizer := bitsOf v 64 8, imageBytes := bitsOf v 32 32 }
def tensorCfgOf (b : Bytes) : TensorCfg :=
  let v := leNat b
  { rows := bitsOf v 224 32, cols := bitsOf v 192 32, imageElem := bitsOf v 160 32, imageExp := bitsOf v 128 32, initAddr := BitVec.ofNat 64 (bitsOf v 64 64),
    workFmt := bitsOf v 56 8, workMode := bitsOf v 48 8, decay := bitsOf v 40 8 }

/-- Where a table of the block lies: offset, entry bytes, entries. -/
def cfgTables (h : Nat) : List (Nat × Nat × Nat) :=
  [(bitsOf h 480 32, 8, bitsOf h 176 16), (bitsOf h 448 32, 16, bitsOf h 192 16), (bitsOf h 416 32, 32, bitsOf h 320 32), (bitsOf h 384 32, 8, bitsOf h 208 16)]
/-- Length of the block: to the end of the table that reaches furthest. -/
def cfgLength (h : Nat) : Nat := ((cfgTables h).map (fun t => t.1 + t.2.1 * t.2.2)).foldl max 64
/-- The entries of a table. -/
def cfgEntries (b : Bytes) (t : Nat × Nat × Nat) : List Bytes := (List.range t.2.2).map (fun i => slice b (t.1 + i * t.2.1) t.2.1)

def cfgOf (b : Bytes) : SessCfg :=
  let h := leNat (b.take 64)
  let t (k : Nat) : List Bytes := cfgEntries b ((cfgTables h).getD k (0, 0, 0))
  { session := bitsOf h 168 8, cls := bitsOf h 160 8, baseStep := bitsOf h 352 32, b1 := bitsOf h 304 16, b2 := bitsOf h 288 16, lr := bitsOf h 272 16, wd := bitsOf h 256 16,
    epsEl := signedOf 24 (bitsOf h 232 24), epsEx := signedOf 8 (bitsOf h 224 8), lrExp := bitsOf h 116 4, initReduce := signedOf 8 (bitsOf h 152 8), headroom := bitsOf h 144 8,
    deadline := bitsOf h 136 8, foldWindow := bitsOf h 128 8, minOwners := bitsOf h 120 8, keepers := bitsOf h 112 4, snapPeriod := bitsOf h 104 8,
    ranks := (t 0).map rankCfgOf, layers := (t 1).map layerCfgOf, tensors := (t 2).map tensorCfgOf,
    steps := (t 3).map (fun e => let v := leNat e; (bitsOf v 40 24, bitsOf v 16 24, bitsOf v 0 16)) }

/-- Counts of the header's tables within their ranges; the rest of the block is read only then. -/
def cfgCounts (h : Nat) : Bool :=
  1 ≤ bitsOf h 176 16 && bitsOf h 176 16 ≤ 4096 && 1 ≤ bitsOf h 192 16 && bitsOf h 192 16 ≤ 65535 && 1 ≤ bitsOf h 320 32 && bitsOf h 320 32 ≤ 2 ^ 20 && 1 ≤ bitsOf h 208 16 && bitsOf h 208 16 ≤ 4096

/-- Every field of the header in its range, and its reserved bits zero. -/
def cfgHeaderOk (h : Nat) (c : SessCfg) : Bool :=
  cfgCounts h && bitsOf h 0 104 = 0 && (c.cls = 1 || c.cls = 2) && 0 < c.epsEl && c.epsEx ≠ -128 && c.initReduce ≠ -128 && c.headroom ≤ 8 && 1 ≤ c.deadline && c.deadline ≤ 64 &&
  1 ≤ c.foldWindow && (if c.cls = 2 then 1 ≤ c.minOwners else c.minOwners = 0) && 1 ≤ c.keepers && c.keepers ≤ 8 && 1 ≤ c.snapPeriod &&
  bitsOf h 480 32 % 8 = 0 && bitsOf h 448 32 % 16 = 0 && bitsOf h 416 32 % 32 = 0 && bitsOf h 384 32 % 8 = 0

/-- Every table entry in its range, and its reserved bits zero. -/
def cfgTablesOk (b : Bytes) (c : SessCfg) : Bool :=
  let h := leNat (b.take 64)
  let t (k : Nat) : List Bytes := cfgEntries b ((cfgTables h).getD k (0, 0, 0))
  (t 0).all (fun e => bitsOf (leNat e) 41 1 = 0 && bitsOf (leNat e) 0 40 = 0) &&
  (t 1).all (fun e => bitsOf (leNat e) 0 32 = 0) &&
  (t 2).all (fun e => bitsOf (leNat e) 0 40 = 0) &&
  c.layers.all (fun l => 1 ≤ l.tensorCount && l.firstTensor + l.tensorCount ≤ c.tensors.length && l.optimizer ≤ 2 && (match c.ranks[l.ownerRank]? with | some r => r.owner | none => false)) &&
  c.tensors.all (fun x => 1 ≤ x.rows && x.rows ≤ 2 ^ 31 && 1 ≤ x.cols && x.cols ≤ 2 ^ 31 && x.workFmt ≤ 5 && x.workMode ≤ 1 && x.decay ≤ 1 && isVirtual x.initAddr)

/-- Read the block of a partition: its bytes, none where it cannot be read or its counts are out of range. -/
def readCfg (s : State) (p : PartId) (addr : BitVec 64) : Option Bytes :=
  if isVirtual addr ∧ vaOf addr % 64 = 0 then
    match (s.vm.readBytes p (vaOf addr) 64).2 with
    | some hd => let h := leNat hd; if cfgCounts h then (s.vm.readBytes p (vaOf addr) (cfgLength h)).2 else none
    | none => none
  else none

/-- The rank of a partition of this module. -/
def rankHere (s : State) (p : PartId) (c : SessCfg) : Option Nat :=
  if s.fab.idInForce = 0xFFFF then none else c.ranks.findIdx? (fun r => r.device = s.fab.idInForce && r.part = p)

/-- The block suits the session, the partition and this module (R312, R315, R443). -/
def cfgSuits (s : State) (i : Nat) (p : PartId) (b : Bytes) : Bool :=
  let c := cfgOf b
  cfgHeaderOk (leNat (b.take 64)) c && cfgTablesOk b c && c.session = i && s.parts[p].state = .active && s.parts[p].cls.toNat = c.cls && (rankHere s p c).isSome &&
  (c.cls ≠ 2 || (s.parts[p].jointSession.toNat = i && s.keys.slots.any (fun k => k.2.owner = p.val && k.2.purpose = 3)))

/-! The carve-out (R315, R329, R363). -/

/-- Bytes that a rank reserves: residual and two step buffers of every layer in BI32; for each layer that the map gives it its state and three shadows, and RANKS / 2 contributions (log 22). -/
def reserveBytes (c : SessCfg) (me : Nat) (owners : List Nat) : Nat :=
  ((List.range c.layers.length).map (fun l =>
    3 * 16448 * c.bucketsOf l + (if owners.getD l 0xFFFF = me then 4 * c.shadow l + ceilDiv c.ranks.length 2 * c.bucketsOf l * 16384 else 0))).foldl (· + ·) 0

/-- Bytes of keeper copies. -/
def keptBytes (x : Session) : Nat := ((x.layers.flatMap (fun y => y.keeps)).map (fun k => (k.chunks.map (fun c => c.2.length)).foldl (· + ·) 0)).foldl (· + ·) 0
/-- CARVEOUT_USED (R316). -/
def carveUsed (b : Bindery) : Nat := (b.sessions.map (fun x => x.2.reserved + keptBytes x.2)).foldl (· + ·) 0

/-! Live ranks and the coordinator (R355). -/

def ownerBit (c : SessCfg) (r : Nat) : Bool := match c.ranks[r]? with | some x => x.owner | none => false
/-- The lowest live rank whose OWNER bit is 1, and the next such rank. -/
def coordinatorOf (c : SessCfg) (live : List Nat) : Option Nat := (live.filter (ownerBit c)).head?
def deputyOf (c : SessCfg) (live : List Nat) : Option Nat := (live.filter (ownerBit c))[1]?
def insertRanks (new live : List Nat) : List Nat := sortKey id (new ++ live).dedup

/-! OPEN (R315). -/

/-- A record of Bindery state as OPEN leaves it: the reset values of R34 with a format and mode. Its starting HELD_EXP is not stated, and is a free value (log 3). -/
def freshRec (fmt mode : Nat) (held : Int) : ScaleRec := { fmt := fmt, mode := mode, heldExp := held }

/-- Owner state of a tensor at OPEN: the master from INIT_ADDR, its exponents from the next 256-byte boundary after the elements, moments zero (R314, R336). A block whose bytes are delivered poisoned is POISON (R32). -/
def initTensor (v : VM) (p : PartId) (optimizer : Nat) (t : TensorCfg) (held : Nat → Int) : OwnTensor :=
  let n := ceilDiv t.size 64
  let k := ceilDiv t.size 32
  let base := vaOf t.initAddr
  let blk (j : Nat) : Blk :=
    match (v.readBytes p (base + 256 * j) 256).2, (v.readBytes p (roundUp (base + 256 * n) 256 + j) 1).2 with
    | some b, some e => { ex := readExp (e.getD 0 0), els := unpackElems 6 b }
    | _, _ => { ex := none, els := List.replicate 64 0 }
  let zero32 : Blk := { ex := some zeroExp, els := List.replicate 32 0 }
  { master := (List.range n).map blk, m := if optimizer ≤ 1 then List.replicate k zero32 else [], s := if optimizer = 0 then List.replicate k zero32 else [],
    recs := [freshRec 6 0 (held 0), freshRec 1 0 (held 1), freshRec 7 0 (held 2), freshRec t.workFmt t.workMode (held 3)] }

/-- Starting HELD_EXP of record `j` of tensor `k` (log 3). -/
def startExp (draw k j : Nat) : Int := ((((Config.freeBytes draw).getD (4 * k + j) 0).toNat % 255 : Nat) : Int) - 127

/-- A layer at OPEN. -/
def initLayer (s : State) (p : PartId) (c : SessCfg) (me l : Nat) : Layer :=
  if (c.layer l).ownerRank = me then { tensors := (c.tensorsOf l).zipIdx.map (fun t => initTensor s.vm p (c.layer l).optimizer t.1 (startExp s.free ((c.layer l).firstTensor + t.2))) } else {}

/-- The session as OPEN leaves it. -/
def openedSession (s : State) (x : Session) (p : PartId) (c : SessCfg) (b : Bytes) (me : Nat) : Session :=
  { x with state := 1, digest := Config.sha3 b, myRank := some me, recordCount := 0, lrNow := BitVec.ofNat 16 c.lr, wdNow := BitVec.ofNat 16 c.wd, lrForce := BitVec.ofNat 16 c.lr, wdForce := BitVec.ofNat 16 c.wd,
           counters := Vector.replicate 6 0, part := some p, cfg := some c, reserved := reserveBytes c me (c.layers.map (·.ownerRank)), agreed := [], differ := [], withholding := [], clamps := 0,
           elastic := { live := [me], owners := c.layers.map (·.ownerRank), snapBase := c.baseStep, coordinator := coordinatorOf c [me] },
           layers := (List.range c.layers.length).map (initLayer s p c me) }

/-- Open the session flows to every other rank and give each this rank's digest (R315); a refused open is recorded against the rank's partition. The peer's context number is a free value (log 3). -/
def openFlows (i : Nat) (p : PartId) (c : SessCfg) (me : Nat) (s : State) : State :=
  (c.ranks.zipIdx).foldl (fun s r =>
    if r.2 = me then s
    else
      let n := Config.freeNat s.free % 262144
      match openFlow 0x41 r.1.device n [4, 5, 6] (some i) { s with free := s.free + 1 } with
      | (s, .done) => s.emit [.sessionDigest i r.2 (((getSess s i).map (·.digest)).getD 0)]
      | (s, st) => s.putVM (s.vm.event p st)) s

/-- The first version of a layer (R313, R330): agreed exponents INIT_REDUCE_EXP, NEXT_MODE TREE; what MODE its carried record shows is not stated, and is a free value (log 3). -/
def publishFirst (i l : Nat) (s : State) : State :=
  match getSess s i with
  | some x =>
    match x.cfg with
    | some c =>
      let w := workLayer (frameNow s) (c.imageBytes l) (c.tensorsOf l) (x.layer l).tensors
      if w.1.any OwnTensor.poisoned then s
      else
        let r : StepRec := { frame := frameNow s, step := (c.baseStep + 2 ^ 32 - 1) % 2 ^ 32, layer := l, owner := x.me, contributors := [], absent := [], dropped := 0, late := 0, rescaled := 0,
                             mode := Config.freeNat s.free % 4, nextTree := true, skipped := false, status := .done }
        publish i l c.baseStep w.2 (List.replicate (c.bucketsOf l) c.initReduce) (stepRecBytes r) (updLayer i l (fun y => { y with tensors := w.1 }) { s with free := s.free + 1 })
    | none => s
  | none => s

/-- The session runs once every owner rank has answered with an equal digest; each owner then publishes its layers. -/
def tryRun (i : Nat) (s : State) : State :=
  match getSess s i with
  | some x =>
    if x.state = 1 ∧ x.elastic.owners.all (fun r => r = x.me || x.agreed.contains r) then
      let s := updSession i (fun x => { x with state := 2 }) s
      ((List.range x.layersOf).filter (fun l => x.elastic.owners.getD l 0xFFFF = x.me)).foldl (fun s l => publishFirst i l s) s
    else s
  | none => s

/-- The partitions that an OPEN may be for: the tenant's own; for the operator, each that holds a suitable block (log 23). -/
def openParts (s : State) (q : Req) : List PartId :=
  if isOperator s q then allParts else match findSess s q with | some x => (match x.part with | some p => [p] | none => []) | none => []

def setOpStatus (i : Nat) (r : State × Status) : State × Status := (updSession i (fun x => { x with opStatus := BitVec.ofNat 8 r.2.code }) r.1, r.2)
/-- The session's object, listed from its first use on. -/
def listSession (i : Nat) (s : State) : State :=
  match getSess s i with | some _ => s | none => { s with bind := { s.bind with sessions := alSet i {} s.bind.sessions } }

/-- The first partition whose block suits, with the block. -/
def openBlock (s : State) (q : Req) (i : Nat) (x : Session) : Option (PartId × Bytes) :=
  (openParts s q).findSome? (fun p => match readCfg s p x.configAddr with | some b => if cfgSuits s i p b then some (p, b) else none | none => none)

/-- The block that an OPEN reads first: the one that suits, or else the first that can be read. -/
def readBlock (s : State) (q : Req) (i : Nat) (x : Session) : Option Bytes :=
  match openBlock s q i x with
  | some (_, b) => some b
  | none => (openParts s q).findSome? (fun p => readCfg s p x.configAddr)

/-- CONFIG_DIGEST is the digest of the block read, whatever the OPEN then ends with (R315, 1). -/
def noteDigest (q : Req) (i : Nat) (x : Session) (s : State) : State :=
  match readBlock s q i x with | some b => updSession i (fun y => { y with digest := Config.sha3 b }) s | none => s

/-- OPEN: DENIED, QUOTA, or FORMING. -/
def doOpen (q : Req) (i : Nat) (x : Session) (s : State) : State × Status :=
  match openBlock s q i x with
  | none => (noteDigest q i x s, .denied)
  | some (p, b) =>
    let c := cfgOf b
    let me := (rankHere s p c).getD 0
    if s.bind.carveout.toNat < carveUsed s.bind + reserveBytes c me (c.layers.map (·.ownerRank)) then (noteDigest q i x s, .quota)
    else
      let y := openedSession s x p c b me
      let s := { s with bind := { s.bind with sessions := alSet i y s.bind.sessions }, free := s.free + 1 }
      (tryRun i (openFlows i p c me s), .done)

def opSessionOpen (q : Req) (i : Nat) (s : State) : State × Status :=
  let x := (getSess s i).getD {}
  guarded s (0x7001 + i) (i < 255 && sessMay s q i)
    (setOpStatus i (if hubUp s ∧ (x.state = 0 ∨ x.state = 3) then doOpen q i { x with cfg := none } (listSession i s) else (listSession i s, .denied)))
def execSessionOpOpen (q : Req) (i : SessIx) (s : State) : Res := software s (answer q (opSessionOpen q i s))

/-! The digest exchange (R315). -/

/-- Ranks that answered: an equal digest joins, any other never does. -/
def digestIn (i : Nat) (answers : List (Nat × BitVec 512)) (s : State) : State :=
  tryRun i (updSession i (fun x =>
    match x.cfg with
    | some c =>
      let mine := answers.filter (fun a => a.1 < c.ranks.length && a.1 ≠ x.me)
      let eq := (mine.filter (fun a => a.2 = x.digest)).map (·.1)
      let live := insertRanks eq x.elastic.live
      { x with agreed := (eq ++ x.agreed).dedup, differ := ((mine.filter (fun a => a.2 ≠ x.digest)).map (·.1) ++ x.differ).dedup,
               elastic := { x.elastic with live := live, coordinator := coordinatorOf c live } }
    | none => x) s)

def execSessionDigestMatch (i : SessIx) (answers : List (Nat × BitVec 512)) (s : State) : Res :=
  need (hubUp s && (match getSess s i with | some x => x.open' | none => false) && !answers.isEmpty) (digestIn i answers s)

/-! CLOSE (R354, R359, R451). -/

/-- Session flows are closed; a rank that hands over keeps them CLOSING, to hear the roster that declares it departed (R381). Their keys go. -/
def closeFlows (i : Nat) (keep : Bool) (s : State) : State :=
  let mine (x : Nat × Flow) : Bool := x.2.session = some i
  { s with fab := { s.fab with flows := if keep then s.fab.flows.map (fun x => if mine x then (x.1, { x.2 with state := .closing, unacked := [] }) else x) else s.fab.flows.filter (fun x => !mine x) },
           keys := if keep then s.keys else { s.keys with slots := s.keys.slots.filter (fun k => !(k.2.purpose = 0x18 && k.2.tag / 2 ^ 17 = i)) } }

/-- The rank's carve-out is freed: residuals, step buffers and owned state are destroyed. -/
def freeCarve (state : BitVec 8) (x : Session) : Session :=
  { x with state := state, digest := if state = 0 then 0 else x.digest, myRank := if state = 0 then none else x.myRank, part := if state = 0 then none else x.part, cfg := none, reserved := 0, agreed := [], differ := [],
           layers := [], withholding := [],
           elastic := { epoch := x.elastic.epoch, handing := if x.elastic.departState = 2 then x.elastic.handing else none, departState := x.elastic.departState, departAt := x.elastic.departAt, stopStatus := x.elastic.stopStatus, rollback := x.elastic.rollback, restoreVersion := x.elastic.restoreVersion,
                        snapshot := x.elastic.snapshot, prevSnapshot := x.elastic.prevSnapshot } }

/-- Withhold every open layer step, and leave. -/
def closeSession (i : Nat) (s : State) : State :=
  match getSess s i with
  | some x =>
    let s := if x.open' then (List.range x.layersOf).foldl (fun s l => ((x.layer l).steps.filter (fun w => !w.closed)).foldl (fun s w => withholdLayer i l w.step s) s) s else s
    updSession i (freeCarve 0) (closeFlows i (x.elastic.departState = 2) s)
  | none => s

def opSessionClose (q : Req) (i : Nat) (s : State) : State × Status :=
  let x := (getSess s i).getD {}
  guarded s (0x7001 + i) (i < 255 && sessMay s q i) (setOpStatus i (if x.state = 0 then (listSession i s, .denied) else (closeSession i s, .done)))
def execSessionOpClose (q : Req) (i : SessIx) (s : State) : Res := software s (answer q (opSessionClose q i s))

/-- The session stops with a status (R359, R375). -/
def stopSession (i : Nat) (st : Status) (s : State) : State := updSession i (fun x => { x with state := 3, elastic := { x.elastic with stopStatus := BitVec.ofNat 8 st.code } }) s

/-- The ranks of a partition that is removed close (R451). -/
def closeRanksOf (p : PartId) (s : State) : State := s.bind.sessions.foldl (fun s x => if x.2.part = some p ∧ x.2.state ≠ 0 then closeSession x.1 s else s) s

/-! The session object's values (R316). -/

/-- A write of a plain subindex: 01 CONFIG_ADDR, 08 TOPK, 09 REDUCE_MODE, 0A RECORD_BASE, 0B RECORD_SLOTS, 0D LR_NOW, 0E WD_NOW. The block address is taken while the session is not open. -/
def opSessionValue (q : Req) (i sub : Nat) (v : Nat) (s : State) : State × Status :=
  let x := (getSess s i).getD {}
  let lent := match x.cfg with | some c => c.cls = 1 | none => false
  let ok := match sub with
    | 0x01 => virtualAt 1 (BitVec.ofNat 64 v)
    | 0x08 => 1 ≤ v && v ≤ 4096
    | 0x09 => v ≤ 1
    | 0x0A => virtualAt 64 (BitVec.ofNat 64 v)
    | 0x0B => v ≤ 2 ^ 20
    | 0x0D => lent
    | 0x0E => lent
    | _ => false
  let f (x : Session) : Session := match sub with
    | 0x01 => { x with configAddr := BitVec.ofNat 64 v }
    | 0x08 => { x with topk := BitVec.ofNat 16 v }
    | 0x09 => { x with reduceMode := BitVec.ofNat 8 v }
    | 0x0A => { x with recordBase := BitVec.ofNat 64 v }
    | 0x0B => { x with recordSlots := BitVec.ofNat 32 v }
    | 0x0D => { x with lrNow := BitVec.ofNat 16 v }
    | 0x0E => { x with wdNow := BitVec.ofNat 16 v }
    | _ => x
  guarded s (0x7001 + i) (i < 255 && sessMay s q i && ok) (updSession i f (listSession i s), .done)

/-- CARVEOUT_BYTES (R316): never below its use. -/
def opCarveout (q : Req) (v : BitVec 64) (s : State) : State × Status :=
  guarded s 0x7000 (isOperator s q && carveUsed s.bind ≤ v.toNat && Config.t1PrivateBase + v.toNat + s.mem.lendBytes.toNat ≤ 2 ^ 30 * 768) ({ s with bind := { s.bind with carveout := v } }, .done)

end Sys2Proof.Machine
end

