-- ==== Sys2Proof/Machine/Elastic.lean ====
section
/-!
DEFINITION. Machine/Elastic.lean: rosters and departures (R355 to R362), snapshots at keepers (R364 to R367), rollback and redistribution (R368 to R375), planned departures (R376 to R381), and their meetings (R383 to R387).
-/

namespace Sys2Proof.Machine

/-! Roles and messages (R355, R358). -/

def updElastic (i : Nat) (f : Elastic → Elastic) (s : State) : State := updSession i (fun x => { x with elastic := f x.elastic }) s

/-- A step field: 0xFFFF_FFFF stands for none. -/
def stepOpt (w : BitVec 32) : Option Nat := if w = 0xFFFFFFFF then none else some w.toNat
def optStep (o : Option Nat) : BitVec 32 := match o with | some n => BitVec.ofNat 32 n | none => 0xFFFFFFFF

def Session.isCoord (x : Session) : Bool := x.myRank.isSome && decide (x.elastic.coordinator = x.myRank)
def Session.deputy (x : Session) : Option Nat := x.cfg.bind (fun c => deputyOf c x.elastic.live)

/-- The 544 bytes of a roster chunk. -/
def rosterBytes (m : RosterMsg) : Bytes :=
  leBytes 1 m.status.toNat ++ leBytes 1 (bitsNat [m.doRollback, m.doHandover, m.doStop]) ++ leBytes 2 m.handover.toNat ++ leBytes 4 m.boundary.toNat ++ leBytes 4 m.rollback.toNat ++
  leBytes 4 m.prevSnapshot.toNat ++ leBytes 4 m.snapshot.toNat ++ leBytes 4 m.epoch ++ leBytes 8 m.effective ++ rankBits m.live

/-- A chunk with every field at its reset value and an empty bitmap. -/
def blankRoster (i : Nat) (x : Session) : RosterMsg :=
  { session := i, sender := x.me, effective := 0, epoch := x.elastic.epoch, snapshot := 0xFFFFFFFF, prevSnapshot := 0xFFFFFFFF, rollback := 0xFFFFFFFF, boundary := 0xFFFFFFFF,
    handover := 0xFFFF, doRollback := false, doHandover := false, doStop := false, status := 0, live := [] }

/-- Send a roster chunk to a rank: a PARAM data chunk of layer 0xFFFF. -/
def sendRoster (i rank chunk : Nat) (m : RosterMsg) (s : State) : State := sendRank i rank 5 0 0xFFFF m.epoch chunk (rosterBytes m) s

/-- Send a DEPART_REQUEST or RESTORE_FAILED to the coordinator and the deputy, other than this rank. -/
def sendHeads (i chunk : Nat) (m : RosterMsg) (s : State) : State :=
  match getSess s i with
  | some x => (([x.elastic.coordinator, x.deputy].filterMap id).filter (fun r => r ≠ x.me)).foldl (fun s r => sendRoster i r chunk m s) s
  | none => s

/-- This rank is the coordinator or the deputy. -/
def Session.isHead (x : Session) : Bool := x.isCoord || (x.myRank.isSome && decide (x.deputy = x.myRank))

/-! The owner map (R370). Whether another rank's carve-out has room no rank can tell, and each is taken to have it (log 20). -/

/-- Total IMAGE_BYTES of the layers that a rank owns. -/
def ownerLoad (c : SessCfg) (map : List Nat) (r : Nat) : Nat := ((map.zipIdx.filter (fun q => q.1 = r)).map (fun q => c.imageBytes q.2)).foldl (· + ·) 0

/-- The rank that takes an orphaned layer: of the live owners, or else of the live ranks with OWNER 1, the one with the smallest total, ties to the lower rank. -/
def pickOwner (c : SessCfg) (live map : List Nat) : Option Nat :=
  let have' := live.filter (fun r => map.contains r)
  let cand := if have'.isEmpty then live.filter (ownerBit c) else have'
  (sortKey (ownerLoad c map) cand).head?

/-- Assign every orphaned layer, in ascending order; none when no rank is eligible. -/
def assignMap (c : SessCfg) (live map : List Nat) : Option (List Nat) :=
  (List.range map.length).foldl (fun (acc : Option (List Nat)) l =>
    acc.bind (fun m => if live.contains (m.getD l 0xFFFF) then some m else (pickOwner c live m).map (fun r => m.set l r))) (some map)

/-! Restoring (R371, R372). -/

def shadowChunks (c : SessCfg) (l : Nat) : Nat := ceilDiv (c.shadow l) 1024
def joinChunks (n : Nat) (l : List (Nat × Bytes)) : Bytes := (List.range n).flatMap (fun k => (alGet k l).getD [])
def allChunks (n : Nat) (l : List (Nat × Bytes)) : Bool := (List.range n).all (fun k => (alGet k l).isSome)

/-- Publish a restored layer as version vr (R372). -/
def publishRestored (i l : Nat) (s : State) : State :=
  match getSess s i with
  | some x =>
    match x.cfg with
    | some c =>
      let vr := x.elastic.restoreVersion.toNat
      let w := workLayer (frameNow s) (c.imageBytes l) (c.tensorsOf l) (x.layer l).tensors
      if w.1.any OwnTensor.poisoned then s
      else
        let r : StepRec :=
          { frame := frameNow s, step := vr - 1, layer := l, owner := x.me, contributors := [], absent := [], dropped := 0, late := 0, rescaled := 0, mode := 2, nextTree := true,
            skipped := false, status := .peerFailed }
        publish i l vr w.2 (List.replicate (c.bucketsOf l) c.initReduce) (stepRecBytes r) (updLayer i l (fun y => { y with tensors := w.1 }) s)
    | none => s
  | none => s

/-- The state of a layer becomes a shadow's, and the layer is published. -/
def restoreFrom (i l : Nat) (b : Bytes) (s : State) : State :=
  match (getSess s i).bind (·.cfg) with
  | some c => publishRestored i l (updLayer i l (fun y => { y with restore := none, tensors := shadowState (c.layer l).optimizer (c.tensorsOf l) b }) s)
  | none => s

/-- RESTORE_FAILED at the coordinator or deputy (R375): kept for the step that the session is being rolled back to. -/
def noteFailed (i w : Nat) (s : State) : State :=
  updElastic i (fun e =>
    let cur := match e.next with | some m => if m.doRollback then stepOpt m.rollback else stepOpt e.rollback | none => stepOpt e.rollback
    if cur = some w then { e with restoreFailed := some w } else e) s

/-- Ask the keeper that stands first; with none left, RESTORE_FAILED names the layer and the step. -/
def askKeeper (i l : Nat) (s : State) : State :=
  match getSess s i with
  | some x =>
    match (x.layer l).restore with
    | some (w, k :: ks, _) => sendRank i k 5 1 l w 0 [] (updLayer i l (fun y => { y with restore := some (w, k :: ks, []), restoreAsked := frameNow s }) s)
    | some (w, [], _) =>
      let s := updLayer i l (fun y => { y with restore := none }) s
      let s := sendHeads i 2 { blankRoster i x with rollback := BitVec.ofNat 32 w, handover := BitVec.ofNat 16 l } s
      if x.isHead then noteFailed i w s else s
    | none => s
  | none => s

/-- The keeper asked is passed over, with the chunks received from it. -/
def passKeeper (i l : Nat) (s : State) : State :=
  askKeeper i l (updLayer i l (fun y => { y with restore := y.restore.map (fun r => (r.1, r.2.1.drop 1, [])) }) s)

/-- Restore a layer to step `w`: from a complete shadow or copy of its own, or from the keepers of that snapshot in ascending order. -/
def startRestore (i l w : Nat) (s : State) : State :=
  match getSess s i with
  | some x =>
    match x.cfg with
    | some c =>
      let y := x.layer l
      let old := x.elastic.snapOwners.getD l 0xFFFF
      match y.shadows.find? (fun h => h.step = w && h.complete), y.keeps.find? (fun h => h.step = w && h.owner = old && h.complete) with
      | some h, _ => restoreFrom i l h.bytes s
      | none, some h => restoreFrom i l (joinChunks (shadowChunks c l) h.chunks) s
      | none, none =>
        let ks := sortKey id ((keepersOf x.elastic.live old c.keepers).filter (fun r => r ≠ x.me))
        askKeeper i l (updLayer i l (fun y => { y with restore := some (w, ks, []) }) s)
    | none => s
  | none => s

/-- A keeper has not answered within two frames (R371). -/
def keeperDue (s : State) (i l : Nat) : Bool :=
  match getSess s i with
  | some x => x.open' && (match (x.layer l).restore with | some (_, _ :: _, _) => decide ((x.layer l).restoreAsked + 2 ≤ frameNow s) | _ => false)
  | none => false

def execKeeperTimeout (i : SessIx) (l : Nat) (s : State) : Res := need (hubUp s && keeperDue s i l) (passKeeper i l s)

/-! A roster takes effect (R357, R362, R369, R374, R379, R381). -/

/-- What every layer abandons at a rollback: open steps, accumulators, versions not published, residuals, shadows being tipped and copies that fill. Rows for its steps so far are discarded from then on (R319). -/
def Layer.abandon (y : Layer) : Layer :=
  { y with closed := (y.closed ++ y.agreed.map (·.1) ++ y.steps.map (·.step)).dedup, steps := [], reduction := [], parts := [], late := 0, recv := y.recv.filter (fun r => r.published), residual := [], shadows := y.shadows.filter (fun h => h.complete),
           keeps := y.keeps.filter (fun h => h.complete), restore := none }

/-- Rollback (R369, R374): `x0` is the session before the roster. A combined redistribution keeps what is restored, and the chunks received from a keeper that is still live (R384). -/
def rollBack (i : Nat) (m : RosterMsg) (x0 : Session) (map : List Nat) (s : State) : State :=
  let w := m.rollback.toNat
  let vr := m.boundary.toNat
  let e0 := x0.elastic
  let combined := e0.restoreVersion = m.boundary
  let s := updSession i (fun x =>
    { x with withholding := [], reserved := match x0.cfg with | some c => max x.reserved (reserveBytes c x0.me map) | none => x.reserved, layers := if combined then x.layers else x.layers.map Layer.abandon,
             elastic := { x.elastic with owners := map, handoverMap := none, rollback := m.rollback, restoreVersion := m.boundary, snapBase := vr, restoreFailed := none,
                                         snapOwners := if combined ∨ e0.rollback = m.prevSnapshot ∧ e0.restoreFailed.isSome then e0.snapOwners else e0.owners } }) s
  ((List.range x0.layersOf).filter (fun l => map.getD l 0xFFFF = x0.me)).foldl (fun s l =>
    let y := x0.layer l
    let done := match y.newest with | some n => decide (vr ≤ n) | none => false
    let mine := decide (e0.owners.getD l 0xFFFF = x0.me)
    if combined && mine then
      if done then s
      else match y.restore with
        | some (_, k :: _, _) => if m.live.contains k then s else passKeeper i l s
        | _ => if y.kept.any (fun r => r.version = vr) then s else startRestore i l w s
    else startRestore i l w s) s

/-- Departures without a rollback (R362): RING steps whose roll is outstanding recover, TREE steps close where they are whole, and images whose tree parent is gone are asked for again (R340). -/
def afterDepartures (i : Nat) (x0 : Session) (gone : List Nat) (s : State) : State :=
  (List.range x0.layersOf).foldl (fun s l =>
    let y := x0.layer l
    let s := y.recv.foldl (fun s r =>
      match treeParent x0.elastic.live (x0.ownerOf l (r.version - 1)) x0.me, x0.cfg with
      | some p, some c => if !r.published ∧ gone.contains p ∧ !allChunks (c.chunks l) r.chunks then requestResend i l r.version s else s
      | _, _ => s) s
    match getSess s i, y.ownStep with
    | some x, some v =>
      if x.ownerOf l v ≠ x.me then s
      else match redOf x l v with
        | some r => if !r.tree ∧ !r.recovering ∧ !r.rollDone then startRecovery i l v s else tryClose i l v s
        | none => if ownTree x l v then s else startRecovery i l v s
    | _, _ => s) s

/-- A keeper that serves a restore and departs is passed over (R384). -/
def keepersGone (i : Nat) (gone : List Nat) (s : State) : State :=
  match getSess s i with
  | some x => (List.range x.layersOf).foldl (fun s l => match (x.layer l).restore with | some (_, k :: _, _) => if gone.contains k then passKeeper i l s else s | _ => s) s
  | none => s

/-- A departing owner whose new owner has departed sends the state afresh to the new target (R386). -/
def handAgain (i : Nat) (x0 : Session) (map : List Nat) (s : State) : State :=
  match x0.elastic.handoverMap, x0.elastic.handing with
  | some (h, old), some (who, _) =>
    if who = x0.me then
      ((List.range x0.layersOf).filter (fun l => map.getD l 0 ≠ old.getD l 0 && decide ((x0.layer l).ownStep = some h))).foldl (fun s l => handOver i l h (map.getD l 0xFFFF) s) s
    else s
  | _, _ => s

/-- The map that a roster leaves for layer steps from its handover on, and the map in effect: none when no rank is eligible. -/
def rosterMaps (c : SessCfg) (m : RosterMsg) (live gone : List Nat) (e : Elastic) : Option (List Nat × Option (Nat × List Nat)) :=
  let leaving : Bool := match e.handing with | some (r, _) => gone.contains r | none => false
  let base := match e.handoverMap with | some (_, h) => if m.doRollback || leaving then h else e.owners | none => e.owners
  match assignMap c live base with
  | none => none
  | some owners =>
    if m.doRollback ∨ leaving then some (owners, none)
    else if m.doHandover ∧ m.boundary ≠ 0xFFFFFFFF then (assignMap c (live.filter (fun r => r ≠ m.handover.toNat)) owners).map (fun h => (owners, some (m.boundary.toNat, h)))
    else match e.handoverMap, e.handing with
      | some (h, old), some (who, _) => (assignMap c (live.filter (fun r => r ≠ who)) old).map (fun n => (owners, some (h, n)))
      | _, _ => some (owners, none)

/-- A roster takes effect at this rank. -/
def applyRoster (i : Nat) (m : RosterMsg) (s : State) : State :=
  match getSess s i with
  | none => s
  | some x0 =>
    match x0.cfg with
    | none => updElastic i (fun e => { e with next := none, departState := if e.departState = 2 then 3 else e.departState, handing := none }) s
    | some c =>
      let e0 := x0.elastic
      let live := sortKey id m.live
      let gone := e0.live.filter (fun r => !live.contains r)
      let maps := rosterMaps c m live gone e0
      let s := updSession i (fun x =>
        { x with layers := x.layers.map (fun y => { y with departed := (y.departed ++ gone).dedup }),
                 elastic := { x.elastic with live := live, epoch := m.epoch, coordinator := coordinatorOf c live, snapshot := m.snapshot, prevSnapshot := m.prevSnapshot, next := none,
                                             found := x.elastic.found.filter (fun r => live.contains r.1), requests := x.elastic.requests.filter (fun r => live.contains r.1),
                                             handing := if m.doHandover then some (m.handover.toNat, m.boundary.toNat) else x.elastic.handing.bind (fun h => if live.contains h.1 then some h else none),
                                             departState := if m.doHandover ∧ m.handover.toNat = x0.me then 2 else x.elastic.departState } }) s
      if m.doStop then stopSession i ((Status.ofCode m.status.toNat).getD .peerFailed) s
      else match maps with
        | none => updElastic i (fun e => { e with stopNext := some .peerFailed }) s
        | some (owners, hand) =>
          if m.doRollback then rollBack i m x0 owners s
          else
            let s := updElastic i (fun e => { e with owners := owners, handoverMap := hand }) s
            let s := match hand with | some (_, n) => if e0.handoverMap.isSome then handAgain i x0 n s else s | none => s
            if gone.isEmpty then s else keepersGone i gone (afterDepartures i x0 gone s)

/-! The coordinator's declaration (R356, R357, R360, R366, R368, R375, R376). -/

/-- Live ranks whose session flow is LOST. -/
def lostRanks (s : State) (i : Nat) (x : Session) : List Nat :=
  x.elastic.live.filter (fun r => decide (r ≠ x.me) && s.fab.flows.any (fun f => f.2.session = some i && f.2.state = .lost && rankOfDevice x f.2.peer = some r))

/-- The version that every layer has reached here; none while some layer has none. -/
def leastNewest (x : Session) : Option Nat :=
  ((List.range x.layersOf).map (fun l => (x.layer l).newest)).foldl (fun (m : Option (Option Nat)) n =>
    match m, n with | none, n => some n | some (some a), some b => some (some (min a b)) | _, _ => some none) none |>.getD none
/-- The highest version of a layer received here, every chunk of it. -/
def received (x : Session) (l : Nat) : Option Nat :=
  match x.cfg with
  | some c => (((x.layer l).newest.toList ++ ((x.layer l).recv.filter (fun r => allChunks (c.chunks l) r.chunks)).map (·.version)).foldl (fun m v => some (match m with | some w => max v w | none => v)) none)
  | none => none
/-- The version that the coordinator has received of every layer; none while it lacks one (R366). -/
def leastReceived (x : Session) : Option Nat :=
  ((List.range x.layersOf).map (received x)).foldl (fun (m : Option (Option Nat)) n =>
    match m, n with | none, n => some n | some (some a), some b => some (some (min a b)) | _, _ => some none) none |>.getD none
/-- The highest version received for the layers that `sel` picks (R368, R379). -/
def mostNewest (x : Session) (sel : Nat → Bool) : Nat := (((List.range x.layersOf).filter sel).map (fun l => (received x l).getD 0)).foldl max 0

/-- A redistribution runs until every layer has published its version (R368). -/
def Session.redistributing (x : Session) : Bool :=
  match stepOpt x.elastic.restoreVersion with | some vr => (match leastNewest x with | some n => decide (n < vr) | none => true) | none => false

/-- SNAPSHOT_STEP and PREV_SNAPSHOT_STEP as they stand now. When a redistribution has ended none is complete, and the one restored counts as the previous (R387). -/
def snapNow (x : Session) : BitVec 32 × BitVec 32 :=
  let e := x.elastic
  if x.redistributing then (e.snapshot, e.prevSnapshot)
  else if e.restoreVersion ≠ 0xFFFFFFFF ∧ e.snapshot = e.rollback ∧ e.snapshot ≠ 0xFFFFFFFF then (0xFFFFFFFF, e.rollback)
  else match x.cfg, leastReceived x with
    | some c, some n =>
      let t := max c.snapPeriod 1
      if e.snapBase + t ≤ n then
        let w := e.snapBase + (n - e.snapBase) / t * t - t
        if (match stepOpt e.snapshot with | some k => decide (k < w) | none => true) then (BitVec.ofNat 32 w, if e.snapBase < w then BitVec.ofNat 32 (w - t) else e.prevSnapshot)
        else (e.snapshot, e.prevSnapshot)
      else (e.snapshot, e.prevSnapshot)
    | _, _ => (e.snapshot, e.prevSnapshot)

/-- What a declaration does beside the list of live ranks: the rollback or the stop that it carries. -/
inductive Remedy where
  | none
  | rollback (step boundary : BitVec 32)
  | stop (st : Status)
deriving DecidableEq, Repr

/-- The remedy for owners that have gone, or for a restore that failed. -/
def remedyOf (x : Session) (snap : BitVec 32) (owners : Bool) : Remedy :=
  let e := x.elastic
  match e.stopNext with
  | some st => .stop st
  | none =>
    if e.restoreFailed.isSome then (if e.prevSnapshot = 0xFFFFFFFF then .stop .snapshotLost else .rollback e.prevSnapshot (e.restoreVersion + 1))
    else if !owners then .none
    else if x.redistributing then .rollback e.rollback e.restoreVersion
    else if snap = 0xFFFFFFFF then .stop .snapshotLost
    else .rollback snap (BitVec.ofNat 32 (mostNewest x (fun _ => true) + 3))

/-- The request to treat next (R376): its rank and the handover step, none for a worker. -/
def nextRequest (x : Session) (gone : List Nat) : Option (Nat × Option Nat) :=
  let e := x.elastic
  if e.handing.isSome ∨ x.redistributing then none
  else match e.requests.filter (fun r => !gone.contains r.1) with
    | (r, _) :: _ => some (r, if e.owners.contains r then some (mostNewest x (fun l => e.owners.getD l 0xFFFF = r) + 2) else none)
    | [] => none

/-- The roster that the coordinator declares, where there is something to declare. -/
def rosterDue (i frame : Nat) (x : Session) (gone failed : List Nat) : Option RosterMsg :=
  let e := x.elastic
  let planned (r : Nat) : Bool := !failed.contains r && (match e.handing with | some (h, _) => h = r | none => false)
  let (snap, prev) := snapNow x
  let rem := remedyOf x snap (gone.any (fun r => e.owners.contains r && !planned r))
  let req := if rem = .none then nextRequest x gone else none
  if gone.isEmpty ∧ rem = .none ∧ req.isNone ∧ snap = e.snapshot ∧ prev = e.prevSnapshot then none
  else
    let b := { blankRoster i x with effective := frame + 1, epoch := e.epoch + 1, snapshot := snap, prevSnapshot := prev, live := e.live.filter (fun r => !gone.contains r),
                                    status := if gone.any (fun r => failed.contains r) then BitVec.ofNat 8 Status.peerFailed.code else 0 }
    some (match rem with
      | .stop st => { b with doStop := true, status := BitVec.ofNat 8 st.code }
      | .rollback w vr => { b with doRollback := true, rollback := w, boundary := vr, snapshot := if e.restoreFailed.isSome then w else b.snapshot, prevSnapshot := if e.restoreFailed.isSome then 0xFFFFFFFF else b.prevSnapshot }
      | .none => match req with
        | some (r, h) => { b with doHandover := true, handover := BitVec.ofNat 16 r, boundary := optStep h }
        | none => b)

/-- The coordinator declares; `force`: in spite of the half (R360). -/
def declare (force : Bool) (i frame : Nat) (s : State) : State :=
  match getSess s i with
  | some x =>
    if !x.isCoord ∨ !x.open' ∨ x.elastic.next.isSome then s
    else
      let e := x.elastic
      let lost := lostRanks s i x
      let gone := ((e.found.map (·.1)) ++ lost).dedup.filter (fun r => e.live.contains r)
      let failed := lost ++ (e.found.filter (·.2)).map (·.1)
      let low : Bool := !gone.isEmpty && decide (2 * (e.live.length - gone.length) < e.live.length)
      let hold := low && !force
      let s := updElastic i (fun e => if hold then { e with held := e.held + 1, holds := e.holds + 1 } else { e with held := 0 }) s
      match rosterDue i frame x (if hold then [] else gone) failed with
      | some m => (treeKids e.live x.me x.me).foldl (fun s r => sendRoster i r 0 m s) (updElastic i (fun e => { e with next := some m, stopNext := none, restoreFailed := if m.doRollback then none else e.restoreFailed }) s)
      | none => s
  | none => s

/-- The condition has persisted for 16 ticks, and the departures are declared. -/
def quorumDue (s : State) (i : Nat) : Bool := match getSess s i with | some x => x.isCoord && x.open' && x.elastic.next.isNone && decide (16 ≤ x.elastic.held) | none => false
def execRosterQuorumHold (i : SessIx) (s : State) : Res := need (hubUp s && quorumDue s i) (declare true i (frameNow s) s)

/-! The tick (R357, R376, R377, R367). -/

/-- The deputy takes the coordinator's place when its flow is lost (R356). -/
def deputySteps (i : Nat) (s : State) : State :=
  match getSess s i with
  | some x =>
    match x.elastic.coordinator with
    | some k => if x.deputy = x.myRank ∧ x.myRank.isSome ∧ (lostRanks s i x).contains k then updElastic i (fun e => { e with coordinator := x.myRank, found := (k, true) :: e.found }) s else s
    | none => s
  | none => s

/-- A copy that fills from an owner whose flow is lost is discarded and counted (R367). -/
def dropFilling (i : Nat) (s : State) : State :=
  match getSess s i with
  | some x =>
    let lost := lostRanks s i x
    let bad (h : KeepCopy) : Bool := !h.complete && lost.contains h.owner
    let n := ((x.layers.flatMap (·.keeps)).filter bad).length
    updSession i (fun x => { x with layers := x.layers.map (fun y => { y with keeps := y.keeps.filter (fun h => !bad h) }), elastic := { x.elastic with tipinLost := x.elastic.tipinLost + n } }) s
  | none => s

/-- A request takes its place in the queue, is re-dated, or is withdrawn (R376, R377); one that is being treated is not withdrawn. -/
def queueRequest (i rank deadline : Nat) (s : State) : State :=
  updElastic i (fun e =>
    let named : Bool := (match e.handing with | some (r, _) => r = rank | none => false) || (match e.next with | some m => m.doHandover && m.handover.toNat = rank | none => false)
    if deadline = 0 then (if named then e else { e with requests := e.requests.filter (fun r => r.1 ≠ rank) })
    else if e.requests.any (fun r => r.1 = rank) then { e with requests := e.requests.map (fun r => if r.1 = rank then (rank, deadline) else r) }
    else { e with requests := e.requests ++ [(rank, deadline)] }) s

/-- A request of this rank goes out. -/
def sendDepart (i : Nat) (s : State) : State :=
  match getSess s i with
  | some x =>
    match x.elastic.sendRequest with
    | some d =>
      let s := sendHeads i 1 { blankRoster i x with effective := d, handover := BitVec.ofNat 16 x.me } (updElastic i (fun e => { e with sendRequest := none }) s)
      if x.isHead then queueRequest i x.me d s else s
    | none => s
  | none => s

/-- A new owner has the whole state of version h and the version itself: it is the owner of step h from then on, and the deadline of what waits starts (R379). -/
def inherit (i l : Nat) (s : State) : State :=
  match getSess s i with
  | some x =>
    match x.cfg, x.elastic.handoverMap, (x.layer l).restore with
    | some c, some (h, map), some (w, [], chunks) =>
      let y := x.layer l
      match y.recv.find? (fun r => r.version = h) with
      | some r =>
        if w = h ∧ map.getD l 0xFFFF = x.me ∧ allChunks (shadowChunks c l) chunks ∧ allChunks (c.chunks l) r.chunks then
          let from' := x.elastic.owners.getD l 0xFFFF
          let sh := (y.keeps.filter (fun k => k.owner = from' && k.complete)).map (fun k =>
            { step := k.step, bytes := joinChunks (shadowChunks c l) k.chunks, complete := match stepOpt x.elastic.snapshot with | some n => decide (k.step ≤ n) | none => false,
              keepers := keepersOf x.elastic.live from' c.keepers : Shadow })
          let s := updSession i (fun x => { x with reserved := max x.reserved (reserveBytes c x.me map) }) s
          let s := updLayer i l (fun y =>
            { y with restore := none, tensors := shadowState (c.layer l).optimizer (c.tensorsOf l) (joinChunks (shadowChunks c l) chunks), kept := [{ version := h, chunks := r.chunks }], shadows := sh,
                     reduction := y.reduction.map (fun q => if q.step = h then { q with deadline := frameNow s + c.deadline } else q) }) s
          tryClose i l h s
        else s
      | none => s
    | _, _, _ => s
  | none => s

/-- One session at step 4 of the tick that begins `frame`: the roster whose frame has come, this rank's request, and the coordinator's declaration. -/
def rosterTick (frame i : Nat) (s : State) : State :=
  match getSess s i with
  | some x =>
    let s := match x.elastic.next with | some m => if m.effective ≤ frame then applyRoster i m s else s | none => s
    let s := (List.range x.layersOf).foldl (fun s l => inherit i l s) s
    declare false i frame (sendDepart i (dropFilling i (deputySteps i s)))
  | none => s

/-! Arrivals of roster chunks (R359, R375 to R377, R385). -/

/-- A rank that is not live in the roster it accepts: its session stops and its carve-out state is destroyed. One that was leaving is DEPARTED when the roster takes effect (R381). -/
def stopDeparted (i : Nat) (m : RosterMsg) (s : State) : State :=
  match getSess s i with
  | some x =>
    if x.elastic.departState = 2 ∧ x.cfg.isNone then updElastic i (fun e => { e with next := some m }) s
    else
      let s := updSession i (freeCarve 3) (closeFlows i false (stopSession i .peerFailed s))
      if x.elastic.departState = 2 then updElastic i (fun e => { e with next := some m }) s else s
  | none => s

/-- The local rank, also where the session has been closed by a rank that hands over. -/
def Session.rank' (x : Session) : Nat := match x.myRank with | some r => r | none => (x.elastic.handing.map (·.1)).getD 0xFFFF

/-- A ROSTER. -/
def rosterIn (m : RosterMsg) (s : State) : State :=
  match getSess s m.session with
  | some x =>
    let e := x.elastic
    if !x.open' ∧ e.departState ≠ 2 then s
    else
      let fresh : Bool := match e.next with
        | some n => decide (n.epoch < m.epoch) || (m.epoch = n.epoch && decide (m.sender < n.sender))
        | none => decide (e.epoch < m.epoch)
      if !fresh then updElastic m.session (fun e => { e with discarded := e.discarded + 1 }) s
      else
        let s := (treeKids e.live m.sender x.me).foldl (fun s r => sendRoster m.session r 0 m s) s
        if m.live.contains x.rank' then updElastic m.session (fun e => { e with next := some m }) s else stopDeparted m.session m s
  | none => s

def execRoster (p : Pkt) (m : RosterMsg) (s : State) : Res := onStrait p s (recvPkt p 5 0 544 true (rosterIn m) s)

/-- A DEPART_REQUEST at the coordinator or the deputy. -/
def departIn (flow : Nat) (m : RosterMsg) (s : State) : State :=
  match getSess s m.session with
  | some x => if x.open' ∧ x.isHead ∧ senderRank s x flow = some m.handover.toNat ∧ x.isLive m.handover.toNat then queueRequest m.session m.handover.toNat m.effective s else s
  | none => s

def execDepartRequest (p : Pkt) (m : RosterMsg) (s : State) : Res := onStrait p s (recvPkt p 5 0 544 true (departIn p.flow m) s)

def failedIn (m : RosterMsg) (s : State) : State :=
  match getSess s m.session with
  | some x => if x.open' ∧ x.isHead then noteFailed m.session m.rollback.toNat s else s
  | none => s

def execRestoreFailed (p : Pkt) (m : RosterMsg) (s : State) : Res := onStrait p s (recvPkt p 5 0 544 true (failedIn m) s)

/-! Heartbeats and silence (R356). -/

/-- A peer that is the coordinator or the deputy, with an open session flow. -/
def beatFlow (s : State) (i peer : Nat) : Option Nat :=
  match getSess s i with
  | some x => if x.open' ∧ x.isLive peer ∧ peer ≠ x.me ∧ (x.elastic.coordinator = some peer ∨ x.deputy = some peer) then rankFlow s i peer 4 else none
  | none => none

def heartbeat (i peer : Nat) (s : State) : State :=
  match (beatFlow s i peer).bind (fun f => (getFlow s f).map (fun x => (f, x))) with
  | some (f, x) => sendAck f (x.rxPsn - 1) s
  | none => s

def execSessionHeartbeat (i : SessIx) (peer : Nat) (s : State) : Res := need (hubUp s && (beatFlow s i peer).isSome) (heartbeat i peer s)

/-- This rank watches `rank`: it is the coordinator, or the deputy and `rank` the coordinator. -/
def watches (s : State) (i rank : Nat) : Bool :=
  match getSess s i with
  | some x => x.open' && x.isLive rank && decide (rank ≠ x.me) && (x.isCoord || (x.isHead && x.elastic.coordinator = some rank))
  | none => false

/-- A rank that hands over has ended its departure: a worker, or an owner whose layers have all reached the handover step (R356, R378, R379). -/
def departureEnded (x : Session) (rank : Nat) : Bool :=
  match x.elastic.handing with
  | some (r, h) => r = rank && (!x.elastic.owners.contains rank || ((List.range x.layersOf).filter (fun l => x.elastic.owners.getD l 0xFFFF = rank)).all (fun l => match (x.layer l).newest with | some n => decide (h ≤ n) | none => false))
  | none => false

def silence (i rank : Nat) (s : State) : State :=
  updSession i (fun x =>
    let e := x.elastic
    { x with elastic := { e with found := (rank, !departureEnded x rank) :: e.found.filter (fun r => r.1 ≠ rank), coordinator := if e.coordinator = some rank then x.myRank else e.coordinator } }) s

def execRankSilence (i : SessIx) (rank : Nat) (s : State) : Res := need (hubUp s && watches s i rank) (silence i rank s)

/-! Planned departures (R376, R377, R380). -/

/-- A write of DEPART_AT_FRAME other than 0, by the OPERATOR. -/
def opDepartAt (q : Req) (i : Nat) (f : BitVec 64) (s : State) : State × Status :=
  guarded s (0x7001 + i) (i < 255 && isOperator s q && decide (frameNow s + 4 ≤ f.toNat) && (match getSess s i with | some x => x.open' && x.elastic.departState ≠ 3 | none => false))
    (updElastic i (fun e => { e with departAt := f, sendRequest := some f.toNat, departState := if e.departState = 0 then 1 else e.departState }) s, .done)

def execDepartAtFrameSet (q : Req) (i : SessIx) (f : BitVec 64) (s : State) : Res := software s (answer q (opDepartAt q i f s))

/-- A write of 0: a request is withdrawn; a handover is not. Where none is pending there is nothing to withdraw. -/
def opDepartWithdraw (q : Req) (i : Nat) (s : State) : State × Status :=
  guarded s (0x7001 + i) (i < 255 && isOperator s q && (match getSess s i with | some x => x.elastic.departState.toNat < 2 | none => true))
    (updElastic i (fun e => if e.departState = 1 then { e with departAt := 0, sendRequest := some 0, departState := 0 } else { e with departAt := 0 }) s, .done)

def execDepartWithdraw (q : Req) (i : SessIx) (s : State) : Res := software s (answer q (opDepartWithdraw q i s))

/-- The deadline of a queued or treated request has passed before the rank closed. -/
def deadlinePassed (s : State) (i rank : Nat) : Bool :=
  match getSess s i with
  | some x => x.open' && x.isCoord && x.isLive rank && x.elastic.requests.any (fun r => r.1 = rank && decide (r.2 ≤ frameNow s))
  | none => false

def departOverdue (i rank : Nat) (s : State) : State :=
  updElastic i (fun e => { e with found := (rank, true) :: e.found.filter (fun r => r.1 ≠ rank), requests := e.requests.filter (fun r => r.1 ≠ rank) }) s

def execDepartDeadline (i : SessIx) (rank : Nat) (s : State) : Res := need (hubUp s && deadlinePassed s i rank) (departOverdue i rank s)

/-- A write of OWNER_QUERY_LAYER (R361). -/
def opOwnerQuery (q : Req) (i : Nat) (l : BitVec 16) (s : State) : State × Status :=
  guarded s (0x7001 + i) (i < 255 && sessMay s q i) (updPer q (fun v => { v with ownerLayer := alSet i l v.ownerLayer }) s, .done)

def execOwnerQuery (q : Req) (i : SessIx) (l : BitVec 16) (s : State) : Res := software s (answer q (opOwnerQuery q i l s))

/-! Tip-ins and resend requests (R340, R364 to R367, R371, R379). -/

/-- The two latest complete copies stay, and the one filling (R364). A new owner's copies of the departing owner, one of which is still being tipped, are three. -/
def trimKeeps (owner n : Nat) (l : List KeepCopy) : List KeepCopy :=
  let mine := sortKey (fun h : KeepCopy => h.step) (l.filter (fun h => h.owner = owner && h.complete))
  l.filter (fun h => !(h.owner = owner && h.complete)) ++ mine.drop (mine.length - n)

/-- A chunk of a snapshot at its keeper: without room the copy is discarded and counted. -/
def keepChunk (i l owner step chunk n : Nat) (b : Bytes) (s : State) : State :=
  match getSess s i with
  | some x =>
    match x.cfg with
    | some c =>
      let nc := shadowChunks c l
      let y := x.layer l
      let is (h : KeepCopy) : Bool := h.owner = owner && h.step = step
      if y.keeps.any (fun h => is h && h.complete) ∨ nc ≤ chunk then s
      else if s.bind.carveout.toNat < carveUsed s.bind + b.length then
        updSession i (fun x => { (x.updLayer l (fun y => { y with keeps := y.keeps.filter (fun h => !is h) })) with elastic := { x.elastic with tipinLost := x.elastic.tipinLost + 1 } }) s
      else
        let cur := ((y.keeps.find? is).map (·.chunks)).getD []
        let chunks := alSet chunk b cur
        let copy : KeepCopy := { owner := owner, step := step, chunks := chunks, complete := allChunks nc chunks }
        updLayer i l (fun y => { y with keeps := trimKeeps owner n (y.keeps.filter (fun h => !is h && !(n = 2 && h.owner = owner && !h.complete)) ++ [copy]) }) s
    | none => s
  | none => s

/-- A TIPIN chunk: of a restore that this rank asked for, of a handover to it, or of a snapshot that it keeps. -/
def tipinIn (flow : Nat) (m : ChunkMsg) (s : State) : State :=
  match getSess s m.session with
  | some x =>
    match x.cfg, senderRank s x flow with
    | some c, some r =>
      if !x.open' ∨ c.layers.length ≤ m.layer then s
      else
        let nc := shadowChunks c m.layer
        let b := m.payload.take (min 1024 (c.shadow m.layer - 1024 * m.chunk))
        let heir : Bool := match x.elastic.handing, x.elastic.handoverMap with | some (who, _), some (_, map) => who = r && map.getD m.layer 0xFFFF = x.me | _, _ => false
        match (x.layer m.layer).restore with
        | some (w, k :: ks, chunks) =>
          if w = m.step ∧ k = r then
            if m.chunk = 0xFFFFFF then passKeeper m.session m.layer s
            else
              let chunks := if m.chunk < nc then alSet m.chunk b chunks else chunks
              if allChunks nc chunks then restoreFrom m.session m.layer (joinChunks nc chunks) s
              else updLayer m.session m.layer (fun y => { y with restore := some (w, k :: ks, chunks), restoreAsked := frameNow s }) s
          else if x.elastic.owners.getD m.layer 0xFFFF = r then keepChunk m.session m.layer r m.step m.chunk 2 b s else s
        | got =>
          if heir ∧ (x.elastic.handoverMap.map (·.1)) = some m.step then
            let chunks := match got with | some (_, _, cs) => cs | none => []
            inherit m.session m.layer (updLayer m.session m.layer (fun y => { y with restore := some (m.step, [], if m.chunk < nc then alSet m.chunk b chunks else chunks) }) s)
          else if heir then keepChunk m.session m.layer r m.step m.chunk 3 b s
          else if x.elastic.owners.getD m.layer 0xFFFF = r then keepChunk m.session m.layer r m.step m.chunk 2 b s else s
    | _, _ => s
  | none => s

def execTipinData (p : Pkt) (m : ChunkMsg) (s : State) : Res :=
  onStrait p s (recvPkt p 6 0 (roundUp m.payload.length 32) (m.payload.length ≤ 1024) (tipinIn p.flow m) s)

/-- A keeper's answer to a restore request: its complete copy, or one chunk of LEN 0 (R371). -/
def keeperAnswer (i l w rank : Nat) (x : Session) (c : SessCfg) (s : State) : State :=
  match (x.layer l).keeps.find? (fun h => h.step = w && h.complete) with
  | some h => (List.range (shadowChunks c l)).foldl (fun s k => sendRank i rank 6 0 l w k ((alGet k h.chunks).getD []) s) s
  | none => sendRank i rank 6 0 l w 0xFFFFFF [] s

/-- A resend request: at the owner of the layer, for a version; at any other rank, for a snapshot that it keeps. -/
def resendIn (flow i l v : Nat) (s : State) : State :=
  match getSess s i with
  | some x =>
    match x.cfg, senderRank s x flow with
    | some c, some r =>
      if !x.open' ∨ c.layers.length ≤ l then s
      else if x.ownerOf l (v - 1) = x.me then
        match answerResend i l v r s with
        | (s, true) => s
        | (s, false) => updElastic i (fun e => { e with resendsDropped := e.resendsDropped + 1 }) s
      else keeperAnswer i l v r x c s
    | _, _ => s
  | none => s

def execParamResendRequest (p : Pkt) (i : SessIx) (l v : Nat) (s : State) : Res :=
  onStrait p s (recvPkt p 5 1 0 true (resendIn p.flow i l v) s)

end Sys2Proof.Machine
end

