-- ==== Sys2Proof/Machine/Heal.lean ====
section
/-!
DEFINITION. Machine/Heal.lean: a gathering fetch sector by sector, its replica, its poisoned sectors and the resend that heals them (R258, R261 to R263).
-/

namespace Sys2Proof.Machine

/-- The running fetch of a bank of an entry. -/
def fetchAt (s : State) (p : PartId) (e b : Nat) : Option Fetch := s.mem.fetches.find? (fun f => f.part = p && f.entry = e && f.bank = b && f.started)
def updFetch (p : PartId) (e b : Nat) (f : Fetch → Fetch) (s : State) : State :=
  { s with mem := { s.mem with fetches := s.mem.fetches.map (fun x => if x.part = p && x.entry = e && x.bank = b then f x else x) } }

/-- Address of the next sector: in the buffer of the version, and in its replica where there is one. -/
def fetchVa (g : Gathering) (f : Fetch) : Nat := (vaOf (if f.version % 2 = 0 ∨ g.session = 0xFF then g.pbuf0 else g.pbuf1) + 256 * f.pos) % 2 ^ 56
def replicaVa (g : Gathering) (f : Fetch) : Nat := (fetchVa g f + g.replica.toNat) % 2 ^ 56

/-- A T2 home that did not answer waits for its replacement (R263). -/
def noteHome (p : PartId) (va : Nat) (r : RdRes) (s : State) : State :=
  let home := match s.vm.leaf p va with
    | some l => (match s.vm.place p va l with | .t2 h k => [t2Home s.mem h k (256 * sectorOf va)] | _ => [])
    | none => []
  if r.status = .linkLost ∨ r.status = .peerFailed then { s with mem := { s.mem with failedHomes := (home ++ s.mem.failedHomes).dedup } } else s

/-- One read of a fetch. -/
def fetchRead (p : PartId) (va : Nat) (d : Delivered) (s : State) : State × RdRes :=
  let r := s.vm.readSector p va d true
  (noteHome p va r.2 (s.putVM r.1), r.2)

/-- The sector as the fetch gets it: from the buffer, or from the replica where the buffer's failed; with the status of the first read. -/
def fetchTwice (p : PartId) (g : Gathering) (f : Fetch) (read replica : Delivered) (s : State) : State × RdRes × Status :=
  let (s, r) := fetchRead p (fetchVa g f) read s
  match r with
  | .poisoned st =>
    -- a sector that was POISONED before is counted here, the other failures where they were found
    let s := if st = .poisonIn then s.putVM (s.vm.event p st) else s
    if g.replica ≠ 0 then
      match fetchRead p (replicaVa g f) replica s with
      | (s, .data x) => (s, .data x, st)
      | (s, _) => (s, .poisoned st, st)
    else (s, .poisoned st, st)
  | x => (s, x, x.status)

/-- The sector lands in the bank: its bytes, or a poisoned range (R31, R32). -/
def landSector (p : PartId) (off : Nat) (r : RdRes) (m : Mem) : Mem :=
  match r with
  | .data x => winWrite p off (sectorBytes x) m
  | _ => winMark p off 256 (winWrite p off (zeros 256) m)

/-- One sector of a fetch. -/
def fetchOne (p : PartId) (e b : Nat) (g : Gathering) (f : Fetch) (read replica : Delivered) (s : State) : State :=
  let (s, r, st) := fetchTwice p g f read replica s
  let s := { s with mem := landSector p (g.winOff + b * bankBytes g + 256 * f.pos) r s.mem }
  let bad : Bool := match r with | .data _ => false | _ => true
  let g := (getGather s.vm p e).getD g
  let ask := bad && r.status ≠ .quota && g.session ≠ 0xFF && !g.healPending
  let last := decide (g.bytes ≤ 256 * (f.pos + 1))
  let g' := { g with lastStatus := if st = .done then g.lastStatus else BitVec.ofNat 8 st.code, healPending := g.healPending || bad,
                     bankState := if h : b < 4 then (if last then g.bankState.set b (if f.poisoned || bad then 3 else 2) else g.bankState) else g.bankState }
  let s := if g' = g then s else s.putWrites (reportGather p e (setGather p e g' s.vm))
  let s := if last then { s with mem := { s.mem with fetches := s.mem.fetches.filter (fun x => !(x.part = p && x.entry = e && x.bank = b)) } }
           else updFetch p e b (fun x => { x with pos := f.pos + 1, poisoned := x.poisoned || bad }) s
  let s := if ask then requestResend g.session g.layer f.version s else s
  if g.session = 0xFF then s else placeWaiting g.session g.layer s

def execFetchSector (p : PartId) (e b : Nat) (read replica : Delivered) (s : State) : Res :=
  match fetchAt s p e b, getGather s.vm p e with
  | some f, some g => need (memUp s) (fetchOne p e b g f read replica s)
  | _, _ => .fault .noCause

end Sys2Proof.Machine
end

