-- ==== Sys2Proof/Machine/HostMode.lean ====
section
/-!
DEFINITION. Machine/HostMode.lean: S16 and S17 as PCIe endpoints: training, requests before IDE, the aperture and host accesses (R296 to R302, R311, R461), and the module as target of MEMRD and MEMWR (R283, R289, R300, R302, R310).
-/

namespace Sys2Proof.Machine

/-- The endpoint of a strait is trained (R275, R297). -/
def hostUp (s : State) (k : StraitId) : Bool := hubUp s && s.fab.straits[k].link = .host

/-- PCIe training ends up with x8, x4, x2 or x1, or the link is lost (R297, R298). -/
def execPcieTraining (k : StraitId) (up : Bool) (width : Nat) (s : State) : Res :=
  need (hubUp s && s.fab.straits[k].mode = 2 && 16 ≤ k.val && (!up || width = 1 || width = 2 || width = 4 || width = 8))
    (s.updStrait k (fun x => { x with link := if up then .host else .detect, width := if up then BitVec.ofNat 8 width else 0, ide := false }))

/-- The head of configuration space (R297): vendor and device ID, one function without a multi-function bit, BAR0 of 64 bits and not prefetchable, BAR2 of 64 bits and prefetchable, whose bases the host assigns, and then what R297 states of the endpoint: the sizes of both BARs, 8 MSI-X vectors, and the greatest payload and read request (the layout: log 109). -/
def configSpace (s : State) : Bytes :=
  leBytes 2 0x1F6C ++ leBytes 2 0x0480 ++ zeros 12 ++ leBytes 8 0x4 ++ leBytes 8 0xC ++ zeros 32 ++
    leBytes 8 (2 ^ 20) ++ leBytes 8 s.fab.apertureForce ++ leBytes 2 8 ++ leBytes 2 512 ++ leBytes 2 4096

/-- Configuration, DOE and SPDM requests are served; IDE_KM over SPDM sets the stream up (log 18). Any other request before that ends with Unsupported Request (R298). -/
def hostConfig (k : StraitId) (r : HostReq) (s : State) : State :=
  match r with
  | .config => s.emit [.hostData k (configSpace s)]
  | .doe => s.emit [.hostData k []]
  | .spdm => (s.updStrait k (fun x => { x with ide := true })).emit [.hostData k []]
  | .other => if s.fab.straits[k].ide then s else s.emit [.hostUnsupported k]

def execHostConfigRequest (k : StraitId) (r : HostReq) (s : State) : Res := need (hostUp s k) (hostConfig k r s)

/-! The aperture (R299). -/

/-- Fields of an aperture entry. -/
structure AptFields where
  device : Device
  va : Nat
  part : Nat
  access : Nat
  kind : Nat
deriving DecidableEq, Repr

def aptFields (w : BitVec 128) : AptFields :=
  { device := w.extractLsb' 112 16, va := (w.extractLsb' 56 56).toNat, part := (w.extractLsb' 50 6).toNat, access := (w.extractLsb' 2 2).toNat, kind := (w.extractLsb' 0 2).toNat }

/-- The form of R299: no reserved code or bit; 2 MiB alignment; a POOL entry has a 46-bit offset and partition 0. -/
def aptOk (w : BitVec 128) : Bool :=
  let f := aptFields w
  w.extractLsb' 4 46 = 0 && f.access ≠ 3 && f.kind ≠ 3 && f.va % 2 ^ 21 = 0 && (f.kind ≠ 1 || (f.va < 2 ^ 46 && f.part = 0))

/-- A write of APT_ENTRY for the granule of APT_INDEX: BAR2 has at most 131,072 granules. -/
def opAptEntry (q : Req) (w : BitVec 128) (s : State) : State × Status :=
  let i := (perOf s q).aptIndex.toNat
  guarded s 0x6030 (isOperator s q && i < 131072 && aptOk w)
    ({ s with fab := { s.fab with aperture := if w = 0 then alDel i s.fab.aperture else alSet i { raw := w } s.fab.aperture } }, .done)
def execAptEntryWrite (q : Req) (w : BitVec 128) (s : State) : Res := software s (answer q (flashed q true s (opAptEntry q w s)))

/-- The entry that an access meets; none where it is INVALID, voided, outside BAR2, or forbids the access (R300, R451). -/
def aptAt (s : State) (off len : Nat) (write : Bool) : Option AptFields :=
  if s.fab.apertureForce < off + len then none
  else match alGet (off / 2 ^ 21) s.fab.aperture with
    | some a =>
      let f := aptFields a.raw
      if a.voided ∨ f.kind = 0 ∨ f.access = 0 ∨ (write ∧ f.access ≠ 2) then none else some f
    | none => none

/-! Local targets. -/

/-- The ciphertext of a partition's sector as it is stored (R300). -/
def cipherAt (s : State) (p : PartId) (va : Nat) : Option Sector :=
  (s.vm.leaf p va).map (fun l => (storedAt s.mem (s.vm.place p va l) (sectorOf va)).cipher)

def cipherBytes (s : State) (p : PartId) (va len : Nat) : Option Bytes :=
  (pieces va len).foldl (fun acc x => match acc, cipherAt s p (x.1 / 256 * 256) with
    | some b, some c => some (b ++ slice (sectorBytes c) (x.1 % 256) x.2)
    | _, _ => none) (some [])

/-- Host access to p's plaintext is granted (R300, R461). -/
def granted (s : State) (p : PartId) : Bool := s.parts[p].hostGrant && s.parts[p].state = .active

/-- A host read joins those that wait, behind the writes posted before it (R301). -/
def waitHost (w : HostWait) (s : State) : State :=
  { s with fab := { s.fab with hostWaits := s.fab.hostWaits ++ [{ w with after := openPosts s w.strait }] } }

/-- A host read has failed: its status in the fault audit, and Completer Abort once every earlier posted write is acknowledged. -/
def hostFail (k : StraitId) (st : Status) (part va len : Nat) (s : State) : State :=
  let s := s.putVM (s.vm.audit (auditOf 4 st part va len))
  if openPosts s k = [] then s.emit [.hostAbort k]
  else waitHost { strait := k, flow := 2 ^ 18, off := 0, len := len, tags := [], failed := true } s

/-- A host read of this module completes once every earlier posted write is acknowledged (R301). -/
def completeHost (k : StraitId) (b : Bytes) (s : State) : State :=
  if openPosts s k = [] then s.emit [.hostData k b]
  else waitHost { strait := k, flow := 2 ^ 18, off := 0, len := b.length, tags := [0], got := [(0, b)] } s

/-- The packets that a posted write has put on flows, from `s` to `t`, stand until they are acknowledged. -/
def notePosts (k : StraitId) (s t : State) : State :=
  let new := t.fab.flows.flatMap (fun x => (x.2.unacked.filter (fun o => (o.cls = 2 || o.cls = 3) && (match getFlow s x.1 with | some y => decide (y.txPsn ≤ o.psn) | none => true))).map (fun o => (k, x.1, o.psn)))
  { t with fab := { t.fab with hostPosts := allStraits.flatMap (openPosts t) ++ new } }

/-- A read of this module's own memory: plaintext of a granted partition, ciphertext otherwise. -/
def readLocal (k : StraitId) (f : AptFields) (off len : Nat) (s : State) : State :=
  let va := f.va + off % 2 ^ 21
  if f.kind = 1 then
    if va + len ≤ s.mem.lendBytes.toNat then
      completeHost k ((pieces va len).flatMap (fun x => slice (sectorBytes (lentAt s.mem (x.1 / 256)).cipher) (x.1 % 256) x.2)) s
    else hostFail k .denied 0x40 va len s
  else match partOf f.part with
    | none => hostFail k .denied 0x40 va len s
    | some p =>
      if granted s p then
        match s.vm.readBytes p va len with
        | (v, some b) => completeHost k b (s.putVM v)
        | (v, none) => hostFail k (s.vm.readStatus p va len) p.val va len (s.putVM v)
      else match cipherBytes s p va len with
        | some b => completeHost k b s
        | none => hostFail k .quota p.val va len s

/-- A write of this module's own memory. -/
def writeLocal (k : StraitId) (f : AptFields) (off : Nat) (data : Bytes) (s : State) : State :=
  let va := f.va + off % 2 ^ 21
  if f.kind = 1 then
    if va + data.length ≤ s.mem.lendBytes.toNat then
      { s with mem := (pieces va data.length).foldl (fun m x =>
          let old := lentAt m (x.1 / 256)
          { m with lent := alSet (x.1 / 256) { old with cipher := mergeSector old.cipher (x.1 % 256) (slice data (x.1 - va) x.2) } m.lent }) s.mem }
    else s.emit [.hostUnsupported k]
  else match partOf f.part with
    | none => s.emit [.hostUnsupported k]
    | some p =>
      if granted s p then
        match s.vm.writeBytes p va data true with
        | (v, _, .done) => notePosts k s (s.putWrites v)
        | (v, n, st) => s.putVM ((v.audit (auditOf 4 st p.val (va + n) (data.length - n))).event p st)
      else s.putVM (s.vm.event p .denied)

/-! Remote targets. -/

/-- The address word that a host MEMRD or MEMWR carries: a POOL address; for a PARTITION entry the spec gives no encoding, so it is a free value (log 16). -/
def hostAddr (f : AptFields) (va : Nat) (s : State) : Nat :=
  if f.kind = 1 then (gaddrWord { device := f.device, space := 1, off := BitVec.ofNat 46 va }).toNat else Config.freeNat s.free % 2 ^ 64

/-- A tag that no host read of the flow uses. -/
def freeTag (s : State) (flow : Nat) (used : List Nat) : Nat :=
  let busy := used ++ (s.fab.hostWaits.filter (fun h => h.flow = flow)).flatMap (·.tags)
  ((List.range 256).find? (fun t => !busy.contains t)).getD 0

/-- A read of another module: MEMRDs of at most 4 sectors on the host flow; without an open flow the device cannot be reached. -/
def readRemote (k : StraitId) (f : AptFields) (off len : Nat) (s : State) : State :=
  let va := f.va + off % 2 ^ 21
  match findFlow s 0x40 f.device 8 none with
  | none => hostFail k .linkLost 0x40 va len s
  | some fl =>
    let first := va / 256 * 256
    let n := (va + len + 255) / 256 - va / 256
    let r := (List.range (ceilDiv n 4)).foldl (fun (acc : State × List Nat) i =>
      let t := freeTag acc.1 fl acc.2
      let c := min 4 (n - 4 * i)
      (sendPkt fl 1 0 (hostAddr f (first + 1024 * i) acc.1 * 2 ^ 16 + (c - 1) * 2 ^ 8 + t) [] { acc.1 with free := acc.1.free + 1 }, acc.2 ++ [t])) (s, [])
    let w : HostWait := { strait := k, flow := fl, off := va - first, len := len, tags := r.2 }
    waitHost w r.1

/-- A write of another module: MEMWRs of one sector on the host flow. What a MEMWR carries beside the host's bytes, the rest of a sector written in part and the tag, the spec does not say, and stands as free values (log 16). -/
def writeRemote (k : StraitId) (f : AptFields) (off : Nat) (data : Bytes) (s : State) : State :=
  let va := f.va + off % 2 ^ 21
  match findFlow s 0x40 f.device 8 none with
  | none => s.putVM (s.vm.audit (auditOf 4 .linkLost 0x40 va data.length))
  | some fl => notePosts k s ((pieces va data.length).foldl (fun s x =>
      let b := Config.freeBytes s.free
      let y : StoredSector := { cipher := mergeSector (bytesSector (slice b 0 256)) (x.1 % 256) (slice data (x.1 - va) x.2), tag := BitVec.ofNat 64 (leNat (slice b 256 8)) }
      sendPkt fl 2 0 (hostAddr f (x.1 / 256 * 256) s * 2 ^ 16) (sectorsBytes [y]) { s with free := s.free + 1 }) s)

/-! Host accesses through BAR2 (R298, R300, R301). -/

/-- A packet that fails the integrity check of the IDE stream is discarded and counted (R298). -/
def ideFailed (k : StraitId) (s : State) : State := s.updStrait k (fun x => { x with tagFailures := x.tagFailures + 1 })

def hostReadOp (k : StraitId) (off len : Nat) (ideOk : Bool) (s : State) : State :=
  if !s.fab.straits[k].ide then s.emit [.hostUnsupported k]
  else if !ideOk then ideFailed k s
  else match aptAt s off len false with
    | none => s.emit [.hostUnsupported k]
    | some f => if f.device = s.fab.idInForce then readLocal k f off len s else readRemote k f off len s

def execHostRead (k : HostLink) (off len : Nat) (s : State) : Res := need (hostUp s k.strait && 1 ≤ len && len ≤ 4096) (hostReadOp k.strait off len k.ideOk s)

def hostWriteOp (k : StraitId) (off : Nat) (data : Bytes) (ideOk : Bool) (s : State) : State :=
  if !s.fab.straits[k].ide then s.emit [.hostUnsupported k]
  else if !ideOk then ideFailed k s
  else match aptAt s off data.length true with
    | none => s.emit [.hostUnsupported k]
    | some f => if f.device = s.fab.idInForce then writeLocal k f off data s else writeRemote k f off data s

def execHostWrite (k : HostLink) (off : Nat) (data : Bytes) (s : State) : Res := need (hostUp s k.strait && 1 ≤ data.length && data.length ≤ 512) (hostWriteOp k.strait off data k.ideOk s)

/-! The module as a target (R283, R289, R300, R302). -/

/-- A packet comes on a host flow. -/
def onHostFlow (s : State) (f : Nat) : Bool := match getFlow s f with | some x => x.classes.contains 8 && x.owner = 0x40 | none => false
/-- Only management cores reach HOST space: a flow of a partition or of the Bindery does not (R302). -/
def onModuleFlow (s : State) (f : Nat) : Bool := match getFlow s f with | some x => x.owner = 0x40 | none => false

/-- What a MEMRD or MEMWR of `n` sectors may name: a global address of this module, sector aligned, or, on a host flow, memory of a partition. -/
def targetOk (s : State) (f : Nat) (g : Target) (n : Nat) : Bool :=
  1 ≤ n && n ≤ 4 && (match g with
    | .global g => gaddrOk g && g.off.toNat % 256 = 0
    | .partition _ va => va % 256 = 0 && onHostFlow s f)

/-- Error in answer to a MEMRD, and, in the one error packet that R283 has, to a MEMWR. -/
def answerError (f : Nat) (st : Status) (tag : Byte) (s : State) : State := sendPkt f 1 2 (respCsf st tag) [] s
def answerSectors (f : Nat) (tag : Byte) (l : List StoredSector) (s : State) : State := sendPkt f 1 1 (respCsf .done tag) (sectorsBytes l) s

/-- The sectors of a partition that a host flow reads (R300): plaintext of a granted partition, with tags that the spec does not give (log 16), and ciphertext and tags as stored of any other. -/
def servePartition (f : Nat) (p : PartId) (va n : Nat) (tag : Byte) (s : State) : State :=
  if granted s p then
    match s.vm.readBytes p va (256 * n) with
    | (v, some b) =>
      let tags := Config.freeBytes s.free
      answerSectors f tag ((List.range n).map (fun i => { cipher := bytesSector (slice b (256 * i) 256), tag := BitVec.ofNat 64 (leNat (slice tags (8 * i) 8)) })) { s.putVM v with free := s.free + 1 }
    | (v, none) => answerError f (s.vm.readStatus p va (256 * n)) tag (s.putVM v)
  else
    let l := (List.range n).filterMap (fun i => (s.vm.leaf p (va + 256 * i)).map (fun l => storedAt s.mem (s.vm.place p (va + 256 * i) l) (sectorOf (va + 256 * i))))
    if l.length = n then answerSectors f tag l s else answerError f .quota tag s

/-- A home answers a read of its lent range with the sectors as stored, or, where its RS(68,64) code finds one uncorrectable, with that status for every request that waits on the read (R236, R262); in DOZE every access is answered with DENIED (R583).
What host memory holds is outside the module: its bytes are free values (log 16); a module that is no ferry, or whose host is not there, answers with LINK_LOST (R310). -/
def serveRead (p : Pkt) (g : GAddr) (n : Nat) (tag : Byte) (bad : Bool) (s : State) : State :=
  if lentHolds s g n then
    if bad then answerError p.flow .uncorrectable tag s
    else answerSectors p.flow tag ((List.range n).map (fun i => lentAt s.mem (g.off.toNat / 256 + i))) s
  else if g.space = 2 ∧ g.device = s.fab.idInForce ∧ onModuleFlow s p.flow then
    if hostBehind s then sendPkt p.flow 1 1 (respCsf .done tag) (slice (Config.freeBytes s.free) 0 (sectorsLen n)) { s with free := s.free + 1 }
    else answerError p.flow .linkLost tag s
  else answerError p.flow .denied tag s

def serveTarget (p : Pkt) (g : Target) (n : Nat) (tag : Byte) (bad : Bool) (s : State) : State :=
  if s.pow.mod = .doze then answerError p.flow .denied tag s
  else match g with
    | .global g => serveRead p g n tag bad s
    | .partition q va => servePartition p.flow q va n tag s

def execMemrdRequest (p : Pkt) (g : Target) (r : HomeRead) (tag : Byte) (s : State) : Res :=
  onStrait p s (recvPkt p 1 0 0 (targetOk s p.flow g r.sectors) (serveTarget p g r.sectors tag r.bad) s)

/-- A host's write of a granted partition is encrypted and stored as a local mover's would be (R300, R311); of any other it is dropped and counted as DENIED. -/
def writePartition (p : PartId) (va : Nat) (data : List StoredSector) (s : State) : State :=
  if granted s p then
    match s.vm.writeBytes p va (data.flatMap (fun x => sectorBytes x.cipher)) true with
    | (v, _, .done) => s.putWrites v
    | (v, n, st) => s.putVM ((v.audit (auditOf 4 st p.val (va + n) (256 * data.length - n))).event p st)
  else s.putVM (s.vm.event p .denied)

/-- A write to the lent range is stored and then acknowledged; a write to host memory leaves by the ferry, or ends with LINK_LOST (R310). In DOZE it is answered with DENIED (R583). -/
def takeWrite (p : Pkt) (g : Target) (tag : Byte) (data : List StoredSector) (s : State) : State :=
  if s.pow.mod = .doze then answerError p.flow .denied tag s
  else match g with
    | .partition q va => writePartition q va data s
    | .global g =>
      if g.space = 1 then { s with mem := lentStore (g.off.toNat / 256) data s.mem }
      else if hostBehind s then s else answerError p.flow .linkLost tag s

/-- A MEMWR to a global address names the lent range, or HOST space from a module's flow; any other is dropped. -/
def writeOk (s : State) (f : Nat) (g : Target) (n : Nat) : Bool :=
  targetOk s f g n && (match g with
    | .global g => lentHolds s g n || (g.space = 2 && g.device = s.fab.idInForce && onModuleFlow s f)
    | .partition _ _ => true)

def execMemwr (p : Pkt) (g : Target) (tag : Byte) (data : List StoredSector) (s : State) : Res :=
  onStrait p s (recvPkt p 2 0 (sectorsLen data.length) (writeOk s p.flow g data.length) (takeWrite p g tag data) s)

/-! HOST_GRANT (R426, R461). -/

/-- A write of HOST_GRANT, by the partition's TENANT: it governs host accesses from then on. -/
def opHostGrant (q : Req) (p : PartId) (v : Byte) (s : State) : State × Status :=
  guarded s (0x3000 + p.val) (isTenant s q p && v.toNat ≤ 1) (s.updPart p (fun x => { x with hostGrant := v = 1 }), .done)
def execHostGrantWrite (q : Req) (p : PartId) (v : Byte) (s : State) : Res := software s (answer q (opHostGrant q p v s))

end Sys2Proof.Machine
end

