-- ==== Sys2Proof/Machine/Keys.lean ====
section
/-!
DEFINITION. Machine/Keys.lean: the handshake of hop and pair keys (R434 to R436), the import of tenant keys (R437 to R443, R460) and slot queries (R431).
-/

namespace Sys2Proof.Machine

/-! The handshake. -/

/-- The two life-cycle states suit each other (R435). -/
def lifeSuits (s : State) (lc : Byte) : Bool :=
  (s.life.force = 1 && lc = 1) || ((s.life.force = 2 || s.life.force = 3) && (lc = 2 || lc = 3))

/-- The peer of a HELLO or REPLY is acceptable, its signatures apart (R435). -/
def peerOk (s : State) (h : Handshake) : Bool :=
  (Config.certKey h.cert).isSome && lifeSuits s h.lifeCycle && (h.hop.isSome || !h.debugOpen)

def peerHello (h : Handshake) : Bytes := helloBytes h.hop.isSome h.unit h.device h.nonce h.kemPub h.cert h.lifeCycle h.debugOpen h.fwDigest
/-- SHA3-512 of a transcript as the bytes that are signed. The handshake's signatures name no context string (log 14). -/
def digestBytes (t : Bytes) : Bytes := leBytes 64 (Config.sha3 t).toNat

/-- The handshake can run now: its strait is in HANDSHAKE, or the fabric is reachable. -/
def hsOpen (s : State) (hop : Option StraitId) : Bool :=
  hubUp s && (match hop with | some k => s.fab.straits[k].link = .handshake | none => s.fab.idInForce ≠ 0xFFFF)

def findHs (s : State) (opener : Bool) (hop : Option StraitId) (peer : Device) : Option HsState :=
  s.fab.handshakes.find? (fun x => x.opener = opener && x.hop = hop && (hop.isSome || x.peer = peer))
def dropHs (opener : Bool) (hop : Option StraitId) (peer : Device) (s : State) : State :=
  { s with fab := { s.fab with handshakes := s.fab.handshakes.filter (fun x => !(x.opener = opener && x.hop = hop && (hop.isSome || x.peer = peer))) } }

/-- The engine that asked for a flow records the status of its open (R286, R435, R460): in the statistics of its partition, and of the module. -/
def recordOpen (owner : Nat) (st : Status) (s : State) : State :=
  match partOf owner with | some p => s.putVM (s.vm.event p st) | none => { s with dict := s.dict.event st }

/-- Contexts that wait for a pair key with a peer end, and their engines record the status (R286, R435). -/
def endOpening (peer : Device) (st : Status) (s : State) : State :=
  let mine := s.fab.flows.filter (fun x => x.2.state = .opening && x.2.peer = peer)
  let s := { s with fab := { s.fab with flows := s.fab.flows.filter (fun x => !(x.2.state = .opening && x.2.peer = peer)) } }
  mine.foldl (fun s x => recordOpen x.2.owner st s) s

/-- Contexts that waited for the pair key open, a session flow under its derived keys (R286, R435, R460). -/
def settleOpening (peer : Device) (s : State) : State :=
  let tx := ((findKey s.keys 0x40 0x17 (pairTag peer false)).map (·.1)).getD 0
  let rx := ((findKey s.keys 0x40 0x17 (pairTag peer true)).map (·.1)).getD 0
  (s.fab.flows.filter (fun x => x.2.state = .opening && x.2.peer = peer)).foldl (fun s x =>
    match x.2.session with
    | none => setFlow x.1 { x.2 with state := .opened, txKey := tx, rxKey := rx } s
    | some sx =>
      let gone : State := { s with fab := { s.fab with flows := alDel x.1 s.fab.flows } }
      if jointBarred s peer x.2.session then recordOpen x.2.owner .denied gone
      else match sessionKeys peer sx (((alGet sx s.bind.sessions).map (·.digest)).getD 0) s with
        | some (s, t, r) => setFlow x.1 { x.2 with state := .opened, txKey := t, rxKey := r } s
        | none => recordOpen x.2.owner .quota gone) s

/-- A handshake fails (R435): nothing is installed; a hop handshake is a failed training, a pair handshake ends the opens with DENIED. -/
def hsFail (hop : Option StraitId) (peer : Device) (s : State) : State :=
  let s := { s with fab := { s.fab with hsFailures := s.fab.hsFailures + 1 } }
  match hop with
  | some k => trainFail k s
  | none => endOpening peer .denied s

/-- KMAT of R434: `ssA` is the secret the opener encapsulated. -/
def hsKmat (hop : Bool) (ssA ssB transcript : Bytes) : Bytes :=
  Config.kmac256 (ssA ++ ssB) (digestBytes transcript) 512 (if hop then "JT480 HOP" else "JT480 PAIR")

/-- Put a key in place of one with the same tag. -/
def replaceKey (shared : Bool) (purpose tag : Nat) (value : Bytes) (s : State) : State × Nat :=
  let s := { s with keys := { s.keys with slots := s.keys.slots.filter (fun k => !(k.2.purpose = purpose && k.2.tag = tag)) } }
  match addKey shared (keyOf 0x40 purpose 0 tag 0x1FFF value) s with
  | some r => r
  | none => (s, 0x1FFF)

/-- The REQUEST of a recovery fetch, its encapsulation key in two segments (R596, R597). -/
def askImage (f : FetchRun) (s : State) : State :=
  let pub := Config.kemPublic f.kemSeed
  s.emitOver f.strait [.recovery f.strait 1 f.fetchId 0 0 (pub.take 1024), .recovery f.strait 1 f.fetchId 1 0 (pub.drop 1024)]

/-- A strait that comes up is the one that a recovery fetch waits for. -/
def askOver (k : StraitId) (s : State) : State :=
  match s.fw.fetch with
  | some f => if f.strait = some k ∧ f.ct = [] then askImage f s else s
  | none => s

/-- Hop keys are installed and the strait is UP, its hop flow open (R272, R275, R286). The handshake carries no strait number: PEER_STRAIT is a free value (log 3). -/
def installHop (k : StraitId) (peer : Device) (tx rx : Bytes) (s : State) : State :=
  let (s, i) := replaceKey false 0x16 (hopTag k.val false) tx s
  let (s, j) := replaceKey false 0x16 (hopTag k.val true) rx s
  let n := Config.freeNat s.free % 18
  let s := { s with free := s.free + 1 }
  let s := s.updStrait k (fun x => { x with link := .up, peer := peer, peerStrait := BitVec.ofNat 8 n, trainFails := 0 })
  askOver k (setFlow k.val { peer := peer, peerFlow := n, owner := 0x40, txKey := i, rxKey := j, classes := [7, 8, 9], state := .opened, used := frameNow s } s)

/-- Pair keys are installed where two shared slots are free; otherwise nothing is, and the opens end with QUOTA (R432, R436). -/
def installPair (peer : Device) (fw : BitVec 512) (tx rx : Bytes) (s : State) : State :=
  let s := { s with keys := { s.keys with slots := s.keys.slots.filter (fun k => !(k.2.purpose = 0x17 && k.2.tag / 2 = peer.toNat)) } }
  if sharedFree s.keys < 2 then endOpening peer .quota s
  else
    let (s, _) := replaceKey true 0x17 (pairTag peer false) tx s
    let (s, _) := replaceKey true 0x17 (pairTag peer true) rx s
    settleOpening peer { s with keys := { s.keys with peerFw := alSet peer.toNat fw s.keys.peerFw } }

/-- The keys of a finished handshake: bytes 0 to 31 from the opener, 32 to 63 to it (R434). -/
def installKeys (hop : Option StraitId) (opener : Bool) (peer : Device) (fw : BitVec 512) (kmat : Bytes) (s : State) : State :=
  let ab := slice kmat 0 32
  let ba := slice kmat 32 32
  let (tx, rx) := if opener then (ab, ba) else (ba, ab)
  match hop with
  | some k => installHop k peer tx rx s
  | none => installPair peer fw tx rx s

/-- A HELLO at the end with the higher unit ID (R434): it answers with REPLY, or fails. An end with the lower ID is itself the opener and leaves the message. -/
def helloIn (h : Handshake) (s : State) : State :=
  if Config.unitId.toNat ≤ h.unit.toNat then s
  else if !peerOk s h then hsFail h.hop h.device s
  else
    let (n, s) := s.entropy
    let nonce := BitVec.ofNat 256 (leNat n)
    let (ct, ss) := Config.kemEncaps h.kemPub s.free
    let s := { s with free := s.free + 1 }
    let t := peerHello h ++ ownHello s h.hop.isSome nonce ++ ct
    let sig := Config.dsaSign identitySeed "" (digestBytes t)
    let x : HsState := { hop := h.hop, opener := false, peer := h.device, peerCert := h.cert, peerDebug := h.debugOpen, peerFw := h.fwDigest, ss := ss, transcript := t ++ sig }
    let s := dropHs false h.hop h.device s
    sendHandshake 1 h.hop h.device nonce ct sig (ownHello s h.hop.isSome nonce ++ ct ++ sig).length { s with fab := { s.fab with handshakes := x :: s.fab.handshakes } }

def execHello (h : Handshake) (s : State) : Res := need (hsOpen s h.hop) (helloIn h s)

/-- A signature over a transcript by the key that a certificate certifies. -/
def hsSigned (cert transcript sig : Bytes) : Bool :=
  match Config.certKey cert with | some pub => Config.dsaVerify pub "" (digestBytes transcript) sig | none => false

/-- A REPLY at the opener (R434): FINISH and the keys, or failure. Without a HELLO of ours it is left. -/
def replyIn (h : Handshake) (s : State) : State :=
  match findHs s true h.hop h.device with
  | none => s
  | some x =>
    let s := dropHs true h.hop h.device s
    let t := x.transcript ++ peerHello h ++ h.ct
    if h.unit.toNat ≤ Config.unitId.toNat ∨ !peerOk s h ∨ !hsSigned h.cert t h.sig then hsFail h.hop h.device s
    else
      let (ct, ssA) := Config.kemEncaps h.kemPub s.free
      let s := { s with free := s.free + 1 }
      let t := t ++ h.sig ++ ct
      let sig := Config.dsaSign identitySeed "" (digestBytes t)
      let kmat := hsKmat h.hop.isSome ssA (Config.kemDecaps kemSeed h.ct) (t ++ sig)
      installKeys h.hop true h.device h.fwDigest kmat (sendHandshake 2 h.hop h.device 0 ct sig (ct ++ sig).length s)

def execReply (h : Handshake) (s : State) : Res := need (hsOpen s h.hop) (replyIn h s)

/-- A FINISH at the responder (R434): the keys, or failure. Without a REPLY of ours it is left. -/
def finishIn (h : Handshake) (s : State) : State :=
  match findHs s false h.hop h.device with
  | none => s
  | some x =>
    let s := dropHs true h.hop h.device (dropHs false h.hop h.device s)
    let t := x.transcript ++ h.ct
    if !hsSigned x.peerCert t h.sig then hsFail h.hop h.device s
    else installKeys h.hop false h.device x.peerFw (hsKmat h.hop.isSome (Config.kemDecaps kemSeed h.ct) x.ss (t ++ h.sig)) s

def execFinish (h : Handshake) (s : State) : Res := need (hsOpen s h.hop) (finishIn h s)

/-! Importing tenant keys (R438, R439). -/

/-- Tenant keys may be imported and partitions created: the life-cycle state allows it, no transition waits for reset, and debug is neither opening nor open outside MAKER (R462, R464, R471, R476). -/
def tenantKeysOn (s : State) : Bool := s.life.force ≤ 3 && s.life.force ≠ 0 && !s.life.waitReset && (s.life.dbg.toNat < 2 || s.life.force = 1)

/-- The fields of an import blob (R438). -/
structure ImportBlob where
  op : Nat
  part : Nat
  session : Nat
  nonce : BitVec 256
  ct : Bytes
  wrapped : Bytes
  tag : Bytes
deriving DecidableEq, Repr

def importBlob (b : Bytes) : ImportBlob :=
  { op := leNat (slice b 4 1), part := leNat (slice b 5 1), session := leNat (slice b 6 1), nonce := BitVec.ofNat 256 (leNat (slice b 8 32)),
    ct := slice b 40 1568, wrapped := slice b 1608 32, tag := slice b 1640 16 }

/-- The layout's fixed values hold. -/
def importForm (b : Bytes) : Bool :=
  let x := importBlob b
  b.length = 1656 && leNat (slice b 0 4) = 1 && leNat (slice b 7 1) = 0 && 1 ≤ x.op && x.op ≤ 3 && x.part < 64 && (if x.op = 3 then x.session ≤ 0xFE else x.session = 0xFF)

/-- The secret that a blob carries, where decapsulation and the GCM check pass (R438, R439). -/
def importSecret (b : Bytes) : Option Bytes :=
  let x := importBlob b
  Config.gcmOpen (Config.kmac256 (Config.kemDecaps kemSeed x.ct) (unitIdBytes ++ slice b 4 36) 256 "JT480 IMPORT") 0 (slice b 0 40) x.wrapped x.tag

/-- The OP suits the partition and the requester (R439, 4). -/
def importSuits (s : State) (q : Req) (x : ImportBlob) (p : PartId) : Bool :=
  match x.op with
  | 1 => s.parts[p].state = .created
  | 2 => s.parts[p].state = .active && !s.parts[p].rotating && isTenant s q p
  | _ => s.parts[p].state = .active && s.parts[p].cls = 2 && (s.keys.slots.find? (fun k => k.2.owner = p.val && k.2.purpose = 3)).isNone && isTenant s q p

/-- A TENANT session of `p`, bound or not (R559). -/
def tenantOf (s : State) (q : Req) (p : PartId) : Bool :=
  roleOf s q = .tenant && (match findSess s q with | some x => x.part = some p | none => false)

/-- Secret and memory key go into two shared slots; none where they find no room. -/
def putSecret (p : PartId) (ps pm epoch : Nat) (secret mem : Bytes) (s : State) : Option State :=
  match addKey true (keyOf p.val ps epoch 0 0x1FFF secret) s with
  | some (s, i) => (addKey true (keyOf p.val pm epoch 0 i mem) s).map (·.1)
  | none => none

/-- Unbound tenant sessions end when the partition becomes ACTIVE (R559). -/
def endUnbound (p : PartId) (s : State) : State :=
  { s with dict := { s.dict with sessions := s.dict.sessions.filter (fun x => !(x.role = .tenant && !x.bound && x.part = some p)) } }

/-- Every backed page of the partition enters re-encryption with ROTATION, in ascending virtual address; a page that copies or is re-encrypted already follows when that ends (R408, R418). -/
def startRotation (p : PartId) (v : VM) : VM :=
  let e := v.parts[p].epoch.toNat
  v.mem.pages[p].foldl (fun v x =>
    if x.2.loc = .unbacked ∨ (v.parts[p].cls = 2 ∧ x.2.param) ∨ (v.region p x.1).rekeying ∨ v.migrating p x.1 then v else v.enterRekey p x.1 .rotation e) v

/-- The three imports on success (R439, R440, R442). -/
def importDone (x : ImportBlob) (p : PartId) (secret : Bytes) (s : State) : Option State :=
  let (salt, s) := s.entropy
  match x.op with
  | 1 => (putSecret p 1 2 0 secret (partitionMemory secret salt p.val 0) s).map (fun s =>
      endUnbound p (s.updPart p (fun y => { y with epoch := 0, state := .active, keyId := keyIdOf secret p.val })))
  | 2 =>
    let e := (s.parts[p].epoch.toNat + 1) % 256
    (putSecret p 1 2 e secret (partitionMemory secret salt p.val e) s).map (fun s =>
      let s := s.updPart p (fun y => { y with epoch := BitVec.ofNat 8 e, keyId := keyIdOf secret p.val, rotating := true })
      s.putVM (startRotation p s.vm))
  | _ => (putSecret p 3 4 0 secret (jointMemory secret salt p.val x.session) s).map (fun s =>
      s.updPart p (fun y => { y with jointSession := BitVec.ofNat 8 x.session, jointKeyId := keyIdOf secret p.val }))

/-- The nonce is used up (R439). -/
def useNonce (n : BitVec 256) (s : State) : State :=
  { s with keys := { s.keys with nonces := s.keys.nonces.map (fun x => if x.1 = n then (x.1, true) else x) } }

/-- A write of KEY_IMPORT (R438, R439). Its result stands in OP_STATUS of the partition that it names. -/
def opKeyImport (q : Req) (b : Bytes) (s : State) : State × Status :=
  let x := importBlob b
  match partOf x.part with
  | none => (s, .denied)
  | some p =>
    let may := served s 0x8002 && (isOperator s q || tenantOf s q p)
    if !may ∨ !importForm b then (s, .denied)
    else
      let fresh := s.keys.nonces.contains (x.nonce, false)
      let s := useNonce x.nonce s
      let r : State × Status :=
        if !tenantKeysOn s ∨ !fresh ∨ !importSuits s q x p then (s, .denied)
        else match importSecret b with
          | none => (s, .denied)
          | some secret =>
            if !roomFor s p 2 then (s, .quota)
            else match importDone x p secret s with
              | some s => (s, .done)
              | none => (s, .quota)
      (r.1.updPart p (fun y => { y with opStatus := BitVec.ofNat 8 r.2.code }), r.2)

/-- A blob of the OP that the command stands for. -/
def blobOp (b : Bytes) (op : Nat) : Bool := (importBlob b).op = op

def execPartitionKey (q : Req) (b : Bytes) (s : State) : Res := if blobOp b 1 then software s (answer q (opKeyImport q b s)) else .fault .noCause
def execRotate (q : Req) (b : Bytes) (s : State) : Res := if blobOp b 2 then software s (answer q (opKeyImport q b s)) else .fault .noCause
def execJointKey (q : Req) (b : Bytes) (s : State) : Res := if blobOp b 3 then software s (answer q (opKeyImport q b s)) else .fault .noCause

/-- A write of SLOT_QUERY_ID (R431): a TENANT names only slots of its own partition. -/
def opSlotQuery (q : Req) (id : BitVec 16) (s : State) : State × Status :=
  let mine := match findSess s q, alGet id.toNat s.keys.slots with
    | some x, some k => roleOf s q = .tenant && x.bound && (x.part.map (·.val)) = some k.owner
    | _, _ => false
  guarded s 0x8010 (id.toNat < 4096 && (isOperator s q || mine)) (updPer q (fun x => { x with slotQuery := id }) s, .done)
def execSlotQuery (q : Req) (id : BitVec 16) (s : State) : Res := software s (answer q (opSlotQuery q id s))

end Sys2Proof.Machine
end

