-- ==== Sys2Proof/Machine/Parts.lean ====
section
/-!
DEFINITION. Machine/Parts.lean: quotas, CREATE, removal and its completion (R425 to R429, R450 to R457), and the opening of debug that waits for the last removal (R475, R476).
-/

namespace Sys2Proof.Machine

/-! Quotas (R426, R428). -/

/-- T1_USABLE_BYTES (R245, R587): 32 GiB for each stack that works. -/
def t1Usable (s : State) : Nat := (24 - s.mem.stacksFailed.length) * 32 * 2 ^ 30

/-- The partition's written values count towards the next step 4 (R428). -/
def countsNext (x : Part) : Bool := x.state ≠ .free || x.createPending

/-- The bitmap meets no other counted partition's, and names no lost array (R428, R502). -/
def bitmapFits (s : State) (p : PartId) (b : BitVec 128) : Bool :=
  allParts.all (fun k => k = p || !countsNext s.parts[k] || s.parts[k].written.bitmap &&& b = 0) && (s.ras.lost ++ s.ras.lostPending).all (fun a => !b.getLsbD a)
/-- The T1 quotas of all counted partitions stay within what the module has. -/
def t1Fits (s : State) (p : PartId) (q : Nat) : Bool :=
  ((allParts.filter (fun k => k ≠ p && countsNext s.parts[k])).map (fun k => s.parts[k].written.t1.toNat)).foldl (· + ·) q + privBytes s + s.mem.lendBytes.toNat ≤ t1Usable s

/-- A value in its type and range; whether it suits the others is asked only of a partition that counts. -/
def quotaOk (s : State) (p : PartId) (sub : Byte) (v : Bytes) : Bool :=
  let n := leNat v
  let counted := countsNext s.parts[p]
  match sub.toNat with
  | 0x01 => v.length = 1 && n ≤ 2 && s.parts[p].state = .free
  | 0x02 => v.length = 16 && (!counted || bitmapFits s p (BitVec.ofNat 128 n))
  | 0x03 => v.length = 8 && (!counted || t1Fits s p n)
  | 0x04 => v.length = 8
  | 0x05 => v.length = 2
  | 0x06 => v.length = 4 && n ≤ 262125
  | 0x07 => v.length = 2 && 4 ≤ n && n ≤ 3840
  | _ => false

def setQuota (sub : Byte) (n : Nat) (x : Part) : Part :=
  match sub.toNat with
  | 0x01 => { x with cls := BitVec.ofNat 8 n }
  | 0x02 => { x with written := { x.written with bitmap := BitVec.ofNat 128 n } }
  | 0x03 => { x with written := { x.written with t1 := BitVec.ofNat 64 n } }
  | 0x04 => { x with written := { x.written with t2 := BitVec.ofNat 64 n } }
  | 0x05 => { x with written := { x.written with share := BitVec.ofNat 16 n } }
  | 0x06 => { x with written := { x.written with flows := BitVec.ofNat 32 n } }
  | 0x07 => { x with written := { x.written with slots := BitVec.ofNat 16 n } }
  | _ => x

/-- A write of CLASS or of a quota: it stands at once, and takes effect at the next step 4. -/
def opQuota (q : Req) (p : PartId) (sub : Byte) (v : Bytes) (s : State) : State × Status :=
  guarded s (0x3000 + p.val) (isOperator s q && s.parts[p].state ≠ .removing && quotaOk s p sub v) (s.updPart p (setQuota sub (leNat v)), .done)
def execQuotaWrite (q : Req) (p : PartId) (sub : Byte) (v : Bytes) (s : State) : Res := software s (answer q (opQuota q p sub v s))

/-- OP_STATUS takes the status of the operation. -/
def setPartStatus (p : PartId) (r : State × Status) : State × Status := (r.1.updPart p (fun x => { x with opStatus := BitVec.ofNat 8 r.2.code }), r.2)

/-! CREATE (R427, R428). -/

/-- CREATE of a FREE partition whose written values fit; carried out at the next step 4. -/
def doCreate (p : PartId) (s : State) : State × Status :=
  if tenantKeysOn s ∧ s.parts[p].state = .free ∧ bitmapFits s p s.parts[p].written.bitmap ∧ t1Fits s p s.parts[p].written.t1.toNat then
    (s.updPart p (fun x => { x with createPending := true }), .done)
  else (s, .denied)

def opCreate (q : Req) (p : PartId) (s : State) : State × Status := guarded s (0x3000 + p.val) (isOperator s q) (setPartStatus p (doCreate p s))
def execCreate (q : Req) (p : PartId) (s : State) : Res := software s (answer q (opCreate q p s))

/-- The partition becomes CREATED at step 4: its window is zero, its GEN inverted (R519), its correction at the start (R221), its rings at their defaults. -/
def becomeCreated (p : PartId) (s : State) : State :=
  { s with
    parts := modVec s.parts p (fun x => { x with state := .created, createPending := false, force := x.written, gen := !x.gen, removal := none }),
    rings := modVec s.rings p (fun _ => Vector.replicate 16 {}),
    mem := { s.mem with window := modVec s.mem.window p (fun _ => []), winPoison := modVec s.mem.winPoison p (fun _ => []) },
    gov := { s.gov with correction := modVec s.gov.correction p (fun _ => 16384) } }

/-! REMOVE (R450, R451). -/

/-- A tick that finds no progress of its own. -/
def noTick : TickIn :=
  { temps := [], recordArrived := false, hubEstimate := 0, lengthUs := 0, waits := [], reached := [], attributed := [], baseAttributed := 0, moved := [], clocks := [], scrub := [] }

/-- The partition's running slices are aborted with their records, the last writes under its keys. -/
def abortSlices (p : PartId) (s : State) : State := allRings.foldl (fun s r => abortRun p r .keyRevoked noTick s) s

/-- Fetches, copies, granule moves, releases and the rotation of the partition stop (R268, R420). -/
def stopMemory (p : PartId) (m : Mem) : Mem :=
  { m with fetches := m.fetches.filter (fun f => f.part ≠ p), migrations := m.migrations.filter (fun q => q.part ≠ p), moves := m.moves.filter (fun g => g.1 ≠ p) }

/-- Aperture entries that name the partition are INVALID from now on. -/
def voidAperture (p : PartId) (f : Fabric) : Fabric :=
  { f with aperture := f.aperture.map (fun e => let a := aptFields e.2.raw; if a.kind = 2 ∧ a.part = p.val ∧ a.device = f.idInForce then (e.1, { e.2 with voided := true }) else e) }

/-- The revocation: one step before the dictionary answers. The partition's slices end at once (R451), not at the next tick as R158 has it (notes/assumptions/103.md). -/
def startRemoval (p : PartId) (forced : Bool) (s : State) : State :=
  let n := (allRings.filter (fun r => (s.rings[p][r].run).isSome)).length
  let s := closeRanksOf p (abortSlices p s)
  let s := revokeFlows (fun x => x.owner = p.val) s
  let s := { s with
    parts := modVec s.parts p (fun x => { x with state := .removing, createPending := false, releases := [], rotating := false,
                                                 removal := some { requestFrame := frameNow s, aborted := n, dropped := 0, forced := forced } }),
    rings := modVec s.rings p (fun v => v.map (fun r => { r with enable := false, owed := none, closing := none })),
    keys := { s.keys with slots := s.keys.slots.map (fun k => if k.2.owner = p.val then (k.1, { k.2 with revoked := true }) else k) },
    dict := { s.dict with sessions := s.dict.sessions.map (fun x => if x.role = .tenant ∧ x.part = some p then { x with revoked := true } else x) },
    mem := stopMemory p s.mem,
    fab := voidAperture p s.fab,
    gov := { s.gov with admission := s.gov.admission.map (fun a => { a with rest := a.rest.filter (fun c => c.part ≠ p) }) } }
  sendEvent 4 p.val s

/-- REMOVE; a second one while the removal runs has no further effect (R454). -/
def doRemove (p : PartId) (s : State) : State × Status :=
  match s.parts[p].state with
  | .free => (s, .denied)
  | .removing => (s, .done)
  | _ => (startRemoval p false s, .done)

def opRemove (q : Req) (p : PartId) (s : State) : State × Status := guarded s (0x3000 + p.val) (opOrTenant s q p) (setPartStatus p (doRemove p s))
def execRemove (q : Req) (p : PartId) (s : State) : Res := software s (answer q (opRemove q p s))

/-! Completion (R452, R455). -/

/-- No access of the partition is in flight. -/
def accessesDone (s : State) (p : PartId) : Bool := s.mem.waits.all (fun w => w.part ≠ p) && s.mem.regions[p].all (fun r => r.2.inFlight = 0 && r.2.inFlightOld = 0)

/-- The 256 bits of a removal record. -/
def removalWord (x : Removal) (done pages slots : Nat) : BitVec 256 :=
  BitVec.ofNat 256 (x.requestFrame % 2 ^ 64 * 2 ^ 192 + done % 2 ^ 64 * 2 ^ 128 + x.aborted % 2 ^ 32 * 2 ^ 96 + x.dropped % 2 ^ 32 * 2 ^ 64 + pages % 2 ^ 32 * 2 ^ 32 +
    slots % 2 ^ 16 * 2 ^ 16 + (if x.forced then Status.keyRevoked.code else 0))

/-- Page tables, region records, counter slots, frames and T2 slots of the partition are given back. -/
def freePages (p : PartId) (s : State) : State :=
  let v := (s.mem.pages[p].map (·.1)).foldl (fun v page => v.unback p page) s.vm
  let s := s.putWrites v
  { s with mem := { s.mem with pages := modVec s.mem.pages p (fun _ => []), tables := modVec s.mem.tables p (fun _ => []), tlb := s.mem.tlb.filter (fun x => x.2.1 ≠ p), regions := modVec s.mem.regions p (fun _ => []),
                               window := modVec s.mem.window p (fun _ => []), winPoison := modVec s.mem.winPoison p (fun _ => []) } }

/-- DBG_STATE becomes OPEN when the last removal completes (R476). -/
def openDebug (s : State) : State :=
  if s.life.dbg = 2 ∧ allParts.all (fun p => s.parts[p].state = .free) then { s with life := { s.life with dbg := 3 } } else s

/-- The removal completes at step 4 of the tick that begins frame `done`. -/
def finishRemoval (p : PartId) (done : Nat) (s : State) : State :=
  match s.parts[p].removal with
  | none => s
  | some x =>
    let pages := (s.mem.pages[p].filter (fun q => q.2.loc ≠ .unbacked)).length
    let slots := (s.keys.slots.filter (fun k => k.2.owner = p.val)).length
    let s := { s with keys := { s.keys with slots := s.keys.slots.filter (fun k => k.2.owner ≠ p.val) } }
    let s := freePages p s
    let s := { s with
      parts := modVec s.parts p (fun y => { gen := y.gen, removalRecord := removalWord x done pages slots, live := y.live, latched := y.latched, events := y.events, eventsLatched := y.eventsLatched,
                                            poisonedSectors := y.poisonedSectors, poisonedLatched := y.poisonedLatched, latchedFrame := y.latchedFrame }),
      rings := modVec s.rings p (fun _ => Vector.replicate 16 {}),
      mem := { s.mem with casWaits := s.mem.casWaits.filter (fun c => match getFlow s c.1 with | some f => f.owner ≠ p.val | none => false) },
      fab := { s.fab with flows := s.fab.flows.filter (fun f => f.2.owner ≠ p.val) } }
    openDebug s

/-- The part of step 4 that completes one removal, ahead of the rest of its tick. -/
def execRemovalComplete (p : PartId) (s : State) : Res :=
  need (s.tick.joined && s.parts[p].state = .removing && s.parts[p].removal.isSome && accessesDone s p) (finishRemoval p (frameNow s + 1) s)

/-- Every removal that can complete does, at step 4. -/
def finishRemovals (done : Nat) (s : State) : State :=
  allParts.foldl (fun s p => if s.parts[p].state = .removing ∧ accessesDone s p then finishRemoval p done s else s) s

end Sys2Proof.Machine
end

