-- ==== Sys2Proof/Machine/Life.lean ====
section
/-!
DEFINITION. Machine/Life.lean: the life-cycle word and its transitions (R462 to R473), the identity certificate and the operator key (R462, R469), and debug (R474 to R481).
-/

namespace Sys2Proof.Machine

/-! The word (R465 to R467). -/

/-- The ones of byte `i` of the word: step bytes 0 to 3, intent bytes 4 to 7, INTEGRATOR first. -/
def lcOnes (w : BitVec 64) (i : Nat) : Nat := popCount 8 ((w.toNat / 2 ^ (8 * i)) % 256)

/-- The state: the highest one whose step byte reads SET or PARTIAL, or MAKER. -/
def lcState (w : BitVec 64) : Nat := if 3 ≤ lcOnes w 3 then 5 else if 3 ≤ lcOnes w 2 then 4 else if 3 ≤ lcOnes w 1 then 3 else if 3 ≤ lcOnes w 0 then 2 else 1
/-- LC_INTENT: the highest target whose intent byte reads SET; 0 for none. -/
def lcIntent (w : BitVec 64) : Nat := if 5 ≤ lcOnes w 7 then 5 else if 5 ≤ lcOnes w 6 then 4 else if 5 ≤ lcOnes w 5 then 3 else if 5 ≤ lcOnes w 4 then 2 else 0

/-- The intent byte of a target. -/
def intentMask (t : Nat) : BitVec 64 := if 2 ≤ t ∧ t ≤ 5 then BitVec.ofNat 64 (255 * 2 ^ (32 + 8 * (t - 2))) else 0
/-- Every step byte up to a target's. -/
def stepMask (t : Nat) : BitVec 64 := if 2 ≤ t ∧ t ≤ 5 then BitVec.ofNat 64 (2 ^ (8 * (t - 1)) - 1) else 0
/-- The first `n` bits that the steps of a target program, in ascending order. -/
def stepBits (t n : Nat) : BitVec 64 := stepMask t &&& BitVec.ofNat 64 (2 ^ n - 1)

/-- A target is the next state, or SCRAPPED from any other (R467). -/
def lcPermitted (state target : Nat) : Bool := (target = state + 1 || target = 5) && state < target && target ≤ 5

/-! Conditions of R470. -/

/-- The certificate in flash certifies this module's identity key. -/
def certified (s : State) : Bool := Config.certKey s.life.cert = some (Config.dsaPublic identitySeed)
def allFree (s : State) : Bool := allParts.all (fun p => s.parts[p].state = .free)

/-- Condition 3: the signer and its signature. -/
def lcSigned (x : SignedReq) : Bool := x.format = 1 && x.reservedZero && x.signed Config.otpLifeCycleDigest "JT480 LIFE CYCLE"

/-- Condition 6. -/
def lcReady (s : State) (target : Nat) : Bool :=
  match target with
  | 2 => certified s
  | 3 => s.life.operatorDigest ≠ 0
  | 4 => allFree s
  | 5 => allFree s
  | _ => false

/-- In RECOVERY only the target of the intent may be named (R472). -/
def lcAccepts (s : State) (x : SignedReq) : Bool :=
  s.life.running.isNone && !s.life.waitReset && s.life.dbg ≠ 2 && lcSigned x && x.unit = Config.unitId && s.life.nonce ≠ 0 && x.nonce = s.life.nonce &&
  lcPermitted (lcState s.life.word) x.target && lcReady s x.target && (s.pow.mod ≠ .recovery || x.target = lcIntent s.life.word)

/-! LC_OP and LC_REQUEST (R469 to R471, R481). -/

/-- LC_OP is heard: no transition runs or waits for reset. -/
def lcOpen (s : State) : Bool := s.life.running.isNone && !s.life.waitReset

/-- LC_STATUS takes a denial, unless a running transition holds it. -/
def lcDeny (s : State) : State × Status := ((if s.life.running.isSome then s else { s with life := { s.life with status := 0x60 } }), .denied)

/-- NEW_NONCE. -/
def doNewNonce (s : State) : State × Status :=
  if lcOpen s then ({ s with life := { s.life with nonce := Config.entropy s.free, status := 0 }, free := s.free + 1 }, .done) else lcDeny s
def opNewNonce (q : Req) (s : State) : State × Status := guarded s 0xA001 (opOrMaker s q || s.pow.mod = .recovery) (doNewNonce s)
def execNewNonce (q : Req) (s : State) : Res := software s (answer q (opNewNonce q s))

/-- TRANSITION: the request is stored, its intent byte programmed, and a request for FIELDED or beyond delivered to the Lighthouse (R470, R532). A failure uses up the nonce. -/
def doTransition (s : State) : State × Status :=
  let x := signedReq s.life.request
  if lcAccepts s x then
    let s := { s with life := { s.life with running := some x.target, status := 1, nonce := 0, flashRequest := s.life.request, word := s.life.word ||| intentMask x.target } }
    ((if 3 ≤ x.target then (sealBy s.life.request s).emit [.lhRequest s.life.request] else s), .done)
  else lcDeny (if lcOpen s then { s with life := { s.life with nonce := 0 } } else s)
def opTransition (q : Req) (s : State) : State × Status := guarded s 0xA001 (opOrMaker s q || s.pow.mod = .recovery) (doTransition s)
def execTransition (q : Req) (s : State) : Res := software s (answer q (opTransition q s))

/-- Every step byte stands (R470 step 5, R471). -/
def programmed (t : Nat) (s : State) : State :=
  { s with life := { s.life with word := s.life.word ||| intentMask t ||| stepMask t, running := none, waitReset := true, status := 0 } }

def execTransitionProgrammed (s : State) : Res :=
  match s.life.running with
  | some t => need s.pow.mgmtUp (programmed t s)
  | none => .fault .noCause

/-- A transition that a reset or a loss of power cuts short: its intent stands, and some of its step bits, in order; how many is a free value (R472). -/
def cutTransition (s : State) : State :=
  match s.life.running with
  | some t => { s with life := { s.life with word := s.life.word ||| stepBits t (Config.freeNat s.free % (8 * (t - 1))), running := none }, free := s.free + 1 }
  | none => s

/-- LC_REQUEST is staged for the next TRANSITION. -/
def opLcRequest (q : Req) (b : Bytes) (s : State) : State × Status :=
  guarded s 0xA001 ((opOrMaker s q || s.pow.mod = .recovery) && b.length = 7275) ({ s with life := { s.life with request := b } }, .done)

/-! Boot step 2 (R463, R466, R472, R532). -/

/-- The boot ROM programs the missing bits of the bytes at and below the state. -/
def mendWord (w : BitVec 64) : BitVec 64 := w ||| stepMask (lcState w)

/-- The stored request proves the transition that its intent names (conditions 3, 4 and 5 of R470). -/
def storedOk (s : State) (t : Nat) : Bool :=
  let x := signedReq s.life.flashRequest
  lcSigned x && x.unit = Config.unitId && x.target = t && lcPermitted (lcState s.life.word) t

/-- The word as the boot ROM leaves it; none where it halts. The flag: this boot completed a transition. -/
def bootWord (s : State) : Option (BitVec 64 × Bool) :=
  let w := s.life.word
  let t := lcIntent w
  if lcState w < t then (if storedOk s t then some (w ||| intentMask t ||| stepMask t, true) else none) else some (mendWord w, false)

/-- What a reset takes from the life-cycle and debug objects: nonces, staged blobs, statuses, and debug (R469, R478, R479). -/
def Life.reset (x : Life) : Life := { word := x.word, flashRequest := x.flashRequest, cert := x.cert, operatorDigest := x.operatorDigest, force := x.force }

/-- Boot step 2: a transition is completed, the state comes into force, the Lighthouse is delivered what it has missed. The flag: the boot ROM goes on. -/
def bootLife (s : State) : State × Bool :=
  let s := { s with life := s.life.reset }
  match bootWord s with
  | some (w, done) =>
    let s := { s with life := { s.life with word := w, recovered := done, force := lcState w } }
    let s := if 3 ≤ lcState w ∧ !s.lh.sealed then (sealBy s.life.flashRequest s).emit [.lhRequest s.life.flashRequest] else s
    (s, true)
  | none => ({ s with life := { s.life with status := 0x60, force := lcState s.life.word } }, false)

/-! Readouts (R469, R473). -/

/-- Some byte of the word is neither clear nor full. -/
def weakBits (w : BitVec 64) : Bool := (List.range 8).any (fun i => lcOnes w i ≠ 0 && lcOnes w i ≠ 8)

def fuseSummary (s : State) : Bytes :=
  let st := lcState s.life.word
  leBytes 1 st ++ leBytes 1 (lcIntent s.life.word) ++ leBytes 1 (bitsNat [4 ≤ st, s.life.operatorDigest ≠ 0, certified s, s.life.recovered, weakBits s.life.word]) ++ zeros 1 ++
  leBytes 8 s.life.word.toNat ++ zeros 4 ++ leBytes 16 s.life.operatorDigest.toNat

/-! The certificate and the operator key (R462, R469, R559). -/

def opCertWrite (q : Req) (b : Bytes) (s : State) : State × Status :=
  guarded s 0xA004 (isMaker s q && s.life.force = 1 && b.length = 8192) ({ s with life := { s.life with cert := b } }, .done)
def execCertWrite (q : Req) (b : Bytes) (s : State) : Res := software s (answer q (opCertWrite q b s))

/-- The enrolling session writes the digest of the key that it proved, once, in INTEGRATOR, and goes on as a full OPERATOR session (R559). -/
def opEnrol (q : Req) (d : BitVec 512) (s : State) : State × Status :=
  guarded s 0xA005 (roleOf s q = .enrol && s.life.force = 2 && s.life.operatorDigest = 0 && d ≠ 0 && (match findSess s q with | some x => Config.sha3 x.ownKey = d | none => false))
    (updSess q (fun x => { x with role := .operator }) { s with life := { s.life with operatorDigest := d } }, .done)
def execOperatorKeyEnrol (q : Req) (d : BitVec 512) (s : State) : Res := software s (answer q (opEnrol q d s))

/-! Debug (R474 to R477). -/

/-- DBG_OP is heard: debug is not opening, no transition runs or waits, the unit is not SCRAPPED. -/
def dbgOpen (s : State) : Bool := lcOpen s && s.life.dbg ≠ 2 && s.life.force ≠ 5

def setDbg (r : State × Status) : State × Status := ({ r.1 with life := { r.1.life with dbgStatus := BitVec.ofNat 8 r.2.code } }, r.2)

/-- Erase the DEBUG slot and its copy. -/
def eraseChallenge (s : State) : State :=
  { s with life := { s.life with challenge := 0, dbg := if s.life.dbg = 1 then 0 else s.life.dbg }, keys := { s.keys with slots := s.keys.slots.filter (fun k => k.2.purpose ≠ 0x1B) } }

/-- CHALLENGE: a fresh nonce into the DEBUG slot and DBG_CHALLENGE. Debug that is open stays open. -/
def doChallenge (s : State) : State × Status :=
  if dbgOpen s then
    let (n, s) := s.entropy
    let s := setModuleKey 0x40 0x1B 0 n s
    ({ s with life := { s.life with challenge := BitVec.ofNat 256 (leNat n), dbg := if s.life.dbg = 3 then 3 else 1 } }, .done)
  else (s, .denied)
def opChallenge (q : Req) (s : State) : State × Status := guarded s 0xA002 (opOrMaker s q) (setDbg (doChallenge s))
def execChallenge (q : Req) (s : State) : Res := software s (answer q (opChallenge q s))

/-- The response opens debug: the slot's nonce, this unit, the debug key. In MAKER none is needed. -/
def responseOk (s : State) : Bool :=
  let x := signedReq s.life.response
  s.life.force = 1 || (s.life.challenge ≠ 0 && x.format = 2 && x.target = 0 && x.reservedZero && x.unit = Config.unitId && x.nonce = s.life.challenge && x.signed Config.otpDebugDigest "JT480 DEBUG")

/-- An accepted OPEN (R476): every partition is removed, pair and session keys are revoked with their flows, and debug opens at the step 4 at which the last removal completes. -/
def beginDebug (s : State) : State :=
  let s := eraseChallenge s
  let s := { s with life := { s.life with dbg := 2 } }
  let s := allParts.foldl (fun s p => if s.parts[p].state = .created ∨ s.parts[p].state = .active then startRemoval p true s
                                      else if s.parts[p].createPending then s.updPart p (fun x => { x with createPending := s.life.force = 1 }) else s) s
  let s := { s with keys := { s.keys with slots := s.keys.slots.map (fun k => if k.2.purpose = 0x17 ∨ k.2.purpose = 0x18 then (k.1, { k.2 with revoked := true }) else k) } }
  revokeFlows (fun x => x.state ≠ .free && (match alGet x.txKey s.keys.slots with | some k => k.purpose = 0x17 || k.purpose = 0x18 | none => false)) s

def doDebugOpen (s : State) : State × Status :=
  if !dbgOpen s ∨ s.life.dbg = 3 then (s, .denied)
  else if responseOk s then (beginDebug s, .done)
  else (eraseChallenge s, .denied)
def opDebugOpen (q : Req) (s : State) : State × Status := guarded s 0xA002 (opOrMaker s q) (setDbg (doDebugOpen s))
def execDebugOpen (q : Req) (s : State) : Res := software s (answer q (opDebugOpen q s))

/-- DBG_RESPONSE is staged for the next OPEN. -/
def opDbgResponse (q : Req) (b : Bytes) (s : State) : State × Status :=
  guarded s 0xA002 (opOrMaker s q && b.length = 7275) ({ s with life := { s.life with response := b } }, .done)

end Sys2Proof.Machine
end

