-- ==== Sys2Proof/Machine/Attest.lean ====
section
/-!
DEFINITION. Machine/Attest.lean: attestation reports (R445 to R448).
-/

namespace Sys2Proof.Machine

/-- FLAGS of a partition entry. -/
def entryFlags (s : State) (p : PartId) : Nat :=
  bitsNat [s.parts[p].hostGrant, s.parts[p].rotating, s.keys.slots.any (fun k => k.2.owner = p.val && k.2.purpose = 3)]

/-- PART_STATE as a code (R426). -/
def PartState.code : PartState → Nat | .free => 0 | .created => 1 | .active => 2 | .removing => 3

/-- The 80 bytes of a partition entry (R447). -/
def entryBytes (s : State) (p : PartId) : Bytes :=
  let x := s.parts[p]
  leBytes 1 p.val ++ leBytes 1 x.cls.toNat ++ leBytes 1 x.state.code ++ leBytes 1 (entryFlags s p) ++ leBytes 1 x.epoch.toNat ++ leBytes 1 x.jointSession.toNat ++
  leBytes 2 x.force.slots.toNat ++ leBytes 4 x.force.flows.toNat ++ leBytes 2 x.force.share.toNat ++ zeros 2 ++ leBytes 16 x.force.bitmap.toNat ++
  leBytes 8 x.force.t1.toNat ++ leBytes 8 x.force.t2.toNat ++ leBytes 16 (if x.state = .created then 0 else x.keyId.toNat) ++ leBytes 16 x.jointKeyId.toNat

/-- Version of the scan library, 0 while none is installed. -/
def libVersion (b : Bytes) : Nat := if b.isEmpty then 0 else leNat (slice b 4 4)

/-- A report without its signature (R446). -/
def reportBody (s : State) (nonce : BitVec 256) : Bytes :=
  let held := allParts.filter (fun p => s.parts[p].state ≠ .free)
  let n := held.length
  let lc := lcState s.life.word
  leBytes 4 1 ++ leBytes 4 (2032 + 80 * n + 4627) ++ unitIdBytes ++ leBytes 2 s.fab.deviceId.toNat ++ leBytes 1 lc ++ leBytes 1 (if s.life.dbg = 3 then 1 else 0) ++ leBytes 1 n ++ zeros 3 ++
  leBytes 8 (frameNow s) ++ leBytes 32 nonce.toNat ++ fuseSummary s ++ leBytes 64 Config.bootRomDigest.toNat ++ leBytes 64 (fwDigest s).toNat ++ leBytes 64 Config.lhFirmwareDigest.toNat ++
  leBytes 64 (Config.sha3 s.ras.library).toNat ++ leBytes 4 (libVersion s.ras.library) ++ zeros 4 ++ repairSummary s ++
  (if 4 ≤ lc then zeros 1568 else slice (Config.kemPublic kemSeed) 0 1568) ++ leBytes 64 (Config.sha3 (Config.dsaPublic identitySeed)).toNat ++ held.flatMap (entryBytes s)

/-- A report with its signature (R448). -/
def reportBytes (s : State) (nonce : BitVec 256) : Bytes :=
  let b := reportBody s nonce
  b ++ slice (Config.dsaSign identitySeed "JT480 ATTESTATION" (leBytes 64 (Config.sha3 b).toNat)) 0 4627

/-- OPERATOR and TENANT sessions have a request buffer (R445). -/
def mayAttest (s : State) (q : Req) : Bool := isOperator s q || roleOf s q = .tenant

/-- SIGN: ATT_STATUS reads PARTIAL until the signature stands. A second operation meanwhile is denied. -/
def opSign (q : Req) (s : State) : State × Status :=
  guarded s 0x8040 (mayAttest s q && (perOf s q).attPending.isNone)
    (updPer q (fun x => { x with attStatus := 1, attPending := some (reportBytes s x.attNonce) }) s, .done)
def execSign (q : Req) (s : State) : Res := software s (answer q (opSign q s))

/-- LOAD_CERT: the identity certificate from flash into the buffer. -/
def opLoadCert (q : Req) (s : State) : State × Status :=
  guarded s 0x8040 (mayAttest s q && (perOf s q).attPending.isNone) (updPer q (fun x => { x with attStatus := 0, attData := s.life.cert }) s, .done)
def execLoadCert (q : Req) (s : State) : Res := software s (answer q (opLoadCert q s))

/-- Nonces of the last 64 signed reports, newest first (R439, R448). -/
def addNonce (b : Bytes) (k : Keys) : Keys := { k with nonces := ((BitVec.ofNat 256 (leNat (slice b 40 32)), false) :: k.nonces).take 64 }

/-- The signature stands: the report is in the buffer, and its nonce joins the list. -/
def signDone (q : Req) (b : Bytes) (s : State) : State :=
  updPer q (fun x => { x with attStatus := 0, attData := b, attPending := none }) { s with keys := addNonce b s.keys }

def execSignComplete (sid : Nat) (s : State) : Res :=
  match (s.dict.sessions.find? (fun x => x.sid = sid && sid ≠ 0)).bind (fun x => x.vals.attPending) with
  | some b => need s.pow.mgmtUp (signDone { sid := sid, src := 0 } b s)
  | none => .fault .noCause

/-- ATT_DATA: bytes of the buffer from ATT_OFFSET on. -/
def attBytes (x : PerSession) : Bytes := slice x.attData x.attOffset.toNat 1024

end Sys2Proof.Machine
end

