-- ==== Sys2Proof/Machine/FrameTick.lean ====
section
/-!
DEFINITION. Machine/FrameTick.lean: the frame tick (R199, R208 to R210): the seven tick actions in order, with the quotas of step 4 (R223, R232, R428), the budget of step 6 (R212 to R214, R216) and the admission of step 7.
-/

namespace Sys2Proof.Machine

/-! Step 1: every live statistic is copied into its twin and restarts (R208, R209, R551). -/

def Part.latch (f : BitVec 64) (x : Part) : Part :=
  { x with latched := x.live, live := Vector.replicate 32 0, eventsLatched := x.events, events := Vector.replicate 128 0, poisonedLatched := x.poisonedSectors, poisonedSectors := 0, latchedFrame := f }
def Mem.latch (x : Mem) : Mem := { x with countersLatched := x.counters, counters := Vector.replicate 16 0 }
/-- RETRAINS is no live counter and goes on. -/
def Strait.latch (x : Strait) : Strait := { x with latched := x.counters, counters := (Vector.replicate 6 0).set 3 x.counters[3] }
def Session.latch (x : Session) : Session := { x with latched := x.counters, counters := Vector.replicate 6 0 }
def Dict.latch (x : Dict) : Dict :=
  { x with eventsLatched := x.events, events := Vector.replicate 128 0, countersLatched := x.counters, counters := Vector.replicate 8 0, sbLatched := x.sb, sb := Vector.replicate 3 0 }

def latchAll (s : State) : State :=
  { s with parts := s.parts.map (Part.latch s.tick.frame), mem := s.mem.latch, fab := { s.fab with straits := s.fab.straits.map Strait.latch },
           bind := { s.bind with sessions := s.bind.sessions.map (fun x => (x.1, x.2.latch)) }, dict := s.dict.latch,
           tick := { s.tick with latchedFrame := s.tick.frame } }

/-- The advisory attribution of the ended frame is part of its statistics (R536, R553). -/
def addEnergy (t : TickIn) (s : State) : State :=
  let s := t.attributed.foldl (fun s x => s.updPart x.1 (Part.count 0x13 x.2)) s
  { s with dict := { s.dict with counters := bump s.dict.counters 6 t.baseAttributed } }

/-! Work outstanding at the tick (R189, R208, R209). -/

/-- Every running slice ends. -/
def endAll (t : TickIn) (s : State) : State × List Closing :=
  (allParts.flatMap (fun p => allRings.map (fun r => (p, r)))).foldl (fun (a : State × List Closing) pr =>
    match endAttempt pr.1 pr.2 .overrun t a.1 with
    | (s, some c) => (s, a.2 ++ [c])
    | (s, none) => (s, a.2)) (s, [])

/-- The records of the ended slices. What their work counts belongs to the ended frame (R209), so they come ahead of the latch; no command reads memory or a twin between the two. -/
def closeAll (l : List Closing) (s : State) : State := l.foldl (fun s c => closeAttempt c s) s

/-! The frame number and the period (R199, R202, R204 to R206, R293). -/

/-- The strait that gave the smallest accumulated delay. -/
def nearest (l : List (StraitId × Nat)) : Option StraitId := (sortKey (fun x : StraitId × Nat => x.2) l).head?.map (·.1)

/-- The frame that begins: its number, its period, and the parent strait. What is left of a correction is worked off by 50 ns in each frame. -/
def advanceFrame (s : State) : State :=
  let t := s.tick
  let step := if t.heard.isEmpty then max (-50) (min 50 t.owedNs) else 0
  { s with tick := { t with frame := match t.adopt with | some n => BitVec.ofNat 64 n | none => t.frame + 1
                            ticks := t.ticks + 1
                            inForce := match t.nextPeriod with | some p => BitVec.ofNat 32 p | none => t.inForce
                            nextPeriod := if t.role = 1 then t.announced else none
                            announced := none
                            parent := (nearest t.heard).or t.parent
                            heard := [], adjusted := false, adopt := none
                            owedNs := t.owedNs - step } }

/-- A master's successors are those that it reaches now (R203). -/
def reachSuccessors (t : TickIn) (s : State) : State := if s.tick.role = 1 then nameSuccessors t.reached s else s

/-- The master's announce of the frame that begins. -/
def ownAnnounce (s : State) (k : StraitId) : Announce :=
  { strait := k, frame := s.tick.frame.toNat, period := s.tick.inForce.toNat, next := s.tick.nextPeriod, master := s.fab.idInForce, prio := s.tick.priority.toNat,
    succ1 := s.tick.succ1, succ2 := s.tick.succ2, accDelay := 0, hops := 16, arrival := 0, residence := 0 }
def sendAnnounce (s : State) : State := if s.tick.role = 1 && mayOriginate s then (sendTicks (tickStraits s) s).emit ((tickStraits s).map (fun k => .announce (ownAnnounce s k))) else s

/-! Step 4: quotas and reclaim (R223, R232, R428, R502). -/

/-- Granules of offsets below both sizes whose segment now lies on another die (R232). -/
def movedGranules (old new : BitVec 128) : List Nat :=
  let o := bitmapList old
  let n := bitmapList new
  (List.range (min o.length n.length)).flatMap (fun i => if o.getD i 0 / 32 = n.getD i 0 / 32 then [] else (List.range 48).map (fun g => 48 * i + g))

/-- The window of a partition under its new bitmap: what lies beyond the new size is discarded. -/
def resizeWindow (p : PartId) (old new : BitVec 128) (m : Mem) : Mem :=
  let w := windowBytes new
  { m with window := modVec m.window p (fun l => l.filter (fun c => c.1 < w)), winPoison := modVec m.winPoison p (fun l => l.filter (fun u => 256 * u < w)),
           moves := (m.moves.filter (fun g => g.1 ≠ p || g.2 * 65536 < w) ++ (movedGranules old new).map (fun g => (p, g))).dedup }

/-- The written values of a partition take effect. -/
def applyQuota (p : PartId) (s : State) : State :=
  let x := s.parts[p]
  if x.state ≠ .created ∧ x.state ≠ .active then s
  else
    let s := s.updPart p (fun y => { y with force := y.written })
    if x.written.bitmap = x.force.bitmap then s
    else
      let s := { s with mem := resizeWindow p x.force.bitmap x.written.bitmap s.mem }
      s.putWrites (shrinkGather p (windowBytes x.written.bitmap) s.vm)

/-- Logical arrays that have been lost go from every bitmap. -/
def dropLost (s : State) : State :=
  let mask : BitVec 128 := s.ras.lostPending.foldl (fun m a => m ||| BitVec.ofNat 128 (2 ^ a)) 0
  if s.ras.lostPending.isEmpty then s
  else
    { s with parts := s.parts.map (fun x => { x with written := { x.written with bitmap := x.written.bitmap &&& ~~~mask } }),
             ras := { s.ras with lost := (s.ras.lost ++ s.ras.lostPending).dedup, lostPending := [] } }

/-- LR_NOW and WD_NOW as written stand from this tick (R316). -/
def applyRates (s : State) : State :=
  { s with bind := { s.bind with sessions := s.bind.sessions.map (fun x => (x.1, { x.2 with lrForce := x.2.lrNow, wdForce := x.2.wdNow })) } }

/-- Memory at step 4: releases (R246), failed homes (R263), heat (R249), and the plan of migrations (R247, R250), which rests in DOZE (R583). -/
def stepMemory (s : State) : State :=
  let v := allParts.foldl (fun v p => VM.applyReleases p v) s.vm
  let v := v.replaceHomes
  let v := { v with mem := heatPages v.mem }
  s.putWrites (if s.pow.mod = .doze then v.judgeQuota else v.planMigrations (privBytes s))

/-- Sessions at step 4 (R320, R356 to R360). -/
def stepSessions (s : State) : State :=
  let frame := frameNow s
  applyRates (treeAdd ((s.bind.sessions.map (·.1)).foldl (fun s i => rosterTick frame i s) s))

/-- Step 4, releases ahead of grants. -/
def step4 (s : State) : State :=
  let s := dropLost (finishRemovals (frameNow s) s)
  let s := allParts.foldl (fun s p => applyQuota p s) s
  let s := allParts.foldl (fun s p => if s.parts[p].createPending then becomeCreated p s else s) s
  openDebug (stepSessions (stepMemory s))

/-! Step 6: the budget (R212 to R214, R216). -/

/-- The thermal factor d. -/
def derateOf (soft hard t : Nat) : Nat := if t ≤ soft then 65536 else if hard ≤ t then 0 else 65536 - 49152 * (t - soft) / (hard - soft)

/-- B of the new frame. -/
def budgetOf (limit base p d shot : Nat) : Nat := (limit * p - base * p) * d / 65536 - shot

/-- Input energy of the ended frame: the Lighthouse's record where it has come, else the hub's own estimate, which is counted. -/
def measure (t : TickIn) (s : State) : State :=
  match (if t.recordArrived ∧ s.lh.powered then s.lh.ring.getLast? else none) with
  | some r => { s with gov := { s.gov with measured := 1000 * r.energyMj } }
  | none => { s with gov := { s.gov with measured := t.hubEstimate }, dict := { s.dict with counters := bump s.dict.counters 5 1 } }

/-- BASE_POWER_W moves a sixteenth of the way towards the draw apart from slices; `period`: that of the ended frame. -/
def learnBase (period limit : Nat) (t : TickIn) (s : State) : State :=
  let att := (t.attributed.map (·.2)).foldl (· + ·) 0
  let n : Int := rheDiv (((15 * s.gov.base.toNat * period + s.gov.measured : Nat) : Int) - (att : Nat)) (16 * period)
  { s with gov := { s.gov with base := BitVec.ofNat 16 (max 300 (min (limit : Int) n)).toNat } }

/-- Objects of R211 as written are in force from now on. -/
def takeLimits (s : State) : State :=
  { s with gov := { s.gov with inForce := (s.gov.limit.toNat, s.gov.peak.toNat, s.gov.soft.toNat, s.gov.hard.toNat) } }

/-- Temperatures at the tick, of the dies that are up, and the stacks' scrub results, counted per stack (R212, R254). -/
def readSensors (t : TickIn) (s : State) : State :=
  let s := (List.finRange 5).foldl (fun s d => match s.pow.domains[d], t.temps[d.val]? with | .up, some c => setTemp d c s | _, _ => s) s
  { s with mem := { s.mem with scrub := t.scrub.foldl (fun l x => kvSet x.1 ((kvGet x.1 l).getD 0 + x.2) l) s.mem.scrub } }

/-- The budget of the frame that begins. -/
def issueBudget (s : State) : State :=
  let p := s.tick.inForce.toNat
  let (limit, _, soft, hard) := s.gov.inForce
  let d := match hottest s with | some t => derateOf soft hard t | none => 65536
  let shot := match s.gov.issued with | some i => s.gov.measured - i | none => 0
  let b := budgetOf limit s.gov.base.toNat p d shot
  { s with gov := { s.gov with budget := BitVec.ofNat 32 b, overshoot := BitVec.ofNat 32 shot, derate := BitVec.ofNat 32 d, issued := some (s.gov.base.toNat * p + b), throttleUs := 0 } }

def step6 (period : Nat) (t : TickIn) (s : State) : State :=
  let s := readSensors t (takeLimits s)
  issueBudget (learnBase period s.gov.inForce.1 t (measure t s))

/-! Step 7 (R207, R208, R217, R574, R582, R583). -/

/-- Arrays that no admitted slice names are power-gated from now on. -/
def gateArrays (s : State) : State :=
  let named := allParts.flatMap fun p => allRings.flatMap fun r => match s.rings[p][r].run with | some x => x.arrays.map (·.array) | none => []
  { s with arrays := Vector.ofFn (fun a => { s.arrays[a] with gated := !named.contains a }) }

/-- Slices are offered and admitted: from the second tick after joining, in ACTIVE, and not once a lower state has been accepted. -/
def mayAdmit (s : State) : Bool := s.pow.mod = .active && s.pow.atTick.isNone && 2 ≤ s.tick.ticks

def step7 (s : State) : State :=
  let s := { s with gov := { s.gov with dueTaken := false, order := 0, admission := none } }
  let s := if s.pow.mod = .active then payOwed s else s
  gateArrays (if mayAdmit s then (let r := offerAll s; admitAll r.2 r.1) else s)

/-! The tick. -/

/-- Admission that waits for its due candidate is carried out first (R220). -/
def settleAdmission (s : State) : State := match s.gov.admission with | some a => dueAdmit a s | none => s

/-- Steps 1 to 7, and what begins or ends with the window (R582, R584, R605). -/
def frameTick (t : TickIn) (s : State) : State :=
  let s := settleAdmission s
  let ended := s.tick.frame.toNat
  let period := s.tick.inForce.toNat
  let r := endAll t s
  let s := latchAll (addEnergy t (closeAll r.2 r.1))
  let s := sendAnnounce (reachSuccessors t (advanceFrame (strobe ended t.lengthUs s.tick.adjusted s)))
  let s := if s.pow.mod = .active then s.putWrites (tickGather s.vm) else s
  let s := step6 period t (testSwaps (step4 s))
  settle (windowEnd (step7 s))

/-- FRAME_TICK: the frame timer of a module that has joined the tick. -/
def execFrameTick (t : TickIn) (s : State) : Res := need (s.tick.joined && hubUp s) (frameTick t s)

end Sys2Proof.Machine
end

