-- ==== Sys2Proof/Machine/Firmware.lean ====
section
/-!
DEFINITION. Machine/Firmware.lean: firmware images (R594, R595), the recovery fetch at both ends (R596 to R598), and the update in place (R599).
-/

namespace Sys2Proof.Machine

/-! Images (R594, R595). -/

/-- TOTAL_BYTES, the body and SECURITY_VERSION of an image. -/
def imageTotal (b : Bytes) : Nat := leNat (slice b 8 4)
def imageBody (b : Bytes) : Bytes := (b.take (imageTotal b)).drop 7299
def imageVersion (b : Bytes) : Nat := leNat (slice b 6 1)

/-- An image is accepted. -/
def imageOk (b : Bytes) (floor : Nat) : Bool :=
  let key := slice b 80 2592
  Config.sha3 key = Config.otpFirmwareDigest && Config.dsaVerify key "JT480 FIRMWARE" (leBytes 64 (Config.sha3 (b.take 80)).toNat) (slice b 2672 4627) &&
  leBytes 64 (Config.sha3 (imageBody b)).toNat = slice b 16 64 && decide (floor ≤ imageVersion b)

/-- The image in flash, decrypted; none where it is not acceptable (R593 step 3). -/
def flashImage (s : State) : Option Bytes :=
  let b := Config.imageDecrypt flashKey s.fw.flash
  let b := b.take (imageTotal b)
  if !s.fw.flash.isEmpty ∧ imageOk b s.fw.floor then some b else none

/-! Straits at boot (R593 step 7). -/

/-- Straits of an up hub take up their modes: FABRIC trains, HOST presents its endpoint to the host, OFF stays idle. -/
def startStraits (s : State) : State :=
  allStraits.foldl (fun s k =>
    if s.fab.straits[k].link ≠ .off then s
    else if s.fab.straits[k].mode = 1 then beginTraining k s
    else if s.fab.straits[k].mode = 2 then s.updStrait k (fun x => { x with link := .detect })
    else s) s

/-! The requester (R596, R597). -/

/-- A fetch over a strait, or over the sideband: a fresh encapsulation key and FETCH_ID. On a strait the REQUEST goes out when its hop handshake has completed. -/
def fetchOn (k : Option StraitId) (s : State) : State :=
  let (a, s) := s.entropy
  let (b, s) := s.entropy
  let (c, s) := s.entropy
  let f : FetchRun := { fetchId := BitVec.ofNat 64 (leNat c), kemSeed := a ++ b, strait := k }
  let s := { s with fw := { s.fw with fetch := some f } }
  match k with
  | some k => if s.fab.straits[k].link = .up then askImage f s else beginTraining k s
  | none => askImage f s

/-- The first FABRIC strait from a number on. -/
def fabricFrom (s : State) (n : Nat) : Option StraitId := allStraits.find? (fun k => decide (n ≤ k.val) && s.fab.straits[k].mode = 1)

/-- The fetch begins with the first strait, or over the sideband where there is none. -/
def startFetch (s : State) : State := fetchOn (if hubUp s then fabricFrom s 0 else none) s

/-- The boot waits for an image. -/
def fetching (s : State) : Bool := s.pow.mod = .booting && s.fw.running.isNone && s.pow.mgmtUp

/-- 2 s on a strait without an image: the next strait, and after the last the sideband. -/
def execRecoveryStraitTimeout (s : State) : Res :=
  match s.fw.fetch.bind (·.strait) with
  | some k => need (fetching s) (fetchOn (fabricFrom s (k.val + 1)) s)
  | none => .fault .noCause

/-- 120 s without an accepted image, and 10 s more: again from the first substep. -/
def restartFetch (s : State) : State :=
  if s.pow.pwrEn ∧ s.pow.domains[4] = .off then startDomain 4 { s with fw := { s.fw with fetch := none } }
  else startFetch s

def execRecoveryRestart (s : State) : Res := need (fetching s && s.fw.fetch.isSome) (restartFetch s)

/-- A recovery message comes over the sideband, or over a strait that is up. -/
def heardOver (s : State) (k : Option StraitId) : Bool := match k with | some k => hubUp s && s.fab.straits[k].link = .up | none => true

/-- An OFFER's two segments; the first one to come is taken. -/
def takeOffer (k : Option StraitId) (id : BitVec 64) (seg : Nat) (ct : Bytes) (total : Nat) (s : State) : State :=
  match s.fw.fetch with
  | some f =>
    if f.fetchId ≠ id ∨ f.strait ≠ k then s
    else if seg = 0 ∧ f.ct = [] ∧ ct.length = 1024 then { s with fw := { s.fw with fetch := some { f with ct := ct } } }
    else if seg = 1 ∧ f.ct.length = 1024 then { s with fw := { s.fw with fetch := some { f with ct := f.ct ++ ct, total := some total } } }
    else s
  | none => s

def execRecoveryOffer (k : Option StraitId) (id : BitVec 64) (seg : Nat) (ct : Bytes) (total : Nat) (s : State) : Res :=
  heard (s.pow.mgmtUp && heardOver s k) s (takeOffer k id seg ct total (s.hear k))

/-- The DATA key of a fetch. -/
def dataKey (ss : Bytes) (id : BitVec 64) : Bytes := Config.kmac256 ss (leBytes 8 id.toNat) 256 "JT480 RECOVERY"

/-- An accepted image goes to flash under this module's own key and runs; the boot goes on (R596). -/
def runImage (b : Bytes) (s : State) : State :=
  let s := { s with fw := { s.fw with flash := Config.imageEncrypt flashKey b, running := some b, recovered := true, fetch := none } }
  if s.pow.pwrEn then
    match s.pow.domains[4] with
    | .up => startDies (startStraits s)
    | .off => startFromStandby s
    | _ => s
  else if s.pow.domains[4] = .off ∨ s.pow.domains[4] = .failed then { s with pow := { s.pow with mod := .standby } }
  else beginStandby s

/-- The whole image has come: it runs where it is acceptable; else the next strait is tried, and over the sideband the restart is waited for. -/
def imageCome (f : FetchRun) (s : State) : State :=
  let b := f.data.take (imageTotal f.data)
  if imageOk b s.fw.floor then runImage b s
  else match f.strait with
    | some k => fetchOn (fabricFrom s (k.val + 1)) s
    | none => { s with fw := { s.fw with fetch := some { f with total := none, data := [] } } }

/-- A DATA message: in order it is taken, after a gap a RESUME asks for what is missing, and one whose tag fails is dropped (R597). -/
def takeImage (id : BitVec 64) (off : Nat) (ct tag : Bytes) (s : State) : State :=
  match s.fw.fetch with
  | some f =>
    match f.total with
    | some n =>
      if f.fetchId ≠ id then s
      else match Config.gcmOpen (dataKey (Config.kemDecaps f.kemSeed f.ct) id) off [] ct tag with
        | none => s
        | some b =>
          if off = f.data.length then
            let f := { f with data := (f.data ++ b).take n }
            let s := { s with fw := { s.fw with fetch := some f } }
            if f.data.length = n then imageCome f s else s
          else if f.data.length < off then s.emitOver f.strait [.recovery f.strait 4 id 0 f.data.length []]
          else s
    | none => s
  | none => s

def execRecoveryData (id : BitVec 64) (off : Nat) (ct tag : Bytes) (s : State) : Res :=
  let t := match s.fw.fetch with | some f => s.hear f.strait | none => s
  heard s.pow.mgmtUp s (if fetching s then takeImage id off ct tag t else t)

/-- BUSY: the server gives no image now; the try runs on to its time limit. -/
def execRecoveryBusy (_id : BitVec 64) (s : State) : Res := heard s.pow.mgmtUp s (match s.fw.fetch with | some f => s.hear f.strait | none => s)

/-- 100 ms without DATA: RESUME from what has come. -/
def execRecoveryDataGap (s : State) : Res :=
  match s.fw.fetch with
  | some f => need (fetching s && f.total.isSome) (s.emitOver f.strait [.recovery f.strait 4 f.fetchId 0 f.data.length []])
  | none => .fault .noCause

/-! The server (R598). -/

/-- STANDBY serves over the sideband, DOZE and ACTIVE also over straits. -/
def serves (s : State) (k : Option StraitId) : Bool :=
  s.fw.running.isSome && (s.pow.mod = .active || s.pow.mod = .doze || (s.pow.mod = .standby && k.isNone))

/-- The DATA messages of the running image from an offset on (R597). -/
def dataFrom (v : ServeRun) (img : Bytes) (off : Nat) : List Output :=
  match v.secret with
  | some ss => (List.range (ceilDiv (img.length - off) 1024)).map (fun i =>
      let at' := off + 1024 * i
      .recovery v.strait 3 v.fetchId 0 at' (Config.gcmSeal (dataKey ss v.fetchId) at' [] ((img.drop at').take 1024)))
  | none => []

/-- A REQUEST: its key comes in segments 0 and 1; then the OFFER goes out in two segments, and the image after it. While the key of one fetch is awaited, another REQUEST is answered with BUSY. -/
def serveRequest (k : Option StraitId) (id : BitVec 64) (seg : Nat) (key : Bytes) (s : State) : State :=
  let busy : Bool := match s.fw.serve with | some v => v.secret.isNone && v.fetchId ≠ id | none => false
  if busy then s.emitOver k [.recovery k 5 id 0 0 []]
  else if seg = 0 then { s with fw := { s.fw with serve := some { fetchId := id, strait := k, key := key, secret := none, sent := 0 } } }
  else match s.fw.serve with
    | some v =>
      if seg ≠ 1 ∨ v.fetchId ≠ id ∨ v.secret.isSome then s
      else
        let img := s.fw.running.getD []
        let r := Config.kemEncaps (v.key ++ key) s.free
        let v := { v with secret := some r.2, key := v.key ++ key, sent := img.length }
        ({ s with fw := { s.fw with serve := some v }, free := s.free + 1 }).emitOver k
          ([Output.recovery k 2 id 0 img.length (r.1.take 1024), Output.recovery k 2 id 1 img.length (r.1.drop 1024)] ++ dataFrom v img 0)
    | none => s

def execRecoveryRequest (k : Option StraitId) (id : BitVec 64) (seg : Nat) (key : Bytes) (s : State) : Res :=
  heard (s.pow.mgmtUp && heardOver s k) s (if serves s k then serveRequest k id seg key (s.hear k) else s.hear k)

/-- RESUME: sending goes on from OFFSET. -/
def serveResume (id : BitVec 64) (off : Nat) (s : State) : State :=
  match s.fw.serve with
  | some v => if v.fetchId = id ∧ serves s v.strait then s.emitOver v.strait (dataFrom v (s.fw.running.getD []) off) else s
  | none => s

def execRecoveryResume (id : BitVec 64) (off : Nat) (s : State) : Res :=
  heard s.pow.mgmtUp s (serveResume id off (match s.fw.serve with | some v => s.hear v.strait | none => s))

/-! The update in place (R599). -/

/-- The staged image: its chunks one after another up to TOTAL_BYTES. -/
def stagedImage (s : State) : Bytes :=
  let total := imageTotal ((alGet 0 s.fw.stage).getD [])
  ((List.range (ceilDiv (min total (24 * 2 ^ 20)) 1024)).flatMap (fun i => slice ((alGet (1024 * i) s.fw.stage).getD []) 0 1024)).take total

/-- The staging area is open: in ACTIVE, to OPERATOR and MAKER, while no image is being checked or written. -/
def mayStage (s : State) (q : Req) : Bool := opOrMaker s q && s.pow.mod = .active && s.fw.committing.isNone

/-- BEGIN clears the staging area, whoever used it. -/
def opFwBegin (q : Req) (s : State) : State × Status :=
  guarded s 0x1120 (mayStage s q) ({ s with fw := { s.fw with stage := [], status := 0 } }, .done)
def execFwBegin (q : Req) (s : State) : Res := software s (answer q (opFwBegin q s))

/-- A chunk lands at FW_OFFSET. -/
def opFwChunk (q : Req) (b : Bytes) (s : State) : State × Status :=
  guarded s 0x1120 (mayStage s q && b.length = 1024) ({ s with fw := { s.fw with stage := alSet s.fw.offset.toNat b s.fw.stage } }, .done)
def execFwChunk (q : Req) (b : Bytes) (s : State) : Res := software s (answer q (opFwChunk q b s))

/-- COMMIT: FW_STATUS reads PARTIAL while the image is checked and written. -/
def opFwCommit (q : Req) (s : State) : State × Status :=
  guarded s 0x1120 (mayStage s q) ({ s with fw := { s.fw with committing := some (stagedImage s), status := 1 } }, .done)
def execFwCommit (q : Req) (s : State) : Res := software s (answer q (opFwCommit q s))

/-- The check fails and flash is untouched, or the image stands in flash; what runs is unchanged until the next reset. -/
def commitDone (b : Bytes) (s : State) : State :=
  if imageOk b s.fw.floor then { s with fw := { s.fw with flash := Config.imageEncrypt flashKey b, committing := none, status := 0 } }
  else { s with fw := { s.fw with committing := none, status := 0x60 } }

def execFwCommitComplete (s : State) : Res :=
  match s.fw.committing with
  | some b => need s.pow.mgmtUp (commitDone b s)
  | none => .fault .noCause

/-- A loss of power, a reset or a trip during COMMIT: an image that passes its check leaves flash as it was or broken, by how far the write had come, which is a free value (R599, R604; log 3). -/
def cutCommit (s : State) : State :=
  match s.fw.committing with
  | some b =>
    if imageOk b s.fw.floor then { s with fw := { s.fw with committing := none, status := 0, flash := if Config.freeNat s.free % 2 = 0 then s.fw.flash else [] }, free := s.free + 1 }
    else { s with fw := { s.fw with committing := none, status := 0 } }
  | none => s

end Sys2Proof.Machine
end

