-- ==== Sys2Proof/Machine/Power.lean ====
section
/-!
DEFINITION. Machine/Power.lean: input power, resets and boot (R572, R575, R589, R592, R593), the power states and their requests (R580 to R584, R590, R591, R601, R602), and the sequences of the compute domains (R585 to R588).
-/

namespace Sys2Proof.Machine

/-! What a reset leaves (R457, R544, R571). -/

/-- Units under test go back to where they were; recorded repairs are made at the boot (R503, R504). -/
def Ras.boot (r : Ras) : Ras :=
  { r with units := r.units.map (fun x => if x.2.state = .underTest then
                      (x.1, match x.2.takenFrom with
                        | some a => { x.2 with state := .inService, serves := some a, takenFrom := none, leaving := false, retest := false }
                        | none => { x.2 with state := .spare, leaving := false, retest := false }) else x),
           out := [], auditCount := 0, audit := [], libStage := [], libOffset := 0, libStatus := 0,
           windowRepairs := r.windowRepairs + r.pendingWindow.length, repairGen := r.repairGen + (if r.pendingWindow.isEmpty && r.pendingHbm.isEmpty then 0 else 1),
           pendingWindow := [], pendingHbm := [] }

/-- Every register at its default but the persistent ones, every session and tenant state gone; OTP and flash stand. -/
def resetAll (s : State) : State :=
  let s := cutCommit (cutTransition s)
  let s := loseTenants (leaveTick s)
  let g := s.gov
  { s with
    gov := { limit := g.limit, peak := g.peak, soft := g.soft, hard := g.hard, inForce := (g.limit.toNat, g.peak.toNat, g.soft.toNat, g.hard.toNat) },
    fab := { s.fab with idInForce := s.fab.deviceId, apertureForce := s.fab.apertureBytes.toNat },
    mem := { s.mem with stacksFailed := [] },
    keys := {},
    life := s.life.reset,
    ras := s.ras.boot,
    lh := { s.lh with silent := false },
    dict := {},
    side := { port := s.side.port, portForce := s.side.port, node := s.side.node, nodes := s.side.nodes, addr := s.side.addr },
    pow := { boots := s.pow.boots, cause := s.pow.cause, nextCause := s.pow.nextCause, input := s.pow.input, pwrEn := s.pow.pwrEn, resetLow := s.pow.resetLow, tripped := s.pow.tripped },
    fw := { flash := s.fw.flash, floor := s.fw.floor } }

/-! Boot (R593). -/

/-- Boot step 3: the image from flash runs, and with MOD_PWR_EN high the boot goes on to step 4; without an acceptable image it is fetched (R596). -/
def bootImage (s : State) : State :=
  match flashImage s with
  | some b =>
    let s := { s with fw := { s.fw with running := some b } }
    if s.pow.pwrEn ∧ !s.pow.tripped then startFromStandby s else { s with pow := { s.pow with mod := .standby } }
  | none =>
    let s := { s with pow := { s.pow with mod := .booting } }
    if s.pow.pwrEn ∧ !s.pow.tripped then startFromStandby s else fetchOn none s

/-- Boot step 2, from the state that a reset leaves, with its cause: the life cycle, and the ladder. In SCRAPPED it stops here (R463); where a stored request fails, in RECOVERY (R472). -/
def boot (cause wakeCode : BitVec 8) (s : State) : State :=
  let s := resetAll s
  let s := { s with pow := { s.pow with mgmtUp := true, mod := .booting, boots := s.pow.boots + 1, cause := cause, nextCause := none, lastWake := wakeCode } }
  match bootLife s with
  | (s, false) => { s with pow := { s.pow with mod := .recovery } }
  | (s, true) => if s.life.force = 5 then { s with pow := { s.pow with mod := .standby, scrapped := true } } else bootImage (ladderKeys s)

/-- All but the Lighthouse has no power. -/
def powerOff (s : State) : State :=
  let s := resetAll s
  { s with pow := { boots := s.pow.boots, pwrEn := s.pow.pwrEn, resetLow := s.pow.resetLow } }

/-! The input (R572, R589, R590). -/

/-- The input rises through its turn-on threshold, or a column whose rail failed its check tries again: the management domain boots unless its rail fails or its reset is held. -/
def turnOn (railsOk : Bool) (s : State) : State :=
  let s := { s with pow := { s.pow with input := true } }
  if railsOk ∧ !s.pow.resetLow then boot 1 (if s.pow.pwrEn then 4 else 0) s else s

def execInputTurnOn (railsOk : Bool) (s : State) : Res := need (!s.pow.mgmtUp && !s.pow.resetLow || !s.pow.input) (turnOn railsOk s)

/-- The input falls through its turn-off threshold: everything but the Lighthouse stops at once. -/
def execInputTurnOff (s : State) : Res := need s.pow.input (powerOff s)
/-- Over-voltage for 100 us turns the module off as if the input were removed. -/
def execOverVoltage (s : State) : Res := need s.pow.input (powerOff s)

/-! Resets (R592). -/

/-- Every domain but the Lighthouse is held in reset. -/
def holdReset (s : State) : State :=
  let s := resetAll s
  { s with pow := { s.pow with mgmtUp := false, resetLow := true } }

def execModResetNAssert (s : State) : Res := need (!s.pow.resetLow) (if s.pow.input then holdReset s else { s with pow := { s.pow with resetLow := true } })

/-- The pin rises: a powered module boots from step 2. -/
def releaseReset (s : State) : State :=
  let s := { s with pow := { s.pow with resetLow := false } }
  if s.pow.input then boot 2 0 s else s

def execModResetNRelease (s : State) : Res := need s.pow.resetLow (releaseReset s)

def execWatchdogExpire (s : State) : Res := need s.pow.mgmtUp (boot 5 0 s)

/-! MOD_PWR_EN (R584, R590, R591, R601). -/

def execModPwrEnRise (s : State) : Res :=
  need (!s.pow.pwrEn)
    (let t := { s with pow := { s.pow with pwrEn := true } }
     if s.pow.mgmtUp then wake 3 t else t)

/-- The pin falls: MOD_THERM_TRIP_N is released, and the module goes to STANDBY once no sequence runs. -/
def dropEnable (s : State) : State :=
  let t := { s with pow := { s.pow with pwrEn := false, tripped := false } }
  match s.pow.mod with
  | .active | .doze => beginStandby { t with pow := { t.pow with nextCause := some 3 } }
  | .stopping | .stoppingPending =>
    if s.pow.target = some .doze then { t with pow := { t.pow with mod := .stopping, latched := some .standby } }
    else { t with pow := { t.pow with mod := .stopping, latched := none } }
  | _ => t

def execModPwrEnFall (s : State) : Res := need s.pow.pwrEn (dropEnable s)

/-! The thermal trip (R575, R604). -/

/-- The regulators of every compute domain go off at once; tenant state is lost without records; the module is in STANDBY. -/
def trip (s : State) : State :=
  let s := cutCommit (loseTenants (leaveTick s))
  thermalCause { s with
           fw := { s.fw with fetch := none, serve := none },
           pow := { s.pow with domains := Vector.replicate 5 .off, temps := Vector.replicate 5 0xFF, hot := Vector.replicate 4 false, mod := .standby, tripped := true, nextCause := some 4,
                               target := none, latched := none, atTick := none, windowRun := false, fromDoze := false } }

def execThermalTrip (d : DieId) (s : State) : Res := need (s.pow.domains[d] ≠ .off && s.pow.domains[d] ≠ .failed) (trip s)

/-! Wakes (R590). -/

/-- The states in which a wake on a strait or over the sideband acts, or is latched. -/
def wakeable (s : State) : Bool := s.pow.mod = .standby || s.pow.mod = .doze || s.pow.mod = .stopping || s.pow.mod = .stoppingPending

/-- Energy on an armed strait in FABRIC mode; in DOZE on one that is not UP. -/
def execStraitSignalWake (k : StraitId) (s : State) : Res :=
  need (s.pow.mgmtUp && s.fab.straits[k].mode = 1 && wakeable s && s.fab.straits[k].link ≠ .up) (wake 1 s)

/-- An Ethernet frame at the hub's PHY: counted, and a wake where it carries the EtherType and UNIT_ID. -/
def wakeFrame (etherType : BitVec 16) (payload : Bytes) (mac : Bool) (s : State) : State :=
  let t := { s with dict := s.dict.frames 1 1 }
  if mac ∧ etherType = 0x88B5 ∧ payload.take 16 = unitIdBytes ∧ wakeable s then wake 2 t else t

def execSidebandWakeFrame (etherType : BitVec 16) (payload : Bytes) (mac : Bool) (s : State) : Res := heard s.pow.mgmtUp s (wakeFrame etherType payload mac s)

/-! STATE_REQUEST (R549, R581, R582, R584, R590). -/

def opStateDoze (q : Req) (s : State) : State × Status := guarded s 0x1100 (isOperator s q) (requestDoze s)
def execStateRequestDoze (q : Req) (s : State) : Res := software s (answer q (opStateDoze q s))

def opStateStandby (q : Req) (s : State) : State × Status := guarded s 0x1100 (isOperator s q) (requestStandby s)
def execStateRequestStandby (q : Req) (s : State) : Res := software s (answer q (opStateStandby q s))

/-- STATE_REQUEST := ACTIVE cancels what waits in the other direction, or wakes. -/
def requestActive (s : State) : State :=
  match s.pow.mod with
  | .active => { s with pow := { s.pow with request := 3, atTick := none, latched := none } }
  | .starting => setLatched .starting none (setRequest 3 s)
  | _ => wake 5 (setRequest 3 s)

def opStateActive (q : Req) (s : State) : State × Status := guarded s 0x1100 (isOperator s q) (requestActive s, .done)
def execStateRequestActive (q : Req) (s : State) : Res := software s (answer q (opStateActive q s))

/-! Failed stacks and dies (R422, R587, R605). -/

/-- Pages of all partitions that a stack holds, or whose counters it holds. -/
def stackPages (m : Mem) (k : StackId) : List (PartId × Nat) :=
  allParts.flatMap fun p => (m.pages[p].filter (fun x => x.2.loc ≠ .unbacked &&
    (((alGet x.1 m.regions[p]).getD {}).slot / 16384 = k.val || (match x.2.loc with | .t1 f => f / 16384 = k.val | _ => false)))).map (fun x => (p, x.1))

/-- The contents of a stack are lost: every sector of its pages reads poisoned with UNCORRECTABLE, and the ranges are audited. -/
def loseStack (k : StackId) (s : State) : State :=
  s.putVM ((stackPages s.mem k).foldl (fun (v : VM) pp =>
    let r := v.region pp.1 pp.2
    let v := (List.range 8192).foldl (fun (v : VM) i => { v with mem := setCtr v.keys r i 0xFFFF v.mem }) v
    (v.updPart pp.1 (fun x => { x with poisonedSectors := x.poisonedSectors + 8192 })).audit (auditOf 1 .uncorrectable pp.1.val (pp.2 * 2 ^ 21) (2 ^ 21) (detail := k.val))) s.vm)

def auditRepair (s : State) : State := s.putVM (s.vm.audit (auditOf 7 .internal 0x40 0 0))

/-- A stack is out for this boot. -/
def failStack (k : StackId) (s : State) : State :=
  loseStack k (auditRepair { s with mem := { s.mem with stacksFailed := (s.mem.stacksFailed ++ [k.val]).dedup } })

def dieStacks (d : DieId) : List StackId := (List.finRange 24).filter (fun k => stackDie k = d)

/-- An array-die domain is out for this boot: its logical arrays are absent, and its stacks are failed with it. -/
def failDie (d : DieId) (s : State) : State :=
  let s := auditRepair { s with pow := { s.pow with domains := s.pow.domains.set d .failed }, mem := { s.mem with stacksFailed := (s.mem.stacksFailed ++ (dieStacks d).map (·.val)).dedup },
                                ras := { s.ras with lostPending := (s.ras.lostPending ++ (List.range 32).map (fun i => 32 * d.val + i)).dedup } }
  (dieStacks d).foldl (fun s k => loseStack k s) s

/-! Power-up (R585 to R587). -/

/-- Steps 5 and 7 of the boot, or the fetch of an image, once the hub is up. -/
def hubReady (s : State) : State := if s.fw.running.isSome then startDies (startStraits s) else startFetch s

/-- A domain has finished its sequence. -/
def domainUp (d : DieId) (s : State) : State :=
  let s := { s with pow := { s.pow with domains := s.pow.domains.set d .up } }
  if d = 4 then hubReady s else settle s

/-- The stacks that a domain in step 4 still waits for, in their order. -/
def stacksLeft (d : DieId) (trained : List Nat) (s : State) : List StackId := (dieStacks d).filter (fun k => !trained.contains k.val && !s.mem.stacksFailed.contains k.val)

def setStep (d : DieId) (step : Nat) (trained : List Nat) (retry : Bool) (s : State) : State :=
  { s with pow := { s.pow with domains := s.pow.domains.set d (.powering step trained retry) } }

/-- Step 4 goes on, or ends when no stack is left. -/
def trainOn (d : DieId) (trained : List Nat) (retry : Bool) (s : State) : State :=
  setStep d (if (stacksLeft d trained s).isEmpty then 5 else 4) trained retry s

/-- The signal that a step waits for. From STANDBY the stacks train in turn. -/
def awaited (d : DieId) (step : Nat) (trained : List Nat) (s : State) : Ready → Bool
  | .railGood => step = 1
  | .pllLock => step = 2
  | .repairDone => step = 3
  | .trainDone k => step = 4 && (if s.pow.fromDoze then (stacksLeft d trained s).contains k else (stacksLeft d trained s).head? = some k)
  | .logicReady => step = 5

/-- A ready signal starts the next step; the hub has no step 4. -/
def readyStep (d : DieId) (trained : List Nat) (retry : Bool) (s : State) : Ready → State
  | .railGood => setStep d 2 trained retry s
  | .pllLock => setStep d 3 trained retry s
  | .repairDone => if d = 4 then setStep d 5 trained retry s else trainOn d trained retry s
  | .trainDone k => trainOn d (trained ++ [k.val]) retry s
  | .logicReady => domainUp d s

def execDomainReady (d : DieId) (r : Ready) (s : State) : Res :=
  match s.pow.domains[d] with
  | .powering step trained retry => need (awaited d step trained s r) (readyStep d trained retry s r)
  | _ => .fault .noCause

/-- The hub has failed twice: the module stays in STANDBY; a boot without an image goes on over the sideband. -/
def failHub (s : State) : State :=
  let s := auditRepair { s with pow := { s.pow with domains := s.pow.domains.set 4 .failed } }
  if s.fw.running.isSome then { s with pow := { s.pow with mod := .standby, target := none, latched := none } } else fetchOn none s

/-- A ready signal has timed out: one stack fails alone; a domain from STANDBY repeats its sequence once; otherwise it is failed. -/
def timeout (d : DieId) (trained : List Nat) (retry : Bool) (s : State) : Ready → State
  | .trainDone k => trainOn d trained retry (failStack k s)
  | _ =>
    if !s.pow.fromDoze ∧ !retry then setStep d 1 [] true s
    else if d = 4 then failHub s
    else settle (failDie d s)

def execDomainReadyTimeout (d : DieId) (r : Ready) (s : State) : Res :=
  match s.pow.domains[d] with
  | .powering step trained retry => need (awaited d step trained s r) (timeout d trained retry s r)
  | _ => .fault .noCause

/-! Shut-down (R422, R582, R588, R591, R601). -/

/-- The root words of a stack: the two nodes of level 7 under its controller (R396, R422). -/
def stackRoots (m : Mem) (k : StackId) : List ((Nat × Nat × Nat) × BitVec 64) := m.tree.filter (fun x => x.1.1 = k.val && x.1.2.1 = 7)

/-- Into DOZE at the end of the tick window: stacks write back and save their roots, a stack that cannot loses its contents, the rest enters self-refresh, and the array dies start down. -/
def dozeEntry (bad : List StackId) (s : State) : State :=
  let s := bad.foldl (fun s k => loseStack k s) s
  let roots := (List.finRange 24).flatMap (fun k => if bad.contains k then [] else stackRoots s.mem k)
  let s := { s with mem := { s.mem with savedRoots := roots, selfRefresh := true, cache := [], dirty := [] }, pow := { s.pow with atTick := none, windowRun := false } }
  stopDomains [0, 1, 2, 3] s

/-- The array dies, or all domains, are off. -/
def downDone (s : State) : Bool :=
  let ds : List DieId := match s.pow.target with | some .doze => [0, 1, 2, 3] | _ => [0, 1, 2, 3, 4]
  ds.all (fun d => s.pow.domains[d] ≠ .stopping)

/-- The shut-down ends; what was latched behind it starts from the state just reached. -/
def shutDownEnds (s : State) : State :=
  let l := s.pow.latched
  match s.pow.target with
  | some .doze =>
    let t := { s with pow := { s.pow with mod := .doze, target := none, latched := none } }
    (match l with
     | some .active => startFromDoze t
     | some _ => if s.pow.pwrEn then (requestStandby t).1 else beginStandby { t with pow := { t.pow with nextCause := some 3 } }
     | none => t)
  | _ =>
    let t := { s with pow := { s.pow with mod := .standby, target := none, latched := none } }
    if l = some .active then startFromStandby t else t

def execDozeEntry (bad : List StackId) (s : State) : Res :=
  need (s.pow.windowRun && s.pow.atTick = some .doze) (let t := dozeEntry bad s; if downDone t then shutDownEnds t else t)

/-- A domain's rail has discharged. -/
def domainOff (d : DieId) (s : State) : State :=
  let pow := { s.pow with domains := s.pow.domains.set d .off, temps := s.pow.temps.set d 0xFF }
  let pow := if h : d.val < 4 then { pow with hot := pow.hot.set d.val false } else pow
  let s := thermalCause { s with pow := pow, mem := { s.mem with doubledRefresh := s.mem.doubledRefresh.filter (fun k => stackDie k ≠ d) } }
  if downDone s then shutDownEnds s else s

/-- The hub goes last. -/
def execDomainOff (d : DieId) (s : State) : Res :=
  need (s.pow.domains[d] = .stopping && (d ≠ 4 || [(0 : DieId), 1, 2, 3].all (fun a => s.pow.domains[a] ≠ .stopping))) (domainOff d s)

/-! Signal detect (R275). -/

/-- Energy on a strait that waits in DETECT in fabric mode: it trains. -/
def execSignalDetect (k : StraitId) (s : State) : Res :=
  need (hubUp s && s.fab.straits[k].link = .detect && s.fab.straits[k].mode = 1) (beginTraining k s)

end Sys2Proof.Machine
end

