-- ==== Sys2Proof/Machine/Objects.lean ====
section
/-!
DEFINITION. Machine/Objects.lean: every object of the dictionary (R541 to R553 and the tables that R546 names): its type, roles, default and range, its descriptor (R545), and the value that a read gives.
-/

namespace Sys2Proof.Machine

/-! Descriptors (R542, R543, R545). A role mask has MAKER in bit 0, OPERATOR in bit 1, TENANT in bit 2 and METER in bit 3. -/

/-- What the tables state of a subindex. -/
structure Desc where
  ty : Nat
  len : Nat
  rd : Nat := 0
  wr : Nat := 0
  dflt : Nat := 0
  lo : Nat := 0
  hi : Nat := 0
  live : Bool := false
  persist : Bool := false
  perSession : Bool := false
  perPart : Bool := false
deriving DecidableEq, Repr

/-- Bytes of a type of fixed length (R542). -/
def tyBytes : Nat → Nat
  | 0x01 => 1 | 0x02 => 1 | 0x03 => 2 | 0x04 => 4 | 0x05 => 8 | 0x06 => 1 | 0x07 => 2 | 0x08 => 4 | 0x09 => 8 | 0x0C => 8 | _ => 0
/-- Greatest code of an unsigned type. -/
def tyMax (ty : Nat) : Nat := if ty = 1 then 1 else 2 ^ (8 * tyBytes ty) - 1

/-- Read by OPERATOR, and so by MAKER; by TENANT too; by every role. -/
def rOp : Nat := 3
def rTen : Nat := 7
def rAll : Nat := 15

def ro (ty rd : Nat) (dflt : Nat := 0) : Desc := { ty := ty, len := tyBytes ty, rd := rd, dflt := dflt }
def live (ty rd : Nat) : Desc := { ty := ty, len := tyBytes ty, rd := rd, live := true }
def oct (n rd : Nat) : Desc := { ty := 0x0A, len := n, rd := rd }
def rw (ty rd wr : Nat) (dflt : Nat := 0) (lo : Nat := 0) (hi : Nat := tyMax ty) : Desc := { ty := ty, len := tyBytes ty, rd := rd, wr := wr, dflt := dflt, lo := lo, hi := hi }
def rwOct (n rd wr : Nat) : Desc := { ty := 0x0A, len := n, rd := rd, wr := wr }
def wo (ty wr lo hi : Nat) : Desc := { ty := ty, len := tyBytes ty, wr := wr, lo := lo, hi := hi }
def woOct (n wr : Nat) : Desc := { ty := 0x0A, len := n, wr := wr }
def Desc.kept (d : Desc) : Desc := { d with persist := true }
def Desc.own (d : Desc) : Desc := { d with perSession := true }
def Desc.part (d : Desc) : Desc := { d with perPart := true }

/-- 0x1000 to 0x10FF (R545, R547). -/
def descIdentity (index sub : Nat) : Option Desc :=
  match index, sub with
  | 0x1000, 0 => some (ro 4 rAll 0x480)
  | 0x1008, 0 => some (ro 0x0B rAll (leNat (asciiBytes "Jorrani ")))
  | 0x1009, 0 => some (ro 0x0B rAll)
  | 0x100A, 0 => some (ro 0x0B rAll)
  | 0x100B, 0 => some (oct 64 rAll)
  | 0x1018, 0 => some { ty := 0x0D, len := 48, rd := rAll }
  | 0x1019, 0 => some (oct 8192 rAll)
  | 0x10F0, 1 => some (rw 4 rAll rAll).own
  | 0x10F0, 2 => some (oct 32 rAll)
  | _, _ => none

/-- 0x1100 to 0x11FF (R549, R553, R599, R600). -/
def descModule (index sub : Nat) : Option Desc :=
  match index, sub with
  | 0x1100, 0 => some (ro 2 rAll)
  | 0x1100, 1 => some (rw 2 rAll 2 3 1 3)
  | 0x1100, 2 => some (ro 2 rAll)
  | 0x1100, 3 => some (ro 4 rAll).kept
  | 0x1100, 4 => some (oct 5 rAll)
  | 0x1100, 5 => some (ro 3 rAll)
  | 0x1100, 6 => some (ro 3 rAll)
  | 0x1100, 7 => some (oct 8 rAll)
  | 0x1100, 8 => some (ro 4 rAll)
  | 0x1100, 9 => some (ro 2 rAll)
  | 0x1102, 0 => some (ro 2 rAll)
  | 0x1102, 1 => some (wo 5 2 0 (tyMax 5))
  | 0x1110, 1 => some { oct 512 rOp with live := true }
  | 0x1110, 0x7F => some (ro 5 rOp)
  | 0x1110, _ => if 2 ≤ sub ∧ sub ≤ 6 then some (live 5 rOp) else none
  | 0x1120, 1 => some (rw 4 rOp 3 0 0 (2 ^ 32 - 1024))
  | 0x1120, 2 => some (woOct 1024 3)
  | 0x1120, 3 => some (wo 2 3 1 2)
  | 0x1120, 4 => some (ro 2 rOp)
  | 0x1120, 5 => some (ro 2 rOp)
  | 0x1120, 6 => some (ro 1 rOp)
  | _, _ => none

/-- 0x2000 to 0x21FF (R201, R211). -/
def descTick (s : State) (index sub : Nat) : Option Desc :=
  match index, sub with
  | 0x2000, 0 => some (rw 4 rOp 2 2000 500 8000).kept
  | 0x2001, 0 => some (ro 5 rOp)
  | 0x2002, 0 => some (ro 2 rOp)
  | 0x2002, 1 => some (rw 3 rOp 2).kept
  | 0x2003, 0 => some (ro 3 rOp 0xFFFF)
  | 0x2004, 0 => some (ro 4 rOp)
  | 0x2005, 0 => some (ro 8 rOp)
  | 0x2006, 0 => some (ro 4 rOp)
  | 0x2100, 0 => some (rw 3 rOp 2 3300 300 3300).kept
  | 0x2101, 0 => some (rw 3 rOp 2 3800 s.gov.limit.toNat 3800).kept
  | 0x2102, 0 => some (rw 2 rOp 2 95 60 (s.gov.hard.toNat - 1)).kept
  | 0x2103, 0 => some (rw 2 rOp 2 105 61 110).kept
  | 0x2104, 0 => some (ro 3 rOp 700)
  | 0x2105, 0 => some (ro 4 rOp)
  | 0x2106, 0 => some (ro 4 rOp)
  | 0x2107, 0 => some (ro 4 rOp 65536)
  | 0x2108, 0 => some (ro 4 rOp)
  | 0x2120, _ => if 1 ≤ sub ∧ sub ≤ 0x40 then some (ro 3 rOp 16384).part else none
  | 0x2121, _ => if 1 ≤ sub ∧ sub ≤ 0x40 then some (ro 4 rOp).part else none
  | _, _ => none

/-- 0x3000 + p (R426). -/
def descPart (sub : Nat) : Option Desc :=
  match sub with
  | 0x00 => some (ro 2 rTen)
  | 0x01 => some (rw 2 rTen 2 0 0 2)
  | 0x02 => some (rwOct 16 rTen 2)
  | 0x03 => some (rw 5 rTen 2)
  | 0x04 => some (rw 5 rTen 2)
  | 0x05 => some (rw 3 rTen 2 1024)
  | 0x06 => some (rw 4 rTen 2 1024 0 262125)
  | 0x07 => some (rw 3 rTen 2 16 4 3840)
  | 0x08 => some (wo 2 6 1 2)
  | 0x09 => some (ro 2 rTen)
  | 0x0A => some (ro 2 rTen)
  | 0x0B => some (oct 16 rTen)
  | 0x0C => some (rw 1 rTen 4)
  | 0x0D => some (ro 2 rTen 0xFF)
  | 0x0E => some (oct 16 rTen)
  | 0x0F => some (ro 3 rTen)
  | 0x10 => some (ro 4 rTen)
  | 0x11 => some (oct 32 rTen)
  | _ => none

/-- 0x3100 + p (R552). -/
def descStats (sub : Nat) : Option Desc :=
  if sub = 0x15 then some { oct 512 rTen with live := true }
  else if 1 ≤ sub ∧ sub ≤ 0x14 then some (live 5 rTen)
  else if sub = 0x7F then some (ro 5 rTen)
  else none

/-- 0x4000 + 16 p + r (R181). -/
def descRing (sub : Nat) : Option Desc :=
  match sub with
  | 0 => some (rw 1 rTen 6)
  | 1 => some (rw 5 rTen 6)
  | 2 => some (rw 5 rTen 6)
  | 3 => some (rw 4 rTen 6 0 2 65536)
  | 4 => some (rw 5 rTen 6)
  | 5 => some (rw 5 rTen 6)
  | 6 => some (ro 2 rTen)
  | 7 => some (ro 2 rTen)
  | _ => none

/-- 0x5040 + p (R245, R417). -/
def descMem (sub : Nat) : Option Desc :=
  match sub with
  | 0x01 => some (rw 5 rTen 6 0 0 (2 ^ 56 - 2 ^ 21)).own
  | 0x02 => some (rw 4 rTen 6 0 1).own
  | 0x03 => some (rw 2 rTen 6 0 0 0x17).own
  | 0x04 => some (wo 2 6 1 4)
  | 0x05 => some (ro 2 rTen).own
  | 0x06 => some (ro 4 rTen)
  | 0x07 => some (ro 4 rTen)
  | 0x08 => some (ro 2 rTen)
  | 0x09 => some (rw 5 rTen 6)
  | 0x0A => some (rw 3 rTen 6 0 0 4096)
  | 0x0B => some (ro 4 rTen)
  | 0x0C => some (rw 5 rTen 6 0 0 (2 ^ 56 - 1)).own
  | 0x0D => some (ro 5 rTen)
  | 0x0E => some (ro 4 rTen)
  | 0x10 => some (rw 5 rTen 6 0 0 (2 ^ 56 - 2 ^ 21)).own
  | 0x11 => some (oct 16 rTen)
  | 0x12 => some (ro 2 rTen)
  | 0x13 => some (ro 4 rTen)
  | 0x14 => some (live 5 rTen)
  | _ => none

/-- 0x5000 to 0x503F and 0x5080 (R245, R417). -/
def descTiers (index sub : Nat) : Option Desc :=
  match index, sub with
  | 0x5000, 0 => some (rw 3 rOp 2 32 8 256).kept
  | 0x5001, 0 => some (ro 5 rOp 0xC000000000)
  | 0x5002, 0 => some (ro 5 rOp)
  | 0x5003, 0 => some (rw 5 rOp 2).kept
  | 0x5004, 0 => some (rw 3 rOp 2 256 0 4096).kept
  | 0x5005, 0 => some (rw 3 rOp 2 256).kept
  | 0x5010, 1 => some (rw 3 rOp 2 0 0 1023).own
  | 0x5010, 2 => some (rwOct 16 rOp 2).kept
  | 0x5080, 9 => some (ro 4 rOp)
  | 0x5080, _ => if 1 ≤ sub ∧ sub ≤ 8 then some (live 5 rOp) else none
  | _, _ => none

/-- 0x6000 + s (R279). -/
def descStrait (sub : Nat) : Option Desc :=
  match sub with
  | 0x00 => some (ro 2 rTen)
  | 0x01 => some (rw 2 rOp 2 1 0 2).kept
  | 0x02 => some (wo 1 2 0 1)
  | 0x03 => some { (rw 7 rOp 2).kept with lo := codeOf 64 (-32768), hi := 32767 }
  | 0x04 => some (ro 2 rTen)
  | 0x05 => some (ro 2 rOp 0xFF)
  | 0x06 => some (ro 3 rTen 0xFFFF)
  | 0x07 => some (ro 2 rOp 0xFF)
  | 0x08 => some (ro 4 rOp)
  | 0x10 => some (live 5 rOp)
  | 0x11 => some (live 5 rOp)
  | 0x12 => some (live 5 rOp)
  | 0x13 => some (ro 4 rOp)
  | 0x14 => some (live 5 rOp)
  | 0x15 => some (live 5 rOp)
  | _ => none

/-- 0x6020 to 0x6050 and 0x6F00 to 0x6FFF (R274, R280, R281, R287, R295, R296, R299, R564). LH_PLCA_NODE_ID is written without a session while the Lighthouse's seal reads OPEN. -/
def descNet (s : State) (index sub : Nat) : Option Desc :=
  match index, sub with
  | 0x6020, 0 => some (rw 3 rOp 2 0xFFFF).kept
  | 0x6021, 1 => some (rw 3 rOp 2).own
  | 0x6021, 2 => some (rw 4 rOp 2).kept
  | 0x6022, _ => if 1 ≤ sub ∧ sub ≤ 4 then some (rw 2 rOp 2 64 1).kept else none
  | 0x6030, 0 => some (rw 3 rOp 2 0xFFFF).kept
  | 0x6030, 2 => some (rw 5 rOp 2 0 (2 ^ 21) (2 ^ 38)).kept
  | 0x6030, 3 => some (rw 4 rOp 2 0 0 131071).own
  | 0x6030, 4 => some (rwOct 16 rOp 2).kept
  | 0x6040, 1 => some (rw 4 rTen 6 0 0 262143).own
  | 0x6040, 2 => some (oct 32 rTen)
  | 0x6050, _ => if 1 ≤ sub ∧ sub ≤ 8 then some (ro 5 rOp) else none
  | 0x6F00, 0 => some (ro 2 rOp)
  | 0x6F01, 0 => some (rw 3 rOp 3 30462 1024).kept
  | 0x6F02, 0 => some (rw 2 rOp 3 0xFF).kept
  | 0x6F03, 0 => some (rw 2 rOp 3 17 2).kept
  | 0x6F04, 0 => some (oct 6 rOp)
  | 0x6F05, 0 => some (rwOct 16 rOp 3).kept
  | 0x6F08, _ => if sub = 1 ∨ sub = 2 then some (live 5 rOp) else none
  | 0x6F10, 0 => some (if s.lh.sealed then ro 2 rAll 0xFF else rw 2 rAll rAll 0xFF)
  | _, _ => none

/-- 0x7001 + s (R316, R361). -/
def descSession (s : State) (i sub : Nat) : Option Desc :=
  let cfg := (getSess s i).bind (·.cfg)
  match sub with
  | 0x00 => some (ro 2 rTen)
  | 0x01 => some (rw 5 rTen 6)
  | 0x02 => some (wo 2 6 1 2)
  | 0x03 => some (ro 2 rTen)
  | 0x04 => some (oct 64 rTen)
  | 0x05 => some (ro 3 rTen 0xFFFF)
  | 0x06 => some (wo 5 6 0 (2 ^ 48 - 1))
  | 0x07 => some (wo 5 6 0 (2 ^ 48 - 1))
  | 0x08 => some (rw 3 rTen 6 256 1 4096)
  | 0x09 => some (rw 2 rTen 6 0 0 1)
  | 0x0A => some (rw 5 rTen 6)
  | 0x0B => some (rw 4 rTen 6 0 0 (2 ^ 20))
  | 0x0C => some (ro 5 rTen)
  | 0x0D => some (rw 3 rTen 6 ((cfg.map (·.lr)).getD 0))
  | 0x0E => some (rw 3 rTen 6 ((cfg.map (·.wd)).getD 0))
  | 0x15 => some (live 4 rTen)
  | 0x16 => some (ro 4 rTen)
  | 0x17 => some (oct 512 rTen)
  | 0x18 => some (ro 3 rTen 0xFFFF)
  | 0x19 => some (ro 4 rTen 0xFFFFFFFF)
  | 0x1A => some (ro 4 rTen 0xFFFFFFFF)
  | 0x1B => some (ro 4 rTen 0xFFFFFFFF)
  | 0x1C => some (ro 4 rTen 0xFFFFFFFF)
  | 0x1D => some (rw 5 rTen 2)
  | 0x1E => some (ro 2 rTen)
  | 0x1F => some (ro 2 rTen)
  | 0x20 => some (rw 3 rTen 6).own
  | 0x21 => some (ro 3 rTen)
  | 0x22 => some (ro 3 rTen)
  | _ => if 0x10 ≤ sub ∧ sub ≤ 0x14 then some (live 5 rTen) else none

/-- 0x7000, 0x8000 to 0x9FFF (R316, R431, R433, R438, R445, R508). -/
def descKeys (index sub : Nat) : Option Desc :=
  match index, sub with
  | 0x7000, 1 => some (rw 5 rOp 2).kept
  | 0x7000, 2 => some (ro 5 rOp)
  | 0x8002, 0 => some (woOct 1656 6)
  | 0x8010, 1 => some (rw 3 rTen 6 0 0 4095).own
  | 0x8010, 2 => some (oct 8 rTen)
  | 0x8010, 3 => some (ro 5 rOp)
  | 0x8040, 1 => some (rwOct 32 rTen 6).own
  | 0x8040, 2 => some (wo 2 6 1 2)
  | 0x8040, 3 => some (ro 2 rTen).own
  | 0x8040, 4 => some (ro 4 rTen).own
  | 0x8040, 5 => some (rw 4 rTen 6).own
  | 0x8040, 6 => some (oct 1024 rTen).own
  | 0x9001, 0 => some (rw 4 rOp 2 1800000 10000).kept
  | 0x9001, 1 => some (rw 4 rOp 2 43200000 100000).kept
  | 0x9002, _ => if 1 ≤ sub ∧ sub ≤ 0x40 then some (rw 2 rOp 2 0 0 1).kept.part else none
  | 0x9003, 0 => some (oct 32 rTen)
  | 0x9004, 1 => some (rw 3 rOp 2).own
  | 0x9004, 2 => some (oct 32 rOp)
  | 0x9005, 1 => some (rw 4 rOp 2).own
  | 0x9005, 2 => some (oct 32 rOp)
  | 0x9005, 3 => some (ro 4 rOp)
  | 0x9010, 0 => some (ro 5 rOp)
  | 0x9010, 1 => some (rw 5 rTen 6).own
  | 0x9010, 2 => some (oct 64 rTen)
  | 0x9020, 1 => some (rw 4 rOp 3 0 0 (2 ^ 32 - 1024))
  | 0x9020, 2 => some (woOct 1024 3)
  | 0x9020, 3 => some (wo 2 3 1 2)
  | 0x9020, 4 => some (ro 2 rOp)
  | 0x9020, 5 => some (ro 4 rOp)
  | _, _ => none

/-- 0xA000 to 0xA0FF (R469, R475, R477): the debug objects exist while DBG_STATE is OPEN, as single values of unstated type. The operator key digest is written by the enrolling session, which R559 alone lets through. -/
def descLife (s : State) (index sub : Nat) : Option Desc :=
  match index, sub with
  | 0xA000, 0 => some (ro 2 rAll)
  | 0xA000, 1 => some (ro 2 rAll)
  | 0xA001, 1 => some (oct 32 rAll)
  | 0xA001, 2 => some (wo 2 3 1 2)
  | 0xA001, 3 => some (woOct 7275 3)
  | 0xA001, 4 => some (ro 2 rAll)
  | 0xA002, 1 => some (oct 32 rOp)
  | 0xA002, 2 => some (wo 2 3 1 2)
  | 0xA002, 3 => some (woOct 7275 3)
  | 0xA002, 4 => some (ro 2 rOp)
  | 0xA002, 5 => some (ro 2 rOp)
  | 0xA003, 0 => some (oct 32 rAll)
  | 0xA004, 0 => some (woOct 8192 1)
  | 0xA005, 0 => some (rwOct 64 rAll 2).kept
  | _, 0 => if 0xA080 ≤ index ∧ index ≤ 0xA083 ∧ s.life.dbg = 3 then some (rwOct 0 2 2) else none
  | _, _ => none

/-- 0xB000 to 0xB0FF (R534). -/
def descLighthouse (index sub : Nat) : Option Desc :=
  match index, sub with
  | 0xB000, 0 => some (ro 2 rAll)
  | 0xB000, 1 => some (oct 16 rAll)
  | 0xB000, 2 => some (oct 64 rAll)
  | 0xB001, 0 => some (ro 2 rAll)
  | 0xB001, 1 => some (ro 4 rAll)
  | 0xB001, 2 => some (oct 32 rAll)
  | 0xB002, 0 => some (ro 5 rAll)
  | 0xB002, 1 => some (ro 3 rAll)
  | 0xB003, 1 => some (rw 5 rAll rAll).own
  | 0xB003, 2 => some (oct 320 rAll)
  | 0xB004, 1 => some (rw 5 rAll rAll).own
  | 0xB004, 2 => some (oct 576 rAll)
  | 0xB005, 1 => some (rw 5 rAll rAll).own
  | 0xB005, 2 => some (rw 3 rAll rAll).own
  | 0xB005, 3 => some (oct 1024 rAll)
  | 0xB006, _ => if 1 ≤ sub ∧ sub ≤ 5 then some (ro 5 rAll) else none
  | 0xB007, 1 => some (rw 3 rAll rAll).own
  | 0xB007, 2 => some (oct 1024 rAll)
  | _, _ => none

/-- The partition whose object an index is: 0x3000 + p, 0x3100 + p, 0x4000 + 16 p + r, 0x5040 + p. -/
def indexPart (index : Nat) : Option PartId :=
  if 0x3000 ≤ index ∧ index ≤ 0x303F then partOf (index - 0x3000)
  else if 0x3100 ≤ index ∧ index ≤ 0x313F then partOf (index - 0x3100)
  else if 0x4000 ≤ index ∧ index ≤ 0x43FF then partOf ((index - 0x4000) / 16)
  else if 0x5040 ≤ index ∧ index ≤ 0x507F then partOf (index - 0x5040)
  else none

/-- The Bindery session whose object an index is. -/
def indexSession (index : Nat) : Option Nat := if 0x7001 ≤ index ∧ index ≤ 0x70FF then some (index - 0x7001) else none
/-- The strait whose object an index is. -/
def indexStrait (index : Nat) : Option StraitId := if h : 0x6000 ≤ index ∧ index < 0x6012 then some ⟨index - 0x6000, by omega⟩ else none

/-- The subindex as its table lays it down (R546); none where no chapter does. -/
def plainDesc (s : State) (index sub : Nat) : Option Desc :=
  if (indexPart index).isSome then
    (if index < 0x3100 then descPart sub else if index < 0x4000 then descStats sub else if index < 0x5000 then descRing sub else descMem sub).map Desc.part
  else if (indexStrait index).isSome then descStrait sub
  else match indexSession index with
    | some i => descSession s i sub
    | none =>
      match index / 256 with
      | 0x10 => descIdentity index sub
      | 0x11 => descModule index sub
      | 0x20 => descTick s index sub
      | 0x21 => descTick s index sub
      | 0x50 => descTiers index sub
      | 0x60 => descNet s index sub
      | 0x6F => descNet s index sub
      | 0xA0 => descLife s index sub
      | 0xB0 => descLighthouse index sub
      | _ => descKeys index sub

/-- Objects with twins: those with a live subindex (R551). -/
def hasTwins (index : Nat) : Bool :=
  (0x3100 ≤ index && index ≤ 0x313F) || index = 0x1110 || index = 0x5080 || (0x5040 ≤ index && index ≤ 0x507F) || (indexStrait index).isSome || (indexSession index).isSome || index = 0x6F08

/-- A subindex, its twin at n + 0x80 where it is live, or LATCHED_FRAME at 0xFF (R551). -/
def descOf (s : State) (index sub : Nat) : Option Desc :=
  if hasTwins index ∧ sub = 0xFF then some (ro 5 (if index = 0x1110 ∨ index = 0x5080 ∨ index = 0x6F08 ∨ (indexStrait index).isSome then rOp else rTen))
  else if hasTwins index ∧ 0x80 ≤ sub then (match plainDesc s index (sub - 0x80) with | some d => if d.live then some { d with live := false } else none | none => none)
  else plainDesc s index sub

/-- The 32 bytes of DESC (R545). MIN and MAX of an integer that accepts no write are not stated. -/
def descBytes (index sub : Nat) (d : Desc) : Bytes :=
  let open' : Bool := d.wr = 0 && tyBytes d.ty ≠ 0
  let r := if open' then Config.descRange index sub else (d.lo, d.hi)
  leBytes 1 d.ty ++ leBytes 1 (bitsNat [d.persist, d.live, d.perSession, d.perPart]) ++ leBytes 1 d.rd ++ leBytes 1 d.wr ++ leBytes 2 d.len ++ zeros 2 ++
  leBytes 8 d.dflt ++ leBytes 8 r.1 ++ leBytes 8 r.2

/-! Values. -/

def LinkState.code : LinkState → Nat | .off => 0 | .detect => 1 | .training => 2 | .handshake => 3 | .up => 4 | .host => 5 | .failed => 6
/-- MODULE_STATE (R549). -/
def ModState.code : ModState → Nat
  | .off => 0 | .standby => 1 | .doze => 2 | .active => 3 | .starting => 0x10 | .stopping => 0x11 | .stoppingPending => 0x12 | .booting => 0x20 | .recovery => 0x21
/-- A domain in DOMAIN_STATUS (R600). -/
def DomainState.code : DomainState → Nat | .off => 0 | .up => 1 | .failed => 2 | _ => 3

/-- ALERT_CAUSES (R549). -/
def alertCauses (s : State) : Nat := bitsNat [!s.dict.alerts.isEmpty, s.dict.thermal, s.dict.lhAlert]
/-- MOD_ALERT_N is asserted while a cause stands (R550). -/
def alertPin (s : State) : Bool := alertCauses s ≠ 0

/-- FW_CODE: bytes 4 and 5 of the running image (R548, R594). -/
def fwCode (s : State) : Bytes := match s.fw.running with | some b => slice b 4 2 | none => Config.openRead 0x1018 0 0

/-- IDENTITY (R548). -/
def identity (s : State) : Bytes :=
  leBytes 4 0x0C5A ++ leBytes 4 0x480 ++ leBytes 2 Config.hwCode.toNat ++ slice (fwCode s) 0 2 ++ leBytes 2 0x1F6C ++ leBytes 2 0x480 ++ unitIdBytes ++
  (if s.lh.everOn then lhUnitIdBytes else zeros 16)

/-- DIE_TEMPS of A0 to A3 and H. -/
def dieTemps (s : State) : Bytes := s.pow.temps.toList
/-- DOMAIN_STATUS. -/
def domainStatus (s : State) : Bytes :=
  leBytes 1 (if s.pow.mgmtUp then 1 else 0) ++ leBytes 1 (if s.lh.powered then 1 else 0) ++ leBytes 1 s.pow.domains[4].code ++
  ((List.finRange 4).map (fun d => BitVec.ofNat 8 s.pow.domains[d.val].code)) ++ zeros 1

/-- STATUS_EVENTS: a U32 for each code (R552). -/
def eventBytes (v : Vector (BitVec 32) 128) : Bytes := v.toList.flatMap (fun n => leBytes 4 n.toNat)

/-- The low 6 bytes of a MAC: a first byte and five of a digest (R564). -/
def macOf (first : Nat) (idBytes : Bytes) : Bytes := leBytes 1 first ++ leBytes 5 (Config.sha3 idBytes).toNat
def hubMac : Bytes := macOf 2 unitIdBytes
def lhMac : Bytes := macOf 6 lhUnitIdBytes

/-- 0x1000 to 0x11FF but DESC. -/
def readModule (s : State) (index sub : Nat) : Option Bytes :=
  match index, sub with
  | 0x1000, _ => some (leBytes 4 0x480)
  | 0x1008, _ => some (asciiBytes "Jorrani JT480")
  | 0x1009, _ => some Config.hwRevision
  | 0x100A, _ => some (Config.fwVersion (s.fw.running.getD []))
  | 0x100B, _ => some (leBytes 64 (fwDigest s).toNat)
  | 0x1018, _ => some (identity s)
  | 0x1019, _ => some (slice s.life.cert 0 8192)
  | 0x1100, 0 => some (leBytes 1 s.pow.mod.code)
  | 0x1100, 1 => some (leBytes 1 s.pow.request.toNat)
  | 0x1100, 2 => some (leBytes 1 s.pow.cause.toNat)
  | 0x1100, 3 => some (leBytes 4 s.pow.boots.toNat)
  | 0x1100, 4 => some (dieTemps s)
  | 0x1100, 5 => some (leBytes 2 s.side.powerW.toNat)
  | 0x1100, 6 => some (leBytes 2 s.side.mv.toNat)
  | 0x1100, 7 => some (domainStatus s)
  | 0x1100, 8 => some (leBytes 4 ((s.mem.stacksFailed.dedup.map (fun k => 2 ^ k)).foldl (· + ·) 0))
  | 0x1100, 9 => some (leBytes 1 s.pow.lastWake.toNat)
  | 0x1102, 0 => some (leBytes 1 (alertCauses s))
  | 0x1110, 0x01 => some (eventBytes s.dict.events)
  | 0x1110, 0x81 => some (eventBytes s.dict.eventsLatched)
  | 0x1110, 0x7F => some (leBytes 8 s.tick.frame.toNat)
  | 0x1110, 0xFF => some (leBytes 8 s.tick.latchedFrame.toNat)
  | 0x1110, _ => some (leBytes 8 (if sub < 0x80 then s.dict.counters.toList.getD sub 0 else s.dict.countersLatched.toList.getD (sub - 0x80) 0).toNat)
  | 0x1120, 1 => some (leBytes 4 s.fw.offset.toNat)
  | 0x1120, 4 => some (leBytes 1 s.fw.status.toNat)
  | 0x1120, 5 => some (leBytes 1 s.fw.floor)
  | 0x1120, 6 => some (leBytes 1 (if s.fw.recovered then 1 else 0))
  | _, _ => none

/-- 0x2000 to 0x21FF. -/
def readTick (s : State) (index sub : Nat) : Option Bytes :=
  match index, sub with
  | 0x2000, _ => some (leBytes 4 s.tick.period.toNat)
  | 0x2001, _ => some (leBytes 8 s.tick.frame.toNat)
  | 0x2002, 0 => some (leBytes 1 s.tick.role.toNat)
  | 0x2002, _ => some (leBytes 2 s.tick.priority.toNat)
  | 0x2003, _ => some (leBytes 2 s.tick.master.toNat)
  | 0x2004, _ => some (leBytes 4 s.tick.inForce.toNat)
  | 0x2005, _ => some (leBytes 4 (codeOf 32 s.tick.offset))
  | 0x2006, _ => some (leBytes 4 s.tick.missed.toNat)
  | 0x2100, _ => some (leBytes 2 s.gov.limit.toNat)
  | 0x2101, _ => some (leBytes 2 s.gov.peak.toNat)
  | 0x2102, _ => some (leBytes 1 s.gov.soft.toNat)
  | 0x2103, _ => some (leBytes 1 s.gov.hard.toNat)
  | 0x2104, _ => some (leBytes 2 s.gov.base.toNat)
  | 0x2105, _ => some (leBytes 4 s.gov.budget.toNat)
  | 0x2106, _ => some (leBytes 4 s.gov.overshoot.toNat)
  | 0x2107, _ => some (leBytes 4 s.gov.derate.toNat)
  -- while the guard throttles, the time since it engaged counts too; how much that is, is a free value within the frame (notes/assumptions/3.md)
  | 0x2108, _ => some (leBytes 4 (s.gov.throttleUs.toNat + (if s.gov.throttled then Config.freeNat s.free % (s.tick.inForce.toNat + 1) else 0)))
  | 0x2120, _ => (partOf (sub - 1)).map (fun p => leBytes 2 s.gov.correction[p].toNat)
  | 0x2121, _ => (partOf (sub - 1)).map (fun p => leBytes 4 s.gov.allotment[p].toNat)
  | _, _ => none

/-- 0x3000 + p. -/
def readPart (s : State) (p : PartId) (sub : Nat) : Option Bytes :=
  let x := s.parts[p]
  match sub with
  | 0x00 => some (leBytes 1 x.state.code)
  | 0x01 => some (leBytes 1 x.cls.toNat)
  | 0x02 => some (leBytes 16 x.written.bitmap.toNat)
  | 0x03 => some (leBytes 8 x.written.t1.toNat)
  | 0x04 => some (leBytes 8 x.written.t2.toNat)
  | 0x05 => some (leBytes 2 x.written.share.toNat)
  | 0x06 => some (leBytes 4 x.written.flows.toNat)
  | 0x07 => some (leBytes 2 x.written.slots.toNat)
  | 0x09 => some (leBytes 1 x.opStatus.toNat)
  | 0x0A => some (leBytes 1 x.epoch.toNat)
  | 0x0B => some (leBytes 16 x.keyId.toNat)
  | 0x0C => some (leBytes 1 (if x.hostGrant then 1 else 0))
  | 0x0D => some (leBytes 1 x.jointSession.toNat)
  | 0x0E => some (leBytes 16 x.jointKeyId.toNat)
  | 0x0F => some (leBytes 2 (slotsUsed s.keys p))
  | 0x10 => some (leBytes 4 (flowsUsed s p.val))
  | 0x11 => some (leBytes 32 x.removalRecord.toNat)
  | _ => none

/-- 0x3100 + p. -/
def readStats (s : State) (p : PartId) (sub : Nat) : Option Bytes :=
  let x := s.parts[p]
  match sub with
  | 0x15 => some (eventBytes x.events)
  | 0x95 => some (eventBytes x.eventsLatched)
  | 0x7F => some (leBytes 8 s.tick.frame.toNat)
  | 0xFF => some (leBytes 8 x.latchedFrame.toNat)
  | _ => some (leBytes 8 (if sub < 0x80 then x.live.toList.getD sub 0 else x.latched.toList.getD (sub - 0x80) 0).toNat)

/-- 0x4000 + 16 p + r. -/
def readRing (s : State) (p : PartId) (r : RingId) (sub : Nat) : Option Bytes :=
  let x := s.rings[p][r]
  match sub with
  | 0 => some (leBytes 1 (if x.enable then 1 else 0))
  | 1 => some (leBytes 8 x.headerBase.toNat)
  | 2 => some (leBytes 8 x.recordBase.toNat)
  | 3 => some (leBytes 4 x.size.toNat)
  | 4 => some (leBytes 8 x.tailAddr.toNat)
  | 5 => some (leBytes 8 x.head.toNat)
  | 6 => some (leBytes 1 x.state.toNat)
  | 7 => some (leBytes 1 x.faultStatus.toNat)
  | _ => none

/-- 0x5040 + p. -/
def readMem (s : State) (q : Req) (p : PartId) (sub : Nat) : Option Bytes :=
  let x := s.parts[p]
  let v := perPart s q p
  match sub with
  | 0x01 => some (leBytes 8 v.mapVa.toNat)
  | 0x02 => some (leBytes 4 v.mapPages.toNat)
  | 0x03 => some (leBytes 1 v.mapAttr.toNat)
  | 0x05 => some (leBytes 1 v.mapStatus.toNat)
  | 0x06 => some (leBytes 4 (t1Use s.mem p))
  | 0x07 => some (leBytes 4 (t2Use s.mem p))
  | 0x08 => some (leBytes 1 (if x.overQuota then 1 else 0))
  | 0x09 => some (leBytes 8 x.gatherTable.toNat)
  | 0x0A => some (leBytes 2 x.gatherCount.toNat)
  | 0x0B => some (leBytes 4 (windowBytes x.force.bitmap))
  | 0x0C => some (leBytes 8 v.ptQuery.toNat)
  | 0x0D => some (leBytes 8 v.ptEntry.toNat)
  | 0x0E => some (leBytes 4 (unbackedPages s.mem p))
  | 0x10 => some (leBytes 8 v.rgnQuery.toNat)
  | 0x11 => some (leBytes 16 v.rgnRecord.toNat)
  | 0x12 => some (leBytes 1 (if x.rotating then 1 else 0))
  | 0x13 => some (leBytes 4 (rotationLeft s.vm p))
  | 0x14 => some (leBytes 8 x.poisonedSectors.toNat)
  | 0x94 => some (leBytes 8 x.poisonedLatched.toNat)
  | 0xFF => some (leBytes 8 x.latchedFrame.toNat)
  | _ => none

/-- Counter slots that are free (R395, R587). -/
def freeSlotCount (m : Mem) : Nat := 16384 * (24 - m.stacksFailed.dedup.length) - (m.slots.filter (fun c => !m.stacksFailed.contains (c / 16384))).length

/-- 0x5000 to 0x503F and 0x5080. -/
def readTiers (s : State) (q : Req) (index sub : Nat) : Option Bytes :=
  match index, sub with
  | 0x5000, _ => some (leBytes 2 s.mem.stripe.toNat)
  | 0x5001, _ => some (leBytes 8 (t1Usable s))
  | 0x5002, _ => some (leBytes 8 (privBytes s))
  | 0x5003, _ => some (leBytes 8 s.mem.lendBytes.toNat)
  | 0x5004, _ => some (leBytes 2 s.mem.migPages.toNat)
  | 0x5005, _ => some (leBytes 2 s.mem.promoteHeat.toNat)
  | 0x5010, 1 => some (leBytes 2 (perOf s q).poolIndex.toNat)
  | 0x5010, _ => some (homeBytes s.mem (perOf s q).poolIndex.toNat)
  | 0x5080, 9 => some (leBytes 4 (freeSlotCount s.mem))
  | 0x5080, 0xFF => some (leBytes 8 s.tick.latchedFrame.toNat)
  | 0x5080, _ => some (leBytes 8 (if sub < 0x80 then s.mem.counters.toList.getD sub 0 else s.mem.countersLatched.toList.getD (sub - 0x80) 0).toNat)
  | _, _ => none

/-- 0x6000 + s. -/
def readStrait (s : State) (k : StraitId) (sub : Nat) : Option Bytes :=
  let x := s.fab.straits[k]
  match sub with
  | 0x00 => some (leBytes 1 x.link.code)
  | 0x01 => some (leBytes 1 x.mode.toNat)
  | 0x03 => some (leBytes 2 x.asym.toNat)
  | 0x04 => some (leBytes 1 x.width.toNat)
  | 0x05 => some (leBytes 1 x.spare.toNat)
  | 0x06 => some (leBytes 2 x.peer.toNat)
  | 0x07 => some (leBytes 1 x.peerStrait.toNat)
  | 0x08 => some (leBytes 4 x.delay.toNat)
  | 0x13 => some (leBytes 4 x.counters[3].toNat)
  | 0xFF => some (leBytes 8 s.tick.latchedFrame.toNat)
  | _ => some (leBytes 8 (if sub < 0x80 then x.counters.toList.getD (sub - 0x10) 0 else x.latched.toList.getD (sub - 0x90) 0).toNat)

/-- 0x6020 to 0x6050 and 0x6F00 to 0x6F08. A TENANT's FLOW_QUERY_RECORD is of a context of its own. -/
def readNet (s : State) (q : Req) (index sub : Nat) : Option Bytes :=
  let v := perOf s q
  match index, sub with
  | 0x6020, _ => some (leBytes 2 s.fab.deviceId.toNat)
  | 0x6021, 1 => some (leBytes 2 v.routeDest.toNat)
  | 0x6021, _ => some (leBytes 4 (routeOf s v.routeDest).toNat)
  | 0x6022, _ => some (leBytes 1 (s.fab.vcWeight.toList.getD (sub - 1) 0).toNat)
  | 0x6030, 0 => some (leBytes 2 s.fab.ferry.toNat)
  | 0x6030, 2 => some (leBytes 8 s.fab.apertureBytes.toNat)
  | 0x6030, 3 => some (leBytes 4 v.aptIndex.toNat)
  | 0x6030, _ => some (leBytes 16 (match alGet v.aptIndex.toNat s.fab.aperture with | some a => a.raw.toNat | none => 0))
  | 0x6040, 1 => some (leBytes 4 v.flowQuery.toNat)
  | 0x6040, _ =>
    let f := (getFlow s v.flowQuery.toNat).getD {}
    let own : Bool := match findSess s q with | some x => (getFlow s v.flowQuery.toNat).isSome && (x.part.map (·.val)) = some f.owner | none => false
    if roleOf s q ≠ .tenant ∨ own then some (flowRecord f) else none
  | 0x6050, _ => some (leBytes 8 (s.fab.causewayStats.toList.getD (sub - 1) 0).toNat)
  | 0x6F00, _ => some (leBytes 1 s.side.link.toNat)
  | 0x6F01, _ => some (leBytes 2 s.side.port.toNat)
  | 0x6F02, _ => some (leBytes 1 s.side.node.toNat)
  | 0x6F03, _ => some (leBytes 1 s.side.nodes.toNat)
  | 0x6F04, _ => some hubMac
  | 0x6F05, _ => some (leBytes 16 s.side.addr.toNat)
  | 0x6F08, 0xFF => some (leBytes 8 s.tick.latchedFrame.toNat)
  | 0x6F08, _ => some (leBytes 8 (if sub < 0x80 then s.dict.sb.toList.getD sub 0 else s.dict.sbLatched.toList.getD (sub - 0x80) 0).toNat)
  | _, _ => none

/-- Layers that this rank owns and whose restore version has not been published (R361, R372). -/
def restorePending (x : Session) : Nat :=
  match stepOpt x.elastic.restoreVersion with
  | some vr => ((List.range x.layersOf).filter (fun l => x.elastic.owners[l]? = x.myRank && x.myRank.isSome && (match (x.layer l).newest with | some n => decide (n < vr) | none => true))).length
  | none => 0

/-- 0x7001 + s. The owner of a layer that the session does not have is not stated. -/
def readSession (s : State) (q : Req) (i sub : Nat) : Option Bytes :=
  let x := (getSess s i).getD {}
  let e := x.elastic
  let lay := (alGet i (perOf s q).ownerLayer).getD 0
  match sub with
  | 0x00 => some (leBytes 1 x.state.toNat)
  | 0x01 => some (leBytes 8 x.configAddr.toNat)
  | 0x03 => some (leBytes 1 x.opStatus.toNat)
  | 0x04 => some (leBytes 64 x.digest.toNat)
  | 0x05 => some (leBytes 2 (x.myRank.getD 0xFFFF))
  | 0x08 => some (leBytes 2 x.topk.toNat)
  | 0x09 => some (leBytes 1 x.reduceMode.toNat)
  | 0x0A => some (leBytes 8 x.recordBase.toNat)
  | 0x0B => some (leBytes 4 x.recordSlots.toNat)
  | 0x0C => some (leBytes 8 x.recordCount.toNat)
  | 0x0D => some (leBytes 2 x.lrNow.toNat)
  | 0x0E => some (leBytes 2 x.wdNow.toNat)
  | 0x15 => some (leBytes 4 x.counters[5].toNat)
  | 0x95 => some (leBytes 4 x.latched[5].toNat)
  | 0x16 => some (leBytes 4 e.epoch)
  | 0x17 => some (leBytes 512 ((e.live.dedup.map (fun r => 2 ^ r)).foldl (· + ·) 0))
  | 0x18 => some (leBytes 2 (e.coordinator.getD 0xFFFF))
  | 0x19 => some (leBytes 4 (snapNow x).1.toNat)
  | 0x1A => some (leBytes 4 (snapNow x).2.toNat)
  | 0x1B => some (leBytes 4 e.rollback.toNat)
  | 0x1C => some (leBytes 4 e.restoreVersion.toNat)
  | 0x1D => some (leBytes 8 e.departAt.toNat)
  | 0x1E => some (leBytes 1 e.departState.toNat)
  | 0x1F => some (leBytes 1 e.stopStatus.toNat)
  | 0x20 => some (leBytes 2 lay.toNat)
  | 0x21 => some (match e.owners[lay.toNat]? with | some r => leBytes 2 r | none => slice (Config.openRead (0x7001 + i) 0x21 lay.toNat) 0 2)
  | 0x22 => some (leBytes 2 (restorePending x))
  | 0xFF => some (leBytes 8 s.tick.latchedFrame.toNat)
  | _ => some (leBytes 8 (if sub < 0x80 then x.counters.toList.getD (sub - 0x10) 0 else x.latched.toList.getD (sub - 0x90) 0).toNat)

/-- 0x7000, 0x8000 to 0x9FFF. Queries of slots and audit entries by a TENANT are answered for its own alone; a unit, a history entry or an audit entry that is not there ends DENIED (R431, R507). -/
def readKeys (s : State) (q : Req) (index sub : Nat) : Option Bytes :=
  let v := perOf s q
  let mine := (findSess s q).bind (fun x => x.part.map (·.val))
  match index, sub with
  | 0x7000, 1 => some (leBytes 8 s.bind.carveout.toNat)
  | 0x7000, _ => some (leBytes 8 (carveUsed s.bind))
  | 0x8010, 1 => some (leBytes 2 v.slotQuery.toNat)
  | 0x8010, 2 => if roleOf s q ≠ .tenant ∨ ((alGet v.slotQuery.toNat s.keys.slots).map (·.owner) = mine ∧ mine.isSome) then some (leBytes 8 (slotAttr s.keys v.slotQuery.toNat).toNat) else none
  | 0x8010, _ => some (leBytes 8 s.keys.refusals.toNat)
  | 0x8040, 1 => some (leBytes 32 v.attNonce.toNat)
  | 0x8040, 3 => some (leBytes 1 v.attStatus.toNat)
  | 0x8040, 4 => some (leBytes 4 v.attData.length)
  | 0x8040, 5 => some (leBytes 4 v.attOffset.toNat)
  | 0x8040, 6 => some (attBytes v)
  | 0x9001, 0 => some (leBytes 4 s.ras.testInterval.toNat)
  | 0x9001, _ => some (leBytes 4 s.ras.window.toNat)
  | 0x9002, _ => (partOf (sub - 1)).map (fun p => leBytes 1 s.ras.policy[p].toNat)
  | 0x9003, _ => some (repairSummary s)
  | 0x9004, 1 => some (leBytes 2 v.unitQuery.toNat)
  | 0x9004, _ => if unitExists v.unitQuery.toNat then some (unitStatusBytes s v.unitQuery.toNat) else none
  | 0x9005, 1 => some (leBytes 4 v.histIndex.toNat)
  | 0x9005, 2 => s.ras.history[v.histIndex.toNat]?.map histBytes
  | 0x9005, _ => some (leBytes 4 s.ras.history.length)
  | 0x9010, 0 => some (leBytes 8 s.ras.auditCount)
  | 0x9010, 1 => some (leBytes 8 v.auditSeq.toNat)
  | 0x9010, _ => (s.ras.audit.find? (fun e => e.seq = v.auditSeq.toNat && (roleOf s q ≠ .tenant || some e.part = mine))).map auditBytes
  | 0x9020, 1 => some (leBytes 4 s.ras.libOffset.toNat)
  | 0x9020, 4 => some (leBytes 1 s.ras.libStatus.toNat)
  | 0x9020, 5 => some (leBytes 4 (libVersion s.ras.library))
  | _, _ => none

/-- 0xA000 to 0xA0FF. What a debug object gives is not laid down byte by byte. -/
def readLife (s : State) (index sub : Nat) : Option Bytes :=
  match index, sub with
  | 0xA000, 0 => some (leBytes 1 (lcState s.life.word))
  | 0xA000, _ => some (leBytes 1 (lcIntent s.life.word))
  | 0xA001, 1 => some (leBytes 32 s.life.nonce.toNat)
  | 0xA001, 4 => some (leBytes 1 s.life.status.toNat)
  | 0xA002, 1 => some (leBytes 32 s.life.challenge.toNat)
  | 0xA002, 4 => some (leBytes 1 s.life.dbg.toNat)
  | 0xA002, 5 => some (leBytes 1 s.life.dbgStatus.toNat)
  | 0xA003, _ => some (fuseSummary s)
  | 0xA005, _ => some (leBytes 64 s.life.operatorDigest.toNat)
  | _, _ => if 0xA080 ≤ index ∧ index ≤ 0xA083 then some (Config.openRead index sub s.free) else none

/-- 0xB000 to 0xB0FF, at the hub; at the Lighthouse itself LH_STATE reads RUNNING (R534, R535). -/
def readLighthouse (atLh : Bool) (s : State) (v : PerSession) (index sub : Nat) : Option Bytes :=
  let l := s.lh
  let range (o : Option Nat) : Bytes := leBytes 8 (o.getD (2 ^ 64 - 1))
  match index, sub with
  | 0xB000, 0 => some (leBytes 1 (if l.silent && !atLh then 1 else 0))
  | 0xB000, 1 => some lhUnitIdBytes
  | 0xB000, _ => some (leBytes 64 Config.lhFirmwareDigest.toNat)
  | 0xB001, 0 => some (leBytes 1 (if l.sealed then 1 else 0))
  | 0xB001, 1 => some (leBytes 4 l.sealCount)
  | 0xB001, _ => some (leBytes 32 l.calNonce.toNat)
  | 0xB002, 0 => some (leBytes 8 (l.totalUj / 1000))
  | 0xB002, _ => some (leBytes 2 (if l.samples.isEmpty then 0 else (rheDiv (l.samples.foldl (· + ·) 0) (125 * l.samples.length)).toNat))
  | 0xB003, 1 => some (leBytes 8 v.frameQuery.toNat)
  | 0xB003, _ => (l.ring.find? (fun r => r.seq = v.frameQuery.toNat)).map frameBytes
  | 0xB004, 1 => some (leBytes 8 v.minuteQuery.toNat)
  | 0xB004, _ => lhFind l (.minute v.minuteQuery.toNat)
  | 0xB005, 1 => some (leBytes 8 v.hourQuery.toNat)
  | 0xB005, 2 => some (leBytes 2 v.sealOffset.toNat)
  | 0xB005, _ => lhFind l (.seal v.hourQuery.toNat v.sealOffset.toNat)
  | 0xB006, 1 => some (range (l.minutes.head?.map (·.minute)))
  | 0xB006, 2 => some (range (l.minutes.getLast?.map (·.minute)))
  | 0xB006, 3 => some (range (l.seals.head?.map (·.hour)))
  | 0xB006, 4 => some (range (l.seals.getLast?.map (·.hour)))
  | 0xB006, _ => some (leBytes 8 l.overwritten)
  | 0xB007, 1 => some (leBytes 2 v.certOffset.toNat)
  | 0xB007, _ => lhFind l (.certificate v.certOffset.toNat)
  | _, _ => none

/-- DESC: the descriptor that DESC_QUERY names (R545); none where no object stands there. -/
def descQueried (s : State) (q : Req) : Option Bytes :=
  let n := (perOf s q).descQuery.toNat
  (descOf s (n / 256) (n % 256)).map (descBytes (n / 256) (n % 256))

/-- The value of a subindex that is laid down and read; none where the query that it answers names nothing. -/
def valueOf (s : State) (q : Req) (index sub : Nat) : Option Bytes :=
  if index = 0x10F0 then (if sub = 1 then some (leBytes 4 (perOf s q).descQuery.toNat) else descQueried s q)
  else match indexPart index with
    | some p =>
      if index < 0x3100 then readPart s p sub
      else if index < 0x4000 then readStats s p sub
      else if index < 0x5000 then readRing s p ⟨(index - 0x4000) % 16, Nat.mod_lt _ (by decide)⟩ sub
      else readMem s q p sub
    | none =>
      match indexStrait index, indexSession index with
      | some k, _ => readStrait s k sub
      | _, some i => readSession s q i sub
      | _, _ =>
        match index / 256 with
        | 0x10 => readModule s index sub
        | 0x11 => readModule s index sub
        | 0x20 => readTick s index sub
        | 0x21 => readTick s index sub
        | 0x50 => readTiers s q index sub
        | 0x60 => readNet s q index sub
        | 0x6F => readNet s q index sub
        | 0xA0 => readLife s index sub
        | 0xB0 => readLighthouse false s (perOf s q) index sub
        | _ => readKeys s q index sub

/-! Rights (R543, R546, R559). -/

def Role.bit : Role → Nat | .maker => 0 | .operator => 1 | .enrol => 4 | .tenant => 2 | .meter => 3

/-- A session is bound to the partition or the local rank that an object belongs to; objects of no partition are open to every TENANT that their mask names. -/
def reaches (s : State) (q : Req) (index : Nat) : Bool :=
  match findSess s q with
  | some x =>
    match indexPart index, indexSession index with
    | some p, _ => x.part = some p
    | _, some i => sessMay s q i
    | _, _ => true
  | none => false

/-- The special sessions (R559): the enrolling one writes 0xA005 and nothing else; an unbound TENANT uses 0x8040, writes KEY_IMPORT and reads its partition's object. -/
def unboundMay (s : State) (q : Req) (index : Nat) (write : Bool) : Bool :=
  index = 0x8040 || (write && index = 0x8002) || (!write && 0x3000 ≤ index && index ≤ 0x303F && reaches s q index)

/-- The requester's role is in a mask, and it reaches the object. -/
def mayUse (s : State) (q : Req) (index mask : Nat) (write : Bool) : Bool :=
  match roleOf s q with
  | .enrol => write && index = 0xA005
  | .tenant =>
    (match findSess s q with | some x => x.bound || unboundMay s q index write | none => false) && (mask.testBit 3 || (mask.testBit 2 && reaches s q index))
  | .meter => mask.testBit 3
  | r => mask.testBit r.bit || mask.testBit 3

/-- In RECOVERY a nonce, LC_OP and LC_REQUEST are served without a session (R472, R571). -/
def recoveryOpen (s : State) (index sub : Nat) (write : Bool) : Bool := s.pow.mod = .recovery && index = 0xA001 && (if write then sub = 2 || sub = 3 else sub = 1)

/-- A READ is answered (R541, R543, R546, R564): the object stands, is served now, is read at all, and by this role. LC_STATUS is none of the objects of RECOVERY. -/
def readable (s : State) (q : Req) (index sub : Nat) : Bool :=
  served s index && index < 0xF000 && index ≠ 0x6F10 && !(s.pow.mod = .recovery && index = 0xA001 && sub ≠ 1) &&
  (match descOf s index sub with | some d => d.rd ≠ 0 && mayUse s q index d.rd false | none => false)

/-- A WRITE is heard: as for a read, with the roles that write. -/
def writable (s : State) (q : Req) (index sub : Nat) : Bool :=
  served s index && index < 0xF000 && index ≠ 0x6F10 &&
  (match descOf s index sub with | some d => d.wr ≠ 0 && (mayUse s q index d.wr true || recoveryOpen s index sub true) | none => false)

/-- The bytes that a READ takes; none ends DENIED. -/
def readObject (s : State) (q : Req) (index sub : Nat) : Option Bytes := if readable s q index sub then valueOf s q index sub else none

end Sys2Proof.Machine
end

