-- ==== Sys2Proof/Machine/Dict.lean ====
section
/-!
DEFINITION. Machine/Dict.lean: what a write of each object does (R6, R544 and the objects' own rules), the messages of the dictionary (R554 to R558, R562), its sessions (R559 to R563), and its routes (R564, R565).
-/

namespace Sys2Proof.Machine

/-! Objects with no command of their own (R6). -/

/-- The state after a write that is in order, DENIED otherwise. -/
def when (ok : Bool) (s t : State) : State × Status := if ok then (t, .done) else (s, .denied)

/-- DESC_QUERY (R545): an object that does not exist ends DENIED. -/
def opDescQuery (q : Req) (v : BitVec 32) (s : State) : State × Status :=
  guarded s 0x10F0 (mayUse s q 0x10F0 rAll true && (descOf s (v.toNat / 256) (v.toNat % 256)).isSome && v.toNat < 2 ^ 24) (updPer q (fun x => { x with descQuery := v }) s, .done)

/-- Every T1 frame that a page or a copy holds lies at or above what the private area and the lent range take. -/
def lowRoom (s : State) (bytes : Nat) : Bool := (heldLocs s.mem).all (fun l => match l with | .t1 f => ceilDiv bytes (2 ^ 21) ≤ f | _ => true)

/-- T1 quotas that the next step 4 counts (R428). -/
def quotaSum (s : State) : Nat := ((allParts.filter (fun k => countsNext s.parts[k])).map (fun k => s.parts[k].written.t1.toNat)).foldl (· + ·) 0

/-- POOL_LEND_BYTES (R236): a multiple of 2 MiB, taken from T1 that no partition holds, never below what borrowers hold. -/
def lendOk (s : State) (n : Nat) : Bool :=
  n % 2 ^ 21 = 0 && s.mem.lent.all (fun x => 256 * (x.1 + 1) ≤ n) && lowRoom s (privBytes s + n) && decide (quotaSum s + privBytes s + n ≤ t1Usable s)

/-- CARVEOUT_BYTES is taken from T1 in the same way. -/
def carveOk (s : State) (n : Nat) : Bool :=
  lowRoom s (t1Private n + s.mem.lendBytes.toNat) && decide (quotaSum s + t1Private n + s.mem.lendBytes.toNat ≤ t1Usable s)

/-- A ring's configuration, refused while the ring is enabled (R181). -/
def opRingValue (p : PartId) (r : RingId) (sub n : Nat) (s : State) : State × Status :=
  let w := BitVec.ofNat 64 n
  let off : Bool := !s.rings[p][r].enable
  match sub with
  | 1 => when (off && virtualAt 32 w) s (s.updRing p r (fun g => { g with headerBase := w }))
  | 2 => when (off && virtualAt 32 w) s (s.updRing p r (fun g => { g with recordBase := w }))
  | 3 => when (off && (List.range 16).any (fun k => n = 2 ^ (k + 1))) s (s.updRing p r (fun g => { g with size := BitVec.ofNat 32 n }))
  | 4 => when (off && virtualAt 8 w) s (s.updRing p r (fun g => { g with tailAddr := w }))
  | 5 => when off s (s.updRing p r (fun g => { g with head := w }))
  | _ => (s, .denied)

/-- 0x5040 + p. -/
def opMemValue (q : Req) (p : PartId) (sub n : Nat) (s : State) : State × Status :=
  let w := BitVec.ofNat 64 n
  match sub with
  | 0x01 => when (n % 2 ^ 21 = 0) s (updPerPart q p (fun v => { v with mapVa := w }) s)
  | 0x02 => (updPerPart q p (fun v => { v with mapPages := BitVec.ofNat 32 n }) s, .done)
  | 0x03 => (updPerPart q p (fun v => { v with mapAttr := BitVec.ofNat 8 n }) s, .done)
  | 0x04 => opMapOp n q p s
  | 0x09 => when (virtualAt 64 w) s (s.updPart p (fun x => { x with gatherTable := w }))
  | 0x0A => (s.updPart p (fun x => { x with gatherCount := BitVec.ofNat 16 n }), .done)
  | 0x0C => opPtQuery q p w s
  | 0x10 => opRgnQuery q p w s
  | _ => (s, .denied)

/-- 0x3000 + p. -/
def opPartValue (q : Req) (p : PartId) (sub : Nat) (b : Bytes) (s : State) : State × Status :=
  match sub with
  | 0x08 => if leNat b = 1 then opCreate q p s else opRemove q p s
  | 0x0C => opHostGrant q p (BitVec.ofNat 8 (leNat b)) s
  | _ => opQuota q p (BitVec.ofNat 8 sub) b s

/-- 0x6000 + s. -/
def opStraitValue (q : Req) (k : StraitId) (sub n : Nat) (s : State) : State × Status :=
  match sub with
  | 1 => opStraitMode q k (BitVec.ofNat 8 n) s
  | 2 => opTrain q k (BitVec.ofNat 8 n) s
  | 3 => (s.updStrait k (fun x => { x with asym := BitVec.ofNat 16 n }), .done)
  | _ => (s, .denied)

/-- 0x7001 + s. -/
def opSessionObject (q : Req) (i sub n : Nat) (s : State) : State × Status :=
  match sub with
  | 0x02 => if n = 1 then opSessionOpen q i s else opSessionClose q i s
  | 0x06 => opCloseLayer q i (BitVec.ofNat 64 n) s
  | 0x07 => opWithhold q i (BitVec.ofNat 64 n) s
  | 0x1D => if n = 0 then opDepartWithdraw q i s else opDepartAt q i (BitVec.ofNat 64 n) s
  | 0x20 => opOwnerQuery q i (BitVec.ofNat 16 n) s
  | _ => opSessionValue q i sub n s

/-- 0x1000 to 0x2FFF. The governor's values take effect at the next step 6 (R211). -/
def opModuleValue (q : Req) (index sub n : Nat) (b : Bytes) (s : State) : State × Status :=
  match index, sub with
  | 0x10F0, 1 => opDescQuery q (BitVec.ofNat 32 n) s
  | 0x1100, 1 => if n = 1 then opStateStandby q s else if n = 2 then opStateDoze q s else opStateActive q s
  | 0x1102, 1 => opAlertAck q (BitVec.ofNat 64 n) s
  | 0x1120, 1 => when (n % 1024 = 0) s { s with fw := { s.fw with offset := BitVec.ofNat 32 n } }
  | 0x1120, 2 => opFwChunk q b s
  | 0x1120, 3 => if n = 1 then opFwBegin q s else opFwCommit q s
  | 0x2000, 0 => opFramePeriod q (BitVec.ofNat 32 n) s
  | 0x2002, 1 => ({ s with tick := { s.tick with priority := BitVec.ofNat 16 n } }, .done)
  | 0x2100, 0 => ({ s with gov := { s.gov with limit := BitVec.ofNat 16 n } }, .done)
  | 0x2101, 0 => ({ s with gov := { s.gov with peak := BitVec.ofNat 16 n } }, .done)
  | 0x2102, 0 => ({ s with gov := { s.gov with soft := BitVec.ofNat 8 n } }, .done)
  | 0x2103, 0 => ({ s with gov := { s.gov with hard := BitVec.ofNat 8 n } }, .done)
  | _, _ => (s, .denied)

/-- 0x5000 to 0x6FFF but the objects of partitions and straits. -/
def opFabricValue (q : Req) (index sub n : Nat) (b : Bytes) (s : State) : State × Status :=
  match index, sub with
  | 0x5000, 0 => ({ s with mem := { s.mem with stripe := BitVec.ofNat 16 n } }, .done)
  | 0x5003, 0 => when (lendOk s n) s { s with mem := { s.mem with lendBytes := BitVec.ofNat 64 n } }
  | 0x5004, 0 => ({ s with mem := { s.mem with migPages := BitVec.ofNat 16 n } }, .done)
  | 0x5005, 0 => ({ s with mem := { s.mem with promoteHeat := BitVec.ofNat 16 n } }, .done)
  | 0x5010, 1 => (updPer q (fun v => { v with poolIndex := BitVec.ofNat 16 n }) s, .done)
  | 0x5010, 2 => opPoolHome q b s
  | 0x6020, 0 => ({ s with fab := { s.fab with deviceId := BitVec.ofNat 16 n } }, .done)
  | 0x6021, 1 => (updPer q (fun v => { v with routeDest := BitVec.ofNat 16 n }) s, .done)
  | 0x6021, 2 => opRouteEntry q (BitVec.ofNat 32 n) s
  | 0x6022, _ => ({ s with fab := { s.fab with vcWeight := if h : sub - 1 < 4 then s.fab.vcWeight.set (sub - 1) (BitVec.ofNat 8 n) else s.fab.vcWeight } }, .done)
  | 0x6030, 0 => ({ s with fab := { s.fab with ferry := BitVec.ofNat 16 n } }, .done)
  | 0x6030, 2 => when ((List.range 39).any (fun k => n = 2 ^ k)) s { s with fab := { s.fab with apertureBytes := BitVec.ofNat 64 n } }
  | 0x6030, 3 => (updPer q (fun v => { v with aptIndex := BitVec.ofNat 32 n }) s, .done)
  | 0x6030, 4 => opAptEntry q (BitVec.ofNat 128 (leNat b)) s
  | 0x6040, 1 => opFlowQuery q (BitVec.ofNat 32 n) s
  | 0x6F01, 0 => ({ s with side := { s.side with port := BitVec.ofNat 16 n } }, .done)
  | 0x6F02, 0 => ({ s with side := { s.side with node := BitVec.ofNat 8 n } }, .done)
  | 0x6F03, 0 => ({ s with side := { s.side with nodes := BitVec.ofNat 8 n } }, .done)
  | 0x6F05, 0 => ({ s with side := { s.side with addr := BitVec.ofNat 128 (leNat b) } }, .done)
  | _, _ => (s, .denied)

/-- 0x7000 and 0x8000 on. -/
def opSystemValue (q : Req) (index sub n : Nat) (b : Bytes) (s : State) : State × Status :=
  match index, sub with
  | 0x7000, 1 => if carveOk s n then opCarveout q (BitVec.ofNat 64 n) s else (s, .denied)
  | 0x8002, 0 => opKeyImport q b s
  | 0x8010, 1 => opSlotQuery q (BitVec.ofNat 16 n) s
  | 0x8040, 1 => (updPer q (fun v => { v with attNonce := BitVec.ofNat 256 (leNat b) }) s, .done)
  | 0x8040, 2 => if n = 1 then opSign q s else opLoadCert q s
  | 0x8040, 5 => (updPer q (fun v => { v with attOffset := BitVec.ofNat 32 n }) s, .done)
  | 0x9001, 0 => ({ s with ras := { s.ras with testInterval := BitVec.ofNat 32 n } }, .done)
  | 0x9001, 1 => ({ s with ras := { s.ras with window := BitVec.ofNat 32 n } }, .done)
  | 0x9002, _ => (match partOf (sub - 1) with | some p => ({ s with ras := { s.ras with policy := modVec s.ras.policy p (fun _ => BitVec.ofNat 8 n) } }, .done) | none => (s, .denied))
  | 0x9004, 1 => opUnitQuery q (BitVec.ofNat 16 n) s
  | 0x9005, 1 => opHistQuery q (BitVec.ofNat 32 n) s
  | 0x9010, 1 => opAuditQuery q (BitVec.ofNat 64 n) s
  | 0x9020, 1 => when (n % 1024 = 0) s { s with ras := { s.ras with libOffset := BitVec.ofNat 32 n } }
  | 0x9020, 2 => opLibChunk q b s
  | 0x9020, 3 => if n = 1 then opLibBegin q s else opLibCommit q s
  | 0xA001, 2 => if n = 1 then opNewNonce q s else opTransition q s
  | 0xA001, 3 => opLcRequest q b s
  | 0xA002, 2 => if n = 1 then opChallenge q s else opDebugOpen q s
  | 0xA002, 3 => opDbgResponse q b s
  | 0xA004, 0 => opCertWrite q b s
  | 0xA005, 0 => opEnrol q (BitVec.ofNat 512 (leNat b)) s
  | 0xB003, 1 => opLhQuery q .frame (BitVec.ofNat 64 n) s
  | 0xB004, 1 => opLhQuery q .minute (BitVec.ofNat 64 n) s
  | 0xB005, 1 => opLhQuery q .hour (BitVec.ofNat 64 n) s
  | 0xB005, 2 => opLhQuery q .sealOffset (BitVec.ofNat 64 n) s
  | 0xB007, 1 => opLhQuery q .certOffset (BitVec.ofNat 64 n) s
  | _, _ => if 0xA080 ≤ index ∧ index ≤ 0xA083 then (s, .done) else (s, .denied)

/-- A whole value written to an object that the requester may write. -/
def applyWrite (q : Req) (index sub : Nat) (b : Bytes) (s : State) : State × Status :=
  let n := leNat (b.take 8)
  match indexPart index with
  | some p =>
    if index < 0x3100 then opPartValue q p sub b s
    else if index < 0x4000 then (s, .denied)
    else if index < 0x5000 then
      let r : RingId := ⟨(index - 0x4000) % 16, Nat.mod_lt _ (by decide)⟩
      if sub = 0 then opRingEnable q p r (BitVec.ofNat 8 n) s else opRingValue p r sub n s
    else opMemValue q p sub n s
  | none =>
    match indexStrait index, indexSession index with
    | some k, _ => opStraitValue q k sub n s
    | _, some i => opSessionObject q i sub n s
    | _, _ =>
      if index < 0x3000 then opModuleValue q index sub n b s
      else if 0x5000 ≤ index ∧ index < 0x7000 then opFabricValue q index sub n b s
      else opSystemValue q index sub n b s

/-- The value has its type's length and, where it is an unsigned integer, lies in its range (R542). A debug object's length is not stated. -/
def fitsType (d : Desc) (b : Bytes) : Bool :=
  (b.length = d.len || d.len = 0) && (d.ty = 0x0A || d.ty = 0x0D || (6 ≤ d.ty && d.ty ≤ 9) || (d.lo ≤ leNat b && leNat b ≤ d.hi))

/-- The object keeps its value in module flash (R544); OPERATOR_KEY is held in OTP. -/
def inFlash (s : State) (index sub : Nat) : Bool := index ≠ 0xA005 && (match descOf s index sub with | some d => d.persist | none => false)

/-- A write of an object (R6, R542, R543, R544): a value outside its type or range, or one that the requester may not write, ends DENIED and changes nothing. -/
def writeObject (q : Req) (index sub : Nat) (b : Bytes) (s : State) : State × Status :=
  if writable s q index sub && (match descOf s index sub with | some d => fitsType d b | none => false) then flashed q (inFlash s index sub) s (applyWrite q index sub b s) else (s, .denied)

def execRegisterWrite (q : Req) (index : BitVec 16) (sub : Byte) (value : Bytes) (s : State) : Res := software s (answer q (writeObject q index.toNat sub.toNat value s))

def execDescQuery (q : Req) (v : BitVec 32) (s : State) : Res := software s (answer q (opDescQuery q v s))

/-! Messages (R554, R556, R558, R562). -/

/-- What a request is answered with; none for OPEN_1 when OPEN_2 answers it. -/
abbrev Reply := Option (Status × Bool × Bytes)

def reqOf (m : DictMsg) : Req := { sid := m.sid, src := m.src, flashFails := m.flashFails }
/-- The object that a segment belongs to. -/
def objectNo (m : DictMsg) : Nat := 256 * m.index.toNat + m.sub.toNat

/-- No VERSION, OP or field of the header is reserved (R554, R562). -/
def msgForm (op : Nat) (m : DictMsg) : Bool :=
  m.version = 1 && m.flags.toNat < 4 && m.status = 0 && (op = 3 || m.count = 0) && m.reserved = 0 && m.data.length ≤ 960 && (m.sid ≠ 0 || m.seq = 0) && m.sid < 2 ^ 32

/-- The message names this module (R554, R565); one for another device is not executed. -/
def forHere (s : State) (m : DictMsg) : Bool := m.dest = 0xFFFF || m.dest = s.fab.idInForce

/-- The session's record of a message. -/
def sessOf (s : State) (sid : Nat) : Option DSess := s.dict.sessions.find? (fun x => x.sid = sid && sid ≠ 0)

/-- Dropped, counted and not answered (R562). -/
def dropMsg (s : State) : State := { s with dict := { s.dict with counters := bump s.dict.counters 3 1 } }

/-- A frame comes by the sideband, or `n` go out on it. -/
def sbFrame (m : DictMsg) (i n : Nat) (s : State) : State := if m.route = .sideband then { s with dict := s.dict.frames i n } else s

/-- The data of a response in the message's session, as it travels on the message's route (R554, R560). -/
def msgWire (s : State) (m : DictMsg) (st : Status) (more : Bool) (data : Bytes) : Bytes :=
  match sessOf s m.sid with
  | some x => x.wire m.route (dictHeader 4 (if more then 2 else 0) st.code m.index.toNat m.sub.toNat 0 m.reqId.toNat 0xFFFF m.sid (x.seqOut + 1) m.offset data.length) data
  | none => data

/-- A response that takes the session's next SEQ. -/
def respondSeq (m : DictMsg) (st : Status) (more : Bool) (data : Bytes) (s : State) : State :=
  let wire := msgWire s m st more data
  let s := { s with dict := { s.dict with sessions := s.dict.sessions.map (fun x => if x.sid = m.sid ∧ m.sid ≠ 0 then x.sent else x) } }
  (sbFrame m 2 1 s).emit [.response m.sid m.src m.reqId st more wire]

/-- A response (R554); in a session it takes the next SEQ and is kept among the last 8. -/
def respond (m : DictMsg) (st : Status) (more : Bool) (data : Bytes) (s : State) : State :=
  let k : Kept := { reqId := m.reqId, index := m.index.toNat, sub := m.sub.toNat, offset := m.offset, data := m.data, status := st, more := more, answer := data }
  respondSeq m st more data { s with dict := { s.dict with sessions := s.dict.sessions.map (fun x => if x.sid = m.sid ∧ m.sid ≠ 0 then { x with kept := (k :: x.kept).take 8 } else x) } }

/-- A response in clear, outside any session's protection (R562). -/
def respondClear (m : DictMsg) (st : Status) (more : Bool) (data : Bytes) (s : State) : State := (sbFrame m 2 1 s).emit [.response m.sid m.src m.reqId st more data]

/-- A kept response that a request repeats (R558). -/
def keptFor (m : DictMsg) (x : DSess) : Option Kept :=
  x.kept.find? (fun k => k.reqId = m.reqId && k.index = m.index.toNat && k.sub = m.sub.toNat && k.offset = m.offset && k.data = m.data)

/-- The request runs: it counts as executed, and is answered. -/
def runMsg (m : DictMsg) (f : State → State × Reply) (s : State) : State :=
  let r := f { s with dict := { s.dict with counters := bump s.dict.counters 2 1 } }
  match r.2 with
  | some (st, more, data) => respond m st more data r.1
  | none => r.1

/-- A message in a session: its tag and its SEQ are checked, a repeated request is answered as before, and any other runs (R557, R558, R562). -/
def inSession (m : DictMsg) (x : DSess) (f : State → State × Reply) (s : State) : State :=
  if x.revoked then respondClear m .keyRevoked false [] s
  else if !m.tagOk ∨ m.seq ≤ x.seqIn then dropMsg s
  else
    let s := { s with dict := { s.dict with sessions := s.dict.sessions.map (fun y => if y.sid = m.sid then { y with seqIn := m.seq } else y) } }
    match keptFor m x with
    | some k => respondSeq m k.status k.more k.answer s
    | none => runMsg m f s

/-- A message of the dictionary (R554, R562). -/
def message (op : Nat) (m : DictMsg) (f : State → State × Reply) (s : State) : State :=
  let s := sbFrame m 1 1 s
  if !forHere s m then s
  else if !msgForm op m then dropMsg s
  else if m.sid = 0 then runMsg m f s
  else match sessOf s m.sid with
    | none => respondClear m .denied false [] s
    | some x => inSession m x f s

/-! Reads (R555). -/

/-- Keep a value for segmented reads. -/
def hold (q : Req) (key : Nat) (b : Bytes) (s : State) : State := updSess q (fun x => { x with held := alSet key b x.held }) s

/-- The bytes of a held value from an offset on. -/
def pieceOf (b : Bytes) (off : Nat) : Reply := some (.done, off + 960 < b.length, (b.drop off).take 960)

/-- At OFFSET 0 the value is taken and held; at any other, the held value goes on. -/
def readFrom (q : Req) (key off : Nat) (fresh : Option Bytes) (s : State) : State × Reply :=
  match (if off = 0 then fresh else (match fresh, findSess s q with | some _, some x => alGet key x.held | _, _ => none)) with
  | some b => (if off = 0 then hold q key b s else s, pieceOf b off)
  | none => (s, some (.denied, false, []))

def doRead (m : DictMsg) (s : State) : State × Reply := readFrom (reqOf m) (objectNo m) m.offset (readObject s (reqOf m) m.index.toNat m.sub.toNat) s

/-- The values of several subindexes, taken at one instant; none where one of them is not answered. -/
def blockOf (s : State) (q : Req) (index sub count : Nat) : Option Bytes :=
  if 256 < sub + count then none
  else (List.range count).foldl (fun acc i => match acc, readObject s q index (sub + i) with | some b, some v => some (b ++ v) | _, _ => none) (some [])

def doReadBlock (m : DictMsg) (s : State) : State × Reply :=
  readFrom (reqOf m) (2 ^ 32 + 256 * (objectNo m) + m.count.toNat) m.offset (blockOf s (reqOf m) m.index.toNat m.sub.toNat m.count.toNat) s

/-! Writes (R555). -/

/-- Where a segment leaves the staged value: refused, staged, or whole. -/
inductive Segment where
  | refused | more | whole (b : Bytes)
deriving DecidableEq, Repr

/-- Take one segment of a value of at most `limit` bytes. OFFSET 0 starts the value anew; a segment out of order, or a value too long, discards it. -/
def takeSegment (q : Req) (key limit : Nat) (m : DictMsg) (s : State) : State × Segment :=
  let old := if m.offset = 0 then some [] else (findSess s q).bind (fun x => alGet key x.staged)
  let clear := updSess q (fun x => { x with staged := alDel key x.staged }) s
  match old with
  | none => (clear, .refused)
  | some b =>
    let b := b ++ m.data
    if m.offset ≠ b.length - m.data.length ∨ limit < b.length then (clear, .refused)
    else if m.flags.getLsbD 0 then (clear, .whole b)
    else (updSess q (fun x => { x with staged := alSet key b x.staged }) s, .more)

/-- The longest value that an object takes; a debug object's is not stated. -/
def lengthLimit (s : State) (index sub : Nat) : Nat := match descOf s index sub with | some d => if d.len = 0 then 2 ^ 32 else d.len | none => 0

def doWrite (m : DictMsg) (s : State) : State × Reply :=
  if !writable s (reqOf m) m.index.toNat m.sub.toNat then (s, some (.denied, false, []))
  else match takeSegment (reqOf m) (objectNo m) (lengthLimit s m.index.toNat m.sub.toNat) m s with
    | (s, .refused) => (s, some (.denied, false, []))
    | (s, .more) => (s, some (.partialDone, false, []))
    | (s, .whole b) => let r := writeObject (reqOf m) m.index.toNat m.sub.toNat b s; (r.1, some (r.2, false, []))

/-- More than 1 s has passed since a segment: the staged value is discarded. -/
def execSegmentGapTimeout (q : Req) (object : Nat) (s : State) : Res :=
  need (reachable s && (match findSess s q with | some x => (alGet object x.staged).isSome | none => false)) (updSess q (fun x => { x with staged := alDel object x.staged }) s)

/-! The Lighthouse at its own address (R535, R564): sessionless sideband messages that the hub does not take. -/

/-- An object that the Lighthouse answers itself: LH_PLCA_NODE_ID always, the mirror while the hub is not reachable. -/
def lhServes (s : State) (m : DictMsg) : Bool :=
  s.lh.powered && m.route = .sideband && m.sid = 0 && (m.index = 0x6F10 || (!reachable s && m.index.toNat / 256 = 0xB0))

/-- What the Lighthouse reads. -/
def lhValue (s : State) (m : DictMsg) : Option Bytes :=
  if m.index = 0x6F10 then (if m.sub = 0 then some (leBytes 1 s.lh.plcaNode.toNat) else none)
  else match descLighthouse m.index.toNat m.sub.toNat with
    | some _ => readLighthouse true s (perOf s (reqOf m)) m.index.toNat m.sub.toNat
    | none => none

/-- The Lighthouse answers: no hub counter takes part. -/
def lhAnswer (m : DictMsg) (r : State × Reply) : State :=
  match r.2 with
  | some (st, more, data) => r.1.emit [.response 0 m.src m.reqId st more data]
  | none => r.1

def lhRead (m : DictMsg) (s : State) : State := if msgForm 1 m then lhAnswer m (readFrom (reqOf m) (objectNo m) m.offset (lhValue s m) s) else s

/-- A write at the Lighthouse: its node ID while the seal reads OPEN, and the query subindexes. -/
def lhWrite (m : DictMsg) (s : State) : State :=
  let n := leNat m.data
  let one : Bool := m.offset = 0 && m.flags.getLsbD 0
  let v := BitVec.ofNat 64 n
  let per (f : PerSession → PerSession) : State × Reply := (updPer (reqOf m) f s, some (.done, false, []))
  let no : State × Reply := (s, some (.denied, false, []))
  let r : State × Reply := match m.index.toNat, m.sub.toNat, m.data.length with
    | 0x6F10, 0, 1 => if s.lh.sealed then no else ({ s with lh := { s.lh with plcaNode := BitVec.ofNat 8 n } }, some (.done, false, []))
    | 0xB003, 1, 8 => per (fun p => { p with frameQuery := v })
    | 0xB004, 1, 8 => per (fun p => { p with minuteQuery := v })
    | 0xB005, 1, 8 => per (fun p => { p with hourQuery := v })
    | 0xB005, 2, 2 => per (fun p => { p with sealOffset := BitVec.ofNat 16 n })
    | 0xB007, 1, 2 => per (fun p => { p with certOffset := BitVec.ofNat 16 n })
    | _, _, _ => no
  if !msgForm 2 m then s else lhAnswer m (if one then r else no)

def execRead (m : DictMsg) (s : State) : Res := if lhServes s m then .next (lhRead m s) else heard (reachable s) s (message 1 m (doRead m) s)
def execWrite (m : DictMsg) (s : State) : Res := if lhServes s m then .next (lhWrite m s) else heard (reachable s) s (message 2 m (doWrite m) s)
def execReadBlock (m : DictMsg) (s : State) : Res := heard (reachable s) s (message 3 m (doReadBlock m) s)

/-! Sessions (R559 to R563). -/

/-- A session ends: its key slot is erased, and its values with it. -/
def endSession (sid : Nat) (s : State) : State :=
  let s := match (sessOf s sid).bind (·.slot) with | some i => eraseKey i s | none => s
  { s with dict := { s.dict with sessions := s.dict.sessions.filter (fun x => x.sid ≠ sid || sid = 0) } }

/-- CLOSE is answered, and the session ends. -/
def closeMsg (m : DictMsg) (s : State) : State :=
  let t := message 0x14 m (fun s => (s, some (if m.sid = 0 then .denied else .done, false, []))) s
  match sessOf s m.sid, sessOf t m.sid with
  | some x, some y => if x.seqIn < y.seqIn then endSession m.sid t else t
  | _, _ => t

def execSessionClose (m : DictMsg) (s : State) : Res := heard (reachable s) s (closeMsg m s)

/-- 600 s without an accepted message. -/
def execSessionIdleTimeout (sid : Nat) (s : State) : Res := need (s.pow.mgmtUp && (match sessOf s sid with | some x => !x.revoked | none => false)) (endSession sid s)

/-- Opens are heard (R463, R559, R564, R571). -/
def hearsOpens (s : State) (role : Nat) : Bool := s.life.force ≠ 5 && !s.pow.scrapped && (s.pow.mod ≠ .recovery || role ≤ 2)

/-- OPEN_1 is not refused (R561). -/
def open1Ok (s : State) (route : Route) (role part : Nat) : Bool :=
  hearsOpens s role &&
  (match role with
   | 1 => part = 0xFF
   | 2 => part = 0xFF && s.life.operatorDigest ≠ 0
   | 3 => part = 0xFF && s.life.force = 2 && s.life.operatorDigest = 0 && route = .sideband
   | 4 => (match partOf part with | some p => s.parts[p].state = .created || s.parts[p].state = .active | none => false)
   | _ => false)

/-- A session ID that is not in use; which one is not stated (log 3). -/
def freshSid (d : Dict) (seed : Nat) : Nat :=
  let used := d.sessions.map (·.sid) ++ d.openings.map (·.sid)
  (((List.range (used.length + 1)).map (fun i => 1 + (seed + i) % (2 ^ 32 - 1))).find? (fun n => !used.contains n)).getD 1

/-- The context of session signatures (R560). -/
def sessCtx : String := "JT480 DICT SESSION"

def openFailed (s : State) : State := { s with dict := { s.dict with counters := bump s.dict.counters 4 1 } }

/-- OPEN_2: a session ID, a nonce, an ephemeral key, and the signature over what has passed. It fills seven messages. -/
def offerSession (m : DictMsg) (role part : Nat) (b : Bytes) (s : State) : State :=
  let sid := freshSid s.dict (Config.freeNat s.free)
  let (nonce, s) := ({ s with free := s.free + 1 } : State).entropy
  let (s1, s) := s.entropy
  let (s2, s) := s.entropy
  let pub := Config.kemPublic (s1 ++ s2)
  let t := b ++ leBytes 4 sid ++ nonce ++ pub
  let sig := Config.dsaSign identitySeed sessCtx (digestBytes t)
  let o : Opening := { sid := sid, src := m.src, role := role, part := partOf part, kemSeed := s1 ++ s2, transcript := t ++ sig }
  (sbFrame m 2 7 { s with dict := { s.dict with openings := o :: s.dict.openings } }).emit [.open2 m.src sid (BitVec.ofNat 256 (leNat nonce)) pub sig]

/-- The sessionless record under which an opening is staged. -/
def openerOf (m : DictMsg) : Req := { sid := 0, src := m.src }

def doOpen1 (m : DictMsg) (s : State) : State × Reply :=
  match takeSegment (openerOf m) (2 ^ 24 + 0x10) 34 m s with
  | (s, .refused) => (openFailed s, some (.denied, false, []))
  | (s, .more) => (s, some (.partialDone, false, []))
  | (s, .whole b) =>
    let role := leNat (b.take 1)
    let part := leNat (slice b 1 1)
    if b.length = 34 ∧ open1Ok s m.route role part then (offerSession m role part b s, none) else (openFailed s, some (.denied, false, []))

def execOpen1 (m : DictMsg) (s : State) : Res := heard (reachable s) s (message 0x10 { m with sid := 0 } (doOpen1 { m with sid := 0 }) s)

/-- What OPEN_3 proves and derives. -/
structure Proof3 where
  ok : Bool
  role : Role
  bound : Bool
  key : Bytes
  root : Bytes
  epoch : Nat
  parent : Nat
deriving DecidableEq, Repr

/-- A partition's secret of its current epoch, and its slot. -/
def currentSecret (s : State) (p : PartId) : Option (Nat × KeySlot) :=
  s.keys.slots.find? (fun k => !k.2.revoked && k.2.owner = p.val && k.2.purpose = 1 && k.2.epoch = s.parts[p].epoch.toNat)

/-- The proof of an OPEN_3 whose data after the ciphertext is `d` (R559, R560). -/
def proofOf (s : State) (route : Route) (o : Opening) (ct d : Bytes) : Proof3 :=
  let t := o.transcript ++ ct
  let pub := d.take 2592
  let signed : Bool := d.length = 7219 && Config.dsaVerify pub sessCtx (digestBytes (t ++ pub)) (d.drop 2592)
  let no : Proof3 := { ok := false, role := .meter, bound := true, key := [], root := zeros 32, epoch := 0, parent := 0x1FFF }
  match o.role with
  | 1 => { no with ok := signed && Config.sha3 pub = Config.otpMakerDigest && s.life.force ≠ 5, role := .maker, key := pub }
  | 2 => { no with ok := signed && s.life.operatorDigest ≠ 0 && Config.sha3 pub = s.life.operatorDigest && s.life.force ≤ 3, role := .operator, key := pub }
  | 3 => { no with ok := signed && s.life.force = 2 && s.life.operatorDigest = 0 && route = .sideband, role := .enrol, key := pub }
  | _ =>
    match o.part with
    | some p =>
      if s.parts[p].state = .active then
        match currentSecret s p with
        | some k =>
          let root := tenantRoot k.2.value p.val k.2.epoch
          { no with ok := d = Config.kmac256 root (digestBytes t) 512 "JT480 TENANT PROOF", role := .tenant, root := root, epoch := k.2.epoch, parent := k.1 }
        | none => no
      else { no with ok := s.parts[p].state = .created && d = [], role := .tenant, bound := false }
    | none => no

/-- Sessions of a role that live. -/
def liveSess (s : State) (f : DSess → Bool) : Nat := (s.dict.sessions.filter (fun x => x.sid ≠ 0 && !x.revoked && f x)).length

/-- The limit of a role is not reached (R559). -/
def sessRoom (s : State) (r : Proof3) (part : Option PartId) : Bool :=
  match r.role with
  | .maker => liveSess s (fun x => x.role = .maker || x.role = .operator) < 8
  | .operator => liveSess s (fun x => x.role = .maker || x.role = .operator) < 8
  | .enrol => liveSess s (fun x => x.role = .enrol) < 1
  | .tenant => if r.bound then (match part with | some p => roomFor s p 1 | none => false) else liveSess s (fun x => x.role = .tenant && !x.bound && x.part = part) < 1
  | .meter => false

/-- The key slot of a session: OPERATOR_SESSION among the reserved ones, TENANT_SESSION of its partition; an unbound session has none. -/
def sessSlot (r : Proof3) (o : Opening) (kmat : Bytes) (s : State) : State × Option Nat :=
  match r.role, o.part with
  | .tenant, some p => if r.bound then (match addKey true (keyOf p.val 0x05 r.epoch 0 r.parent r.root) s with | some (s, i) => (s, some i) | none => (s, none)) else (s, none)
  | .tenant, none => (s, none)
  | _, _ => match addKey false (keyOf 0x40 0x19 0 o.sid 0x1FFF kmat) s with | some (s, i) => (s, some i) | none => (s, none)

/-- The session opens, with the keys of both directions (R560). -/
def startSession (m : DictMsg) (o : Opening) (r : Proof3) (ct d : Bytes) (s : State) : State :=
  let kmat := Config.kmac256 (Config.kemDecaps o.kemSeed ct ++ r.root) (digestBytes (o.transcript ++ ct ++ d)) 512 sessCtx
  let (s, slot) := sessSlot r o kmat s
  let x : DSess := { sid := o.sid, src := m.src, role := r.role, part := o.part, bound := r.bound, route := m.route, ownKey := r.key, slot := slot, keyIn := kmat.take 32, keyOut := slice kmat 32 32 }
  { s with dict := { s.dict with sessions := x :: s.dict.sessions } }

/-- The opening that an OPEN_3 continues: the one it names, or the latest of its sender. -/
def openingOf (s : State) (m : DictMsg) : Option Opening := s.dict.openings.find? (fun o => o.src = m.src && (m.sid = 0 || o.sid = m.sid))

/-- A whole OPEN_3. -/
def decideOpen (m : DictMsg) (o : Opening) (b : Bytes) (s : State) : State × Reply :=
  let s := { s with dict := { s.dict with openings := s.dict.openings.filter (fun x => x.sid ≠ o.sid) } }
  let r := proofOf s m.route o (b.take 1568) (b.drop 1568)
  if b.length < 1568 ∨ !r.ok ∨ !hearsOpens s o.role then (openFailed s, some (.denied, false, []))
  else if !sessRoom s r o.part then (openFailed s, some (.quota, false, []))
  else (startSession m o r (b.take 1568) (b.drop 1568) s, some (.done, false, []))

def doOpen3 (m : DictMsg) (s : State) : State × Reply :=
  match openingOf s m with
  | none => (openFailed s, some (.denied, false, []))
  | some o =>
    match takeSegment (openerOf m) (2 ^ 24 + 0x12) 8787 m s with
    | (s, .refused) => (openFailed s, some (.denied, false, []))
    | (s, .more) => (s, some (.partialDone, false, []))
    | (s, .whole b) => decideOpen m o b s

/-- OPEN_3 comes before its session exists, so that no envelope is asked of it. -/
def execOpen3 (m : DictMsg) (s : State) : Res := heard (reachable s) s (message 0x12 { m with sid := 0, seq := 0 } (doOpen3 m) s)

/-! The mailbox (R565). -/

/-- The 32-byte header of a message (R554). -/
def msgHeader (op : Nat) (m : DictMsg) : Bytes :=
  [m.version] ++ leBytes 1 op ++ [m.flags, m.status] ++ leBytes 2 m.index.toNat ++ [m.sub, m.count] ++ leBytes 2 m.reqId.toNat ++ leBytes 2 m.dest.toNat ++ leBytes 4 m.sid ++ leBytes 8 m.seq ++
  leBytes 4 m.offset ++ leBytes 2 m.data.length ++ leBytes 2 m.reserved.toNat

/-- DONE with the route status, and the vector of the slot. -/
def mailDone (k : StraitId) (slot : Fin 16) (st : Status) (s : State) : State := s.emit [.mailboxDone k slot st (1 + slot.val % 7)]

/-- A message by its OP; an OP that is none of a request's is reserved. -/
def dictMessage (op : Nat) (m : DictMsg) (s : State) : State :=
  match op with
  | 0x01 => message 1 m (doRead m) s
  | 0x02 => message 2 m (doWrite m) s
  | 0x03 => message 3 m (doReadBlock m) s
  | 0x10 => message 0x10 { m with sid := 0 } (doOpen1 { m with sid := 0 }) s
  | 0x12 => message 0x12 { m with sid := 0, seq := 0 } (doOpen3 m) s
  | 0x14 => closeMsg m s
  | _ => dropMsg s

/-- A request for another module travels on the host flow; where there is none, the target cannot be reached. `back` is the RESPONSE that comes back, which lands in the slot; without one the slot waits, until the flow is lost. -/
def mailAway (k : StraitId) (slot : Fin 16) (op : Nat) (m : DictMsg) (back : Option Bytes) (s : State) : State :=
  match findFlow s 0x40 m.dest 8 none with
  | none => mailDone k slot .linkLost s
  | some f =>
    let t := sendPkt f 8 0 (m.reqId.toNat * 2 ^ 64) (pad32 (msgHeader op m ++ m.data)) s
    match back with
    | some b => mailDone k slot .done (t.emit [.mailboxData k slot b])
    | none => { t with fab := { t.fab with mailbox := (k, slot, m.reqId, m.dest) :: t.fab.mailbox.filter (fun x => !(x.1 = k && x.2.1 = slot)) } }

/-- GO: a request for the ferry itself is executed here, and its response lands in the slot; any other travels. -/
def mailGo (k : StraitId) (slot : Fin 16) (op : Nat) (m : DictMsg) (back : Option Bytes) (s : State) : State :=
  let m := { m with route := .mailbox }
  if forHere s m then
    let t := dictMessage op m s
    if t.out.length = s.out.length then t else mailDone k slot .done t
  else mailAway k slot op m back s

/-- Before IDE is up a write of BAR0 is an Unsupported Request (R298). -/
def execMailboxGo (k : StraitId) (slot : Fin 16) (op : Byte) (m : MailRequest) (s : State) : Res :=
  need (hostUp s k && reachable s) (if s.fab.straits[k].ide then mailGo k slot op.toNat m.msg m.back s else s.emit [.hostUnsupported k])

end Sys2Proof.Machine
end

