-- ==== Sys2Proof/Machine/Sideband.lean ====
section
/-!
DEFINITION. Machine/Sideband.lean: the sideband link, its ICMPv6 echo and neighbour discovery (R564), and the I3C target (R567).
-/

namespace Sys2Proof.Machine

/-! The sideband network. -/

/-- SB_LINK_STATE moves among DOWN, CSMA_CD and PLCA; without a node ID the hub runs CSMA/CD only. -/
def execSbLinkStateChange (v : Byte) (s : State) : Res :=
  need (s.pow.mgmtUp && v.toNat ≤ 2 && (v ≠ 2 || s.side.node ≠ 0xFF)) { s with side := { s.side with link := v } }

/-- The node that is addressed has power: the hub's management domain, or the Lighthouse. -/
def nodeUp (s : State) (lighthouse : Bool) : Bool := if lighthouse then s.lh.powered else reachable s

/-- A frame at a node and the frames that it sends; the hub counts its own. -/
def nodeFrames (lighthouse : Bool) (tx : Nat) (s : State) : State := if lighthouse then s else { s with dict := (s.dict.frames 1 1).frames 2 tx }

/-- An echo request is answered with its payload; a reply above 1,280 bytes is not sent, and what asks for one would have come as a fragment. -/
def echo (lighthouse : Bool) (payload : Bytes) (s : State) : State :=
  if payload.length + 48 ≤ 1280 then (nodeFrames lighthouse 1 s).emit [.echoReply lighthouse payload] else nodeFrames lighthouse 0 s

def execIcmpv6Echo (lighthouse : Bool) (payload : Bytes) (s : State) : Res := heard (nodeUp s lighthouse) s (echo lighthouse payload s)

/-- The link-local address of a MAC, with its modified EUI-64 (R564): the first byte's local bit inverted, 0xFFFE between its halves. -/
def linkLocal (mac : Bytes) : BitVec 128 :=
  let b (i : Nat) : Byte := mac.getD i 0
  BitVec.ofNat 128 (leNat ([0xFE, 0x80, 0, 0, 0, 0, 0, 0, b 0 ^^^ 2, b 1, b 2, 0xFF, 0xFE, b 3, b 4, b 5] : Bytes))

/-- The addresses of a node: its link-local one, and the hub's additional one. -/
def nodeHas (s : State) (lighthouse : Bool) (addr : BitVec 128) : Bool :=
  if lighthouse then addr = linkLocal lhMac else addr = linkLocal hubMac || (s.side.addr ≠ 0 && addr = s.side.addr)

/-- A solicitation of the node's address is answered with its MAC; an advertisement is applied to the node's neighbour cache. -/
def discover (lighthouse solicitation : Bool) (addr : BitVec 128) (mac : BitVec 48) (s : State) : State :=
  if solicitation then
    if nodeHas s lighthouse addr then
      (nodeFrames lighthouse 1 s).emit [.advert lighthouse (BitVec.ofNat 48 (leNat (if lighthouse then lhMac else hubMac)))]
    else nodeFrames lighthouse 0 s
  else
    let s := nodeFrames lighthouse 0 s
    if lighthouse then { s with side := { s.side with lhNeighbours := kvSet addr mac s.side.lhNeighbours } }
    else { s with side := { s.side with neighbours := kvSet addr mac s.side.neighbours } }

def execNeighbourDiscovery (lighthouse solicitation : Bool) (addr : BitVec 128) (mac : BitVec 48) (s : State) : Res := heard (nodeUp s lighthouse) s (discover lighthouse solicitation addr mac s)

/-! I3C (R567). -/

/-- The provisioned ID: 16 bits that the unit fixes, and bytes 0 to 3 of SHA3-512(UNIT_ID) in bits [31:0]. -/
def i3cPid : Nat := Config.i3cPidHigh.toNat * 2 ^ 32 + leNat (leBytes 4 (Config.sha3 unitIdBytes).toNat)

/-- The 48-bit provisioned ID, its upper byte first. -/
def pidBytes : Bytes := (leBytes 6 i3cPid).reverse

/-- ENTDAA: the target answers with its ID and registers, and takes the address, where it has none. -/
def takeAddr (a : BitVec 7) (s : State) : State :=
  if s.side.i3cAddr.isSome then s
  else ({ s with side := { s.side with i3cAddr := some a } }).emit [.i3c (pidBytes ++ [Config.i3cBcr, Config.i3cDcr])]

def execEntdaa (a : BitVec 7) (s : State) : Res := heard s.pow.mgmtUp s (takeAddr a s)

/-- RSTDAA: the address is given up. -/
def execRstdaa (s : State) : Res := heard s.pow.mgmtUp s { s with side := { s.side with i3cAddr := none } }

/-- A command that is directed at the target's address: without one, nobody answers. -/
def directed (s t : State) : Res := heard s.pow.mgmtUp s (if s.side.i3cAddr.isSome then t else s.emit [.i3cNack])

/-- SETNEWDA: the address is replaced. -/
def execSetnewda (a : BitVec 7) (s : State) : Res := directed s { s with side := { s.side with i3cAddr := some a } }

def execGetpid (s : State) : Res := directed s (s.emit [.i3c pidBytes])
def execGetbcr (s : State) : Res := directed s (s.emit [.i3c [Config.i3cBcr]])
def execGetdcr (s : State) : Res := directed s (s.emit [.i3c [Config.i3cDcr]])
def execGetstatus (s : State) : Res := directed s (s.emit [.i3c (leBytes 2 Config.i3cStatus.toNat).reverse])
def execGetmrl (s : State) : Res := directed s (s.emit [.i3c (leBytes 2 Config.i3cMaxRead.toNat).reverse])
def execGetmwl (s : State) : Res := directed s (s.emit [.i3c (leBytes 2 Config.i3cMaxWrite.toNat).reverse])

/-- A private write of one byte sets the read position; any other is NACKed. -/
def setPos (data : Bytes) (s : State) : State :=
  match data with
  | [b] => { s with side := { s.side with i3cPos := b.toNat } }
  | _ => s.emit [.i3cNack]

def execI3cPrivateWrite (data : Bytes) (s : State) : Res := directed s (setPos data s)

/-- A private read: bytes of the readout from the position on; what is not listed reads 0x00. -/
def execI3cPrivateRead (len : Nat) (s : State) : Res := directed s (s.emit [.i3c (slice s.side.i3cData s.side.i3cPos len)])

/-- The hottest powered die in whole degrees; 0xFF when none is powered. -/
def hottestByte (s : State) : Nat := (hottest s).getD 0xFF

/-- The readout: FORMAT, MODULE_STATE, ALERT_CAUSES, the hottest die, power, voltage, temperatures, UNIT_ID. -/
def readout (s : State) : Bytes :=
  leBytes 1 1 ++ leBytes 1 s.pow.mod.code ++ leBytes 1 (alertCauses s) ++ leBytes 1 (hottestByte s) ++ leBytes 2 s.side.powerW.toNat ++ leBytes 2 s.side.mv.toNat ++ dieTemps s ++ zeros 3 ++ unitIdBytes

/-- Every 1 ms: the hub's estimates of input power and voltage, and the readout. -/
def refresh (w mv : BitVec 16) (s : State) : State :=
  let s := { s with side := { s.side with powerW := w, mv := mv } }
  { s with side := { s.side with i3cData := readout s } }

def execI3cRefresh (w mv : BitVec 16) (s : State) : Res := need s.pow.mgmtUp (refresh w mv s)

end Sys2Proof.Machine
end

