-- ==== Sys2Proof/Machine/Dispatch.lean ====
section
/-!
DEFINITION. Machine/Dispatch.lean: one arm per command, each a direct call of its meaning.
-/

namespace Sys2Proof.Machine

def exec (i : Instr) (s : State) : Host.Outcome State Fault Refusal :=
  match i with
  -- frames, slices and arrays
  | .frameTick t => Sys2Proof.Machine.execFrameTick t s
  | .energyDueAdmit => Sys2Proof.Machine.execEnergyDueAdmit s
  | .sliceSplit p r t => Sys2Proof.Machine.execSliceSplit p r t s
  | .sliceStartOnArray a => Sys2Proof.Machine.execSliceStartOnArray a s
  | .passStart a e => Sys2Proof.Machine.execPassStart a e s
  | .stationaryTileLoad a e waited => Sys2Proof.Machine.execStationaryTileLoad a e waited s
  | .tileLoadDone a => Sys2Proof.Machine.execTileLoadDone a s
  | .vectorOperandLoad a e slot waited => Sys2Proof.Machine.execVectorOperandLoad a e slot waited s
  | .tableLoad a e slot waited => Sys2Proof.Machine.execTableLoad a e slot waited s
  | .foldHalfFill a e => Sys2Proof.Machine.execFoldHalfFill a e s
  | .drainRow a e bubbles stalls upset => Sys2Proof.Machine.execDrainRow a e bubbles stalls upset s
  | .chainStandaloneGroup a e stalls => Sys2Proof.Machine.execChainStandaloneGroup a e stalls s
  | .rowStatLand a => Sys2Proof.Machine.execRowStatLand a s
  | .quantBlockWrite a => Sys2Proof.Machine.execQuantBlockWrite a s
  | .sbTileWrite a => Sys2Proof.Machine.execSbTileWrite a s
  | .columnCheckDone a e => Sys2Proof.Machine.execColumnCheckDone a e s
  | .disputeRerunStart a => Sys2Proof.Machine.execDisputeRerunStart a s
  | .disputeDecide a agreesOriginal agreesCheck => Sys2Proof.Machine.execDisputeDecide a agreesOriginal agreesCheck s
  | .passEnd a e => Sys2Proof.Machine.execPassEnd a e s
  | .moverStart a e => Sys2Proof.Machine.execMoverStart a e s
  | .moverComplete a e faults => Sys2Proof.Machine.execMoverComplete a e faults s
  | .sliceComplete p r cycles energy => Sys2Proof.Machine.execSliceComplete p r cycles energy s
  -- the tick on the fabric, and the governor
  | .tickAnnounce n => Sys2Proof.Machine.execTickAnnounce n s
  | .tickProbe k t1 => Sys2Proof.Machine.execTickProbe k t1 s
  | .tickProbeReply k t2 t3 t4 => Sys2Proof.Machine.execTickProbeReply k t2 t3 t4 s
  | .tickMissed => Sys2Proof.Machine.execTickMissed s
  | .tickSuccession candidates => Sys2Proof.Machine.execTickSuccession candidates s
  | .tickSelfMaster => Sys2Proof.Machine.execTickSelfMaster s
  | .peakGuardEngage avg100us aboveMs => Sys2Proof.Machine.execPeakGuardEngage avg100us aboveMs s
  | .peakGuardRelease throttledUs stalled => Sys2Proof.Machine.execPeakGuardRelease throttledUs stalled s
  | .framePeriodWrite q us => Sys2Proof.Machine.execFramePeriodWrite q us s
  | .ringEnableWrite q p r v => Sys2Proof.Machine.execRingEnableWrite q p r v s
  -- memory tiers
  | .map q p => Sys2Proof.Machine.execMap q p s
  | .unmap q p => Sys2Proof.Machine.execUnmap q p s
  | .setAttr q p => Sys2Proof.Machine.execSetAttr q p s
  | .discard q p => Sys2Proof.Machine.execDiscard q p s
  | .ptQuery q p va => Sys2Proof.Machine.execPtQuery q p va s
  | .rgnQuery q p va => Sys2Proof.Machine.execRgnQuery q p va s
  | .poolHomeAccess q value => Sys2Proof.Machine.execPoolHomeAccess q value s
  | .windowGranuleMove p granule => Sys2Proof.Machine.execWindowGranuleMove p granule s
  | .migrationSectorCopy p page => Sys2Proof.Machine.execMigrationSectorCopy p page s
  | .gatheringFetchStart => Sys2Proof.Machine.execGatheringFetchStart s
  | .fetchSector p entry bank read replica => Sys2Proof.Machine.execFetchSector p entry bank read replica s
  -- straits
  | .straitTrainDone k r => Sys2Proof.Machine.execStraitTrainDone k r s
  | .straitRetrainTimer k => Sys2Proof.Machine.execStraitRetrainTimer k s
  | .train q k v => Sys2Proof.Machine.execTrain q k v s
  | .straitModeWrite q k v => Sys2Proof.Machine.execStraitModeWrite q k v s
  | .flitReceive k f => Sys2Proof.Machine.execFlitReceive k f s
  | .nakReceive k ack => Sys2Proof.Machine.execNakReceive k ack s
  | .laneSwap k lane index => Sys2Proof.Machine.execLaneSwap k lane index s
  | .laneRetrainNarrow k lane => Sys2Proof.Machine.execLaneRetrainNarrow k lane s
  | .straitDown k c => Sys2Proof.Machine.execStraitDown k c s
  | .hopKeyNextGeneration k tx index => Sys2Proof.Machine.execHopKeyNextGeneration k tx index s
  | .causewayUnitReceive c a b unit => Sys2Proof.Machine.execCausewayUnitReceive c a b unit s
  | .causewayFail c => Sys2Proof.Machine.execCausewayFail c s
  -- flows and packets
  | .flowOpen owner peer peerFlow classes session => Sys2Proof.Machine.execFlowOpen owner peer peerFlow classes session s
  | .flowQuery q id => Sys2Proof.Machine.execFlowQuery q id s
  | .routeEntryAccess q value => Sys2Proof.Machine.execRouteEntryAccess q value s
  | .pureAckReceive p cls => Sys2Proof.Machine.execPureAckReceive p cls s
  | .flowRetryTimeout flow => Sys2Proof.Machine.execFlowRetryTimeout flow s
  | .flowIntegrityLost flow => Sys2Proof.Machine.execFlowIntegrityLost flow s
  | .flowKeygenAdvance flow => Sys2Proof.Machine.execFlowKeygenAdvance flow s
  | .pairKeyExpire peer => Sys2Proof.Machine.execPairKeyExpire peer s
  | .memrdRequest p g read tag => Sys2Proof.Machine.execMemrdRequest p g read tag s
  | .memrdData p status tag data => Sys2Proof.Machine.execMemrdData p status tag data s
  | .memrdError p status tag => Sys2Proof.Machine.execMemrdError p status tag s
  | .memwr p g tag data => Sys2Proof.Machine.execMemwr p g tag data s
  | .atomicSectorCas p g tag expected new => Sys2Proof.Machine.execAtomicSectorCas p g tag expected new s
  | .atomicResult p status tag stored => Sys2Proof.Machine.execAtomicResult p status tag stored s
  | .wakePacket p target => Sys2Proof.Machine.execWakePacket p target s
  | .hello h => Sys2Proof.Machine.execHello h s
  | .reply h => Sys2Proof.Machine.execReply h s
  | .finish h => Sys2Proof.Machine.execFinish h s
  -- the host and the ferry
  | .hostConfigRequest k r => Sys2Proof.Machine.execHostConfigRequest k r s
  | .hostRead k off len => Sys2Proof.Machine.execHostRead k off len s
  | .hostWrite k off data => Sys2Proof.Machine.execHostWrite k off data s
  | .aptEntryWrite q value => Sys2Proof.Machine.execAptEntryWrite q value s
  | .mailboxGo k slot op m => Sys2Proof.Machine.execMailboxGo k slot op m s
  -- the Bindery
  | .sessionOpOpen q n => Sys2Proof.Machine.execSessionOpOpen q n s
  | .sessionDigestMatch n answers => Sys2Proof.Machine.execSessionDigestMatch n answers s
  | .sessionOpClose q n => Sys2Proof.Machine.execSessionOpClose q n s
  | .closeLayer q n v => Sys2Proof.Machine.execCloseLayer q n v s
  | .withhold q n v => Sys2Proof.Machine.execWithhold q n v s
  | .contribData p m => Sys2Proof.Machine.execContribData p m s
  | .foldWindowExpire n layer step bucket => Sys2Proof.Machine.execFoldWindowExpire n layer step bucket s
  | .contribRoll p n layer step ranks => Sys2Proof.Machine.execContribRoll p n layer step ranks s
  | .contribAbsent p n layer step whole => Sys2Proof.Machine.execContribAbsent p n layer step whole s
  | .contribRecover p n layer step => Sys2Proof.Machine.execContribRecover p n layer step s
  | .ownerDeadline n layer step => Sys2Proof.Machine.execOwnerDeadline n layer step s
  | .paramData p m => Sys2Proof.Machine.execParamData p m s
  | .versionPublish n layer version => Sys2Proof.Machine.execVersionPublish n layer version s
  | .paramResendRequest p n layer version => Sys2Proof.Machine.execParamResendRequest p n layer version s
  | .paramResendTimeout n layer version => Sys2Proof.Machine.execParamResendTimeout n layer version s
  | .tipinData p m => Sys2Proof.Machine.execTipinData p m s
  -- elastic training
  | .sessionHeartbeat n peer => Sys2Proof.Machine.execSessionHeartbeat n peer s
  | .rankSilence n rank => Sys2Proof.Machine.execRankSilence n rank s
  | .roster p m => Sys2Proof.Machine.execRoster p m s
  | .rosterQuorumHold n => Sys2Proof.Machine.execRosterQuorumHold n s
  | .departRequest p m => Sys2Proof.Machine.execDepartRequest p m s
  | .restoreFailed p m => Sys2Proof.Machine.execRestoreFailed p m s
  | .keeperTimeout n layer => Sys2Proof.Machine.execKeeperTimeout n layer s
  | .departAtFrameSet q n frame => Sys2Proof.Machine.execDepartAtFrameSet q n frame s
  | .departWithdraw q n => Sys2Proof.Machine.execDepartWithdraw q n s
  | .departDeadline n rank => Sys2Proof.Machine.execDepartDeadline n rank s
  | .ownerQuery q n layer => Sys2Proof.Machine.execOwnerQuery q n layer s
  -- memory protection
  | .sectorRead p va d => Sys2Proof.Machine.execSectorRead p va d s
  | .sectorWrite p va data => Sys2Proof.Machine.execSectorWrite p va data s
  | .sectorPartialWrite p va data d => Sys2Proof.Machine.execSectorPartialWrite p va data d s
  | .rekeySector p page d => Sys2Proof.Machine.execRekeySector p page d s
  | .regionSteady p page => Sys2Proof.Machine.execRegionSteady p page s
  | .rotationComplete p => Sys2Proof.Machine.execRotationComplete p s
  | .hbmRowRepair k row repairRowsLeft => Sys2Proof.Machine.execHbmRowRepair k row repairRowsLeft s
  | .windowEccError p off bank double => Sys2Proof.Machine.execWindowEccError p off bank double s
  | .alertAck q seq => Sys2Proof.Machine.execAlertAck q seq s
  -- partitions, keys, attestation
  | .quotaWrite q p sub value => Sys2Proof.Machine.execQuotaWrite q p sub value s
  | .create q p => Sys2Proof.Machine.execCreate q p s
  | .remove q p => Sys2Proof.Machine.execRemove q p s
  | .removalComplete p => Sys2Proof.Machine.execRemovalComplete p s
  | .partitionKey q blob => Sys2Proof.Machine.execPartitionKey q blob s
  | .rotate q blob => Sys2Proof.Machine.execRotate q blob s
  | .jointKey q blob => Sys2Proof.Machine.execJointKey q blob s
  | .hostGrantWrite q p v => Sys2Proof.Machine.execHostGrantWrite q p v s
  | .slotQuery q id => Sys2Proof.Machine.execSlotQuery q id s
  | .sign q => Sys2Proof.Machine.execSign q s
  | .loadCert q => Sys2Proof.Machine.execLoadCert q s
  -- life cycle and debug
  | .newNonce q => Sys2Proof.Machine.execNewNonce q s
  | .transition q => Sys2Proof.Machine.execTransition q s
  | .transitionProgrammed => Sys2Proof.Machine.execTransitionProgrammed s
  | .lhSealRequest request => Sys2Proof.Machine.execLhSealRequest request s
  | .certWrite q cert => Sys2Proof.Machine.execCertWrite q cert s
  | .operatorKeyEnrol q digest => Sys2Proof.Machine.execOperatorKeyEnrol q digest s
  | .challenge q => Sys2Proof.Machine.execChallenge q s
  | .debugOpen q => Sys2Proof.Machine.execDebugOpen q s
  -- repair
  | .libBegin q => Sys2Proof.Machine.execLibBegin q s
  | .libCommit q => Sys2Proof.Machine.execLibCommit q s
  | .libChunk q data => Sys2Proof.Machine.execLibChunk q data s
  | .testComplete unit r => Sys2Proof.Machine.execTestComplete unit r s
  | .testDeferLimit unit => Sys2Proof.Machine.execTestDeferLimit unit s
  | .unitRetire unit => Sys2Proof.Machine.execUnitRetire unit s
  | .suspectClear unit => Sys2Proof.Machine.execSuspectClear unit s
  | .unitQuery q unit => Sys2Proof.Machine.execUnitQuery q unit s
  | .histQuery q index => Sys2Proof.Machine.execHistQuery q index s
  | .auditQuery q seq => Sys2Proof.Machine.execAuditQuery q seq s
  -- the Lighthouse
  | .adcSample uj => Sys2Proof.Machine.execAdcSample uj s
  | .occupancyWord die seq entries => Sys2Proof.Machine.execOccupancyWord die seq entries s
  | .strobeOverdue lengthUs => Sys2Proof.Machine.execStrobeOverdue lengthUs s
  | .selfTimedClose => Sys2Proof.Machine.execSelfTimedClose s
  | .minuteClose => Sys2Proof.Machine.execMinuteClose s
  | .lhPowerLoss lengthUs => Sys2Proof.Machine.execLhPowerLoss lengthUs s
  | .lhPowerOn => Sys2Proof.Machine.execLhPowerOn s
  | .calibrationChange c => Sys2Proof.Machine.execCalibrationChange c s
  | .lhReadRequest r => Sys2Proof.Machine.execLhReadRequest r s
  | .lhQuery q k v => Sys2Proof.Machine.execLhQuery q k v s
  | .lighthouseSilent => Sys2Proof.Machine.execLighthouseSilent s
  -- the object dictionary
  | .read m => Sys2Proof.Machine.execRead m s
  | .write m => Sys2Proof.Machine.execWrite m s
  | .readBlock m => Sys2Proof.Machine.execReadBlock m s
  | .open1 m => Sys2Proof.Machine.execOpen1 m s
  | .open3 m => Sys2Proof.Machine.execOpen3 m s
  | .sessionClose m => Sys2Proof.Machine.execSessionClose m s
  | .segmentGapTimeout q object => Sys2Proof.Machine.execSegmentGapTimeout q object s
  | .sessionIdleTimeout sid => Sys2Proof.Machine.execSessionIdleTimeout sid s
  | .descQuery q v => Sys2Proof.Machine.execDescQuery q v s
  -- I3C
  | .entdaa addr => Sys2Proof.Machine.execEntdaa addr s
  | .rstdaa => Sys2Proof.Machine.execRstdaa s
  | .setnewda addr => Sys2Proof.Machine.execSetnewda addr s
  | .getpid => Sys2Proof.Machine.execGetpid s
  | .getbcr => Sys2Proof.Machine.execGetbcr s
  | .getdcr => Sys2Proof.Machine.execGetdcr s
  | .getstatus => Sys2Proof.Machine.execGetstatus s
  | .getmrl => Sys2Proof.Machine.execGetmrl s
  | .getmwl => Sys2Proof.Machine.execGetmwl s
  | .i3cPrivateWrite data => Sys2Proof.Machine.execI3cPrivateWrite data s
  | .i3cPrivateRead len => Sys2Proof.Machine.execI3cPrivateRead len s
  | .i3cRefresh inputPowerW inputMv => Sys2Proof.Machine.execI3cRefresh inputPowerW inputMv s
  -- power and boot
  | .inputTurnOn railsOk => Sys2Proof.Machine.execInputTurnOn railsOk s
  | .inputTurnOff => Sys2Proof.Machine.execInputTurnOff s
  | .overVoltage => Sys2Proof.Machine.execOverVoltage s
  | .modPwrEnRise => Sys2Proof.Machine.execModPwrEnRise s
  | .modPwrEnFall => Sys2Proof.Machine.execModPwrEnFall s
  | .modResetNAssert => Sys2Proof.Machine.execModResetNAssert s
  | .watchdogExpire => Sys2Proof.Machine.execWatchdogExpire s
  | .thermalTrip d => Sys2Proof.Machine.execThermalTrip d s
  | .straitSignalWake k => Sys2Proof.Machine.execStraitSignalWake k s
  | .sidebandWakeFrame etherType payload macMatches => Sys2Proof.Machine.execSidebandWakeFrame etherType payload macMatches s
  | .stateRequestDoze q => Sys2Proof.Machine.execStateRequestDoze q s
  | .stateRequestStandby q => Sys2Proof.Machine.execStateRequestStandby q s
  | .stateRequestActive q => Sys2Proof.Machine.execStateRequestActive q s
  | .dozeEntry writeBackFailed => Sys2Proof.Machine.execDozeEntry writeBackFailed s
  | .domainReady d r => Sys2Proof.Machine.execDomainReady d r s
  | .domainReadyTimeout d r => Sys2Proof.Machine.execDomainReadyTimeout d r s
  | .domainOff d => Sys2Proof.Machine.execDomainOff d s
  -- firmware
  | .recoveryRequest strait fetchId segment key => Sys2Proof.Machine.execRecoveryRequest strait fetchId segment key s
  | .recoveryOffer strait fetchId segment ct total => Sys2Proof.Machine.execRecoveryOffer strait fetchId segment ct total s
  | .recoveryData fetchId off ct tag => Sys2Proof.Machine.execRecoveryData fetchId off ct tag s
  | .recoveryResume fetchId off => Sys2Proof.Machine.execRecoveryResume fetchId off s
  | .recoveryBusy fetchId => Sys2Proof.Machine.execRecoveryBusy fetchId s
  | .recoveryDataGap => Sys2Proof.Machine.execRecoveryDataGap s
  | .recoveryStraitTimeout => Sys2Proof.Machine.execRecoveryStraitTimeout s
  | .recoveryRestart => Sys2Proof.Machine.execRecoveryRestart s
  | .fwBegin q => Sys2Proof.Machine.execFwBegin q s
  | .fwCommit q => Sys2Proof.Machine.execFwCommit q s
  | .fwChunk q data => Sys2Proof.Machine.execFwChunk q data s
  -- the rest
  | .registerWrite q index sub value => Sys2Proof.Machine.execRegisterWrite q index sub value s
  | .probe k t1 t2 t3 => Sys2Proof.Machine.execProbe k t1 t2 t3 s
  | .dieTemperature src celsius => Sys2Proof.Machine.execDieTemperature src celsius s
  | .signalDetect k => Sys2Proof.Machine.execSignalDetect k s
  | .pcieTraining k up width => Sys2Proof.Machine.execPcieTraining k up width s
  | .sbLinkStateChange state => Sys2Proof.Machine.execSbLinkStateChange state s
  | .icmpv6Echo lighthouse payload => Sys2Proof.Machine.execIcmpv6Echo lighthouse payload s
  | .neighbourDiscovery lighthouse solicitation addr mac => Sys2Proof.Machine.execNeighbourDiscovery lighthouse solicitation addr mac s
  | .modResetNRelease => Sys2Proof.Machine.execModResetNRelease s
  | .signComplete sid => Sys2Proof.Machine.execSignComplete sid s
  | .fwCommitComplete => Sys2Proof.Machine.execFwCommitComplete s
  | .libCommitComplete => Sys2Proof.Machine.execLibCommitComplete s

end Sys2Proof.Machine
end

