-- ==== Sys2Proof/Safety.lean ====
section
/-!
DEFINITION. Safety.lean: the terms in which statements speak: the groups of the state and what a command touches, and the properties that every step keeps.
-/

namespace Sys2Proof.Machine

/-- The groups of State apart from the queue, one for each of its fields. -/
inductive Group where
  | out | free | tick | gov | parts | rings | arrays | mem | fab | keys | bind | life | ras | lh | dict | side | pow | fw
deriving DecidableEq, Repr

/-- The state with some groups blanked: two states that agree after it agree in every other group, and in the queue. -/
def State.hide (gs : List Group) (s : State) : State :=
  { pending := s.pending
    out := if Group.out ∈ gs then ({} : State).out else s.out
    free := if Group.free ∈ gs then ({} : State).free else s.free
    tick := if Group.tick ∈ gs then ({} : State).tick else s.tick
    gov := if Group.gov ∈ gs then ({} : State).gov else s.gov
    parts := if Group.parts ∈ gs then ({} : State).parts else s.parts
    rings := if Group.rings ∈ gs then ({} : State).rings else s.rings
    arrays := if Group.arrays ∈ gs then ({} : State).arrays else s.arrays
    mem := if Group.mem ∈ gs then ({} : State).mem else s.mem
    fab := if Group.fab ∈ gs then ({} : State).fab else s.fab
    keys := if Group.keys ∈ gs then ({} : State).keys else s.keys
    bind := if Group.bind ∈ gs then ({} : State).bind else s.bind
    life := if Group.life ∈ gs then ({} : State).life else s.life
    ras := if Group.ras ∈ gs then ({} : State).ras else s.ras
    lh := if Group.lh ∈ gs then ({} : State).lh else s.lh
    dict := if Group.dict ∈ gs then ({} : State).dict else s.dict
    side := if Group.side ∈ gs then ({} : State).side else s.side
    pow := if Group.pow ∈ gs then ({} : State).pow else s.pow
    fw := if Group.fw ∈ gs then ({} : State).fw else s.fw }

/-- `t` differs from `s` in these groups at most; the queue is the same. -/
def OnlyTouches (gs : List Group) (s t : State) : Prop := t.hide gs = s.hide gs

/-- The groups that a command may change. -/
def touches : Instr → List Group
  | .frameTick _ => [.out, .free, .tick, .gov, .parts, .rings, .arrays, .mem, .fab, .keys, .bind, .life, .ras, .lh, .dict, .pow]
  | .energyDueAdmit => [.out, .free, .gov, .parts, .rings, .mem, .ras, .dict]
  | .sliceSplit _ _ _ => [.out, .free, .parts, .rings, .arrays, .mem, .fab, .bind, .ras, .dict]
  | .sliceStartOnArray _ => [.rings, .arrays]
  | .passStart _ _ => [.parts, .rings, .arrays]
  | .stationaryTileLoad _ _ _ => [.out, .free, .parts, .rings, .arrays, .mem, .fab, .ras, .dict]
  | .tileLoadDone _ => [.rings, .arrays]
  | .vectorOperandLoad _ _ _ _ => [.out, .free, .parts, .rings, .arrays, .mem, .fab, .ras, .dict]
  | .tableLoad _ _ _ _ => [.out, .free, .parts, .rings, .arrays, .mem, .fab, .ras, .dict]
  | .foldHalfFill _ _ => [.out, .free, .parts, .rings, .arrays, .mem, .fab, .ras, .dict]
  | .drainRow _ _ _ _ _ => [.out, .free, .parts, .rings, .arrays, .mem, .fab, .bind, .ras, .dict]
  | .chainStandaloneGroup _ _ _ => [.out, .free, .parts, .rings, .arrays, .mem, .fab, .ras, .dict]
  | .rowStatLand _ => [.out, .free, .parts, .rings, .arrays, .mem, .fab, .ras, .dict]
  | .quantBlockWrite _ => [.out, .free, .parts, .rings, .arrays, .mem, .fab, .ras, .dict]
  | .sbTileWrite _ => [.out, .free, .parts, .rings, .arrays, .mem, .fab, .ras, .dict]
  | .columnCheckDone _ _ => [.rings, .arrays]
  | .disputeRerunStart _ => [.arrays]
  | .disputeDecide _ _ _ => [.out, .free, .parts, .rings, .arrays, .mem, .fab, .bind, .ras, .dict]
  | .passEnd _ _ => [.parts, .rings, .arrays]
  | .moverStart _ _ => [.rings]
  | .moverComplete _ _ _ => [.out, .free, .parts, .rings, .arrays, .mem, .fab, .bind, .ras, .dict]
  | .sliceComplete _ _ _ _ => [.out, .free, .gov, .parts, .rings, .mem, .fab, .bind, .ras, .dict]
  | .tickAnnounce _ => [.out, .tick, .gov, .parts, .rings, .arrays, .mem, .fab, .keys, .bind, .ras, .dict, .pow, .fw]
  | .tickProbe _ _ => [.out, .fab]
  | .tickProbeReply _ _ _ _ => [.fab]
  | .tickMissed => [.tick]
  | .tickSuccession _ => [.tick]
  | .tickSelfMaster => [.tick, .gov, .parts, .rings, .arrays, .mem, .fab, .keys, .bind, .ras, .dict, .pow, .fw]
  | .peakGuardEngage _ _ => [.gov]
  | .peakGuardRelease _ _ => [.gov, .rings]
  | .framePeriodWrite _ _ => [.out, .tick, .dict]
  | .ringEnableWrite _ _ _ _ => [.out, .rings, .dict]
  | .map _ _ => [.out, .free, .parts, .mem, .ras, .dict]
  | .unmap _ _ => [.out, .free, .parts, .mem, .ras, .dict]
  | .setAttr _ _ => [.out, .free, .parts, .mem, .ras, .dict]
  | .discard _ _ => [.out, .free, .parts, .mem, .ras, .dict]
  | .ptQuery _ _ _ => [.out, .dict]
  | .rgnQuery _ _ _ => [.out, .dict]
  | .poolHomeAccess _ _ => [.out, .mem, .dict]
  | .windowGranuleMove _ _ => [.mem]
  | .migrationSectorCopy _ _ => [.out, .free, .parts, .mem, .fab, .ras, .dict]
  | .gatheringFetchStart => [.mem]
  | .fetchSector _ _ _ _ _ => [.out, .free, .parts, .mem, .fab, .bind, .ras, .dict]
  | .straitTrainDone _ _ => [.out, .free, .fab]
  | .straitRetrainTimer _ => [.fab]
  | .train _ _ _ => [.out, .fab, .dict]
  | .straitModeWrite _ _ _ => [.out, .fab, .dict]
  | .flitReceive _ _ => [.out, .fab]
  | .nakReceive _ _ => [.out, .fab]
  | .laneSwap _ _ _ => [.out, .fab, .ras]
  | .laneRetrainNarrow _ _ => [.fab, .ras]
  | .straitDown _ _ => [.fab]
  | .hopKeyNextGeneration _ _ _ => [.free, .fab, .keys]
  | .causewayUnitReceive _ _ _ _ => [.out, .fab]
  | .causewayFail _ => [.fab, .ras, .pow]
  | .flowOpen _ _ _ _ _ => [.out, .free, .parts, .mem, .fab, .keys, .ras, .dict]
  | .flowQuery _ _ => [.out, .dict]
  | .routeEntryAccess _ _ => [.out, .fab, .dict]
  | .pureAckReceive _ _ => [.out, .parts, .fab]
  | .flowRetryTimeout _ => [.out, .free, .parts, .mem, .fab, .ras, .dict]
  | .flowIntegrityLost _ => [.out, .free, .parts, .mem, .fab, .ras, .dict]
  | .flowKeygenAdvance _ => [.free, .fab, .keys]
  | .pairKeyExpire _ => [.fab, .keys]
  | .memrdRequest _ _ _ _ => [.out, .free, .parts, .mem, .fab, .ras, .dict]
  | .memrdData _ _ _ _ => [.out, .free, .parts, .mem, .fab, .ras, .dict]
  | .memrdError _ _ _ => [.out, .free, .parts, .mem, .fab, .ras, .dict]
  | .memwr _ _ _ _ => [.out, .free, .parts, .mem, .fab, .ras, .dict]
  | .atomicSectorCas _ _ _ _ _ => [.out, .parts, .mem, .fab]
  | .atomicResult _ _ _ _ => [.out, .free, .parts, .mem, .fab, .ras, .dict]
  | .wakePacket _ _ => [.out, .free, .parts, .mem, .fab, .keys, .pow]
  | .hello _ => [.out, .free, .parts, .mem, .fab, .ras, .dict]
  | .reply _ => [.out, .free, .parts, .mem, .fab, .keys, .ras, .dict]
  | .finish _ => [.out, .free, .parts, .mem, .fab, .keys, .ras, .dict]
  | .hostConfigRequest _ _ => [.out, .fab]
  | .hostRead _ _ _ => [.out, .free, .parts, .mem, .fab, .ras, .dict]
  | .hostWrite _ _ _ => [.out, .free, .parts, .mem, .fab, .ras, .dict]
  | .aptEntryWrite _ _ => [.out, .fab, .dict]
  | .mailboxGo _ _ _ _ => [.out, .free, .tick, .gov, .parts, .rings, .arrays, .mem, .fab, .keys, .bind, .life, .ras, .lh, .dict, .side, .pow, .fw]
  | .sessionOpOpen _ _ => [.out, .free, .parts, .mem, .fab, .keys, .bind, .ras, .dict]
  | .sessionDigestMatch _ _ => [.out, .free, .parts, .mem, .fab, .bind, .ras, .dict]
  | .sessionOpClose _ _ => [.out, .free, .parts, .mem, .fab, .keys, .bind, .ras, .dict]
  | .closeLayer _ _ _ => [.out, .free, .parts, .mem, .fab, .bind, .ras, .dict]
  | .withhold _ _ _ => [.out, .free, .parts, .mem, .fab, .bind, .ras, .dict]
  | .contribData _ _ => [.out, .free, .parts, .mem, .fab, .bind, .ras, .dict]
  | .foldWindowExpire _ _ _ _ => [.out, .fab, .bind]
  | .contribRoll _ _ _ _ _ => [.out, .free, .parts, .mem, .fab, .bind, .ras, .dict]
  | .contribAbsent _ _ _ _ _ => [.out, .free, .parts, .mem, .fab, .bind, .ras, .dict]
  | .contribRecover _ _ _ _ => [.out, .parts, .fab, .bind]
  | .ownerDeadline _ _ _ => [.out, .free, .parts, .mem, .fab, .bind, .ras, .dict]
  | .paramData _ _ => [.out, .free, .parts, .mem, .fab, .bind, .ras, .dict]
  | .versionPublish _ _ _ => [.out, .free, .parts, .mem, .fab, .bind, .ras, .dict]
  | .paramResendRequest _ _ _ _ => [.out, .free, .parts, .mem, .fab, .bind, .ras, .dict]
  | .paramResendTimeout _ _ _ => [.out, .free, .parts, .mem, .fab, .bind, .ras, .dict]
  | .tipinData _ _ => [.out, .free, .parts, .mem, .fab, .bind, .ras, .dict]
  | .sessionHeartbeat _ _ => [.out, .fab]
  | .rankSilence _ _ => [.bind]
  | .roster _ _ => [.out, .parts, .fab, .keys, .bind]
  | .rosterQuorumHold _ => [.out, .fab, .bind]
  | .departRequest _ _ => [.out, .parts, .fab, .bind]
  | .restoreFailed _ _ => [.out, .parts, .fab, .bind]
  | .keeperTimeout _ _ => [.out, .fab, .bind]
  | .departAtFrameSet _ _ _ => [.out, .bind, .dict]
  | .departWithdraw _ _ => [.out, .bind, .dict]
  | .departDeadline _ _ => [.bind]
  | .ownerQuery _ _ _ => [.out, .dict]
  | .sectorRead _ _ _ => [.out, .free, .parts, .mem, .fab, .keys, .ras, .dict]
  | .sectorWrite _ _ _ => [.out, .free, .parts, .mem, .fab, .keys, .ras, .dict]
  | .sectorPartialWrite _ _ _ _ => [.out, .free, .parts, .mem, .fab, .keys, .ras, .dict]
  | .rekeySector _ _ _ => [.out, .free, .parts, .mem, .fab, .ras, .dict]
  | .regionSteady _ _ => [.out, .free, .parts, .mem, .ras, .dict]
  | .rotationComplete _ => [.parts, .keys]
  | .hbmRowRepair _ _ _ => [.free, .ras]
  | .windowEccError _ _ _ _ => [.out, .free, .parts, .mem, .ras, .dict]
  | .alertAck _ _ => [.out, .dict]
  | .quotaWrite _ _ _ _ => [.out, .parts, .dict]
  | .create _ _ => [.out, .parts, .dict]
  | .remove _ _ => [.out, .free, .gov, .parts, .rings, .arrays, .mem, .fab, .keys, .bind, .ras, .dict]
  | .removalComplete _ => [.out, .free, .parts, .rings, .mem, .fab, .keys, .life, .ras, .dict]
  | .partitionKey _ _ => [.out, .free, .parts, .mem, .keys, .ras, .dict]
  | .rotate _ _ => [.out, .free, .parts, .mem, .keys, .ras, .dict]
  | .jointKey _ _ => [.out, .free, .parts, .mem, .keys, .ras, .dict]
  | .hostGrantWrite _ _ _ => [.out, .parts, .dict]
  | .slotQuery _ _ => [.out, .dict]
  | .sign _ => [.out, .dict]
  | .loadCert _ => [.out, .dict]
  | .newNonce _ => [.out, .free, .life, .dict]
  | .transition _ => [.out, .life, .lh, .dict]
  | .transitionProgrammed => [.life]
  | .lhSealRequest _ => [.lh]
  | .certWrite _ _ => [.out, .life, .dict]
  | .operatorKeyEnrol _ _ => [.out, .life, .dict]
  | .challenge _ => [.out, .free, .keys, .life, .dict]
  | .debugOpen _ => [.out, .free, .gov, .parts, .rings, .arrays, .mem, .fab, .keys, .bind, .life, .ras, .dict]
  | .libBegin _ => [.out, .ras, .dict]
  | .libCommit _ => [.out, .ras, .dict]
  | .libChunk _ _ => [.out, .ras, .dict]
  | .testComplete _ _ => [.free, .ras]
  | .testDeferLimit _ => [.ras]
  | .unitRetire _ => [.out, .free, .parts, .mem, .ras, .dict]
  | .suspectClear _ => [.ras]
  | .unitQuery _ _ => [.out, .dict]
  | .histQuery _ _ => [.out, .dict]
  | .auditQuery _ _ => [.out, .dict]
  | .adcSample _ => [.out, .lh]
  | .occupancyWord _ _ _ => [.lh]
  | .strobeOverdue _ => [.out, .lh, .dict]
  | .selfTimedClose => [.out, .lh, .dict]
  | .minuteClose => [.lh]
  | .lhPowerLoss _ => [.out, .lh, .dict]
  | .lhPowerOn => [.free, .lh]
  | .calibrationChange _ => [.free, .lh]
  | .lhReadRequest _ => [.out]
  | .lhQuery _ _ _ => [.out, .dict]
  | .lighthouseSilent => [.out, .free, .parts, .mem, .ras, .lh, .dict]
  | .read _ => [.out, .dict]
  | .write _ => [.out, .free, .tick, .gov, .parts, .rings, .arrays, .mem, .fab, .keys, .bind, .life, .ras, .lh, .dict, .side, .pow, .fw]
  | .readBlock _ => [.out, .dict]
  | .open1 _ => [.out, .free, .dict]
  | .open3 _ => [.out, .free, .keys, .dict]
  | .sessionClose _ => [.out, .keys, .dict]
  | .segmentGapTimeout _ _ => [.dict]
  | .sessionIdleTimeout _ => [.keys, .dict]
  | .descQuery _ _ => [.out, .dict]
  | .entdaa _ => [.out, .side]
  | .rstdaa => [.side]
  | .setnewda _ => [.out, .side]
  | .getpid => [.out]
  | .getbcr => [.out]
  | .getdcr => [.out]
  | .getstatus => [.out]
  | .getmrl => [.out]
  | .getmwl => [.out]
  | .i3cPrivateWrite _ => [.out, .side]
  | .i3cPrivateRead _ => [.out]
  | .i3cRefresh _ _ => [.side]
  | .inputTurnOn _ => [.out, .free, .tick, .gov, .parts, .rings, .arrays, .mem, .fab, .keys, .bind, .life, .ras, .lh, .dict, .side, .pow, .fw]
  | .inputTurnOff => [.free, .tick, .gov, .parts, .rings, .arrays, .mem, .fab, .keys, .bind, .life, .ras, .lh, .dict, .side, .pow, .fw]
  | .overVoltage => [.free, .tick, .gov, .parts, .rings, .arrays, .mem, .fab, .keys, .bind, .life, .ras, .lh, .dict, .side, .pow, .fw]
  | .modPwrEnRise => [.free, .mem, .keys, .pow]
  | .modPwrEnFall => [.tick, .gov, .parts, .rings, .arrays, .mem, .fab, .keys, .bind, .ras, .dict, .pow]
  | .modResetNAssert => [.free, .tick, .gov, .parts, .rings, .arrays, .mem, .fab, .keys, .bind, .life, .ras, .lh, .dict, .side, .pow, .fw]
  | .watchdogExpire => [.out, .free, .tick, .gov, .parts, .rings, .arrays, .mem, .fab, .keys, .bind, .life, .ras, .lh, .dict, .side, .pow, .fw]
  | .thermalTrip _ => [.out, .free, .tick, .gov, .parts, .rings, .arrays, .mem, .fab, .keys, .bind, .ras, .dict, .pow, .fw]
  | .straitSignalWake _ => [.free, .mem, .keys, .pow]
  | .sidebandWakeFrame _ _ _ => [.free, .mem, .keys, .dict, .pow]
  | .stateRequestDoze _ => [.out, .tick, .gov, .parts, .rings, .arrays, .mem, .fab, .keys, .bind, .ras, .dict, .pow]
  | .stateRequestStandby _ => [.out, .tick, .gov, .parts, .rings, .arrays, .mem, .fab, .keys, .bind, .ras, .dict, .pow]
  | .stateRequestActive _ => [.out, .free, .mem, .keys, .dict, .pow]
  | .dozeEntry _ => [.out, .free, .tick, .gov, .parts, .rings, .arrays, .mem, .fab, .keys, .bind, .ras, .dict, .pow]
  | .domainReady _ _ => [.out, .free, .tick, .gov, .parts, .rings, .arrays, .mem, .fab, .keys, .bind, .ras, .dict, .pow, .fw]
  | .domainReadyTimeout _ _ => [.out, .free, .tick, .gov, .parts, .rings, .arrays, .mem, .fab, .keys, .bind, .ras, .dict, .pow, .fw]
  | .domainOff _ => [.out, .free, .tick, .gov, .parts, .rings, .arrays, .mem, .fab, .keys, .bind, .ras, .dict, .pow]
  | .recoveryRequest _ _ _ _ => [.out, .free, .dict, .fw]
  | .recoveryOffer _ _ _ _ _ => [.dict, .fw]
  | .recoveryData _ _ _ _ => [.out, .free, .tick, .gov, .parts, .rings, .arrays, .mem, .fab, .keys, .bind, .ras, .dict, .pow, .fw]
  | .recoveryResume _ _ => [.out, .dict]
  | .recoveryBusy _ => [.dict]
  | .recoveryDataGap => [.out, .dict]
  | .recoveryStraitTimeout => [.out, .free, .fab, .dict, .fw]
  | .recoveryRestart => [.out, .free, .fab, .dict, .pow, .fw]
  | .fwBegin _ => [.out, .dict, .fw]
  | .fwCommit _ => [.out, .dict, .fw]
  | .fwChunk _ _ => [.out, .dict, .fw]
  | .registerWrite _ _ _ _ => [.out, .free, .tick, .gov, .parts, .rings, .arrays, .mem, .fab, .keys, .bind, .life, .ras, .lh, .dict, .side, .pow, .fw]
  | .probe _ _ _ _ => [.out, .fab]
  | .dieTemperature _ _ => [.out, .mem, .dict, .pow]
  | .signalDetect _ => [.fab]
  | .pcieTraining _ _ _ => [.fab]
  | .sbLinkStateChange _ => [.side]
  | .icmpv6Echo _ _ => [.out, .dict]
  | .neighbourDiscovery _ _ _ _ => [.out, .dict, .side]
  | .modResetNRelease => [.out, .free, .tick, .gov, .parts, .rings, .arrays, .mem, .fab, .keys, .bind, .life, .ras, .lh, .dict, .side, .pow, .fw]
  | .signComplete _ => [.keys, .dict]
  | .fwCommitComplete => [.fw]
  | .libCommitComplete => [.ras]

/-- The commands' words for the spec's one-way fuses: life-cycle word (R464), firmware floor (R595), seal count and seal (R531, R532). -/
def FusesOnlyGain (s t : State) : Prop :=
  (∀ i, s.life.word.getLsbD i → t.life.word.getLsbD i) ∧ s.fw.floor ≤ t.fw.floor ∧ s.lh.sealCount ≤ t.lh.sealCount ∧ (s.lh.sealed → t.lh.sealed)

/-- Every partition's window is in canonical form. -/
def WindowsWf (s : State) : Prop := ∀ p : PartId, Memory.wf s.mem.window[p]

/-- The state answers a request once, with this status and these data. -/
def Responds (q : Req) (st : Status) (data : Bytes) (s t : State) : Prop := t.out = s.out ++ [.response q.sid q.src 0 st false data]

/-- A packet of class `cls` arrives for this module on a strait that is up, in the order of the flow `x`, with a good tag under a key that the flow holds (R283 to R285, R288). -/
structure Arrives (s : State) (p : Pkt) (cls : Nat) (x : Flow) : Prop where
  hub : hubUp s = true
  up : s.fab.straits[p.strait].link = .up
  mine : forMe s p = true
  flow : getFlow s p.flow = some x
  opened : x.state = .opened
  plain : p.reserved = 0
  known : p.stray = false
  allowed : cls ∈ x.classes
  tag : p.tagOk = true
  keyed : x.holds p = true
  next : p.psn = x.rxPsn

/-- The flow after it has taken such a packet: its acknowledgement counts, the next PSN is expected, and a previous key that nothing needs is dropped (R285, R288). -/
def Flow.took (p : Pkt) (frame : Nat) (x : Flow) : Flow := Flow.dropOld p { x.takeAck p with rxPsn := x.rxPsn + 1, tagFails := 0, used := frame }

/-- The array that a command of the arrays' engines acts on. -/
def arrayOfCommand : Instr → Option ArrayId
  | .passStart a _ => some a
  | .stationaryTileLoad a _ _ => some a
  | .tileLoadDone a => some a
  | .vectorOperandLoad a _ _ _ => some a
  | .tableLoad a _ _ _ => some a
  | .foldHalfFill a _ => some a
  | .drainRow a _ _ _ _ => some a
  | .chainStandaloneGroup a _ _ => some a
  | .rowStatLand a => some a
  | .quantBlockWrite a => some a
  | .sbTileWrite a => some a
  | .columnCheckDone a _ => some a
  | .disputeRerunStart a => some a
  | .disputeDecide a _ _ => some a
  | .passEnd a _ => some a
  | .moverStart a _ => some a
  | .moverComplete a _ _ => some a
  | _ => none

/-- The state that the work of a packet of class `cls`, OP `op` and payload length `len` begins from: its slots are owed as credit, its flow has taken it, and host reads that waited for no more than its acknowledgement complete. -/
def afterTaking (p : Pkt) (cls op len : Nat) (x : Flow) (s : State) : State :=
  flushHost (setFlow p.flow (x.took p (frameNow s)) (returnSlots p.strait (vcOf cls op) (slotsOf len) s))

/-- What the spec asks of the state before an event of the module's own happens: a tick, the work of an engine, a timer, a sensor, a pin, the Lighthouse. Requests, messages and packets come from outside at any time; they have no cause here, and statements of their own. -/
def Cause : Instr → State → Prop
  -- frames and slices (R199, R184, R190, R219, R220)
  | .frameTick _, s => s.tick.joined ∧ hubUp s
  | .energyDueAdmit, s => s.gov.admission.isSome
  | .sliceSplit p r _, s => maySplit s p r
  | .sliceStartOnArray a, s => s.arrays[a].cur = none ∧ s.gov.admission = none ∧ waitingOn s a ≠ []
  | .sliceComplete p r _ _, s => ∃ run, s.rings[p][r].run = some run ∧ (∀ x ∈ run.arrays, x.finished = true) ∧ outputsVisible s p
  -- the entries of the slice on an array (R51 to R58, R71, R100, R107 to R117, R131, R172, R174, R489 to R493)
  | .passStart a e, s => ∃ x d, entryAt s a e = some x ∧ x.desc = .pass d ∧ x.started = false ∧ x.ended = false ∧ passMayStart (entriesOf s a) e d
  | .stationaryTileLoad a e _, s => ∃ x d, entryAt s a e = some x ∧ x.desc = .pass d ∧ loadReady s a e x d
  | .tileLoadDone a, s => ∃ e k tile d, s.arrays[a].shadow = some (e, k, tile) ∧ (entryAt s a e).bind EntryRun.pass = some d ∧ boundaryReached (entriesOf s a) e d
  | .vectorOperandLoad a e slot _, s => ∃ x d c, entryAt s a e = some x ∧ x.desc = .pass d ∧ x.chain = some c ∧ x.started = true ∧ x.over' = false ∧ c.vectorSlots.contains slot.val ∧
      alGet slot.val x.vectors = none ∧ mayRead s a e (vectorAreas d (c.slot slot.val))
  | .tableLoad a e slot _, s => ∃ x c, entryAt s a e = some x ∧ x.chain = some c ∧ x.started = true ∧ x.over' = false ∧ c.tableSlots.contains slot.val ∧
      (∀ t ∈ s.arrays[a].tables, t.addr ≠ (c.slot slot.val).elemAddr) ∧ (s.arrays[a].tables.length < 4 ∨ (evictable s.arrays[a].tables (tablesInUse (entriesOf s a))).isSome) ∧
      mayRead s a e (tableAreas (c.slot slot.val))
  | .foldHalfFill a e, s => ∃ x d, entryAt s a e = some x ∧ x.desc = .pass d ∧ foldReady s a e x d
  | .drainRow a e _ _ _, s => ∃ x d, entryAt s a e = some x ∧ x.desc = .pass d ∧ drainReady s a e x d
  | .chainStandaloneGroup a e _, s => ∃ x d, entryAt s a e = some x ∧ x.desc = .pass d ∧ x.chain.isSome ∧ groupReady s a e x d
  | .rowStatLand a, s => ∃ r d c, s.arrays[a].rows.find? (fun r => !r.stats.isEmpty) = some r ∧ (entryAt s a r.entry).bind EntryRun.pass = some d ∧
      (entryAt s a r.entry).bind EntryRun.chain = some c ∧ mayWrite s a r.entry (statRegion d c r.m 1)
  | .quantBlockWrite a, s => ∃ r d c, quantRow s a = some (r, d, c) ∧ (c.discards = true ∨ mayWrite s a r.entry (outAreas d c r.m 1))
  | .sbTileWrite a, s => ∃ r rows tr d c, quantTile s a = some (r :: rows, tr, d, c) ∧ mayWrite s a r.entry (outAreas d c r.m (rows.length + 1))
  | .columnCheckDone a e, s => ∃ x, entryAt s a e = some x ∧ x.checked = true ∧ x.checkDone = false ∧ x.started = true ∧ x.drained = true
  | .disputeRerunStart a, s => ∃ f l, s.arrays[a].dispute = some (f, l, none) ∧ (rerunSpare s a).isSome
  | .disputeDecide a o c, s => ∃ f l u, s.arrays[a].dispute = some (f, l, some u) ∧ (o && c) = false ∧ groupFinished s a f
  | .passEnd a e, s => ∃ x d, entryAt s a e = some x ∧ x.desc = .pass d ∧ x.started = true ∧ x.ended = false ∧ x.left = true
  | .moverStart a e, s => moverReady s a e
  | .moverComplete a e _, s => ∃ x d, entryAt s a e = some x ∧ x.desc = .move d ∧ x.started = true ∧ x.ended = false ∧ (x.stopped = true ∨ moverFree s a e d (d.rows * d.rowBytes))
  -- the tick on the fabric, and the governor (R203, R205, R215, R292, R593)
  | .tickProbe k _, s => k ∈ tickStraits s ∧ mayOriginate s
  | .tickProbeReply k _ _ _, s => k ∈ tickStraits s ∧ s.fab.straits[k].probeT1.isSome
  | .probe k _ _ _, s => k ∈ tickStraits s ∧ mayOriginate s
  | .tickMissed, s => s.tick.joined ∧ s.tick.role ≠ 1 ∧ s.tick.heard = []
  | .tickSuccession cands, s => s.tick.joined ∧ s.tick.role ≠ 1 ∧ 2 ≤ s.tick.missedRun ∧ succeeds cands s
  | .tickSelfMaster, s => bootReady s ∧ s.tick.joined = false
  | .peakGuardEngage avg ms, s => s.pow.mod = .active ∧ s.gov.throttled = false ∧ (s.gov.inForce.2.1 < avg ∨ 16 ≤ ms)
  | .peakGuardRelease _ _, s => s.gov.throttled
  -- memory (R232, R251, R256, R258, R405, R408, R503, R504)
  | .windowGranuleMove p granule, s => (p, granule) ∈ s.mem.moves
  | .migrationSectorCopy p page, s => s.vm.migrating p page ∧ s.pow.mod = .active
  | .gatheringFetchStart, s => memUp s ∧ ∃ f ∈ s.mem.fetches, f.started = false
  | .fetchSector p e b _ _, s => memUp s ∧ (fetchAt s p e b).isSome ∧ (getGather s.vm p e).isSome
  | .rekeySector p page _, s => mayRekey s.vm p page ∧ s.pow.mod = .active
  | .regionSteady p page, s => maySteady s.vm p page
  | .rotationComplete p, s => s.parts[p].rotating ∧ rotationLeft s.vm p = 0
  | .hbmRowRepair k _ _, s => s.pow.domains[stackDie k] = .up ∧ k.val ∉ s.mem.stacksFailed
  | .windowEccError p off bank _, s => off < windowBytes s.parts[p].force.bitmap ∧ bank < 1024 ∧ s.pow.mod = .active
  -- straits, causeways and flows (R276 to R278, R284, R285, R288, R294, R295, R309, R436)
  | .straitTrainDone k r, s => hubUp s ∧ s.fab.straits[k].link = .training ∧ (∀ n, r = .lanes n → trained8or4 s k n)
  | .straitRetrainTimer k, s => hubUp s ∧ s.fab.straits[k].link = .detect ∧ s.fab.straits[k].mode = 1 ∧ s.fab.straits[k].counters[3] ≠ 0
  | .signalDetect k, s => hubUp s ∧ s.fab.straits[k].link = .detect ∧ s.fab.straits[k].mode = 1
  | .laneSwap k lane _, s => flowing s k ∧ s.fab.straits[k].spare = 0xFF ∧ s.fab.straits[k].swap = none ∧ s.fab.straits[k].width = 8 ∧ lane.val ≠ 8
  | .laneRetrainNarrow k lane, s => flowing s k ∧ (s.fab.straits[k].spare ≠ 0xFF ∨ s.fab.straits[k].swap.isSome) ∧ lane ∉ s.fab.straits[k].badLanes
  | .straitDown k c, s => flowing s k ∧ (c = .replayFailed → 8 ≤ s.fab.straits[k].replayFails)
  | .hopKeyNextGeneration k tx _, s => flitsFlow s k ∧ (findKey s.keys 0x40 0x16 (hopTag k.val (!tx))).isSome
  | .causewayUnitReceive c a b unit, s => cswUp s c ∧ unit.bytes.length = 256 ∧ ∃ path detour, cswPath s a b = some (path, detour) ∧ c ∈ path
  | .causewayFail c, s => cswUp s c ∧ 16 ≤ s.fab.causeways[c].resendRun
  | .flowRetryTimeout f, s => hubUp s ∧ mayRetry s f
  | .flowIntegrityLost f, s => ∃ x, getFlow s f = some x ∧ x.state = .opened ∧ 8 ≤ x.tagFails
  | .flowKeygenAdvance f, s => ∃ x, getFlow s f = some x ∧ x.state = .opened ∧ x.keygen = false ∧ (2 ^ 47 ≤ x.txPsn ∨ 2 ^ 47 ≤ x.rxPsn)
  | .pairKeyExpire peer, s => havePair s.keys peer ∧ ∀ x ∈ pairFlows s peer, x.2.used + 1000 ≤ frameNow s
  | .pcieTraining k up width, s => hubUp s ∧ s.fab.straits[k].mode = 2 ∧ 16 ≤ k.val ∧ (up = true → width = 1 ∨ width = 2 ∨ width = 4 ∨ width = 8)
  -- the Bindery (R315, R332, R333, R339, R340, R356, R357, R371, R377)
  | .sessionDigestMatch i answers, s => hubUp s ∧ answers ≠ [] ∧ ∃ x, getSess s i = some x ∧ x.open' = true
  | .foldWindowExpire i l v b, s => hubUp s ∧ windowDue s i l v b
  | .ownerDeadline i l v, s => hubUp s ∧ deadlineDue s i l v
  | .versionPublish i l v, s => hubUp s ∧ mayPublish s i l v
  | .paramResendTimeout i l v, s => hubUp s ∧ resendDue s i l v
  | .keeperTimeout i l, s => hubUp s ∧ keeperDue s i l
  | .sessionHeartbeat i peer, s => hubUp s ∧ (beatFlow s i peer).isSome
  | .rankSilence i rank, s => hubUp s ∧ watches s i rank
  | .rosterQuorumHold i, s => hubUp s ∧ quorumDue s i
  | .departDeadline i rank, s => hubUp s ∧ deadlinePassed s i rank
  -- partitions, life cycle and firmware (R445, R456, R465, R495, R595, R597, R598)
  | .removalComplete p, s => s.tick.joined ∧ s.parts[p].state = .removing ∧ s.parts[p].removal.isSome ∧ accessesDone s p
  | .transitionProgrammed, s => s.life.running.isSome ∧ s.pow.mgmtUp
  | .signComplete sid, s => s.pow.mgmtUp ∧ ((s.dict.sessions.find? (fun x => x.sid = sid && sid ≠ 0)).bind (fun x => x.vals.attPending)).isSome
  | .libCommitComplete, s => s.ras.libStatus = 1
  | .fwCommitComplete, s => s.pow.mgmtUp ∧ s.fw.committing.isSome
  | .recoveryDataGap, s => fetching s ∧ ∃ f, s.fw.fetch = some f ∧ f.total.isSome
  | .recoveryStraitTimeout, s => fetching s ∧ (s.fw.fetch.bind (·.strait)).isSome
  | .recoveryRestart, s => fetching s ∧ s.fw.fetch.isSome
  -- units (R496 to R499, R502)
  | .testComplete u _, s => (s.ras.unit u.toNat).state = .underTest ∧ (s.ras.unit u.toNat).leaving = false ∧ (s.ras.unit u.toNat).permanent = false
  | .testDeferLimit u, s => (s.ras.unit u.toNat).state = .inService ∧ 64 ≤ (s.ras.unit u.toNat).deferrals ∧ unitIdle s u.toNat
  | .unitRetire u, s => (s.ras.unit u.toNat).permanent ∧ (s.ras.unit u.toNat).state ≠ .retired ∧ unitIdle s u.toNat
  | .suspectClear u, s => mayClear s u.toNat
  -- the Lighthouse (R517 to R532, R537)
  | .adcSample _, s => s.lh.powered
  | .occupancyWord die _ entries, s => s.lh.powered ∧ s.pow.domains[die.val] = .up ∧ entries.length = 34
  | .strobeOverdue _, s => s.lh.powered ∧ s.lh.lastFrame.isSome
  | .selfTimedClose, s => s.lh.powered ∧ s.tick.joined = false
  | .minuteClose, s => s.lh.powered ∧ minuteDue s.lh
  | .lhPowerLoss _, s => s.lh.powered ∧ s.pow.input = false
  | .lhPowerOn, s => s.lh.powered = false ∧ s.pow.input
  | .calibrationChange c, s => s.lh.powered ∧ calOk s.lh c
  | .lighthouseSilent, s => s.pow.mgmtUp
  -- management and sensors (R556, R559, R563, R564, R567, R577)
  | .segmentGapTimeout q object, s => reachable s ∧ ∃ x, findSess s q = some x ∧ (alGet object x.staged).isSome
  | .sessionIdleTimeout sid, s => s.pow.mgmtUp ∧ ∃ x, sessOf s sid = some x ∧ x.revoked = false
  | .i3cRefresh _ _, s => s.pow.mgmtUp
  | .sbLinkStateChange v, s => s.pow.mgmtUp ∧ v.toNat ≤ 2 ∧ (v = 2 → s.side.node ≠ 0xFF)
  | .dieTemperature src _, s => (∀ d, src = .die d → s.pow.domains[d] = .up) ∧ (∀ k, src = .stack k → s.pow.domains[stackDie k] = .up ∧ k.val ∉ s.mem.stacksFailed)
  -- power (R572, R575, R580 to R590)
  | .inputTurnOn _, s => s.pow.input = false
  | .inputTurnOff, s => s.pow.input
  | .overVoltage, s => s.pow.input
  | .modResetNAssert, s => s.pow.resetLow = false
  | .modResetNRelease, s => s.pow.resetLow
  | .watchdogExpire, s => s.pow.mgmtUp
  | .modPwrEnRise, s => s.pow.pwrEn = false
  | .modPwrEnFall, s => s.pow.pwrEn
  | .thermalTrip d, s => s.pow.domains[d] ≠ .off ∧ s.pow.domains[d] ≠ .failed
  | .straitSignalWake k, s => s.pow.mgmtUp ∧ s.fab.straits[k].mode = 1 ∧ wakeable s ∧ s.fab.straits[k].link ≠ .up
  | .dozeEntry _, s => s.pow.windowRun ∧ s.pow.atTick = some .doze
  | .domainReady d r, s => ∃ step trained retry, s.pow.domains[d] = .powering step trained retry ∧ awaited d step trained s r
  | .domainReadyTimeout d r, s => ∃ step trained retry, s.pow.domains[d] = .powering step trained retry ∧ awaited d step trained s r
  | .domainOff d, s => s.pow.domains[d] = .stopping ∧ (d = 4 → ∀ a : DieId, a ≠ 4 → s.pow.domains[a] ≠ .stopping)
  -- requests, messages and packets
  | .tickAnnounce _, _ => False
  | .framePeriodWrite _ _, _ => False
  | .ringEnableWrite _ _ _ _, _ => False
  | .map _ _, _ => False
  | .unmap _ _, _ => False
  | .setAttr _ _, _ => False
  | .discard _ _, _ => False
  | .ptQuery _ _ _, _ => False
  | .rgnQuery _ _ _, _ => False
  | .poolHomeAccess _ _, _ => False
  | .train _ _ _, _ => False
  | .straitModeWrite _ _ _, _ => False
  | .flitReceive _ _, _ => False
  | .nakReceive _ _, _ => False
  | .flowOpen _ _ _ _ _, _ => False
  | .flowQuery _ _, _ => False
  | .routeEntryAccess _ _, _ => False
  | .pureAckReceive _ _, _ => False
  | .memrdRequest _ _ _ _, _ => False
  | .memrdData _ _ _ _, _ => False
  | .memrdError _ _ _, _ => False
  | .memwr _ _ _ _, _ => False
  | .atomicSectorCas _ _ _ _ _, _ => False
  | .atomicResult _ _ _ _, _ => False
  | .wakePacket _ _, _ => False
  | .hello _, _ => False
  | .reply _, _ => False
  | .finish _, _ => False
  | .hostConfigRequest _ _, _ => False
  | .hostRead _ _ _, _ => False
  | .hostWrite _ _ _, _ => False
  | .aptEntryWrite _ _, _ => False
  | .mailboxGo _ _ _ _, _ => False
  | .sessionOpOpen _ _, _ => False
  | .sessionOpClose _ _, _ => False
  | .closeLayer _ _ _, _ => False
  | .withhold _ _ _, _ => False
  | .contribData _ _, _ => False
  | .contribRoll _ _ _ _ _, _ => False
  | .contribAbsent _ _ _ _ _, _ => False
  | .contribRecover _ _ _ _, _ => False
  | .paramData _ _, _ => False
  | .paramResendRequest _ _ _ _, _ => False
  | .tipinData _ _, _ => False
  | .roster _ _, _ => False
  | .departRequest _ _, _ => False
  | .restoreFailed _ _, _ => False
  | .departAtFrameSet _ _ _, _ => False
  | .departWithdraw _ _, _ => False
  | .ownerQuery _ _ _, _ => False
  | .sectorRead _ _ _, _ => False
  | .sectorWrite _ _ _, _ => False
  | .sectorPartialWrite _ _ _ _, _ => False
  | .alertAck _ _, _ => False
  | .quotaWrite _ _ _ _, _ => False
  | .create _ _, _ => False
  | .remove _ _, _ => False
  | .partitionKey _ _, _ => False
  | .rotate _ _, _ => False
  | .jointKey _ _, _ => False
  | .hostGrantWrite _ _ _, _ => False
  | .slotQuery _ _, _ => False
  | .sign _, _ => False
  | .loadCert _, _ => False
  | .newNonce _, _ => False
  | .transition _, _ => False
  | .lhSealRequest _, _ => False
  | .certWrite _ _, _ => False
  | .operatorKeyEnrol _ _, _ => False
  | .challenge _, _ => False
  | .debugOpen _, _ => False
  | .libBegin _, _ => False
  | .libCommit _, _ => False
  | .libChunk _ _, _ => False
  | .unitQuery _ _, _ => False
  | .histQuery _ _, _ => False
  | .auditQuery _ _, _ => False
  | .lhReadRequest _, _ => False
  | .lhQuery _ _ _, _ => False
  | .read _, _ => False
  | .write _, _ => False
  | .readBlock _, _ => False
  | .open1 _, _ => False
  | .open3 _, _ => False
  | .sessionClose _, _ => False
  | .descQuery _ _, _ => False
  | .entdaa _, _ => False
  | .rstdaa, _ => False
  | .setnewda _, _ => False
  | .getpid, _ => False
  | .getbcr, _ => False
  | .getdcr, _ => False
  | .getstatus, _ => False
  | .getmrl, _ => False
  | .getmwl, _ => False
  | .i3cPrivateWrite _, _ => False
  | .i3cPrivateRead _, _ => False
  | .sidebandWakeFrame _ _ _, _ => False
  | .stateRequestDoze _, _ => False
  | .stateRequestStandby _, _ => False
  | .stateRequestActive _, _ => False
  | .recoveryRequest _ _ _ _, _ => False
  | .recoveryOffer _ _ _ _ _, _ => False
  | .recoveryData _ _ _ _, _ => False
  | .recoveryResume _ _, _ => False
  | .recoveryBusy _, _ => False
  | .fwBegin _, _ => False
  | .fwCommit _, _ => False
  | .fwChunk _ _, _ => False
  | .registerWrite _ _ _ _, _ => False
  | .icmpv6Echo _ _, _ => False
  | .neighbourDiscovery _ _ _ _, _ => False

end Sys2Proof.Machine
end

