-- ==== Sys2Proof/Certificates/Slice0/Obligations.lean ====
section
/-!
DEFINITION. Certificates/Slice0/Obligations.lean: the statements for the provers.
-/

open Sys2Proof Sys2Proof.Machine

/-! ### The block -/

/-- For every command c and state s, a step of s with c at the front of its queue is exec of c on s with the rest of the queue. The queue is the model's own. -/
def Obligations.StepRunsTheFrontCommand : Prop :=
  ∀ (c : Instr) (s : State), step { s with pending := c :: s.pending } = exec c s

/-- The state at reset holds the defaults that the tables of R181, R201, R211, R245, R279, R280, R316, R426, R508, R549 and R564 give, memory with nothing stored, and windows in canonical form. Where the tables give none (the queue, the tick run-up, MODULE_STATE before power), the value is the model's (log 4). Readings and choices of the model that it rests on: notes/assumptions/4.md. -/
def Obligations.ResetHoldsTheDefaults : Prop :=
  (let s := State.reset
  (s.tick.period = 2000 ∧ s.tick.role = 0 ∧ s.tick.priority = 0 ∧ s.tick.master = 0xFFFF ∧ s.tick.missed = 0) ∧
  (s.gov.limit = 3300 ∧ s.gov.peak = 3800 ∧ s.gov.soft = 95 ∧ s.gov.hard = 105 ∧ s.gov.base = 700 ∧ s.gov.overshoot = 0 ∧ s.gov.derate = 65536 ∧
    (∀ p : PartId, s.gov.correction[p] = 16384) ∧ ∀ p : PartId, s.gov.allotment[p] = 0) ∧
  (∀ p : PartId, s.parts[p].state = .free ∧ s.parts[p].cls = 0 ∧ s.parts[p].written.share = 1024 ∧ s.parts[p].written.flows = 1024 ∧ s.parts[p].written.slots = 16 ∧
    s.parts[p].hostGrant = false ∧ s.parts[p].jointSession = 0xFF) ∧
  (∀ (p : PartId) (r : RingId), s.rings[p][r].enable = false ∧ s.rings[p][r].head = 0 ∧ s.rings[p][r].state = 0 ∧ s.rings[p][r].faultStatus = 0) ∧
  (s.mem.stripe = 32 ∧ s.mem.lendBytes = 0 ∧ s.mem.migPages = 256 ∧ s.mem.promoteHeat = 256 ∧ s.mem.t1 = [] ∧ s.mem.t2 = [] ∧ s.mem.ctrs = [] ∧ ∀ p : PartId, s.mem.window[p] = []) ∧
  (∀ k : StraitId, s.fab.straits[k].link = .off ∧ s.fab.straits[k].mode = 1 ∧ s.fab.straits[k].width = 0 ∧ s.fab.straits[k].spare = 0xFF ∧ s.fab.straits[k].peer = 0xFFFF ∧
    s.fab.straits[k].peerStrait = 0xFF ∧ s.fab.straits[k].delay = 0) ∧
  (s.fab.deviceId = 0xFFFF ∧ s.fab.flows = [] ∧ s.fab.routes = [] ∧ s.keys.slots = [] ∧ s.bind.carveout = 0 ∧ s.bind.sessions = []) ∧
  (s.life.word = 0 ∧ s.life.nonce = 0 ∧ s.ras.testInterval = 1800000 ∧ s.ras.window = 43200000 ∧ s.ras.auditCount = 0 ∧ s.lh.sealCount = 0 ∧ s.lh.sealed = false) ∧
  (s.pow.mod = .off ∧ s.pow.request = 3 ∧ s.pow.boots = 0 ∧ s.side.port = 30462 ∧ s.side.node = 0xFF ∧ s.side.nodes = 17 ∧ s.side.addr = 0 ∧ s.dict.sessions = [] ∧ s.pending = [])) ∧
  (WindowsWf State.reset)

/-- Whatever a command does, it changes only the groups of the state that `touches` names for it, and never the queue: the frame of all 215 commands. -/
def Obligations.EveryCommandTouchesOnlyItsGroups : Prop :=
  ∀ (i : Instr) (s t : State), exec i s = .next t → OnlyTouches (touches i) s t

/-- The fuses that the spec makes one-way stay set over every step: life-cycle word, firmware floor, seal count, seal. -/
def Obligations.FusesOnlyGainOverEveryStep : Prop :=
  ∀ s t : State, step s = .next t → FusesOnlyGain s t

/-- For every state whose partitions hold their windows in canonical form (addresses rising, no byte 0 listed), every step that answers a next state keeps that form. The form is the model's own (log 4). -/
def Obligations.WindowsStayCanonicalOverEveryStep : Prop :=
  ∀ s t : State, WindowsWf s → step s = .next t → WindowsWf t

/-! ### Requests of the dictionary -/

/-- Answering a request that stands for a write (R542, R553, R555): the response goes out, DICT_REQUESTS counts, sideband frames are counted, and nothing else of the state changes. A per-session value is held for its session alone: written for `q`, it reads back for `q`, and every other session's values stand. Readings and choices of the model that it rests on: notes/assumptions/8.md. -/
def Obligations.AnswersAndSessionValuesKeepApart : Prop :=
  (∀ (q : Req) (u : State) (st : Status),
    Responds q st [] u (answer q (u, st)) ∧ OnlyTouches [.out, .dict] u (answer q (u, st)) ∧
    (answer q (u, st)).dict.counters = bump u.dict.counters 2 1 ∧ (answer q (u, st)).dict.sessions = u.dict.sessions ∧
    (answer q (u, st)).dict.openings = u.dict.openings ∧ (answer q (u, st)).dict.alerts = u.dict.alerts ∧ (answer q (u, st)).dict.events = u.dict.events) ∧
  (∀ (q r : Req) (f : PerSession → PerSession) (s : State), q.sid = 0 ∨ (findSess s q).isSome →
    perOf (updPer q f s) q = f (perOf s q) ∧ (r.sid ≠ q.sid → perOf (updPer q f s) r = perOf s r) ∧ OnlyTouches [.dict] s (updPer q f s))

/-- A request of a role other than OPERATOR to an object that only OPERATOR writes ends DENIED and changes nothing (R6, R201, R245, R279, R509, R543, R581). Readings and choices of the model that it rests on: notes/assumptions/8.md, 13.md, 32.md, 50.md, 65.md. -/
def Obligations.OperatorObjectsRefuseOtherRoles : Prop :=
  ∀ (s : State) (q : Req), reachable s → roleOf s q ≠ .operator →
    let no : Host.Outcome State Fault Refusal := .next (answer q (s, .denied))
    (∀ us, exec (.framePeriodWrite q us) s = no) ∧ (∀ v, exec (.poolHomeAccess q (some v)) s = no) ∧ (∀ w, exec (.routeEntryAccess q (some w)) s = no) ∧
    (∀ w, exec (.aptEntryWrite q w) s = no) ∧ (∀ n, exec (.alertAck q n) s = no) ∧ (∀ p sub v, exec (.quotaWrite q p sub v) s = no) ∧ (∀ p, exec (.create q p) s = no) ∧
    (∀ k v, exec (.train q k v) s = no) ∧ (∀ k v, exec (.straitModeWrite q k v) s = no) ∧ (∀ u, exec (.unitQuery q u) s = no) ∧ (∀ i, exec (.histQuery q i) s = no) ∧
    (∀ i f, exec (.departAtFrameSet q i f) s = no) ∧ (∀ i, exec (.departWithdraw q i) s = no) ∧ exec (.stateRequestDoze q) s = no ∧ exec (.stateRequestStandby q) s = no ∧
    exec (.stateRequestActive q) s = no

/-- A write of a query subindex records the key in the session's values, is answered DONE, and changes nothing else (R245, R361, R417, R431, R507, R508, R534, R544, R545). Readings and choices of the model that it rests on: notes/assumptions/8.md. -/
def Obligations.QueriesRecordTheirKey : Prop :=
  ∀ (s : State) (q : Req), reachable s →
    (∀ v : BitVec 32, served s 0x10F0 → mayUse s q 0x10F0 rAll true → (descOf s (v.toNat / 256) (v.toNat % 256)).isSome → v.toNat < 2 ^ 24 →
      exec (.descQuery q v) s = .next (answer q (updPer q (fun x => { x with descQuery := v }) s, .done))) ∧
    (∀ (p : PartId) (va : BitVec 64), served s (0x5040 + p.val) → opOrTenant s q p → va.toNat < 2 ^ 56 →
      exec (.ptQuery q p va) s = .next (answer q (updPerPart q p (fun x => { x with ptQuery := va, ptEntry := leafWord s.mem p (va.toNat / 2 ^ 21) }) s, .done))) ∧
    (∀ (p : PartId) (va : BitVec 64), served s (0x5040 + p.val) → opOrTenant s q p → va.toNat < 2 ^ 56 → va.toNat % 2 ^ 21 = 0 →
      exec (.rgnQuery q p va) s = .next (answer q (updPerPart q p (fun x => { x with rgnQuery := va, rgnRecord := regionWord (s.vm.region p (va.toNat / 2 ^ 21)) }) s, .done))) ∧
    (∀ id : BitVec 32, served s 0x6040 → isOperator s q → id.toNat < 262144 → exec (.flowQuery q id) s = .next (answer q (updPer q (fun x => { x with flowQuery := id }) s, .done))) ∧
    (∀ id : BitVec 16, served s 0x8010 → isOperator s q → id.toNat < 4096 → exec (.slotQuery q id) s = .next (answer q (updPer q (fun x => { x with slotQuery := id }) s, .done))) ∧
    (∀ u : BitVec 16, served s 0x9004 → isOperator s q → unitExists u.toNat → exec (.unitQuery q u) s = .next (answer q (updPer q (fun x => { x with unitQuery := u }) s, .done))) ∧
    (∀ i : BitVec 32, served s 0x9005 → isOperator s q → exec (.histQuery q i) s = .next (answer q (updPer q (fun x => { x with histIndex := i }) s, .done))) ∧
    (∀ n : BitVec 64, served s 0x9010 → isOperator s q ∨ roleOf s q = .tenant → exec (.auditQuery q n) s = .next (answer q (updPer q (fun x => { x with auditSeq := n }) s, .done))) ∧
    (∀ (i : SessIx) (l : BitVec 16), served s (0x7001 + i) → i < 255 → sessMay s q i →
      exec (.ownerQuery q i l) s = .next (answer q (updPer q (fun v => { v with ownerLayer := alSet i l v.ownerLayer }) s, .done))) ∧
    (∀ n : BitVec 64, served s 0xB003 → exec (.lhQuery q .frame n) s = .next (answer q (updPer q (fun x => { x with frameQuery := n }) s, .done))) ∧
    (∀ n : BitVec 64, served s 0xB004 → exec (.lhQuery q .minute n) s = .next (answer q (updPer q (fun x => { x with minuteQuery := n }) s, .done))) ∧
    (∀ n : BitVec 64, served s 0xB005 → exec (.lhQuery q .hour n) s = .next (answer q (updPer q (fun x => { x with hourQuery := n }) s, .done))) ∧
    (∀ n : BitVec 64, served s 0xB005 → n.toNat < 65536 → exec (.lhQuery q .sealOffset n) s = .next (answer q (updPer q (fun x => { x with sealOffset := n.setWidth 16 }) s, .done))) ∧
    (∀ n : BitVec 64, served s 0xB007 → n.toNat < 65536 → exec (.lhQuery q .certOffset n) s = .next (answer q (updPer q (fun x => { x with certOffset := n.setWidth 16 }) s, .done)))

/-- Writes of operator settings that take (R201, R202, R245, R279, R426, R549): each sets its value alone and is answered DONE, or, where it is persistent and its flash write fails, keeps the old value and is answered INTERNAL (R544) (reads of POOL_HOME_ENTRY and ROUTE_ENTRY answer the entry that the session's index names). What a TENANT sets for its own partition: HOST_GRANT, and RING_ENABLE, which an OPERATOR may set too. Readings and choices of the model that it rests on: notes/assumptions/8.md, 32.md, 72.md. -/
def Obligations.SettingsTakeTheirValue : Prop :=
  (∀ (s : State) (q : Req), reachable s → isOperator s q →
    (∀ us : BitVec 32, served s 0x2000 → 500 ≤ us.toNat → us.toNat ≤ 8000 → us.toNat % 100 = 0 →
      exec (.framePeriodWrite q us) s = .next (answer q (if q.flashFails then (s, .internal) else ({ s with tick := { s.tick with period := us, announced := if s.tick.role = 1 then some us.toNat else s.tick.announced } }, .done)))) ∧
    (∀ us : BitVec 32, us.toNat < 500 ∨ 8000 < us.toNat ∨ us.toNat % 100 ≠ 0 → exec (.framePeriodWrite q us) s = .next (answer q (s, .denied))) ∧
    (served s 0x5010 → exec (.poolHomeAccess q none) s = .next (answerData q 0x5010 2 (s, .done, homeBytes s.mem (perOf s q).poolIndex.toNat))) ∧
    (∀ v : Bytes, served s 0x5010 → v.length = 16 → leNat v = 0 → (perOf s q).poolIndex.toNat < 1024 → homeUsed s.mem (perOf s q).poolIndex.toNat = 0 →
      exec (.poolHomeAccess q (some v)) s = .next (answer q (if q.flashFails then (s, .internal) else ({ s with mem := { s.mem with homes := alDel (perOf s q).poolIndex.toNat s.mem.homes } }, .done)))) ∧
    (served s 0x6021 → exec (.routeEntryAccess q none) s = .next (answerData q 0x6021 2 (s, .done, leBytes 4 (routeOf s (perOf s q).routeDest).toNat))) ∧
    (∀ w : BitVec 32, served s 0x6021 → routeOk w →
      exec (.routeEntryAccess q (some w)) s = .next (answer q (if q.flashFails then (s, .internal) else ({ s with fab := { s.fab with routes := alPut 0 (perOf s q).routeDest.toNat w s.fab.routes } }, .done)))) ∧
    (∀ w : BitVec 128, served s 0x6030 → (perOf s q).aptIndex.toNat < 131072 → aptOk w → w ≠ 0 →
      exec (.aptEntryWrite q w) s = .next (answer q (if q.flashFails then (s, .internal) else ({ s with fab := { s.fab with aperture := alSet (perOf s q).aptIndex.toNat { raw := w } s.fab.aperture } }, .done)))) ∧
    (∀ n : BitVec 64, served s 0x1102 →
      exec (.alertAck q n) s = .next (answer q ({ s with dict := { s.dict with alerts := s.dict.alerts.filter (fun a => n.toNat < a) } }, .done))) ∧
    (∀ (p : PartId) (v : Bytes), served s (0x3000 + p.val) → s.parts[p].state ≠ .removing → quotaOk s p 5 v →
      ∃ t, exec (.quotaWrite q p 5 v) s = .next t ∧ t.parts[p].written.share = BitVec.ofNat 16 (leNat v) ∧ t.parts[p].force = s.parts[p].force ∧
        (∀ p', p' ≠ p → t.parts[p'] = s.parts[p']) ∧ OnlyTouches [.parts, .out, .dict] s t)) ∧
  (∀ (s : State) (q : Req) (p : PartId), reachable s →
    (∀ v : Byte, served s (0x3000 + p.val) → isTenant s q p → v.toNat ≤ 1 →
      ∃ t, exec (.hostGrantWrite q p v) s = .next t ∧ t.parts[p] = { s.parts[p] with hostGrant := v = 1 } ∧ (∀ p', p' ≠ p → t.parts[p'] = s.parts[p']) ∧
        Responds q .done [] s t ∧ OnlyTouches [.parts, .out, .dict] s t) ∧
    (∀ v : Byte, ¬isTenant s q p → exec (.hostGrantWrite q p v) s = .next (answer q (s, .denied))) ∧
    (∀ r : RingId, served s (0x4000 + 16 * p.val + r.val) → opOrTenant s q p → s.parts[p].state = .active → s.rings[p][r].enable = false →
      ∃ t, exec (.ringEnableWrite q p r 1) s = .next t ∧ t.rings[p][r] = { s.rings[p][r] with enable := true, state := 1 } ∧
        (∀ p' r', (p', r') ≠ (p, r) → t.rings[p'][r'] = s.rings[p'][r']) ∧ Responds q .done [] s t ∧ OnlyTouches [.rings, .out, .dict] s t) ∧
    (∀ r : RingId, served s (0x4000 + 16 * p.val + r.val) → opOrTenant s q p →
      ∃ t, exec (.ringEnableWrite q p r 0) s = .next t ∧ t.rings[p][r] = { s.rings[p][r] with enable := false, state := 0 } ∧
        (∀ p' r', (p', r') ≠ (p, r) → t.rings[p'][r'] = s.rings[p'][r']) ∧ Responds q .done [] s t ∧ OnlyTouches [.rings, .out, .dict] s t))

/-- A write of an object by index and subindex (R542, R543): POWER_LIMIT_W in its range by OPERATOR takes its value alone, or stays as it was with INTERNAL where its flash write fails (R544); a value outside its range, of another length, or from another role ends DENIED and changes nothing. Readings and choices of the model that it rests on: notes/assumptions/8.md. -/
def Obligations.RegisterWritesKeepTypeRangeAndRole : Prop :=
  ∀ (s : State) (q : Req), reachable s →
    (∀ w : BitVec 16, served s 0x2100 → isOperator s q → 300 ≤ w.toNat → w.toNat ≤ 3300 →
      exec (.registerWrite q 0x2100 0 (leBytes 2 w.toNat)) s = .next (answer q (if q.flashFails then (s, .internal) else ({ s with gov := { s.gov with limit := w } }, .done)))) ∧
    (∀ b : Bytes, b.length ≠ 2 ∨ leNat b < 300 ∨ 3300 < leNat b ∨ !isOperator s q → exec (.registerWrite q 0x2100 0 b) s = .next (answer q (s, .denied))) ∧
    (∀ (index : BitVec 16) (sub : Byte) (b : Bytes), writable s q index.toNat sub.toNat = false → exec (.registerWrite q index sub b) s = .next (answer q (s, .denied)))

/-- A message of a session (R554, R557, R558, R562): it is taken only with a good tag and a SEQ above the last, a READ is answered with the value or DENIED and kept, a repeated request is answered again without running, and a WRITE of one segment runs as a write of its object. -/
def Obligations.SessionMessagesRunOnceInOrder : Prop :=
  ∀ (s : State) (m : DictMsg) (x : DSess), reachable s → m.route = .fabric → forHere s m → m.sid ≠ 0 → sessOf s m.sid = some x → x.revoked = false →
    (∀ c ∈ [Instr.read m, .write m, .readBlock m], msgForm 3 m → m.count = 0 → m.tagOk = false ∨ m.seq ≤ x.seqIn → exec c s = .next (dropMsg s)) ∧
    (∀ (c : Instr) (k : Kept), c ∈ [Instr.read m, .write m, .readBlock m] → msgForm 3 m → m.count = 0 → m.tagOk → x.seqIn < m.seq → keptFor m x = some k →
      ∃ t, exec c s = .next t ∧ t.out = s.out ++ [.response m.sid m.src m.reqId k.status k.more k.answer] ∧ t.dict.counters = s.dict.counters ∧ (sessOf t m.sid).map (·.seqIn) = some m.seq ∧
        OnlyTouches [.out, .dict] s t) ∧
    (∀ c ∈ [Instr.read m, .readBlock m], msgForm 3 m → m.count = 0 → m.tagOk → x.seqIn < m.seq → keptFor m x = none → m.offset = 0 →
      ∃ t st more b, exec c s = .next t ∧ t.out = s.out ++ [.response m.sid m.src m.reqId st more b] ∧ t.dict.counters = bump s.dict.counters 2 1 ∧
        (sessOf t m.sid).map (·.seqIn) = some m.seq ∧ (sessOf t m.sid).map (·.seqOut) = some (x.seqOut + 1) ∧ ((sessOf t m.sid).bind (fun y => keptFor m y)).isSome ∧
        OnlyTouches [.out, .dict] s t) ∧
    (msgForm 2 m → m.tagOk → x.seqIn < m.seq → keptFor m x = none → m.offset = 0 → m.flags = 1 → writable s (reqOf m) m.index.toNat m.sub.toNat →
      m.data.length ≤ lengthLimit s m.index.toNat m.sub.toNat →
      ∃ u, exec (.write m) s = .next (respond m (writeObject (reqOf m) m.index.toNat m.sub.toNat m.data u).2 false [] (writeObject (reqOf m) m.index.toNat m.sub.toNat m.data u).1) ∧
        u.out = s.out ∧ u.dict.counters = bump s.dict.counters 2 1 ∧ (sessOf u m.sid).map (·.seqIn) = some m.seq ∧ OnlyTouches [.dict] s u)

/-- A READ without a session (R555, R556): the value of the object at that instant is answered from its first byte, at most 960 bytes at a time, and READ_BLOCK answers its subindexes in one; an object that is not read is DENIED. Readings and choices of the model that it rests on: notes/assumptions/74.md. -/
def Obligations.ReadsAnswerTheValueOrDenied : Prop :=
  ∀ (s u : State) (m : DictMsg), reachable s → m.route = .fabric → forHere s m → m.sid = 0 → m.offset = 0 → u = { s with dict := { s.dict with counters := bump s.dict.counters 2 1 } } →
    (∀ b : Bytes, msgForm 1 m → readObject u (reqOf m) m.index.toNat m.sub.toNat = some b →
      ∃ t, exec (.read m) s = .next t ∧ t.out = s.out ++ [.response 0 m.src m.reqId .done (decide (960 < b.length)) (b.take 960)] ∧ OnlyTouches [.out, .dict] s t) ∧
    (msgForm 1 m → readObject u (reqOf m) m.index.toNat m.sub.toNat = none →
      ∃ t, exec (.read m) s = .next t ∧ t.out = s.out ++ [.response 0 m.src m.reqId .denied false []] ∧ OnlyTouches [.out, .dict] s t) ∧
    (∀ b : Bytes, msgForm 3 m → blockOf u (reqOf m) m.index.toNat m.sub.toNat m.count.toNat = some b →
      ∃ t, exec (.readBlock m) s = .next t ∧ t.out = s.out ++ [.response 0 m.src m.reqId .done (decide (960 < b.length)) (b.take 960)] ∧ OnlyTouches [.out, .dict] s t)

/-- Sessions (R559 to R563): an OPEN_1 that is not refused is answered with OPEN_2 and a session ID not in use; CLOSE and 600 s of silence end a session and erase its key slot; a staged value is discarded when its next segment does not come. OPEN_3 (R559 to R561): its last segment, for an opening that stands, is answered and uses the opening up; a session stands exactly where the answer is DONE; an unbound TENANT of a CREATED partition needs no proof. Readings and choices of the model that it rests on: notes/assumptions/75.md. -/
def Obligations.SessionsOpenProveAndEnd : Prop :=
  (∀ (s : State) (m : DictMsg), reachable s → forHere s m →
    (∀ (role part : Nat), m.route = .fabric → msgForm 0x10 { m with sid := 0 } → m.offset = 0 → m.flags = 1 → m.data.length = 34 → leNat (m.data.take 1) = role → leNat (slice m.data 1 1) = part →
      open1Ok s m.route role part →
      ∃ t o nonce pub sig, exec (.open1 m) s = .next t ∧ t.out = s.out ++ [.open2 m.src o.sid nonce pub sig] ∧ t.dict.openings = o :: s.dict.openings ∧ o.src = m.src ∧ o.role = role ∧ o.part = partOf part ∧
        OnlyTouches [.out, .free, .dict] s t) ∧
    (∀ x, m.route = .fabric → m.sid ≠ 0 → sessOf s m.sid = some x → x.revoked = false → msgForm 0x14 m → m.tagOk → x.seqIn < m.seq → keptFor m x = none →
      ∃ t, exec (.sessionClose m) s = .next t ∧ sessOf t m.sid = none ∧ t.out = s.out ++ [.response m.sid m.src m.reqId .done false []] ∧ (∀ i, x.slot = some i → alGet i t.keys.slots = none) ∧
        (∀ n, n ≠ m.sid → sessOf t n = sessOf s n) ∧ OnlyTouches [.out, .keys, .dict] s t) ∧
    (∀ (sid : Nat) (x : DSess), sid ≠ 0 → sessOf s sid = some x → x.revoked = false →
      ∃ t, exec (.sessionIdleTimeout sid) s = .next t ∧ sessOf t sid = none ∧ (∀ i, x.slot = some i → alGet i t.keys.slots = none) ∧ (∀ n, n ≠ sid → sessOf t n = sessOf s n) ∧
        OnlyTouches [.keys, .dict] s t) ∧
    (∀ (q : Req) (n : Nat) (x : DSess) (b : Bytes), findSess s q = some x → alGet n x.staged = some b →
      ∃ t y, exec (.segmentGapTimeout q n) s = .next t ∧ findSess t q = some y ∧ alGet n y.staged = none ∧ y.vals = x.vals ∧ OnlyTouches [.dict] s t)) ∧
  (∀ (s : State) (m : DictMsg) (o : Opening) (x : DSess) (b : Bytes), reachable s → m.route = .fabric → forHere s m → m.sid = o.sid → o.sid ≠ 0 → openingOf s m = some o →
    (∀ y ∈ s.dict.sessions, y.sid ≠ o.sid) → msgForm 0x12 { m with sid := 0, seq := 0 } → findSess s (openerOf m) = some x → alGet (2 ^ 24 + 0x12) x.staged = some b → b ≠ [] → m.offset = b.length →
    m.flags = 1 → b.length + m.data.length ≤ 8787 →
    ∃ t st, exec (.open3 m) s = .next t ∧ t.out = s.out ++ [.response 0 m.src m.reqId st false []] ∧ (∀ y ∈ t.dict.openings, y.sid ≠ o.sid) ∧ (sessOf t o.sid).isSome = decide (st = .done) ∧
      OnlyTouches [.out, .free, .keys, .dict] s t ∧
      (∀ p, o.role = 4 → o.part = some p → s.parts[p].state = .created → b.length + m.data.length = 1568 → hearsOpens s 4 → liveSess s (fun y => y.role = .tenant && !y.bound && y.part = some p) = 0 →
        st = .done ∧ ∃ y, sessOf t o.sid = some y ∧ y.role = .tenant ∧ y.bound = false ∧ y.part = some p))

/-- GO of a mailbox slot (R298, R565): a request for the ferry is executed here and its slot is DONE; one for a device without a host flow ends LINK_LOST; before IDE is up it is an Unsupported Request. Readings and choices of the model that it rests on: notes/assumptions/39.md. -/
def Obligations.MailboxRequestsAreCarried : Prop :=
  ∀ (s : State) (k : StraitId) (slot : Fin 16) (m : DictMsg) (back : Option Bytes), hostUp s k → reachable s →
    (s.fab.straits[k].ide → forHere s m → m.sid = 0 → m.offset = 0 → msgForm 1 m → ∃ t st more b, exec (.mailboxGo k slot 1 ⟨m, back⟩) s = .next t ∧
      t.out = s.out ++ [.response 0 m.src m.reqId st more b, .mailboxDone k slot .done (1 + slot.val % 7)] ∧ OnlyTouches [.out, .dict] s t) ∧
    (∀ op, s.fab.straits[k].ide → forHere s m = false → findFlow s 0x40 m.dest 8 none = none → exec (.mailboxGo k slot op ⟨m, back⟩) s = .next (s.emit [.mailboxDone k slot .linkLost (1 + slot.val % 7)])) ∧
    (∀ op f x, s.fab.straits[k].ide → forHere s m = false → s.fab.idInForce ≠ 0xFFFF → findFlow s 0x40 m.dest 8 none = some f → getFlow s f = some x → x.state = .opened →
      (∃ t y, exec (.mailboxGo k slot op ⟨m, none⟩) s = .next t ∧ getFlow t f = some y ∧ y.txPsn = x.txPsn + 1 ∧ (k, slot, m.reqId, m.dest) ∈ t.fab.mailbox ∧ OnlyTouches [.out, .fab] s t) ∧
      ∀ b : Bytes, ∃ t y pre, exec (.mailboxGo k slot op ⟨m, some b⟩) s = .next t ∧ getFlow t f = some y ∧ y.txPsn = x.txPsn + 1 ∧
        t.out = s.out ++ pre ++ [.mailboxData k slot b, .mailboxDone k slot .done (1 + slot.val % 7)] ∧ t.fab.mailbox = s.fab.mailbox ∧ OnlyTouches [.out, .fab] s t) ∧
    (∀ op, s.fab.straits[k].ide = false → exec (.mailboxGo k slot op ⟨m, back⟩) s = .next (s.emit [.hostUnsupported k]))

/-- The sideband node (R564): its link state, echo, and neighbour discovery of its link-local address; a neighbour's advertisement enters its cache. The I3C target (R567): it takes an address, gives it up and changes it; with an address it answers the directed reads, sets its read position by a write of one byte and gives the readout from there; without one nobody answers. Readings and choices of the model that it rests on: notes/assumptions/81.md. -/
def Obligations.TheSidebandAndTheI3cTargetAnswer : Prop :=
  (∀ s : State,
    (∀ v : Byte, s.pow.mgmtUp → v.toNat ≤ 1 ∨ (v = 2 ∧ s.side.node ≠ 0xFF) → exec (.sbLinkStateChange v) s = .next { s with side := { s.side with link := v } }) ∧
    (∀ b : Bytes, reachable s → b.length ≤ 1232 →
      ∃ t, exec (.icmpv6Echo false b) s = .next t ∧ t.out = s.out ++ [.echoReply false b] ∧ t.dict.sb = bump (bump s.dict.sb 1 1) 2 1 ∧ OnlyTouches [.out, .dict] s t) ∧
    (∀ b : Bytes, s.lh.powered → b.length ≤ 1232 → exec (.icmpv6Echo true b) s = .next (s.emit [.echoReply true b])) ∧
    (∀ mac : BitVec 48, s.lh.powered →
      exec (.neighbourDiscovery true true (linkLocal lhMac) mac) s = .next (s.emit [.advert true (BitVec.ofNat 48 (leNat lhMac))]) ∧
      ∀ a : BitVec 128, exec (.neighbourDiscovery true false a mac) s = .next { s with side := { s.side with lhNeighbours := kvSet a mac s.side.lhNeighbours } }) ∧
    (∀ (a : BitVec 128) (mac : BitVec 48), reachable s →
      ∃ t, exec (.neighbourDiscovery false false a mac) s = .next t ∧ t.side = { s.side with neighbours := kvSet a mac s.side.neighbours } ∧ OnlyTouches [.dict, .side] s t)) ∧
  (∀ s : State, s.pow.mgmtUp →
    (∀ a : BitVec 7, s.side.i3cAddr = none →
      exec (.entdaa a) s = .next (({ s with side := { s.side with i3cAddr := some a } }).emit [.i3c (pidBytes ++ [Config.i3cBcr, Config.i3cDcr])])) ∧
    exec .rstdaa s = .next { s with side := { s.side with i3cAddr := none } } ∧
    (s.side.i3cAddr.isSome →
      (∀ a : BitVec 7, exec (.setnewda a) s = .next { s with side := { s.side with i3cAddr := some a } }) ∧
      exec .getpid s = .next (s.emit [.i3c pidBytes]) ∧ exec .getbcr s = .next (s.emit [.i3c [Config.i3cBcr]]) ∧ exec .getdcr s = .next (s.emit [.i3c [Config.i3cDcr]]) ∧
      exec .getstatus s = .next (s.emit [.i3c (leBytes 2 Config.i3cStatus.toNat).reverse]) ∧ exec .getmrl s = .next (s.emit [.i3c (leBytes 2 Config.i3cMaxRead.toNat).reverse]) ∧
      exec .getmwl s = .next (s.emit [.i3c (leBytes 2 Config.i3cMaxWrite.toNat).reverse]) ∧
      (∀ b : Byte, exec (.i3cPrivateWrite [b]) s = .next { s with side := { s.side with i3cPos := b.toNat } }) ∧
      (∀ n : Nat, exec (.i3cPrivateRead n) s = .next (s.emit [.i3c (slice s.side.i3cData s.side.i3cPos n)]))) ∧
    (s.side.i3cAddr = none → ∀ c ∈ [Instr.getpid, .getbcr, .getdcr, .getstatus, .getmrl, .getmwl, .i3cPrivateRead 1], exec c s = .next (s.emit [.i3cNack])) ∧
    (∀ w mv : BitVec 16, ∃ t, exec (.i3cRefresh w mv) s = .next t ∧ t.side.powerW = w ∧ t.side.mv = mv ∧ t.side.i3cData = readout { s with side := { s.side with powerW := w, mv := mv } } ∧
      OnlyTouches [.side] s t))

/-! ### Slices, passes and movers -/

/-- What starts on an array (R71, R73, R79, R109, R111, R170, R173, R219): the slice admitted first with its store, buffer and tables afresh; a pass when the passes before it let it, its rows past the committed ones; a mover while fewer than four are in flight, behind its fence. Readings and choices of the model that it rests on: notes/assumptions/45.md. -/
def Obligations.ListsPassesAndMoversStart : Prop :=
  ∀ (s : State) (a : ArrayId),
    (∀ n p r, (sortKey (fun x : Nat × PartId × RingId => x.1) (waitingOn s a)).head? = some (n, p, r) → s.arrays[a].cur = none → s.gov.admission = none →
      ∃ t, exec (.sliceStartOnArray a) s = .next t ∧ t.arrays[a].cur = some (p, r) ∧ t.arrays[a].store = [] ∧ t.arrays[a].rowbuf = [] ∧ t.arrays[a].tables = [] ∧ t.arrays[a].working = [] ∧
        (∀ b, b ≠ a → t.arrays[b] = s.arrays[b]) ∧ (∀ p' r', (p', r') ≠ (p, r) → t.rings[p'][r'] = s.rings[p'][r']) ∧ OnlyTouches [.rings, .arrays] s t) ∧
    (∀ e x d, entryAt s a e = some x → x.desc = .pass d → x.started = false → x.ended = false → passMayStart (entriesOf s a) e d →
      ∃ u y, exec (.passStart a e) s = .next (finishArray a u) ∧ entryAt u a e = some y ∧ y.started = true ∧ y.rows = min x.skip d.m ∧ y.done = x.done + min x.skip d.m ∧
        y.ended = (d.empty || (d.raw && decide (d.m ≤ min x.skip d.m))) ∧ (∀ i, i ≠ e → entryAt u a i = entryAt s a i) ∧ OnlyTouches [.parts, .rings, .arrays] s u) ∧
    (∀ e x d, entryAt s a e = some x → x.desc = .move d → x.started = false → inFlight (entriesOf s a) < 4 → (d.fence = true → ∀ y ∈ (entriesOf s a).take e, y.over' = true) →
      ∃ t, exec (.moverStart a e) s = .next t ∧ entryAt t a e = some { x with started := true } ∧ (∀ i, i ≠ e → entryAt t a i = entryAt s a i) ∧ OnlyTouches [.rings] s t)

/-- Whether a product pass is checked, by its partition's class, its policy and its CHECK field, and what is counted as refused (R488). -/
def Obligations.ChecksFollowThePolicy : Prop :=
  ∀ (s : State) (a : ArrayId) (e : Nat) (x : EntryRun) (d : PassDesc), entryAt s a e = some x → x.desc = .pass d → x.started = false → x.ended = false → passMayStart (entriesOf s a) e d →
    d.type = .product → d.empty = false →
    let p := partHere s a
    let cls := s.parts[p].cls.toNat
    let forced := decide (s.ras.policy[p].toNat ≠ 0)
    ∃ u y, exec (.passStart a e) s = .next (finishArray a u) ∧ entryAt u a e = some y ∧
      y.checked = (if cls = 0 then decide (d.check = 1) else if cls = 1 then (if d.check = 2 then forced else true) else true) ∧
      u.parts[p].live[(0x0F : Nat)]'(by decide) = s.parts[p].live[(0x0F : Nat)]'(by decide) + (if y.checked then 1 else 0) ∧
      u.parts[p].live[(0x12 : Nat)]'(by decide) = s.parts[p].live[(0x12 : Nat)]'(by decide) + (if d.check = 2 ∧ (cls = 1 ∧ forced = true ∨ 2 ≤ cls) then 1 else 0)

/-- Operands are loaded (R51 to R53, R100, R107, R109, R131): a tile into the shadow and at the pass boundary into the working cells; a vector once; a table into one of four places; a half of the fold buffer. -/
def Obligations.OperandsAreLoaded : Prop :=
  ∀ (s : State) (a : ArrayId),
    (∀ e w x d, entryAt s a e = some x → x.desc = .pass d → loadReady s a e x d →
      ∃ t, exec (.stationaryTileLoad a e w) s = .next t ∧ t.arrays[a].shadow = some (e, d.paneKey, readTile (advanceMovers a e (statAreas d) s).mem (partHere s a) d) ∧
        t.arrays[a].working = s.arrays[a].working ∧ (∀ b, b ≠ a → t.arrays[b] = s.arrays[b])) ∧
    (∀ e k tile d, s.arrays[a].shadow = some (e, k, tile) → (entryAt s a e).bind EntryRun.pass = some d → boundaryReached (entriesOf s a) e d →
      ∃ t y, exec (.tileLoadDone a) s = .next t ∧ t.arrays[a].shadow = none ∧ alGet k t.arrays[a].working = some tile ∧ entryAt t a e = some y ∧ y.working = true ∧
        (∀ b, b ≠ a → t.arrays[b] = s.arrays[b]) ∧ OnlyTouches [.rings, .arrays] s t) ∧
    (∀ e (slot : Fin 4) w x d c, entryAt s a e = some x → x.desc = .pass d → x.chain = some c → x.started = true → x.over' = false → c.vectorSlots.contains slot.val → alGet slot.val x.vectors = none →
      mayRead s a e (vectorAreas d (c.slot slot.val)) →
      ∃ t y, exec (.vectorOperandLoad a e slot w) s = .next t ∧ entryAt t a e = some y ∧ y.load = x.load + w ∧
        alGet slot.val y.vectors = some (vectorOperand (advanceMovers a e (vectorAreas d (c.slot slot.val)) s).mem (partHere s a) d (c.slot slot.val))) ∧
    (∀ e (slot : Fin 4) w x c, entryAt s a e = some x → x.chain = some c → x.started = true → x.over' = false → c.tableSlots.contains slot.val →
      (∀ t ∈ s.arrays[a].tables, t.addr ≠ (c.slot slot.val).elemAddr) → s.arrays[a].tables.length ≤ 4 →
      s.arrays[a].tables.length < 4 ∨ (evictable s.arrays[a].tables (tablesInUse (entriesOf s a))).isSome → mayRead s a e (tableAreas (c.slot slot.val)) →
      ∃ t tb, exec (.tableLoad a e slot w) s = .next t ∧ tb ∈ t.arrays[a].tables ∧ tb.addr = (c.slot slot.val).elemAddr ∧ t.arrays[a].tables.length ≤ 4 ∧
        (∀ old ∈ s.arrays[a].tables, (tablesInUse (entriesOf s a)).contains old.addr → old ∈ t.arrays[a].tables)) ∧
    (∀ e x d, entryAt s a e = some x → x.desc = .pass d → foldReady s a e x d →
      let u := advanceMovers a e (foldAreas d x.folded (min 256 (foldLines d - x.folded))) s
      ∃ t y lines, exec (.foldHalfFill a e) s = .next t ∧ t.arrays[a].fold = s.arrays[a].fold.filter (fun h => !((entryAt u a h.1).map EntryRun.over').getD true) ++ [(e, x.folded, lines)] ∧ lines.length = min 256 (foldLines d - x.folded) ∧
        entryAt t a e = some y ∧ y.folded = x.folded + min 256 (foldLines d - x.folded))

/-- Rows pass through the array and its chain engine (R48, R56 to R58, R111, R113 to R117, R187, R489): a row drains or a group is read in order, statistics land, and blocks are written; a row behind its check gate is provisional, any other is committed. -/
def Obligations.RowsDrainAndAreWritten : Prop :=
  ∀ (s : State) (a : ArrayId),
    (∀ e b w u x d, entryAt s a e = some x → x.desc = .pass d → drainReady s a e x d →
      ∃ t y, exec (.drainRow a e b w u) s = .next t ∧ entryAt t a e = some y ∧ y.rows = x.rows + 1 ∧ y.busy = x.busy + (if d.needsTile then 1 else 0) ∧ y.bubble = x.bubble + b ∧
        y.stall = x.stall + w ∧ y.quanted = x.quanted ∧ y.done = x.done) ∧
    (∀ e w x d c, entryAt s a e = some x → x.desc = .pass d → x.chain = some c → groupReady s a e x d →
      ∃ t y, exec (.chainStandaloneGroup a e w) s = .next t ∧ entryAt t a e = some y ∧ y.stall = x.stall + w ∧
        (if s.arrays[a].group.length + 256 < d.width then t.arrays[a].group.length = s.arrays[a].group.length + 256 ∧ t.arrays[a].rows = s.arrays[a].rows ∧ y.rows = x.rows
         else t.arrays[a].group = [] ∧ t.arrays[a].rows.length = s.arrays[a].rows.length + 1 ∧ y.rows = x.rows + 1)) ∧
    (∀ r d c, s.arrays[a].rows.find? (fun r => !r.stats.isEmpty) = some r → (entryAt s a r.entry).bind EntryRun.pass = some d → (entryAt s a r.entry).bind EntryRun.chain = some c →
      mayWrite s a r.entry (statRegion d c r.m 1) →
      ∃ t, exec (.rowStatLand a) s = .next t ∧ t.arrays[a].store = s.arrays[a].store ∧
        (spaceOf c.rowstat = 1 → t.arrays[a].rows = s.arrays[a].rows.map (fun q => if q.entry = r.entry ∧ q.m = r.m then { q with stats := [] } else q))) ∧
    (∀ r d c x, quantRow s a = some (r, d, c) → entryAt s a r.entry = some x → c.discards = true ∨ mayWrite s a r.entry (outAreas d c r.m 1) →
      ∃ t y, exec (.quantBlockWrite a) s = .next t ∧ t.arrays[a].rows = s.arrays[a].rows.filter (fun q => !(q.entry = r.entry && q.m = r.m)) ∧ entryAt t a r.entry = some y ∧
        y.quanted = x.quanted + 1 ∧ y.rows = x.rows ∧
        (if x.isProduct && !gateOpen (entriesOf s a) r.entry then y.done = x.done ∧ y.provisional = x.provisional + 1 else y.done = x.done + 1 ∧ y.provisional = x.provisional)) ∧
    (∀ rows tr d c r x, quantTile s a = some (rows, tr, d, c) → rows.head? = some r → entryAt s a r.entry = some x → mayWrite s a r.entry (outAreas d c r.m rows.length) →
      ∃ t y, exec (.sbTileWrite a) s = .next t ∧ t.arrays[a].rows = s.arrays[a].rows.filter (fun q => !(q.entry = r.entry && rows.any (fun k => k.m = q.m))) ∧ entryAt t a r.entry = some y ∧
        y.quanted = x.quanted + rows.length ∧ y.rows = x.rows ∧ y.done + y.provisional = x.done + x.provisional + rows.length)

/-- The end of passes, checks and transfers (R58, R118, R172, R174, R485, R489 to R493): the pass's counts go into its partition's statistics; a failed column check disputes the group; a re-run takes a spare; a decided dispute ends and, where the original stands, leaves every byte as it is; a transfer ends with its bytes committed, a copy within the window with all of them. Readings and choices of the model that it rests on: notes/assumptions/19.md, 41.md, 46.md. -/
def Obligations.PassesDisputesAndMoversEnd : Prop :=
  ∀ (s : State) (a : ArrayId),
    (∀ e x d, entryAt s a e = some x → x.desc = .pass d → x.started = true → x.ended = false → x.left = true →
      ∃ u y, exec (.passEnd a e) s = .next (finishArray a u) ∧ entryAt u a e = some y ∧ y.ended = true ∧ y.done = x.done ∧ y.conds = x.conds ∧
        u.parts[partHere s a] = (((((((s.parts[partHere s a].count 5 x.busy).count 6 x.bubble).count 7 x.stall).count 8 x.load).count 9 x.chainBusy).count 0xA x.clamps).count 0xB x.domain) ∧
        (∀ p, p ≠ partHere s a → u.parts[p] = s.parts[p]) ∧ OnlyTouches [.parts, .rings] s u) ∧
    (∀ e x, entryAt s a e = some x → x.checked = true → x.checkDone = false → x.started = true → x.drained = true →
      (columnFails x.colDiff = false →
        ∃ u, entryAt u a e = some { x with checkDone := true } ∧ exec (.columnCheckDone a e) s = .next (if gateOpen (entriesOf u a) e then openGate a e u else u) ∧ OnlyTouches [.rings] s u) ∧
      (columnFails x.colDiff = true →
        ∃ t, exec (.columnCheckDone a e) s = .next t ∧ t.arrays[a].dispute.isSome ∧ entryAt t a e = some { x with checkDone := true, checkFailed := true } ∧ OnlyTouches [.rings, .arrays] s t)) ∧
    (∀ f l u, s.arrays[a].dispute = some (f, l, none) → rerunSpare s a = some u →
      exec (.disputeRerunStart a) s = .next (s.updArray a (fun y => { y with dispute := some (f, l, some u) }))) ∧
    (∀ f l u o c, s.arrays[a].dispute = some (f, l, some u) → (o && c) = false → groupFinished s a f →
      ∃ t, exec (.disputeDecide a o c) s = .next t ∧ t.arrays[a].dispute = none ∧ (t.ras.unit (physOf s a)).unresolved = 0 ∧
        (o = true → t.ras.auditCount = s.ras.auditCount + 1 ∧ t.mem = s.mem ∧ t.bind = s.bind ∧ t.arrays[a].store = s.arrays[a].store)) ∧
    (∀ e faults x d, entryAt s a e = some x → x.desc = .move d → x.started = true → x.ended = false → x.stopped = true ∨ moverFree s a e d (d.rows * d.rowBytes) →
      ∃ u y, exec (.moverComplete a e faults) s = .next (finishArray a u) ∧ entryAt u a e = some y ∧ y.ended = true ∧ (d.tagged = true → y.done = d.rows) ∧
        (d.tagged = false → spaceOf d.src = 1 → spaceOf d.dst = 1 → x.stopped = false → x.done ≤ d.rows * d.rowBytes → y.done = d.rows * d.rowBytes ∧ y.stopped = false) ∧
        (∀ b, b ≠ a → u.arrays[b] = s.arrays[b]))

/-- Whatever a command of an array does, the other arrays stand as they did, and so does every ring but that of the slice the array runs. -/
def Obligations.ArrayCommandsStayOnTheirArrayAndRing : Prop :=
  ∀ (c : Instr) (a : ArrayId) (s t : State) (p : PartId) (r : RingId), arrayOfCommand c = some a → s.arrays[a].cur = some (p, r) → exec c s = .next t →
    (∀ b, b ≠ a → t.arrays[b] = s.arrays[b]) ∧ ∀ p' r', (p', r') ≠ (p, r) → t.rings[p'][r'] = s.rings[p'][r']

/-- Slices end, and admission goes on (R188 to R191, R193, R220, R221): a completed slice leaves its ring, moves its partition's correction, and moves HEAD unless it was a half or its record failed; a second overrun with a halves block splits; the due candidate is admitted ahead of pass 2. -/
def Obligations.SlicesEndAndAdmissionGoesOn : Prop :=
  ∀ (s : State) (p : PartId) (r : RingId),
    (∀ run cycles energy, s.rings[p][r].run = some run → (∀ x ∈ run.arrays, x.finished = true) → outputsVisible s p →
      ∃ t, exec (.sliceComplete p r cycles energy) s = .next t ∧ t.rings[p][r].run = none ∧
        t.gov.correction[p] = BitVec.ofNat 16 (correctionOf s.gov.correction[p].toNat (min energy 0xFFFFFFFF) run.hdr.predEnergy) ∧
        (∀ p', p' ≠ p → t.gov.correction[p'] = s.gov.correction[p']) ∧
        (s.rings[p][r].halves = [] → s.rings[p][r].head.toNat = s.rings[p][r].subj.seq → t.rings[p][r].state ≠ 2 → t.rings[p][r].head = s.rings[p][r].head + 1) ∧
        (∀ p' r', (p', r') ≠ (p, r) → t.rings[p'][r'] = s.rings[p'][r'])) ∧
    (∀ run (tin : TickIn), s.rings[p][r].run = some run → run.hdr.halfAddr ≠ 0 → 1 ≤ s.rings[p][r].subj.overruns → (∃ x ∈ run.arrays, x.finished = false) →
      ∃ t, exec (.sliceSplit p r tin) s = .next t ∧ t.rings[p][r].run = none ∧
        (tin.moved = [] → runStopped run = false → t.rings[p][r].head = s.rings[p][r].head ∧ t.rings[p][r].subj = { seq := s.rings[p][r].subj.seq } ∧
          ∃ h, t.rings[p][r].halves = h :: s.rings[p][r].halves ∧ h.halfAddr = run.hdr.halfAddr ∧ h.second = false) ∧
        (∀ p' r', (p', r') ≠ (p, r) → t.rings[p'][r'] = s.rings[p'][r'])) ∧
    (∀ adm, s.gov.admission = some adm →
      ∃ t, exec .energyDueAdmit s = .next t ∧ t.gov.admission = none ∧ (∀ c, duePick adm s = some c → (t.rings[c.part][c.ring].run).isSome))

/-! ### The tick and the budget -/

/-- The tick (R199, R202, R207, R208, R212, R214 to R216): the frame advances, the period announced comes into force, the limits as written take effect and the budget follows from them, no slice of the ended frame still runs; and the peak guard engages above its limits and counts its time when it lifts. Readings and choices of the model that it rests on: notes/assumptions/51.md. -/
def Obligations.TheTickTurnsTheFrame : Prop :=
  ∀ s : State,
    (∀ tin : TickIn, s.tick.joined = true → hubUp s → s.pow.mod = .active → s.pow.atTick = none →
      ∃ t, exec (.frameTick tin) s = .next t ∧ t.pow = { s.pow with temps := t.pow.temps, hot := t.pow.hot } ∧ t.tick.frame = (match s.tick.adopt with | some n => BitVec.ofNat 64 n | none => s.tick.frame + 1) ∧ t.tick.ticks = s.tick.ticks + 1 ∧
        t.tick.inForce = (match s.tick.nextPeriod with | some n => BitVec.ofNat 32 n | none => s.tick.inForce) ∧ t.tick.latchedFrame = s.tick.frame ∧ t.tick.heard = [] ∧
        t.gov.inForce = (s.gov.limit.toNat, s.gov.peak.toNat, s.gov.soft.toNat, s.gov.hard.toNat) ∧ t.gov.throttleUs = 0 ∧
        (s.gov.issued = none → t.gov.overshoot = 0 ∧
          t.gov.budget = BitVec.ofNat 32 (budgetOf s.gov.limit.toNat t.gov.base.toNat t.tick.inForce.toNat t.gov.derate.toNat 0)) ∧
        (s.tick.ticks = 0 → ∀ (p : PartId) (r : RingId), t.rings[p][r].run = none)) ∧
    (∀ avg ms : Nat, s.pow.mod = .active → s.gov.throttled = false → s.gov.inForce.2.1 < avg ∨ 16 ≤ ms →
      exec (.peakGuardEngage avg ms) s = .next { s with gov := { s.gov with throttled := true } }) ∧
    (∀ us stalled, s.gov.throttled = true →
      ∃ t, exec (.peakGuardRelease us stalled) s = .next t ∧ t.gov = { s.gov with throttled := false, throttleUs := s.gov.throttleUs + BitVec.ofNat 32 us } ∧ OnlyTouches [.gov, .rings] s t)

/-- Announces (R205, R206, R207, R291, R293): a module at boot step 8 joins the first it hears, with its frame number and period; in the frame in progress its own master's announce counts as heard; a master that stands before the one followed, or takes over from one that is silent, is followed; any other announce only travels on, once for each frame, over every other strait. Readings and choices of the model that it rests on: notes/assumptions/47.md. -/
def Obligations.AnnouncesAreFollowed : Prop :=
  ∀ (s : State) (n : Announce), n.strait ∈ tickStraits s →
    (bootReady s → s.tick.joined = false → n.period < 2 ^ 32 → n.frame < 2 ^ 64 → s.pow.pwrEn → s.pow.latched = none →
      ∃ t, exec (.tickAnnounce n) s = .next t ∧ t.tick.joined = true ∧ t.tick.frame.toNat = n.frame ∧ t.tick.inForce.toNat = n.period ∧ t.tick.master = n.master ∧ t.tick.missedRun = 0 ∧
        t.tick.parent = some n.strait ∧ t.pow.mod = .active) ∧
    (s.tick.joined → n.master = s.tick.master → s.tick.role ≠ 1 → n.frame = s.tick.frame.toNat → n.arrival ≤ 10000 →
      ∃ t, exec (.tickAnnounce n) s = .next t ∧ t.tick.heard = s.tick.heard ++ [(n.strait, announceDelay n s)] ∧ t.tick.missedRun = 0 ∧ t.tick.succ1 = n.succ1 ∧ t.tick.succ2 = n.succ2 ∧
        t.tick.frame = s.tick.frame ∧ t.tick.role = followRole s.fab.idInForce n.succ1 n.succ2 ∧ OnlyTouches [.out, .tick, .fab] s t) ∧
    (s.tick.joined → (n.master = s.tick.master ∧ s.tick.role ≠ 1 ∧ n.frame ≠ s.tick.frame.toNat) ∨ (n.master ≠ s.tick.master ∧ followsOther n s = false) →
      (n.hops = 0 ∨ n.frame ∈ s.tick.forwarded ∨ s.fab.idInForce = 0xFFFF → exec (.tickAnnounce n) s = .next s) ∧
      (n.hops ≠ 0 → n.frame ∉ s.tick.forwarded → s.fab.idInForce ≠ 0xFFFF →
        ∃ t, exec (.tickAnnounce n) s = .next t ∧ t.tick = { s.tick with forwarded := n.frame :: s.tick.forwarded } ∧
          t.out = s.out ++ ((tickStraits s).filter (fun k => k ≠ n.strait)).map (fun k => .announce { n with strait := k, accDelay := announceDelay n s + n.residence, hops := n.hops - 1, arrival := 0, residence := 0 }) ∧
          OnlyTouches [.out, .tick, .fab] s t)) ∧
    (s.tick.joined → n.master ≠ s.tick.master → n.master ≠ s.fab.idInForce → followsOther n s →
      ∃ t, exec (.tickAnnounce n) s = .next t ∧ t.tick.master = n.master ∧ t.tick.masterPrio = some n.prio ∧ t.tick.role = followRole s.fab.idInForce n.succ1 n.succ2 ∧ t.tick.frame = s.tick.frame ∧
        (n.frame ≠ s.tick.frame.toNat → t.tick.adopt = some (n.frame + 1) ∧ t.tick.adjusted = true) ∧ OnlyTouches [.out, .tick, .fab] s t)

/-- Probes, missed ticks and succession (R204, R205, R292). -/
def Obligations.TicksAreProbedAndSucceeded : Prop :=
  ∀ s : State,
    (∀ k ∈ tickStraits s, ∀ t1 t2 t3 t4 : Nat,
      (s.fab.idInForce ≠ 0xFFFF → ∃ t, exec (.tickProbe k t1) s = .next t ∧ t.fab.straits[k].probeT1 = some t1 ∧ t.fab.straits[k].delay = s.fab.straits[k].delay ∧
        t.fab.straits[k].counters = bump s.fab.straits[k].counters 4 1 ∧ (∀ j, j ≠ k → t.fab.straits[j] = s.fab.straits[j]) ∧ t.out = s.out ++ [.probe k] ∧ OnlyTouches [.out, .fab] s t) ∧
      (s.fab.idInForce ≠ 0xFFFF → ∃ t, exec (.probe k t1 t2 t3) s = .next t ∧ t.fab.straits[k].counters = bump s.fab.straits[k].counters 4 1 ∧ t.out = s.out ++ [.probeReply k t1 t2 t3] ∧
        (∀ j, j ≠ k → t.fab.straits[j] = s.fab.straits[j]) ∧ OnlyTouches [.out, .fab] s t) ∧
      (s.fab.idInForce = 0xFFFF → exec (.probe k t1 t2 t3) s = .next s) ∧
      (s.fab.straits[k].probeT1 = some t1 →
        ∃ t, exec (.tickProbeReply k t2 t3 t4) s = .next t ∧
          t.fab.straits[k] = { s.fab.straits[k] with probeT1 := none, delay := BitVec.ofNat 32 (linkDelay t1 t2 t3 t4 s.fab.straits[k].asym.toInt) } ∧
          (∀ j, j ≠ k → t.fab.straits[j] = s.fab.straits[j]) ∧ OnlyTouches [.fab] s t)) ∧
    (s.tick.joined → s.tick.role ≠ 1 → s.tick.heard = [] →
      exec .tickMissed s = .next { s with tick := { s.tick with missed := s.tick.missed + 1, missedRun := s.tick.missedRun + 1, role := 4 } }) ∧
    (∀ c, s.tick.joined → s.tick.role ≠ 1 → s.fab.idInForce ≠ 0xFFFF → (2 ≤ s.tick.missedRun ∧ s.tick.succ1 = s.fab.idInForce) ∨ (4 ≤ s.tick.missedRun ∧ s.tick.succ2 = s.fab.idInForce) →
      ∃ t, exec (.tickSuccession c) s = .next t ∧ t.tick.role = 1 ∧ t.tick.master = s.fab.idInForce ∧ t.tick.frame = s.tick.frame ∧ t.tick.inForce = s.tick.inForce ∧ t.tick.missedRun = 0 ∧
        OnlyTouches [.tick] s t) ∧
    (bootReady s → s.tick.joined = false → s.pow.pwrEn → s.pow.latched = none → s.tick.priority ≠ 0 →
      ∃ t, exec .tickSelfMaster s = .next t ∧ t.tick.joined = true ∧ t.tick.frame = 1 ∧ t.tick.role = 1 ∧ t.tick.inForce = s.tick.period ∧ t.pow.mod = .active) ∧
    (bootReady s → s.tick.joined = false → s.pow.pwrEn → s.pow.latched = none → s.tick.priority = 0 →
      ∃ t, exec .tickSelfMaster s = .next t ∧ t.tick.joined = false ∧ t.tick.role = 5 ∧ t.pow.mod = .active)

/-! ### Memory -/

/-- MAP of pages with the STASH attribute (R246): every page of the request is mapped UNBACKED, every other page stands, and MAP_STATUS is DONE. MAP of one page in T1 (R246, R401): it takes a frame that nothing holds, its region takes a new generation with every counter free, and every other page stands. Readings and choices of the model that it rests on: notes/assumptions/2.md, 8.md, 9.md. -/
def Obligations.MapsTakeFramesOrStayUnbacked : Prop :=
  (∀ (s : State) (q : Req) (p : PartId) (n : Nat), reachable s → served s (0x5040 + p.val) → opOrTenant s q p → s.parts[p].state = .active →
    (perPart s q p).mapAttr = 1 → (perPart s q p).mapPages.toNat = n → 1 ≤ n → (perPart s q p).mapVa.toNat % 2 ^ 21 = 0 → (perPart s q p).mapVa.toNat + n * 2 ^ 21 ≤ 2 ^ 56 →
    (∀ g, (perPart s q p).mapVa.toNat / 2 ^ 21 ≤ g → g < (perPart s q p).mapVa.toNat / 2 ^ 21 + n → alGet g s.mem.pages[p] = none) →
    ∃ t, exec (.map q p) s = .next t ∧
      (∀ g, alGet g t.mem.pages[p] = if (perPart s q p).mapVa.toNat / 2 ^ 21 ≤ g ∧ g < (perPart s q p).mapVa.toNat / 2 ^ 21 + n then
        some { loc := .unbacked, stash := true, param := false, pin := false } else alGet g s.mem.pages[p]) ∧
      (∀ p', p' ≠ p → t.mem.pages[p'] = s.mem.pages[p']) ∧ (perPart t q p).mapStatus = 0 ∧ Responds q .done [] s t ∧ OnlyTouches [.mem, .free, .out, .dict] s t) ∧
  (∀ (s : State) (q : Req) (p : PartId) (g : Nat), g < 2 ^ 35 → reachable s → served s (0x5040 + p.val) → opOrTenant s q p → s.parts[p].state = .active → s.parts[p].overQuota = false →
    (perPart s q p).mapAttr = 8 → (perPart s q p).mapPages = 1 → (perPart s q p).mapVa.toNat = g * 2 ^ 21 → alGet g s.mem.pages[p] = none →
    t1Use s.mem p < quotaPages s.parts[p].force.t1 → (∃ st, st < 24 ∧ freeFrames s.mem (privBytes s) st ≠ []) → (∃ st, st < 24 ∧ freeSlots s.mem st ≠ []) →
    ∃ t f, exec (.map q p) s = .next t ∧ alGet g t.mem.pages[p] = some { loc := .t1 f, stash := false, param := false, pin := false } ∧ .t1 f ∉ heldLocs s.mem ∧
      (t.vm.region p g).gen = (s.vm.region p g).gen + 1 ∧ (t.vm.region p g).watermark = 8192 ∧ (t.vm.region p g).rekeying = false ∧ (t.vm.region p g).epoch = s.parts[p].epoch ∧
      (∀ h, h ≠ g → alGet h t.mem.pages[p] = alGet h s.mem.pages[p]) ∧ (∀ p', p' ≠ p → t.mem.pages[p'] = s.mem.pages[p']) ∧ Responds q .done [] s t ∧
      OnlyTouches [.mem, .free, .out, .dict] s t)

/-- UNMAP and DISCARD of mapped pages are noted for step 4, and SET_ATTR sets PIN and PARAM of every page of the request that is no STASH page (R246). A request that names a page wrongly is DENIED whole (R246): a misaligned address, no page, a range past 2^56; for UNMAP a page that is not mapped, for DISCARD a page that is no STASH page. Readings and choices of the model that it rests on: notes/assumptions/8.md. -/
def Obligations.ReleasesWaitAndMisformedMappingsAreDenied : Prop :=
  (∀ (s : State) (q : Req) (p : PartId) (l : List Nat), reachable s → served s (0x5040 + p.val) → opOrTenant s q p → s.parts[p].state = .active →
    mapPages (perPart s q p).mapVa (perPart s q p).mapPages.toNat = some l →
    ((∀ g ∈ l, (alGet g s.mem.pages[p]).isSome) →
      ∃ t, exec (.unmap q p) s = .next t ∧ t.parts[p] = { s.parts[p] with releases := s.parts[p].releases ++ l.map (fun g => (g, false)) } ∧ (∀ p', p' ≠ p → t.parts[p'] = s.parts[p']) ∧
        Responds q .done [] s t ∧ OnlyTouches [.parts, .out, .dict] s t) ∧
    ((∀ g ∈ l, ∃ x, alGet g s.mem.pages[p] = some x ∧ x.stash) →
      ∃ t, exec (.discard q p) s = .next t ∧ t.parts[p] = { s.parts[p] with releases := s.parts[p].releases ++ l.map (fun g => (g, true)) } ∧ (∀ p', p' ≠ p → t.parts[p'] = s.parts[p']) ∧
        Responds q .done [] s t ∧ OnlyTouches [.parts, .out, .dict] s t) ∧
    (∀ a, (perPart s q p).mapAttr.toNat = a → a < 24 → paramBarred s.parts[p] s.keys p (attrParam a) = false →
      (∀ g ∈ l, ∃ x, alGet g s.mem.pages[p] = some x ∧ x.stash = false) →
      ∃ t, exec (.setAttr q p) s = .next t ∧
        (∀ g, alGet g t.mem.pages[p] = (alGet g s.mem.pages[p]).map (fun x => if g ∈ l then { x with pin := attrPin a, param := attrParam a } else x)) ∧
        (∀ p', p' ≠ p → t.mem.pages[p'] = s.mem.pages[p']) ∧ Responds q .done [] s t ∧ OnlyTouches [.mem, .out, .dict] s t)) ∧
  (∀ (s : State) (q : Req) (p : PartId), reachable s → served s (0x5040 + p.val) → opOrTenant s q p →
    ((perPart s q p).mapVa.toNat % 2 ^ 21 ≠ 0 ∨ (perPart s q p).mapPages = 0 ∨ 2 ^ 56 < (perPart s q p).mapVa.toNat + (perPart s q p).mapPages.toNat * 2 ^ 21 →
      ∀ c ∈ [Instr.map q p, .unmap q p, .setAttr q p, .discard q p],
        ∃ t, exec c s = .next t ∧ (perPart t q p).mapStatus = 0x60 ∧ Responds q .denied [] s t ∧ OnlyTouches [.out, .dict] s t) ∧
    (∀ l g, mapPages (perPart s q p).mapVa (perPart s q p).mapPages.toNat = some l → g ∈ l → alGet g s.mem.pages[p] = none →
      ∀ c ∈ [Instr.unmap q p, .setAttr q p, .discard q p], ∃ t, exec c s = .next t ∧ (perPart t q p).mapStatus = 0x60 ∧ Responds q .denied [] s t ∧ OnlyTouches [.out, .dict] s t))

/-- A whole sector written to a page in T1 reads back as written (R402, R403): its counter moves on by one, and every other sector and counter of T1 stands. Part of a sector written to a page in T1 leaves the sector's other bytes as they read before (R404). Readings and choices of the model that it rests on: notes/assumptions/28.md. -/
def Obligations.WrittenSectorsReadBack : Prop :=
  (∀ (s : State) (p : PartId) (va : BitVec 56) (x : Sector) (l : Leaf) (f : Nat) (base : Bytes), memUp s → va.toNat % 256 = 0 → s.vm.leaf p va.toNat = some l → l.loc = .t1 f →
    s.vm.migrating p (pageOf va.toNat) = false → (s.vm.region p (pageOf va.toNat)).rekeying = false →
    s.vm.baseKey p l (s.vm.region p (pageOf va.toNat)).epoch.toNat = some base →
    s.vm.absent p va.toNat l = false → nextCtr s.mem (s.vm.region p (pageOf va.toNat)) (sectorOf va.toNat) < 0xF000 →
    ∃ t u, exec (.sectorWrite p va x) s = .next t ∧ exec (.sectorRead p va (.asStored 0)) t = .next u ∧ u.out = s.out ++ [.sectorData p va.toNat (some x) .done] ∧
      ctrOf t.mem (t.vm.region p (pageOf va.toNat)) (sectorOf va.toNat) = nextCtr s.mem (s.vm.region p (pageOf va.toNat)) (sectorOf va.toNat) ∧
      (∀ k, k ≠ f * 8192 + sectorOf va.toNat → alGet k t.mem.t1 = alGet k s.mem.t1) ∧
      (∀ k, k ≠ ctrKey (s.vm.region p (pageOf va.toNat)) (sectorOf va.toNat) → alGet k t.mem.ctrs = alGet k s.mem.ctrs) ∧ OnlyTouches [.mem, .free] s t) ∧
  (∀ (s : State) (p : PartId) (va : BitVec 56) (b : Bytes) (l : Leaf) (f : Nat) (old : Sector), memUp s → 1 ≤ b.length → va.toNat % 256 + b.length ≤ 256 → s.vm.leaf p va.toNat = some l →
    l.loc = .t1 f → s.vm.migrating p (pageOf va.toNat) = false → (s.vm.region p (pageOf va.toNat)).rekeying = false →
    (s.vm.readSector p (va.toNat / 256 * 256) (.asStored 0) false).2 = .data old →
    s.vm.absent p va.toNat l = false → nextCtr s.mem (s.vm.region p (pageOf va.toNat)) (sectorOf va.toNat) < 0xF000 →
    ∃ t, exec (.sectorPartialWrite p va b (.asStored 0)) s = .next t ∧ (t.vm.readSector p (va.toNat / 256 * 256) (.asStored 0) false).2 = .data (mergeSector old (va.toNat % 256) b) ∧
      (∀ k, k ≠ f * 8192 + sectorOf va.toNat → alGet k t.mem.t1 = alGet k s.mem.t1) ∧ OnlyTouches [.mem, .free] s t)

/-- What a read of partition memory answers where no data are stored (R243, R394, R402, R410): a page that is not mapped ends QUOTA; an UNBACKED page and a free counter read as zero; a poisoned counter ends POISON_IN, or UNCORRECTABLE where the stack or home that holds the sector has failed. Readings and choices of the model that it rests on: notes/assumptions/28.md. -/
def Obligations.ReadsWithoutStoredDataAnswerByTheirState : Prop :=
  ∀ (s : State) (p : PartId) (va : BitVec 56), memUp s → va.toNat % 256 = 0 →
    (s.vm.leaf p va.toNat = none → exec (.sectorRead p va (.asStored 0)) s = .next (s.emit [.sectorData p va.toNat none .quota])) ∧
    (∀ l, s.vm.leaf p va.toNat = some l → s.vm.place p va.toNat l = .unbacked → l.loc = .unbacked →
      exec (.sectorRead p va (.asStored 0)) s = .next (s.emit [.sectorData p va.toNat (some 0) .done])) ∧
    (∀ l base, s.vm.leaf p va.toNat = some l → l.loc ≠ .unbacked → s.vm.baseKey p l (genOf (s.vm.region p (pageOf va.toNat)) (sectorOf va.toNat)).2 = some base →
      (ctrOf s.mem (s.vm.region p (pageOf va.toNat)) (sectorOf va.toNat) = 0 →
        ∃ t, exec (.sectorRead p va (.asStored 0)) s = .next t ∧ t.out = s.out ++ [.sectorData p va.toNat (some 0) .done] ∧ OnlyTouches [.out, .mem, .free] s t) ∧
      (ctrOf s.mem (s.vm.region p (pageOf va.toNat)) (sectorOf va.toNat) = 0xFFFF →
        ∃ t, exec (.sectorRead p va (.asStored 0)) s = .next t ∧ t.out = s.out ++ [.sectorData p va.toNat none (if s.vm.absent p va.toNat l then .uncorrectable else .poisonIn)] ∧ OnlyTouches [.out, .mem, .free] s t))

/-- Re-encryption of a region (R406 to R408): a sector without data only moves the watermark; a sector with data stays what it was, with counter 1 under the new key; the region becomes STEADY; the rotation ends and the old keys are destroyed. -/
def Obligations.ReencryptionKeepsTheData : Prop :=
  ∀ (s : State) (p : PartId) (g : Nat), s.pow.mod = .active →
    (∀ d, mayRekey s.vm p g → ctrOf s.mem (s.vm.region p g) (s.vm.region p g).watermark ∈ [0, 0xFFFF] →
      ∃ t, exec (.rekeySector p g d) s = .next t ∧ t.vm.region p g = { s.vm.region p g with watermark := (s.vm.region p g).watermark + 1 } ∧ (∀ h, h ≠ g → t.vm.region p h = s.vm.region p h) ∧
        t.mem.t1 = s.mem.t1 ∧ t.mem.ctrs = s.mem.ctrs ∧ OnlyTouches [.mem] s t) ∧
    (∀ l f x base, mayRekey s.vm p g → g < 2 ^ 35 → alGet g s.mem.pages[p] = some l → l.loc = .t1 f → s.vm.migrating p g = false →
      ctrOf s.mem (s.vm.region p g) (s.vm.region p g).watermark ∉ [0, 0xFFFF] →
      (s.vm.readSector p (g * 2 ^ 21 + 256 * (s.vm.region p g).watermark) (.asStored 0) false).2 = .data x → s.vm.baseKey p l (s.vm.region p g).epoch.toNat = some base →
      ∃ t, exec (.rekeySector p g (.asStored 0)) s = .next t ∧ (t.vm.region p g).watermark = (s.vm.region p g).watermark + 1 ∧
        ctrOf t.mem (t.vm.region p g) (s.vm.region p g).watermark = 1 ∧
        (t.vm.readSector p (g * 2 ^ 21 + 256 * (s.vm.region p g).watermark) (.asStored 0) false).2 = .data x ∧ OnlyTouches [.mem, .free] s t) ∧
    (maySteady s.vm p g → s.parts[p].rotating = false → (s.vm.region p g).peak < 0xF000 → (s.vm.region p g).lossDue = false →
      ∃ t, exec (.regionSteady p g) s = .next t ∧ t.vm.region p g = { s.vm.region p g with rekeying := false, watermark := 8192 } ∧ (∀ h, h ≠ g → t.vm.region p h = s.vm.region p h) ∧
        OnlyTouches [.mem] s t) ∧
    (s.parts[p].rotating → rotationLeft s.vm p = 0 →
      ∃ t, exec (.rotationComplete p) s = .next t ∧ t.parts[p] = { s.parts[p] with rotating := false } ∧ (∀ p', p' ≠ p → t.parts[p'] = s.parts[p']) ∧
        (∀ k ∈ t.keys.slots, k.2.owner = p.val → k.2.purpose = 1 ∨ k.2.purpose = 2 → k.2.epoch = s.parts[p].epoch.toNat) ∧
        (∀ k ∈ s.keys.slots, k.2.owner ≠ p.val ∨ (k.2.purpose ≠ 1 ∧ k.2.purpose ≠ 2) ∨ k.2.epoch = s.parts[p].epoch.toNat → k ∈ t.keys.slots) ∧ OnlyTouches [.parts, .keys] s t)

/-- Movement (R232, R251): a page copy takes each sector as it is stored and moves the leaf after the last; a granule that has been moved no longer waits, and the window's bytes stand. Readings and choices of the model that it rests on: notes/assumptions/31.md. -/
def Obligations.MovementKeepsTheBytes : Prop :=
  ∀ (s : State) (p : PartId),
    (∀ g l q a b, s.pow.mod = .active → s.mem.migrations.find? (fun m => m.part = p && m.page = g) = some q → alGet g s.mem.pages[p] = some l → l.loc = .t1 a → q.dst = .t1 b →
      exchangePartner s.mem q l = none → q.watermark < 8191 → ctrOf s.mem (s.vm.region p g) q.watermark ≠ 0 →
      ∃ t, exec (.migrationSectorCopy p g) s = .next t ∧ storedAt t.mem (.t1 b) q.watermark = storedAt s.mem (.t1 a) q.watermark ∧
        t.mem.migrations.find? (fun m => m.part = p && m.page = g) = some { q with watermark := q.watermark + 1 } ∧ t.mem.pages = s.mem.pages ∧ t.mem.ctrs = s.mem.ctrs ∧
        (∀ k, k ≠ b * 8192 + q.watermark → alGet k t.mem.t1 = alGet k s.mem.t1) ∧ OnlyTouches [.mem] s t) ∧
    (∀ g l q a b, s.pow.mod = .active → s.mem.migrations.find? (fun m => m.part = p && m.page = g) = some q → alGet g s.mem.pages[p] = some l → l.loc = .t1 a → q.dst = .t1 b →
      exchangePartner s.mem q l = none → q.watermark = 8191 →
      ∃ t, exec (.migrationSectorCopy p g) s = .next t ∧ alGet g t.mem.pages[p] = some { l with loc := .t1 b, migrating := false } ∧ t.vm.migrating p g = false ∧
        (∀ h, h ≠ g → alGet h t.mem.pages[p] = alGet h s.mem.pages[p])) ∧
    (∀ n, (p, n) ∈ s.mem.moves →
      exec (.windowGranuleMove p n) s = .next { s with mem := { s.mem with moves := s.mem.moves.erase (p, n) } })

/-- Gathering (R258, R261): fetches start in queue order, and a sector that a fetch has read lands in its bank of the window, every other byte of every window as before. -/
def Obligations.GatheringFetchesFillTheirBank : Prop :=
  (∀ s : State, memUp s → (∃ f ∈ s.mem.fetches, f.started = false) →
    ∃ t a f b, exec .gatheringFetchStart s = .next t ∧ s.mem.fetches = a ++ f :: b ∧ (∀ x ∈ a, x.started) ∧ f.started = false ∧
      t.mem.fetches = a ++ { f with started := true } :: b ∧ t = { s with mem := { s.mem with fetches := t.mem.fetches } }) ∧
  (∀ (s : State) (p : PartId) (e b : Nat) (d : Delivered) (f : Fetch) (g : Gathering) (x : Sector), memUp s → fetchAt s p e b = some f → getGather s.vm p e = some g → g.session = 0xFF →
    (s.vm.readSector p (fetchVa g f) (.asStored 0) true).2 = .data x →
    ∃ t, exec (.fetchSector p e b (.asStored 0) d) s = .next t ∧ cellsRead t.mem.window[p] (g.winOff + b * bankBytes g + 256 * f.pos) 256 = sectorBytes x ∧
      (∀ a, a < g.winOff + b * bankBytes g + 256 * f.pos ∨ g.winOff + b * bankBytes g + 256 * f.pos + 256 ≤ a → cellRead t.mem.window[p] a = cellRead s.mem.window[p] a) ∧
      (∀ p', p' ≠ p → t.mem.window[p'] = s.mem.window[p']))

/-! ### Partitions and keys -/

/-- The life of a partition (R427, R450 to R455): CREATE waits for the next tick; REMOVE revokes its keys, flows, rings and tenants at once; at completion nothing of it is left. Readings and choices of the model that it rests on: notes/assumptions/8.md, 83.md. -/
def Obligations.PartitionsAreCreatedAndRemoved : Prop :=
  ∀ (s : State) (p : PartId),
    (∀ q, reachable s → served s (0x3000 + p.val) → isOperator s q → tenantKeysOn s → s.parts[p].state = .free → bitmapFits s p s.parts[p].written.bitmap →
      t1Fits s p s.parts[p].written.t1.toNat →
      ∃ t, exec (.create q p) s = .next t ∧ t.parts[p] = { s.parts[p] with createPending := true, opStatus := 0 } ∧ (∀ p', p' ≠ p → t.parts[p'] = s.parts[p']) ∧
        Responds q .done [] s t ∧ OnlyTouches [.parts, .out, .dict] s t) ∧
    (∀ q, reachable s → served s (0x3000 + p.val) → isOperator s q → s.parts[p].state ≠ .free →
      ∃ t, exec (.create q p) s = .next t ∧ t.parts[p] = { s.parts[p] with opStatus := 0x60 } ∧ (∀ p', p' ≠ p → t.parts[p'] = s.parts[p']) ∧ Responds q .denied [] s t ∧
        OnlyTouches [.parts, .out, .dict] s t) ∧
    (∀ q, reachable s → served s (0x3000 + p.val) → opOrTenant s q p → s.parts[p].state = .created ∨ s.parts[p].state = .active →
      ∃ t, exec (.remove q p) s = .next t ∧ t.parts[p].state = .removing ∧ (∀ k ∈ t.keys.slots, k.2.owner = p.val → k.2.revoked) ∧
        (∀ x ∈ t.fab.flows, x.2.owner = p.val → x.2.state = .revoked) ∧ (∀ r : RingId, t.rings[p][r].enable = false) ∧
        (∀ x ∈ t.dict.sessions, x.role = .tenant → x.part = some p → x.revoked)) ∧
    (∀ r, s.tick.joined → s.parts[p].state = .removing → s.parts[p].removal = some r → accessesDone s p →
      ∃ t, exec (.removalComplete p) s = .next t ∧ t.parts[p].state = .free ∧ t.parts[p].gen = s.parts[p].gen ∧ (∀ k ∈ t.keys.slots, k.2.owner ≠ p.val) ∧
        (∀ x ∈ t.fab.flows, x.2.owner ≠ p.val) ∧ t.mem.pages[p] = [] ∧ t.mem.window[p] = [] ∧ (∀ g : RingId, t.rings[p][g] = {}) ∧
        (∀ p', p' ≠ p → t.parts[p'].state = s.parts[p'].state))

/-- KEY_IMPORT of a blob in form, with a nonce not yet used and room for two keys (R438 to R442): where decapsulation and the tag check pass, the secret stands in a slot of the partition and the partition changes as its OP says; otherwise the request is DENIED and only the nonce is used up. Readings and choices of the model that it rests on: notes/assumptions/14.md. -/
def Obligations.TenantKeysAreImported : Prop :=
  ∀ (s : State) (q : Req) (b : Bytes) (p : PartId), reachable s → served s 0x8002 → tenantOf s q p → importForm b → (importBlob b).part = p.val → tenantKeysOn s →
    ((importBlob b).nonce, false) ∈ s.keys.nonces → roomFor s p 2 →
    ((importBlob b).op = 1 → s.parts[p].state = .created →
      ∃ t, exec (.partitionKey q b) s = .next t ∧ ((importBlob b).nonce, false) ∉ t.keys.nonces ∧
        match importSecret b with
        | some x => t.parts[p].state = .active ∧ t.parts[p].epoch = 0 ∧ t.parts[p].keyId = keyIdOf x p.val ∧ t.parts[p].opStatus = 0 ∧
            ∃ i k, alGet i t.keys.slots = some k ∧ k.owner = p.val ∧ k.purpose = 1 ∧ k.epoch = 0 ∧ k.value = x
        | none => t.parts[p] = { s.parts[p] with opStatus := 0x60 } ∧ t.keys.slots = s.keys.slots) ∧
    ((importBlob b).op = 2 → s.parts[p].state = .active → s.parts[p].rotating = false → isTenant s q p →
      ∃ t, exec (.rotate q b) s = .next t ∧ ((importBlob b).nonce, false) ∉ t.keys.nonces ∧
        match importSecret b with
        | some x => t.parts[p].rotating = true ∧ t.parts[p].epoch = s.parts[p].epoch + 1 ∧ t.parts[p].keyId = keyIdOf x p.val ∧ t.parts[p].opStatus = 0 ∧
            ∃ i k, alGet i t.keys.slots = some k ∧ k.owner = p.val ∧ k.purpose = 1 ∧ k.epoch = (s.parts[p].epoch + 1).toNat ∧ k.value = x
        | none => t.parts[p] = { s.parts[p] with opStatus := 0x60 } ∧ t.keys.slots = s.keys.slots) ∧
    ((importBlob b).op = 3 → s.parts[p].state = .active → s.parts[p].cls = 2 → isTenant s q p → (∀ k ∈ s.keys.slots, k.2.owner = p.val → k.2.purpose ≠ 3) →
      ∃ t, exec (.jointKey q b) s = .next t ∧ ((importBlob b).nonce, false) ∉ t.keys.nonces ∧
        match importSecret b with
        | some x => t.parts[p].jointSession = BitVec.ofNat 8 (importBlob b).session ∧ t.parts[p].jointKeyId = keyIdOf x p.val ∧ t.parts[p].opStatus = 0 ∧
            ∃ i k, alGet i t.keys.slots = some k ∧ k.owner = p.val ∧ k.purpose = 3 ∧ k.value = x
        | none => t.parts[p] = { s.parts[p] with opStatus := 0x60 } ∧ t.keys.slots = s.keys.slots)

/-! ### Straits, packets and flows -/

/-- Training of a strait (R275, R277, R278): it ends in HANDSHAKE with 8 data lanes, or fails; 64 failures in a row make it FAILED, which only TRAIN leaves; a back-off or TRAIN begins it again; every other strait stands. Readings and choices of the model that it rests on: notes/assumptions/8.md, 13.md, 33.md. -/
def Obligations.StraitTrainingFollowsItsStates : Prop :=
  ∀ (s : State) (k : StraitId),
    (hubUp s → s.fab.straits[k].link = .training → (permLanes s k).length ≤ 1 →
      ∃ t, exec (.straitTrainDone k (.lanes 8)) s = .next t ∧ t.fab.straits[k].link = .handshake ∧ t.fab.straits[k].width = 8 ∧ t.fab.straits[k].trainFails = s.fab.straits[k].trainFails ∧
        t.fab.straits[k].txIndex = 0 ∧ t.fab.straits[k].rxIndex = 0 ∧ (∀ j, j ≠ k → t.fab.straits[j] = s.fab.straits[j]) ∧ OnlyTouches [.out, .free, .fab] s t) ∧
    (hubUp s → s.fab.straits[k].link = .training →
      ∃ t, exec (.straitTrainDone k .failed) s = .next t ∧ t.fab.straits[k].trainFails = s.fab.straits[k].trainFails + 1 ∧ t.fab.straits[k].width = 0 ∧
        t.fab.straits[k].link = (if s.fab.straits[k].trainFails < 63 then .detect else .failed) ∧ (∀ j, j ≠ k → t.fab.straits[j] = s.fab.straits[j]) ∧ OnlyTouches [.fab] s t) ∧
    (hubUp s → s.fab.straits[k].link = .detect → s.fab.straits[k].mode = 1 → s.fab.straits[k].counters[3] ≠ 0 →
      ∃ t, exec (.straitRetrainTimer k) s = .next t ∧ t.fab.straits[k] = { s.fab.straits[k] with link := .training, width := 0, counters := bump s.fab.straits[k].counters 3 1 } ∧
        (∀ j, j ≠ k → t.fab.straits[j] = s.fab.straits[j]) ∧ OnlyTouches [.fab] s t) ∧
    (hubUp s → s.fab.straits[k].link = .detect → s.fab.straits[k].mode = 1 →
      ∃ t, exec (.signalDetect k) s = .next t ∧ t.fab.straits[k] = { s.fab.straits[k] with link := .training, width := 0, counters := bump s.fab.straits[k].counters 3 1 } ∧
        (∀ j, j ≠ k → t.fab.straits[j] = s.fab.straits[j]) ∧ OnlyTouches [.fab] s t) ∧
    (∀ q : Req, reachable s → hubUp s → isOperator s q → served s (0x6000 + k.val) → s.fab.straits[k].mode = 1 →
      ∃ t, exec (.train q k 1) s = .next t ∧ t.fab.straits[k] = { s.fab.straits[k] with trainFails := 0, link := .training, width := 0, counters := bump s.fab.straits[k].counters 3 1 } ∧
        (∀ j, j ≠ k → t.fab.straits[j] = s.fab.straits[j]) ∧ Responds q .done [] s t ∧ OnlyTouches [.fab, .out, .dict] s t) ∧
    (∀ (q : Req) (v : Byte), reachable s → isOperator s q → served s (0x6000 + k.val) → v = 0 ∨ (v = 2 ∧ 16 ≤ k.val ∧ isFerry s ∧ hubUp s) → v ≠ s.fab.straits[k].mode → s.fab.straits[k].link ≠ .failed → !q.flashFails →
      ∃ t, exec (.straitModeWrite q k v) s = .next t ∧ t.fab.straits[k].mode = v ∧ t.fab.straits[k].width = 0 ∧ t.fab.straits[k].ide = false ∧
        t.fab.straits[k].link = (if v = 0 then .off else .detect) ∧ (∀ j, j ≠ k → t.fab.straits[j] = s.fab.straits[j]) ∧ Responds q .done [] s t ∧ OnlyTouches [.fab, .out, .dict] s t) ∧
    (∀ (q : Req) (v : Byte), reachable s → isOperator s q → served s (0x6000 + k.val) → v.toNat ≤ 1 → v ≠ s.fab.straits[k].mode → s.fab.straits[k].link = .failed → !q.flashFails →
      ∃ t, exec (.straitModeWrite q k v) s = .next t ∧ t.fab.straits[k] = { s.fab.straits[k] with mode := v, ide := false } ∧ (∀ j, j ≠ k → t.fab.straits[j] = s.fab.straits[j]) ∧
        Responds q .done [] s t ∧ OnlyTouches [.fab, .out, .dict] s t) ∧
    (hubUp s → s.fab.straits[k].mode = 2 → 16 ≤ k.val → ∀ w ∈ [1, 2, 4, 8],
      ∃ t, exec (.pcieTraining k true w) s = .next t ∧ t.fab.straits[k] = { s.fab.straits[k] with link := .host, width := BitVec.ofNat 8 w, ide := false } ∧
        (∀ j, j ≠ k → t.fab.straits[j] = s.fab.straits[j]) ∧ OnlyTouches [.fab] s t)

/-- Flits are taken in order (R271 to R274): one that is expected is accepted, and a DATA flit's slots are counted; any other, or an uncorrectable one, is discarded with one NAK that names the flit before the expected one; a NAK, as a flit or in a DATA flit's place, makes exactly the flits kept after the one it names go out again as they were. Readings and choices of the model that it rests on: notes/assumptions/106.md. -/
def Obligations.FlitsAreTakenInOrder : Prop :=
  ∀ (s : State) (k : StraitId), flitsFlow s k →
    (∀ f : Flit, f.correctable → f.fseq.toNat = s.fab.straits[k].rxIndex % 4096 → f.kind ≠ 2 ∨ f.reserved ≠ 0 →
      ∃ t, exec (.flitReceive k f) s = .next t ∧ t.fab.straits[k].rxIndex = s.fab.straits[k].rxIndex + 1 ∧ t.fab.straits[k].nakSent = false ∧
        (f.kind = 0 → f.reserved = 0 → t.fab.straits[k].counters[5] = s.fab.straits[k].counters[5] + BitVec.ofNat 64 ((f.slots.map (·.2)).foldl (· + ·) 0)) ∧
        (∀ j, j ≠ k → t.fab.straits[j] = s.fab.straits[j]) ∧ OnlyTouches [.out, .fab] s t) ∧
    (∀ f : Flit, f.correctable = false ∨ f.fseq.toNat ≠ s.fab.straits[k].rxIndex % 4096 →
      ∃ t, exec (.flitReceive k f) s = .next t ∧ t.fab.straits[k].rxIndex = s.fab.straits[k].rxIndex ∧ t.fab.straits[k].nakSent = true ∧
        t.out = s.out ++ (if s.fab.straits[k].nakSent then [] else [.nak k ((s.fab.straits[k].rxIndex + 4095) % 4096)]) ∧
        (∀ j, j ≠ k → t.fab.straits[j] = s.fab.straits[j]) ∧ OnlyTouches [.out, .fab] s t) ∧
    (∀ f : Flit, f.correctable → f.fseq.toNat = s.fab.straits[k].rxIndex % 4096 → f.kind = 2 → f.reserved = 0 →
      ∃ t, exec (.flitReceive k f) s = .next t ∧ t.fab.straits[k].rxIndex = s.fab.straits[k].rxIndex + 1 ∧ t.out = s.out ++ [.flitsResent k t.fab.straits[k].replay] ∧
        t.fab.straits[k].replay <:+ s.fab.straits[k].replay ∧ (∀ j, j ≠ k → t.fab.straits[j] = s.fab.straits[j]) ∧ OnlyTouches [.out, .fab] s t) ∧
    (∀ ack : BitVec 12,
      ∃ t, exec (.nakReceive k ack) s = .next t ∧ t.out = s.out ++ [.flitsResent k t.fab.straits[k].replay] ∧ t.fab.straits[k].replay <:+ s.fab.straits[k].replay ∧
        t.fab.straits[k].counters = bump s.fab.straits[k].counters 2 t.fab.straits[k].replay.length ∧ t.fab.straits[k].txIndex = s.fab.straits[k].txIndex ∧
        (∀ m, m % 4096 = ack.toNat → s.fab.straits[k].oldest ≤ m + 1 → m + 1 - s.fab.straits[k].oldest ≤ s.fab.straits[k].replay.length → s.fab.straits[k].replay.length ≤ 2048 →
          t.fab.straits[k].replay = s.fab.straits[k].replay.drop (m + 1 - s.fab.straits[k].oldest)) ∧
        (∀ j, j ≠ k → t.fab.straits[j] = s.fab.straits[j]) ∧ OnlyTouches [.out, .fab] s t)

/-- Faults of a strait's lanes and link (R276 to R278), and the switch of its hop key at an agreed flit (R309): a swap waits for its index, and a generation is in force from its index on. Causeways (R294, R295): a unit with a good tag counts and is passed on where its path goes on, one with a bad tag is resent as it is kept for replay; sixteen failed resends in a row mark the causeway failed. Readings and choices of the model that it rests on: notes/assumptions/12.md, 87.md, 108.md, 117.md. -/
def Obligations.LaneLinkAndCausewayFaultsAreHandled : Prop :=
  (∀ (s : State) (k : StraitId), flowing s k →
    (∀ (lane : Fin 9) (n : Nat), s.fab.straits[k].spare = 0xFF → s.fab.straits[k].swap = none → s.fab.straits[k].width = 8 → lane.val ≠ 8 →
      ∃ t, exec (.laneSwap k lane n) s = .next t ∧ t.out = s.out ++ [.laneSwap k lane n] ∧ lane ∈ t.fab.straits[k].badLanes ∧
        (if n ≤ s.fab.straits[k].txIndex then t.fab.straits[k].spare = BitVec.ofNat 8 lane.val ∧ t.fab.straits[k].swap = none
         else t.fab.straits[k].spare = 0xFF ∧ t.fab.straits[k].swap = some (lane, n)) ∧
        t.fab.straits[k].link = s.fab.straits[k].link ∧ t.fab.straits[k].width = 8 ∧ (∀ j, j ≠ k → t.fab.straits[j] = s.fab.straits[j]) ∧ OnlyTouches [.out, .fab, .ras] s t) ∧
    (∀ (x : Strait) (lane : Fin 9) (n vc slots : Nat) (key : Nat → Bytes) (b : Bytes), x.swap = some (lane, n) →
      (Strait.sent key vc slots b x).spare = (if n ≤ x.txIndex then BitVec.ofNat 8 lane.val else x.spare) ∧
      ((Strait.sent key vc slots b x).replay.getLast?).map (·.spare) = some (if n ≤ x.txIndex then BitVec.ofNat 8 lane.val else x.spare)) ∧
    (∀ lane : Fin 9, s.fab.straits[k].spare ≠ 0xFF ∨ s.fab.straits[k].swap.isSome → lane ∉ s.fab.straits[k].badLanes →
      ∃ t, exec (.laneRetrainNarrow k lane) s = .next t ∧ lane ∈ t.fab.straits[k].badLanes ∧ t.fab.straits[k].width = 0 ∧
        t.fab.straits[k].link = (if 9 - (faultyLanes t k).length < 4 then .detect else .training) ∧ (∀ j, j ≠ k → t.fab.straits[j] = s.fab.straits[j]) ∧
        OnlyTouches [.fab, .ras] s t) ∧
    (∀ c : DownCause, c ≠ .replayFailed ∨ 8 ≤ s.fab.straits[k].replayFails →
      ∃ t, exec (.straitDown k c) s = .next t ∧ t.fab.straits[k].link = .detect ∧ t.fab.straits[k].width = 0 ∧ t.fab.straits[k].replay = [] ∧
        (∀ c : Fin 5, t.fab.straits[k].queue[c] = []) ∧ alGet k.val t.fab.flows = none ∧ (∀ j, j ≠ k → t.fab.straits[j] = s.fab.straits[j]) ∧ OnlyTouches [.fab] s t) ∧
    (∀ (tx : Bool) n i old, flitsFlow s k → findKey s.keys 0x40 0x16 (hopTag k.val (!tx)) = some (i, old) →
      let g := (if tx then s.fab.straits[k].hopGen.1 else s.fab.straits[k].hopGen.2) + 1
      ∃ t, exec (.hopKeyNextGeneration k tx n) s = .next t ∧
        t.fab.straits[k] = { s.fab.straits[k] with
          hopGen := if tx then (g, s.fab.straits[k].hopGen.2) else (s.fab.straits[k].hopGen.1, g),
          hopSwitch := if tx then (some n, s.fab.straits[k].hopSwitch.2) else (s.fab.straits[k].hopSwitch.1, some n) } ∧
        (tx → ∀ m, t.fab.straits[k].genAt m = (if m < n then s.fab.straits[k].hopGen.1 else g)) ∧
        (alGet i t.keys.slots).map (·.value) = some (nextGenKey old.value g) ∧
        ((∃ m, m < 256 ∧ alGet m s.keys.slots = none) →
          ∃ j y, alGet j t.keys.slots = some y ∧ y.owner = 0x40 ∧ y.purpose = 0x16 ∧ y.tag = prevHopTag k.val (!tx) ∧ y.value = old.value) ∧
        (∀ x ∈ s.keys.slots, x.1 ≠ i → x.2.tag ≠ prevHopTag k.val (!tx) ∨ x.2.purpose ≠ 0x16 ∨ x.2.owner ≠ 0x40 → x ∈ t.keys.slots) ∧
        (∀ j, j ≠ k → t.fab.straits[j] = s.fab.straits[j]) ∧ OnlyTouches [.free, .fab, .keys] s t)) ∧
  (∀ (s : State) (c : Fin 8), cswUp s c →
    (∀ (a b : DieId) (unit : Bytes) (path : List (Fin 8)) (detour : Bool), cswPath s a b = some (path, detour) → c ∈ path → unit.length = 256 →
      (∃ t, exec (.causewayUnitReceive c a b ⟨unit, true⟩) s = .next t ∧ t.fab.causeways[c].resendRun = 0 ∧ (∀ d, d ≠ c → d ∉ path → t.fab.causeways[d] = s.fab.causeways[d]) ∧
        (if path.head? = some c ∧ path.length = 2 then
           t.fab.causewayStats = cswStat c (if detour then 3 else 2) 1 (cswStat c 0 1 s.fab.causewayStats) ∧
           ∃ d i u dir, t.out = s.out ++ [.cswUnit d i u] ∧ path = [c, d] ∧ u = sealUnit (cswKey s d dir) i unit ∧ i = bySide dir s.fab.causeways[d].sent ∧
             t.fab.causeways[d] = (s.fab.causeways[d]).keep dir i u ∧ (t.fab.causeways[d]).kept dir i = u
         else t.fab.causewayStats = cswStat c 0 1 s.fab.causewayStats ∧ t.out = s.out) ∧ OnlyTouches [.out, .fab] s t) ∧
      (∃ t dir, exec (.causewayUnitReceive c a b ⟨unit, false⟩) s = .next t ∧ t.fab.causeways[c].resendRun = s.fab.causeways[c].resendRun + 1 ∧
        t.fab.causeways[c].next = s.fab.causeways[c].next ∧ bySide dir s.fab.causeways[c].next < bySide dir t.fab.causeways[c].sent ∧ (bySide dir t.fab.causeways[c].replay).length ≤ max 1024 (bySide dir s.fab.causeways[c].replay).length ∧
        t.fab.causewayStats = cswStat c 1 1 s.fab.causewayStats ∧
        t.out = s.out ++ [.cswResend c (bySide dir s.fab.causeways[c].next) ((t.fab.causeways[c]).kept dir (bySide dir s.fab.causeways[c].next))] ∧ (∀ d, d ≠ c → t.fab.causeways[d] = s.fab.causeways[d]) ∧ OnlyTouches [.out, .fab] s t)) ∧
    (16 ≤ s.fab.causeways[c].resendRun →
      ∃ t, exec (.causewayFail c) s = .next t ∧ t.fab.causeways[c].failed = true ∧ (∀ d, d ≠ c → t.fab.causeways[d] = s.fab.causeways[d]) ∧ OnlyTouches [.fab, .ras, .pow] s t))

/-- Requests of a host on S16 or S17 (R297 to R301): configuration, DOE and SPDM are answered, SPDM sets the stream up; memory accesses before that end Unsupported, and one that fails the stream's check is discarded and counted; the lent range is read and written as it is stored, a granted partition as plaintext; a device without a flow ends in Completer Abort, and a read of another device waits for its home. Readings and choices of the model that it rests on: notes/assumptions/16.md, 18.md, 109.md. -/
def Obligations.HostRequestsAreServed : Prop :=
  ∀ (s : State) (k : StraitId), hostUp s k →
    (exec (.hostConfigRequest k .config) s = .next (s.emit [.hostData k (configSpace s)]) ∧ (configSpace s).take 4 = [0x6C, 0x1F, 0x80, 0x04]) ∧
    exec (.hostConfigRequest k .doe) s = .next (s.emit [.hostData k []]) ∧
    (∃ t, exec (.hostConfigRequest k .spdm) s = .next t ∧ t.fab.straits[k] = { s.fab.straits[k] with ide := true } ∧ (∀ j, j ≠ k → t.fab.straits[j] = s.fab.straits[j]) ∧
      OnlyTouches [.fab, .out] s t) ∧
    (s.fab.straits[k].ide = false →
      exec (.hostConfigRequest k .other) s = .next (s.emit [.hostUnsupported k]) ∧
      (∀ (off len : Nat) (ok : Bool), 1 ≤ len → len ≤ 4096 → exec (.hostRead ⟨k, ok⟩ off len) s = .next (s.emit [.hostUnsupported k])) ∧
      (∀ (off : Nat) (data : Bytes) (ok : Bool), 1 ≤ data.length → data.length ≤ 512 → exec (.hostWrite ⟨k, ok⟩ off data) s = .next (s.emit [.hostUnsupported k]))) ∧
    (s.fab.straits[k].ide → ∀ (off : Nat) (data : Bytes) (len : Nat), 1 ≤ data.length → data.length ≤ 512 → 1 ≤ len → len ≤ 4096 → ∀ c ∈ [Instr.hostRead ⟨k, false⟩ off len, .hostWrite ⟨k, false⟩ off data],
      ∃ t, exec c s = .next t ∧ t.fab.straits[k] = { s.fab.straits[k] with tagFailures := s.fab.straits[k].tagFailures + 1 } ∧ (∀ j, j ≠ k → t.fab.straits[j] = s.fab.straits[j]) ∧ OnlyTouches [.fab] s t) ∧
    (∀ (off len : Nat) (f : AptFields), s.fab.straits[k].ide → aptAt s off len false = some f → f.device = s.fab.idInForce → f.kind = 1 → openPosts s k = [] →
      1 ≤ len → len ≤ 4096 → f.va + off % 2 ^ 21 + len ≤ s.mem.lendBytes.toNat →
      ∃ b, exec (.hostRead ⟨k, true⟩ off len) s = .next (s.emit [.hostData k b]) ∧
        b = (pieces (f.va + off % 2 ^ 21) len).flatMap (fun x => slice (sectorBytes (lentAt s.mem (x.1 / 256)).cipher) (x.1 % 256) x.2)) ∧
    (∀ (off len : Nat) (f : AptFields) (p : PartId) (v : VM) (b : Bytes), s.fab.straits[k].ide → aptAt s off len false = some f → f.device = s.fab.idInForce → f.kind = 2 → f.part = p.val →
      granted s p → openPosts s k = [] → 1 ≤ len → len ≤ 4096 → s.vm.readBytes p (f.va + off % 2 ^ 21) len = (v, some b) →
      exec (.hostRead ⟨k, true⟩ off len) s = .next ((s.putVM v).emit [.hostData k b])) ∧
    (∀ (off len : Nat) (f : AptFields), s.fab.straits[k].ide → aptAt s off len false = some f → f.device ≠ s.fab.idInForce → 1 ≤ len → len ≤ 4096 →
      (findFlow s 0x40 f.device 8 none = none → openPosts s k = [] →
        ∃ t, exec (.hostRead ⟨k, true⟩ off len) s = .next t ∧ t.out.getLast? = some (.hostAbort k) ∧ t.ras.auditCount = s.ras.auditCount + 1 ∧ t.mem = s.mem) ∧
      (∀ fl x, findFlow s 0x40 f.device 8 none = some fl → getFlow s fl = some x → x.state = .opened → s.fab.idInForce ≠ 0xFFFF →
        ∃ t y, exec (.hostRead ⟨k, true⟩ off len) s = .next t ∧ getFlow t fl = some y ∧
          y.txPsn = x.txPsn + ceilDiv ((f.va + off % 2 ^ 21 + len + 255) / 256 - (f.va + off % 2 ^ 21) / 256) 4 ∧
          (∃ w ∈ t.fab.hostWaits, w.strait = k ∧ w.flow = fl ∧ w.len = len ∧ w.failed = false) ∧ OnlyTouches [.out, .free, .fab] s t)) ∧
    (∀ (off : Nat) (data : Bytes) (f : AptFields) (p : PartId) (v : VM) (n : Nat), s.fab.straits[k].ide → aptAt s off data.length true = some f → f.device = s.fab.idInForce → f.kind = 2 →
      f.part = p.val → granted s p → 1 ≤ data.length → data.length ≤ 512 → s.vm.writeBytes p (f.va + off % 2 ^ 21) data true = (v, n, .done) →
      exec (.hostWrite ⟨k, true⟩ off data) s = .next (notePosts k s (s.putWrites v))) ∧
    (∀ (off : Nat) (data : Bytes) (f : AptFields) (p : PartId), s.fab.straits[k].ide → aptAt s off data.length true = some f → f.device = s.fab.idInForce → f.kind = 2 →
      f.part = p.val → granted s p = false → 1 ≤ data.length → data.length ≤ 512 →
      ∃ t, exec (.hostWrite ⟨k, true⟩ off data) s = .next t ∧ t.mem = s.mem)

/-- A home serves its lent range (R236, R262, R289): a MEMRD in order is answered with the sectors as they are stored, or with UNCORRECTABLE where the lender's code finds the line so, and the packet is acknowledged. MEMWR and the sector CAS (R289): a write to the lent range stores its sectors and no other; a CAS replaces the sector only where the stored tag is the one expected, and answers the sector found either way. Readings and choices of the model that it rests on: notes/assumptions/15.md, 35.md. -/
def Obligations.HomesServeTheirLentRange : Prop :=
  (∀ (s : State) (p : Pkt) (g : GAddr) (n : Nat) (tag : Byte) (x : Flow), Arrives s p 1 x → s.pow.mod ≠ .doze → gaddrOk g → 1 ≤ n → n ≤ 4 → g.off.toNat % 256 = 0 → lentHolds s g n →
    let z := x.took p (frameNow s)
    ∀ bad : Bool, ∃ t y, exec (.memrdRequest p (.global g) ⟨n, bad⟩ tag) s = .next t ∧ getFlow t p.flow = some y ∧ y.rxPsn = x.rxPsn + 1 ∧ y.txPsn = x.txPsn + 1 ∧
      y.unacked = z.unacked ++ [if bad then mkPkt s p.flow z 16 1 2 (respCsf .uncorrectable tag) []
        else mkPkt s p.flow z 16 1 1 (respCsf .done tag) (sectorsBytes ((List.range n).map (fun i => lentAt s.mem (g.off.toNat / 256 + i))))] ∧
      t.out.getLast? = some (.ack p.flow p.psn) ∧ (∀ f, f ≠ p.flow → getFlow t f = getFlow s f) ∧ OnlyTouches [.out, .fab] s t) ∧
  (∀ (s : State) (p : Pkt) (g : GAddr) (tag : Byte) (x : Flow), s.pow.mod ≠ .doze → gaddrOk g → g.off.toNat % 256 = 0 →
    (∀ data : List StoredSector, Arrives s p 2 x → 1 ≤ data.length → data.length ≤ 4 → lentHolds s g data.length →
      ∃ t, exec (.memwr p (.global g) tag data) s = .next t ∧ (∀ i < data.length, alGet (g.off.toNat / 256 + i) t.mem.lent = data[i]?) ∧
        (∀ k, k < g.off.toNat / 256 ∨ g.off.toNat / 256 + data.length ≤ k → alGet k t.mem.lent = alGet k s.mem.lent) ∧ getFlow t p.flow = some (x.took p (frameNow s)) ∧
        t.out = (afterTaking p 2 0 (sectorsLen data.length) x s).out ++ [.ack p.flow p.psn] ∧ OnlyTouches [.out, .mem, .fab] s t) ∧
    (∀ (expected : BitVec 64) (new : StoredSector), Arrives s p 3 x → lentHolds s g 1 →
      let z := x.took p (frameNow s)
      ∃ t y, exec (.atomicSectorCas p g tag expected new) s = .next t ∧
        lentAt t.mem (g.off.toNat / 256) = (if (lentAt s.mem (g.off.toNat / 256)).tag = expected then new else lentAt s.mem (g.off.toNat / 256)) ∧
        (∀ k, k ≠ g.off.toNat / 256 → alGet k t.mem.lent = alGet k s.mem.lent) ∧ getFlow t p.flow = some y ∧ y.rxPsn = x.rxPsn + 1 ∧
        y.unacked = z.unacked ++ [mkPkt s p.flow z 16 3 1 (respCsf .done tag) (sectorsBytes [lentAt s.mem (g.off.toNat / 256)])] ∧
        t.out.getLast? = some (.ack p.flow p.psn) ∧ OnlyTouches [.out, .mem, .fab] s t))

/-- What ends a read that waits for its home (R283, R289, R402, R411): the sector sealed under the read's generation is delivered as its plaintext; an error ends it with its status, an uncorrectable line every read that waits on the sector; a result ends the CAS that waits for it; a packet that nothing waits for only takes its place in the order. -/
def Obligations.WaitingReadsEndWithTheirAnswer : Prop :=
  ∀ (s : State) (p : Pkt) (tag : Byte) (x : Flow),
    (∀ w l base d, Arrives s p 1 x → hostWaitOf s p.flow tag = false → waitOf s p.flow tag = some w → s.vm.leaf w.part w.va = some l → (s.vm.region w.part (pageOf w.va)).gen = w.gen →
      s.vm.baseKey w.part l (s.vm.region w.part (pageOf w.va)).epoch.toNat = some base →
      ∃ t, exec (.memrdData p 0 tag [sealSector (kmat base (pageOf w.va) w.gen (s.vm.region w.part (pageOf w.va)).epoch.toNat) (lbnOf w.va) w.ctr d]) s = .next t ∧
        t.out = (afterTaking p 1 1 (sectorsLen 1) x s).out ++ [.sectorData w.part w.va (some d) .done, .ack p.flow p.psn] ∧ t.mem.waits = s.mem.waits.erase w ∧
        getFlow t p.flow = some (x.took p (frameNow s)) ∧ OnlyTouches [.out, .mem, .fab] s t) ∧
    (∀ (w : WaitRead) (st : Byte) (c : Status), Arrives s p 1 x → hostWaitOf s p.flow tag = false → waitOf s p.flow tag = some w → Status.ofCode st.toNat = some c → c ≠ .uncorrectable →
      ∃ t a, exec (.memrdError p st tag) s = .next t ∧ t.out = s.out ++ a ++ [.sectorData w.part w.va none c, .ack p.flow p.psn] ∧ t.mem.waits = s.mem.waits.erase w ∧
        getFlow t p.flow = some (x.took p (frameNow s))) ∧
    (∀ (w : WaitRead) (st : Byte), Arrives s p 1 x → hostWaitOf s p.flow tag = false → waitOf s p.flow tag = some w → Status.ofCode st.toNat = some .uncorrectable →
      ∃ t, exec (.memrdError p st tag) s = .next t ∧ (∀ y ∈ t.mem.waits, y ∈ s.mem.waits ∧ (y.part ≠ w.part ∨ y.va / 256 ≠ w.va / 256)) ∧
        t.parts[w.part].poisonedSectors = s.parts[w.part].poisonedSectors + 1 ∧ getFlow t p.flow = some (x.took p (frameNow s))) ∧
    (∀ (st : Byte) (y : StoredSector), Arrives s p 3 x → (p.flow, tag.toNat) ∉ s.mem.casWaits →
      ∃ t, exec (.atomicResult p st tag y) s = .next t ∧ t.out = (afterTaking p 3 1 (sectorsLen 1) x s).out ++ [.ack p.flow p.psn] ∧ getFlow t p.flow = some (x.took p (frameNow s)) ∧
        (∀ f, f ≠ p.flow → getFlow t f = getFlow s f) ∧ OnlyTouches [.out, .fab] s t) ∧
    (∀ y : StoredSector, Arrives s p 3 x → (p.flow, tag.toNat) ∈ s.mem.casWaits →
      ∃ t, exec (.atomicResult p 0 tag y) s = .next t ∧ t.mem.casWaits = s.mem.casWaits.erase (p.flow, tag.toNat) ∧ t.mem.waits = s.mem.waits ∧ getFlow t p.flow = some (x.took p (frameNow s)) ∧
        OnlyTouches [.out, .mem, .fab] s t)

/-- Packets that are not taken (R284, R288, R290): outside their order they change no more than what they acknowledge; a bad tag counts as a failure; one for a revoked context counts as KEY_REVOKED; none of them is stored. Acknowledgements, retries and lost flows (R284, R285, R288): an acknowledgement ends what it covers; a retry counts and takes the next route; the eighth loses the flow with LINK_LOST; eight bad tags lose it with INTEGRITY and raise the alert; a PSN past 2^47 moves to the next key generation, the previous keys held. Readings and choices of the model that it rests on: notes/assumptions/17.md. -/
def Obligations.PacketsAndFlowsKeepTheirOrder : Prop :=
  (∀ (s : State) (p : Pkt) (g : GAddr) (tag : Byte) (data : List StoredSector) (x : Flow), hubUp s → s.fab.straits[p.strait].link = .up → forMe s p → getFlow s p.flow = some x →
    gaddrOk g → 1 ≤ data.length → data.length ≤ 4 → g.off.toNat % 256 = 0 → lentHolds s g data.length → p.reserved = 0 → p.stray = false → 2 ∈ x.classes →
    let u := flushHost (setFlow p.flow (x.takeAck p) (returnSlots p.strait (vcOf 2 0) (slotsOf (sectorsLen data.length)) s))
    (x.state = .opened → p.tagOk → x.holds p → x.rxPsn < p.psn → exec (.memwr p (.global g) tag data) s = .next u) ∧
    (x.state = .opened → p.tagOk → x.holds p → p.psn < x.rxPsn → exec (.memwr p (.global g) tag data) s = .next (sendAck p.flow (x.rxPsn - 1) u)) ∧
    u.mem = s.mem ∧
    (x.state = .opened → p.tagOk = false ∨ x.holds p = false →
      ∃ t, exec (.memwr p (.global g) tag data) s = .next t ∧ t.fab.tagFailures = s.fab.tagFailures + 1 ∧ t.mem = s.mem ∧ t.out = s.out) ∧
    (x.state = .revoked → ∃ t, exec (.memwr p (.global g) tag data) s = .next t ∧ t.fab.keyRevoked = s.fab.keyRevoked + 1 ∧ t.mem = s.mem ∧ t.out = s.out)) ∧
  (∀ (s : State) (f : Nat) (x : Flow), getFlow s f = some x → x.state = .opened →
    (∀ p : Pkt, p.flow = f → ∀ cls ∈ x.classes, hubUp s → s.fab.straits[p.strait].link = .up → forMe s p → p.reserved = 0 → p.stray = false → p.tagOk → x.holds p → p.ackValid → x.ackedPsn ≤ p.ackPsn → p.ackPsn < x.txPsn →
      ∃ t y, exec (.pureAckReceive p cls) s = .next t ∧ getFlow t f = some y ∧ y.ackedPsn = p.ackPsn ∧ y.unacked = x.unacked.filter (fun o => p.ackPsn < o.psn) ∧ y.rxPsn = x.rxPsn ∧
        (∀ k, k ≠ f → getFlow t k = getFlow s k) ∧ OnlyTouches [.out, .fab] s t) ∧
    (hubUp s → x.unacked ≠ [] → x.retries < 7 →
      ∃ t y, exec (.flowRetryTimeout f) s = .next t ∧ getFlow t f = some y ∧ y.state = .opened ∧ y.retries = x.retries + 1 ∧ y.unacked = x.unacked ∧
        y.route = nextCand (routeOf s x.peer) x.route ∧ (∀ k, k ≠ f → getFlow t k = getFlow s k) ∧ OnlyTouches [.out, .fab] s t) ∧
    (hubUp s → x.unacked ≠ [] → 7 ≤ x.retries →
      ∃ t y, exec (.flowRetryTimeout f) s = .next t ∧ getFlow t f = some y ∧ y.state = .lost ∧ y.lastStatus = 0x40 ∧ y.unacked = [] ∧ (∀ k, k ≠ f → getFlow t k = getFlow s k)) ∧
    (8 ≤ x.tagFails →
      ∃ t y, exec (.flowIntegrityLost f) s = .next t ∧ getFlow t f = some y ∧ y.state = .lost ∧ y.lastStatus = 0x20 ∧ y.unacked = [] ∧
        t.dict.alerts = t.ras.auditCount :: s.dict.alerts ∧ (∀ k, k ≠ f → getFlow t k = getFlow s k)) ∧
    (x.keygen = false → 2 ^ 47 ≤ x.txPsn ∨ 2 ^ 47 ≤ x.rxPsn →
      ∃ t y, exec (.flowKeygenAdvance f) s = .next t ∧ getFlow t f = some y ∧ y.keygen = true ∧ y.oldKeys = some (x.txKey, x.rxKey) ∧ y.txPsn = x.txPsn ∧ y.rxPsn = x.rxPsn ∧ y.state = .opened ∧
        (∀ k, k ≠ f → getFlow t k = getFlow s k) ∧ OnlyTouches [.free, .fab, .keys] s t))

/-- Flow contexts (R286, R436): an engine's open under a live pair key takes a free context in the state OPEN, without one the context stands OPENING and a HELLO is offered, and a dictionary flow runs under its session's key; a pair key that no flow has used for 1,000 frames is destroyed with its contexts. Handshake messages (R434, R435): the end with the higher unit ID answers an acceptable HELLO with REPLY and refuses another; a REPLY to our HELLO is followed by FINISH and keys, or the handshake fails; so does a FINISH to our REPLY. Which of the two depends on the standards' signatures and the unit's own ID. Readings and choices of the model that it rests on: notes/assumptions/14.md, 115.md. -/
def Obligations.FlowsAndHandshakesOpenOrFail : Prop :=
  (∀ (s : State) (peer : Device),
    (∀ (peerFlow : Nat) (classes : List Nat) (kind : FlowKind), hubUp s → s.fab.idInForce ≠ 0xFFFF → flowKind 0x40 classes none = some kind → (∃ f, 18 ≤ f ∧ f < 262143 ∧ getFlow s f = none) →
      (kind ≠ .dictionary → havePair s.keys peer →
        ∃ t f y, exec (.flowOpen 0x40 peer peerFlow classes none) s = .next t ∧ 18 ≤ f ∧ getFlow s f = none ∧ getFlow t f = some y ∧ y.state = .opened ∧ y.peer = peer ∧ y.peerFlow = peerFlow ∧
          y.owner = 0x40 ∧ y.classes = classes ∧ y.txPsn = 0 ∧ y.rxPsn = 0 ∧ (∀ k, k ≠ f → getFlow t k = getFlow s k) ∧ OnlyTouches [.free, .fab] s t) ∧
      (kind ≠ .dictionary → havePair s.keys peer = false →
        ∃ t f y, exec (.flowOpen 0x40 peer peerFlow classes none) s = .next t ∧ getFlow s f = none ∧ getFlow t f = some y ∧ y.state = .opening ∧ y.peer = peer ∧ (findHs t true none peer).isSome ∧
          (∀ k, k ≠ f → getFlow t k = getFlow s k) ∧ OnlyTouches [.out, .free, .fab] s t) ∧
      (∀ i, kind = .dictionary → dictSlot s 0x40 = some i →
        ∃ t f y, exec (.flowOpen 0x40 peer peerFlow classes none) s = .next t ∧ getFlow s f = none ∧ getFlow t f = some y ∧ y.state = .opened ∧ y.txKey = i ∧ y.rxKey = i ∧
          (∀ k, k ≠ f → getFlow t k = getFlow s k) ∧ OnlyTouches [.free, .fab] s t)) ∧
    (∀ (peerFlow : Nat) (classes : List Nat), hubUp s → flowKind 0x40 classes none = none → exec (.flowOpen 0x40 peer peerFlow classes none) s = .next s) ∧
    (∀ (p : PartId) (peerFlow : Nat) (classes : List Nat), hubUp s → s.fab.idInForce ≠ 0xFFFF → (flowKind p.val classes none).isSome → s.parts[p].state = .active →
      s.parts[p].force.flows.toNat ≤ flowsUsed s p.val →
      ∃ t, exec (.flowOpen p.val peer peerFlow classes none) s = .next t ∧ t.fab = s.fab ∧ t.parts[p] = Part.event .quota s.parts[p] ∧ (∀ p', p' ≠ p → t.parts[p'] = s.parts[p']) ∧
        OnlyTouches [.parts, .dict] s t) ∧
    (havePair s.keys peer → (∀ x ∈ pairFlows s peer, x.2.used + 1000 ≤ frameNow s) →
      ∃ t, exec (.pairKeyExpire peer) s = .next t ∧ havePair t.keys peer = false ∧ pairFlows t peer = [] ∧
        (∀ x ∈ s.fab.flows, x.1 < 18 ∨ x.2.peer ≠ peer ∨ x.2.session.isSome → x ∈ t.fab.flows) ∧ OnlyTouches [.keys, .fab] s t)) ∧
  (∀ (s : State) (h : Handshake), hsOpen s h.hop →
    (∃ t, exec (.hello h) s = .next t ∧
      (if Config.unitId.toNat ≤ h.unit.toNat then t = s
       else if peerOk s h then (∃ nonce ct sig, t.out = s.out ++ [.handshake 1 h.hop h.device nonce ct sig]) ∧ (findHs t false h.hop h.device).isSome ∧ OnlyTouches [.out, .free, .fab] s t
       else t.fab.hsFailures = s.fab.hsFailures + 1)) ∧
    (∀ x, findHs s true h.hop h.device = some x →
      ∃ t, exec (.reply h) s = .next t ∧ findHs t true h.hop h.device = none ∧
        (if h.unit.toNat ≤ Config.unitId.toNat ∨ !peerOk s h ∨ !hsSigned h.cert (x.transcript ++ peerHello h ++ h.ct) h.sig then t.fab.hsFailures = s.fab.hsFailures + 1
         else (∃ ct sig a, t.out = s.out ++ .handshake 2 h.hop h.device 0 ct sig :: a) ∧ t.fab.hsFailures = s.fab.hsFailures)) ∧
    (∀ x, findHs s false h.hop h.device = some x →
      ∃ t, exec (.finish h) s = .next t ∧ findHs t false h.hop h.device = none ∧
        t.fab.hsFailures = s.fab.hsFailures + (if hsSigned x.peerCert (x.transcript ++ h.ct) h.sig then 0 else 1) ∧
        (∀ k, h.hop = some k → hsSigned x.peerCert (x.transcript ++ h.ct) h.sig →
          t.fab.straits[k].link = .up ∧ t.fab.straits[k].peer = h.device ∧ ∃ y, getFlow t k.val = some y ∧ y.state = .opened ∧ y.peer = h.device ∧ y.rxPsn = 0 ∧ y.txPsn = 0)))

/-! ### The Bindery -/

/-- Sessions open, form and close (R312, R315, R316, R354): a block that does not suit ends DENIED and a carve-out too small ends QUOTA, with OP_STATUS saying so and CONFIG_DIGEST that of the block read; a suitable one makes the session FORMING, or RUNNING where this rank owns every layer; equal digests join and others never do; CLOSE frees everything. Readings and choices of the model that it rests on: notes/assumptions/8.md, 22.md, 23.md, 61.md. -/
def Obligations.SessionsFormAndClose : Prop :=
  ∀ (s : State) (i : SessIx),
    (∀ q : Req, reachable s → served s (0x7001 + i) → i < 255 → sessMay s q i → hubUp s → ((getSess s i).getD {}).state = 0 ∨ ((getSess s i).getD {}).state = 3 →
      let x : Session := { (getSess s i).getD {} with cfg := none }
      (openBlock (listSession i s) q i x = none →
        ∃ t y, exec (.sessionOpOpen q i) s = .next t ∧ getSess t i = some y ∧ y.opStatus = 0x60 ∧ y.state = x.state ∧ (∀ b, readBlock (listSession i s) q i x = some b → y.digest = Config.sha3 b) ∧
          Responds q .denied [] s t ∧ OnlyTouches [.out, .bind, .dict] s t) ∧
      (∀ p b, openBlock (listSession i s) q i x = some (p, b) → s.bind.carveout.toNat < carveUsed (listSession i s).bind + reserveBytes (cfgOf b) ((rankHere s p (cfgOf b)).getD 0) ((cfgOf b).layers.map (·.ownerRank)) →
        ∃ t y, exec (.sessionOpOpen q i) s = .next t ∧ getSess t i = some y ∧ y.opStatus = 0x30 ∧ y.state = x.state ∧ y.digest = Config.sha3 b ∧ Responds q .quota [] s t ∧ OnlyTouches [.out, .bind, .dict] s t) ∧
      (∀ p b, openBlock (listSession i s) q i x = some (p, b) → carveUsed (listSession i s).bind + reserveBytes (cfgOf b) ((rankHere s p (cfgOf b)).getD 0) ((cfgOf b).layers.map (·.ownerRank)) ≤ s.bind.carveout.toNat →
        ∃ t y, exec (.sessionOpOpen q i) s = .next t ∧ getSess t i = some y ∧ y.opStatus = 0 ∧ y.digest = Config.sha3 b ∧ y.part = some p ∧ y.cfg = some (cfgOf b) ∧
          y.myRank = some ((rankHere s p (cfgOf b)).getD 0) ∧ y.reserved = reserveBytes (cfgOf b) ((rankHere s p (cfgOf b)).getD 0) ((cfgOf b).layers.map (·.ownerRank)) ∧
          y.state = (if (cfgOf b).layers.all (fun l => l.ownerRank = (rankHere s p (cfgOf b)).getD 0) then 2 else 1) ∧
          t.out.getLast? = some (.response q.sid q.src 0 .done false []))) ∧
    (∀ answers x, hubUp s → getSess s i = some x → x.open' = true → answers ≠ [] →
      ∃ t y, exec (.sessionDigestMatch i answers) s = .next t ∧ getSess t i = some y ∧ y.digest = x.digest ∧
        (∀ c, x.cfg = some c → ∀ a ∈ answers, a.1 < c.ranks.length → a.1 ≠ x.me →
          (a.2 = x.digest → a.1 ∈ y.agreed ∧ a.1 ∈ y.elastic.live) ∧ (a.2 ≠ x.digest → a.1 ∈ y.differ)) ∧
        (x.state = 1 → y.state = (if x.elastic.owners.all (fun r => r = x.me || y.agreed.contains r) then 2 else 1)) ∧ (x.state = 2 → y.state = 2)) ∧
    (∀ (q : Req) x, reachable s → served s (0x7001 + i) → i < 255 → sessMay s q i → getSess s i = some x → x.state ≠ 0 →
      ∃ t y, exec (.sessionOpClose q i) s = .next t ∧ getSess t i = some y ∧ y.state = 0 ∧ y.opStatus = 0 ∧ y.cfg = none ∧ y.layers = [] ∧ y.part = none ∧ y.reserved = 0 ∧
        (x.elastic.departState ≠ 2 → ∀ f ∈ t.fab.flows, f.2.session ≠ some i) ∧ t.out.getLast? = some (.response q.sid q.src 0 .done false []))

/-- A rank's own close and its step's end (R321, R322, R327, R332, R333): a layer that is closed is closed for that step; a layer that must be withheld is, and its residual stands; a partial whose fold window has passed goes on; the owner's deadline closes a TREE step and recovers a RING step. Readings and choices of the model that it rests on: notes/assumptions/8.md, 60.md. -/
def Obligations.LayersCloseAreWithheldOrRecovered : Prop :=
  ∀ (s : State) (i : SessIx) (x : Session) (l v : Nat), getSess s i = some x →
    (∀ (q : Req) (w : BitVec 64), reachable s → served s (0x7001 + i) → i < 255 → sessMay s q i → w.toNat < 2 ^ 48 → w.toNat = v * 2 ^ 16 + l → l < 2 ^ 16 → closable x l v →
      ∃ t y, exec (.closeLayer q i w) s = .next t ∧ getSess t i = some y ∧ v ∈ (y.layer l).closed ∧ t.out.getLast? = some (.response q.sid q.src 0 .done false []) ∧
        (v ∈ x.withholding → (y.layer l).residual = (x.layer l).residual ∧ ∃ k, (y.layer l).step v = some k ∧ k.closed = true ∧ k.withheld = true)) ∧
    (∀ (q : Req) (w : BitVec 64), reachable s → served s (0x7001 + i) → i < 255 → sessMay s q i → w.toNat < 2 ^ 48 → w.toNat = v * 2 ^ 16 + l → l < 2 ^ 16 → x.open' = true →
      l = 0xFFFF ∨ (unclosed x v).contains l →
      ∃ t y, exec (.withhold q i w) s = .next t ∧ getSess t i = some y ∧ v ∈ y.withholding ∧ t.out.getLast? = some (.response q.sid q.src 0 .done false []) ∧
        ∀ k ∈ (if l = 0xFFFF then unclosed x v else [l]), k < x.layers.length → ∃ z, (y.layer k).step v = some z ∧ z.closed = true ∧ z.withheld = true) ∧
    (∀ b w h, hubUp s → workOf s i l v = some w → w.closed = false → w.held.find? (fun h => h.1 = b) = some h →
      ∃ t, exec (.foldWindowExpire i l v b) s = .next t ∧ workOf t i l v = some { w with held := w.held.filter (fun k => k.1 ≠ b) } ∧ OnlyTouches [.out, .fab, .bind] s t) ∧
    (∀ r, hubUp s → x.open' = true → redOf x l v = some r → (x.layer l).ownStep = some v → r.deadline ≤ frameNow s →
      ∃ t y, exec (.ownerDeadline i l v) s = .next t ∧ getSess t i = some y ∧
        (if r.tree ∨ r.recovering then ∀ z ∈ (y.layer l).reduction, z.step ≠ v
         else y.counters[(5 : Nat)]'(by decide) = x.counters[(5 : Nat)]'(by decide) + 1 ∧ ∀ z ∈ (y.layer l).reduction, z.step = v → z.recovering = true ∧ z.acc = []))

/-- Packets of the Bindery (R288, R324, R325, R327, R332, R333, R338 to R340, R364): each is taken in the order of its flow, has its effect, and is acknowledged; of the effects: a contribution for a closed step is counted as late, a roll waits at a rank that has not closed, a notice stands at the owner, a request to recover a finished step changes nothing here, a chunk of a version is kept, a resend of a version that is kept no longer is discarded and counted, and a chunk of a snapshot is kept by its keeper. -/
def Obligations.BinderyPacketsHaveTheirEffect : Prop :=
  ∀ (s : State) (p : Pkt) (f : Flow) (i : SessIx) (l v : Nat) (m : ChunkMsg) (k : ContribMsg),
    (Arrives s p 4 f → k.reservedZero = true → k.part < k.parts → k.entries.length ≤ (if k.dense then 248 else 124) →
      let u := afterTaking p 4 0 (roundUp (32 + (if k.dense then 4 else 8) * k.entries.length) 32) f s
      exec (.contribData p k) s = .next (sendAck p.flow p.psn (contribIn p.flow k u)) ∧
      (∀ x rank, getSess u k.session = some x → senderRank u x p.flow = some rank → x.open' = true → k.layer < x.layersOf → x.ownerOf k.layer k.step = x.me →
        x.isLive rank = false ∨ ownAt x k.layer k.step = .late →
        ∃ y, getSess (contribIn p.flow k u) k.session = some y ∧ y.counters[(4 : Nat)]'(by decide) = x.counters[(4 : Nat)]'(by decide) + 1 ∧ OnlyTouches [.bind] u (contribIn p.flow k u))) ∧
    (∀ ranks, Arrives s p 4 f → (∀ r ∈ ranks, r < 4096) →
      let u := afterTaking p 4 0 544 f s
      exec (.contribRoll p i l v ranks) s = .next (sendAck p.flow p.psn (rollIn p.flow i l v ranks u)) ∧
      (∀ x rank, getSess u i = some x → senderRank u x p.flow = some rank → x.open' = true → l < x.layersOf → l < x.layers.length → x.ownerOf l v ≠ x.me → (x.layer l).closedAt v = false →
        (∀ w, (x.layer l).step v = some w → w.recovered = false) →
        ∃ w, workOf (rollIn p.flow i l v ranks u) i l v = some w ∧ w.roll = some ranks)) ∧
    (∀ whole, Arrives s p 4 f →
      let u := afterTaking p 4 1 32 f s
      exec (.contribAbsent p i l v whole) s = .next (sendAck p.flow p.psn (absentIn p.flow i l v whole u)) ∧
      (∀ x rank, getSess u i = some x → senderRank u x p.flow = some rank → x.open' = true → x.isLive rank = true → whole = false → x.ownerOf l v = x.me → ownAt x l v = .current →
        ∃ y, getSess (absentIn p.flow i l v whole u) i = some y ∧ ∀ r ∈ (y.layer l).reduction, r.step = v → rank ∈ r.absent)) ∧
    (Arrives s p 4 f →
      let u := afterTaking p 4 0 32 f s
      exec (.contribRecover p i l v) s = .next (sendAck p.flow p.psn (recoverIn p.flow i l v u)) ∧
      (∀ x n, getSess u i = some x → (x.layer l).newest = some n → v < n → (recoverIn p.flow i l v u).bind = u.bind)) ∧
    (Arrives s p 5 f → m.payload.length ≤ 1024 →
      let u := afterTaking p 5 0 (roundUp m.payload.length 32) f s
      exec (.paramData p m) s = .next (sendAck p.flow p.psn (paramIn p.flow m u)) ∧
      (∀ x c, getSess u m.session = some x → x.cfg = some c → x.open' = true → m.layer < c.layers.length → m.layer < x.layers.length → (senderRank u x p.flow).isSome → m.chunk < c.chunks m.layer →
        (∀ n, (x.layer m.layer).newest = some n → n ≤ m.step + 1) → x.elastic.restoreVersion = 0xFFFFFFFF ∨ x.elastic.restoreVersion.toNat ≤ m.step →
        ∃ y r, getSess (paramIn p.flow m u) m.session = some y ∧ r ∈ (y.layer m.layer).recv ∧ r.version = m.step ∧ (alGet m.chunk r.chunks).isSome)) ∧
    (Arrives s p 5 f →
      let u := afterTaking p 5 1 0 f s
      exec (.paramResendRequest p i l v) s = .next (sendAck p.flow p.psn (resendIn p.flow i l v u)) ∧
      (∀ x c, getSess u i = some x → x.cfg = some c → (senderRank u x p.flow).isSome → x.open' = true → l < c.layers.length → x.ownerOf l (v - 1) = x.me →
        (x.layer l).kept.find? (fun r => r.version = v) = none →
        ∃ y, getSess (resendIn p.flow i l v u) i = some y ∧ y.elastic = { x.elastic with resendsDropped := x.elastic.resendsDropped + 1 } ∧ y.layers = x.layers)) ∧
    (Arrives s p 6 f → m.payload.length ≤ 1024 →
      let u := afterTaking p 6 0 (roundUp m.payload.length 32) f s
      exec (.tipinData p m) s = .next (sendAck p.flow p.psn (tipinIn p.flow m u)) ∧
      (∀ x c r, getSess u m.session = some x → x.cfg = some c → senderRank u x p.flow = some r → x.open' = true → m.layer < c.layers.length → m.layer < x.layers.length →
        (x.layer m.layer).restore = none → x.elastic.handing = none → x.elastic.owners.getD m.layer 0xFFFF = r → m.chunk < shadowChunks c m.layer → (x.layer m.layer).keeps = [] →
        1 < shadowChunks c m.layer → carveUsed u.bind + 1024 ≤ u.bind.carveout.toNat →
        ∃ y h, getSess (tipinIn p.flow m u) m.session = some y ∧ (y.layer m.layer).keeps = [h] ∧ h.owner = r ∧ h.step = m.step ∧ h.complete = false ∧ (alGet m.chunk h.chunks).isSome))

/-- Versions become visible, and what is missing is asked for again (R339, R340, R371): a version that is whole is published, counted and its exponents agreed, or stays unpublished where its record cannot be written; a resend request goes to the owner; a keeper that does not answer is passed over. Readings and choices of the model that it rests on: notes/assumptions/62.md. -/
def Obligations.VersionsArePublishedAndAskedFor : Prop :=
  ∀ (s : State) (i : SessIx) (x : Session) (l v : Nat), getSess s i = some x → hubUp s →
    (∀ c p r, x.cfg = some c → x.part = some p → (x.layer l).recv.find? (fun r => r.version = v) = some r → mayPublish s i l v →
      ∃ t y, exec (.versionPublish i l v) s = .next t ∧ getSess t i = some y ∧
        (if (writeRecord x p (r.record (c.imageBytes l) (c.bucketsOf l)) s).2 = .done then
           (y.layer l).newest = some v ∧ y.recordCount = x.recordCount + 1 ∧
           alGet v (y.layer l).agreed = some (r.exps (c.imageBytes l) (c.bucketsOf l), recTree (r.record (c.imageBytes l) (c.bucketsOf l))) ∧ ∀ k ∈ (y.layer l).recv, v ≤ k.version + 1
         else t.bind = s.bind)) ∧
    (∀ f z, resendDue s i l v → x.ownerOf l (v - 1) ≠ x.me → rankFlow s i (x.ownerOf l (v - 1)) 5 = some f → getFlow s f = some z → z.state = .opened → s.fab.idInForce ≠ 0xFFFF →
      ∃ t z', exec (.paramResendTimeout i l v) s = .next t ∧ getFlow t f = some z' ∧ z'.txPsn = z.txPsn + 1 ∧
        z'.unacked = z.unacked ++ [mkPkt s f z 16 5 1 (sessCsf i l v 0) []] ∧ OnlyTouches [.out, .fab, .bind] s t) ∧
    (∀ w k ks chunks, x.open' = true → (x.layer l).restore = some (w, k :: ks, chunks) → (x.layer l).restoreAsked + 2 ≤ frameNow s →
      ∃ t y, exec (.keeperTimeout i l) s = .next t ∧ getSess t i = some y ∧ (y.layer l).restore = (if ks = [] then none else some (w, ks, [])) ∧ OnlyTouches [.out, .fab, .bind] s t)

/-- Rosters, requests and silence (R355 to R361, R375 to R377): a roster that is not newer is discarded and counted, a newer one that keeps this rank waits for its frame; requests queue at the coordinator and its deputy; a hold of 16 ticks ends in the declaration; what is found departed is noted. Readings and choices of the model that it rests on: notes/assumptions/8.md, 63.md, 65.md. -/
def Obligations.RostersAndDeparturesAreFollowed : Prop :=
  ∀ (s : State) (i : SessIx),
    (∀ (p : Pkt) (f : Flow) (m : RosterMsg), Arrives s p 5 f →
      let u := afterTaking p 5 0 544 f s;
      (exec (.roster p m) s = .next (sendAck p.flow p.psn (rosterIn m u)) ∧
        ∀ x, getSess u m.session = some x → x.open' = true → x.elastic.next = none →
          (m.epoch ≤ x.elastic.epoch → ∃ y, getSess (rosterIn m u) m.session = some y ∧ y = { x with elastic := { x.elastic with discarded := x.elastic.discarded + 1 } }) ∧
          (x.elastic.epoch < m.epoch → m.live.contains x.rank' → ∃ y, getSess (rosterIn m u) m.session = some y ∧ y = { x with elastic := { x.elastic with next := some m } })) ∧
      (exec (.departRequest p m) s = .next (sendAck p.flow p.psn (departIn p.flow m u)) ∧
        ∀ x, getSess u m.session = some x → x.open' = true → x.isHead = true → senderRank u x p.flow = some m.handover.toNat → x.isLive m.handover.toNat = true → m.effective ≠ 0 →
          (∀ r ∈ x.elastic.requests, r.1 ≠ m.handover.toNat) →
          ∃ y, getSess (departIn p.flow m u) m.session = some y ∧ y = { x with elastic := { x.elastic with requests := x.elastic.requests ++ [(m.handover.toNat, m.effective)] } }) ∧
      (exec (.restoreFailed p m) s = .next (sendAck p.flow p.psn (failedIn m u)) ∧
        ∀ x, getSess u m.session = some x → x.open' = true → x.isHead = true → x.elastic.next = none → stepOpt x.elastic.rollback = some m.rollback.toNat →
          ∃ y, getSess (failedIn m u) m.session = some y ∧ y = { x with elastic := { x.elastic with restoreFailed := some m.rollback.toNat } })) ∧
    (∀ x, getSess s i = some x → hubUp s → x.open' = true →
      (∀ peer f z, beatFlow s i peer = some f → getFlow s f = some z → exec (.sessionHeartbeat i peer) s = .next (sendAck f (z.rxPsn - 1) s)) ∧
      (∀ rank, watches s i rank → ∃ t y, exec (.rankSilence i rank) s = .next t ∧ getSess t i = some y ∧ (rank, !departureEnded x rank) ∈ y.elastic.found ∧ y.elastic.live = x.elastic.live ∧
        y.elastic.coordinator = (if x.elastic.coordinator = some rank then x.myRank else x.elastic.coordinator) ∧ OnlyTouches [.bind] s t) ∧
      (x.isCoord = true → x.elastic.next = none → 16 ≤ x.elastic.held →
        ∃ t y, exec (.rosterQuorumHold i) s = .next t ∧ getSess t i = some y ∧ y.elastic.held = 0 ∧
          ∀ gone, gone = ((x.elastic.found.map (·.1)) ++ lostRanks s i x).dedup.filter (fun r => x.elastic.live.contains r) → gone ≠ [] →
            ∃ m, y.elastic.next = some m ∧ m.live = x.elastic.live.filter (fun r => !gone.contains r) ∧ m.epoch = x.elastic.epoch + 1 ∧ m.effective = frameNow s + 1) ∧
      (∀ rank, x.isCoord = true → x.isLive rank = true → (∃ r ∈ x.elastic.requests, r.1 = rank ∧ r.2 ≤ frameNow s) →
        ∃ t y, exec (.departDeadline i rank) s = .next t ∧ getSess t i = some y ∧ (rank, true) ∈ y.elastic.found ∧ (∀ r ∈ y.elastic.requests, r.1 ≠ rank) ∧ OnlyTouches [.bind] s t)) ∧
    (∀ (q : Req) x, reachable s → served s (0x7001 + i) → i < 255 → isOperator s q → getSess s i = some x →
      (∀ fr : BitVec 64, x.open' = true → x.elastic.departState ≠ 3 → frameNow s + 4 ≤ fr.toNat →
        ∃ t y, exec (.departAtFrameSet q i fr) s = .next t ∧ getSess t i = some y ∧ y.elastic.departAt = fr ∧ y.elastic.sendRequest = some fr.toNat ∧
          y.elastic.departState = (if x.elastic.departState = 0 then 1 else x.elastic.departState) ∧ Responds q .done [] s t ∧ OnlyTouches [.out, .bind, .dict] s t) ∧
      (∀ fr : BitVec 64, fr.toNat < frameNow s + 4 → exec (.departAtFrameSet q i fr) s = .next (answer q (s, .denied))) ∧
      (x.elastic.departState = 1 → ∃ t y, exec (.departWithdraw q i) s = .next t ∧ getSess t i = some y ∧ y.elastic.departAt = 0 ∧ y.elastic.departState = 0 ∧ y.elastic.sendRequest = some 0 ∧
        Responds q .done [] s t ∧ OnlyTouches [.out, .bind, .dict] s t) ∧
      (x.elastic.departState = 0 → ∃ t, exec (.departWithdraw q i) s = .next t ∧ getSess t i = some { x with elastic := { x.elastic with departAt := 0 } } ∧
        Responds q .done [] s t ∧ OnlyTouches [.out, .bind, .dict] s t) ∧
      (2 ≤ x.elastic.departState.toNat → exec (.departWithdraw q i) s = .next (answer q (s, .denied))))

/-! ### Identity, life cycle and firmware -/

/-- Attestation (R445, R448): SIGN leaves ATT_STATUS PARTIAL and the report pending; LOAD_CERT puts the identity certificate into the buffer; when the signature stands the report is in the buffer and its nonce may be used for an import. Writes of the life cycle (R462, R474 to R477): the certificate in MAKER, the operator key by the session that proved it, a debug challenge, and OPEN, which removes every partition. Readings and choices of the model that it rests on: notes/assumptions/8.md, 54.md, 70.md. -/
def Obligations.ReportsCertificatesAndDebug : Prop :=
  (∀ s : State,
    (∀ q, reachable s → served s 0x8040 → mayAttest s q → (perOf s q).attPending = none →
      exec (.sign q) s = .next (answer q (updPer q (fun x => { x with attStatus := 1, attPending := some (reportBytes s x.attNonce) }) s, .done)) ∧
      exec (.loadCert q) s = .next (answer q (updPer q (fun x => { x with attStatus := 0, attData := s.life.cert }) s, .done))) ∧
    (∀ q, reachable s → (perOf s q).attPending ≠ none → exec (.sign q) s = .next (answer q (s, .denied)) ∧ exec (.loadCert q) s = .next (answer q (s, .denied))) ∧
    (∀ (q : Req) (b : Bytes), q.sid ≠ 0 → (perOf s q).attPending = some b → s.pow.mgmtUp →
      ∃ t, exec (.signComplete q.sid) s = .next t ∧ (perOf t q).attStatus = 0 ∧ (perOf t q).attData = b ∧ (perOf t q).attPending = none ∧
        (BitVec.ofNat 256 (leNat (slice b 40 32)), false) ∈ t.keys.nonces ∧ t.keys.nonces.length ≤ 64 ∧ t.keys.slots = s.keys.slots ∧ OnlyTouches [.keys, .dict] s t)) ∧
  (∀ (s : State) (q : Req), reachable s →
    (∀ b : Bytes, served s 0xA004 → isMaker s q → s.life.force = 1 → b.length = 8192 → exec (.certWrite q b) s = .next (answer q ({ s with life := { s.life with cert := b } }, .done))) ∧
    (∀ (d : BitVec 512) (x : DSess), served s 0xA005 → roleOf s q = .enrol → s.life.force = 2 → s.life.operatorDigest = 0 → d ≠ 0 → findSess s q = some x →
      ∃ t, exec (.operatorKeyEnrol q d) s = .next t ∧
        (if Config.sha3 x.ownKey = d then t.life = { s.life with operatorDigest := d } ∧ roleOf t q = .operator ∧ Responds q .done [] s t else t = answer q (s, .denied))) ∧
    (served s 0xA002 → opOrMaker s q → dbgOpen s → s.life.dbg ≠ 3 →
      (∃ t, exec (.challenge q) s = .next t ∧ t.life.dbg = 1 ∧ t.life.challenge = BitVec.ofNat 256 (leNat (s.entropy).1) ∧ t.life.dbgStatus = 0 ∧ Responds q .done [] s t ∧
        OnlyTouches [.out, .free, .keys, .life, .dict] s t) ∧
      (responseOk s →
        ∃ t, exec (.debugOpen q) s = .next t ∧ t.life.dbg = 2 ∧ t.life.challenge = 0 ∧ t.life.dbgStatus = 0 ∧
          (∀ p : PartId, s.parts[p].state ≠ .free → t.parts[p].state = .removing) ∧ (∀ k ∈ t.keys.slots, k.2.purpose = 0x17 ∨ k.2.purpose = 0x18 → k.2.revoked))))

/-- The life cycle (R469 to R471): NEW_NONCE draws a nonce; TRANSITION of an accepted request programs the target's intent byte and runs, and uses up the nonce either way; when the steps stand the target's bytes are all set and the module waits for a reset. Readings and choices of the model that it rests on: notes/assumptions/3.md, 8.md. -/
def Obligations.LifeCycleTransitionsRun : Prop :=
  ∀ (s : State) (q : Req),
    (reachable s → served s 0xA001 → opOrMaker s q → lcOpen s →
      exec (.newNonce q) s = .next (answer q ({ s with life := { s.life with nonce := Config.entropy s.free, status := 0 }, free := s.free + 1 }, .done)) ∧
      ∃ t, exec (.transition q) s = .next t ∧ t.life.nonce = 0 ∧
        (if lcAccepts s (signedReq s.life.request) then
           t.life.running = some (signedReq s.life.request).target ∧ t.life.status = 1 ∧ t.life.flashRequest = s.life.request ∧
           t.life.word = s.life.word ||| intentMask (signedReq s.life.request).target
         else t.life = { s.life with nonce := 0, status := 0x60 } ∧ Responds q .denied [] s t ∧ OnlyTouches [.life, .out, .dict] s t)) ∧
    (∀ n, s.life.running = some n → s.pow.mgmtUp →
      exec .transitionProgrammed s = .next { s with life := { s.life with word := s.life.word ||| intentMask n ||| stepMask n, running := none, waitReset := true, status := 0 } })

/-- The scan library and the firmware image are staged in chunks and committed (R495, R599): BEGIN clears the area, a chunk lands at its offset, COMMIT starts the check, and only an accepted file is installed. Readings and choices of the model that it rests on: notes/assumptions/8.md, 10.md. -/
def Obligations.ImagesAreStagedAndCommitted : Prop :=
  ∀ (s : State) (q : Req),
    (reachable s → served s 0x9020 → opOrMaker s q → s.ras.libStatus ≠ 1 →
      exec (.libBegin q) s = .next (answer q ({ s with ras := { s.ras with libStage := [], libStatus := 0 } }, .done)) ∧
      (∀ d : Bytes, d.length = 1024 → exec (.libChunk q d) s = .next (answer q ({ s with ras := { s.ras with libStage := alSet s.ras.libOffset.toNat d s.ras.libStage } }, .done))) ∧
      exec (.libCommit q) s = .next (answer q ({ s with ras := { s.ras with libStatus := 1 } }, .done))) ∧
    (s.ras.libStatus = 1 →
      exec .libCommitComplete s = .next { s with ras := (if libOk (stagedFile s.ras.libStage) s.ras.library then { s.ras with library := stagedFile s.ras.libStage, libStage := [], libStatus := 0 }
        else { s.ras with libStatus := 0x60 }) }) ∧
    (reachable s → served s 0x1120 → opOrMaker s q → s.pow.mod = .active → s.fw.committing = none →
      exec (.fwBegin q) s = .next (answer q ({ s with fw := { s.fw with stage := [], status := 0 } }, .done)) ∧
      (∀ b : Bytes, b.length = 1024 → exec (.fwChunk q b) s = .next (answer q ({ s with fw := { s.fw with stage := alSet s.fw.offset.toNat b s.fw.stage } }, .done))) ∧
      exec (.fwCommit q) s = .next (answer q ({ s with fw := { s.fw with committing := some (stagedImage s), status := 1 } }, .done))) ∧
    (∀ b : Bytes, s.fw.committing = some b → s.pow.mgmtUp →
      exec .fwCommitComplete s = .next { s with fw := (if imageOk b s.fw.floor then { s.fw with flash := Config.imageEncrypt flashKey b, committing := none, status := 0 }
        else { s.fw with committing := none, status := 0x60 }) })

/-- The server of a recovery fetch (R597, R598): the first segment of a REQUEST starts a service, the second is answered with the OFFER and the image; RESUME sends again from its offset; a second fetch meanwhile is BUSY. The requester of a recovery fetch (R596, R597): the OFFER's segments are taken in order, data that pass their check are taken in order and a gap is asked for, 100 ms without data too; after its time the next strait is tried, and the fetch starts again. Readings and choices of the model that it rests on: notes/assumptions/14.md, 56.md. -/
def Obligations.RecoveryIsServedAndFetched : Prop :=
  (∀ (s : State) (k : StraitId) (id : BitVec 64), s.pow.mgmtUp → heardOver s (some k) → serves s (some k) →
    (∀ key : Bytes, (∀ v, s.fw.serve = some v → v.secret.isSome ∨ v.fetchId = id) →
      exec (.recoveryRequest (some k) id 0 key) s = .next { s with fw := { s.fw with serve := some { fetchId := id, strait := some k, key := key, secret := none, sent := 0 } } }) ∧
    (∀ (key : Bytes) (v : ServeRun), s.fw.serve = some v → v.fetchId = id → v.secret = none →
      ∃ t a b w, exec (.recoveryRequest (some k) id 1 key) s = .next t ∧ t.fw.serve = some w ∧ w.secret.isSome ∧ w.key = v.key ++ key ∧ w.sent = (s.fw.running.getD []).length ∧
        t.out = s.out ++ [.recovery (some k) 2 id 0 (s.fw.running.getD []).length a, .recovery (some k) 2 id 1 (s.fw.running.getD []).length b] ++ dataFrom w (s.fw.running.getD []) 0 ∧
        OnlyTouches [.out, .free, .fw] s t) ∧
    (∀ (key : Bytes) (v : ServeRun), s.fw.serve = some v → v.fetchId ≠ id → v.secret = none →
      exec (.recoveryRequest (some k) id 0 key) s = .next (s.emit [.recovery (some k) 5 id 0 0 []])) ∧
    (∀ (off : Nat) (v : ServeRun), s.fw.serve = some v → v.fetchId = id → v.strait = some k →
      exec (.recoveryResume id off) s = .next (s.emit (dataFrom v (s.fw.running.getD []) off)))) ∧
  (∀ (s : State) (f : FetchRun) (k : StraitId), s.fw.fetch = some f → f.strait = some k → fetching s → hubUp s →
    (s.fab.straits[k].link = .up →
      (∀ (ct : Bytes) (n : Nat), f.ct = [] → ct.length = 1024 → exec (.recoveryOffer (some k) f.fetchId 0 ct n) s = .next { s with fw := { s.fw with fetch := some { f with ct := ct } } }) ∧
      (∀ (ct : Bytes) (n : Nat), f.ct.length = 1024 →
        exec (.recoveryOffer (some k) f.fetchId 1 ct n) s = .next { s with fw := { s.fw with fetch := some { f with ct := f.ct ++ ct, total := some n } } })) ∧
    exec (.recoveryBusy f.fetchId) s = .next s ∧
    (∀ n, f.total = some n → exec .recoveryDataGap s = .next (s.emit [.recovery (some k) 4 f.fetchId 0 f.data.length []])) ∧
    (∀ n (off : Nat) (ct tag : Bytes), f.total = some n →
      ∃ t, exec (.recoveryData f.fetchId off ct tag) s = .next t ∧
        match Config.gcmOpen (dataKey (Config.kemDecaps f.kemSeed f.ct) f.fetchId) off [] ct tag with
        | none => t = s
        | some b =>
          (off = f.data.length → f.data.length + b.length < n → t = { s with fw := { s.fw with fetch := some { f with data := f.data ++ b } } }) ∧
          (f.data.length < off → t = s.emit [.recovery (some k) 4 f.fetchId 0 f.data.length []]) ∧ (off < f.data.length → t = s)) ∧
    (∀ k', fabricFrom s (k.val + 1) = some k' → s.fab.straits[k'].link ≠ .up →
      ∃ t g, exec .recoveryStraitTimeout s = .next t ∧ t.fw.fetch = some g ∧ g.strait = some k' ∧ g.data = [] ∧ g.total = none ∧ t.fab.straits[k'].link = .training ∧
        OnlyTouches [.free, .fab, .fw] s t) ∧
    (fabricFrom s (k.val + 1) = none →
      ∃ t g, exec .recoveryStraitTimeout s = .next t ∧ t.fw.fetch = some g ∧ g.strait = none ∧ g.data = [] ∧ g.total = none ∧ OnlyTouches [.out, .free, .dict, .fw] s t) ∧
    (fabricFrom s 0 = none →
      ∃ t g, exec .recoveryRestart s = .next t ∧ t.fw.fetch = some g ∧ g.strait = none ∧ g.data = [] ∧ g.total = none ∧ OnlyTouches [.out, .free, .dict, .fw] s t))

/-! ### Repair, the Lighthouse and power -/

/-- The in-field test, retirement and SUSPECT of a unit (R496 to R502). Errors of window and external memory, and temperatures (R503, R504, R254, R577): a double error poisons its 256-byte range and strikes the bank; a row repair or a bank retirement is counted; a die's temperature and its hot pin stand at once. Readings and choices of the model that it rests on: notes/assumptions/11.md, 112.md. -/
def Obligations.UnitsAreTestedAndErrorsNoted : Prop :=
  (∀ (s : State) (u : BitVec 16),
    ((s.ras.unit u.toNat).state = .underTest → (s.ras.unit u.toNat).leaving = false → (s.ras.unit u.toNat).permanent = false →
      (unitKind u.toNat ≠ 2 → ∃ t, exec (.testComplete u .pass) s = .next t ∧ (t.ras.unit u.toNat).leaving = true ∧ (t.ras.unit u.toNat).deferrals = 0 ∧
        (t.ras.unit u.toNat).nextTest = nextTestFrame s.ras (frameNow s) (s.ras.unit u.toNat) ∧ (t.ras.unit u.toNat).permanent = false ∧
        (∀ v, v ≠ u.toNat → t.ras.unit v = s.ras.unit v) ∧ OnlyTouches [.free, .ras] s t) ∧
      (∃ t, exec (.testComplete u .failReproduced) s = .next t ∧ (t.ras.unit u.toNat).permanent = true ∧ (∀ v, v ≠ u.toNat → t.ras.unit v = s.ras.unit v) ∧ OnlyTouches [.free, .ras] s t) ∧
      (unitKind u.toNat ≠ 2 → (s.ras.unit u.toNat).retest = false → (s.ras.unit u.toNat).rowsUsed < 4 →
        ∃ t, exec (.testComplete u (.failRepairable true)) s = .next t ∧ (t.ras.unit u.toNat).rowsUsed = (s.ras.unit u.toNat).rowsUsed + 1 ∧ (t.ras.unit u.toNat).retest = true ∧
          t.ras.lineRepairs = s.ras.lineRepairs + 1 ∧ (∀ v, v ≠ u.toNat → t.ras.unit v = s.ras.unit v) ∧ OnlyTouches [.free, .ras] s t) ∧
      (unitKind u.toNat = 2 → ∃ t, exec (.testComplete u .pass) s = .next t ∧ t.ras.units = s.ras.units ∧ OnlyTouches [.ras] s t) ∧
      (unitKind u.toNat = 2 → ∀ row, ∃ t, exec (.testComplete u (.failRepairable row)) s = .next t ∧ (t.ras.unit u.toNat).permanent = true ∧ t.ras.lineRepairs = s.ras.lineRepairs ∧
        (∀ v, v ≠ u.toNat → t.ras.unit v = s.ras.unit v) ∧ OnlyTouches [.free, .ras] s t)) ∧
    ((s.ras.unit u.toNat).state = .inService → 64 ≤ (s.ras.unit u.toNat).deferrals → unitIdle s u.toNat →
      ∃ t, exec (.testDeferLimit u) s = .next t ∧
        t.ras.unit u.toNat = { s.ras.unit u.toNat with state := .underTest, takenFrom := (s.ras.unit u.toNat).serves, serves := none, deferrals := 0 } ∧
        (∀ a, (s.ras.unit u.toNat).serves = some a → a ∈ t.ras.out) ∧ (∀ v, v ≠ u.toNat → v ≠ 0x2000 + unitIndex u.toNat → t.ras.unit v = s.ras.unit v) ∧ OnlyTouches [.ras] s t) ∧
    ((s.ras.unit u.toNat).permanent → (s.ras.unit u.toNat).state ≠ .retired → unitIdle s u.toNat → unitKind u.toNat = 1 →
      u.toNat ∉ s.ras.spares (unitDie u.toNat) (rerunUnits s) ∨ ((s.ras.unit u.toNat).serves = none ∧ (s.ras.unit u.toNat).takenFrom = none) →
      ∃ t, exec (.unitRetire u) s = .next t ∧ (t.ras.unit u.toNat).state = .retired ∧ (t.ras.unit u.toNat).serves = none ∧
        (∀ a sp rest, (s.ras.unit u.toNat).serves = some a → s.ras.spares (unitDie u.toNat) (rerunUnits s) = sp :: rest →
          (t.ras.unit sp).serves = some a ∧ (t.ras.unit sp).state = .inService) ∧
        (∀ a, (s.ras.unit u.toNat).serves = some a → s.ras.spares (unitDie u.toNat) (rerunUnits s) = [] → a ∈ t.ras.lostPending) ∧
        t.ras.auditCount = s.ras.auditCount + (if ((s.ras.unit u.toNat).serves.or (s.ras.unit u.toNat).takenFrom).any (fun a =>
          (s.ras.spares (unitDie u.toNat) (rerunUnits s)).isEmpty && !s.ras.lostPending.contains a) then 2 else 1) ∧ OnlyTouches [.free, .ras] s t) ∧
    (mayClear s u.toNat →
      ∃ t, exec (.suspectClear u) s = .next t ∧ t.ras.unit u.toNat = { s.ras.unit u.toNat with suspect := false } ∧ (∀ v, v ≠ u.toNat → t.ras.unit v = s.ras.unit v) ∧ OnlyTouches [.ras] s t)) ∧
  (∀ s : State,
    (∀ (p : PartId) (off bank : Nat), off < windowBytes s.parts[p].force.bitmap → bank < 1024 → s.pow.mod = .active →
      (∃ t, exec (.windowEccError p off bank true) s = .next t ∧ winPoisoned t.mem p off 1 ∧ t.ras.auditCount = s.ras.auditCount + 1 ∧ (t.ras.unit (0x3000 + bank)).strikeFrames = frameNow s :: (s.ras.unit (0x3000 + bank)).strikeFrames ∧
        t.mem.window = s.mem.window) ∧
      (∃ t, exec (.windowEccError p off bank false) s = .next t ∧ t.mem = s.mem ∧ OnlyTouches [.ras] s t)) ∧
    (∀ (k : StackId) (row : Nat), s.pow.domains[stackDie k] = .up → k.val ∉ s.mem.stacksFailed →
      (∃ t, exec (.hbmRowRepair k row true) s = .next t ∧ t.ras.hbmRows = s.ras.hbmRows + 1 ∧ t.ras.hbmBanks = s.ras.hbmBanks ∧ t.ras.repairGen = s.ras.repairGen + 1 ∧
        (k.val, row) ∈ t.ras.pendingHbm ∧ OnlyTouches [.free, .ras] s t) ∧
      (∃ t, exec (.hbmRowRepair k row false) s = .next t ∧ t.ras.hbmBanks = s.ras.hbmBanks + 1 ∧ t.ras.hbmRows = s.ras.hbmRows ∧ t.ras.repairGen = s.ras.repairGen + 1 ∧
        OnlyTouches [.free, .ras] s t)) ∧
    (∀ (d : DieId) (c : Nat), s.pow.domains[d] = .up → c < 255 →
      ∃ t, exec (.dieTemperature (.die d) c) s = .next t ∧ t.pow.temps[d] = BitVec.ofNat 8 c ∧ (∀ e : DieId, e ≠ d → t.pow.temps[e] = s.pow.temps[e]) ∧
        (∀ h : d.val < 4, t.pow.hot[d.val] = decide (s.gov.inForce.2.2.1 ≤ c)) ∧ OnlyTouches [.out, .dict, .pow] s t) ∧
    (∀ (k : StackId) (c : Nat), s.pow.domains[stackDie k] = .up → k.val ∉ s.mem.stacksFailed → 85 < c →
      ∃ t, exec (.dieTemperature (.stack k) c) s = .next t ∧ k ∈ t.mem.doubledRefresh ∧ OnlyTouches [.mem] s t))

/-- Energy and occupancy (R517 to R520, R533): below 5 W nothing is added and above 5,000 W the increment is clipped; LH_PULSE marks each 10 J; an occupancy entry counts for its partition. Frame and minute records (R521 to R526, R530): an overdue strobe and a self-timed second close the open frame record with the next number; a due minute closes into the chain; a loss of power closes both, and the Lighthouse starts again when the input returns. Readings and choices of the model that it rests on: notes/assumptions/66.md, 67.md, 68.md. -/
def Obligations.LighthouseRecordsCloseInOrder : Prop :=
  (∀ s : State, s.lh.powered →
    (∀ uj : Nat, uj < 625 → ∃ t, exec (.adcSample uj) s = .next t ∧ t.lh.accUj = s.lh.accUj ∧ t.lh.totalUj = s.lh.totalUj ∧ t.lh.belowUs = s.lh.belowUs + 125 ∧ t.out = s.out ∧ OnlyTouches [.lh] s t) ∧
    (∀ uj : Nat, 625 ≤ uj → uj ≤ 625000 →
      ∃ t, exec (.adcSample uj) s = .next t ∧ t.lh.accUj = s.lh.accUj + uj ∧ t.lh.totalUj = s.lh.totalUj + uj ∧
        t.out = s.out ++ (if (s.lh.totalUj + uj) / 10000000 = s.lh.totalUj / 10000000 then [] else [.lhPulse]) ∧ OnlyTouches [.out, .lh] s t) ∧
    (∀ uj : Nat, 625000 < uj → ∃ t, exec (.adcSample uj) s = .next t ∧ t.lh.totalUj = s.lh.totalUj + 625000 ∧ t.lh.overUs = s.lh.overUs + 125 ∧ OnlyTouches [.out, .lh] s t) ∧
    (∀ (die : Fin 4) (seq e : Byte) (p : PartId), s.pow.domains[die.val] = .up → s.lh.gathered = [] → (∀ k, s.lh.tapSeq[die] = some k → seq = k + 1) → e.toNat % 128 = p.val →
      ∃ t, exec (.occupancyWord die seq (e :: List.replicate 33 0x7F)) s = .next t ∧ t.lh.counts[p] = s.lh.counts[p] + 1 ∧ (∀ p' : PartId, p' ≠ p → t.lh.counts[p'] = s.lh.counts[p']) ∧
        t.lh.gapUs = s.lh.gapUs ∧ t.lh.tapSeq[die] = some seq ∧ OnlyTouches [.lh] s t)) ∧
  (∀ s : State,
    (∀ us n, s.lh.powered → s.lh.lastFrame = some n → minuteDue s.lh = false →
      ∃ t r, exec (.strobeOverdue us) s = .next t ∧ t.out = s.out ++ [.recordLine r] ∧ r.frame = n + 1 ∧ r.seq = s.lh.seq ∧ r.energyMj = s.lh.accUj / 1000 ∧ r.lengthUs = us ∧ t.lh.seq = s.lh.seq + 1 ∧
        t.lh.accUj = s.lh.accUj % 1000 ∧ t.lh.lastFrame = some (n + 1) ∧ t.lh.holdover = true ∧ t.lh.gathered = s.lh.gathered ++ [r] ∧ t.lh.minute = s.lh.minute ∧ OnlyTouches [.out, .lh, .dict] s t) ∧
    (s.lh.powered → s.tick.joined = false → minuteDue s.lh = false →
      ∃ t r, exec .selfTimedClose s = .next t ∧ t.out = s.out ++ [.recordLine r] ∧ r.frame = 2 ^ 64 - 1 ∧ r.seq = s.lh.seq ∧ r.lengthUs = 1000000 ∧ t.lh.seq = s.lh.seq + 1 ∧
        t.lh.gathered = s.lh.gathered ++ [r] ∧ OnlyTouches [.out, .lh, .dict] s t) ∧
    (s.lh.powered → minuteDue s.lh → s.lh.minutes.length < 60 * flashHours → s.lh.minute % 60 ≠ 59 →
      ∃ t m, exec .minuteClose s = .next t ∧ t.lh.minutes = s.lh.minutes ++ [m] ∧ m.minute = s.lh.minute ∧ m.records = s.lh.gathered.length ∧ m.energyMj = sumBy (·.energyMj) s.lh.gathered ∧
        t.lh.chain = some (chainNext (s.lh.chain.getD chainInit) m) ∧ t.lh.minute = s.lh.minute + 1 ∧ t.lh.gathered = [] ∧ t.lh.seals = s.lh.seals ∧ OnlyTouches [.lh] s t) ∧
    (s.lh.powered → minuteDue s.lh → s.lh.minutes.length < 60 * flashHours → s.lh.minute % 60 = 59 →
      ∃ t m h, exec .minuteClose s = .next t ∧ t.lh.minutes = s.lh.minutes ++ [m] ∧ t.lh.seals = s.lh.seals ++ [h] ∧ h.hour = s.lh.minute / 60 ∧
        h.chain = chainNext (s.lh.chain.getD chainInit) m ∧ OnlyTouches [.lh] s t) ∧
    (∀ us, s.lh.powered → s.pow.input = false → minuteDue s.lh = false → s.lh.minutes.length < 60 * flashHours →
      ∃ t r m, exec (.lhPowerLoss us) s = .next t ∧ t.lh.powered = false ∧ t.out = s.out ++ [.recordLine r] ∧ t.lh.minutes = s.lh.minutes ++ [m] ∧ m.records = s.lh.gathered.length + 1 ∧
        t.lh.chain = some (chainNext (s.lh.chain.getD chainInit) m) ∧ t.lh.seals = s.lh.seals ∧ t.lh.ring = [] ∧ OnlyTouches [.out, .lh, .dict] s t) ∧
    (s.lh.powered = false → s.pow.input →
      ∃ t, exec .lhPowerOn s = .next t ∧ t.lh.powered = true ∧ t.lh.powerOn = true ∧ t.lh.minutes = s.lh.minutes ∧ t.lh.chain.isSome ∧ t.lh.seals.length = s.lh.seals.length + s.lh.sealDue.length ∧
        (s.lh.sealed → t.lh.calNonce = 0) ∧ OnlyTouches [.free, .lh] s t))

/-- Calibration, seal, reads and silence (R531, R532, R535, R537): a change counts only when accepted and uses up its nonce; a request that meets R532 seals for good; a read is answered as it is stored; a silent record line raises its alert once. Readings and choices of the model that it rests on: notes/assumptions/3.md, 69.md. -/
def Obligations.TheLighthouseIsCalibratedSealedAndRead : Prop :=
  ∀ s : State,
    (∀ c : Calibration, s.lh.powered →
      ∃ t, exec (.calibrationChange c) s = .next t ∧ t.lh.sealCount = s.lh.sealCount + (if calOk s.lh c then 1 else 0) ∧ t.lh.calPending = (if calOk s.lh c then some c.body else s.lh.calPending) ∧
        t.lh.calNonce = (if s.lh.sealed then 0 else Config.entropy s.free) ∧ t.lh.minutes = s.lh.minutes ∧ OnlyTouches [.free, .lh] s t) ∧
    (∀ b : Bytes, s.lh.powered → s.pow.mgmtUp →
      let accepted : Prop := (signedReq b).format = 1 ∧ (signedReq b).reservedZero ∧ (signedReq b).target ∈ [3, 4, 5] ∧ (signedReq b).unit = Config.unitId ∧ (signedReq b).signed Config.lhLifeCycleDigest "JT480 LIFE CYCLE"
      ∃ t, exec (.lhSealRequest b) s = .next t ∧ ((accepted ∧ t = { s with lh := { s.lh with sealed := true, calNonce := 0 } }) ∨ (¬accepted ∧ t = s))) ∧
    (∀ r : LhRead, s.lh.powered → s.pow.mgmtUp → exec (.lhReadRequest r) s = .next (s.emit [.lhAnswer ((lhFind s.lh r).getD [])])) ∧
    (∀ m ∈ s.lh.minutes, lhFind s.lh (.minute m.minute) ≠ none) ∧
    (s.pow.mgmtUp → s.lh.silent = false →
      ∃ t, exec .lighthouseSilent s = .next t ∧ t.lh = { s.lh with silent := true } ∧ t.dict.lhAlert = true ∧ t.ras.auditCount = s.ras.auditCount + 1 ∧
        t.out = s.out ++ (s.dict.notify (isFerry s) 3 0xFF (frameNow s) (s.ras.auditCount + 1)).2) ∧
    (s.pow.mgmtUp → s.lh.silent = true → exec .lighthouseSilent s = .next s)

/-- Input and resets (R572, R589, R592): the input's fall or an over-voltage takes everything but the Lighthouse, a held reset keeps all of it down, and every boot counts, sets its cause and starts with no session, no flow and every partition FREE. MOD_PWR_EN and the thermal trip (R584, R590, R591, R575): the pin's rise wakes a module in STANDBY, its fall takes an ACTIVE one down; a trip takes every compute domain off at once. -/
def Obligations.PowerEventsMoveTheModule : Prop :=
  (∀ s : State,
    (s.pow.input →
      ∀ c, c = .inputTurnOff ∨ c = .overVoltage → ∃ t, exec c s = .next t ∧ t.pow.mod = .off ∧ t.pow.mgmtUp = false ∧ t.pow.input = false ∧ t.dict.sessions = [] ∧ t.fab.flows = [] ∧ t.keys.slots = [] ∧
        (∀ p : PartId, t.parts[p].state = .free) ∧ t.fw.floor = s.fw.floor ∧ t.life.operatorDigest = s.life.operatorDigest ∧ t.lh.powered = s.lh.powered ∧ t.out = s.out) ∧
    (s.pow.resetLow = false → s.pow.input →
      ∃ t, exec .modResetNAssert s = .next t ∧ t.pow.resetLow = true ∧ t.pow.mgmtUp = false ∧ t.pow.mod = .off ∧ t.dict.sessions = [] ∧ t.fab.flows = [] ∧ (∀ p : PartId, t.parts[p].state = .free) ∧
        t.out = s.out) ∧
    (s.pow.resetLow → s.pow.input →
      ∃ t, exec .modResetNRelease s = .next t ∧ t.pow.resetLow = false ∧ t.pow.mgmtUp = true ∧ t.pow.boots = s.pow.boots + 1 ∧ t.pow.cause = 2 ∧ t.dict.sessions = [] ∧ t.fab.flows = []) ∧
    (s.pow.mgmtUp → ∃ t, exec .watchdogExpire s = .next t ∧ t.pow.mgmtUp = true ∧ t.pow.boots = s.pow.boots + 1 ∧ t.pow.cause = 5 ∧ t.dict.sessions = [] ∧ t.fab.flows = []) ∧
    (s.pow.input = false → s.pow.resetLow = false →
      ∃ t, exec (.inputTurnOn true) s = .next t ∧ t.pow.input = true ∧ t.pow.mgmtUp = true ∧ t.pow.boots = s.pow.boots + 1 ∧ t.pow.cause = 1 ∧ t.dict.sessions = [] ∧ t.fab.flows = []) ∧
    (s.pow.input = false → exec (.inputTurnOn false) s = .next { s with pow := { s.pow with input := true } })) ∧
  (∀ s : State,
    (s.pow.pwrEn = false → s.pow.mgmtUp → s.pow.mod = .standby → s.pow.tripped = false → s.pow.scrapped = false → s.pow.domains[4] ≠ .failed →
      ∃ t, exec .modPwrEnRise s = .next t ∧ t.pow.pwrEn = true ∧ t.pow.mod = .booting ∧ t.pow.lastWake = 3 ∧ t.pow.domains[4] = .powering 1 [] false) ∧
    (s.pow.pwrEn = true → s.pow.mod = .active →
      ∃ t, exec .modPwrEnFall s = .next t ∧ t.pow.pwrEn = false ∧ t.pow.tripped = false ∧ t.pow.mod = .stopping ∧ t.pow.target = some .standby ∧ t.tick.joined = false ∧
        (∀ p : PartId, t.parts[p].state = .free) ∧ t.fab.flows = []) ∧
    (∀ d : DieId, s.pow.domains[d] ≠ .off → s.pow.domains[d] ≠ .failed →
      ∃ t, exec (.thermalTrip d) s = .next t ∧ t.pow.mod = .standby ∧ t.pow.tripped = true ∧ (∀ e : DieId, t.pow.domains[e] = .off ∧ t.pow.temps[e] = 0xFF) ∧ t.tick.joined = false ∧
        (∀ p : PartId, t.parts[p].state = .free) ∧ t.fab.flows = []))

/-- Wakes (R303, R304, R590): energy on an armed strait, the wake frame of this unit, and a WAKE packet for this device wake a module in DOZE; a frame that is none only counts. STATE_REQUEST in ACTIVE (R581, R582, R584): DOZE and STANDBY of a module that has joined the tick wait for the next tick; ACTIVE takes back what waits; DOZE is denied while a session runs or a borrower's bytes stand. Readings and choices of the model that it rests on: notes/assumptions/8.md, 50.md, 52.md. -/
def Obligations.WakesAndStateRequests : Prop :=
  (∀ s : State, s.pow.mgmtUp → s.pow.mod = .doze → s.pow.pwrEn → s.pow.tripped = false →
    (∀ k : StraitId, s.fab.straits[k].mode = 1 → s.fab.straits[k].link ≠ .up →
      ∃ t, exec (.straitSignalWake k) s = .next t ∧ t.pow.mod = .starting ∧ t.pow.lastWake = 1 ∧ t.pow.target = some .active ∧ (∀ d : DieId, d.val < 4 → s.pow.domains[d] ≠ .failed → t.pow.domains[d] = .powering 1 [] false) ∧
        t.pow.domains[4] = s.pow.domains[4] ∧ OnlyTouches [.pow] s t) ∧
    (∃ t, exec (.sidebandWakeFrame 0x88B5 unitIdBytes true) s = .next t ∧ t.pow.mod = .starting ∧ t.pow.lastWake = 2 ∧ OnlyTouches [.dict, .pow] s t) ∧
    (∀ (e : BitVec 16) (b : Bytes), exec (.sidebandWakeFrame e b false) s = .next { s with dict := s.dict.frames 1 1 }) ∧
    (∀ (p : Pkt) (x : Flow), Arrives s p 9 x → s.fab.idInForce ≠ 0xFFFF →
      ∃ t, exec (.wakePacket p s.fab.idInForce) s = .next t ∧ t.pow.mod = .starting ∧ t.pow.lastWake = 6 ∧ getFlow t p.flow = some (x.took p (frameNow s)) ∧
        t.out = (afterTaking p 9 0 0 x s).out ++ [.ack p.flow p.psn] ∧ OnlyTouches [.out, .fab, .pow] s t)) ∧
  (∀ (s : State) (q : Req), reachable s → served s 0x1100 → isOperator s q → s.pow.mod = .active →
    (s.tick.joined → dozeBarred s = false →
      exec (.stateRequestDoze q) s = .next (answer q ({ s with pow := { s.pow with request := 2, atTick := some .doze, windowRun := false } }, .done))) ∧
    (dozeBarred s → exec (.stateRequestDoze q) s = .next (answer q (s, .denied))) ∧
    (s.tick.joined → (∀ p : PartId, s.parts[p].state = .free) →
      exec (.stateRequestStandby q) s = .next (answer q ({ s with pow := { s.pow with request := 1, atTick := some .standby, windowRun := false } }, .done))) ∧
    ((∃ p : PartId, s.parts[p].state ≠ .free) → exec (.stateRequestStandby q) s = .next (answer q (s, .denied))) ∧
    exec (.stateRequestActive q) s = .next (answer q ({ s with pow := { s.pow with request := 3, atTick := none, latched := none } }, .done)))

/-- The sequences of the compute domains (R582, R585 to R588): each ready signal starts the next step, a time-out repeats the sequence once, DOZE saves the roots and takes the array dies down, and the last domain off ends the shut-down. -/
def Obligations.DomainsFollowTheirSequences : Prop :=
  ∀ s : State,
    (∀ (d : DieId) (l : List Nat) (r : Bool), s.pow.domains[d] = .powering 1 l r →
      (∃ t, exec (.domainReady d .railGood) s = .next t ∧ t.pow.domains[d] = .powering 2 l r ∧ (∀ e : DieId, e ≠ d → t.pow.domains[e] = s.pow.domains[e]) ∧ OnlyTouches [.pow] s t) ∧
      (s.pow.fromDoze = false → r = false →
        ∃ t, exec (.domainReadyTimeout d .railGood) s = .next t ∧ t.pow.domains[d] = .powering 1 [] true ∧ (∀ e : DieId, e ≠ d → t.pow.domains[e] = s.pow.domains[e]) ∧ OnlyTouches [.pow] s t)) ∧
    (∀ (d : DieId) (l : List Nat) (r : Bool), s.pow.domains[d] = .powering 2 l r →
      ∃ t, exec (.domainReady d .pllLock) s = .next t ∧ t.pow.domains[d] = .powering 3 l r ∧ OnlyTouches [.pow] s t) ∧
    (∀ (l : List Nat) (r : Bool), s.pow.domains[4] = .powering 3 l r →
      ∃ t, exec (.domainReady 4 .repairDone) s = .next t ∧ t.pow.domains[4] = .powering 5 l r ∧ OnlyTouches [.pow] s t) ∧
    (∀ (d : DieId) (l : List Nat) (r : Bool), d.val < 4 → s.pow.domains[d] = .powering 3 l r → stacksLeft d l s ≠ [] →
      ∃ t, exec (.domainReady d .repairDone) s = .next t ∧ t.pow.domains[d] = .powering 4 l r ∧ OnlyTouches [.pow] s t) ∧
    (∀ (d : DieId) (l : List Nat) (r : Bool), d.val < 4 → s.pow.domains[d] = .powering 5 l r → s.pow.mod = .booting →
      ∃ t, exec (.domainReady d .logicReady) s = .next t ∧ t.pow.domains[d] = .up ∧ OnlyTouches [.pow] s t) ∧
    (s.pow.windowRun → s.pow.atTick = some .doze → s.pow.target = some .doze → (∀ d : DieId, d.val < 4 → s.pow.domains[d] = .up) →
      ∃ t, exec (.dozeEntry []) s = .next t ∧ t.mem.selfRefresh = true ∧ t.mem.cache = [] ∧ t.mem.dirty = [] ∧ t.mem.savedRoots = (List.finRange 24).flatMap (fun k => stackRoots s.mem k) ∧
        (∀ d : DieId, d.val < 4 → t.pow.domains[d] = .stopping) ∧ t.pow.domains[4] = s.pow.domains[4] ∧ t.pow.windowRun = false ∧ OnlyTouches [.mem, .pow] s t) ∧
    (∀ d : DieId, d.val < 4 → s.pow.domains[d] = .stopping → s.pow.target = some .doze → s.pow.latched = none → (∀ e : DieId, e.val < 4 → e ≠ d → s.pow.domains[e] ≠ .stopping) →
      ∃ t, exec (.domainOff d) s = .next t ∧ t.pow.mod = .doze ∧ t.pow.target = none ∧ t.pow.domains[d] = .off ∧ t.pow.temps[d] = 0xFF ∧ OnlyTouches [.out, .mem, .dict, .pow] s t) ∧
    (∀ d : DieId, d.val < 4 → s.pow.domains[d] = .stopping → s.pow.target = some .standby → s.pow.domains[4] = .stopping →
      ∃ t, exec (.domainOff d) s = .next t ∧ t.pow.mod = s.pow.mod ∧ t.pow.domains[d] = .off ∧ (∀ e : DieId, e ≠ d → t.pow.domains[e] = s.pow.domains[e]) ∧ OnlyTouches [.out, .mem, .dict, .pow] s t)

/-! ### Numbers -/

/-- Stored blocks (R17, R20): the exponent byte and what it means, the places of the elements in their bytes, and that what is written reads back. The need exponent of a block of values (R27): the smallest exponent of -127 to 127 under which every rounded value fits the format's largest code; 127 where none does; -127 for a block of zeros. -/
def Obligations.StoredBlocksReadAsTheirLayout : Prop :=
  (∀ b : Byte, (b = 0x80 → readExp b = none) ∧ (b.toNat ≤ 0x7F → readExp b = some (b.toNat : Int)) ∧ (0x81 ≤ b.toNat → readExp b = some ((b.toNat : Int) - 256)) ∧ writeExp (readExp b) = b) ∧
  (∀ (els : List Int) (i : Nat), elemVal { ex := none, els := els } i = .poison) ∧
  (∀ (fmt : Nat) (l : List Int) (i : Nat) (h : i < l.length),
    (fmt = 0 ∨ fmt = 3 → ((packElems fmt l).getD (i / 2) 0).toNat / 16 ^ (i % 2) % 16 = codeOf 4 l[i]) ∧
    (fmt = 2 ∨ fmt = 5 → leNat (slice (packElems fmt l) (2 * i) 2) = codeOf 16 l[i]) ∧ (fmt = 6 → leNat (slice (packElems fmt l) (4 * i) 4) = codeOf 32 l[i])) ∧
  (∀ (fmt : Nat) (l : List Int), fmt ≤ 7 → l.length % 2 = 0 → (∀ x ∈ l, minCode fmt ≤ x ∧ x ≤ maxCode fmt) → unpackElems fmt (packElems fmt l) = l) ∧
  (∀ (fmt : Nat) (vs : List A48), fmt ≤ 7 → anyPoison vs = false →
    let fits (e : Int) : Prop := ∀ el ex, A48.val el ex ∈ vs → (if fmt = 7 then rheShift el (ex - e) ≤ 255 else (rheShift el (ex - e)).natAbs ≤ (maxCode fmt).natAbs)
    ((-127 : Int) ≤ needExp fmt vs) ∧ needExp fmt vs ≤ 127 ∧ (fits (needExp fmt vs) ∨ needExp fmt vs = 127) ∧ (∀ e, -127 ≤ e → e < needExp fmt vs → ¬fits e) ∧
    ((∀ el ex, A48.val el ex ∈ vs → el = 0) → needExp fmt vs = -127))

/-- Rounding and precedence (R10, R24): the rounded quotient is nearest, and even where two are; a record's code is one of its conditions, or DONE, and none of its conditions stands before it in the order of R10. -/
def Obligations.RoundingAndPrecedence : Prop :=
  (∀ (a : Int) (d : Nat), 0 < d → 2 * (rheDiv a d * d - a).natAbs ≤ d ∧ (2 * (rheDiv a d * d - a).natAbs = d → rheDiv a d % 2 = 0)) ∧
  (∀ l : List Status, (Status.choose l = .done ∨ Status.choose l ∈ l) ∧
    let order : List Status := [.internal, .denied, .badDescriptor, .overlap, .keyRevoked, .integrity, .uncorrectable, .linkLost, .peerFailed, .snapshotLost, .quota, .stashFull, .poisonIn, .checkMismatch,
      .contribDropped, .split, .overrun, .gatheringLate, .deferred, .partialDone, .checkResolved, .rescaled, .saturated, .done]
    ∀ c ∈ l, order.idxOf (Status.choose l) ≤ order.idxOf c)

/-! ### Completion -/

/-- Every event of the module's own that has its cause answers a next state and changes only its groups: a tick, the work of an engine, a timer, a sensor, a pin, the Lighthouse. `Cause` says for each of them what the spec asks of the state and the operands. Readings and choices of the model that it rests on: notes/assumptions/25.md. -/
def Obligations.EventsRunWhereTheirCauseStands : Prop :=
  ∀ (c : Instr) (s : State), Cause c s → ∃ t, exec c s = .next t ∧ OnlyTouches (touches c) s t
end

