-- ==== Sys2Proof/Laws/Frames.lean ====
section
/-!
SUPPORT. Laws/Frames.lean: for each operation that works on State, the groups of the state that it can change (`OnlyTouches`), built up from the named updates; the frames of the commands rest on these.
-/

namespace Sys2Proof.Machine
theorem OnlyTouches.refl (gs : List Group) (s : State) : OnlyTouches gs s s := rfl
theorem OnlyTouches.trans {gs : List Group} {a b c : State} (h : OnlyTouches gs a b) (k : OnlyTouches gs b c) : OnlyTouches gs a c := by
  unfold OnlyTouches at *; rw [k, h]
theorem OnlyTouches.upd {gs : List Group} {s b : State} {p x_out x_free x_tick x_gov x_parts x_rings x_arrays x_mem x_fab x_keys x_bind x_life x_ras x_lh x_dict x_side x_pow x_fw} (hs : OnlyTouches gs s b) (hp : p = b.pending)
    (h_out : Group.out ∈ gs ∨ x_out = b.out)
    (h_free : Group.free ∈ gs ∨ x_free = b.free)
    (h_tick : Group.tick ∈ gs ∨ x_tick = b.tick)
    (h_gov : Group.gov ∈ gs ∨ x_gov = b.gov)
    (h_parts : Group.parts ∈ gs ∨ x_parts = b.parts)
    (h_rings : Group.rings ∈ gs ∨ x_rings = b.rings)
    (h_arrays : Group.arrays ∈ gs ∨ x_arrays = b.arrays)
    (h_mem : Group.mem ∈ gs ∨ x_mem = b.mem)
    (h_fab : Group.fab ∈ gs ∨ x_fab = b.fab)
    (h_keys : Group.keys ∈ gs ∨ x_keys = b.keys)
    (h_bind : Group.bind ∈ gs ∨ x_bind = b.bind)
    (h_life : Group.life ∈ gs ∨ x_life = b.life)
    (h_ras : Group.ras ∈ gs ∨ x_ras = b.ras)
    (h_lh : Group.lh ∈ gs ∨ x_lh = b.lh)
    (h_dict : Group.dict ∈ gs ∨ x_dict = b.dict)
    (h_side : Group.side ∈ gs ∨ x_side = b.side)
    (h_pow : Group.pow ∈ gs ∨ x_pow = b.pow)
    (h_fw : Group.fw ∈ gs ∨ x_fw = b.fw) :
    OnlyTouches gs s (State.mk p x_out x_free x_tick x_gov x_parts x_rings x_arrays x_mem x_fab x_keys x_bind x_life x_ras x_lh x_dict x_side x_pow x_fw) := by
  refine hs.trans ?_
  unfold OnlyTouches State.hide
  congr 1
  all_goals (split <;> simp_all)
theorem fst_only {α : Type} {gs : List Group} {s t : State} {p : State × α} {r : α} (e : p = (t, r)) (h : OnlyTouches gs s p.1) : OnlyTouches gs s t := by
  subst e; exact h
theorem snd_only {α : Type} {gs : List Group} {s t : State} {p : α × State} {r : α} (e : p = (r, t)) (h : OnlyTouches gs s p.2) : OnlyTouches gs s t := by
  subst e; exact h
theorem foldl_only {α : Type} {gs : List Group} {s b : State} {f : State → α → State} {l : List α} (hf : ∀ u x, OnlyTouches gs s u → OnlyTouches gs s (f u x)) (hs : OnlyTouches gs s b) :
    OnlyTouches gs s (l.foldl f b) := by
  induction l generalizing b with
  | nil => exact hs
  | cons x l ih => exact ih (hf _ _ hs)
theorem foldl_fst_only {α β : Type} {gs : List Group} {s : State} {b : State × β} {f : State × β → α → State × β} {l : List α}
    (hf : ∀ (u : State × β) x, OnlyTouches gs s u.1 → OnlyTouches gs s (f u x).1) (hs : OnlyTouches gs s b.1) :
    OnlyTouches gs s (l.foldl f b).1 := by
  induction l generalizing b with
  | nil => exact hs
  | cons x l ih => exact ih (hf _ _ hs)
theorem foldl_by_only {α β : Type} {π : β → State} {gs : List Group} {s : State} {b : β} {f : β → α → β} {l : List α}
    (hf : ∀ (u : β) x, OnlyTouches gs s (π u) → OnlyTouches gs s (π (f u x))) (hs : OnlyTouches gs s (π b)) :
    OnlyTouches gs s (π (l.foldl f b)) := by
  induction l generalizing b with
  | nil => exact hs
  | cons x l ih => exact ih (hf _ _ hs)
theorem State_emit_only {gs : List Group} {s : State} {a0 a1} (hs : OnlyTouches gs s a0) (h_out : Group.out ∈ gs) :
    OnlyTouches gs s (State.emit a0 a1) := by
  unfold State.emit
  iterate 40 all_goals (try first
    | with_reducible assumption
    | split
    | dsimp only
    | with_reducible refine OnlyTouches.upd ?_ rfl (.inl h_out) (.inr rfl) (.inr rfl) (.inr rfl) (.inr rfl) (.inr rfl) (.inr rfl) (.inr rfl) (.inr rfl) (.inr rfl) (.inr rfl) (.inr rfl) (.inr rfl) (.inr rfl) (.inr rfl) (.inr rfl) (.inr rfl) (.inr rfl)
    )

theorem State_emitOver_only {gs : List Group} {s : State} {a0 a1 a2} (hs : OnlyTouches gs s a2) (h_out : Group.out ∈ gs) (h_dict : Group.dict ∈ gs) :
    OnlyTouches gs s (State.emitOver a0 a1 a2) := by
  unfold State.emitOver
  iterate 40 all_goals (try first
    | with_reducible assumption
    | with_reducible refine State_emit_only ?_ h_out
    | split
    | dsimp only
    | with_reducible refine OnlyTouches.upd ?_ rfl (.inl h_out) (.inr rfl) (.inr rfl) (.inr rfl) (.inr rfl) (.inr rfl) (.inr rfl) (.inr rfl) (.inr rfl) (.inr rfl) (.inr rfl) (.inr rfl) (.inr rfl) (.inr rfl) (.inl h_dict) (.inr rfl) (.inr rfl) (.inr rfl)
    )

theorem State_entropy_only {gs : List Group} {s : State} {a0} (hs : OnlyTouches gs s a0) (h_free : Group.free ∈ gs) :
    OnlyTouches gs s (State.entropy a0).2 := by
  unfold State.entropy
  iterate 40 all_goals (try first
    | with_reducible assumption
    | split
    | dsimp only
    | with_reducible refine OnlyTouches.upd ?_ rfl (.inr rfl) (.inl h_free) (.inr rfl) (.inr rfl) (.inr rfl) (.inr rfl) (.inr rfl) (.inr rfl) (.inr rfl) (.inr rfl) (.inr rfl) (.inr rfl) (.inr rfl) (.inr rfl) (.inr rfl) (.inr rfl) (.inr rfl) (.inr rfl)
    )

theorem State_hear_only {gs : List Group} {s : State} {a0 a1} (hs : OnlyTouches gs s a1) (h_dict : Group.dict ∈ gs) :
    OnlyTouches gs s (State.hear a0 a1) := by
  unfold State.hear
  iterate 40 all_goals (try first
    | with_reducible assumption
    | split
    | dsimp only
    | with_reducible refine OnlyTouches.upd ?_ rfl (.inr rfl) (.inr rfl) (.inr rfl) (.inr rfl) (.inr rfl) (.inr rfl) (.inr rfl) (.inr rfl) (.inr rfl) (.inr rfl) (.inr rfl) (.inr rfl) (.inr rfl) (.inr rfl) (.inl h_dict) (.inr rfl) (.inr rfl) (.inr rfl)
    )

theorem State_putVM_only {gs : List Group} {s : State} {a0 a1} (hs : OnlyTouches gs s a0) (h_out : Group.out ∈ gs) (h_free : Group.free ∈ gs) (h_parts : Group.parts ∈ gs) (h_mem : Group.mem ∈ gs) (h_ras : Group.ras ∈ gs) (h_dict : Group.dict ∈ gs) :
    OnlyTouches gs s (State.putVM a0 a1) := by
  unfold State.putVM
  iterate 40 all_goals (try first
    | with_reducible assumption
    | split
    | dsimp only
    | with_reducible refine OnlyTouches.upd ?_ rfl (.inl h_out) (.inl h_free) (.inr rfl) (.inr rfl) (.inl h_parts) (.inr rfl) (.inr rfl) (.inl h_mem) (.inr rfl) (.inr rfl) (.inr rfl) (.inr rfl) (.inl h_ras) (.inr rfl) (.inl h_dict) (.inr rfl) (.inr rfl) (.inr rfl)
    )

theorem setFlow_only {gs : List Group} {s : State} {a0 a1 a2} (hs : OnlyTouches gs s a2) (h_fab : Group.fab ∈ gs) :
    OnlyTouches gs s (setFlow a0 a1 a2) := by
  unfold setFlow
  iterate 40 all_goals (try first
    | with_reducible assumption
    | split
    | dsimp only
    | with_reducible refine OnlyTouches.upd ?_ rfl (.inr rfl) (.inr rfl) (.inr rfl) (.inr rfl) (.inr rfl) (.inr rfl) (.inr rfl) (.inr rfl) (.inl h_fab) (.inr rfl) (.inr rfl) (.inr rfl) (.inr rfl) (.inr rfl) (.inr rfl) (.inr rfl) (.inr rfl) (.inr rfl)
    )

theorem State_updStrait_only {gs : List Group} {s : State} {a0 a1 a2} (hs : OnlyTouches gs s a0) (h_fab : Group.fab ∈ gs) :
    OnlyTouches gs s (State.updStrait a0 a1 a2) := by
  unfold State.updStrait
  iterate 40 all_goals (try first
    | with_reducible assumption
    | split
    | dsimp only
    | with_reducible refine OnlyTouches.upd ?_ rfl (.inr rfl) (.inr rfl) (.inr rfl) (.inr rfl) (.inr rfl) (.inr rfl) (.inr rfl) (.inr rfl) (.inl h_fab) (.inr rfl) (.inr rfl) (.inr rfl) (.inr rfl) (.inr rfl) (.inr rfl) (.inr rfl) (.inr rfl) (.inr rfl)
    )

theorem sendFlit_only {gs : List Group} {s : State} {a0 a1 a2 a3 a4} (hs : OnlyTouches gs s a4) (h_fab : Group.fab ∈ gs) :
    OnlyTouches gs s (sendFlit a0 a1 a2 a3 a4) := by
  unfold sendFlit
  iterate 40 all_goals (try first
    | with_reducible assumption
    | with_reducible refine State_updStrait_only ?_ h_fab
    )

theorem pump_only {gs : List Group} {s b : State} {k n} (hs : OnlyTouches gs s b) (h_out : Group.out ∈ gs) (h_fab : Group.fab ∈ gs) :
    OnlyTouches gs s (pump k n b) := by
  induction n generalizing b with
  | zero => exact hs
  | succ n ih =>
    unfold pump
    split
    · exact hs
    · split
      · exact hs
      · exact ih (State_emit_only (sendFlit_only (State_updStrait_only hs h_fab) h_fab) h_out)

theorem drainQueue_only {gs : List Group} {s : State} {a0 a1} (hs : OnlyTouches gs s a1) (h_out : Group.out ∈ gs) (h_fab : Group.fab ∈ gs) :
    OnlyTouches gs s (drainQueue a0 a1) := by
  unfold drainQueue
  iterate 40 all_goals (try first
    | with_reducible assumption
    | with_reducible refine pump_only ?_ h_out h_fab
    | split
    )

theorem sendOn_only {gs : List Group} {s : State} {a0 a1 a2} (hs : OnlyTouches gs s a2) (h_out : Group.out ∈ gs) (h_fab : Group.fab ∈ gs) :
    OnlyTouches gs s (sendOn a0 a1 a2) := by
  unfold sendOn
  iterate 40 all_goals (try first
    | with_reducible assumption
    | with_reducible refine State_updStrait_only ?_ h_fab
    | with_reducible refine drainQueue_only ?_ h_out h_fab
    )

theorem routePkt_only {gs : List Group} {s : State} {a0 a1 a2 a3} (hs : OnlyTouches gs s a3) (h_out : Group.out ∈ gs) (h_fab : Group.fab ∈ gs) :
    OnlyTouches gs s (routePkt a0 a1 a2 a3) := by
  unfold routePkt
  iterate 40 all_goals (try first
    | with_reducible assumption
    | with_reducible refine sendOn_only ?_ h_out h_fab
    | with_reducible refine State_emit_only ?_ h_out
    | split
    | dsimp only
    | with_reducible refine OnlyTouches.upd ?_ rfl (.inl h_out) (.inr rfl) (.inr rfl) (.inr rfl) (.inr rfl) (.inr rfl) (.inr rfl) (.inr rfl) (.inl h_fab) (.inr rfl) (.inr rfl) (.inr rfl) (.inr rfl) (.inr rfl) (.inr rfl) (.inr rfl) (.inr rfl) (.inr rfl)
    )

theorem sendPktHops_only {gs : List Group} {s : State} {a0 a1 a2 a3 a4 a5 a6} (hs : OnlyTouches gs s a6) (h_out : Group.out ∈ gs) (h_fab : Group.fab ∈ gs) :
    OnlyTouches gs s (sendPktHops a0 a1 a2 a3 a4 a5 a6) := by
  unfold sendPktHops
  iterate 40 all_goals (try first
    | with_reducible assumption
    | with_reducible refine setFlow_only ?_ h_fab
    | with_reducible refine routePkt_only ?_ h_out h_fab
    | split
    )

theorem sendPkt_only {gs : List Group} {s : State} {a0 a1 a2 a3 a4 a5} (hs : OnlyTouches gs s a5) (h_out : Group.out ∈ gs) (h_fab : Group.fab ∈ gs) :
    OnlyTouches gs s (sendPkt a0 a1 a2 a3 a4 a5) := by
  unfold sendPkt
  iterate 40 all_goals (try first
    | with_reducible assumption
    | with_reducible refine sendPktHops_only ?_ h_out h_fab
    )

theorem sendT2_only {gs : List Group} {s : State} {a0 a1} (hs : OnlyTouches gs s a0) (h_out : Group.out ∈ gs) (h_mem : Group.mem ∈ gs) (h_fab : Group.fab ∈ gs) :
    OnlyTouches gs s (sendT2 a0 a1) := by
  unfold sendT2
  iterate 40 all_goals (try first
    | with_reducible assumption
    | with_reducible refine sendPkt_only ?_ h_out h_fab
    | split
    | dsimp only
    | with_reducible refine OnlyTouches.upd ?_ rfl (.inl h_out) (.inr rfl) (.inr rfl) (.inr rfl) (.inr rfl) (.inr rfl) (.inr rfl) (.inl h_mem) (.inl h_fab) (.inr rfl) (.inr rfl) (.inr rfl) (.inr rfl) (.inr rfl) (.inr rfl) (.inr rfl) (.inr rfl) (.inr rfl)
    )

theorem State_putWrites_only {gs : List Group} {s : State} {a0 a1} (hs : OnlyTouches gs s a0) (h_out : Group.out ∈ gs) (h_free : Group.free ∈ gs) (h_parts : Group.parts ∈ gs) (h_mem : Group.mem ∈ gs) (h_fab : Group.fab ∈ gs) (h_ras : Group.ras ∈ gs) (h_dict : Group.dict ∈ gs) :
    OnlyTouches gs s (State.putWrites a0 a1) := by
  unfold State.putWrites
  iterate 40 all_goals (try first
    | with_reducible assumption
    | with_reducible refine State_putVM_only ?_ h_out h_free h_parts h_mem h_ras h_dict
    | with_reducible refine sendT2_only ?_ h_out h_mem h_fab
    | with_reducible refine foldl_only (fun u x hu => ?_) ?_
    )

theorem State_updArray_only {gs : List Group} {s : State} {a0 a1 a2} (hs : OnlyTouches gs s a0) (h_arrays : Group.arrays ∈ gs) :
    OnlyTouches gs s (State.updArray a0 a1 a2) := by
  unfold State.updArray
  iterate 40 all_goals (try first
    | with_reducible assumption
    | split
    | dsimp only
    | with_reducible refine OnlyTouches.upd ?_ rfl (.inr rfl) (.inr rfl) (.inr rfl) (.inr rfl) (.inr rfl) (.inr rfl) (.inl h_arrays) (.inr rfl) (.inr rfl) (.inr rfl) (.inr rfl) (.inr rfl) (.inr rfl) (.inr rfl) (.inr rfl) (.inr rfl) (.inr rfl) (.inr rfl)
    )

theorem State_updPart_only {gs : List Group} {s : State} {a0 a1 a2} (hs : OnlyTouches gs s a0) (h_parts : Group.parts ∈ gs) :
    OnlyTouches gs s (State.updPart a0 a1 a2) := by
  unfold State.updPart
  iterate 40 all_goals (try first
    | with_reducible assumption
    | split
    | dsimp only
    | with_reducible refine OnlyTouches.upd ?_ rfl (.inr rfl) (.inr rfl) (.inr rfl) (.inr rfl) (.inl h_parts) (.inr rfl) (.inr rfl) (.inr rfl) (.inr rfl) (.inr rfl) (.inr rfl) (.inr rfl) (.inr rfl) (.inr rfl) (.inr rfl) (.inr rfl) (.inr rfl) (.inr rfl)
    )

theorem State_updRing_only {gs : List Group} {s : State} {a0 a1 a2 a3} (hs : OnlyTouches gs s a0) (h_rings : Group.rings ∈ gs) :
    OnlyTouches gs s (State.updRing a0 a1 a2 a3) := by
  unfold State.updRing
  iterate 40 all_goals (try first
    | with_reducible assumption
    | split
    | dsimp only
    | with_reducible refine OnlyTouches.upd ?_ rfl (.inr rfl) (.inr rfl) (.inr rfl) (.inr rfl) (.inr rfl) (.inl h_rings) (.inr rfl) (.inr rfl) (.inr rfl) (.inr rfl) (.inr rfl) (.inr rfl) (.inr rfl) (.inr rfl) (.inr rfl) (.inr rfl) (.inr rfl) (.inr rfl)
    )

theorem updSession_only {gs : List Group} {s : State} {a0 a1 a2} (hs : OnlyTouches gs s a2) (h_bind : Group.bind ∈ gs) :
    OnlyTouches gs s (updSession a0 a1 a2) := by
  unfold updSession
  iterate 40 all_goals (try first
    | with_reducible assumption
    | split
    | dsimp only
    | with_reducible refine OnlyTouches.upd ?_ rfl (.inr rfl) (.inr rfl) (.inr rfl) (.inr rfl) (.inr rfl) (.inr rfl) (.inr rfl) (.inr rfl) (.inr rfl) (.inr rfl) (.inl h_bind) (.inr rfl) (.inr rfl) (.inr rfl) (.inr rfl) (.inr rfl) (.inr rfl) (.inr rfl)
    )

theorem dropGrad_only {gs : List Group} {s : State} {a0 a1 a2} (hs : OnlyTouches gs s a2) (h_bind : Group.bind ∈ gs) :
    OnlyTouches gs s (dropGrad a0 a1 a2) := by
  unfold dropGrad
  iterate 40 all_goals (try first
    | with_reducible assumption
    | split
    | dsimp only
    | with_reducible refine OnlyTouches.upd ?_ rfl (.inr rfl) (.inr rfl) (.inr rfl) (.inr rfl) (.inr rfl) (.inr rfl) (.inr rfl) (.inr rfl) (.inr rfl) (.inr rfl) (.inl h_bind) (.inr rfl) (.inr rfl) (.inr rfl) (.inr rfl) (.inr rfl) (.inr rfl) (.inr rfl)
    )

theorem commitGrad_only {gs : List Group} {s : State} {a0 a1 a2 a3 a4} (hs : OnlyTouches gs s a4) (h_bind : Group.bind ∈ gs) :
    OnlyTouches gs s (commitGrad a0 a1 a2 a3 a4) := by
  unfold commitGrad
  iterate 40 all_goals (try first
    | with_reducible assumption
    | with_reducible refine updSession_only ?_ h_bind
    | with_reducible refine dropGrad_only ?_ h_bind
    | with_reducible refine foldl_only (fun u x hu => ?_) ?_
    )

theorem writeRec_only {gs : List Group} {s : State} {a0 a1 a2 a3 a4} (hs : OnlyTouches gs s a4) (h_out : Group.out ∈ gs) (h_free : Group.free ∈ gs) (h_parts : Group.parts ∈ gs) (h_mem : Group.mem ∈ gs) (h_fab : Group.fab ∈ gs) (h_ras : Group.ras ∈ gs) (h_dict : Group.dict ∈ gs) :
    OnlyTouches gs s (writeRec a0 a1 a2 a3 a4).1 := by
  unfold writeRec
  iterate 40 all_goals (try first
    | with_reducible assumption
    | with_reducible refine State_putWrites_only ?_ h_out h_free h_parts h_mem h_fab h_ras h_dict
    | split
    )

theorem putEntries_only {gs : List Group} {s a : State} {p c b r} (hs : OnlyTouches gs s a) (h_out : Group.out ∈ gs) (h_free : Group.free ∈ gs) (h_parts : Group.parts ∈ gs) (h_mem : Group.mem ∈ gs) (h_fab : Group.fab ∈ gs) (h_ras : Group.ras ∈ gs) (h_dict : Group.dict ∈ gs) :
    OnlyTouches gs s (putEntries p c b r a).1 := by
  unfold putEntries
  refine foldl_fst_only (fun u x hu => ?_) hs
  refine foldl_fst_only (fun u x hu => ?_) hu
  split
  · exact writeRec_only hu h_out h_free h_parts h_mem h_fab h_ras h_dict
  · exact hu

theorem faultRing_only {gs : List Group} {s : State} {a0 a1 a2 a3} (hs : OnlyTouches gs s a3) (h_rings : Group.rings ∈ gs) :
    OnlyTouches gs s (faultRing a0 a1 a2 a3) := by
  unfold faultRing
  iterate 40 all_goals (try first
    | with_reducible assumption
    | with_reducible refine State_updRing_only ?_ h_rings
    )

theorem putSubject_only {gs : List Group} {s : State} {a0 a1 a2 a3 a4 a5 a6} (hs : OnlyTouches gs s a6) (h_out : Group.out ∈ gs) (h_free : Group.free ∈ gs) (h_parts : Group.parts ∈ gs) (h_mem : Group.mem ∈ gs) (h_fab : Group.fab ∈ gs) (h_ras : Group.ras ∈ gs) (h_dict : Group.dict ∈ gs) :
    OnlyTouches gs s (putSubject a0 a1 a2 a3 a4 a5 a6).1 := by
  unfold putSubject
  iterate 40 all_goals (try first
    | with_reducible assumption
    | with_reducible refine State_putWrites_only ?_ h_out h_free h_parts h_mem h_fab h_ras h_dict
    | split
    )

theorem advanceHead_only {gs : List Group} {s : State} {a0 a1 a2} (hs : OnlyTouches gs s a2) (h_parts : Group.parts ∈ gs) (h_rings : Group.rings ∈ gs) :
    OnlyTouches gs s (advanceHead a0 a1 a2) := by
  unfold advanceHead
  iterate 40 all_goals (try first
    | with_reducible assumption
    | with_reducible refine State_updPart_only ?_ h_parts
    | with_reducible refine State_updRing_only ?_ h_rings
    )

theorem countConds_only {gs : List Group} {s : State} {a0 a1 a2} (hs : OnlyTouches gs s a2) (h_out : Group.out ∈ gs) (h_free : Group.free ∈ gs) (h_parts : Group.parts ∈ gs) (h_mem : Group.mem ∈ gs) (h_ras : Group.ras ∈ gs) (h_dict : Group.dict ∈ gs) :
    OnlyTouches gs s (countConds a0 a1 a2) := by
  unfold countConds
  iterate 40 all_goals (try first
    | with_reducible assumption
    | with_reducible refine State_putVM_only ?_ h_out h_free h_parts h_mem h_ras h_dict
    | with_reducible refine foldl_only (fun u x hu => ?_) ?_
    )

theorem putRecord_only {gs : List Group} {s : State} {a0 a1 a2 a3 a4 a5 a6} (hs : OnlyTouches gs s a6) (h_out : Group.out ∈ gs) (h_free : Group.free ∈ gs) (h_parts : Group.parts ∈ gs) (h_mem : Group.mem ∈ gs) (h_fab : Group.fab ∈ gs) (h_ras : Group.ras ∈ gs) (h_dict : Group.dict ∈ gs) :
    OnlyTouches gs s (putRecord a0 a1 a2 a3 a4 a5 a6).1 := by
  unfold putRecord
  iterate 40 all_goals (try first
    | with_reducible assumption
    | with_reducible refine putSubject_only ?_ h_out h_free h_parts h_mem h_fab h_ras h_dict
    )

theorem retired_only {gs : List Group} {s a : State} {n p r c g} (hs : OnlyTouches gs s a) (h_out : Group.out ∈ gs) (h_free : Group.free ∈ gs) (h_parts : Group.parts ∈ gs) (h_rings : Group.rings ∈ gs) (h_mem : Group.mem ∈ gs) (h_fab : Group.fab ∈ gs) (h_ras : Group.ras ∈ gs) (h_dict : Group.dict ∈ gs) :
    OnlyTouches gs s (retired n p r c g a) := by
  induction n generalizing a c g with
  | zero => exact hs
  | succ n ih =>
    unfold retired
    split
    · exact advanceHead_only hs h_parts h_rings
    · split
      · exact State_updRing_only hs h_rings
      · dsimp only
        split
        · exact ih (fst_only (by assumption) (putRecord_only (countConds_only (State_updRing_only hs h_rings) h_out h_free h_parts h_mem h_ras h_dict) h_out h_free h_parts h_mem h_fab h_ras h_dict))
        · exact faultRing_only (fst_only (by assumption) (putRecord_only (countConds_only (State_updRing_only hs h_rings) h_out h_free h_parts h_mem h_ras h_dict) h_out h_free h_parts h_mem h_fab h_ras h_dict)) h_rings

theorem closeAttempt_only {gs : List Group} {s : State} {a0 a1} (hs : OnlyTouches gs s a1) (h_out : Group.out ∈ gs) (h_free : Group.free ∈ gs) (h_parts : Group.parts ∈ gs) (h_rings : Group.rings ∈ gs) (h_mem : Group.mem ∈ gs) (h_fab : Group.fab ∈ gs) (h_bind : Group.bind ∈ gs) (h_ras : Group.ras ∈ gs) (h_dict : Group.dict ∈ gs) :
    OnlyTouches gs s (closeAttempt a0 a1) := by
  unfold closeAttempt
  iterate 40 all_goals (try first
    | with_reducible assumption
    | with_reducible refine commitGrad_only ?_ h_bind
    | with_reducible refine putEntries_only ?_ h_out h_free h_parts h_mem h_fab h_ras h_dict
    | with_reducible refine State_updRing_only ?_ h_rings
    | with_reducible refine faultRing_only ?_ h_rings
    | with_reducible refine putSubject_only ?_ h_out h_free h_parts h_mem h_fab h_ras h_dict
    | with_reducible refine dropGrad_only ?_ h_bind
    | with_reducible refine retired_only ?_ h_out h_free h_parts h_rings h_mem h_fab h_ras h_dict
    | with_reducible refine fst_only (by assumption) ?_
    | split
    | dsimp only
    )

theorem updRun_only {gs : List Group} {s : State} {a0 a1 a2} (hs : OnlyTouches gs s a2) (h_rings : Group.rings ∈ gs) :
    OnlyTouches gs s (updRun a0 a1 a2) := by
  unfold updRun
  iterate 40 all_goals (try first
    | with_reducible assumption
    | with_reducible refine State_updRing_only ?_ h_rings
    | split
    )

theorem updEntry_only {gs : List Group} {s : State} {a0 a1 a2 a3} (hs : OnlyTouches gs s a3) (h_rings : Group.rings ∈ gs) :
    OnlyTouches gs s (updEntry a0 a1 a2 a3) := by
  unfold updEntry
  iterate 40 all_goals (try first
    | with_reducible assumption
    | with_reducible refine updRun_only ?_ h_rings
    )

theorem addConds_only {gs : List Group} {s : State} {a0 a1 a2 a3} (hs : OnlyTouches gs s a3) (h_rings : Group.rings ∈ gs) :
    OnlyTouches gs s (addConds a0 a1 a2 a3) := by
  unfold addConds
  iterate 40 all_goals (try first
    | with_reducible assumption
    | with_reducible refine updEntry_only ?_ h_rings
    )

theorem writeDest_only {gs : List Group} {s : State} {a0 a1 a2 a3 a4 a5 a6} (hs : OnlyTouches gs s a0) (h_out : Group.out ∈ gs) (h_free : Group.free ∈ gs) (h_parts : Group.parts ∈ gs) (h_arrays : Group.arrays ∈ gs) (h_mem : Group.mem ∈ gs) (h_fab : Group.fab ∈ gs) (h_ras : Group.ras ∈ gs) (h_dict : Group.dict ∈ gs) :
    OnlyTouches gs s (writeDest a0 a1 a2 a3 a4 a5 a6).1 := by
  unfold writeDest
  iterate 40 all_goals (try first
    | with_reducible assumption
    | with_reducible refine State_putVM_only ?_ h_out h_free h_parts h_mem h_ras h_dict
    | with_reducible refine State_updArray_only ?_ h_arrays
    | with_reducible refine State_putWrites_only ?_ h_out h_free h_parts h_mem h_fab h_ras h_dict
    | with_reducible refine foldl_only (fun u x hu => ?_) ?_
    | with_reducible refine foldl_fst_only (fun u x hu => ?_) ?_
    | split
    | dsimp only
    | with_reducible refine OnlyTouches.upd ?_ rfl (.inl h_out) (.inl h_free) (.inr rfl) (.inr rfl) (.inl h_parts) (.inr rfl) (.inl h_arrays) (.inl h_mem) (.inl h_fab) (.inr rfl) (.inr rfl) (.inr rfl) (.inl h_ras) (.inr rfl) (.inl h_dict) (.inr rfl) (.inr rfl) (.inr rfl)
    )

theorem countRemoteOn_only {gs : List Group} {s : State} {a0 a1 a2 a3} (hs : OnlyTouches gs s a3) (h_parts : Group.parts ∈ gs) :
    OnlyTouches gs s (countRemoteOn a0 a1 a2 a3) := by
  unfold countRemoteOn
  iterate 40 all_goals (try first
    | with_reducible assumption
    | with_reducible refine State_updPart_only ?_ h_parts
    )

theorem countRemote_only {gs : List Group} {s : State} {a0 a1 a2} (hs : OnlyTouches gs s a2) (h_parts : Group.parts ∈ gs) :
    OnlyTouches gs s (countRemote a0 a1 a2) := by
  unfold countRemote
  iterate 40 all_goals (try first
    | with_reducible assumption
    | with_reducible refine countRemoteOn_only ?_ h_parts
    )

theorem readSource_only {gs : List Group} {s : State} {a0 a1 a2 a3 a4 a5 a6} (hs : OnlyTouches gs s a0) (h_out : Group.out ∈ gs) (h_free : Group.free ∈ gs) (h_parts : Group.parts ∈ gs) (h_mem : Group.mem ∈ gs) (h_ras : Group.ras ∈ gs) (h_dict : Group.dict ∈ gs) :
    OnlyTouches gs s (readSource a0 a1 a2 a3 a4 a5 a6).1 := by
  unfold readSource
  iterate 40 all_goals (try first
    | with_reducible assumption
    | with_reducible refine State_putVM_only ?_ h_out h_free h_parts h_mem h_ras h_dict
    | with_reducible refine countRemote_only ?_ h_parts
    | split
    )

theorem copyGo_only {gs : List Group} {s b : State} {a e d f n k} (hs : OnlyTouches gs s b) (h_out : Group.out ∈ gs) (h_free : Group.free ∈ gs) (h_parts : Group.parts ∈ gs) (h_rings : Group.rings ∈ gs) (h_arrays : Group.arrays ∈ gs) (h_mem : Group.mem ∈ gs) (h_fab : Group.fab ∈ gs) (h_ras : Group.ras ∈ gs) (h_dict : Group.dict ∈ gs) :
    OnlyTouches gs s (copyGo a e d f n k b) := by
  induction k generalizing b with
  | zero => exact hs
  | succ k ih =>
    unfold copyGo
    split
    · exact hs
    · split
      · exact hs
      · dsimp only
        refine ih (updEntry_only (addConds_only ?_ h_rings) h_rings)
        split
        · exact readSource_only hs h_out h_free h_parts h_mem h_ras h_dict
        · exact writeDest_only (readSource_only hs h_out h_free h_parts h_mem h_ras h_dict) h_out h_free h_parts h_arrays h_mem h_fab h_ras h_dict

theorem copyTo_only {gs : List Group} {s : State} {a0 a1 a2 a3 a4 a5} (hs : OnlyTouches gs s a5) (h_out : Group.out ∈ gs) (h_free : Group.free ∈ gs) (h_parts : Group.parts ∈ gs) (h_rings : Group.rings ∈ gs) (h_arrays : Group.arrays ∈ gs) (h_mem : Group.mem ∈ gs) (h_fab : Group.fab ∈ gs) (h_ras : Group.ras ∈ gs) (h_dict : Group.dict ∈ gs) :
    OnlyTouches gs s (copyTo a0 a1 a2 a3 a4 a5) := by
  unfold copyTo
  iterate 40 all_goals (try first
    | with_reducible assumption
    | with_reducible refine copyGo_only ?_ h_out h_free h_parts h_rings h_arrays h_mem h_fab h_ras h_dict
    | split
    )

theorem copyFree_only {gs : List Group} {s : State} {a0 a1 a2 a3 a4} (hs : OnlyTouches gs s a4) (h_out : Group.out ∈ gs) (h_free : Group.free ∈ gs) (h_parts : Group.parts ∈ gs) (h_rings : Group.rings ∈ gs) (h_arrays : Group.arrays ∈ gs) (h_mem : Group.mem ∈ gs) (h_fab : Group.fab ∈ gs) (h_ras : Group.ras ∈ gs) (h_dict : Group.dict ∈ gs) :
    OnlyTouches gs s (copyFree a0 a1 a2 a3 a4) := by
  unfold copyFree
  iterate 40 all_goals (try first
    | with_reducible assumption
    | with_reducible refine copyTo_only ?_ h_out h_free h_parts h_rings h_arrays h_mem h_fab h_ras h_dict
    | split
    )

theorem spillMover_only {gs : List Group} {s : State} {a0 a1 a2 a3} (hs : OnlyTouches gs s a3) (h_out : Group.out ∈ gs) (h_free : Group.free ∈ gs) (h_parts : Group.parts ∈ gs) (h_rings : Group.rings ∈ gs) (h_arrays : Group.arrays ∈ gs) (h_mem : Group.mem ∈ gs) (h_fab : Group.fab ∈ gs) (h_ras : Group.ras ∈ gs) (h_dict : Group.dict ∈ gs) :
    OnlyTouches gs s (spillMover a0 a1 a2 a3) := by
  unfold spillMover
  iterate 40 all_goals (try first
    | with_reducible assumption
    | with_reducible refine updEntry_only ?_ h_rings
    | with_reducible refine copyFree_only ?_ h_out h_free h_parts h_rings h_arrays h_mem h_fab h_ras h_dict
    | split
    | dsimp only
    | with_reducible refine OnlyTouches.upd ?_ rfl (.inl h_out) (.inl h_free) (.inr rfl) (.inr rfl) (.inl h_parts) (.inl h_rings) (.inl h_arrays) (.inl h_mem) (.inl h_fab) (.inr rfl) (.inr rfl) (.inr rfl) (.inl h_ras) (.inr rfl) (.inl h_dict) (.inr rfl) (.inr rfl) (.inr rfl)
    )

theorem cutMovers_only {gs : List Group} {s : State} {a0 a1 a2} (hs : OnlyTouches gs s a2) (h_out : Group.out ∈ gs) (h_free : Group.free ∈ gs) (h_parts : Group.parts ∈ gs) (h_rings : Group.rings ∈ gs) (h_arrays : Group.arrays ∈ gs) (h_mem : Group.mem ∈ gs) (h_fab : Group.fab ∈ gs) (h_ras : Group.ras ∈ gs) (h_dict : Group.dict ∈ gs) :
    OnlyTouches gs s (cutMovers a0 a1 a2) := by
  unfold cutMovers
  iterate 40 all_goals (try first
    | with_reducible assumption
    | with_reducible refine spillMover_only ?_ h_out h_free h_parts h_rings h_arrays h_mem h_fab h_ras h_dict
    | with_reducible refine copyFree_only ?_ h_out h_free h_parts h_rings h_arrays h_mem h_fab h_ras h_dict
    | with_reducible refine foldl_only (fun u x hu => ?_) ?_
    | with_reducible refine foldl_fst_only (fun u x hu => ?_) ?_
    | split
    )

theorem addCounts_only {gs : List Group} {s : State} {a0 a1 a2} (hs : OnlyTouches gs s a2) (h_parts : Group.parts ∈ gs) :
    OnlyTouches gs s (addCounts a0 a1 a2) := by
  unfold addCounts
  iterate 40 all_goals (try first
    | with_reducible assumption
    | with_reducible refine State_updPart_only ?_ h_parts
    )

theorem auditDispute_only {gs : List Group} {s : State} {a0 a1 a2 a3} (hs : OnlyTouches gs s a3) (h_out : Group.out ∈ gs) (h_free : Group.free ∈ gs) (h_parts : Group.parts ∈ gs) (h_mem : Group.mem ∈ gs) (h_ras : Group.ras ∈ gs) (h_dict : Group.dict ∈ gs) :
    OnlyTouches gs s (auditDispute a0 a1 a2 a3) := by
  unfold auditDispute
  iterate 40 all_goals (try first
    | with_reducible assumption
    | with_reducible refine State_putVM_only ?_ h_out h_free h_parts h_mem h_ras h_dict
    )

theorem leaveDispute_only {gs : List Group} {s : State} {a0 a1} (hs : OnlyTouches gs s a1) (h_out : Group.out ∈ gs) (h_free : Group.free ∈ gs) (h_parts : Group.parts ∈ gs) (h_arrays : Group.arrays ∈ gs) (h_mem : Group.mem ∈ gs) (h_ras : Group.ras ∈ gs) (h_dict : Group.dict ∈ gs) :
    OnlyTouches gs s (leaveDispute a0 a1) := by
  unfold leaveDispute
  iterate 40 all_goals (try first
    | with_reducible assumption
    | with_reducible refine auditDispute_only ?_ h_out h_free h_parts h_mem h_ras h_dict
    | with_reducible refine State_updArray_only ?_ h_arrays
    | split
    | dsimp only
    | with_reducible refine OnlyTouches.upd ?_ rfl (.inl h_out) (.inl h_free) (.inr rfl) (.inr rfl) (.inl h_parts) (.inr rfl) (.inl h_arrays) (.inl h_mem) (.inr rfl) (.inr rfl) (.inr rfl) (.inr rfl) (.inl h_ras) (.inr rfl) (.inl h_dict) (.inr rfl) (.inr rfl) (.inr rfl)
    )

theorem stopArrays_only {gs : List Group} {s : State} {a0 a1 a2 a3 a4} (hs : OnlyTouches gs s a4) (h_out : Group.out ∈ gs) (h_free : Group.free ∈ gs) (h_parts : Group.parts ∈ gs) (h_rings : Group.rings ∈ gs) (h_arrays : Group.arrays ∈ gs) (h_mem : Group.mem ∈ gs) (h_fab : Group.fab ∈ gs) (h_ras : Group.ras ∈ gs) (h_dict : Group.dict ∈ gs) :
    OnlyTouches gs s (stopArrays a0 a1 a2 a3 a4) := by
  unfold stopArrays
  iterate 40 all_goals (try first
    | with_reducible assumption
    | with_reducible refine cutMovers_only ?_ h_out h_free h_parts h_rings h_arrays h_mem h_fab h_ras h_dict
    | with_reducible refine addCounts_only ?_ h_parts
    | with_reducible refine State_updArray_only ?_ h_arrays
    | with_reducible refine leaveDispute_only ?_ h_out h_free h_parts h_arrays h_mem h_ras h_dict
    | with_reducible refine foldl_only (fun u x hu => ?_) ?_
    | with_reducible refine foldl_fst_only (fun u x hu => ?_) ?_
    | split
    )

theorem endAttempt_only {gs : List Group} {s : State} {a0 a1 a2 a3 a4} (hs : OnlyTouches gs s a4) (h_out : Group.out ∈ gs) (h_free : Group.free ∈ gs) (h_parts : Group.parts ∈ gs) (h_rings : Group.rings ∈ gs) (h_arrays : Group.arrays ∈ gs) (h_mem : Group.mem ∈ gs) (h_fab : Group.fab ∈ gs) (h_bind : Group.bind ∈ gs) (h_ras : Group.ras ∈ gs) (h_dict : Group.dict ∈ gs) :
    OnlyTouches gs s (endAttempt a0 a1 a2 a3 a4).1 := by
  unfold endAttempt
  iterate 40 all_goals (try first
    | with_reducible assumption
    | with_reducible refine State_updPart_only ?_ h_parts
    | with_reducible refine State_updRing_only ?_ h_rings
    | with_reducible refine countConds_only ?_ h_out h_free h_parts h_mem h_ras h_dict
    | with_reducible refine dropGrad_only ?_ h_bind
    | with_reducible refine stopArrays_only ?_ h_out h_free h_parts h_rings h_arrays h_mem h_fab h_ras h_dict
    | with_reducible refine foldl_only (fun u x hu => ?_) ?_
    | with_reducible refine foldl_fst_only (fun u x hu => ?_) ?_
    | split
    | dsimp only
    | with_reducible refine OnlyTouches.upd ?_ rfl (.inl h_out) (.inl h_free) (.inr rfl) (.inr rfl) (.inl h_parts) (.inl h_rings) (.inl h_arrays) (.inl h_mem) (.inl h_fab) (.inr rfl) (.inl h_bind) (.inr rfl) (.inl h_ras) (.inr rfl) (.inl h_dict) (.inr rfl) (.inr rfl) (.inr rfl)
    )

theorem abortRun_only {gs : List Group} {s : State} {a0 a1 a2 a3 a4} (hs : OnlyTouches gs s a4) (h_out : Group.out ∈ gs) (h_free : Group.free ∈ gs) (h_parts : Group.parts ∈ gs) (h_rings : Group.rings ∈ gs) (h_arrays : Group.arrays ∈ gs) (h_mem : Group.mem ∈ gs) (h_fab : Group.fab ∈ gs) (h_bind : Group.bind ∈ gs) (h_ras : Group.ras ∈ gs) (h_dict : Group.dict ∈ gs) :
    OnlyTouches gs s (abortRun a0 a1 a2 a3 a4) := by
  unfold abortRun
  iterate 40 all_goals (try first
    | with_reducible assumption
    | with_reducible refine closeAttempt_only ?_ h_out h_free h_parts h_rings h_mem h_fab h_bind h_ras h_dict
    | with_reducible refine endAttempt_only ?_ h_out h_free h_parts h_rings h_arrays h_mem h_fab h_bind h_ras h_dict
    | with_reducible refine fst_only (by assumption) ?_
    | split
    )

theorem abortSlices_only {gs : List Group} {s : State} {a0 a1} (hs : OnlyTouches gs s a1) (h_out : Group.out ∈ gs) (h_free : Group.free ∈ gs) (h_parts : Group.parts ∈ gs) (h_rings : Group.rings ∈ gs) (h_arrays : Group.arrays ∈ gs) (h_mem : Group.mem ∈ gs) (h_fab : Group.fab ∈ gs) (h_bind : Group.bind ∈ gs) (h_ras : Group.ras ∈ gs) (h_dict : Group.dict ∈ gs) :
    OnlyTouches gs s (abortSlices a0 a1) := by
  unfold abortSlices
  iterate 40 all_goals (try first
    | with_reducible assumption
    | with_reducible refine abortRun_only ?_ h_out h_free h_parts h_rings h_arrays h_mem h_fab h_bind h_ras h_dict
    | with_reducible refine foldl_only (fun u x hu => ?_) ?_
    )

theorem countLate_only {gs : List Group} {s : State} {a0 a1 a2} (hs : OnlyTouches gs s a2) (h_bind : Group.bind ∈ gs) :
    OnlyTouches gs s (countLate a0 a1 a2) := by
  unfold countLate
  iterate 40 all_goals (try first
    | with_reducible assumption
    | with_reducible refine updSession_only ?_ h_bind
    )

theorem modRed_only {gs : List Group} {s : State} {a0 a1 a2 a3 a4} (hs : OnlyTouches gs s a4) (h_bind : Group.bind ∈ gs) :
    OnlyTouches gs s (modRed a0 a1 a2 a3 a4) := by
  unfold modRed
  iterate 40 all_goals (try first
    | with_reducible assumption
    | with_reducible refine updSession_only ?_ h_bind
    )

theorem sendRank_only {gs : List Group} {s : State} {a0 a1 a2 a3 a4 a5 a6 a7 a8} (hs : OnlyTouches gs s a8) (h_out : Group.out ∈ gs) (h_fab : Group.fab ∈ gs) :
    OnlyTouches gs s (sendRank a0 a1 a2 a3 a4 a5 a6 a7 a8) := by
  unfold sendRank
  iterate 40 all_goals (try first
    | with_reducible assumption
    | with_reducible refine sendPkt_only ?_ h_out h_fab
    | split
    )

theorem handOver_only {gs : List Group} {s : State} {a0 a1 a2 a3 a4} (hs : OnlyTouches gs s a4) (h_out : Group.out ∈ gs) (h_fab : Group.fab ∈ gs) :
    OnlyTouches gs s (handOver a0 a1 a2 a3 a4) := by
  unfold handOver
  iterate 40 all_goals (try first
    | with_reducible assumption
    | with_reducible refine sendRank_only ?_ h_out h_fab
    | with_reducible refine foldl_only (fun u x hu => ?_) ?_
    | with_reducible refine foldl_fst_only (fun u x hu => ?_) ?_
    | split
    )

theorem forwardChunk_only {gs : List Group} {s : State} {a0 a1 a2 a3 a4 a5} (hs : OnlyTouches gs s a5) (h_out : Group.out ∈ gs) (h_fab : Group.fab ∈ gs) :
    OnlyTouches gs s (forwardChunk a0 a1 a2 a3 a4 a5) := by
  unfold forwardChunk
  iterate 40 all_goals (try first
    | with_reducible assumption
    | with_reducible refine sendRank_only ?_ h_out h_fab
    | with_reducible refine foldl_only (fun u x hu => ?_) ?_
    | with_reducible refine foldl_fst_only (fun u x hu => ?_) ?_
    | split
    )

theorem writeChunk_only {gs : List Group} {s : State} {a0 a1 a2 a3 a4 a5} (hs : OnlyTouches gs s a5) (h_out : Group.out ∈ gs) (h_free : Group.free ∈ gs) (h_parts : Group.parts ∈ gs) (h_mem : Group.mem ∈ gs) (h_fab : Group.fab ∈ gs) (h_ras : Group.ras ∈ gs) (h_dict : Group.dict ∈ gs) :
    OnlyTouches gs s (writeChunk a0 a1 a2 a3 a4 a5).1 := by
  unfold writeChunk
  iterate 40 all_goals (try first
    | with_reducible assumption
    | with_reducible refine State_putWrites_only ?_ h_out h_free h_parts h_mem h_fab h_ras h_dict
    | split
    | dsimp only
    )

theorem healed_only {gs : List Group} {s : State} {a0 a1 a2 a3} (hs : OnlyTouches gs s a3) (h_out : Group.out ∈ gs) (h_free : Group.free ∈ gs) (h_parts : Group.parts ∈ gs) (h_mem : Group.mem ∈ gs) (h_fab : Group.fab ∈ gs) (h_ras : Group.ras ∈ gs) (h_dict : Group.dict ∈ gs) :
    OnlyTouches gs s (healed a0 a1 a2 a3) := by
  unfold healed
  iterate 40 all_goals (try first
    | with_reducible assumption
    | with_reducible refine State_putWrites_only ?_ h_out h_free h_parts h_mem h_fab h_ras h_dict
    | split
    )

theorem updLayer_only {gs : List Group} {s : State} {a0 a1 a2 a3} (hs : OnlyTouches gs s a3) (h_bind : Group.bind ∈ gs) :
    OnlyTouches gs s (updLayer a0 a1 a2 a3) := by
  unfold updLayer
  iterate 40 all_goals (try first
    | with_reducible assumption
    | with_reducible refine updSession_only ?_ h_bind
    )

theorem placeChunk_only {gs : List Group} {s : State} {a0 a1 a2 a3 a4} (hs : OnlyTouches gs s a4) (h_out : Group.out ∈ gs) (h_free : Group.free ∈ gs) (h_parts : Group.parts ∈ gs) (h_mem : Group.mem ∈ gs) (h_fab : Group.fab ∈ gs) (h_bind : Group.bind ∈ gs) (h_ras : Group.ras ∈ gs) (h_dict : Group.dict ∈ gs) :
    OnlyTouches gs s (placeChunk a0 a1 a2 a3 a4) := by
  unfold placeChunk
  iterate 40 all_goals (try first
    | with_reducible assumption
    | with_reducible refine updSession_only ?_ h_bind
    | with_reducible refine writeChunk_only ?_ h_out h_free h_parts h_mem h_fab h_ras h_dict
    | with_reducible refine healed_only ?_ h_out h_free h_parts h_mem h_fab h_ras h_dict
    | with_reducible refine State_putVM_only ?_ h_out h_free h_parts h_mem h_ras h_dict
    | with_reducible refine updLayer_only ?_ h_bind
    | with_reducible refine fst_only (by assumption) ?_
    | split
    )

theorem takeChunk_only {gs : List Group} {s : State} {a0 a1 a2 a3 a4 a5} (hs : OnlyTouches gs s a5) (h_out : Group.out ∈ gs) (h_free : Group.free ∈ gs) (h_parts : Group.parts ∈ gs) (h_mem : Group.mem ∈ gs) (h_fab : Group.fab ∈ gs) (h_bind : Group.bind ∈ gs) (h_ras : Group.ras ∈ gs) (h_dict : Group.dict ∈ gs) :
    OnlyTouches gs s (takeChunk a0 a1 a2 a3 a4 a5) := by
  unfold takeChunk
  iterate 40 all_goals (try first
    | with_reducible assumption
    | with_reducible refine placeChunk_only ?_ h_out h_free h_parts h_mem h_fab h_bind h_ras h_dict
    | with_reducible refine updLayer_only ?_ h_bind
    | split
    | dsimp only
    )

theorem tipIns_only {gs : List Group} {s : State} {a0 a1 a2 a3} (hs : OnlyTouches gs s a3) (h_out : Group.out ∈ gs) (h_fab : Group.fab ∈ gs) (h_bind : Group.bind ∈ gs) :
    OnlyTouches gs s (tipIns a0 a1 a2 a3) := by
  unfold tipIns
  iterate 40 all_goals (try first
    | with_reducible assumption
    | with_reducible refine sendRank_only ?_ h_out h_fab
    | with_reducible refine updLayer_only ?_ h_bind
    | with_reducible refine foldl_only (fun u x hu => ?_) ?_
    | with_reducible refine foldl_fst_only (fun u x hu => ?_) ?_
    | split
    )

theorem takeShadow_only {gs : List Group} {s : State} {a0 a1 a2 a3} (hs : OnlyTouches gs s a3) (h_bind : Group.bind ∈ gs) :
    OnlyTouches gs s (takeShadow a0 a1 a2 a3) := by
  unfold takeShadow
  iterate 40 all_goals (try first
    | with_reducible assumption
    | with_reducible refine updSession_only ?_ h_bind
    )

theorem publish_only {gs : List Group} {s : State} {a0 a1 a2 a3 a4 a5 a6} (hs : OnlyTouches gs s a6) (h_out : Group.out ∈ gs) (h_free : Group.free ∈ gs) (h_parts : Group.parts ∈ gs) (h_mem : Group.mem ∈ gs) (h_fab : Group.fab ∈ gs) (h_bind : Group.bind ∈ gs) (h_ras : Group.ras ∈ gs) (h_dict : Group.dict ∈ gs) :
    OnlyTouches gs s (publish a0 a1 a2 a3 a4 a5 a6) := by
  unfold publish
  iterate 40 all_goals (try first
    | with_reducible assumption
    | with_reducible refine forwardChunk_only ?_ h_out h_fab
    | with_reducible refine takeChunk_only ?_ h_out h_free h_parts h_mem h_fab h_bind h_ras h_dict
    | with_reducible refine tipIns_only ?_ h_out h_fab h_bind
    | with_reducible refine takeShadow_only ?_ h_bind
    | with_reducible refine updLayer_only ?_ h_bind
    | with_reducible refine foldl_only (fun u x hu => ?_) ?_
    )

theorem closeStep_only {gs : List Group} {s : State} {a0 a1 a2 a3} (hs : OnlyTouches gs s a3) (h_out : Group.out ∈ gs) (h_free : Group.free ∈ gs) (h_parts : Group.parts ∈ gs) (h_mem : Group.mem ∈ gs) (h_fab : Group.fab ∈ gs) (h_bind : Group.bind ∈ gs) (h_ras : Group.ras ∈ gs) (h_dict : Group.dict ∈ gs) :
    OnlyTouches gs s (closeStep a0 a1 a2 a3) := by
  unfold closeStep
  iterate 40 all_goals (try first
    | with_reducible assumption
    | with_reducible refine handOver_only ?_ h_out h_fab
    | with_reducible refine publish_only ?_ h_out h_free h_parts h_mem h_fab h_bind h_ras h_dict
    | with_reducible refine updLayer_only ?_ h_bind
    | split
    | dsimp only
    )

theorem tryClose_only {gs : List Group} {s : State} {a0 a1 a2 a3} (hs : OnlyTouches gs s a3) (h_out : Group.out ∈ gs) (h_free : Group.free ∈ gs) (h_parts : Group.parts ∈ gs) (h_mem : Group.mem ∈ gs) (h_fab : Group.fab ∈ gs) (h_bind : Group.bind ∈ gs) (h_ras : Group.ras ∈ gs) (h_dict : Group.dict ∈ gs) :
    OnlyTouches gs s (tryClose a0 a1 a2 a3) := by
  unfold tryClose
  iterate 40 all_goals (try first
    | with_reducible assumption
    | with_reducible refine closeStep_only ?_ h_out h_free h_parts h_mem h_fab h_bind h_ras h_dict
    | split
    )

theorem noticeOne_only {gs : List Group} {s : State} {a0 a1 a2 a3 a4 a5} (hs : OnlyTouches gs s a5) (h_out : Group.out ∈ gs) (h_free : Group.free ∈ gs) (h_parts : Group.parts ∈ gs) (h_mem : Group.mem ∈ gs) (h_fab : Group.fab ∈ gs) (h_bind : Group.bind ∈ gs) (h_ras : Group.ras ∈ gs) (h_dict : Group.dict ∈ gs) :
    OnlyTouches gs s (noticeOne a0 a1 a2 a3 a4 a5) := by
  unfold noticeOne
  iterate 40 all_goals (try first
    | with_reducible assumption
    | with_reducible refine countLate_only ?_ h_bind
    | with_reducible refine modRed_only ?_ h_bind
    | with_reducible refine tryClose_only ?_ h_out h_free h_parts h_mem h_fab h_bind h_ras h_dict
    | split
    | dsimp only
    )

theorem absentIn_only {gs : List Group} {s : State} {a0 a1 a2 a3 a4 a5} (hs : OnlyTouches gs s a5) (h_out : Group.out ∈ gs) (h_free : Group.free ∈ gs) (h_parts : Group.parts ∈ gs) (h_mem : Group.mem ∈ gs) (h_fab : Group.fab ∈ gs) (h_bind : Group.bind ∈ gs) (h_ras : Group.ras ∈ gs) (h_dict : Group.dict ∈ gs) :
    OnlyTouches gs s (absentIn a0 a1 a2 a3 a4 a5) := by
  unfold absentIn
  iterate 40 all_goals (try first
    | with_reducible assumption
    | with_reducible refine countLate_only ?_ h_bind
    | with_reducible refine noticeOne_only ?_ h_out h_free h_parts h_mem h_fab h_bind h_ras h_dict
    | with_reducible refine foldl_only (fun u x hu => ?_) ?_
    | with_reducible refine foldl_fst_only (fun u x hu => ?_) ?_
    | split
    )

theorem loseTenants_only {gs : List Group} {s : State} {a0} (hs : OnlyTouches gs s a0) (h_parts : Group.parts ∈ gs) (h_rings : Group.rings ∈ gs) (h_arrays : Group.arrays ∈ gs) (h_mem : Group.mem ∈ gs) (h_fab : Group.fab ∈ gs) (h_keys : Group.keys ∈ gs) (h_bind : Group.bind ∈ gs) (h_ras : Group.ras ∈ gs) (h_dict : Group.dict ∈ gs) :
    OnlyTouches gs s (loseTenants a0) := by
  unfold loseTenants
  iterate 40 all_goals (try first
    | with_reducible assumption
    | split
    | dsimp only
    | with_reducible refine OnlyTouches.upd ?_ rfl (.inr rfl) (.inr rfl) (.inr rfl) (.inr rfl) (.inl h_parts) (.inl h_rings) (.inl h_arrays) (.inl h_mem) (.inl h_fab) (.inl h_keys) (.inl h_bind) (.inr rfl) (.inl h_ras) (.inr rfl) (.inl h_dict) (.inr rfl) (.inr rfl) (.inr rfl)
    )

theorem leaveTick_only {gs : List Group} {s : State} {a0} (hs : OnlyTouches gs s a0) (h_tick : Group.tick ∈ gs) (h_gov : Group.gov ∈ gs) :
    OnlyTouches gs s (leaveTick a0) := by
  unfold leaveTick
  iterate 40 all_goals (try first
    | with_reducible assumption
    | split
    | dsimp only
    | with_reducible refine OnlyTouches.upd ?_ rfl (.inr rfl) (.inr rfl) (.inl h_tick) (.inl h_gov) (.inr rfl) (.inr rfl) (.inr rfl) (.inr rfl) (.inr rfl) (.inr rfl) (.inr rfl) (.inr rfl) (.inr rfl) (.inr rfl) (.inr rfl) (.inr rfl) (.inr rfl) (.inr rfl)
    )

theorem stopDomains_only {gs : List Group} {s : State} {a0 a1} (hs : OnlyTouches gs s a1) (h_pow : Group.pow ∈ gs) :
    OnlyTouches gs s (stopDomains a0 a1) := by
  unfold stopDomains
  iterate 40 all_goals (try first
    | with_reducible assumption
    | split
    | dsimp only
    | with_reducible refine OnlyTouches.upd ?_ rfl (.inr rfl) (.inr rfl) (.inr rfl) (.inr rfl) (.inr rfl) (.inr rfl) (.inr rfl) (.inr rfl) (.inr rfl) (.inr rfl) (.inr rfl) (.inr rfl) (.inr rfl) (.inr rfl) (.inr rfl) (.inr rfl) (.inl h_pow) (.inr rfl)
    )

theorem beginStandby_only {gs : List Group} {s : State} {a0} (hs : OnlyTouches gs s a0) (h_tick : Group.tick ∈ gs) (h_gov : Group.gov ∈ gs) (h_parts : Group.parts ∈ gs) (h_rings : Group.rings ∈ gs) (h_arrays : Group.arrays ∈ gs) (h_mem : Group.mem ∈ gs) (h_fab : Group.fab ∈ gs) (h_keys : Group.keys ∈ gs) (h_bind : Group.bind ∈ gs) (h_ras : Group.ras ∈ gs) (h_dict : Group.dict ∈ gs) (h_pow : Group.pow ∈ gs) :
    OnlyTouches gs s (beginStandby a0) := by
  unfold beginStandby
  iterate 40 all_goals (try first
    | with_reducible assumption
    | with_reducible refine loseTenants_only ?_ h_parts h_rings h_arrays h_mem h_fab h_keys h_bind h_ras h_dict
    | with_reducible refine leaveTick_only ?_ h_tick h_gov
    | with_reducible refine stopDomains_only ?_ h_pow
    | split
    | dsimp only
    | with_reducible refine OnlyTouches.upd ?_ rfl (.inr rfl) (.inr rfl) (.inl h_tick) (.inl h_gov) (.inl h_parts) (.inl h_rings) (.inl h_arrays) (.inl h_mem) (.inl h_fab) (.inl h_keys) (.inl h_bind) (.inr rfl) (.inl h_ras) (.inr rfl) (.inl h_dict) (.inr rfl) (.inl h_pow) (.inr rfl)
    )

theorem windowEnd_only {gs : List Group} {s : State} {a0} (hs : OnlyTouches gs s a0) (h_tick : Group.tick ∈ gs) (h_gov : Group.gov ∈ gs) (h_parts : Group.parts ∈ gs) (h_rings : Group.rings ∈ gs) (h_arrays : Group.arrays ∈ gs) (h_mem : Group.mem ∈ gs) (h_fab : Group.fab ∈ gs) (h_keys : Group.keys ∈ gs) (h_bind : Group.bind ∈ gs) (h_ras : Group.ras ∈ gs) (h_dict : Group.dict ∈ gs) (h_pow : Group.pow ∈ gs) :
    OnlyTouches gs s (windowEnd a0) := by
  unfold windowEnd
  iterate 40 all_goals (try first
    | with_reducible assumption
    | with_reducible refine beginStandby_only ?_ h_tick h_gov h_parts h_rings h_arrays h_mem h_fab h_keys h_bind h_ras h_dict h_pow
    | split
    | dsimp only
    | with_reducible refine OnlyTouches.upd ?_ rfl (.inr rfl) (.inr rfl) (.inl h_tick) (.inl h_gov) (.inl h_parts) (.inl h_rings) (.inl h_arrays) (.inl h_mem) (.inl h_fab) (.inl h_keys) (.inl h_bind) (.inr rfl) (.inl h_ras) (.inr rfl) (.inl h_dict) (.inr rfl) (.inl h_pow) (.inr rfl)
    )

theorem acceptLower_only {gs : List Group} {s : State} {a0 a1} (hs : OnlyTouches gs s a1) (h_tick : Group.tick ∈ gs) (h_gov : Group.gov ∈ gs) (h_parts : Group.parts ∈ gs) (h_rings : Group.rings ∈ gs) (h_arrays : Group.arrays ∈ gs) (h_mem : Group.mem ∈ gs) (h_fab : Group.fab ∈ gs) (h_keys : Group.keys ∈ gs) (h_bind : Group.bind ∈ gs) (h_ras : Group.ras ∈ gs) (h_dict : Group.dict ∈ gs) (h_pow : Group.pow ∈ gs) :
    OnlyTouches gs s (acceptLower a0 a1) := by
  unfold acceptLower
  iterate 40 all_goals (try first
    | with_reducible assumption
    | with_reducible refine windowEnd_only ?_ h_tick h_gov h_parts h_rings h_arrays h_mem h_fab h_keys h_bind h_ras h_dict h_pow
    | split
    | dsimp only
    | with_reducible refine OnlyTouches.upd ?_ rfl (.inr rfl) (.inr rfl) (.inl h_tick) (.inl h_gov) (.inl h_parts) (.inl h_rings) (.inl h_arrays) (.inl h_mem) (.inl h_fab) (.inl h_keys) (.inl h_bind) (.inr rfl) (.inl h_ras) (.inr rfl) (.inl h_dict) (.inr rfl) (.inl h_pow) (.inr rfl)
    )

theorem addEnergy_only {gs : List Group} {s : State} {a0 a1} (hs : OnlyTouches gs s a1) (h_parts : Group.parts ∈ gs) (h_dict : Group.dict ∈ gs) :
    OnlyTouches gs s (addEnergy a0 a1) := by
  unfold addEnergy
  iterate 40 all_goals (try first
    | with_reducible assumption
    | with_reducible refine State_updPart_only ?_ h_parts
    | with_reducible refine foldl_only (fun u x hu => ?_) ?_
    | with_reducible refine foldl_fst_only (fun u x hu => ?_) ?_
    | split
    | dsimp only
    | with_reducible refine OnlyTouches.upd ?_ rfl (.inr rfl) (.inr rfl) (.inr rfl) (.inr rfl) (.inl h_parts) (.inr rfl) (.inr rfl) (.inr rfl) (.inr rfl) (.inr rfl) (.inr rfl) (.inr rfl) (.inr rfl) (.inr rfl) (.inl h_dict) (.inr rfl) (.inr rfl) (.inr rfl)
    )

theorem addKey_only {gs : List Group} {s t : State} {b k a i} (e : addKey b k a = some (t, i)) (hs : OnlyTouches gs s a) (h_free : Group.free ∈ gs) (h_keys : Group.keys ∈ gs) :
    OnlyTouches gs s t := by
  unfold addKey at e
  simp only [Option.map_eq_some_iff, Prod.mk.injEq] at e
  obtain ⟨_, _, rfl, _⟩ := e
  exact OnlyTouches.upd hs rfl (.inr rfl) (.inl h_free) (.inr rfl) (.inr rfl) (.inr rfl) (.inr rfl) (.inr rfl) (.inr rfl) (.inr rfl) (.inl h_keys) (.inr rfl) (.inr rfl) (.inr rfl) (.inr rfl) (.inr rfl) (.inr rfl) (.inr rfl) (.inr rfl)

theorem reserveStash_only {gs : List Group} {s : State} {a0 a1} (hs : OnlyTouches gs s a1) (h_out : Group.out ∈ gs) (h_free : Group.free ∈ gs) (h_parts : Group.parts ∈ gs) (h_mem : Group.mem ∈ gs) (h_ras : Group.ras ∈ gs) (h_dict : Group.dict ∈ gs) :
    OnlyTouches gs s (reserveStash a0 a1).1 := by
  unfold reserveStash
  iterate 40 all_goals (try first
    | with_reducible assumption
    | with_reducible refine State_putVM_only ?_ h_out h_free h_parts h_mem h_ras h_dict
    | split
    )

theorem eligible_only {gs : List Group} {s : State} {a0 a1} (hs : OnlyTouches gs s a1) (h_out : Group.out ∈ gs) (h_free : Group.free ∈ gs) (h_parts : Group.parts ∈ gs) (h_mem : Group.mem ∈ gs) (h_ras : Group.ras ∈ gs) (h_dict : Group.dict ∈ gs) :
    OnlyTouches gs s (eligible a0 a1).1 := by
  unfold eligible
  iterate 40 all_goals (try first
    | with_reducible assumption
    | with_reducible refine reserveStash_only ?_ h_out h_free h_parts h_mem h_ras h_dict
    )

theorem admitOne_only {gs : List Group} {s : State} {a0 a1} (hs : OnlyTouches gs s a1) (h_gov : Group.gov ∈ gs) (h_parts : Group.parts ∈ gs) (h_rings : Group.rings ∈ gs) :
    OnlyTouches gs s (admitOne a0 a1) := by
  unfold admitOne
  iterate 40 all_goals (try first
    | with_reducible assumption
    | with_reducible refine State_updPart_only ?_ h_parts
    | with_reducible refine State_updRing_only ?_ h_rings
    | split
    | dsimp only
    | with_reducible refine OnlyTouches.upd ?_ rfl (.inr rfl) (.inr rfl) (.inr rfl) (.inl h_gov) (.inl h_parts) (.inl h_rings) (.inr rfl) (.inr rfl) (.inr rfl) (.inr rfl) (.inr rfl) (.inr rfl) (.inr rfl) (.inr rfl) (.inr rfl) (.inr rfl) (.inr rfl) (.inr rfl)
    )

theorem consider_only {gs : List Group} {s : State} {a0 a1 a2} (hs : OnlyTouches gs s a2) (h_out : Group.out ∈ gs) (h_free : Group.free ∈ gs) (h_gov : Group.gov ∈ gs) (h_parts : Group.parts ∈ gs) (h_rings : Group.rings ∈ gs) (h_mem : Group.mem ∈ gs) (h_ras : Group.ras ∈ gs) (h_dict : Group.dict ∈ gs) :
    OnlyTouches gs s (consider a0 a1 a2).1 := by
  unfold consider
  iterate 40 all_goals (try first
    | with_reducible assumption
    | with_reducible refine eligible_only ?_ h_out h_free h_parts h_mem h_ras h_dict
    | with_reducible refine admitOne_only ?_ h_gov h_parts h_rings
    | with_reducible refine fst_only (by assumption) ?_
    | split
    )

theorem pass2_only {gs : List Group} {s b : State} {n p q r o} (hs : OnlyTouches gs s b) (h_out : Group.out ∈ gs) (h_free : Group.free ∈ gs) (h_gov : Group.gov ∈ gs) (h_parts : Group.parts ∈ gs) (h_rings : Group.rings ∈ gs) (h_mem : Group.mem ∈ gs) (h_ras : Group.ras ∈ gs) (h_dict : Group.dict ∈ gs) :
    OnlyTouches gs s (pass2 n p q r o b).1 := by
  induction n generalizing b p q r o with
  | zero => exact hs
  | succ n ih =>
    unfold pass2
    split
    · exact hs
    · dsimp only
      split
      · exact ih (fst_only (by assumption) (consider_only hs h_out h_free h_gov h_parts h_rings h_mem h_ras h_dict))
      · exact ih (fst_only (by assumption) (consider_only hs h_out h_free h_gov h_parts h_rings h_mem h_ras h_dict))

theorem leaveOut_only {gs : List Group} {s : State} {a0 a1} (hs : OnlyTouches gs s a1) (h_parts : Group.parts ∈ gs) (h_rings : Group.rings ∈ gs) :
    OnlyTouches gs s (leaveOut a0 a1) := by
  unfold leaveOut
  iterate 40 all_goals (try first
    | with_reducible assumption
    | with_reducible refine State_updPart_only ?_ h_parts
    | with_reducible refine State_updRing_only ?_ h_rings
    | with_reducible refine foldl_only (fun u x hu => ?_) ?_
    | with_reducible refine foldl_fst_only (fun u x hu => ?_) ?_
    | split
    )

theorem finishAdmission_only {gs : List Group} {s : State} {a0 a1} (hs : OnlyTouches gs s a1) (h_out : Group.out ∈ gs) (h_free : Group.free ∈ gs) (h_gov : Group.gov ∈ gs) (h_parts : Group.parts ∈ gs) (h_rings : Group.rings ∈ gs) (h_mem : Group.mem ∈ gs) (h_ras : Group.ras ∈ gs) (h_dict : Group.dict ∈ gs) :
    OnlyTouches gs s (finishAdmission a0 a1) := by
  unfold finishAdmission
  iterate 40 all_goals (try first
    | with_reducible assumption
    | with_reducible refine pass2_only ?_ h_out h_free h_gov h_parts h_rings h_mem h_ras h_dict
    | with_reducible refine leaveOut_only ?_ h_parts h_rings
    | with_reducible refine fst_only (by assumption) ?_
    | split
    | dsimp only
    | with_reducible refine OnlyTouches.upd ?_ rfl (.inl h_out) (.inl h_free) (.inr rfl) (.inl h_gov) (.inl h_parts) (.inl h_rings) (.inr rfl) (.inl h_mem) (.inr rfl) (.inr rfl) (.inr rfl) (.inr rfl) (.inl h_ras) (.inr rfl) (.inl h_dict) (.inr rfl) (.inr rfl) (.inr rfl)
    )

theorem pass1_only {gs : List Group} {s b : State} {c a} (hs : OnlyTouches gs s b) (h_out : Group.out ∈ gs) (h_free : Group.free ∈ gs) (h_gov : Group.gov ∈ gs) (h_parts : Group.parts ∈ gs) (h_rings : Group.rings ∈ gs) (h_mem : Group.mem ∈ gs) (h_ras : Group.ras ∈ gs) (h_dict : Group.dict ∈ gs) :
    OnlyTouches gs s (pass1 c a b).state := by
  unfold pass1
  refine foldl_by_only (π := Pass1.state) (fun u x hu => ?_) hs
  split
  · exact fst_only (by assumption) (consider_only hu h_out h_free h_gov h_parts h_rings h_mem h_ras h_dict)
  · exact fst_only (by assumption) (consider_only hu h_out h_free h_gov h_parts h_rings h_mem h_ras h_dict)

theorem admitAll_only {gs : List Group} {s b : State} {c} (hs : OnlyTouches gs s b) (h_out : Group.out ∈ gs) (h_free : Group.free ∈ gs) (h_gov : Group.gov ∈ gs) (h_parts : Group.parts ∈ gs) (h_rings : Group.rings ∈ gs) (h_mem : Group.mem ∈ gs) (h_ras : Group.ras ∈ gs) (h_dict : Group.dict ∈ gs) :
    OnlyTouches gs s (admitAll c b) := by
  unfold admitAll
  extract_lets b0 parts total allot g0 s1 pool r a
  have h : OnlyTouches gs s s1 := OnlyTouches.upd hs rfl (.inl h_out) (.inl h_free) (.inr rfl) (.inl h_gov) (.inl h_parts) (.inl h_rings) (.inr rfl) (.inl h_mem) (.inr rfl) (.inr rfl) (.inr rfl) (.inr rfl) (.inl h_ras) (.inr rfl) (.inl h_dict) (.inr rfl) (.inr rfl) (.inr rfl)
  have hr : OnlyTouches gs s r.state := pass1_only h h_out h_free h_gov h_parts h_rings h_mem h_ras h_dict
  clear_value s1 r
  split
  · exact leaveOut_only h h_parts h_rings
  · split
    · exact OnlyTouches.upd hr rfl (.inl h_out) (.inl h_free) (.inr rfl) (.inl h_gov) (.inl h_parts) (.inl h_rings) (.inr rfl) (.inl h_mem) (.inr rfl) (.inr rfl) (.inr rfl) (.inr rfl) (.inl h_ras) (.inr rfl) (.inl h_dict) (.inr rfl) (.inr rfl) (.inr rfl)
    · exact finishAdmission_only hr h_out h_free h_gov h_parts h_rings h_mem h_ras h_dict

theorem takeMaster_only {gs : List Group} {s : State} {a0 a1} (hs : OnlyTouches gs s a1) (h_tick : Group.tick ∈ gs) :
    OnlyTouches gs s (takeMaster a0 a1) := by
  unfold takeMaster
  iterate 40 all_goals (try first
    | with_reducible assumption
    | split
    | dsimp only
    | with_reducible refine OnlyTouches.upd ?_ rfl (.inr rfl) (.inr rfl) (.inl h_tick) (.inr rfl) (.inr rfl) (.inr rfl) (.inr rfl) (.inr rfl) (.inr rfl) (.inr rfl) (.inr rfl) (.inr rfl) (.inr rfl) (.inr rfl) (.inr rfl) (.inr rfl) (.inr rfl) (.inr rfl)
    )

theorem sendTicks_only {gs : List Group} {s : State} {a0 a1} (hs : OnlyTouches gs s a1) (h_fab : Group.fab ∈ gs) :
    OnlyTouches gs s (sendTicks a0 a1) := by
  unfold sendTicks
  iterate 40 all_goals (try first
    | with_reducible assumption
    | with_reducible refine sendFlit_only ?_ h_fab
    | with_reducible refine foldl_only (fun u x hu => ?_) ?_
    )

theorem forwardAnnounce_only {gs : List Group} {s : State} {a0 a1} (hs : OnlyTouches gs s a1) (h_out : Group.out ∈ gs) (h_tick : Group.tick ∈ gs) (h_fab : Group.fab ∈ gs) :
    OnlyTouches gs s (forwardAnnounce a0 a1) := by
  unfold forwardAnnounce
  iterate 40 all_goals (try first
    | with_reducible assumption
    | with_reducible refine State_emit_only ?_ h_out
    | with_reducible refine sendTicks_only ?_ h_fab
    | split
    | dsimp only
    | with_reducible refine OnlyTouches.upd ?_ rfl (.inl h_out) (.inr rfl) (.inl h_tick) (.inr rfl) (.inr rfl) (.inr rfl) (.inr rfl) (.inr rfl) (.inl h_fab) (.inr rfl) (.inr rfl) (.inr rfl) (.inr rfl) (.inr rfl) (.inr rfl) (.inr rfl) (.inr rfl) (.inr rfl)
    )

theorem hearAnnounce_only {gs : List Group} {s : State} {a0 a1} (hs : OnlyTouches gs s a1) (h_out : Group.out ∈ gs) (h_tick : Group.tick ∈ gs) (h_fab : Group.fab ∈ gs) :
    OnlyTouches gs s (hearAnnounce a0 a1) := by
  unfold hearAnnounce
  iterate 40 all_goals (try first
    | with_reducible assumption
    | with_reducible refine takeMaster_only ?_ h_tick
    | with_reducible refine forwardAnnounce_only ?_ h_out h_tick h_fab
    | split
    | dsimp only
    | with_reducible refine OnlyTouches.upd ?_ rfl (.inl h_out) (.inr rfl) (.inl h_tick) (.inr rfl) (.inr rfl) (.inr rfl) (.inr rfl) (.inr rfl) (.inl h_fab) (.inr rfl) (.inr rfl) (.inr rfl) (.inr rfl) (.inr rfl) (.inr rfl) (.inr rfl) (.inr rfl) (.inr rfl)
    )

theorem adoptMaster_only {gs : List Group} {s : State} {a0 a1} (hs : OnlyTouches gs s a1) (h_out : Group.out ∈ gs) (h_tick : Group.tick ∈ gs) (h_fab : Group.fab ∈ gs) :
    OnlyTouches gs s (adoptMaster a0 a1) := by
  unfold adoptMaster
  iterate 40 all_goals (try first
    | with_reducible assumption
    | with_reducible refine hearAnnounce_only ?_ h_out h_tick h_fab
    | with_reducible refine takeMaster_only ?_ h_tick
    | with_reducible refine forwardAnnounce_only ?_ h_out h_tick h_fab
    | split
    | dsimp only
    | with_reducible refine OnlyTouches.upd ?_ rfl (.inl h_out) (.inr rfl) (.inl h_tick) (.inr rfl) (.inr rfl) (.inr rfl) (.inr rfl) (.inr rfl) (.inl h_fab) (.inr rfl) (.inr rfl) (.inr rfl) (.inr rfl) (.inr rfl) (.inr rfl) (.inr rfl) (.inr rfl) (.inr rfl)
    )

theorem advanceFrame_only {gs : List Group} {s : State} {a0} (hs : OnlyTouches gs s a0) (h_tick : Group.tick ∈ gs) :
    OnlyTouches gs s (advanceFrame a0) := by
  unfold advanceFrame
  iterate 40 all_goals (try first
    | with_reducible assumption
    | split
    | dsimp only
    | with_reducible refine OnlyTouches.upd ?_ rfl (.inr rfl) (.inr rfl) (.inl h_tick) (.inr rfl) (.inr rfl) (.inr rfl) (.inr rfl) (.inr rfl) (.inr rfl) (.inr rfl) (.inr rfl) (.inr rfl) (.inr rfl) (.inr rfl) (.inr rfl) (.inr rfl) (.inr rfl) (.inr rfl)
    )

theorem advanceMovers_only {gs : List Group} {s : State} {a0 a1 a2 a3} (hs : OnlyTouches gs s a3) (h_out : Group.out ∈ gs) (h_free : Group.free ∈ gs) (h_parts : Group.parts ∈ gs) (h_rings : Group.rings ∈ gs) (h_arrays : Group.arrays ∈ gs) (h_mem : Group.mem ∈ gs) (h_fab : Group.fab ∈ gs) (h_ras : Group.ras ∈ gs) (h_dict : Group.dict ∈ gs) :
    OnlyTouches gs s (advanceMovers a0 a1 a2 a3) := by
  unfold advanceMovers
  iterate 40 all_goals (try first
    | with_reducible assumption
    | with_reducible refine copyTo_only ?_ h_out h_free h_parts h_rings h_arrays h_mem h_fab h_ras h_dict
    | with_reducible refine foldl_only (fun u x hu => ?_) ?_
    | with_reducible refine foldl_fst_only (fun u x hu => ?_) ?_
    | split
    )

theorem sendContrib_only {gs : List Group} {s : State} {a0 a1 a2 a3 a4 a5 a6 a7} (hs : OnlyTouches gs s a7) (h_out : Group.out ∈ gs) (h_fab : Group.fab ∈ gs) :
    OnlyTouches gs s (sendContrib a0 a1 a2 a3 a4 a5 a6 a7) := by
  unfold sendContrib
  iterate 40 all_goals (try first
    | with_reducible assumption
    | with_reducible refine sendRank_only ?_ h_out h_fab
    | with_reducible refine foldl_only (fun u x hu => ?_) ?_
    )

theorem forwardPartial_only {gs : List Group} {s : State} {a0 a1 a2 a3 a4 a5} (hs : OnlyTouches gs s a5) (h_out : Group.out ∈ gs) (h_fab : Group.fab ∈ gs) :
    OnlyTouches gs s (forwardPartial a0 a1 a2 a3 a4 a5) := by
  unfold forwardPartial
  iterate 40 all_goals (try first
    | with_reducible assumption
    | with_reducible refine sendContrib_only ?_ h_out h_fab
    | split
    )

theorem foldOn_only {gs : List Group} {s : State} {a0 a1 a2 a3 a4 a5 a6} (hs : OnlyTouches gs s a6) (h_out : Group.out ∈ gs) (h_fab : Group.fab ∈ gs) (h_bind : Group.bind ∈ gs) :
    OnlyTouches gs s (foldOn a0 a1 a2 a3 a4 a5 a6) := by
  unfold foldOn
  iterate 40 all_goals (try first
    | with_reducible assumption
    | with_reducible refine updSession_only ?_ h_bind
    | with_reducible refine forwardPartial_only ?_ h_out h_fab
    )

theorem updWork_only {gs : List Group} {s : State} {a0 a1 a2 a3 a4} (hs : OnlyTouches gs s a4) (h_bind : Group.bind ∈ gs) :
    OnlyTouches gs s (updWork a0 a1 a2 a3 a4) := by
  unfold updWork
  iterate 40 all_goals (try first
    | with_reducible assumption
    | with_reducible refine updLayer_only ?_ h_bind
    )

theorem releaseHeld_only {gs : List Group} {s : State} {a0 a1 a2 a3} (hs : OnlyTouches gs s a3) (h_out : Group.out ∈ gs) (h_fab : Group.fab ∈ gs) (h_bind : Group.bind ∈ gs) :
    OnlyTouches gs s (releaseHeld a0 a1 a2 a3) := by
  unfold releaseHeld
  iterate 40 all_goals (try first
    | with_reducible assumption
    | with_reducible refine forwardPartial_only ?_ h_out h_fab
    | with_reducible refine foldOn_only ?_ h_out h_fab h_bind
    | with_reducible refine updWork_only ?_ h_bind
    | with_reducible refine foldl_only (fun u x hu => ?_) ?_
    | with_reducible refine foldl_fst_only (fun u x hu => ?_) ?_
    | split
    )

theorem sendOwn_only {gs : List Group} {s : State} {a0 a1 a2 a3 a4 a5 a6} (hs : OnlyTouches gs s a6) (h_out : Group.out ∈ gs) (h_fab : Group.fab ∈ gs) (h_bind : Group.bind ∈ gs) :
    OnlyTouches gs s (sendOwn a0 a1 a2 a3 a4 a5 a6) := by
  unfold sendOwn
  iterate 40 all_goals (try first
    | with_reducible assumption
    | with_reducible refine updSession_only ?_ h_bind
    | with_reducible refine sendContrib_only ?_ h_out h_fab
    | with_reducible refine foldl_only (fun u x hu => ?_) ?_
    | with_reducible refine foldl_fst_only (fun u x hu => ?_) ?_
    | split
    )

theorem passRoll_only {gs : List Group} {s : State} {a0 a1 a2 a3 a4} (hs : OnlyTouches gs s a4) (h_out : Group.out ∈ gs) (h_fab : Group.fab ∈ gs) (h_bind : Group.bind ∈ gs) :
    OnlyTouches gs s (passRoll a0 a1 a2 a3 a4) := by
  unfold passRoll
  iterate 40 all_goals (try first
    | with_reducible assumption
    | with_reducible refine sendOwn_only ?_ h_out h_fab h_bind
    | with_reducible refine sendRank_only ?_ h_out h_fab
    | with_reducible refine updWork_only ?_ h_bind
    | split
    )

theorem afterClose_only {gs : List Group} {s : State} {a0 a1 a2 a3} (hs : OnlyTouches gs s a3) (h_out : Group.out ∈ gs) (h_free : Group.free ∈ gs) (h_parts : Group.parts ∈ gs) (h_mem : Group.mem ∈ gs) (h_fab : Group.fab ∈ gs) (h_bind : Group.bind ∈ gs) (h_ras : Group.ras ∈ gs) (h_dict : Group.dict ∈ gs) :
    OnlyTouches gs s (afterClose a0 a1 a2 a3) := by
  unfold afterClose
  iterate 40 all_goals (try first
    | with_reducible assumption
    | with_reducible refine releaseHeld_only ?_ h_out h_fab h_bind
    | with_reducible refine modRed_only ?_ h_bind
    | with_reducible refine sendOwn_only ?_ h_out h_fab h_bind
    | with_reducible refine passRoll_only ?_ h_out h_fab h_bind
    | with_reducible refine tryClose_only ?_ h_out h_free h_parts h_mem h_fab h_bind h_ras h_dict
    | with_reducible refine updWork_only ?_ h_bind
    | with_reducible refine foldl_only (fun u x hu => ?_) ?_
    | with_reducible refine foldl_fst_only (fun u x hu => ?_) ?_
    | split
    | dsimp only
    )

theorem answerResend_only {gs : List Group} {s : State} {a0 a1 a2 a3 a4} (hs : OnlyTouches gs s a4) (h_out : Group.out ∈ gs) (h_free : Group.free ∈ gs) (h_parts : Group.parts ∈ gs) (h_mem : Group.mem ∈ gs) (h_fab : Group.fab ∈ gs) (h_bind : Group.bind ∈ gs) (h_ras : Group.ras ∈ gs) (h_dict : Group.dict ∈ gs) :
    OnlyTouches gs s (answerResend a0 a1 a2 a3 a4).1 := by
  unfold answerResend
  iterate 40 all_goals (try first
    | with_reducible assumption
    | with_reducible refine takeChunk_only ?_ h_out h_free h_parts h_mem h_fab h_bind h_ras h_dict
    | with_reducible refine sendRank_only ?_ h_out h_fab
    | with_reducible refine foldl_only (fun u x hu => ?_) ?_
    | with_reducible refine foldl_fst_only (fun u x hu => ?_) ?_
    | split
    )

theorem expectResend_only {gs : List Group} {s : State} {a0 a1 a2 a3} (hs : OnlyTouches gs s a3) (h_bind : Group.bind ∈ gs) :
    OnlyTouches gs s (expectResend a0 a1 a2 a3) := by
  unfold expectResend
  iterate 40 all_goals (try first
    | with_reducible assumption
    | with_reducible refine updLayer_only ?_ h_bind
    )

theorem requestResend_only {gs : List Group} {s : State} {a0 a1 a2 a3} (hs : OnlyTouches gs s a3) (h_out : Group.out ∈ gs) (h_free : Group.free ∈ gs) (h_parts : Group.parts ∈ gs) (h_mem : Group.mem ∈ gs) (h_fab : Group.fab ∈ gs) (h_bind : Group.bind ∈ gs) (h_ras : Group.ras ∈ gs) (h_dict : Group.dict ∈ gs) :
    OnlyTouches gs s (requestResend a0 a1 a2 a3) := by
  unfold requestResend
  iterate 40 all_goals (try first
    | with_reducible assumption
    | with_reducible refine answerResend_only ?_ h_out h_free h_parts h_mem h_fab h_bind h_ras h_dict
    | with_reducible refine sendRank_only ?_ h_out h_fab
    | with_reducible refine expectResend_only ?_ h_bind
    | with_reducible refine fst_only (by assumption) ?_
    | split
    | dsimp only
    )

theorem startRecovery_only {gs : List Group} {s : State} {a0 a1 a2 a3} (hs : OnlyTouches gs s a3) (h_out : Group.out ∈ gs) (h_free : Group.free ∈ gs) (h_parts : Group.parts ∈ gs) (h_mem : Group.mem ∈ gs) (h_fab : Group.fab ∈ gs) (h_bind : Group.bind ∈ gs) (h_ras : Group.ras ∈ gs) (h_dict : Group.dict ∈ gs) :
    OnlyTouches gs s (startRecovery a0 a1 a2 a3) := by
  unfold startRecovery
  iterate 40 all_goals (try first
    | with_reducible assumption
    | with_reducible refine updSession_only ?_ h_bind
    | with_reducible refine modRed_only ?_ h_bind
    | with_reducible refine sendRank_only ?_ h_out h_fab
    | with_reducible refine tryClose_only ?_ h_out h_free h_parts h_mem h_fab h_bind h_ras h_dict
    | with_reducible refine foldl_only (fun u x hu => ?_) ?_
    | with_reducible refine foldl_fst_only (fun u x hu => ?_) ?_
    | split
    )

theorem afterDepartures_only {gs : List Group} {s : State} {a0 a1 a2 a3} (hs : OnlyTouches gs s a3) (h_out : Group.out ∈ gs) (h_free : Group.free ∈ gs) (h_parts : Group.parts ∈ gs) (h_mem : Group.mem ∈ gs) (h_fab : Group.fab ∈ gs) (h_bind : Group.bind ∈ gs) (h_ras : Group.ras ∈ gs) (h_dict : Group.dict ∈ gs) :
    OnlyTouches gs s (afterDepartures a0 a1 a2 a3) := by
  unfold afterDepartures
  iterate 40 all_goals (try first
    | with_reducible assumption
    | with_reducible refine requestResend_only ?_ h_out h_free h_parts h_mem h_fab h_bind h_ras h_dict
    | with_reducible refine startRecovery_only ?_ h_out h_free h_parts h_mem h_fab h_bind h_ras h_dict
    | with_reducible refine tryClose_only ?_ h_out h_free h_parts h_mem h_fab h_bind h_ras h_dict
    | with_reducible refine foldl_only (fun u x hu => ?_) ?_
    | with_reducible refine foldl_fst_only (fun u x hu => ?_) ?_
    | split
    | dsimp only
    )

theorem setRequest_only {gs : List Group} {s : State} {a0 a1} (hs : OnlyTouches gs s a1) (h_pow : Group.pow ∈ gs) :
    OnlyTouches gs s (setRequest a0 a1) := by
  unfold setRequest
  iterate 40 all_goals (try first
    | with_reducible assumption
    | split
    | dsimp only
    | with_reducible refine OnlyTouches.upd ?_ rfl (.inr rfl) (.inr rfl) (.inr rfl) (.inr rfl) (.inr rfl) (.inr rfl) (.inr rfl) (.inr rfl) (.inr rfl) (.inr rfl) (.inr rfl) (.inr rfl) (.inr rfl) (.inr rfl) (.inr rfl) (.inr rfl) (.inl h_pow) (.inr rfl)
    )

theorem setLatched_only {gs : List Group} {s : State} {a0 a1 a2} (hs : OnlyTouches gs s a2) (h_pow : Group.pow ∈ gs) :
    OnlyTouches gs s (setLatched a0 a1 a2) := by
  unfold setLatched
  iterate 40 all_goals (try first
    | with_reducible assumption
    | split
    | dsimp only
    | with_reducible refine OnlyTouches.upd ?_ rfl (.inr rfl) (.inr rfl) (.inr rfl) (.inr rfl) (.inr rfl) (.inr rfl) (.inr rfl) (.inr rfl) (.inr rfl) (.inr rfl) (.inr rfl) (.inr rfl) (.inr rfl) (.inr rfl) (.inr rfl) (.inr rfl) (.inl h_pow) (.inr rfl)
    )

theorem requestStandby_only {gs : List Group} {s : State} {a0} (hs : OnlyTouches gs s a0) (h_tick : Group.tick ∈ gs) (h_gov : Group.gov ∈ gs) (h_parts : Group.parts ∈ gs) (h_rings : Group.rings ∈ gs) (h_arrays : Group.arrays ∈ gs) (h_mem : Group.mem ∈ gs) (h_fab : Group.fab ∈ gs) (h_keys : Group.keys ∈ gs) (h_bind : Group.bind ∈ gs) (h_ras : Group.ras ∈ gs) (h_dict : Group.dict ∈ gs) (h_pow : Group.pow ∈ gs) :
    OnlyTouches gs s (requestStandby a0).1 := by
  unfold requestStandby
  iterate 40 all_goals (try first
    | with_reducible assumption
    | with_reducible refine beginStandby_only ?_ h_tick h_gov h_parts h_rings h_arrays h_mem h_fab h_keys h_bind h_ras h_dict h_pow
    | with_reducible refine setRequest_only ?_ h_pow
    | with_reducible refine setLatched_only ?_ h_pow
    | with_reducible refine acceptLower_only ?_ h_tick h_gov h_parts h_rings h_arrays h_mem h_fab h_keys h_bind h_ras h_dict h_pow
    | split
    )

theorem requestDoze_only {gs : List Group} {s : State} {a0} (hs : OnlyTouches gs s a0) (h_tick : Group.tick ∈ gs) (h_gov : Group.gov ∈ gs) (h_parts : Group.parts ∈ gs) (h_rings : Group.rings ∈ gs) (h_arrays : Group.arrays ∈ gs) (h_mem : Group.mem ∈ gs) (h_fab : Group.fab ∈ gs) (h_keys : Group.keys ∈ gs) (h_bind : Group.bind ∈ gs) (h_ras : Group.ras ∈ gs) (h_dict : Group.dict ∈ gs) (h_pow : Group.pow ∈ gs) :
    OnlyTouches gs s (requestDoze a0).1 := by
  unfold requestDoze
  iterate 40 all_goals (try first
    | with_reducible assumption
    | with_reducible refine setRequest_only ?_ h_pow
    | with_reducible refine setLatched_only ?_ h_pow
    | with_reducible refine acceptLower_only ?_ h_tick h_gov h_parts h_rings h_arrays h_mem h_fab h_keys h_bind h_ras h_dict h_pow
    | split
    )

theorem carryLatched_only {gs : List Group} {s : State} {a0} (hs : OnlyTouches gs s a0) (h_tick : Group.tick ∈ gs) (h_gov : Group.gov ∈ gs) (h_parts : Group.parts ∈ gs) (h_rings : Group.rings ∈ gs) (h_arrays : Group.arrays ∈ gs) (h_mem : Group.mem ∈ gs) (h_fab : Group.fab ∈ gs) (h_keys : Group.keys ∈ gs) (h_bind : Group.bind ∈ gs) (h_ras : Group.ras ∈ gs) (h_dict : Group.dict ∈ gs) (h_pow : Group.pow ∈ gs) :
    OnlyTouches gs s (carryLatched a0) := by
  unfold carryLatched
  iterate 40 all_goals (try first
    | with_reducible assumption
    | with_reducible refine beginStandby_only ?_ h_tick h_gov h_parts h_rings h_arrays h_mem h_fab h_keys h_bind h_ras h_dict h_pow
    | with_reducible refine requestStandby_only ?_ h_tick h_gov h_parts h_rings h_arrays h_mem h_fab h_keys h_bind h_ras h_dict h_pow
    | with_reducible refine requestDoze_only ?_ h_tick h_gov h_parts h_rings h_arrays h_mem h_fab h_keys h_bind h_ras h_dict h_pow
    | with_reducible refine fst_only (by assumption) ?_
    | split
    | dsimp only
    | with_reducible refine OnlyTouches.upd ?_ rfl (.inr rfl) (.inr rfl) (.inl h_tick) (.inl h_gov) (.inl h_parts) (.inl h_rings) (.inl h_arrays) (.inl h_mem) (.inl h_fab) (.inl h_keys) (.inl h_bind) (.inr rfl) (.inl h_ras) (.inr rfl) (.inl h_dict) (.inr rfl) (.inl h_pow) (.inr rfl)
    )

theorem reachActive_only {gs : List Group} {s : State} {a0} (hs : OnlyTouches gs s a0) (h_tick : Group.tick ∈ gs) (h_gov : Group.gov ∈ gs) (h_parts : Group.parts ∈ gs) (h_rings : Group.rings ∈ gs) (h_arrays : Group.arrays ∈ gs) (h_mem : Group.mem ∈ gs) (h_fab : Group.fab ∈ gs) (h_keys : Group.keys ∈ gs) (h_bind : Group.bind ∈ gs) (h_ras : Group.ras ∈ gs) (h_dict : Group.dict ∈ gs) (h_pow : Group.pow ∈ gs) (h_fw : Group.fw ∈ gs) :
    OnlyTouches gs s (reachActive a0) := by
  unfold reachActive
  iterate 40 all_goals (try first
    | with_reducible assumption
    | with_reducible refine carryLatched_only ?_ h_tick h_gov h_parts h_rings h_arrays h_mem h_fab h_keys h_bind h_ras h_dict h_pow
    | split
    | dsimp only
    | with_reducible refine OnlyTouches.upd ?_ rfl (.inr rfl) (.inr rfl) (.inl h_tick) (.inl h_gov) (.inl h_parts) (.inl h_rings) (.inl h_arrays) (.inl h_mem) (.inl h_fab) (.inl h_keys) (.inl h_bind) (.inr rfl) (.inl h_ras) (.inr rfl) (.inl h_dict) (.inr rfl) (.inl h_pow) (.inl h_fw)
    )

theorem joinTick_only {gs : List Group} {s : State} {a0 a1} (hs : OnlyTouches gs s a1) (h_out : Group.out ∈ gs) (h_tick : Group.tick ∈ gs) (h_gov : Group.gov ∈ gs) (h_parts : Group.parts ∈ gs) (h_rings : Group.rings ∈ gs) (h_arrays : Group.arrays ∈ gs) (h_mem : Group.mem ∈ gs) (h_fab : Group.fab ∈ gs) (h_keys : Group.keys ∈ gs) (h_bind : Group.bind ∈ gs) (h_ras : Group.ras ∈ gs) (h_dict : Group.dict ∈ gs) (h_pow : Group.pow ∈ gs) (h_fw : Group.fw ∈ gs) :
    OnlyTouches gs s (joinTick a0 a1) := by
  unfold joinTick
  iterate 40 all_goals (try first
    | with_reducible assumption
    | with_reducible refine hearAnnounce_only ?_ h_out h_tick h_fab
    | with_reducible refine reachActive_only ?_ h_tick h_gov h_parts h_rings h_arrays h_mem h_fab h_keys h_bind h_ras h_dict h_pow h_fw
    | split
    | dsimp only
    | with_reducible refine OnlyTouches.upd ?_ rfl (.inl h_out) (.inr rfl) (.inl h_tick) (.inl h_gov) (.inl h_parts) (.inl h_rings) (.inl h_arrays) (.inl h_mem) (.inl h_fab) (.inl h_keys) (.inl h_bind) (.inr rfl) (.inl h_ras) (.inr rfl) (.inl h_dict) (.inr rfl) (.inl h_pow) (.inl h_fw)
    )

theorem announceIn_only {gs : List Group} {s : State} {a0 a1} (hs : OnlyTouches gs s a1) (h_out : Group.out ∈ gs) (h_tick : Group.tick ∈ gs) (h_gov : Group.gov ∈ gs) (h_parts : Group.parts ∈ gs) (h_rings : Group.rings ∈ gs) (h_arrays : Group.arrays ∈ gs) (h_mem : Group.mem ∈ gs) (h_fab : Group.fab ∈ gs) (h_keys : Group.keys ∈ gs) (h_bind : Group.bind ∈ gs) (h_ras : Group.ras ∈ gs) (h_dict : Group.dict ∈ gs) (h_pow : Group.pow ∈ gs) (h_fw : Group.fw ∈ gs) :
    OnlyTouches gs s (announceIn a0 a1) := by
  unfold announceIn
  iterate 40 all_goals (try first
    | with_reducible assumption
    | with_reducible refine hearAnnounce_only ?_ h_out h_tick h_fab
    | with_reducible refine adoptMaster_only ?_ h_out h_tick h_fab
    | with_reducible refine joinTick_only ?_ h_out h_tick h_gov h_parts h_rings h_arrays h_mem h_fab h_keys h_bind h_ras h_dict h_pow h_fw
    | with_reducible refine forwardAnnounce_only ?_ h_out h_tick h_fab
    | split
    )

theorem executed_only {gs : List Group} {s a : State} {q n} (hs : OnlyTouches gs s a) (h_dict : Group.dict ∈ gs) :
    OnlyTouches gs s (executed q n a) := by
  unfold executed
  refine OnlyTouches.upd hs rfl (.inr rfl) (.inr rfl) (.inr rfl) (.inr rfl) (.inr rfl) (.inr rfl) (.inr rfl) (.inr rfl) (.inr rfl) (.inr rfl) (.inr rfl) (.inr rfl) (.inr rfl) (.inr rfl) (.inl h_dict) (.inr rfl) (.inr rfl) (.inr rfl)

theorem answer_only {gs : List Group} {s : State} {q r} (hs : OnlyTouches gs s r.1) (h_out : Group.out ∈ gs) (h_dict : Group.dict ∈ gs) :
    OnlyTouches gs s (answer q r) := by
  unfold answer
  exact State_emit_only (executed_only hs h_dict) h_out

theorem updSess_only {gs : List Group} {s : State} {a0 a1 a2} (hs : OnlyTouches gs s a2) (h_dict : Group.dict ∈ gs) :
    OnlyTouches gs s (updSess a0 a1 a2) := by
  unfold updSess
  iterate 40 all_goals (try first
    | with_reducible assumption
    | split
    | dsimp only
    | with_reducible refine OnlyTouches.upd ?_ rfl (.inr rfl) (.inr rfl) (.inr rfl) (.inr rfl) (.inr rfl) (.inr rfl) (.inr rfl) (.inr rfl) (.inr rfl) (.inr rfl) (.inr rfl) (.inr rfl) (.inr rfl) (.inr rfl) (.inl h_dict) (.inr rfl) (.inr rfl) (.inr rfl)
    )

theorem answerData_only {gs : List Group} {s : State} {q i j r} (hs : OnlyTouches gs s r.1) (h_out : Group.out ∈ gs) (h_dict : Group.dict ∈ gs) :
    OnlyTouches gs s (answerData q i j r) := by
  unfold answerData
  dsimp only
  refine State_emit_only ?_ h_out
  split
  · exact executed_only hs h_dict
  · exact updSess_only (executed_only hs h_dict) h_dict

theorem answerError_only {gs : List Group} {s : State} {a0 a1 a2 a3} (hs : OnlyTouches gs s a3) (h_out : Group.out ∈ gs) (h_fab : Group.fab ∈ gs) :
    OnlyTouches gs s (answerError a0 a1 a2 a3) := by
  unfold answerError
  iterate 40 all_goals (try first
    | with_reducible assumption
    | with_reducible refine sendPkt_only ?_ h_out h_fab
    )

theorem answerSectors_only {gs : List Group} {s : State} {a0 a1 a2 a3} (hs : OnlyTouches gs s a3) (h_out : Group.out ∈ gs) (h_fab : Group.fab ∈ gs) :
    OnlyTouches gs s (answerSectors a0 a1 a2 a3) := by
  unfold answerSectors
  iterate 40 all_goals (try first
    | with_reducible assumption
    | with_reducible refine sendPkt_only ?_ h_out h_fab
    )

theorem applyQuota_only {gs : List Group} {s : State} {a0 a1} (hs : OnlyTouches gs s a1) (h_out : Group.out ∈ gs) (h_free : Group.free ∈ gs) (h_parts : Group.parts ∈ gs) (h_mem : Group.mem ∈ gs) (h_fab : Group.fab ∈ gs) (h_ras : Group.ras ∈ gs) (h_dict : Group.dict ∈ gs) :
    OnlyTouches gs s (applyQuota a0 a1) := by
  unfold applyQuota
  iterate 40 all_goals (try first
    | with_reducible assumption
    | with_reducible refine State_updPart_only ?_ h_parts
    | with_reducible refine State_putWrites_only ?_ h_out h_free h_parts h_mem h_fab h_ras h_dict
    | split
    | dsimp only
    | with_reducible refine OnlyTouches.upd ?_ rfl (.inl h_out) (.inl h_free) (.inr rfl) (.inr rfl) (.inl h_parts) (.inr rfl) (.inr rfl) (.inl h_mem) (.inl h_fab) (.inr rfl) (.inr rfl) (.inr rfl) (.inl h_ras) (.inr rfl) (.inl h_dict) (.inr rfl) (.inr rfl) (.inr rfl)
    )

theorem applyRates_only {gs : List Group} {s : State} {a0} (hs : OnlyTouches gs s a0) (h_bind : Group.bind ∈ gs) :
    OnlyTouches gs s (applyRates a0) := by
  unfold applyRates
  iterate 40 all_goals (try first
    | with_reducible assumption
    | split
    | dsimp only
    | with_reducible refine OnlyTouches.upd ?_ rfl (.inr rfl) (.inr rfl) (.inr rfl) (.inr rfl) (.inr rfl) (.inr rfl) (.inr rfl) (.inr rfl) (.inr rfl) (.inr rfl) (.inl h_bind) (.inr rfl) (.inr rfl) (.inr rfl) (.inr rfl) (.inr rfl) (.inr rfl) (.inr rfl)
    )

theorem updElastic_only {gs : List Group} {s : State} {a0 a1 a2} (hs : OnlyTouches gs s a2) (h_bind : Group.bind ∈ gs) :
    OnlyTouches gs s (updElastic a0 a1 a2) := by
  unfold updElastic
  iterate 40 all_goals (try first
    | with_reducible assumption
    | with_reducible refine updSession_only ?_ h_bind
    )

theorem noteFailed_only {gs : List Group} {s : State} {a0 a1 a2} (hs : OnlyTouches gs s a2) (h_bind : Group.bind ∈ gs) :
    OnlyTouches gs s (noteFailed a0 a1 a2) := by
  unfold noteFailed
  iterate 40 all_goals (try first
    | with_reducible assumption
    | with_reducible refine updElastic_only ?_ h_bind
    )

theorem sendRoster_only {gs : List Group} {s : State} {a0 a1 a2 a3 a4} (hs : OnlyTouches gs s a4) (h_out : Group.out ∈ gs) (h_fab : Group.fab ∈ gs) :
    OnlyTouches gs s (sendRoster a0 a1 a2 a3 a4) := by
  unfold sendRoster
  iterate 40 all_goals (try first
    | with_reducible assumption
    | with_reducible refine sendRank_only ?_ h_out h_fab
    )

theorem sendHeads_only {gs : List Group} {s : State} {a0 a1 a2 a3} (hs : OnlyTouches gs s a3) (h_out : Group.out ∈ gs) (h_fab : Group.fab ∈ gs) :
    OnlyTouches gs s (sendHeads a0 a1 a2 a3) := by
  unfold sendHeads
  iterate 40 all_goals (try first
    | with_reducible assumption
    | with_reducible refine sendRoster_only ?_ h_out h_fab
    | with_reducible refine foldl_only (fun u x hu => ?_) ?_
    | with_reducible refine foldl_fst_only (fun u x hu => ?_) ?_
    | split
    )

theorem askKeeper_only {gs : List Group} {s : State} {a0 a1 a2} (hs : OnlyTouches gs s a2) (h_out : Group.out ∈ gs) (h_fab : Group.fab ∈ gs) (h_bind : Group.bind ∈ gs) :
    OnlyTouches gs s (askKeeper a0 a1 a2) := by
  unfold askKeeper
  iterate 40 all_goals (try first
    | with_reducible assumption
    | with_reducible refine sendRank_only ?_ h_out h_fab
    | with_reducible refine noteFailed_only ?_ h_bind
    | with_reducible refine sendHeads_only ?_ h_out h_fab
    | with_reducible refine updLayer_only ?_ h_bind
    | split
    )

theorem passKeeper_only {gs : List Group} {s : State} {a0 a1 a2} (hs : OnlyTouches gs s a2) (h_out : Group.out ∈ gs) (h_fab : Group.fab ∈ gs) (h_bind : Group.bind ∈ gs) :
    OnlyTouches gs s (passKeeper a0 a1 a2) := by
  unfold passKeeper
  iterate 40 all_goals (try first
    | with_reducible assumption
    | with_reducible refine askKeeper_only ?_ h_out h_fab h_bind
    | with_reducible refine updLayer_only ?_ h_bind
    )

theorem keepersGone_only {gs : List Group} {s : State} {a0 a1 a2} (hs : OnlyTouches gs s a2) (h_out : Group.out ∈ gs) (h_fab : Group.fab ∈ gs) (h_bind : Group.bind ∈ gs) :
    OnlyTouches gs s (keepersGone a0 a1 a2) := by
  unfold keepersGone
  iterate 40 all_goals (try first
    | with_reducible assumption
    | with_reducible refine passKeeper_only ?_ h_out h_fab h_bind
    | with_reducible refine foldl_only (fun u x hu => ?_) ?_
    | with_reducible refine foldl_fst_only (fun u x hu => ?_) ?_
    | split
    )

theorem handAgain_only {gs : List Group} {s : State} {a0 a1 a2 a3} (hs : OnlyTouches gs s a3) (h_out : Group.out ∈ gs) (h_fab : Group.fab ∈ gs) :
    OnlyTouches gs s (handAgain a0 a1 a2 a3) := by
  unfold handAgain
  iterate 40 all_goals (try first
    | with_reducible assumption
    | with_reducible refine handOver_only ?_ h_out h_fab
    | with_reducible refine foldl_only (fun u x hu => ?_) ?_
    | with_reducible refine foldl_fst_only (fun u x hu => ?_) ?_
    | split
    )

theorem stopSession_only {gs : List Group} {s : State} {a0 a1 a2} (hs : OnlyTouches gs s a2) (h_bind : Group.bind ∈ gs) :
    OnlyTouches gs s (stopSession a0 a1 a2) := by
  unfold stopSession
  iterate 40 all_goals (try first
    | with_reducible assumption
    | with_reducible refine updSession_only ?_ h_bind
    )

theorem publishRestored_only {gs : List Group} {s : State} {a0 a1 a2} (hs : OnlyTouches gs s a2) (h_out : Group.out ∈ gs) (h_free : Group.free ∈ gs) (h_parts : Group.parts ∈ gs) (h_mem : Group.mem ∈ gs) (h_fab : Group.fab ∈ gs) (h_bind : Group.bind ∈ gs) (h_ras : Group.ras ∈ gs) (h_dict : Group.dict ∈ gs) :
    OnlyTouches gs s (publishRestored a0 a1 a2) := by
  unfold publishRestored
  iterate 40 all_goals (try first
    | with_reducible assumption
    | with_reducible refine publish_only ?_ h_out h_free h_parts h_mem h_fab h_bind h_ras h_dict
    | with_reducible refine updLayer_only ?_ h_bind
    | split
    | dsimp only
    )

theorem restoreFrom_only {gs : List Group} {s : State} {a0 a1 a2 a3} (hs : OnlyTouches gs s a3) (h_out : Group.out ∈ gs) (h_free : Group.free ∈ gs) (h_parts : Group.parts ∈ gs) (h_mem : Group.mem ∈ gs) (h_fab : Group.fab ∈ gs) (h_bind : Group.bind ∈ gs) (h_ras : Group.ras ∈ gs) (h_dict : Group.dict ∈ gs) :
    OnlyTouches gs s (restoreFrom a0 a1 a2 a3) := by
  unfold restoreFrom
  iterate 40 all_goals (try first
    | with_reducible assumption
    | with_reducible refine publishRestored_only ?_ h_out h_free h_parts h_mem h_fab h_bind h_ras h_dict
    | with_reducible refine updLayer_only ?_ h_bind
    | split
    )

theorem startRestore_only {gs : List Group} {s : State} {a0 a1 a2 a3} (hs : OnlyTouches gs s a3) (h_out : Group.out ∈ gs) (h_free : Group.free ∈ gs) (h_parts : Group.parts ∈ gs) (h_mem : Group.mem ∈ gs) (h_fab : Group.fab ∈ gs) (h_bind : Group.bind ∈ gs) (h_ras : Group.ras ∈ gs) (h_dict : Group.dict ∈ gs) :
    OnlyTouches gs s (startRestore a0 a1 a2 a3) := by
  unfold startRestore
  iterate 40 all_goals (try first
    | with_reducible assumption
    | with_reducible refine askKeeper_only ?_ h_out h_fab h_bind
    | with_reducible refine restoreFrom_only ?_ h_out h_free h_parts h_mem h_fab h_bind h_ras h_dict
    | with_reducible refine updLayer_only ?_ h_bind
    | split
    | dsimp only
    )

theorem rollBack_only {gs : List Group} {s : State} {a0 a1 a2 a3 a4} (hs : OnlyTouches gs s a4) (h_out : Group.out ∈ gs) (h_free : Group.free ∈ gs) (h_parts : Group.parts ∈ gs) (h_mem : Group.mem ∈ gs) (h_fab : Group.fab ∈ gs) (h_bind : Group.bind ∈ gs) (h_ras : Group.ras ∈ gs) (h_dict : Group.dict ∈ gs) :
    OnlyTouches gs s (rollBack a0 a1 a2 a3 a4) := by
  unfold rollBack
  iterate 40 all_goals (try first
    | with_reducible assumption
    | with_reducible refine updSession_only ?_ h_bind
    | with_reducible refine passKeeper_only ?_ h_out h_fab h_bind
    | with_reducible refine startRestore_only ?_ h_out h_free h_parts h_mem h_fab h_bind h_ras h_dict
    | with_reducible refine foldl_only (fun u x hu => ?_) ?_
    | with_reducible refine foldl_fst_only (fun u x hu => ?_) ?_
    | split
    | dsimp only
    )

theorem applyRoster_only {gs : List Group} {s : State} {a0 a1 a2} (hs : OnlyTouches gs s a2) (h_out : Group.out ∈ gs) (h_free : Group.free ∈ gs) (h_parts : Group.parts ∈ gs) (h_mem : Group.mem ∈ gs) (h_fab : Group.fab ∈ gs) (h_bind : Group.bind ∈ gs) (h_ras : Group.ras ∈ gs) (h_dict : Group.dict ∈ gs) :
    OnlyTouches gs s (applyRoster a0 a1 a2) := by
  unfold applyRoster
  iterate 40 all_goals (try first
    | with_reducible assumption
    | with_reducible refine updSession_only ?_ h_bind
    | with_reducible refine updElastic_only ?_ h_bind
    | with_reducible refine keepersGone_only ?_ h_out h_fab h_bind
    | with_reducible refine handAgain_only ?_ h_out h_fab
    | with_reducible refine afterDepartures_only ?_ h_out h_free h_parts h_mem h_fab h_bind h_ras h_dict
    | with_reducible refine stopSession_only ?_ h_bind
    | with_reducible refine rollBack_only ?_ h_out h_free h_parts h_mem h_fab h_bind h_ras h_dict
    | split
    | dsimp only
    )

theorem guarded_only {gs : List Group} {s a : State} {i b f} (hs : OnlyTouches gs s a) (hf : OnlyTouches gs s f.1)  :
    OnlyTouches gs s (guarded a i b f).1 := by
  unfold guarded
  split
  · exact hf
  · exact hs

theorem opRingEnable_only {gs : List Group} {s : State} {a0 a1 a2 a3 a4} (hs : OnlyTouches gs s a4) (h_rings : Group.rings ∈ gs) :
    OnlyTouches gs s (opRingEnable a0 a1 a2 a3 a4).1 := by
  unfold opRingEnable
  iterate 40 all_goals (try first
    | with_reducible assumption
    | with_reducible refine guarded_only ?_ ?_
    | with_reducible refine State_updRing_only ?_ h_rings
    )

theorem listSession_only {gs : List Group} {s : State} {a0 a1} (hs : OnlyTouches gs s a1) (h_bind : Group.bind ∈ gs) :
    OnlyTouches gs s (listSession a0 a1) := by
  unfold listSession
  iterate 40 all_goals (try first
    | with_reducible assumption
    | split
    | dsimp only
    | with_reducible refine OnlyTouches.upd ?_ rfl (.inr rfl) (.inr rfl) (.inr rfl) (.inr rfl) (.inr rfl) (.inr rfl) (.inr rfl) (.inr rfl) (.inr rfl) (.inr rfl) (.inl h_bind) (.inr rfl) (.inr rfl) (.inr rfl) (.inr rfl) (.inr rfl) (.inr rfl) (.inr rfl)
    )

theorem opSessionValue_only {gs : List Group} {s : State} {a0 a1 a2 a3 a4} (hs : OnlyTouches gs s a4) (h_bind : Group.bind ∈ gs) :
    OnlyTouches gs s (opSessionValue a0 a1 a2 a3 a4).1 := by
  unfold opSessionValue
  iterate 40 all_goals (try first
    | with_reducible assumption
    | with_reducible refine updSession_only ?_ h_bind
    | with_reducible refine guarded_only ?_ ?_
    | with_reducible refine listSession_only ?_ h_bind
    )

theorem openWork_only {gs : List Group} {s : State} {a0 a1 a2 a3} (hs : OnlyTouches gs s a3) (h_bind : Group.bind ∈ gs) :
    OnlyTouches gs s (openWork a0 a1 a2 a3) := by
  unfold openWork
  iterate 40 all_goals (try first
    | with_reducible assumption
    | with_reducible refine updLayer_only ?_ h_bind
    )

theorem buildLayer_only {gs : List Group} {s : State} {a0 a1 a2 a3} (hs : OnlyTouches gs s a3) (h_out : Group.out ∈ gs) (h_free : Group.free ∈ gs) (h_parts : Group.parts ∈ gs) (h_mem : Group.mem ∈ gs) (h_fab : Group.fab ∈ gs) (h_bind : Group.bind ∈ gs) (h_ras : Group.ras ∈ gs) (h_dict : Group.dict ∈ gs) :
    OnlyTouches gs s (buildLayer a0 a1 a2 a3) := by
  unfold buildLayer
  iterate 40 all_goals (try first
    | with_reducible assumption
    | with_reducible refine updSession_only ?_ h_bind
    | with_reducible refine afterClose_only ?_ h_out h_free h_parts h_mem h_fab h_bind h_ras h_dict
    | with_reducible refine openWork_only ?_ h_bind
    | with_reducible refine foldl_only (fun u x hu => ?_) ?_
    | with_reducible refine foldl_fst_only (fun u x hu => ?_) ?_
    | split
    )

theorem withholdLayer_only {gs : List Group} {s : State} {a0 a1 a2 a3} (hs : OnlyTouches gs s a3) (h_out : Group.out ∈ gs) (h_free : Group.free ∈ gs) (h_parts : Group.parts ∈ gs) (h_mem : Group.mem ∈ gs) (h_fab : Group.fab ∈ gs) (h_bind : Group.bind ∈ gs) (h_ras : Group.ras ∈ gs) (h_dict : Group.dict ∈ gs) :
    OnlyTouches gs s (withholdLayer a0 a1 a2 a3) := by
  unfold withholdLayer
  iterate 40 all_goals (try first
    | with_reducible assumption
    | with_reducible refine afterClose_only ?_ h_out h_free h_parts h_mem h_fab h_bind h_ras h_dict
    | with_reducible refine sendRank_only ?_ h_out h_fab
    | with_reducible refine openWork_only ?_ h_bind
    | with_reducible refine updLayer_only ?_ h_bind
    | split
    )

theorem closeRank_only {gs : List Group} {s : State} {a0 a1 a2 a3} (hs : OnlyTouches gs s a3) (h_out : Group.out ∈ gs) (h_free : Group.free ∈ gs) (h_parts : Group.parts ∈ gs) (h_mem : Group.mem ∈ gs) (h_fab : Group.fab ∈ gs) (h_bind : Group.bind ∈ gs) (h_ras : Group.ras ∈ gs) (h_dict : Group.dict ∈ gs) :
    OnlyTouches gs s (closeRank a0 a1 a2 a3) := by
  unfold closeRank
  iterate 40 all_goals (try first
    | with_reducible assumption
    | with_reducible refine updSession_only ?_ h_bind
    | with_reducible refine buildLayer_only ?_ h_out h_free h_parts h_mem h_fab h_bind h_ras h_dict
    | with_reducible refine withholdLayer_only ?_ h_out h_free h_parts h_mem h_fab h_bind h_ras h_dict
    | with_reducible refine updLayer_only ?_ h_bind
    | split
    )

theorem opCloseLayer_only {gs : List Group} {s : State} {a0 a1 a2 a3} (hs : OnlyTouches gs s a3) (h_out : Group.out ∈ gs) (h_free : Group.free ∈ gs) (h_parts : Group.parts ∈ gs) (h_mem : Group.mem ∈ gs) (h_fab : Group.fab ∈ gs) (h_bind : Group.bind ∈ gs) (h_ras : Group.ras ∈ gs) (h_dict : Group.dict ∈ gs) :
    OnlyTouches gs s (opCloseLayer a0 a1 a2 a3).1 := by
  unfold opCloseLayer
  iterate 40 all_goals (try first
    | with_reducible assumption
    | with_reducible refine guarded_only ?_ ?_
    | with_reducible refine closeRank_only ?_ h_out h_free h_parts h_mem h_fab h_bind h_ras h_dict
    )

theorem setOpStatus_only {gs : List Group} {s : State} {i r} (hs : OnlyTouches gs s r.1) (h_bind : Group.bind ∈ gs) :
    OnlyTouches gs s (setOpStatus i r).1 := by
  exact updSession_only hs h_bind

theorem noteDigest_only {gs : List Group} {s : State} {a0 a1 a2 a3} (hs : OnlyTouches gs s a3) (h_bind : Group.bind ∈ gs) :
    OnlyTouches gs s (noteDigest a0 a1 a2 a3) := by
  unfold noteDigest
  iterate 40 all_goals (try first
    | with_reducible assumption
    | with_reducible refine updSession_only ?_ h_bind
    | split
    )

theorem sessionKeys_only {gs : List Group} {s t : State} {p x d a r} (e : sessionKeys p x d a = some (t, r)) (hs : OnlyTouches gs s a) (h_free : Group.free ∈ gs) (h_keys : Group.keys ∈ gs) :
    OnlyTouches gs s t := by
  unfold sessionKeys at e
  split at e
  · split at e
    · rename_i h1
      rw [Option.map_eq_some_iff] at e
      obtain ⟨⟨q, j⟩, hq, e⟩ := e
      obtain rfl : q = t := congrArg Prod.fst e
      exact addKey_only hq (addKey_only h1 hs h_free h_keys) h_free h_keys
    · cases e
  · cases e

theorem flowSlots_only {gs : List Group} {s t : State} {k o d x a r} (e : flowSlots k o d x a = some (t, r)) (hs : OnlyTouches gs s a) (h_free : Group.free ∈ gs) (h_keys : Group.keys ∈ gs) :
    OnlyTouches gs s t := by
  unfold flowSlots at e
  split at e
  · exact sessionKeys_only e hs h_free h_keys
  · rw [Option.map_eq_some_iff] at e
    obtain ⟨j, _, e⟩ := e
    obtain rfl : a = t := congrArg Prod.fst e
    exact hs
  · obtain rfl : a = t := congrArg Prod.fst (Option.some.inj e)
    exact hs

theorem sendHandshake_only {gs : List Group} {s : State} {a0 a1 a2 a3 a4 a5 a6 a7} (hs : OnlyTouches gs s a7) (h_out : Group.out ∈ gs) (h_fab : Group.fab ∈ gs) :
    OnlyTouches gs s (sendHandshake a0 a1 a2 a3 a4 a5 a6 a7) := by
  unfold sendHandshake
  iterate 40 all_goals (try first
    | with_reducible assumption
    | with_reducible refine State_updStrait_only ?_ h_fab
    | with_reducible refine State_emit_only ?_ h_out
    | split
    )

theorem offerHello_only {gs : List Group} {s : State} {a0 a1 a2} (hs : OnlyTouches gs s a2) (h_out : Group.out ∈ gs) (h_free : Group.free ∈ gs) (h_fab : Group.fab ∈ gs) :
    OnlyTouches gs s (offerHello a0 a1 a2) := by
  unfold offerHello
  iterate 40 all_goals (try first
    | with_reducible assumption
    | with_reducible refine State_entropy_only ?_ h_free
    | with_reducible refine sendHandshake_only ?_ h_out h_fab
    | with_reducible refine snd_only (by assumption) ?_
    | split
    | dsimp only
    | with_reducible refine OnlyTouches.upd ?_ rfl (.inl h_out) (.inl h_free) (.inr rfl) (.inr rfl) (.inr rfl) (.inr rfl) (.inr rfl) (.inr rfl) (.inl h_fab) (.inr rfl) (.inr rfl) (.inr rfl) (.inr rfl) (.inr rfl) (.inr rfl) (.inr rfl) (.inr rfl) (.inr rfl)
    )

theorem openFlow_only {gs : List Group} {s : State} {a0 a1 a2 a3 a4 a5} (hs : OnlyTouches gs s a5) (h_out : Group.out ∈ gs) (h_free : Group.free ∈ gs) (h_fab : Group.fab ∈ gs) (h_keys : Group.keys ∈ gs) :
    OnlyTouches gs s (openFlow a0 a1 a2 a3 a4 a5).1 := by
  unfold openFlow
  iterate 40 all_goals (try first
    | with_reducible assumption
    | with_reducible refine setFlow_only ?_ h_fab
    | with_reducible refine flowSlots_only (by assumption) ?_ h_free h_keys
    | with_reducible refine offerHello_only ?_ h_out h_free h_fab
    | split
    | dsimp only
    | with_reducible refine OnlyTouches.upd ?_ rfl (.inl h_out) (.inl h_free) (.inr rfl) (.inr rfl) (.inr rfl) (.inr rfl) (.inr rfl) (.inr rfl) (.inl h_fab) (.inl h_keys) (.inr rfl) (.inr rfl) (.inr rfl) (.inr rfl) (.inr rfl) (.inr rfl) (.inr rfl) (.inr rfl)
    )

theorem openFlows_only {gs : List Group} {s : State} {a0 a1 a2 a3 a4} (hs : OnlyTouches gs s a4) (h_out : Group.out ∈ gs) (h_free : Group.free ∈ gs) (h_parts : Group.parts ∈ gs) (h_mem : Group.mem ∈ gs) (h_fab : Group.fab ∈ gs) (h_keys : Group.keys ∈ gs) (h_ras : Group.ras ∈ gs) (h_dict : Group.dict ∈ gs) :
    OnlyTouches gs s (openFlows a0 a1 a2 a3 a4) := by
  unfold openFlows
  iterate 40 all_goals (try first
    | with_reducible assumption
    | with_reducible refine openFlow_only ?_ h_out h_free h_fab h_keys
    | with_reducible refine State_putVM_only ?_ h_out h_free h_parts h_mem h_ras h_dict
    | with_reducible refine State_emit_only ?_ h_out
    | with_reducible refine fst_only (by assumption) ?_
    | with_reducible refine foldl_only (fun u x hu => ?_) ?_
    | with_reducible refine foldl_fst_only (fun u x hu => ?_) ?_
    | split
    | dsimp only
    | with_reducible refine OnlyTouches.upd ?_ rfl (.inl h_out) (.inl h_free) (.inr rfl) (.inr rfl) (.inl h_parts) (.inr rfl) (.inr rfl) (.inl h_mem) (.inl h_fab) (.inl h_keys) (.inr rfl) (.inr rfl) (.inl h_ras) (.inr rfl) (.inl h_dict) (.inr rfl) (.inr rfl) (.inr rfl)
    )

theorem publishFirst_only {gs : List Group} {s : State} {a0 a1 a2} (hs : OnlyTouches gs s a2) (h_out : Group.out ∈ gs) (h_free : Group.free ∈ gs) (h_parts : Group.parts ∈ gs) (h_mem : Group.mem ∈ gs) (h_fab : Group.fab ∈ gs) (h_bind : Group.bind ∈ gs) (h_ras : Group.ras ∈ gs) (h_dict : Group.dict ∈ gs) :
    OnlyTouches gs s (publishFirst a0 a1 a2) := by
  unfold publishFirst
  iterate 40 all_goals (try first
    | with_reducible assumption
    | with_reducible refine publish_only ?_ h_out h_free h_parts h_mem h_fab h_bind h_ras h_dict
    | with_reducible refine updLayer_only ?_ h_bind
    | split
    | dsimp only
    | with_reducible refine OnlyTouches.upd ?_ rfl (.inl h_out) (.inl h_free) (.inr rfl) (.inr rfl) (.inl h_parts) (.inr rfl) (.inr rfl) (.inl h_mem) (.inl h_fab) (.inr rfl) (.inl h_bind) (.inr rfl) (.inl h_ras) (.inr rfl) (.inl h_dict) (.inr rfl) (.inr rfl) (.inr rfl)
    )

theorem tryRun_only {gs : List Group} {s : State} {a0 a1} (hs : OnlyTouches gs s a1) (h_out : Group.out ∈ gs) (h_free : Group.free ∈ gs) (h_parts : Group.parts ∈ gs) (h_mem : Group.mem ∈ gs) (h_fab : Group.fab ∈ gs) (h_bind : Group.bind ∈ gs) (h_ras : Group.ras ∈ gs) (h_dict : Group.dict ∈ gs) :
    OnlyTouches gs s (tryRun a0 a1) := by
  unfold tryRun
  iterate 40 all_goals (try first
    | with_reducible assumption
    | with_reducible refine publishFirst_only ?_ h_out h_free h_parts h_mem h_fab h_bind h_ras h_dict
    | with_reducible refine updSession_only ?_ h_bind
    | with_reducible refine foldl_only (fun u x hu => ?_) ?_
    | with_reducible refine foldl_fst_only (fun u x hu => ?_) ?_
    | split
    )

theorem doOpen_only {gs : List Group} {s : State} {a0 a1 a2 a3} (hs : OnlyTouches gs s a3) (h_out : Group.out ∈ gs) (h_free : Group.free ∈ gs) (h_parts : Group.parts ∈ gs) (h_mem : Group.mem ∈ gs) (h_fab : Group.fab ∈ gs) (h_keys : Group.keys ∈ gs) (h_bind : Group.bind ∈ gs) (h_ras : Group.ras ∈ gs) (h_dict : Group.dict ∈ gs) :
    OnlyTouches gs s (doOpen a0 a1 a2 a3).1 := by
  unfold doOpen
  iterate 40 all_goals (try first
    | with_reducible assumption
    | with_reducible refine noteDigest_only ?_ h_bind
    | with_reducible refine openFlows_only ?_ h_out h_free h_parts h_mem h_fab h_keys h_ras h_dict
    | with_reducible refine tryRun_only ?_ h_out h_free h_parts h_mem h_fab h_bind h_ras h_dict
    | split
    | dsimp only
    | with_reducible refine OnlyTouches.upd ?_ rfl (.inl h_out) (.inl h_free) (.inr rfl) (.inr rfl) (.inl h_parts) (.inr rfl) (.inr rfl) (.inl h_mem) (.inl h_fab) (.inl h_keys) (.inl h_bind) (.inr rfl) (.inl h_ras) (.inr rfl) (.inl h_dict) (.inr rfl) (.inr rfl) (.inr rfl)
    )

theorem opSessionOpen_only {gs : List Group} {s : State} {a0 a1 a2} (hs : OnlyTouches gs s a2) (h_out : Group.out ∈ gs) (h_free : Group.free ∈ gs) (h_parts : Group.parts ∈ gs) (h_mem : Group.mem ∈ gs) (h_fab : Group.fab ∈ gs) (h_keys : Group.keys ∈ gs) (h_bind : Group.bind ∈ gs) (h_ras : Group.ras ∈ gs) (h_dict : Group.dict ∈ gs) :
    OnlyTouches gs s (opSessionOpen a0 a1 a2).1 := by
  unfold opSessionOpen
  iterate 40 all_goals (try first
    | with_reducible assumption
    | with_reducible refine guarded_only ?_ ?_
    | with_reducible refine listSession_only ?_ h_bind
    | with_reducible refine setOpStatus_only ?_ h_bind
    | with_reducible refine doOpen_only ?_ h_out h_free h_parts h_mem h_fab h_keys h_bind h_ras h_dict
    | with_reducible refine fst_only (by assumption) ?_
    | split
    )

theorem closeFlows_only {gs : List Group} {s : State} {a0 a1 a2} (hs : OnlyTouches gs s a2) (h_fab : Group.fab ∈ gs) (h_keys : Group.keys ∈ gs) :
    OnlyTouches gs s (closeFlows a0 a1 a2) := by
  unfold closeFlows
  iterate 40 all_goals (try first
    | with_reducible assumption
    | split
    | dsimp only
    | with_reducible refine OnlyTouches.upd ?_ rfl (.inr rfl) (.inr rfl) (.inr rfl) (.inr rfl) (.inr rfl) (.inr rfl) (.inr rfl) (.inr rfl) (.inl h_fab) (.inl h_keys) (.inr rfl) (.inr rfl) (.inr rfl) (.inr rfl) (.inr rfl) (.inr rfl) (.inr rfl) (.inr rfl)
    )

theorem closeSession_only {gs : List Group} {s : State} {a0 a1} (hs : OnlyTouches gs s a1) (h_out : Group.out ∈ gs) (h_free : Group.free ∈ gs) (h_parts : Group.parts ∈ gs) (h_mem : Group.mem ∈ gs) (h_fab : Group.fab ∈ gs) (h_keys : Group.keys ∈ gs) (h_bind : Group.bind ∈ gs) (h_ras : Group.ras ∈ gs) (h_dict : Group.dict ∈ gs) :
    OnlyTouches gs s (closeSession a0 a1) := by
  unfold closeSession
  iterate 40 all_goals (try first
    | with_reducible assumption
    | with_reducible refine updSession_only ?_ h_bind
    | with_reducible refine closeFlows_only ?_ h_fab h_keys
    | with_reducible refine withholdLayer_only ?_ h_out h_free h_parts h_mem h_fab h_bind h_ras h_dict
    | with_reducible refine foldl_only (fun u x hu => ?_) ?_
    | with_reducible refine foldl_fst_only (fun u x hu => ?_) ?_
    | split
    )

theorem opSessionClose_only {gs : List Group} {s : State} {a0 a1 a2} (hs : OnlyTouches gs s a2) (h_out : Group.out ∈ gs) (h_free : Group.free ∈ gs) (h_parts : Group.parts ∈ gs) (h_mem : Group.mem ∈ gs) (h_fab : Group.fab ∈ gs) (h_keys : Group.keys ∈ gs) (h_bind : Group.bind ∈ gs) (h_ras : Group.ras ∈ gs) (h_dict : Group.dict ∈ gs) :
    OnlyTouches gs s (opSessionClose a0 a1 a2).1 := by
  unfold opSessionClose
  iterate 40 all_goals (try first
    | with_reducible assumption
    | with_reducible refine guarded_only ?_ ?_
    | with_reducible refine closeSession_only ?_ h_out h_free h_parts h_mem h_fab h_keys h_bind h_ras h_dict
    | with_reducible refine listSession_only ?_ h_bind
    | with_reducible refine setOpStatus_only ?_ h_bind
    | with_reducible refine fst_only (by assumption) ?_
    | split
    )

theorem opDepartWithdraw_only {gs : List Group} {s : State} {a0 a1 a2} (hs : OnlyTouches gs s a2) (h_bind : Group.bind ∈ gs) :
    OnlyTouches gs s (opDepartWithdraw a0 a1 a2).1 := by
  unfold opDepartWithdraw
  iterate 40 all_goals (try first
    | with_reducible assumption
    | with_reducible refine updElastic_only ?_ h_bind
    | with_reducible refine guarded_only ?_ ?_
    )

theorem opDepartAt_only {gs : List Group} {s : State} {a0 a1 a2 a3} (hs : OnlyTouches gs s a3) (h_bind : Group.bind ∈ gs) :
    OnlyTouches gs s (opDepartAt a0 a1 a2 a3).1 := by
  unfold opDepartAt
  iterate 40 all_goals (try first
    | with_reducible assumption
    | with_reducible refine updElastic_only ?_ h_bind
    | with_reducible refine guarded_only ?_ ?_
    )

theorem withhold_only {gs : List Group} {s : State} {a0 a1 a2 a3} (hs : OnlyTouches gs s a3) (h_out : Group.out ∈ gs) (h_free : Group.free ∈ gs) (h_parts : Group.parts ∈ gs) (h_mem : Group.mem ∈ gs) (h_fab : Group.fab ∈ gs) (h_bind : Group.bind ∈ gs) (h_ras : Group.ras ∈ gs) (h_dict : Group.dict ∈ gs) :
    OnlyTouches gs s (withhold a0 a1 a2 a3) := by
  unfold withhold
  iterate 40 all_goals (try first
    | with_reducible assumption
    | with_reducible refine updSession_only ?_ h_bind
    | with_reducible refine withholdLayer_only ?_ h_out h_free h_parts h_mem h_fab h_bind h_ras h_dict
    | with_reducible refine foldl_only (fun u x hu => ?_) ?_
    | with_reducible refine foldl_fst_only (fun u x hu => ?_) ?_
    | split
    )

theorem opWithhold_only {gs : List Group} {s : State} {a0 a1 a2 a3} (hs : OnlyTouches gs s a3) (h_out : Group.out ∈ gs) (h_free : Group.free ∈ gs) (h_parts : Group.parts ∈ gs) (h_mem : Group.mem ∈ gs) (h_fab : Group.fab ∈ gs) (h_bind : Group.bind ∈ gs) (h_ras : Group.ras ∈ gs) (h_dict : Group.dict ∈ gs) :
    OnlyTouches gs s (opWithhold a0 a1 a2 a3).1 := by
  unfold opWithhold
  iterate 40 all_goals (try first
    | with_reducible assumption
    | with_reducible refine guarded_only ?_ ?_
    | with_reducible refine withhold_only ?_ h_out h_free h_parts h_mem h_fab h_bind h_ras h_dict
    )

theorem updPer_only {gs : List Group} {s : State} {a0 a1 a2} (hs : OnlyTouches gs s a2) (h_dict : Group.dict ∈ gs) :
    OnlyTouches gs s (updPer a0 a1 a2) := by
  unfold updPer
  iterate 40 all_goals (try first
    | with_reducible assumption
    | with_reducible refine updSess_only ?_ h_dict
    )

theorem opOwnerQuery_only {gs : List Group} {s : State} {a0 a1 a2 a3} (hs : OnlyTouches gs s a3) (h_dict : Group.dict ∈ gs) :
    OnlyTouches gs s (opOwnerQuery a0 a1 a2 a3).1 := by
  unfold opOwnerQuery
  iterate 40 all_goals (try first
    | with_reducible assumption
    | with_reducible refine guarded_only ?_ ?_
    | with_reducible refine updPer_only ?_ h_dict
    )

theorem opSessionObject_only {gs : List Group} {s : State} {a0 a1 a2 a3 a4} (hs : OnlyTouches gs s a4) (h_out : Group.out ∈ gs) (h_free : Group.free ∈ gs) (h_parts : Group.parts ∈ gs) (h_mem : Group.mem ∈ gs) (h_fab : Group.fab ∈ gs) (h_keys : Group.keys ∈ gs) (h_bind : Group.bind ∈ gs) (h_ras : Group.ras ∈ gs) (h_dict : Group.dict ∈ gs) :
    OnlyTouches gs s (opSessionObject a0 a1 a2 a3 a4).1 := by
  unfold opSessionObject
  iterate 40 all_goals (try first
    | with_reducible assumption
    | with_reducible refine opSessionValue_only ?_ h_bind
    | with_reducible refine opCloseLayer_only ?_ h_out h_free h_parts h_mem h_fab h_bind h_ras h_dict
    | with_reducible refine opSessionOpen_only ?_ h_out h_free h_parts h_mem h_fab h_keys h_bind h_ras h_dict
    | with_reducible refine opSessionClose_only ?_ h_out h_free h_parts h_mem h_fab h_keys h_bind h_ras h_dict
    | with_reducible refine opDepartWithdraw_only ?_ h_bind
    | with_reducible refine opDepartAt_only ?_ h_bind
    | with_reducible refine opWithhold_only ?_ h_out h_free h_parts h_mem h_fab h_bind h_ras h_dict
    | with_reducible refine opOwnerQuery_only ?_ h_dict
    | with_reducible refine fst_only (by assumption) ?_
    | split
    )

theorem opFlowQuery_only {gs : List Group} {s : State} {a0 a1 a2} (hs : OnlyTouches gs s a2) (h_dict : Group.dict ∈ gs) :
    OnlyTouches gs s (opFlowQuery a0 a1 a2).1 := by
  unfold opFlowQuery
  iterate 40 all_goals (try first
    | with_reducible assumption
    | with_reducible refine guarded_only ?_ ?_
    | with_reducible refine updPer_only ?_ h_dict
    )

theorem opAptEntry_only {gs : List Group} {s : State} {a0 a1 a2} (hs : OnlyTouches gs s a2) (h_fab : Group.fab ∈ gs) :
    OnlyTouches gs s (opAptEntry a0 a1 a2).1 := by
  unfold opAptEntry
  iterate 40 all_goals (try first
    | with_reducible assumption
    | with_reducible refine guarded_only ?_ ?_
    | with_reducible refine fst_only (by assumption) ?_
    | split
    | dsimp only
    | with_reducible refine OnlyTouches.upd ?_ rfl (.inr rfl) (.inr rfl) (.inr rfl) (.inr rfl) (.inr rfl) (.inr rfl) (.inr rfl) (.inr rfl) (.inl h_fab) (.inr rfl) (.inr rfl) (.inr rfl) (.inr rfl) (.inr rfl) (.inr rfl) (.inr rfl) (.inr rfl) (.inr rfl)
    )

theorem opPoolHome_only {gs : List Group} {s : State} {a0 a1 a2} (hs : OnlyTouches gs s a2) (h_mem : Group.mem ∈ gs) :
    OnlyTouches gs s (opPoolHome a0 a1 a2).1 := by
  unfold opPoolHome
  iterate 40 all_goals (try first
    | with_reducible assumption
    | with_reducible refine guarded_only ?_ ?_
    | with_reducible refine fst_only (by assumption) ?_
    | split
    | dsimp only
    | with_reducible refine OnlyTouches.upd ?_ rfl (.inr rfl) (.inr rfl) (.inr rfl) (.inr rfl) (.inr rfl) (.inr rfl) (.inr rfl) (.inl h_mem) (.inr rfl) (.inr rfl) (.inr rfl) (.inr rfl) (.inr rfl) (.inr rfl) (.inr rfl) (.inr rfl) (.inr rfl) (.inr rfl)
    )

theorem opRouteEntry_only {gs : List Group} {s : State} {a0 a1 a2} (hs : OnlyTouches gs s a2) (h_fab : Group.fab ∈ gs) :
    OnlyTouches gs s (opRouteEntry a0 a1 a2).1 := by
  unfold opRouteEntry
  iterate 40 all_goals (try first
    | with_reducible assumption
    | with_reducible refine guarded_only ?_ ?_
    | with_reducible refine fst_only (by assumption) ?_
    | split
    | dsimp only
    | with_reducible refine OnlyTouches.upd ?_ rfl (.inr rfl) (.inr rfl) (.inr rfl) (.inr rfl) (.inr rfl) (.inr rfl) (.inr rfl) (.inr rfl) (.inl h_fab) (.inr rfl) (.inr rfl) (.inr rfl) (.inr rfl) (.inr rfl) (.inr rfl) (.inr rfl) (.inr rfl) (.inr rfl)
    )

theorem when_only {gs : List Group} {s : State} {a0 a1 a2} (hs : OnlyTouches gs s a2) (hs1 : OnlyTouches gs s a1) :
    OnlyTouches gs s (when a0 a1 a2).1 := by
  unfold when
  iterate 40 all_goals (try first
    | with_reducible assumption
    | split
    )

theorem opFabricValue_only {gs : List Group} {s : State} {a0 a1 a2 a3 a4 a5} (hs : OnlyTouches gs s a5) (h_mem : Group.mem ∈ gs) (h_fab : Group.fab ∈ gs) (h_dict : Group.dict ∈ gs) (h_side : Group.side ∈ gs) :
    OnlyTouches gs s (opFabricValue a0 a1 a2 a3 a4 a5).1 := by
  unfold opFabricValue
  iterate 40 all_goals (try first
    | with_reducible assumption
    | with_reducible refine opFlowQuery_only ?_ h_dict
    | with_reducible refine updPer_only ?_ h_dict
    | with_reducible refine opAptEntry_only ?_ h_fab
    | with_reducible refine opPoolHome_only ?_ h_mem
    | with_reducible refine opRouteEntry_only ?_ h_fab
    | with_reducible refine when_only ?_ ?_
    | with_reducible refine fst_only (by assumption) ?_
    | split
    | dsimp only
    | with_reducible refine OnlyTouches.upd ?_ rfl (.inr rfl) (.inr rfl) (.inr rfl) (.inr rfl) (.inr rfl) (.inr rfl) (.inr rfl) (.inl h_mem) (.inl h_fab) (.inr rfl) (.inr rfl) (.inr rfl) (.inr rfl) (.inr rfl) (.inl h_dict) (.inl h_side) (.inr rfl) (.inr rfl)
    )

theorem updPerPart_only {gs : List Group} {s : State} {a0 a1 a2 a3} (hs : OnlyTouches gs s a3) (h_dict : Group.dict ∈ gs) :
    OnlyTouches gs s (updPerPart a0 a1 a2 a3) := by
  unfold updPerPart
  iterate 40 all_goals (try first
    | with_reducible assumption
    | with_reducible refine updPer_only ?_ h_dict
    )

theorem opPtQuery_only {gs : List Group} {s : State} {a0 a1 a2 a3} (hs : OnlyTouches gs s a3) (h_dict : Group.dict ∈ gs) :
    OnlyTouches gs s (opPtQuery a0 a1 a2 a3).1 := by
  unfold opPtQuery
  iterate 40 all_goals (try first
    | with_reducible assumption
    | with_reducible refine guarded_only ?_ ?_
    | with_reducible refine updPerPart_only ?_ h_dict
    )

theorem setMapStatus_only {gs : List Group} {s : State} {q p r} (hs : OnlyTouches gs s r.1) (h_dict : Group.dict ∈ gs) :
    OnlyTouches gs s (setMapStatus q p r).1 := by
  exact updPerPart_only hs h_dict

theorem opMapOp_only {gs : List Group} {s : State} {a0 a1 a2 a3} (hs : OnlyTouches gs s a3) (h_out : Group.out ∈ gs) (h_free : Group.free ∈ gs) (h_parts : Group.parts ∈ gs) (h_mem : Group.mem ∈ gs) (h_ras : Group.ras ∈ gs) (h_dict : Group.dict ∈ gs) :
    OnlyTouches gs s (opMapOp a0 a1 a2 a3).1 := by
  unfold opMapOp
  iterate 40 all_goals (try first
    | with_reducible assumption
    | with_reducible refine guarded_only ?_ ?_
    | with_reducible refine State_putVM_only ?_ h_out h_free h_parts h_mem h_ras h_dict
    | with_reducible refine setMapStatus_only ?_ h_dict
    )

theorem opRgnQuery_only {gs : List Group} {s : State} {a0 a1 a2 a3} (hs : OnlyTouches gs s a3) (h_dict : Group.dict ∈ gs) :
    OnlyTouches gs s (opRgnQuery a0 a1 a2 a3).1 := by
  unfold opRgnQuery
  iterate 40 all_goals (try first
    | with_reducible assumption
    | with_reducible refine guarded_only ?_ ?_
    | with_reducible refine updPerPart_only ?_ h_dict
    )

theorem opMemValue_only {gs : List Group} {s : State} {a0 a1 a2 a3 a4} (hs : OnlyTouches gs s a4) (h_out : Group.out ∈ gs) (h_free : Group.free ∈ gs) (h_parts : Group.parts ∈ gs) (h_mem : Group.mem ∈ gs) (h_ras : Group.ras ∈ gs) (h_dict : Group.dict ∈ gs) :
    OnlyTouches gs s (opMemValue a0 a1 a2 a3 a4).1 := by
  unfold opMemValue
  iterate 40 all_goals (try first
    | with_reducible assumption
    | with_reducible refine opPtQuery_only ?_ h_dict
    | with_reducible refine State_updPart_only ?_ h_parts
    | with_reducible refine opMapOp_only ?_ h_out h_free h_parts h_mem h_ras h_dict
    | with_reducible refine updPerPart_only ?_ h_dict
    | with_reducible refine opRgnQuery_only ?_ h_dict
    | with_reducible refine when_only ?_ ?_
    | with_reducible refine fst_only (by assumption) ?_
    | split
    )

theorem opRingValue_only {gs : List Group} {s : State} {a0 a1 a2 a3 a4} (hs : OnlyTouches gs s a4) (h_rings : Group.rings ∈ gs) :
    OnlyTouches gs s (opRingValue a0 a1 a2 a3 a4).1 := by
  unfold opRingValue
  iterate 40 all_goals (try first
    | with_reducible assumption
    | with_reducible refine State_updRing_only ?_ h_rings
    | with_reducible refine when_only ?_ ?_
    | with_reducible refine fst_only (by assumption) ?_
    | split
    )

theorem setDbg_only {gs : List Group} {s : State} {r} (hs : OnlyTouches gs s r.1) (h_life : Group.life ∈ gs) :
    OnlyTouches gs s (setDbg r).1 := by
  unfold setDbg
  exact OnlyTouches.upd hs rfl (.inr rfl) (.inr rfl) (.inr rfl) (.inr rfl) (.inr rfl) (.inr rfl) (.inr rfl) (.inr rfl) (.inr rfl) (.inr rfl) (.inr rfl) (.inl h_life) (.inr rfl) (.inr rfl) (.inr rfl) (.inr rfl) (.inr rfl) (.inr rfl)

theorem setModuleKey_only {gs : List Group} {s : State} {a0 a1 a2 a3 a4} (hs : OnlyTouches gs s a4) (h_free : Group.free ∈ gs) (h_keys : Group.keys ∈ gs) :
    OnlyTouches gs s (setModuleKey a0 a1 a2 a3 a4) := by
  unfold setModuleKey
  iterate 40 all_goals (try first
    | with_reducible assumption
    | with_reducible refine addKey_only (by assumption) ?_ h_free h_keys
    | split
    | dsimp only
    | with_reducible refine OnlyTouches.upd ?_ rfl (.inr rfl) (.inl h_free) (.inr rfl) (.inr rfl) (.inr rfl) (.inr rfl) (.inr rfl) (.inr rfl) (.inr rfl) (.inl h_keys) (.inr rfl) (.inr rfl) (.inr rfl) (.inr rfl) (.inr rfl) (.inr rfl) (.inr rfl) (.inr rfl)
    )

theorem doChallenge_only {gs : List Group} {s : State} {a0} (hs : OnlyTouches gs s a0) (h_free : Group.free ∈ gs) (h_keys : Group.keys ∈ gs) (h_life : Group.life ∈ gs) :
    OnlyTouches gs s (doChallenge a0).1 := by
  unfold doChallenge
  iterate 40 all_goals (try first
    | with_reducible assumption
    | with_reducible refine State_entropy_only ?_ h_free
    | with_reducible refine setModuleKey_only ?_ h_free h_keys
    | with_reducible refine snd_only (by assumption) ?_
    | split
    | dsimp only
    | with_reducible refine OnlyTouches.upd ?_ rfl (.inr rfl) (.inl h_free) (.inr rfl) (.inr rfl) (.inr rfl) (.inr rfl) (.inr rfl) (.inr rfl) (.inr rfl) (.inl h_keys) (.inr rfl) (.inl h_life) (.inr rfl) (.inr rfl) (.inr rfl) (.inr rfl) (.inr rfl) (.inr rfl)
    )

theorem opChallenge_only {gs : List Group} {s : State} {a0 a1} (hs : OnlyTouches gs s a1) (h_free : Group.free ∈ gs) (h_keys : Group.keys ∈ gs) (h_life : Group.life ∈ gs) :
    OnlyTouches gs s (opChallenge a0 a1).1 := by
  unfold opChallenge
  iterate 40 all_goals (try first
    | with_reducible assumption
    | with_reducible refine setDbg_only ?_ h_life
    | with_reducible refine guarded_only ?_ ?_
    | with_reducible refine doChallenge_only ?_ h_free h_keys h_life
    )

theorem endUnbound_only {gs : List Group} {s : State} {a0 a1} (hs : OnlyTouches gs s a1) (h_dict : Group.dict ∈ gs) :
    OnlyTouches gs s (endUnbound a0 a1) := by
  unfold endUnbound
  iterate 40 all_goals (try first
    | with_reducible assumption
    | split
    | dsimp only
    | with_reducible refine OnlyTouches.upd ?_ rfl (.inr rfl) (.inr rfl) (.inr rfl) (.inr rfl) (.inr rfl) (.inr rfl) (.inr rfl) (.inr rfl) (.inr rfl) (.inr rfl) (.inr rfl) (.inr rfl) (.inr rfl) (.inr rfl) (.inl h_dict) (.inr rfl) (.inr rfl) (.inr rfl)
    )

theorem putSecret_only {gs : List Group} {s t : State} {p a1 a2 a3 a4 a5 a} (e : putSecret p a1 a2 a3 a4 a5 a = some t) (hs : OnlyTouches gs s a) (h_free : Group.free ∈ gs) (h_keys : Group.keys ∈ gs) :
    OnlyTouches gs s t := by
  unfold putSecret at e
  split at e
  · rename_i h1
    rw [Option.map_eq_some_iff] at e
    obtain ⟨⟨q, j⟩, hq, e⟩ := e
    obtain rfl : q = t := e
    exact addKey_only hq (addKey_only h1 hs h_free h_keys) h_free h_keys
  · cases e

theorem importDone_only {gs : List Group} {s t : State} {x p c a} (e : importDone x p c a = some t) (hs : OnlyTouches gs s a) (h_out : Group.out ∈ gs) (h_free : Group.free ∈ gs) (h_parts : Group.parts ∈ gs) (h_mem : Group.mem ∈ gs) (h_keys : Group.keys ∈ gs) (h_ras : Group.ras ∈ gs) (h_dict : Group.dict ∈ gs) :
    OnlyTouches gs s t := by
  unfold importDone at e
  dsimp only at e
  have h := State_entropy_only hs h_free
  split at e <;> simp only [Option.map_eq_some_iff] at e <;> obtain ⟨q, hq, rfl⟩ := e
  · exact endUnbound_only (State_updPart_only (putSecret_only hq h h_free h_keys) h_parts) h_dict
  · exact State_putVM_only (State_updPart_only (putSecret_only hq h h_free h_keys) h_parts) h_out h_free h_parts h_mem h_ras h_dict
  · exact State_updPart_only (putSecret_only hq h h_free h_keys) h_parts

theorem useNonce_only {gs : List Group} {s : State} {a0 a1} (hs : OnlyTouches gs s a1) (h_keys : Group.keys ∈ gs) :
    OnlyTouches gs s (useNonce a0 a1) := by
  unfold useNonce
  iterate 40 all_goals (try first
    | with_reducible assumption
    | split
    | dsimp only
    | with_reducible refine OnlyTouches.upd ?_ rfl (.inr rfl) (.inr rfl) (.inr rfl) (.inr rfl) (.inr rfl) (.inr rfl) (.inr rfl) (.inr rfl) (.inr rfl) (.inl h_keys) (.inr rfl) (.inr rfl) (.inr rfl) (.inr rfl) (.inr rfl) (.inr rfl) (.inr rfl) (.inr rfl)
    )

theorem opKeyImport_only {gs : List Group} {s : State} {a0 a1 a2} (hs : OnlyTouches gs s a2) (h_out : Group.out ∈ gs) (h_free : Group.free ∈ gs) (h_parts : Group.parts ∈ gs) (h_mem : Group.mem ∈ gs) (h_keys : Group.keys ∈ gs) (h_ras : Group.ras ∈ gs) (h_dict : Group.dict ∈ gs) :
    OnlyTouches gs s (opKeyImport a0 a1 a2).1 := by
  unfold opKeyImport
  iterate 40 all_goals (try first
    | with_reducible assumption
    | with_reducible refine importDone_only (by assumption) ?_ h_out h_free h_parts h_mem h_keys h_ras h_dict
    | with_reducible refine State_updPart_only ?_ h_parts
    | with_reducible refine useNonce_only ?_ h_keys
    | split
    | dsimp only
    )

theorem opHistQuery_only {gs : List Group} {s : State} {a0 a1 a2} (hs : OnlyTouches gs s a2) (h_dict : Group.dict ∈ gs) :
    OnlyTouches gs s (opHistQuery a0 a1 a2).1 := by
  unfold opHistQuery
  iterate 40 all_goals (try first
    | with_reducible assumption
    | with_reducible refine guarded_only ?_ ?_
    | with_reducible refine updPer_only ?_ h_dict
    )

theorem opLcRequest_only {gs : List Group} {s : State} {a0 a1 a2} (hs : OnlyTouches gs s a2) (h_life : Group.life ∈ gs) :
    OnlyTouches gs s (opLcRequest a0 a1 a2).1 := by
  unfold opLcRequest
  iterate 40 all_goals (try first
    | with_reducible assumption
    | with_reducible refine guarded_only ?_ ?_
    | with_reducible refine fst_only (by assumption) ?_
    | split
    | dsimp only
    | with_reducible refine OnlyTouches.upd ?_ rfl (.inr rfl) (.inr rfl) (.inr rfl) (.inr rfl) (.inr rfl) (.inr rfl) (.inr rfl) (.inr rfl) (.inr rfl) (.inr rfl) (.inr rfl) (.inl h_life) (.inr rfl) (.inr rfl) (.inr rfl) (.inr rfl) (.inr rfl) (.inr rfl)
    )

theorem opSlotQuery_only {gs : List Group} {s : State} {a0 a1 a2} (hs : OnlyTouches gs s a2) (h_dict : Group.dict ∈ gs) :
    OnlyTouches gs s (opSlotQuery a0 a1 a2).1 := by
  unfold opSlotQuery
  iterate 40 all_goals (try first
    | with_reducible assumption
    | with_reducible refine guarded_only ?_ ?_
    | with_reducible refine updPer_only ?_ h_dict
    )

theorem eraseChallenge_only {gs : List Group} {s : State} {a0} (hs : OnlyTouches gs s a0) (h_keys : Group.keys ∈ gs) (h_life : Group.life ∈ gs) :
    OnlyTouches gs s (eraseChallenge a0) := by
  unfold eraseChallenge
  iterate 40 all_goals (try first
    | with_reducible assumption
    | split
    | dsimp only
    | with_reducible refine OnlyTouches.upd ?_ rfl (.inr rfl) (.inr rfl) (.inr rfl) (.inr rfl) (.inr rfl) (.inr rfl) (.inr rfl) (.inr rfl) (.inr rfl) (.inl h_keys) (.inr rfl) (.inl h_life) (.inr rfl) (.inr rfl) (.inr rfl) (.inr rfl) (.inr rfl) (.inr rfl)
    )

theorem revokeFlows_only {gs : List Group} {s : State} {a0 a1} (hs : OnlyTouches gs s a1) (h_fab : Group.fab ∈ gs) :
    OnlyTouches gs s (revokeFlows a0 a1) := by
  unfold revokeFlows
  iterate 40 all_goals (try first
    | with_reducible assumption
    | split
    | dsimp only
    | with_reducible refine OnlyTouches.upd ?_ rfl (.inr rfl) (.inr rfl) (.inr rfl) (.inr rfl) (.inr rfl) (.inr rfl) (.inr rfl) (.inr rfl) (.inl h_fab) (.inr rfl) (.inr rfl) (.inr rfl) (.inr rfl) (.inr rfl) (.inr rfl) (.inr rfl) (.inr rfl) (.inr rfl)
    )

theorem closeRanksOf_only {gs : List Group} {s : State} {a0 a1} (hs : OnlyTouches gs s a1) (h_out : Group.out ∈ gs) (h_free : Group.free ∈ gs) (h_parts : Group.parts ∈ gs) (h_mem : Group.mem ∈ gs) (h_fab : Group.fab ∈ gs) (h_keys : Group.keys ∈ gs) (h_bind : Group.bind ∈ gs) (h_ras : Group.ras ∈ gs) (h_dict : Group.dict ∈ gs) :
    OnlyTouches gs s (closeRanksOf a0 a1) := by
  unfold closeRanksOf
  iterate 40 all_goals (try first
    | with_reducible assumption
    | with_reducible refine closeSession_only ?_ h_out h_free h_parts h_mem h_fab h_keys h_bind h_ras h_dict
    | with_reducible refine foldl_only (fun u x hu => ?_) ?_
    | with_reducible refine foldl_fst_only (fun u x hu => ?_) ?_
    | split
    )

theorem sendEvent_only {gs : List Group} {s : State} {a0 a1 a2} (hs : OnlyTouches gs s a2) (h_out : Group.out ∈ gs) (h_dict : Group.dict ∈ gs) :
    OnlyTouches gs s (sendEvent a0 a1 a2) := by
  unfold sendEvent
  iterate 40 all_goals (try first
    | with_reducible assumption
    | split
    | dsimp only
    | with_reducible refine OnlyTouches.upd ?_ rfl (.inl h_out) (.inr rfl) (.inr rfl) (.inr rfl) (.inr rfl) (.inr rfl) (.inr rfl) (.inr rfl) (.inr rfl) (.inr rfl) (.inr rfl) (.inr rfl) (.inr rfl) (.inr rfl) (.inl h_dict) (.inr rfl) (.inr rfl) (.inr rfl)
    )

theorem startRemoval_only {gs : List Group} {s : State} {a0 a1 a2} (hs : OnlyTouches gs s a2) (h_out : Group.out ∈ gs) (h_free : Group.free ∈ gs) (h_gov : Group.gov ∈ gs) (h_parts : Group.parts ∈ gs) (h_rings : Group.rings ∈ gs) (h_arrays : Group.arrays ∈ gs) (h_mem : Group.mem ∈ gs) (h_fab : Group.fab ∈ gs) (h_keys : Group.keys ∈ gs) (h_bind : Group.bind ∈ gs) (h_ras : Group.ras ∈ gs) (h_dict : Group.dict ∈ gs) :
    OnlyTouches gs s (startRemoval a0 a1 a2) := by
  unfold startRemoval
  iterate 40 all_goals (try first
    | with_reducible assumption
    | with_reducible refine revokeFlows_only ?_ h_fab
    | with_reducible refine abortSlices_only ?_ h_out h_free h_parts h_rings h_arrays h_mem h_fab h_bind h_ras h_dict
    | with_reducible refine closeRanksOf_only ?_ h_out h_free h_parts h_mem h_fab h_keys h_bind h_ras h_dict
    | with_reducible refine sendEvent_only ?_ h_out h_dict
    | split
    | dsimp only
    | with_reducible refine OnlyTouches.upd ?_ rfl (.inl h_out) (.inl h_free) (.inr rfl) (.inl h_gov) (.inl h_parts) (.inl h_rings) (.inl h_arrays) (.inl h_mem) (.inl h_fab) (.inl h_keys) (.inl h_bind) (.inr rfl) (.inl h_ras) (.inr rfl) (.inl h_dict) (.inr rfl) (.inr rfl) (.inr rfl)
    )

theorem beginDebug_only {gs : List Group} {s : State} {a0} (hs : OnlyTouches gs s a0) (h_out : Group.out ∈ gs) (h_free : Group.free ∈ gs) (h_gov : Group.gov ∈ gs) (h_parts : Group.parts ∈ gs) (h_rings : Group.rings ∈ gs) (h_arrays : Group.arrays ∈ gs) (h_mem : Group.mem ∈ gs) (h_fab : Group.fab ∈ gs) (h_keys : Group.keys ∈ gs) (h_bind : Group.bind ∈ gs) (h_life : Group.life ∈ gs) (h_ras : Group.ras ∈ gs) (h_dict : Group.dict ∈ gs) :
    OnlyTouches gs s (beginDebug a0) := by
  unfold beginDebug
  iterate 40 all_goals (try first
    | with_reducible assumption
    | with_reducible refine revokeFlows_only ?_ h_fab
    | with_reducible refine startRemoval_only ?_ h_out h_free h_gov h_parts h_rings h_arrays h_mem h_fab h_keys h_bind h_ras h_dict
    | with_reducible refine State_updPart_only ?_ h_parts
    | with_reducible refine eraseChallenge_only ?_ h_keys h_life
    | with_reducible refine foldl_only (fun u x hu => ?_) ?_
    | with_reducible refine foldl_fst_only (fun u x hu => ?_) ?_
    | split
    | dsimp only
    | with_reducible refine OnlyTouches.upd ?_ rfl (.inl h_out) (.inl h_free) (.inr rfl) (.inl h_gov) (.inl h_parts) (.inl h_rings) (.inl h_arrays) (.inl h_mem) (.inl h_fab) (.inl h_keys) (.inl h_bind) (.inl h_life) (.inl h_ras) (.inr rfl) (.inl h_dict) (.inr rfl) (.inr rfl) (.inr rfl)
    )

theorem doDebugOpen_only {gs : List Group} {s : State} {a0} (hs : OnlyTouches gs s a0) (h_out : Group.out ∈ gs) (h_free : Group.free ∈ gs) (h_gov : Group.gov ∈ gs) (h_parts : Group.parts ∈ gs) (h_rings : Group.rings ∈ gs) (h_arrays : Group.arrays ∈ gs) (h_mem : Group.mem ∈ gs) (h_fab : Group.fab ∈ gs) (h_keys : Group.keys ∈ gs) (h_bind : Group.bind ∈ gs) (h_life : Group.life ∈ gs) (h_ras : Group.ras ∈ gs) (h_dict : Group.dict ∈ gs) :
    OnlyTouches gs s (doDebugOpen a0).1 := by
  unfold doDebugOpen
  iterate 40 all_goals (try first
    | with_reducible assumption
    | with_reducible refine eraseChallenge_only ?_ h_keys h_life
    | with_reducible refine beginDebug_only ?_ h_out h_free h_gov h_parts h_rings h_arrays h_mem h_fab h_keys h_bind h_life h_ras h_dict
    | split
    )

theorem opDebugOpen_only {gs : List Group} {s : State} {a0 a1} (hs : OnlyTouches gs s a1) (h_out : Group.out ∈ gs) (h_free : Group.free ∈ gs) (h_gov : Group.gov ∈ gs) (h_parts : Group.parts ∈ gs) (h_rings : Group.rings ∈ gs) (h_arrays : Group.arrays ∈ gs) (h_mem : Group.mem ∈ gs) (h_fab : Group.fab ∈ gs) (h_keys : Group.keys ∈ gs) (h_bind : Group.bind ∈ gs) (h_life : Group.life ∈ gs) (h_ras : Group.ras ∈ gs) (h_dict : Group.dict ∈ gs) :
    OnlyTouches gs s (opDebugOpen a0 a1).1 := by
  unfold opDebugOpen
  iterate 40 all_goals (try first
    | with_reducible assumption
    | with_reducible refine setDbg_only ?_ h_life
    | with_reducible refine guarded_only ?_ ?_
    | with_reducible refine doDebugOpen_only ?_ h_out h_free h_gov h_parts h_rings h_arrays h_mem h_fab h_keys h_bind h_life h_ras h_dict
    )

theorem opUnitQuery_only {gs : List Group} {s : State} {a0 a1 a2} (hs : OnlyTouches gs s a2) (h_dict : Group.dict ∈ gs) :
    OnlyTouches gs s (opUnitQuery a0 a1 a2).1 := by
  unfold opUnitQuery
  iterate 40 all_goals (try first
    | with_reducible assumption
    | with_reducible refine guarded_only ?_ ?_
    | with_reducible refine updPer_only ?_ h_dict
    )

theorem opLoadCert_only {gs : List Group} {s : State} {a0 a1} (hs : OnlyTouches gs s a1) (h_dict : Group.dict ∈ gs) :
    OnlyTouches gs s (opLoadCert a0 a1).1 := by
  unfold opLoadCert
  iterate 40 all_goals (try first
    | with_reducible assumption
    | with_reducible refine guarded_only ?_ ?_
    | with_reducible refine updPer_only ?_ h_dict
    )

theorem opLibCommit_only {gs : List Group} {s : State} {a0 a1} (hs : OnlyTouches gs s a1) (h_ras : Group.ras ∈ gs) :
    OnlyTouches gs s (opLibCommit a0 a1).1 := by
  unfold opLibCommit
  iterate 40 all_goals (try first
    | with_reducible assumption
    | with_reducible refine guarded_only ?_ ?_
    | with_reducible refine fst_only (by assumption) ?_
    | split
    | dsimp only
    | with_reducible refine OnlyTouches.upd ?_ rfl (.inr rfl) (.inr rfl) (.inr rfl) (.inr rfl) (.inr rfl) (.inr rfl) (.inr rfl) (.inr rfl) (.inr rfl) (.inr rfl) (.inr rfl) (.inr rfl) (.inl h_ras) (.inr rfl) (.inr rfl) (.inr rfl) (.inr rfl) (.inr rfl)
    )

theorem opCertWrite_only {gs : List Group} {s : State} {a0 a1 a2} (hs : OnlyTouches gs s a2) (h_life : Group.life ∈ gs) :
    OnlyTouches gs s (opCertWrite a0 a1 a2).1 := by
  unfold opCertWrite
  iterate 40 all_goals (try first
    | with_reducible assumption
    | with_reducible refine guarded_only ?_ ?_
    | with_reducible refine fst_only (by assumption) ?_
    | split
    | dsimp only
    | with_reducible refine OnlyTouches.upd ?_ rfl (.inr rfl) (.inr rfl) (.inr rfl) (.inr rfl) (.inr rfl) (.inr rfl) (.inr rfl) (.inr rfl) (.inr rfl) (.inr rfl) (.inr rfl) (.inl h_life) (.inr rfl) (.inr rfl) (.inr rfl) (.inr rfl) (.inr rfl) (.inr rfl)
    )

theorem opCarveout_only {gs : List Group} {s : State} {a0 a1 a2} (hs : OnlyTouches gs s a2) (h_bind : Group.bind ∈ gs) :
    OnlyTouches gs s (opCarveout a0 a1 a2).1 := by
  unfold opCarveout
  iterate 40 all_goals (try first
    | with_reducible assumption
    | with_reducible refine guarded_only ?_ ?_
    | with_reducible refine fst_only (by assumption) ?_
    | split
    | dsimp only
    | with_reducible refine OnlyTouches.upd ?_ rfl (.inr rfl) (.inr rfl) (.inr rfl) (.inr rfl) (.inr rfl) (.inr rfl) (.inr rfl) (.inr rfl) (.inr rfl) (.inr rfl) (.inl h_bind) (.inr rfl) (.inr rfl) (.inr rfl) (.inr rfl) (.inr rfl) (.inr rfl) (.inr rfl)
    )

theorem opSign_only {gs : List Group} {s : State} {a0 a1} (hs : OnlyTouches gs s a1) (h_dict : Group.dict ∈ gs) :
    OnlyTouches gs s (opSign a0 a1).1 := by
  unfold opSign
  iterate 40 all_goals (try first
    | with_reducible assumption
    | with_reducible refine guarded_only ?_ ?_
    | with_reducible refine updPer_only ?_ h_dict
    )

theorem lcDeny_only {gs : List Group} {s : State} {a0} (hs : OnlyTouches gs s a0) (h_life : Group.life ∈ gs) :
    OnlyTouches gs s (lcDeny a0).1 := by
  unfold lcDeny
  iterate 40 all_goals (try first
    | with_reducible assumption
    | split
    | dsimp only
    | with_reducible refine OnlyTouches.upd ?_ rfl (.inr rfl) (.inr rfl) (.inr rfl) (.inr rfl) (.inr rfl) (.inr rfl) (.inr rfl) (.inr rfl) (.inr rfl) (.inr rfl) (.inr rfl) (.inl h_life) (.inr rfl) (.inr rfl) (.inr rfl) (.inr rfl) (.inr rfl) (.inr rfl)
    )

theorem sealBy_only {gs : List Group} {s : State} {a0 a1} (hs : OnlyTouches gs s a1) (h_lh : Group.lh ∈ gs) :
    OnlyTouches gs s (sealBy a0 a1) := by
  unfold sealBy
  iterate 40 all_goals (try first
    | with_reducible assumption
    | split
    | dsimp only
    | with_reducible refine OnlyTouches.upd ?_ rfl (.inr rfl) (.inr rfl) (.inr rfl) (.inr rfl) (.inr rfl) (.inr rfl) (.inr rfl) (.inr rfl) (.inr rfl) (.inr rfl) (.inr rfl) (.inr rfl) (.inr rfl) (.inl h_lh) (.inr rfl) (.inr rfl) (.inr rfl) (.inr rfl)
    )

theorem doTransition_only {gs : List Group} {s : State} {a0} (hs : OnlyTouches gs s a0) (h_out : Group.out ∈ gs) (h_life : Group.life ∈ gs) (h_lh : Group.lh ∈ gs) :
    OnlyTouches gs s (doTransition a0).1 := by
  unfold doTransition
  iterate 40 all_goals (try first
    | with_reducible assumption
    | with_reducible refine lcDeny_only ?_ h_life
    | with_reducible refine State_emit_only ?_ h_out
    | with_reducible refine sealBy_only ?_ h_lh
    | with_reducible refine fst_only (by assumption) ?_
    | split
    | dsimp only
    | with_reducible refine OnlyTouches.upd ?_ rfl (.inl h_out) (.inr rfl) (.inr rfl) (.inr rfl) (.inr rfl) (.inr rfl) (.inr rfl) (.inr rfl) (.inr rfl) (.inr rfl) (.inr rfl) (.inl h_life) (.inr rfl) (.inl h_lh) (.inr rfl) (.inr rfl) (.inr rfl) (.inr rfl)
    )

theorem opTransition_only {gs : List Group} {s : State} {a0 a1} (hs : OnlyTouches gs s a1) (h_out : Group.out ∈ gs) (h_life : Group.life ∈ gs) (h_lh : Group.lh ∈ gs) :
    OnlyTouches gs s (opTransition a0 a1).1 := by
  unfold opTransition
  iterate 40 all_goals (try first
    | with_reducible assumption
    | with_reducible refine guarded_only ?_ ?_
    | with_reducible refine doTransition_only ?_ h_out h_life h_lh
    )

theorem opDbgResponse_only {gs : List Group} {s : State} {a0 a1 a2} (hs : OnlyTouches gs s a2) (h_life : Group.life ∈ gs) :
    OnlyTouches gs s (opDbgResponse a0 a1 a2).1 := by
  unfold opDbgResponse
  iterate 40 all_goals (try first
    | with_reducible assumption
    | with_reducible refine guarded_only ?_ ?_
    | with_reducible refine fst_only (by assumption) ?_
    | split
    | dsimp only
    | with_reducible refine OnlyTouches.upd ?_ rfl (.inr rfl) (.inr rfl) (.inr rfl) (.inr rfl) (.inr rfl) (.inr rfl) (.inr rfl) (.inr rfl) (.inr rfl) (.inr rfl) (.inr rfl) (.inl h_life) (.inr rfl) (.inr rfl) (.inr rfl) (.inr rfl) (.inr rfl) (.inr rfl)
    )

theorem opAuditQuery_only {gs : List Group} {s : State} {a0 a1 a2} (hs : OnlyTouches gs s a2) (h_dict : Group.dict ∈ gs) :
    OnlyTouches gs s (opAuditQuery a0 a1 a2).1 := by
  unfold opAuditQuery
  iterate 40 all_goals (try first
    | with_reducible assumption
    | with_reducible refine guarded_only ?_ ?_
    | with_reducible refine updPer_only ?_ h_dict
    )

theorem doNewNonce_only {gs : List Group} {s : State} {a0} (hs : OnlyTouches gs s a0) (h_free : Group.free ∈ gs) (h_life : Group.life ∈ gs) :
    OnlyTouches gs s (doNewNonce a0).1 := by
  unfold doNewNonce
  iterate 40 all_goals (try first
    | with_reducible assumption
    | with_reducible refine lcDeny_only ?_ h_life
    | with_reducible refine fst_only (by assumption) ?_
    | split
    | dsimp only
    | with_reducible refine OnlyTouches.upd ?_ rfl (.inr rfl) (.inl h_free) (.inr rfl) (.inr rfl) (.inr rfl) (.inr rfl) (.inr rfl) (.inr rfl) (.inr rfl) (.inr rfl) (.inr rfl) (.inl h_life) (.inr rfl) (.inr rfl) (.inr rfl) (.inr rfl) (.inr rfl) (.inr rfl)
    )

theorem opNewNonce_only {gs : List Group} {s : State} {a0 a1} (hs : OnlyTouches gs s a1) (h_free : Group.free ∈ gs) (h_life : Group.life ∈ gs) :
    OnlyTouches gs s (opNewNonce a0 a1).1 := by
  unfold opNewNonce
  iterate 40 all_goals (try first
    | with_reducible assumption
    | with_reducible refine guarded_only ?_ ?_
    | with_reducible refine doNewNonce_only ?_ h_free h_life
    )

theorem opLibBegin_only {gs : List Group} {s : State} {a0 a1} (hs : OnlyTouches gs s a1) (h_ras : Group.ras ∈ gs) :
    OnlyTouches gs s (opLibBegin a0 a1).1 := by
  unfold opLibBegin
  iterate 40 all_goals (try first
    | with_reducible assumption
    | with_reducible refine guarded_only ?_ ?_
    | with_reducible refine fst_only (by assumption) ?_
    | split
    | dsimp only
    | with_reducible refine OnlyTouches.upd ?_ rfl (.inr rfl) (.inr rfl) (.inr rfl) (.inr rfl) (.inr rfl) (.inr rfl) (.inr rfl) (.inr rfl) (.inr rfl) (.inr rfl) (.inr rfl) (.inr rfl) (.inl h_ras) (.inr rfl) (.inr rfl) (.inr rfl) (.inr rfl) (.inr rfl)
    )

theorem opLibChunk_only {gs : List Group} {s : State} {a0 a1 a2} (hs : OnlyTouches gs s a2) (h_ras : Group.ras ∈ gs) :
    OnlyTouches gs s (opLibChunk a0 a1 a2).1 := by
  unfold opLibChunk
  iterate 40 all_goals (try first
    | with_reducible assumption
    | with_reducible refine guarded_only ?_ ?_
    | with_reducible refine fst_only (by assumption) ?_
    | split
    | dsimp only
    | with_reducible refine OnlyTouches.upd ?_ rfl (.inr rfl) (.inr rfl) (.inr rfl) (.inr rfl) (.inr rfl) (.inr rfl) (.inr rfl) (.inr rfl) (.inr rfl) (.inr rfl) (.inr rfl) (.inr rfl) (.inl h_ras) (.inr rfl) (.inr rfl) (.inr rfl) (.inr rfl) (.inr rfl)
    )

theorem opLhQuery_only {gs : List Group} {s : State} {a0 a1 a2 a3} (hs : OnlyTouches gs s a3) (h_dict : Group.dict ∈ gs) :
    OnlyTouches gs s (opLhQuery a0 a1 a2 a3).1 := by
  unfold opLhQuery
  iterate 40 all_goals (try first
    | with_reducible assumption
    | with_reducible refine guarded_only ?_ ?_
    | with_reducible refine updPer_only ?_ h_dict
    )

theorem opEnrol_only {gs : List Group} {s : State} {a0 a1 a2} (hs : OnlyTouches gs s a2) (h_life : Group.life ∈ gs) (h_dict : Group.dict ∈ gs) :
    OnlyTouches gs s (opEnrol a0 a1 a2).1 := by
  unfold opEnrol
  iterate 40 all_goals (try first
    | with_reducible assumption
    | with_reducible refine updSess_only ?_ h_dict
    | with_reducible refine guarded_only ?_ ?_
    | with_reducible refine fst_only (by assumption) ?_
    | split
    | dsimp only
    | with_reducible refine OnlyTouches.upd ?_ rfl (.inr rfl) (.inr rfl) (.inr rfl) (.inr rfl) (.inr rfl) (.inr rfl) (.inr rfl) (.inr rfl) (.inr rfl) (.inr rfl) (.inr rfl) (.inl h_life) (.inr rfl) (.inr rfl) (.inl h_dict) (.inr rfl) (.inr rfl) (.inr rfl)
    )

theorem opSystemValue_only {gs : List Group} {s : State} {a0 a1 a2 a3 a4 a5} (hs : OnlyTouches gs s a5) (h_out : Group.out ∈ gs) (h_free : Group.free ∈ gs) (h_gov : Group.gov ∈ gs) (h_parts : Group.parts ∈ gs) (h_rings : Group.rings ∈ gs) (h_arrays : Group.arrays ∈ gs) (h_mem : Group.mem ∈ gs) (h_fab : Group.fab ∈ gs) (h_keys : Group.keys ∈ gs) (h_bind : Group.bind ∈ gs) (h_life : Group.life ∈ gs) (h_ras : Group.ras ∈ gs) (h_lh : Group.lh ∈ gs) (h_dict : Group.dict ∈ gs) :
    OnlyTouches gs s (opSystemValue a0 a1 a2 a3 a4 a5).1 := by
  unfold opSystemValue
  iterate 40 all_goals (try first
    | with_reducible assumption
    | with_reducible refine opChallenge_only ?_ h_free h_keys h_life
    | with_reducible refine opKeyImport_only ?_ h_out h_free h_parts h_mem h_keys h_ras h_dict
    | with_reducible refine opHistQuery_only ?_ h_dict
    | with_reducible refine opLcRequest_only ?_ h_life
    | with_reducible refine opSlotQuery_only ?_ h_dict
    | with_reducible refine opDebugOpen_only ?_ h_out h_free h_gov h_parts h_rings h_arrays h_mem h_fab h_keys h_bind h_life h_ras h_dict
    | with_reducible refine opUnitQuery_only ?_ h_dict
    | with_reducible refine opLoadCert_only ?_ h_dict
    | with_reducible refine opLibCommit_only ?_ h_ras
    | with_reducible refine opCertWrite_only ?_ h_life
    | with_reducible refine when_only ?_ ?_
    | with_reducible refine opCarveout_only ?_ h_bind
    | with_reducible refine opSign_only ?_ h_dict
    | with_reducible refine updPer_only ?_ h_dict
    | with_reducible refine opTransition_only ?_ h_out h_life h_lh
    | with_reducible refine opDbgResponse_only ?_ h_life
    | with_reducible refine opAuditQuery_only ?_ h_dict
    | with_reducible refine opNewNonce_only ?_ h_free h_life
    | with_reducible refine opLibBegin_only ?_ h_ras
    | with_reducible refine opLibChunk_only ?_ h_ras
    | with_reducible refine opLhQuery_only ?_ h_dict
    | with_reducible refine opEnrol_only ?_ h_life h_dict
    | with_reducible refine fst_only (by assumption) ?_
    | split
    | dsimp only
    | with_reducible refine OnlyTouches.upd ?_ rfl (.inl h_out) (.inl h_free) (.inr rfl) (.inl h_gov) (.inl h_parts) (.inl h_rings) (.inl h_arrays) (.inl h_mem) (.inl h_fab) (.inl h_keys) (.inl h_bind) (.inl h_life) (.inl h_ras) (.inl h_lh) (.inl h_dict) (.inr rfl) (.inr rfl) (.inr rfl)
    )

theorem dropHop_only {gs : List Group} {s : State} {a0 a1} (hs : OnlyTouches gs s a1) (h_fab : Group.fab ∈ gs) :
    OnlyTouches gs s (dropHop a0 a1) := by
  unfold dropHop
  iterate 40 all_goals (try first
    | with_reducible assumption
    | split
    | dsimp only
    | with_reducible refine OnlyTouches.upd ?_ rfl (.inr rfl) (.inr rfl) (.inr rfl) (.inr rfl) (.inr rfl) (.inr rfl) (.inr rfl) (.inr rfl) (.inl h_fab) (.inr rfl) (.inr rfl) (.inr rfl) (.inr rfl) (.inr rfl) (.inr rfl) (.inr rfl) (.inr rfl) (.inr rfl)
    )

theorem goDown_only {gs : List Group} {s : State} {a0 a1} (hs : OnlyTouches gs s a1) (h_fab : Group.fab ∈ gs) :
    OnlyTouches gs s (goDown a0 a1) := by
  unfold goDown
  iterate 40 all_goals (try first
    | with_reducible assumption
    | with_reducible refine State_updStrait_only ?_ h_fab
    | with_reducible refine dropHop_only ?_ h_fab
    )

theorem beginTraining_only {gs : List Group} {s : State} {a0 a1} (hs : OnlyTouches gs s a1) (h_fab : Group.fab ∈ gs) :
    OnlyTouches gs s (beginTraining a0 a1) := by
  unfold beginTraining
  iterate 40 all_goals (try first
    | with_reducible assumption
    | with_reducible refine State_updStrait_only ?_ h_fab
    | with_reducible refine dropHop_only ?_ h_fab
    )

theorem opStraitMode_only {gs : List Group} {s : State} {a0 a1 a2 a3} (hs : OnlyTouches gs s a3) (h_fab : Group.fab ∈ gs) :
    OnlyTouches gs s (opStraitMode a0 a1 a2 a3).1 := by
  unfold opStraitMode
  iterate 40 all_goals (try first
    | with_reducible assumption
    | with_reducible refine State_updStrait_only ?_ h_fab
    | with_reducible refine guarded_only ?_ ?_
    | with_reducible refine goDown_only ?_ h_fab
    | with_reducible refine beginTraining_only ?_ h_fab
    | with_reducible refine fst_only (by assumption) ?_
    | split
    | dsimp only
    )

theorem opTrain_only {gs : List Group} {s : State} {a0 a1 a2 a3} (hs : OnlyTouches gs s a3) (h_fab : Group.fab ∈ gs) :
    OnlyTouches gs s (opTrain a0 a1 a2 a3).1 := by
  unfold opTrain
  iterate 40 all_goals (try first
    | with_reducible assumption
    | with_reducible refine State_updStrait_only ?_ h_fab
    | with_reducible refine guarded_only ?_ ?_
    | with_reducible refine beginTraining_only ?_ h_fab
    | with_reducible refine fst_only (by assumption) ?_
    | split
    )

theorem opStraitValue_only {gs : List Group} {s : State} {a0 a1 a2 a3 a4} (hs : OnlyTouches gs s a4) (h_fab : Group.fab ∈ gs) :
    OnlyTouches gs s (opStraitValue a0 a1 a2 a3 a4).1 := by
  unfold opStraitValue
  iterate 40 all_goals (try first
    | with_reducible assumption
    | with_reducible refine State_updStrait_only ?_ h_fab
    | with_reducible refine opStraitMode_only ?_ h_fab
    | with_reducible refine opTrain_only ?_ h_fab
    | with_reducible refine fst_only (by assumption) ?_
    | split
    )

theorem doCreate_only {gs : List Group} {s : State} {a0 a1} (hs : OnlyTouches gs s a1) (h_parts : Group.parts ∈ gs) :
    OnlyTouches gs s (doCreate a0 a1).1 := by
  unfold doCreate
  iterate 40 all_goals (try first
    | with_reducible assumption
    | with_reducible refine State_updPart_only ?_ h_parts
    | split
    )

theorem setPartStatus_only {gs : List Group} {s : State} {p r} (hs : OnlyTouches gs s r.1) (h_parts : Group.parts ∈ gs) :
    OnlyTouches gs s (setPartStatus p r).1 := by
  exact State_updPart_only hs h_parts

theorem opCreate_only {gs : List Group} {s : State} {a0 a1 a2} (hs : OnlyTouches gs s a2) (h_parts : Group.parts ∈ gs) :
    OnlyTouches gs s (opCreate a0 a1 a2).1 := by
  unfold opCreate
  iterate 40 all_goals (try first
    | with_reducible assumption
    | with_reducible refine guarded_only ?_ ?_
    | with_reducible refine doCreate_only ?_ h_parts
    | with_reducible refine setPartStatus_only ?_ h_parts
    )

theorem opHostGrant_only {gs : List Group} {s : State} {a0 a1 a2 a3} (hs : OnlyTouches gs s a3) (h_parts : Group.parts ∈ gs) :
    OnlyTouches gs s (opHostGrant a0 a1 a2 a3).1 := by
  unfold opHostGrant
  iterate 40 all_goals (try first
    | with_reducible assumption
    | with_reducible refine guarded_only ?_ ?_
    | with_reducible refine State_updPart_only ?_ h_parts
    )

theorem opQuota_only {gs : List Group} {s : State} {a0 a1 a2 a3 a4} (hs : OnlyTouches gs s a4) (h_parts : Group.parts ∈ gs) :
    OnlyTouches gs s (opQuota a0 a1 a2 a3 a4).1 := by
  unfold opQuota
  iterate 40 all_goals (try first
    | with_reducible assumption
    | with_reducible refine guarded_only ?_ ?_
    | with_reducible refine State_updPart_only ?_ h_parts
    )

theorem doRemove_only {gs : List Group} {s : State} {a0 a1} (hs : OnlyTouches gs s a1) (h_out : Group.out ∈ gs) (h_free : Group.free ∈ gs) (h_gov : Group.gov ∈ gs) (h_parts : Group.parts ∈ gs) (h_rings : Group.rings ∈ gs) (h_arrays : Group.arrays ∈ gs) (h_mem : Group.mem ∈ gs) (h_fab : Group.fab ∈ gs) (h_keys : Group.keys ∈ gs) (h_bind : Group.bind ∈ gs) (h_ras : Group.ras ∈ gs) (h_dict : Group.dict ∈ gs) :
    OnlyTouches gs s (doRemove a0 a1).1 := by
  unfold doRemove
  iterate 40 all_goals (try first
    | with_reducible assumption
    | with_reducible refine startRemoval_only ?_ h_out h_free h_gov h_parts h_rings h_arrays h_mem h_fab h_keys h_bind h_ras h_dict
    | split
    )

theorem opRemove_only {gs : List Group} {s : State} {a0 a1 a2} (hs : OnlyTouches gs s a2) (h_out : Group.out ∈ gs) (h_free : Group.free ∈ gs) (h_gov : Group.gov ∈ gs) (h_parts : Group.parts ∈ gs) (h_rings : Group.rings ∈ gs) (h_arrays : Group.arrays ∈ gs) (h_mem : Group.mem ∈ gs) (h_fab : Group.fab ∈ gs) (h_keys : Group.keys ∈ gs) (h_bind : Group.bind ∈ gs) (h_ras : Group.ras ∈ gs) (h_dict : Group.dict ∈ gs) :
    OnlyTouches gs s (opRemove a0 a1 a2).1 := by
  unfold opRemove
  iterate 40 all_goals (try first
    | with_reducible assumption
    | with_reducible refine guarded_only ?_ ?_
    | with_reducible refine setPartStatus_only ?_ h_parts
    | with_reducible refine doRemove_only ?_ h_out h_free h_gov h_parts h_rings h_arrays h_mem h_fab h_keys h_bind h_ras h_dict
    )

theorem opPartValue_only {gs : List Group} {s : State} {a0 a1 a2 a3 a4} (hs : OnlyTouches gs s a4) (h_out : Group.out ∈ gs) (h_free : Group.free ∈ gs) (h_gov : Group.gov ∈ gs) (h_parts : Group.parts ∈ gs) (h_rings : Group.rings ∈ gs) (h_arrays : Group.arrays ∈ gs) (h_mem : Group.mem ∈ gs) (h_fab : Group.fab ∈ gs) (h_keys : Group.keys ∈ gs) (h_bind : Group.bind ∈ gs) (h_ras : Group.ras ∈ gs) (h_dict : Group.dict ∈ gs) :
    OnlyTouches gs s (opPartValue a0 a1 a2 a3 a4).1 := by
  unfold opPartValue
  iterate 40 all_goals (try first
    | with_reducible assumption
    | with_reducible refine opCreate_only ?_ h_parts
    | with_reducible refine opHostGrant_only ?_ h_parts
    | with_reducible refine opQuota_only ?_ h_parts
    | with_reducible refine opRemove_only ?_ h_out h_free h_gov h_parts h_rings h_arrays h_mem h_fab h_keys h_bind h_ras h_dict
    | with_reducible refine fst_only (by assumption) ?_
    | split
    )

theorem opAlertAck_only {gs : List Group} {s : State} {a0 a1 a2} (hs : OnlyTouches gs s a2) (h_dict : Group.dict ∈ gs) :
    OnlyTouches gs s (opAlertAck a0 a1 a2).1 := by
  unfold opAlertAck
  iterate 40 all_goals (try first
    | with_reducible assumption
    | with_reducible refine guarded_only ?_ ?_
    | with_reducible refine fst_only (by assumption) ?_
    | split
    | dsimp only
    | with_reducible refine OnlyTouches.upd ?_ rfl (.inr rfl) (.inr rfl) (.inr rfl) (.inr rfl) (.inr rfl) (.inr rfl) (.inr rfl) (.inr rfl) (.inr rfl) (.inr rfl) (.inr rfl) (.inr rfl) (.inr rfl) (.inr rfl) (.inl h_dict) (.inr rfl) (.inr rfl) (.inr rfl)
    )

theorem opDescQuery_only {gs : List Group} {s : State} {a0 a1 a2} (hs : OnlyTouches gs s a2) (h_dict : Group.dict ∈ gs) :
    OnlyTouches gs s (opDescQuery a0 a1 a2).1 := by
  unfold opDescQuery
  iterate 40 all_goals (try first
    | with_reducible assumption
    | with_reducible refine guarded_only ?_ ?_
    | with_reducible refine updPer_only ?_ h_dict
    )

theorem opStateDoze_only {gs : List Group} {s : State} {a0 a1} (hs : OnlyTouches gs s a1) (h_tick : Group.tick ∈ gs) (h_gov : Group.gov ∈ gs) (h_parts : Group.parts ∈ gs) (h_rings : Group.rings ∈ gs) (h_arrays : Group.arrays ∈ gs) (h_mem : Group.mem ∈ gs) (h_fab : Group.fab ∈ gs) (h_keys : Group.keys ∈ gs) (h_bind : Group.bind ∈ gs) (h_ras : Group.ras ∈ gs) (h_dict : Group.dict ∈ gs) (h_pow : Group.pow ∈ gs) :
    OnlyTouches gs s (opStateDoze a0 a1).1 := by
  unfold opStateDoze
  iterate 40 all_goals (try first
    | with_reducible assumption
    | with_reducible refine guarded_only ?_ ?_
    | with_reducible refine requestDoze_only ?_ h_tick h_gov h_parts h_rings h_arrays h_mem h_fab h_keys h_bind h_ras h_dict h_pow
    )

theorem opStateStandby_only {gs : List Group} {s : State} {a0 a1} (hs : OnlyTouches gs s a1) (h_tick : Group.tick ∈ gs) (h_gov : Group.gov ∈ gs) (h_parts : Group.parts ∈ gs) (h_rings : Group.rings ∈ gs) (h_arrays : Group.arrays ∈ gs) (h_mem : Group.mem ∈ gs) (h_fab : Group.fab ∈ gs) (h_keys : Group.keys ∈ gs) (h_bind : Group.bind ∈ gs) (h_ras : Group.ras ∈ gs) (h_dict : Group.dict ∈ gs) (h_pow : Group.pow ∈ gs) :
    OnlyTouches gs s (opStateStandby a0 a1).1 := by
  unfold opStateStandby
  iterate 40 all_goals (try first
    | with_reducible assumption
    | with_reducible refine guarded_only ?_ ?_
    | with_reducible refine requestStandby_only ?_ h_tick h_gov h_parts h_rings h_arrays h_mem h_fab h_keys h_bind h_ras h_dict h_pow
    )

theorem opFramePeriod_only {gs : List Group} {s : State} {a0 a1 a2} (hs : OnlyTouches gs s a2) (h_tick : Group.tick ∈ gs) :
    OnlyTouches gs s (opFramePeriod a0 a1 a2).1 := by
  unfold opFramePeriod
  iterate 40 all_goals (try first
    | with_reducible assumption
    | with_reducible refine guarded_only ?_ ?_
    | with_reducible refine fst_only (by assumption) ?_
    | split
    | dsimp only
    | with_reducible refine OnlyTouches.upd ?_ rfl (.inr rfl) (.inr rfl) (.inl h_tick) (.inr rfl) (.inr rfl) (.inr rfl) (.inr rfl) (.inr rfl) (.inr rfl) (.inr rfl) (.inr rfl) (.inr rfl) (.inr rfl) (.inr rfl) (.inr rfl) (.inr rfl) (.inr rfl) (.inr rfl)
    )

theorem startDomain_only {gs : List Group} {s : State} {a0 a1} (hs : OnlyTouches gs s a1) (h_pow : Group.pow ∈ gs) :
    OnlyTouches gs s (startDomain a0 a1) := by
  unfold startDomain
  iterate 40 all_goals (try first
    | with_reducible assumption
    | split
    | dsimp only
    | with_reducible refine OnlyTouches.upd ?_ rfl (.inr rfl) (.inr rfl) (.inr rfl) (.inr rfl) (.inr rfl) (.inr rfl) (.inr rfl) (.inr rfl) (.inr rfl) (.inr rfl) (.inr rfl) (.inr rfl) (.inr rfl) (.inr rfl) (.inr rfl) (.inr rfl) (.inl h_pow) (.inr rfl)
    )

theorem startFromDoze_only {gs : List Group} {s : State} {a0} (hs : OnlyTouches gs s a0) (h_pow : Group.pow ∈ gs) :
    OnlyTouches gs s (startFromDoze a0) := by
  unfold startFromDoze
  iterate 40 all_goals (try first
    | with_reducible assumption
    | with_reducible refine startDomain_only ?_ h_pow
    | with_reducible refine foldl_only (fun u x hu => ?_) ?_
    | with_reducible refine foldl_fst_only (fun u x hu => ?_) ?_
    | split
    | dsimp only
    | with_reducible refine OnlyTouches.upd ?_ rfl (.inr rfl) (.inr rfl) (.inr rfl) (.inr rfl) (.inr rfl) (.inr rfl) (.inr rfl) (.inr rfl) (.inr rfl) (.inr rfl) (.inr rfl) (.inr rfl) (.inr rfl) (.inr rfl) (.inr rfl) (.inr rfl) (.inl h_pow) (.inr rfl)
    )

theorem bootKeys_only {gs : List Group} {s : State} {a0} (hs : OnlyTouches gs s a0) (h_free : Group.free ∈ gs) (h_keys : Group.keys ∈ gs) :
    OnlyTouches gs s (bootKeys a0) := by
  unfold bootKeys
  iterate 40 all_goals (try first
    | with_reducible assumption
    | with_reducible refine State_entropy_only ?_ h_free
    | with_reducible refine setModuleKey_only ?_ h_free h_keys
    | with_reducible refine snd_only (by assumption) ?_
    | with_reducible refine foldl_only (fun u x hu => ?_) ?_
    )

theorem startFromStandby_only {gs : List Group} {s : State} {a0} (hs : OnlyTouches gs s a0) (h_free : Group.free ∈ gs) (h_mem : Group.mem ∈ gs) (h_keys : Group.keys ∈ gs) (h_pow : Group.pow ∈ gs) :
    OnlyTouches gs s (startFromStandby a0) := by
  unfold startFromStandby
  iterate 40 all_goals (try first
    | with_reducible assumption
    | with_reducible refine bootKeys_only ?_ h_free h_keys
    | with_reducible refine startDomain_only ?_ h_pow
    | split
    | dsimp only
    | with_reducible refine OnlyTouches.upd ?_ rfl (.inr rfl) (.inl h_free) (.inr rfl) (.inr rfl) (.inr rfl) (.inr rfl) (.inr rfl) (.inl h_mem) (.inr rfl) (.inl h_keys) (.inr rfl) (.inr rfl) (.inr rfl) (.inr rfl) (.inr rfl) (.inr rfl) (.inl h_pow) (.inr rfl)
    )

theorem wake_only {gs : List Group} {s : State} {a0 a1} (hs : OnlyTouches gs s a1) (h_free : Group.free ∈ gs) (h_mem : Group.mem ∈ gs) (h_keys : Group.keys ∈ gs) (h_pow : Group.pow ∈ gs) :
    OnlyTouches gs s (wake a0 a1) := by
  unfold wake
  iterate 40 all_goals (try first
    | with_reducible assumption
    | with_reducible refine startFromDoze_only ?_ h_pow
    | with_reducible refine startFromStandby_only ?_ h_free h_mem h_keys h_pow
    | split
    | dsimp only
    | with_reducible refine OnlyTouches.upd ?_ rfl (.inr rfl) (.inl h_free) (.inr rfl) (.inr rfl) (.inr rfl) (.inr rfl) (.inr rfl) (.inl h_mem) (.inr rfl) (.inl h_keys) (.inr rfl) (.inr rfl) (.inr rfl) (.inr rfl) (.inr rfl) (.inr rfl) (.inl h_pow) (.inr rfl)
    )

theorem requestActive_only {gs : List Group} {s : State} {a0} (hs : OnlyTouches gs s a0) (h_free : Group.free ∈ gs) (h_mem : Group.mem ∈ gs) (h_keys : Group.keys ∈ gs) (h_pow : Group.pow ∈ gs) :
    OnlyTouches gs s (requestActive a0) := by
  unfold requestActive
  iterate 40 all_goals (try first
    | with_reducible assumption
    | with_reducible refine wake_only ?_ h_free h_mem h_keys h_pow
    | with_reducible refine setRequest_only ?_ h_pow
    | with_reducible refine setLatched_only ?_ h_pow
    | split
    | dsimp only
    | with_reducible refine OnlyTouches.upd ?_ rfl (.inr rfl) (.inl h_free) (.inr rfl) (.inr rfl) (.inr rfl) (.inr rfl) (.inr rfl) (.inl h_mem) (.inr rfl) (.inl h_keys) (.inr rfl) (.inr rfl) (.inr rfl) (.inr rfl) (.inr rfl) (.inr rfl) (.inl h_pow) (.inr rfl)
    )

theorem opStateActive_only {gs : List Group} {s : State} {a0 a1} (hs : OnlyTouches gs s a1) (h_free : Group.free ∈ gs) (h_mem : Group.mem ∈ gs) (h_keys : Group.keys ∈ gs) (h_pow : Group.pow ∈ gs) :
    OnlyTouches gs s (opStateActive a0 a1).1 := by
  unfold opStateActive
  iterate 40 all_goals (try first
    | with_reducible assumption
    | with_reducible refine guarded_only ?_ ?_
    | with_reducible refine requestActive_only ?_ h_free h_mem h_keys h_pow
    )

theorem opFwBegin_only {gs : List Group} {s : State} {a0 a1} (hs : OnlyTouches gs s a1) (h_fw : Group.fw ∈ gs) :
    OnlyTouches gs s (opFwBegin a0 a1).1 := by
  unfold opFwBegin
  iterate 40 all_goals (try first
    | with_reducible assumption
    | with_reducible refine guarded_only ?_ ?_
    | with_reducible refine fst_only (by assumption) ?_
    | split
    | dsimp only
    | with_reducible refine OnlyTouches.upd ?_ rfl (.inr rfl) (.inr rfl) (.inr rfl) (.inr rfl) (.inr rfl) (.inr rfl) (.inr rfl) (.inr rfl) (.inr rfl) (.inr rfl) (.inr rfl) (.inr rfl) (.inr rfl) (.inr rfl) (.inr rfl) (.inr rfl) (.inr rfl) (.inl h_fw)
    )

theorem opFwCommit_only {gs : List Group} {s : State} {a0 a1} (hs : OnlyTouches gs s a1) (h_fw : Group.fw ∈ gs) :
    OnlyTouches gs s (opFwCommit a0 a1).1 := by
  unfold opFwCommit
  iterate 40 all_goals (try first
    | with_reducible assumption
    | with_reducible refine guarded_only ?_ ?_
    | with_reducible refine fst_only (by assumption) ?_
    | split
    | dsimp only
    | with_reducible refine OnlyTouches.upd ?_ rfl (.inr rfl) (.inr rfl) (.inr rfl) (.inr rfl) (.inr rfl) (.inr rfl) (.inr rfl) (.inr rfl) (.inr rfl) (.inr rfl) (.inr rfl) (.inr rfl) (.inr rfl) (.inr rfl) (.inr rfl) (.inr rfl) (.inr rfl) (.inl h_fw)
    )

theorem opFwChunk_only {gs : List Group} {s : State} {a0 a1 a2} (hs : OnlyTouches gs s a2) (h_fw : Group.fw ∈ gs) :
    OnlyTouches gs s (opFwChunk a0 a1 a2).1 := by
  unfold opFwChunk
  iterate 40 all_goals (try first
    | with_reducible assumption
    | with_reducible refine guarded_only ?_ ?_
    | with_reducible refine fst_only (by assumption) ?_
    | split
    | dsimp only
    | with_reducible refine OnlyTouches.upd ?_ rfl (.inr rfl) (.inr rfl) (.inr rfl) (.inr rfl) (.inr rfl) (.inr rfl) (.inr rfl) (.inr rfl) (.inr rfl) (.inr rfl) (.inr rfl) (.inr rfl) (.inr rfl) (.inr rfl) (.inr rfl) (.inr rfl) (.inr rfl) (.inl h_fw)
    )

theorem opModuleValue_only {gs : List Group} {s : State} {a0 a1 a2 a3 a4 a5} (hs : OnlyTouches gs s a5) (h_free : Group.free ∈ gs) (h_tick : Group.tick ∈ gs) (h_gov : Group.gov ∈ gs) (h_parts : Group.parts ∈ gs) (h_rings : Group.rings ∈ gs) (h_arrays : Group.arrays ∈ gs) (h_mem : Group.mem ∈ gs) (h_fab : Group.fab ∈ gs) (h_keys : Group.keys ∈ gs) (h_bind : Group.bind ∈ gs) (h_ras : Group.ras ∈ gs) (h_dict : Group.dict ∈ gs) (h_pow : Group.pow ∈ gs) (h_fw : Group.fw ∈ gs) :
    OnlyTouches gs s (opModuleValue a0 a1 a2 a3 a4 a5).1 := by
  unfold opModuleValue
  iterate 40 all_goals (try first
    | with_reducible assumption
    | with_reducible refine opAlertAck_only ?_ h_dict
    | with_reducible refine opDescQuery_only ?_ h_dict
    | with_reducible refine opStateDoze_only ?_ h_tick h_gov h_parts h_rings h_arrays h_mem h_fab h_keys h_bind h_ras h_dict h_pow
    | with_reducible refine opStateStandby_only ?_ h_tick h_gov h_parts h_rings h_arrays h_mem h_fab h_keys h_bind h_ras h_dict h_pow
    | with_reducible refine opFramePeriod_only ?_ h_tick
    | with_reducible refine opStateActive_only ?_ h_free h_mem h_keys h_pow
    | with_reducible refine opFwBegin_only ?_ h_fw
    | with_reducible refine opFwCommit_only ?_ h_fw
    | with_reducible refine opFwChunk_only ?_ h_fw
    | with_reducible refine when_only ?_ ?_
    | with_reducible refine fst_only (by assumption) ?_
    | split
    | dsimp only
    | with_reducible refine OnlyTouches.upd ?_ rfl (.inr rfl) (.inl h_free) (.inl h_tick) (.inl h_gov) (.inl h_parts) (.inl h_rings) (.inl h_arrays) (.inl h_mem) (.inl h_fab) (.inl h_keys) (.inl h_bind) (.inr rfl) (.inl h_ras) (.inr rfl) (.inl h_dict) (.inr rfl) (.inl h_pow) (.inl h_fw)
    )

theorem applyWrite_only {gs : List Group} {s : State} {a0 a1 a2 a3 a4} (hs : OnlyTouches gs s a4) (h_out : Group.out ∈ gs) (h_free : Group.free ∈ gs) (h_tick : Group.tick ∈ gs) (h_gov : Group.gov ∈ gs) (h_parts : Group.parts ∈ gs) (h_rings : Group.rings ∈ gs) (h_arrays : Group.arrays ∈ gs) (h_mem : Group.mem ∈ gs) (h_fab : Group.fab ∈ gs) (h_keys : Group.keys ∈ gs) (h_bind : Group.bind ∈ gs) (h_life : Group.life ∈ gs) (h_ras : Group.ras ∈ gs) (h_lh : Group.lh ∈ gs) (h_dict : Group.dict ∈ gs) (h_side : Group.side ∈ gs) (h_pow : Group.pow ∈ gs) (h_fw : Group.fw ∈ gs) :
    OnlyTouches gs s (applyWrite a0 a1 a2 a3 a4).1 := by
  unfold applyWrite
  iterate 40 all_goals (try first
    | with_reducible assumption
    | with_reducible refine opRingEnable_only ?_ h_rings
    | with_reducible refine opSessionObject_only ?_ h_out h_free h_parts h_mem h_fab h_keys h_bind h_ras h_dict
    | with_reducible refine opFabricValue_only ?_ h_mem h_fab h_dict h_side
    | with_reducible refine opMemValue_only ?_ h_out h_free h_parts h_mem h_ras h_dict
    | with_reducible refine opRingValue_only ?_ h_rings
    | with_reducible refine opSystemValue_only ?_ h_out h_free h_gov h_parts h_rings h_arrays h_mem h_fab h_keys h_bind h_life h_ras h_lh h_dict
    | with_reducible refine opStraitValue_only ?_ h_fab
    | with_reducible refine opPartValue_only ?_ h_out h_free h_gov h_parts h_rings h_arrays h_mem h_fab h_keys h_bind h_ras h_dict
    | with_reducible refine opModuleValue_only ?_ h_free h_tick h_gov h_parts h_rings h_arrays h_mem h_fab h_keys h_bind h_ras h_dict h_pow h_fw
    | with_reducible refine fst_only (by assumption) ?_
    | split
    )

theorem askHome_only {gs : List Group} {s : State} {a0 a1 a2 a3 a4} (hs : OnlyTouches gs s a4) (h_out : Group.out ∈ gs) (h_free : Group.free ∈ gs) (h_parts : Group.parts ∈ gs) (h_mem : Group.mem ∈ gs) (h_fab : Group.fab ∈ gs) (h_ras : Group.ras ∈ gs) (h_dict : Group.dict ∈ gs) :
    OnlyTouches gs s (askHome a0 a1 a2 a3 a4) := by
  unfold askHome
  iterate 40 all_goals (try first
    | with_reducible assumption
    | with_reducible refine State_putVM_only ?_ h_out h_free h_parts h_mem h_ras h_dict
    | with_reducible refine sendPkt_only ?_ h_out h_fab
    | with_reducible refine State_emit_only ?_ h_out
    | split
    | dsimp only
    | with_reducible refine OnlyTouches.upd ?_ rfl (.inl h_out) (.inl h_free) (.inr rfl) (.inr rfl) (.inl h_parts) (.inr rfl) (.inr rfl) (.inl h_mem) (.inl h_fab) (.inr rfl) (.inr rfl) (.inr rfl) (.inl h_ras) (.inr rfl) (.inl h_dict) (.inr rfl) (.inr rfl) (.inr rfl)
    )

theorem askImage_only {gs : List Group} {s : State} {a0 a1} (hs : OnlyTouches gs s a1) (h_out : Group.out ∈ gs) (h_dict : Group.dict ∈ gs) :
    OnlyTouches gs s (askImage a0 a1) := by
  unfold askImage
  iterate 40 all_goals (try first
    | with_reducible assumption
    | with_reducible refine State_emitOver_only ?_ h_out h_dict
    )

theorem askOver_only {gs : List Group} {s : State} {a0 a1} (hs : OnlyTouches gs s a1) (h_out : Group.out ∈ gs) (h_dict : Group.dict ∈ gs) :
    OnlyTouches gs s (askOver a0 a1) := by
  unfold askOver
  iterate 40 all_goals (try first
    | with_reducible assumption
    | with_reducible refine askImage_only ?_ h_out h_dict
    | split
    )

theorem askResend_only {gs : List Group} {s : State} {a0 a1} (hs : OnlyTouches gs s a1) (h_out : Group.out ∈ gs) (h_fab : Group.fab ∈ gs) :
    OnlyTouches gs s (askResend a0 a1) := by
  unfold askResend
  iterate 40 all_goals (try first
    | with_reducible assumption
    | with_reducible refine State_updStrait_only ?_ h_fab
    | with_reducible refine State_emit_only ?_ h_out
    | split
    )

theorem auditRepair_only {gs : List Group} {s : State} {a0} (hs : OnlyTouches gs s a0) (h_out : Group.out ∈ gs) (h_free : Group.free ∈ gs) (h_parts : Group.parts ∈ gs) (h_mem : Group.mem ∈ gs) (h_ras : Group.ras ∈ gs) (h_dict : Group.dict ∈ gs) :
    OnlyTouches gs s (auditRepair a0) := by
  unfold auditRepair
  iterate 40 all_goals (try first
    | with_reducible assumption
    | with_reducible refine State_putVM_only ?_ h_out h_free h_parts h_mem h_ras h_dict
    )

theorem becomeCreated_only {gs : List Group} {s : State} {a0 a1} (hs : OnlyTouches gs s a1) (h_gov : Group.gov ∈ gs) (h_parts : Group.parts ∈ gs) (h_rings : Group.rings ∈ gs) (h_mem : Group.mem ∈ gs) :
    OnlyTouches gs s (becomeCreated a0 a1) := by
  unfold becomeCreated
  iterate 40 all_goals (try first
    | with_reducible assumption
    | split
    | dsimp only
    | with_reducible refine OnlyTouches.upd ?_ rfl (.inr rfl) (.inr rfl) (.inr rfl) (.inl h_gov) (.inl h_parts) (.inl h_rings) (.inr rfl) (.inl h_mem) (.inr rfl) (.inr rfl) (.inr rfl) (.inr rfl) (.inr rfl) (.inr rfl) (.inr rfl) (.inr rfl) (.inr rfl) (.inr rfl)
    )

theorem nameSuccessors_only {gs : List Group} {s : State} {a0 a1} (hs : OnlyTouches gs s a1) (h_tick : Group.tick ∈ gs) :
    OnlyTouches gs s (nameSuccessors a0 a1) := by
  unfold nameSuccessors
  iterate 40 all_goals (try first
    | with_reducible assumption
    | split
    | dsimp only
    | with_reducible refine OnlyTouches.upd ?_ rfl (.inr rfl) (.inr rfl) (.inl h_tick) (.inr rfl) (.inr rfl) (.inr rfl) (.inr rfl) (.inr rfl) (.inr rfl) (.inr rfl) (.inr rfl) (.inr rfl) (.inr rfl) (.inr rfl) (.inr rfl) (.inr rfl) (.inr rfl) (.inr rfl)
    )

theorem becomeMaster_only {gs : List Group} {s : State} {a0 a1} (hs : OnlyTouches gs s a1) (h_tick : Group.tick ∈ gs) :
    OnlyTouches gs s (becomeMaster a0 a1) := by
  unfold becomeMaster
  iterate 40 all_goals (try first
    | with_reducible assumption
    | with_reducible refine nameSuccessors_only ?_ h_tick
    | split
    | dsimp only
    | with_reducible refine OnlyTouches.upd ?_ rfl (.inr rfl) (.inr rfl) (.inl h_tick) (.inr rfl) (.inr rfl) (.inr rfl) (.inr rfl) (.inr rfl) (.inr rfl) (.inr rfl) (.inr rfl) (.inr rfl) (.inr rfl) (.inr rfl) (.inr rfl) (.inr rfl) (.inr rfl) (.inr rfl)
    )

theorem bindRow_only {gs : List Group} {s : State} {a0 a1 a2 a3 a4 a5} (hs : OnlyTouches gs s a5) (h_bind : Group.bind ∈ gs) :
    OnlyTouches gs s (bindRow a0 a1 a2 a3 a4 a5) := by
  unfold bindRow
  iterate 40 all_goals (try first
    | with_reducible assumption
    | split
    | dsimp only
    | with_reducible refine OnlyTouches.upd ?_ rfl (.inr rfl) (.inr rfl) (.inr rfl) (.inr rfl) (.inr rfl) (.inr rfl) (.inr rfl) (.inr rfl) (.inr rfl) (.inr rfl) (.inl h_bind) (.inr rfl) (.inr rfl) (.inr rfl) (.inr rfl) (.inr rfl) (.inr rfl) (.inr rfl)
    )

theorem fetchOn_only {gs : List Group} {s b : State} {k} (hs : OnlyTouches gs s b) (h_out : Group.out ∈ gs) (h_free : Group.free ∈ gs) (h_fab : Group.fab ∈ gs) (h_dict : Group.dict ∈ gs) (h_fw : Group.fw ∈ gs) :
    OnlyTouches gs s (fetchOn k b) := by
  unfold fetchOn
  dsimp only
  have h := State_entropy_only (State_entropy_only (State_entropy_only hs h_free) h_free) h_free
  have h2 : ∀ x, OnlyTouches gs s { b.entropy.2.entropy.2.entropy.2 with fw := x } := fun x => OnlyTouches.upd h rfl (.inl h_out) (.inl h_free) (.inr rfl) (.inr rfl) (.inr rfl) (.inr rfl) (.inr rfl) (.inr rfl) (.inl h_fab) (.inr rfl) (.inr rfl) (.inr rfl) (.inr rfl) (.inr rfl) (.inl h_dict) (.inr rfl) (.inr rfl) (.inl h_fw)
  split
  · split
    · exact askImage_only (h2 _) h_out h_dict
    · exact beginTraining_only (h2 _) h_fab
  · exact askImage_only (h2 _) h_out h_dict

theorem bootImage_only {gs : List Group} {s : State} {a0} (hs : OnlyTouches gs s a0) (h_out : Group.out ∈ gs) (h_free : Group.free ∈ gs) (h_mem : Group.mem ∈ gs) (h_fab : Group.fab ∈ gs) (h_keys : Group.keys ∈ gs) (h_dict : Group.dict ∈ gs) (h_pow : Group.pow ∈ gs) (h_fw : Group.fw ∈ gs) :
    OnlyTouches gs s (bootImage a0) := by
  unfold bootImage
  iterate 40 all_goals (try first
    | with_reducible assumption
    | with_reducible refine fetchOn_only ?_ h_out h_free h_fab h_dict h_fw
    | with_reducible refine startFromStandby_only ?_ h_free h_mem h_keys h_pow
    | split
    | dsimp only
    | with_reducible refine OnlyTouches.upd ?_ rfl (.inl h_out) (.inl h_free) (.inr rfl) (.inr rfl) (.inr rfl) (.inr rfl) (.inr rfl) (.inl h_mem) (.inl h_fab) (.inl h_keys) (.inr rfl) (.inr rfl) (.inr rfl) (.inr rfl) (.inl h_dict) (.inr rfl) (.inl h_pow) (.inl h_fw)
    )

theorem ladderKeys_only {gs : List Group} {s : State} {a0} (hs : OnlyTouches gs s a0) (h_free : Group.free ∈ gs) (h_keys : Group.keys ∈ gs) :
    OnlyTouches gs s (ladderKeys a0) := by
  unfold ladderKeys
  iterate 40 all_goals (try first
    | with_reducible assumption
    | with_reducible refine setModuleKey_only ?_ h_free h_keys
    | split
    | dsimp only
    )

theorem bootLife_only {gs : List Group} {s : State} {a0} (hs : OnlyTouches gs s a0) (h_out : Group.out ∈ gs) (h_life : Group.life ∈ gs) (h_lh : Group.lh ∈ gs) :
    OnlyTouches gs s (bootLife a0).1 := by
  unfold bootLife
  iterate 40 all_goals (try first
    | with_reducible assumption
    | with_reducible refine State_emit_only ?_ h_out
    | with_reducible refine sealBy_only ?_ h_lh
    | split
    | dsimp only
    | with_reducible refine OnlyTouches.upd ?_ rfl (.inl h_out) (.inr rfl) (.inr rfl) (.inr rfl) (.inr rfl) (.inr rfl) (.inr rfl) (.inr rfl) (.inr rfl) (.inr rfl) (.inr rfl) (.inl h_life) (.inr rfl) (.inl h_lh) (.inr rfl) (.inr rfl) (.inr rfl) (.inr rfl)
    )

theorem cutCommit_only {gs : List Group} {s : State} {a0} (hs : OnlyTouches gs s a0) (h_free : Group.free ∈ gs) (h_fw : Group.fw ∈ gs) :
    OnlyTouches gs s (cutCommit a0) := by
  unfold cutCommit
  iterate 40 all_goals (try first
    | with_reducible assumption
    | split
    | dsimp only
    | with_reducible refine OnlyTouches.upd ?_ rfl (.inr rfl) (.inl h_free) (.inr rfl) (.inr rfl) (.inr rfl) (.inr rfl) (.inr rfl) (.inr rfl) (.inr rfl) (.inr rfl) (.inr rfl) (.inr rfl) (.inr rfl) (.inr rfl) (.inr rfl) (.inr rfl) (.inr rfl) (.inl h_fw)
    )

theorem cutTransition_only {gs : List Group} {s : State} {a0} (hs : OnlyTouches gs s a0) (h_free : Group.free ∈ gs) (h_life : Group.life ∈ gs) :
    OnlyTouches gs s (cutTransition a0) := by
  unfold cutTransition
  iterate 40 all_goals (try first
    | with_reducible assumption
    | split
    | dsimp only
    | with_reducible refine OnlyTouches.upd ?_ rfl (.inr rfl) (.inl h_free) (.inr rfl) (.inr rfl) (.inr rfl) (.inr rfl) (.inr rfl) (.inr rfl) (.inr rfl) (.inr rfl) (.inr rfl) (.inl h_life) (.inr rfl) (.inr rfl) (.inr rfl) (.inr rfl) (.inr rfl) (.inr rfl)
    )

theorem resetAll_only {gs : List Group} {s : State} {a0} (hs : OnlyTouches gs s a0) (h_free : Group.free ∈ gs) (h_tick : Group.tick ∈ gs) (h_gov : Group.gov ∈ gs) (h_parts : Group.parts ∈ gs) (h_rings : Group.rings ∈ gs) (h_arrays : Group.arrays ∈ gs) (h_mem : Group.mem ∈ gs) (h_fab : Group.fab ∈ gs) (h_keys : Group.keys ∈ gs) (h_bind : Group.bind ∈ gs) (h_life : Group.life ∈ gs) (h_ras : Group.ras ∈ gs) (h_lh : Group.lh ∈ gs) (h_dict : Group.dict ∈ gs) (h_side : Group.side ∈ gs) (h_pow : Group.pow ∈ gs) (h_fw : Group.fw ∈ gs) :
    OnlyTouches gs s (resetAll a0) := by
  unfold resetAll
  iterate 40 all_goals (try first
    | with_reducible assumption
    | with_reducible refine loseTenants_only ?_ h_parts h_rings h_arrays h_mem h_fab h_keys h_bind h_ras h_dict
    | with_reducible refine leaveTick_only ?_ h_tick h_gov
    | with_reducible refine cutCommit_only ?_ h_free h_fw
    | with_reducible refine cutTransition_only ?_ h_free h_life
    | split
    | dsimp only
    | with_reducible refine OnlyTouches.upd ?_ rfl (.inr rfl) (.inl h_free) (.inl h_tick) (.inl h_gov) (.inl h_parts) (.inl h_rings) (.inl h_arrays) (.inl h_mem) (.inl h_fab) (.inl h_keys) (.inl h_bind) (.inl h_life) (.inl h_ras) (.inl h_lh) (.inl h_dict) (.inl h_side) (.inl h_pow) (.inl h_fw)
    )

theorem boot_only {gs : List Group} {s : State} {a0 a1 a2} (hs : OnlyTouches gs s a2) (h_out : Group.out ∈ gs) (h_free : Group.free ∈ gs) (h_tick : Group.tick ∈ gs) (h_gov : Group.gov ∈ gs) (h_parts : Group.parts ∈ gs) (h_rings : Group.rings ∈ gs) (h_arrays : Group.arrays ∈ gs) (h_mem : Group.mem ∈ gs) (h_fab : Group.fab ∈ gs) (h_keys : Group.keys ∈ gs) (h_bind : Group.bind ∈ gs) (h_life : Group.life ∈ gs) (h_ras : Group.ras ∈ gs) (h_lh : Group.lh ∈ gs) (h_dict : Group.dict ∈ gs) (h_side : Group.side ∈ gs) (h_pow : Group.pow ∈ gs) (h_fw : Group.fw ∈ gs) :
    OnlyTouches gs s (boot a0 a1 a2) := by
  unfold boot
  iterate 40 all_goals (try first
    | with_reducible assumption
    | with_reducible refine bootImage_only ?_ h_out h_free h_mem h_fab h_keys h_dict h_pow h_fw
    | with_reducible refine ladderKeys_only ?_ h_free h_keys
    | with_reducible refine bootLife_only ?_ h_out h_life h_lh
    | with_reducible refine resetAll_only ?_ h_free h_tick h_gov h_parts h_rings h_arrays h_mem h_fab h_keys h_bind h_life h_ras h_lh h_dict h_side h_pow h_fw
    | with_reducible refine fst_only (by assumption) ?_
    | split
    | dsimp only
    | with_reducible refine OnlyTouches.upd ?_ rfl (.inl h_out) (.inl h_free) (.inl h_tick) (.inl h_gov) (.inl h_parts) (.inl h_rings) (.inl h_arrays) (.inl h_mem) (.inl h_fab) (.inl h_keys) (.inl h_bind) (.inl h_life) (.inl h_ras) (.inl h_lh) (.inl h_dict) (.inl h_side) (.inl h_pow) (.inl h_fw)
    )

theorem freshCal_only {gs : List Group} {s : State} {a0} (hs : OnlyTouches gs s a0) (h_free : Group.free ∈ gs) (h_lh : Group.lh ∈ gs) :
    OnlyTouches gs s (freshCal a0) := by
  unfold freshCal
  iterate 40 all_goals (try first
    | with_reducible assumption
    | split
    | dsimp only
    | with_reducible refine OnlyTouches.upd ?_ rfl (.inr rfl) (.inl h_free) (.inr rfl) (.inr rfl) (.inr rfl) (.inr rfl) (.inr rfl) (.inr rfl) (.inr rfl) (.inr rfl) (.inr rfl) (.inr rfl) (.inr rfl) (.inl h_lh) (.inr rfl) (.inr rfl) (.inr rfl) (.inr rfl)
    )

theorem calibrate_only {gs : List Group} {s : State} {a0 a1} (hs : OnlyTouches gs s a1) (h_free : Group.free ∈ gs) (h_lh : Group.lh ∈ gs) :
    OnlyTouches gs s (calibrate a0 a1) := by
  unfold calibrate
  iterate 40 all_goals (try first
    | with_reducible assumption
    | with_reducible refine freshCal_only ?_ h_free h_lh
    | split
    | dsimp only
    | with_reducible refine OnlyTouches.upd ?_ rfl (.inr rfl) (.inl h_free) (.inr rfl) (.inr rfl) (.inr rfl) (.inr rfl) (.inr rfl) (.inr rfl) (.inr rfl) (.inr rfl) (.inr rfl) (.inr rfl) (.inr rfl) (.inl h_lh) (.inr rfl) (.inr rfl) (.inr rfl) (.inr rfl)
    )

theorem casSector_only {gs : List Group} {s : State} {a0 a1 a2 a3 a4 a5} (hs : OnlyTouches gs s a5) (h_out : Group.out ∈ gs) (h_mem : Group.mem ∈ gs) (h_fab : Group.fab ∈ gs) :
    OnlyTouches gs s (casSector a0 a1 a2 a3 a4 a5) := by
  unfold casSector
  iterate 40 all_goals (try first
    | with_reducible assumption
    | with_reducible refine sendPkt_only ?_ h_out h_fab
    | split
    | dsimp only
    | with_reducible refine OnlyTouches.upd ?_ rfl (.inl h_out) (.inr rfl) (.inr rfl) (.inr rfl) (.inr rfl) (.inr rfl) (.inr rfl) (.inl h_mem) (.inl h_fab) (.inr rfl) (.inr rfl) (.inr rfl) (.inr rfl) (.inr rfl) (.inr rfl) (.inr rfl) (.inr rfl) (.inr rfl)
    )

theorem checkerFailed_only {gs : List Group} {s : State} {a0 a1} (hs : OnlyTouches gs s a1) (h_free : Group.free ∈ gs) (h_ras : Group.ras ∈ gs) :
    OnlyTouches gs s (checkerFailed a0 a1) := by
  unfold checkerFailed
  iterate 40 all_goals (try first
    | with_reducible assumption
    | split
    | dsimp only
    | with_reducible refine OnlyTouches.upd ?_ rfl (.inr rfl) (.inl h_free) (.inr rfl) (.inr rfl) (.inr rfl) (.inr rfl) (.inr rfl) (.inr rfl) (.inr rfl) (.inr rfl) (.inr rfl) (.inr rfl) (.inl h_ras) (.inr rfl) (.inr rfl) (.inr rfl) (.inr rfl) (.inr rfl)
    )

theorem closeAll_only {gs : List Group} {s : State} {a0 a1} (hs : OnlyTouches gs s a1) (h_out : Group.out ∈ gs) (h_free : Group.free ∈ gs) (h_parts : Group.parts ∈ gs) (h_rings : Group.rings ∈ gs) (h_mem : Group.mem ∈ gs) (h_fab : Group.fab ∈ gs) (h_bind : Group.bind ∈ gs) (h_ras : Group.ras ∈ gs) (h_dict : Group.dict ∈ gs) :
    OnlyTouches gs s (closeAll a0 a1) := by
  unfold closeAll
  iterate 40 all_goals (try first
    | with_reducible assumption
    | with_reducible refine closeAttempt_only ?_ h_out h_free h_parts h_rings h_mem h_fab h_bind h_ras h_dict
    | with_reducible refine foldl_only (fun u x hu => ?_) ?_
    )

theorem eraseKey_only {gs : List Group} {s : State} {a0 a1} (hs : OnlyTouches gs s a1) (h_keys : Group.keys ∈ gs) :
    OnlyTouches gs s (eraseKey a0 a1) := by
  unfold eraseKey
  iterate 40 all_goals (try first
    | with_reducible assumption
    | split
    | dsimp only
    | with_reducible refine OnlyTouches.upd ?_ rfl (.inr rfl) (.inr rfl) (.inr rfl) (.inr rfl) (.inr rfl) (.inr rfl) (.inr rfl) (.inr rfl) (.inr rfl) (.inl h_keys) (.inr rfl) (.inr rfl) (.inr rfl) (.inr rfl) (.inr rfl) (.inr rfl) (.inr rfl) (.inr rfl)
    )

theorem endSession_only {gs : List Group} {s : State} {a0 a1} (hs : OnlyTouches gs s a1) (h_keys : Group.keys ∈ gs) (h_dict : Group.dict ∈ gs) :
    OnlyTouches gs s (endSession a0 a1) := by
  unfold endSession
  iterate 40 all_goals (try first
    | with_reducible assumption
    | with_reducible refine eraseKey_only ?_ h_keys
    | split
    | dsimp only
    | with_reducible refine OnlyTouches.upd ?_ rfl (.inr rfl) (.inr rfl) (.inr rfl) (.inr rfl) (.inr rfl) (.inr rfl) (.inr rfl) (.inr rfl) (.inr rfl) (.inl h_keys) (.inr rfl) (.inr rfl) (.inr rfl) (.inr rfl) (.inl h_dict) (.inr rfl) (.inr rfl) (.inr rfl)
    )

theorem sbFrame_only {gs : List Group} {s : State} {a0 a1 a2 a3} (hs : OnlyTouches gs s a3) (h_dict : Group.dict ∈ gs) :
    OnlyTouches gs s (sbFrame a0 a1 a2 a3) := by
  unfold sbFrame
  iterate 40 all_goals (try first
    | with_reducible assumption
    | split
    | dsimp only
    | with_reducible refine OnlyTouches.upd ?_ rfl (.inr rfl) (.inr rfl) (.inr rfl) (.inr rfl) (.inr rfl) (.inr rfl) (.inr rfl) (.inr rfl) (.inr rfl) (.inr rfl) (.inr rfl) (.inr rfl) (.inr rfl) (.inr rfl) (.inl h_dict) (.inr rfl) (.inr rfl) (.inr rfl)
    )

theorem respondClear_only {gs : List Group} {s : State} {a0 a1 a2 a3 a4} (hs : OnlyTouches gs s a4) (h_out : Group.out ∈ gs) (h_dict : Group.dict ∈ gs) :
    OnlyTouches gs s (respondClear a0 a1 a2 a3 a4) := by
  unfold respondClear
  iterate 40 all_goals (try first
    | with_reducible assumption
    | with_reducible refine State_emit_only ?_ h_out
    | with_reducible refine sbFrame_only ?_ h_dict
    )

theorem dropMsg_only {gs : List Group} {s : State} {a0} (hs : OnlyTouches gs s a0) (h_dict : Group.dict ∈ gs) :
    OnlyTouches gs s (dropMsg a0) := by
  unfold dropMsg
  iterate 40 all_goals (try first
    | with_reducible assumption
    | split
    | dsimp only
    | with_reducible refine OnlyTouches.upd ?_ rfl (.inr rfl) (.inr rfl) (.inr rfl) (.inr rfl) (.inr rfl) (.inr rfl) (.inr rfl) (.inr rfl) (.inr rfl) (.inr rfl) (.inr rfl) (.inr rfl) (.inr rfl) (.inr rfl) (.inl h_dict) (.inr rfl) (.inr rfl) (.inr rfl)
    )

theorem respondSeq_only {gs : List Group} {s : State} {a0 a1 a2 a3 a4} (hs : OnlyTouches gs s a4) (h_out : Group.out ∈ gs) (h_dict : Group.dict ∈ gs) :
    OnlyTouches gs s (respondSeq a0 a1 a2 a3 a4) := by
  unfold respondSeq
  iterate 40 all_goals (try first
    | with_reducible assumption
    | with_reducible refine State_emit_only ?_ h_out
    | with_reducible refine sbFrame_only ?_ h_dict
    | split
    | dsimp only
    | with_reducible refine OnlyTouches.upd ?_ rfl (.inl h_out) (.inr rfl) (.inr rfl) (.inr rfl) (.inr rfl) (.inr rfl) (.inr rfl) (.inr rfl) (.inr rfl) (.inr rfl) (.inr rfl) (.inr rfl) (.inr rfl) (.inr rfl) (.inl h_dict) (.inr rfl) (.inr rfl) (.inr rfl)
    )

theorem respond_only {gs : List Group} {s : State} {a0 a1 a2 a3 a4} (hs : OnlyTouches gs s a4) (h_out : Group.out ∈ gs) (h_dict : Group.dict ∈ gs) :
    OnlyTouches gs s (respond a0 a1 a2 a3 a4) := by
  unfold respond
  iterate 40 all_goals (try first
    | with_reducible assumption
    | with_reducible refine respondSeq_only ?_ h_out h_dict
    | split
    | dsimp only
    | with_reducible refine OnlyTouches.upd ?_ rfl (.inl h_out) (.inr rfl) (.inr rfl) (.inr rfl) (.inr rfl) (.inr rfl) (.inr rfl) (.inr rfl) (.inr rfl) (.inr rfl) (.inr rfl) (.inr rfl) (.inr rfl) (.inr rfl) (.inl h_dict) (.inr rfl) (.inr rfl) (.inr rfl)
    )

theorem runMsg_only {gs : List Group} {s b : State} {m} {f : State → State × Reply} (hf : ∀ u, OnlyTouches gs s u → OnlyTouches gs s (f u).1) (hs : OnlyTouches gs s b) (h_out : Group.out ∈ gs) (h_dict : Group.dict ∈ gs) :
    OnlyTouches gs s (runMsg m f b) := by
  unfold runMsg
  dsimp only
  have h : ∀ x, OnlyTouches gs s { b with dict := x } := fun x => OnlyTouches.upd hs rfl (.inl h_out) (.inr rfl) (.inr rfl) (.inr rfl) (.inr rfl) (.inr rfl) (.inr rfl) (.inr rfl) (.inr rfl) (.inr rfl) (.inr rfl) (.inr rfl) (.inr rfl) (.inr rfl) (.inl h_dict) (.inr rfl) (.inr rfl) (.inr rfl)
  split
  · exact respond_only (hf _ (h _)) h_out h_dict
  · exact hf _ (h _)

theorem inSession_only {gs : List Group} {s b : State} {m x} {f : State → State × Reply} (hf : ∀ u, OnlyTouches gs s u → OnlyTouches gs s (f u).1) (hs : OnlyTouches gs s b) (h_out : Group.out ∈ gs) (h_dict : Group.dict ∈ gs) :
    OnlyTouches gs s (inSession m x f b) := by
  unfold inSession
  have h : ∀ x, OnlyTouches gs s { b with dict := x } := fun x => OnlyTouches.upd hs rfl (.inl h_out) (.inr rfl) (.inr rfl) (.inr rfl) (.inr rfl) (.inr rfl) (.inr rfl) (.inr rfl) (.inr rfl) (.inr rfl) (.inr rfl) (.inr rfl) (.inr rfl) (.inr rfl) (.inl h_dict) (.inr rfl) (.inr rfl) (.inr rfl)
  split
  · exact respondClear_only hs h_out h_dict
  · split
    · exact dropMsg_only hs h_dict
    · dsimp only
      split
      · exact respondClear_only (h _) h_out h_dict
      · exact runMsg_only hf (h _) h_out h_dict

theorem message_only {gs : List Group} {s b : State} {o m} {f : State → State × Reply} (hf : ∀ u, OnlyTouches gs s u → OnlyTouches gs s (f u).1) (hs : OnlyTouches gs s b) (h_out : Group.out ∈ gs) (h_dict : Group.dict ∈ gs) :
    OnlyTouches gs s (message o m f b) := by
  unfold message
  have h := fun i n => @sbFrame_only gs s m i n b hs h_dict
  dsimp only
  split
  · exact h _ _
  · split
    · exact dropMsg_only (h _ _) h_dict
    · split
      · exact runMsg_only hf (h _ _) h_out h_dict
      · split
        · exact respondClear_only (h _ _) h_out h_dict
        · exact inSession_only hf (h _ _) h_out h_dict

theorem closeMsg_only {gs : List Group} {s : State} {a0 a1} (hs : OnlyTouches gs s a1) (h_out : Group.out ∈ gs) (h_keys : Group.keys ∈ gs) (h_dict : Group.dict ∈ gs) :
    OnlyTouches gs s (closeMsg a0 a1) := by
  unfold closeMsg
  iterate 40 all_goals (try first
    | with_reducible assumption
    | with_reducible refine endSession_only ?_ h_keys h_dict
    | with_reducible refine message_only (fun u hu => ?_) ?_ h_out h_dict
    | split
    | dsimp only
    )

theorem finishArray_only {gs : List Group} {s : State} {a0 a1} (hs : OnlyTouches gs s a1) (h_rings : Group.rings ∈ gs) (h_arrays : Group.arrays ∈ gs) :
    OnlyTouches gs s (finishArray a0 a1) := by
  unfold finishArray
  iterate 40 all_goals (try first
    | with_reducible assumption
    | with_reducible refine updRun_only ?_ h_rings
    | with_reducible refine State_updArray_only ?_ h_arrays
    | split
    )

theorem openGate_only {gs : List Group} {s : State} {a0 a1 a2} (hs : OnlyTouches gs s a2) (h_rings : Group.rings ∈ gs) (h_arrays : Group.arrays ∈ gs) :
    OnlyTouches gs s (openGate a0 a1 a2) := by
  unfold openGate
  iterate 40 all_goals (try first
    | with_reducible assumption
    | with_reducible refine finishArray_only ?_ h_rings h_arrays
    | with_reducible refine updEntry_only ?_ h_rings
    | with_reducible refine foldl_only (fun u x hu => ?_) ?_
    )

theorem raiseDispute_only {gs : List Group} {s : State} {a0 a1 a2} (hs : OnlyTouches gs s a2) (h_rings : Group.rings ∈ gs) (h_arrays : Group.arrays ∈ gs) :
    OnlyTouches gs s (raiseDispute a0 a1 a2) := by
  unfold raiseDispute
  iterate 40 all_goals (try first
    | with_reducible assumption
    | with_reducible refine updEntry_only ?_ h_rings
    | with_reducible refine State_updArray_only ?_ h_arrays
    | split
    | dsimp only
    )

theorem columnDone_only {gs : List Group} {s : State} {a0 a1 a2} (hs : OnlyTouches gs s a2) (h_rings : Group.rings ∈ gs) (h_arrays : Group.arrays ∈ gs) :
    OnlyTouches gs s (columnDone a0 a1 a2) := by
  unfold columnDone
  iterate 40 all_goals (try first
    | with_reducible assumption
    | with_reducible refine updEntry_only ?_ h_rings
    | with_reducible refine openGate_only ?_ h_rings h_arrays
    | with_reducible refine raiseDispute_only ?_ h_rings h_arrays
    | split
    | dsimp only
    )

theorem commitDone_only {gs : List Group} {s : State} {a0 a1} (hs : OnlyTouches gs s a1) (h_fw : Group.fw ∈ gs) :
    OnlyTouches gs s (commitDone a0 a1) := by
  unfold commitDone
  iterate 40 all_goals (try first
    | with_reducible assumption
    | split
    | dsimp only
    | with_reducible refine OnlyTouches.upd ?_ rfl (.inr rfl) (.inr rfl) (.inr rfl) (.inr rfl) (.inr rfl) (.inr rfl) (.inr rfl) (.inr rfl) (.inr rfl) (.inr rfl) (.inr rfl) (.inr rfl) (.inr rfl) (.inr rfl) (.inr rfl) (.inr rfl) (.inr rfl) (.inl h_fw)
    )

theorem settleStop_only {gs : List Group} {s : State} {a0 a1 a2} (hs : OnlyTouches gs s a2) (h_rings : Group.rings ∈ gs) :
    OnlyTouches gs s (settleStop a0 a1 a2) := by
  unfold settleStop
  iterate 40 all_goals (try first
    | with_reducible assumption
    | with_reducible refine updEntry_only ?_ h_rings
    )

theorem commitRows_only {gs : List Group} {s : State} {a0 a1 a2 a3} (hs : OnlyTouches gs s a3) (h_rings : Group.rings ∈ gs) :
    OnlyTouches gs s (commitRows a0 a1 a2 a3) := by
  unfold commitRows
  iterate 40 all_goals (try first
    | with_reducible assumption
    | with_reducible refine updEntry_only ?_ h_rings
    | with_reducible refine settleStop_only ?_ h_rings
    )

theorem waitHost_only {gs : List Group} {s : State} {a0 a1} (hs : OnlyTouches gs s a1) (h_fab : Group.fab ∈ gs) :
    OnlyTouches gs s (waitHost a0 a1) := by
  unfold waitHost
  iterate 40 all_goals (try first
    | with_reducible assumption
    | split
    | dsimp only
    | with_reducible refine OnlyTouches.upd ?_ rfl (.inr rfl) (.inr rfl) (.inr rfl) (.inr rfl) (.inr rfl) (.inr rfl) (.inr rfl) (.inr rfl) (.inl h_fab) (.inr rfl) (.inr rfl) (.inr rfl) (.inr rfl) (.inr rfl) (.inr rfl) (.inr rfl) (.inr rfl) (.inr rfl)
    )

theorem completeHost_only {gs : List Group} {s : State} {a0 a1 a2} (hs : OnlyTouches gs s a2) (h_out : Group.out ∈ gs) (h_fab : Group.fab ∈ gs) :
    OnlyTouches gs s (completeHost a0 a1 a2) := by
  unfold completeHost
  iterate 40 all_goals (try first
    | with_reducible assumption
    | with_reducible refine waitHost_only ?_ h_fab
    | with_reducible refine State_emit_only ?_ h_out
    | split
    )

theorem learnCorrection_only {gs : List Group} {s : State} {a0 a1 a2 a3} (hs : OnlyTouches gs s a3) (h_gov : Group.gov ∈ gs) :
    OnlyTouches gs s (learnCorrection a0 a1 a2 a3) := by
  unfold learnCorrection
  iterate 40 all_goals (try first
    | with_reducible assumption
    | split
    | dsimp only
    | with_reducible refine OnlyTouches.upd ?_ rfl (.inr rfl) (.inr rfl) (.inr rfl) (.inl h_gov) (.inr rfl) (.inr rfl) (.inr rfl) (.inr rfl) (.inr rfl) (.inr rfl) (.inr rfl) (.inr rfl) (.inr rfl) (.inr rfl) (.inr rfl) (.inr rfl) (.inr rfl) (.inr rfl)
    )

theorem completeRun_only {gs : List Group} {s : State} {a0 a1 a2 a3 a4 a5} (hs : OnlyTouches gs s a5) (h_out : Group.out ∈ gs) (h_free : Group.free ∈ gs) (h_gov : Group.gov ∈ gs) (h_parts : Group.parts ∈ gs) (h_rings : Group.rings ∈ gs) (h_mem : Group.mem ∈ gs) (h_fab : Group.fab ∈ gs) (h_bind : Group.bind ∈ gs) (h_ras : Group.ras ∈ gs) (h_dict : Group.dict ∈ gs) :
    OnlyTouches gs s (completeRun a0 a1 a2 a3 a4 a5) := by
  unfold completeRun
  iterate 40 all_goals (try first
    | with_reducible assumption
    | with_reducible refine closeAttempt_only ?_ h_out h_free h_parts h_rings h_mem h_fab h_bind h_ras h_dict
    | with_reducible refine State_updRing_only ?_ h_rings
    | with_reducible refine countConds_only ?_ h_out h_free h_parts h_mem h_ras h_dict
    | with_reducible refine learnCorrection_only ?_ h_gov
    | with_reducible refine foldl_only (fun u x hu => ?_) ?_
    )

theorem partialIn_only {gs : List Group} {s : State} {a0 a1 a2 a3 a4 a5} (hs : OnlyTouches gs s a5) (h_out : Group.out ∈ gs) (h_fab : Group.fab ∈ gs) (h_bind : Group.bind ∈ gs) :
    OnlyTouches gs s (partialIn a0 a1 a2 a3 a4 a5) := by
  unfold partialIn
  iterate 40 all_goals (try first
    | with_reducible assumption
    | with_reducible refine forwardPartial_only ?_ h_out h_fab
    | with_reducible refine foldOn_only ?_ h_out h_fab h_bind
    | with_reducible refine openWork_only ?_ h_bind
    | with_reducible refine updWork_only ?_ h_bind
    | split
    | dsimp only
    )

theorem ownerTakes_only {gs : List Group} {s : State} {a0 a1 a2 a3 a4 a5 a6 a7} (hs : OnlyTouches gs s a7) (h_out : Group.out ∈ gs) (h_free : Group.free ∈ gs) (h_parts : Group.parts ∈ gs) (h_mem : Group.mem ∈ gs) (h_fab : Group.fab ∈ gs) (h_bind : Group.bind ∈ gs) (h_ras : Group.ras ∈ gs) (h_dict : Group.dict ∈ gs) :
    OnlyTouches gs s (ownerTakes a0 a1 a2 a3 a4 a5 a6 a7) := by
  unfold ownerTakes
  iterate 40 all_goals (try first
    | with_reducible assumption
    | with_reducible refine modRed_only ?_ h_bind
    | with_reducible refine startRecovery_only ?_ h_out h_free h_parts h_mem h_fab h_bind h_ras h_dict
    | with_reducible refine tryClose_only ?_ h_out h_free h_parts h_mem h_fab h_bind h_ras h_dict
    | split
    | dsimp only
    | with_reducible refine OnlyTouches.upd ?_ rfl (.inl h_out) (.inl h_free) (.inr rfl) (.inr rfl) (.inl h_parts) (.inr rfl) (.inr rfl) (.inl h_mem) (.inl h_fab) (.inr rfl) (.inl h_bind) (.inr rfl) (.inl h_ras) (.inr rfl) (.inl h_dict) (.inr rfl) (.inr rfl) (.inr rfl)
    )

theorem contribIn_only {gs : List Group} {s : State} {a0 a1 a2} (hs : OnlyTouches gs s a2) (h_out : Group.out ∈ gs) (h_free : Group.free ∈ gs) (h_parts : Group.parts ∈ gs) (h_mem : Group.mem ∈ gs) (h_fab : Group.fab ∈ gs) (h_bind : Group.bind ∈ gs) (h_ras : Group.ras ∈ gs) (h_dict : Group.dict ∈ gs) :
    OnlyTouches gs s (contribIn a0 a1 a2) := by
  unfold contribIn
  iterate 40 all_goals (try first
    | with_reducible assumption
    | with_reducible refine partialIn_only ?_ h_out h_fab h_bind
    | with_reducible refine countLate_only ?_ h_bind
    | with_reducible refine ownerTakes_only ?_ h_out h_free h_parts h_mem h_fab h_bind h_ras h_dict
    | with_reducible refine updLayer_only ?_ h_bind
    | split
    )

theorem countRefusal_only {gs : List Group} {s : State} {a0 a1} (hs : OnlyTouches gs s a1) (h_keys : Group.keys ∈ gs) :
    OnlyTouches gs s (countRefusal a0 a1) := by
  unfold countRefusal
  iterate 40 all_goals (try first
    | with_reducible assumption
    | split
    | dsimp only
    | with_reducible refine OnlyTouches.upd ?_ rfl (.inr rfl) (.inr rfl) (.inr rfl) (.inr rfl) (.inr rfl) (.inr rfl) (.inr rfl) (.inr rfl) (.inr rfl) (.inl h_keys) (.inr rfl) (.inr rfl) (.inr rfl) (.inr rfl) (.inr rfl) (.inr rfl) (.inr rfl) (.inr rfl)
    )

theorem countRerun_only {gs : List Group} {s : State} {a0 a1 a2 a3} (hs : OnlyTouches gs s a3) (h_parts : Group.parts ∈ gs) :
    OnlyTouches gs s (countRerun a0 a1 a2 a3) := by
  unfold countRerun
  iterate 40 all_goals (try first
    | with_reducible assumption
    | with_reducible refine countRemoteOn_only ?_ h_parts
    | split
    )

theorem cswSend_only {gs : List Group} {s : State} {a0 a1 a2 a3 a4} (hs : OnlyTouches gs s a4) (h_fab : Group.fab ∈ gs) : OnlyTouches gs s (cswSend a0 a1 a2 a3 a4) := by
  unfold cswSend
  dsimp only
  exact OnlyTouches.upd hs rfl (.inr rfl) (.inr rfl) (.inr rfl) (.inr rfl) (.inr rfl) (.inr rfl) (.inr rfl) (.inr rfl) (.inl h_fab) (.inr rfl) (.inr rfl) (.inr rfl) (.inr rfl) (.inr rfl) (.inr rfl) (.inr rfl) (.inr rfl) (.inr rfl)

theorem cswSent_only {gs : List Group} {s : State} {a0 a1 a2 a3} (hs : OnlyTouches gs s a3) (h_fab : Group.fab ∈ gs) : OnlyTouches gs s (cswSent a0 a1 a2 a3) := by
  unfold cswSent
  split
  · exact hs
  · exact cswSend_only hs h_fab

theorem cswRelay_only {gs : List Group} {s : State} {a0 a1 a2 a3 a4 a5} (hs : OnlyTouches gs s a5) (h_out : Group.out ∈ gs) (h_fab : Group.fab ∈ gs) :
    OnlyTouches gs s (cswRelay a0 a1 a2 a3 a4 a5) := by
  unfold cswRelay
  iterate 40 all_goals (try first
    | with_reducible assumption
    | with_reducible refine cswSend_only ?_ h_fab
    | with_reducible refine State_emit_only ?_ h_out
    | split
    | dsimp only
    | with_reducible refine OnlyTouches.upd ?_ rfl (.inl h_out) (.inr rfl) (.inr rfl) (.inr rfl) (.inr rfl) (.inr rfl) (.inr rfl) (.inr rfl) (.inl h_fab) (.inr rfl) (.inr rfl) (.inr rfl) (.inr rfl) (.inr rfl) (.inr rfl) (.inr rfl) (.inr rfl) (.inr rfl)
    )

theorem cswTake_only {gs : List Group} {s : State} {a0 a1 a2} (hs : OnlyTouches gs s a2) (h_fab : Group.fab ∈ gs) :
    OnlyTouches gs s (cswTake a0 a1 a2) := by
  unfold cswTake
  iterate 40 all_goals (try first
    | with_reducible assumption
    | split
    | dsimp only
    | with_reducible refine OnlyTouches.upd ?_ rfl (.inr rfl) (.inr rfl) (.inr rfl) (.inr rfl) (.inr rfl) (.inr rfl) (.inr rfl) (.inr rfl) (.inl h_fab) (.inr rfl) (.inr rfl) (.inr rfl) (.inr rfl) (.inr rfl) (.inr rfl) (.inr rfl) (.inr rfl) (.inr rfl)
    )

theorem cswUnitIn_only {gs : List Group} {s : State} {a0 a1 a2 a3 a4 a5 a6} (hs : OnlyTouches gs s a6) (h_out : Group.out ∈ gs) (h_fab : Group.fab ∈ gs) :
    OnlyTouches gs s (cswUnitIn a0 a1 a2 a3 a4 a5 a6) := by
  unfold cswUnitIn
  iterate 40 all_goals (try first
    | with_reducible assumption
    | with_reducible refine cswSent_only ?_ h_fab
    | with_reducible refine cswRelay_only ?_ h_out h_fab
    | with_reducible refine State_emit_only ?_ h_out
    | with_reducible refine cswTake_only ?_ h_fab
    | split
    | dsimp only
    | with_reducible refine OnlyTouches.upd ?_ rfl (.inl h_out) (.inr rfl) (.inr rfl) (.inr rfl) (.inr rfl) (.inr rfl) (.inr rfl) (.inr rfl) (.inl h_fab) (.inr rfl) (.inr rfl) (.inr rfl) (.inr rfl) (.inr rfl) (.inr rfl) (.inr rfl) (.inr rfl) (.inr rfl)
    )

theorem finishWait_only {gs : List Group} {s : State} {a0 a1 a2 a3} (hs : OnlyTouches gs s a3) (h_out : Group.out ∈ gs) (h_free : Group.free ∈ gs) (h_parts : Group.parts ∈ gs) (h_mem : Group.mem ∈ gs) (h_ras : Group.ras ∈ gs) (h_dict : Group.dict ∈ gs) :
    OnlyTouches gs s (finishWait a0 a1 a2 a3) := by
  unfold finishWait
  iterate 40 all_goals (try first
    | with_reducible assumption
    | with_reducible refine State_putVM_only ?_ h_out h_free h_parts h_mem h_ras h_dict
    | with_reducible refine State_emit_only ?_ h_out
    | split
    | dsimp only
    | with_reducible refine OnlyTouches.upd ?_ rfl (.inl h_out) (.inl h_free) (.inr rfl) (.inr rfl) (.inl h_parts) (.inr rfl) (.inr rfl) (.inl h_mem) (.inr rfl) (.inr rfl) (.inr rfl) (.inr rfl) (.inl h_ras) (.inr rfl) (.inl h_dict) (.inr rfl) (.inr rfl) (.inr rfl)
    )

theorem dataWait_only {gs : List Group} {s : State} {a0 a1 a2} (hs : OnlyTouches gs s a2) (h_out : Group.out ∈ gs) (h_free : Group.free ∈ gs) (h_parts : Group.parts ∈ gs) (h_mem : Group.mem ∈ gs) (h_ras : Group.ras ∈ gs) (h_dict : Group.dict ∈ gs) :
    OnlyTouches gs s (dataWait a0 a1 a2) := by
  unfold dataWait
  iterate 40 all_goals (try first
    | with_reducible assumption
    | with_reducible refine finishWait_only ?_ h_out h_free h_parts h_mem h_ras h_dict
    | with_reducible refine State_putVM_only ?_ h_out h_free h_parts h_mem h_ras h_dict
    | split
    | dsimp only
    )

theorem deadlineFalls_only {gs : List Group} {s : State} {a0 a1 a2 a3} (hs : OnlyTouches gs s a3) (h_out : Group.out ∈ gs) (h_free : Group.free ∈ gs) (h_parts : Group.parts ∈ gs) (h_mem : Group.mem ∈ gs) (h_fab : Group.fab ∈ gs) (h_bind : Group.bind ∈ gs) (h_ras : Group.ras ∈ gs) (h_dict : Group.dict ∈ gs) :
    OnlyTouches gs s (deadlineFalls a0 a1 a2 a3) := by
  unfold deadlineFalls
  iterate 40 all_goals (try first
    | with_reducible assumption
    | with_reducible refine startRecovery_only ?_ h_out h_free h_parts h_mem h_fab h_bind h_ras h_dict
    | with_reducible refine closeStep_only ?_ h_out h_free h_parts h_mem h_fab h_bind h_ras h_dict
    | split
    )

theorem replaceRows_only {gs : List Group} {s : State} {a0 a1 a2 a3} (hs : OnlyTouches gs s a3) (h_bind : Group.bind ∈ gs) :
    OnlyTouches gs s (replaceRows a0 a1 a2 a3) := by
  unfold replaceRows
  iterate 40 all_goals (try first
    | with_reducible assumption
    | split
    | dsimp only
    | with_reducible refine OnlyTouches.upd ?_ rfl (.inr rfl) (.inr rfl) (.inr rfl) (.inr rfl) (.inr rfl) (.inr rfl) (.inr rfl) (.inr rfl) (.inr rfl) (.inr rfl) (.inl h_bind) (.inr rfl) (.inr rfl) (.inr rfl) (.inr rfl) (.inr rfl) (.inr rfl) (.inr rfl)
    )

theorem quantWrite_only {gs : List Group} {s : State} {a0 a1 a2 a3 a4 a5} (hs : OnlyTouches gs s a5) (h_out : Group.out ∈ gs) (h_free : Group.free ∈ gs) (h_parts : Group.parts ∈ gs) (h_rings : Group.rings ∈ gs) (h_mem : Group.mem ∈ gs) (h_fab : Group.fab ∈ gs) (h_ras : Group.ras ∈ gs) (h_dict : Group.dict ∈ gs) :
    OnlyTouches gs s (quantWrite a0 a1 a2 a3 a4 a5) := by
  unfold quantWrite
  iterate 40 all_goals (try first
    | with_reducible assumption
    | with_reducible refine State_updPart_only ?_ h_parts
    | with_reducible refine updEntry_only ?_ h_rings
    | with_reducible refine State_putWrites_only ?_ h_out h_free h_parts h_mem h_fab h_ras h_dict
    | with_reducible refine foldl_only (fun u x hu => ?_) ?_
    | with_reducible refine foldl_fst_only (fun u x hu => ?_) ?_
    | split
    | dsimp only
    | with_reducible refine OnlyTouches.upd ?_ rfl (.inl h_out) (.inl h_free) (.inr rfl) (.inr rfl) (.inl h_parts) (.inl h_rings) (.inr rfl) (.inl h_mem) (.inl h_fab) (.inr rfl) (.inr rfl) (.inr rfl) (.inl h_ras) (.inr rfl) (.inl h_dict) (.inr rfl) (.inr rfl) (.inr rfl)
    )

theorem rewriteRows_only {gs : List Group} {s : State} {a0 a1 a2 a3 a4 a5} (hs : OnlyTouches gs s a5) (h_out : Group.out ∈ gs) (h_free : Group.free ∈ gs) (h_parts : Group.parts ∈ gs) (h_rings : Group.rings ∈ gs) (h_mem : Group.mem ∈ gs) (h_fab : Group.fab ∈ gs) (h_ras : Group.ras ∈ gs) (h_dict : Group.dict ∈ gs) :
    OnlyTouches gs s (rewriteRows a0 a1 a2 a3 a4 a5) := by
  unfold rewriteRows
  iterate 40 all_goals (try first
    | with_reducible assumption
    | with_reducible refine quantWrite_only ?_ h_out h_free h_parts h_rings h_mem h_fab h_ras h_dict
    | split
    )

theorem rerunPass_only {gs : List Group} {s : State} {a0 a1 a2} (hs : OnlyTouches gs s a2) (h_out : Group.out ∈ gs) (h_free : Group.free ∈ gs) (h_parts : Group.parts ∈ gs) (h_rings : Group.rings ∈ gs) (h_arrays : Group.arrays ∈ gs) (h_mem : Group.mem ∈ gs) (h_fab : Group.fab ∈ gs) (h_bind : Group.bind ∈ gs) (h_ras : Group.ras ∈ gs) (h_dict : Group.dict ∈ gs) :
    OnlyTouches gs s (rerunPass a0 a1 a2) := by
  unfold rerunPass
  iterate 40 all_goals (try first
    | with_reducible assumption
    | with_reducible refine replaceRows_only ?_ h_bind
    | with_reducible refine rewriteRows_only ?_ h_out h_free h_parts h_rings h_mem h_fab h_ras h_dict
    | with_reducible refine State_updArray_only ?_ h_arrays
    | split
    )

theorem poisonPass_only {gs : List Group} {s : State} {a0 a1 a2} (hs : OnlyTouches gs s a2) (h_out : Group.out ∈ gs) (h_free : Group.free ∈ gs) (h_parts : Group.parts ∈ gs) (h_rings : Group.rings ∈ gs) (h_arrays : Group.arrays ∈ gs) (h_mem : Group.mem ∈ gs) (h_fab : Group.fab ∈ gs) (h_bind : Group.bind ∈ gs) (h_ras : Group.ras ∈ gs) (h_dict : Group.dict ∈ gs) :
    OnlyTouches gs s (poisonPass a0 a1 a2) := by
  unfold poisonPass
  iterate 40 all_goals (try first
    | with_reducible assumption
    | with_reducible refine replaceRows_only ?_ h_bind
    | with_reducible refine rewriteRows_only ?_ h_out h_free h_parts h_rings h_mem h_fab h_ras h_dict
    | with_reducible refine State_updArray_only ?_ h_arrays
    | with_reducible refine foldl_only (fun u x hu => ?_) ?_
    | with_reducible refine foldl_fst_only (fun u x hu => ?_) ?_
    | split
    )

theorem decideDispute_only {gs : List Group} {s : State} {a0 a1 a2 a3 a4 a5 a6} (hs : OnlyTouches gs s a6) (h_out : Group.out ∈ gs) (h_free : Group.free ∈ gs) (h_parts : Group.parts ∈ gs) (h_rings : Group.rings ∈ gs) (h_arrays : Group.arrays ∈ gs) (h_mem : Group.mem ∈ gs) (h_fab : Group.fab ∈ gs) (h_bind : Group.bind ∈ gs) (h_ras : Group.ras ∈ gs) (h_dict : Group.dict ∈ gs) :
    OnlyTouches gs s (decideDispute a0 a1 a2 a3 a4 a5 a6) := by
  unfold decideDispute
  iterate 40 all_goals (try first
    | with_reducible assumption
    | with_reducible refine State_updPart_only ?_ h_parts
    | with_reducible refine auditDispute_only ?_ h_out h_free h_parts h_mem h_ras h_dict
    | with_reducible refine updEntry_only ?_ h_rings
    | with_reducible refine rerunPass_only ?_ h_out h_free h_parts h_rings h_arrays h_mem h_fab h_bind h_ras h_dict
    | with_reducible refine addConds_only ?_ h_rings
    | with_reducible refine State_updArray_only ?_ h_arrays
    | with_reducible refine poisonPass_only ?_ h_out h_free h_parts h_rings h_arrays h_mem h_fab h_bind h_ras h_dict
    | with_reducible refine openGate_only ?_ h_rings h_arrays
    | with_reducible refine countRerun_only ?_ h_parts
    | with_reducible refine foldl_only (fun u x hu => ?_) ?_
    | with_reducible refine foldl_fst_only (fun u x hu => ?_) ?_
    | split
    | dsimp only
    | with_reducible refine OnlyTouches.upd ?_ rfl (.inl h_out) (.inl h_free) (.inr rfl) (.inr rfl) (.inl h_parts) (.inl h_rings) (.inl h_arrays) (.inl h_mem) (.inl h_fab) (.inr rfl) (.inl h_bind) (.inr rfl) (.inl h_ras) (.inr rfl) (.inl h_dict) (.inr rfl) (.inr rfl) (.inr rfl)
    )

theorem openFailed_only {gs : List Group} {s : State} {a0} (hs : OnlyTouches gs s a0) (h_dict : Group.dict ∈ gs) :
    OnlyTouches gs s (openFailed a0) := by
  unfold openFailed
  iterate 40 all_goals (try first
    | with_reducible assumption
    | split
    | dsimp only
    | with_reducible refine OnlyTouches.upd ?_ rfl (.inr rfl) (.inr rfl) (.inr rfl) (.inr rfl) (.inr rfl) (.inr rfl) (.inr rfl) (.inr rfl) (.inr rfl) (.inr rfl) (.inr rfl) (.inr rfl) (.inr rfl) (.inr rfl) (.inl h_dict) (.inr rfl) (.inr rfl) (.inr rfl)
    )

theorem sessSlot_only {gs : List Group} {s : State} {a0 a1 a2 a3} (hs : OnlyTouches gs s a3) (h_free : Group.free ∈ gs) (h_keys : Group.keys ∈ gs) :
    OnlyTouches gs s (sessSlot a0 a1 a2 a3).1 := by
  unfold sessSlot
  iterate 40 all_goals (try first
    | with_reducible assumption
    | with_reducible refine addKey_only (by assumption) ?_ h_free h_keys
    | split
    )

theorem startSession_only {gs : List Group} {s : State} {a0 a1 a2 a3 a4 a5} (hs : OnlyTouches gs s a5) (h_free : Group.free ∈ gs) (h_keys : Group.keys ∈ gs) (h_dict : Group.dict ∈ gs) :
    OnlyTouches gs s (startSession a0 a1 a2 a3 a4 a5) := by
  unfold startSession
  iterate 40 all_goals (try first
    | with_reducible assumption
    | with_reducible refine sessSlot_only ?_ h_free h_keys
    | with_reducible refine fst_only (by assumption) ?_
    | split
    | dsimp only
    | with_reducible refine OnlyTouches.upd ?_ rfl (.inr rfl) (.inl h_free) (.inr rfl) (.inr rfl) (.inr rfl) (.inr rfl) (.inr rfl) (.inr rfl) (.inr rfl) (.inl h_keys) (.inr rfl) (.inr rfl) (.inr rfl) (.inr rfl) (.inl h_dict) (.inr rfl) (.inr rfl) (.inr rfl)
    )

theorem decideOpen_only {gs : List Group} {s : State} {a0 a1 a2 a3} (hs : OnlyTouches gs s a3) (h_free : Group.free ∈ gs) (h_keys : Group.keys ∈ gs) (h_dict : Group.dict ∈ gs) :
    OnlyTouches gs s (decideOpen a0 a1 a2 a3).1 := by
  unfold decideOpen
  iterate 40 all_goals (try first
    | with_reducible assumption
    | with_reducible refine openFailed_only ?_ h_dict
    | with_reducible refine startSession_only ?_ h_free h_keys h_dict
    | split
    | dsimp only
    | with_reducible refine OnlyTouches.upd ?_ rfl (.inr rfl) (.inl h_free) (.inr rfl) (.inr rfl) (.inr rfl) (.inr rfl) (.inr rfl) (.inr rfl) (.inr rfl) (.inl h_keys) (.inr rfl) (.inr rfl) (.inr rfl) (.inr rfl) (.inl h_dict) (.inr rfl) (.inr rfl) (.inr rfl)
    )

theorem declare_only {gs : List Group} {s : State} {a0 a1 a2 a3} (hs : OnlyTouches gs s a3) (h_out : Group.out ∈ gs) (h_fab : Group.fab ∈ gs) (h_bind : Group.bind ∈ gs) :
    OnlyTouches gs s (declare a0 a1 a2 a3) := by
  unfold declare
  iterate 40 all_goals (try first
    | with_reducible assumption
    | with_reducible refine updElastic_only ?_ h_bind
    | with_reducible refine sendRoster_only ?_ h_out h_fab
    | with_reducible refine foldl_only (fun u x hu => ?_) ?_
    | with_reducible refine foldl_fst_only (fun u x hu => ?_) ?_
    | split
    | dsimp only
    )

theorem flushHost_only {gs : List Group} {s : State} {a0} (hs : OnlyTouches gs s a0) (h_out : Group.out ∈ gs) (h_fab : Group.fab ∈ gs) :
    OnlyTouches gs s (flushHost a0) := by
  unfold flushHost
  iterate 40 all_goals (try first
    | with_reducible assumption
    | with_reducible refine State_emit_only ?_ h_out
    | split
    | dsimp only
    | with_reducible refine OnlyTouches.upd ?_ rfl (.inl h_out) (.inr rfl) (.inr rfl) (.inr rfl) (.inr rfl) (.inr rfl) (.inr rfl) (.inr rfl) (.inl h_fab) (.inr rfl) (.inr rfl) (.inr rfl) (.inr rfl) (.inr rfl) (.inr rfl) (.inr rfl) (.inr rfl) (.inr rfl)
    )

theorem dropRevoked_only {gs : List Group} {s : State} {a0 a1} (hs : OnlyTouches gs s a1) (h_parts : Group.parts ∈ gs) (h_fab : Group.fab ∈ gs) :
    OnlyTouches gs s (dropRevoked a0 a1) := by
  unfold dropRevoked
  iterate 40 all_goals (try first
    | with_reducible assumption
    | with_reducible refine State_updPart_only ?_ h_parts
    | split
    | dsimp only
    | with_reducible refine OnlyTouches.upd ?_ rfl (.inr rfl) (.inr rfl) (.inr rfl) (.inr rfl) (.inl h_parts) (.inr rfl) (.inr rfl) (.inr rfl) (.inl h_fab) (.inr rfl) (.inr rfl) (.inr rfl) (.inr rfl) (.inr rfl) (.inr rfl) (.inr rfl) (.inr rfl) (.inr rfl)
    )

theorem sendAck_only {gs : List Group} {s : State} {a0 a1 a2} (hs : OnlyTouches gs s a2) (h_out : Group.out ∈ gs) (h_fab : Group.fab ∈ gs) :
    OnlyTouches gs s (sendAck a0 a1 a2) := by
  unfold sendAck
  iterate 40 all_goals (try first
    | with_reducible assumption
    | with_reducible refine State_emit_only ?_ h_out
    | with_reducible refine sendFlit_only ?_ h_fab
    | split
    )

theorem tagFailed_only {gs : List Group} {s : State} {a0 a1 a2} (hs : OnlyTouches gs s a2) (h_fab : Group.fab ∈ gs) :
    OnlyTouches gs s (tagFailed a0 a1 a2) := by
  unfold tagFailed
  iterate 40 all_goals (try first
    | with_reducible assumption
    | with_reducible refine setFlow_only ?_ h_fab
    | split
    | dsimp only
    | with_reducible refine OnlyTouches.upd ?_ rfl (.inr rfl) (.inr rfl) (.inr rfl) (.inr rfl) (.inr rfl) (.inr rfl) (.inr rfl) (.inr rfl) (.inl h_fab) (.inr rfl) (.inr rfl) (.inr rfl) (.inr rfl) (.inr rfl) (.inr rfl) (.inr rfl) (.inr rfl) (.inr rfl)
    )

theorem deliverPkt_only {gs : List Group} {s b : State} {p c o} {f : State → State} (hf : ∀ u, OnlyTouches gs s u → OnlyTouches gs s (f u)) (hs : OnlyTouches gs s b) (h_out : Group.out ∈ gs) (h_parts : Group.parts ∈ gs) (h_fab : Group.fab ∈ gs) :
    OnlyTouches gs s (deliverPkt p c o f b) := by
  unfold deliverPkt
  have h : ∀ x, OnlyTouches gs s { b with fab := x } := fun x => OnlyTouches.upd hs rfl (.inl h_out) (.inr rfl) (.inr rfl) (.inr rfl) (.inl h_parts) (.inr rfl) (.inr rfl) (.inr rfl) (.inl h_fab) (.inr rfl) (.inr rfl) (.inr rfl) (.inr rfl) (.inr rfl) (.inr rfl) (.inr rfl) (.inr rfl) (.inr rfl)
  have k : ∀ n y, OnlyTouches gs s (flushHost (setFlow n y b)) := fun n y => flushHost_only (setFlow_only hs h_fab) h_out h_fab
  split
  · exact h _
  · split
    · exact dropRevoked_only hs h_parts h_fab
    · split
      · exact h _
      · split
        · exact tagFailed_only hs h_fab
        · dsimp only
          split
          · exact sendAck_only (hf _ (k _ _)) h_out h_fab
          · split
            · exact sendAck_only (k _ _) h_out h_fab
            · exact k _ _

theorem queueRequest_only {gs : List Group} {s : State} {a0 a1 a2 a3} (hs : OnlyTouches gs s a3) (h_bind : Group.bind ∈ gs) :
    OnlyTouches gs s (queueRequest a0 a1 a2 a3) := by
  unfold queueRequest
  iterate 40 all_goals (try first
    | with_reducible assumption
    | with_reducible refine updElastic_only ?_ h_bind
    )

theorem departIn_only {gs : List Group} {s : State} {a0 a1 a2} (hs : OnlyTouches gs s a2) (h_bind : Group.bind ∈ gs) :
    OnlyTouches gs s (departIn a0 a1 a2) := by
  unfold departIn
  iterate 40 all_goals (try first
    | with_reducible assumption
    | with_reducible refine queueRequest_only ?_ h_bind
    | split
    )

theorem departOverdue_only {gs : List Group} {s : State} {a0 a1 a2} (hs : OnlyTouches gs s a2) (h_bind : Group.bind ∈ gs) :
    OnlyTouches gs s (departOverdue a0 a1 a2) := by
  unfold departOverdue
  iterate 40 all_goals (try first
    | with_reducible assumption
    | with_reducible refine updElastic_only ?_ h_bind
    )

theorem deputySteps_only {gs : List Group} {s : State} {a0 a1} (hs : OnlyTouches gs s a1) (h_bind : Group.bind ∈ gs) :
    OnlyTouches gs s (deputySteps a0 a1) := by
  unfold deputySteps
  iterate 40 all_goals (try first
    | with_reducible assumption
    | with_reducible refine updElastic_only ?_ h_bind
    | split
    )

theorem takeSegment_only {gs : List Group} {s : State} {a0 a1 a2 a3 a4} (hs : OnlyTouches gs s a4) (h_dict : Group.dict ∈ gs) :
    OnlyTouches gs s (takeSegment a0 a1 a2 a3 a4).1 := by
  unfold takeSegment
  iterate 40 all_goals (try first
    | with_reducible assumption
    | with_reducible refine updSess_only ?_ h_dict
    | split
    | dsimp only
    )

theorem doOpen3_only {gs : List Group} {s : State} {a0 a1} (hs : OnlyTouches gs s a1) (h_free : Group.free ∈ gs) (h_keys : Group.keys ∈ gs) (h_dict : Group.dict ∈ gs) :
    OnlyTouches gs s (doOpen3 a0 a1).1 := by
  unfold doOpen3
  iterate 40 all_goals (try first
    | with_reducible assumption
    | with_reducible refine openFailed_only ?_ h_dict
    | with_reducible refine decideOpen_only ?_ h_free h_keys h_dict
    | with_reducible refine takeSegment_only ?_ h_dict
    | with_reducible refine fst_only (by assumption) ?_
    | split
    )

theorem hold_only {gs : List Group} {s : State} {a0 a1 a2 a3} (hs : OnlyTouches gs s a3) (h_dict : Group.dict ∈ gs) :
    OnlyTouches gs s (hold a0 a1 a2 a3) := by
  unfold hold
  iterate 40 all_goals (try first
    | with_reducible assumption
    | with_reducible refine updSess_only ?_ h_dict
    )

theorem readFrom_only {gs : List Group} {s : State} {a0 a1 a2 a3 a4} (hs : OnlyTouches gs s a4) (h_dict : Group.dict ∈ gs) :
    OnlyTouches gs s (readFrom a0 a1 a2 a3 a4).1 := by
  unfold readFrom
  iterate 40 all_goals (try first
    | with_reducible assumption
    | with_reducible refine hold_only ?_ h_dict
    | split
    )

theorem doRead_only {gs : List Group} {s : State} {a0 a1} (hs : OnlyTouches gs s a1) (h_dict : Group.dict ∈ gs) :
    OnlyTouches gs s (doRead a0 a1).1 := by
  unfold doRead
  iterate 40 all_goals (try first
    | with_reducible assumption
    | with_reducible refine readFrom_only ?_ h_dict
    )

theorem offerSession_only {gs : List Group} {s : State} {a0 a1 a2 a3 a4} (hs : OnlyTouches gs s a4) (h_out : Group.out ∈ gs) (h_free : Group.free ∈ gs) (h_dict : Group.dict ∈ gs) :
    OnlyTouches gs s (offerSession a0 a1 a2 a3 a4) := by
  unfold offerSession
  iterate 40 all_goals (try first
    | with_reducible assumption
    | with_reducible refine State_emit_only ?_ h_out
    | with_reducible refine sbFrame_only ?_ h_dict
    | with_reducible refine State_entropy_only ?_ h_free
    | with_reducible refine snd_only (by assumption) ?_
    | split
    | dsimp only
    | with_reducible refine OnlyTouches.upd ?_ rfl (.inl h_out) (.inl h_free) (.inr rfl) (.inr rfl) (.inr rfl) (.inr rfl) (.inr rfl) (.inr rfl) (.inr rfl) (.inr rfl) (.inr rfl) (.inr rfl) (.inr rfl) (.inr rfl) (.inl h_dict) (.inr rfl) (.inr rfl) (.inr rfl)
    )

theorem doOpen1_only {gs : List Group} {s : State} {a0 a1} (hs : OnlyTouches gs s a1) (h_out : Group.out ∈ gs) (h_free : Group.free ∈ gs) (h_dict : Group.dict ∈ gs) :
    OnlyTouches gs s (doOpen1 a0 a1).1 := by
  unfold doOpen1
  iterate 40 all_goals (try first
    | with_reducible assumption
    | with_reducible refine openFailed_only ?_ h_dict
    | with_reducible refine takeSegment_only ?_ h_dict
    | with_reducible refine offerSession_only ?_ h_out h_free h_dict
    | with_reducible refine fst_only (by assumption) ?_
    | split
    | dsimp only
    )

theorem flashed_only {gs : List Group} {s a : State} {q b r} (hs : OnlyTouches gs s a) (hr : OnlyTouches gs s r.1)  :
    OnlyTouches gs s (flashed q b a r).1 := by
  unfold flashed
  split
  · exact hs
  · exact hr

theorem writeObject_only {gs : List Group} {s : State} {a0 a1 a2 a3 a4} (hs : OnlyTouches gs s a4) (h_out : Group.out ∈ gs) (h_free : Group.free ∈ gs) (h_tick : Group.tick ∈ gs) (h_gov : Group.gov ∈ gs) (h_parts : Group.parts ∈ gs) (h_rings : Group.rings ∈ gs) (h_arrays : Group.arrays ∈ gs) (h_mem : Group.mem ∈ gs) (h_fab : Group.fab ∈ gs) (h_keys : Group.keys ∈ gs) (h_bind : Group.bind ∈ gs) (h_life : Group.life ∈ gs) (h_ras : Group.ras ∈ gs) (h_lh : Group.lh ∈ gs) (h_dict : Group.dict ∈ gs) (h_side : Group.side ∈ gs) (h_pow : Group.pow ∈ gs) (h_fw : Group.fw ∈ gs) :
    OnlyTouches gs s (writeObject a0 a1 a2 a3 a4).1 := by
  unfold writeObject
  iterate 40 all_goals (try first
    | with_reducible assumption
    | with_reducible refine applyWrite_only ?_ h_out h_free h_tick h_gov h_parts h_rings h_arrays h_mem h_fab h_keys h_bind h_life h_ras h_lh h_dict h_side h_pow h_fw
    | with_reducible refine flashed_only ?_ ?_
    | with_reducible refine fst_only (by assumption) ?_
    | split
    )

theorem doWrite_only {gs : List Group} {s : State} {a0 a1} (hs : OnlyTouches gs s a1) (h_out : Group.out ∈ gs) (h_free : Group.free ∈ gs) (h_tick : Group.tick ∈ gs) (h_gov : Group.gov ∈ gs) (h_parts : Group.parts ∈ gs) (h_rings : Group.rings ∈ gs) (h_arrays : Group.arrays ∈ gs) (h_mem : Group.mem ∈ gs) (h_fab : Group.fab ∈ gs) (h_keys : Group.keys ∈ gs) (h_bind : Group.bind ∈ gs) (h_life : Group.life ∈ gs) (h_ras : Group.ras ∈ gs) (h_lh : Group.lh ∈ gs) (h_dict : Group.dict ∈ gs) (h_side : Group.side ∈ gs) (h_pow : Group.pow ∈ gs) (h_fw : Group.fw ∈ gs) :
    OnlyTouches gs s (doWrite a0 a1).1 := by
  unfold doWrite
  iterate 40 all_goals (try first
    | with_reducible assumption
    | with_reducible refine writeObject_only ?_ h_out h_free h_tick h_gov h_parts h_rings h_arrays h_mem h_fab h_keys h_bind h_life h_ras h_lh h_dict h_side h_pow h_fw
    | with_reducible refine takeSegment_only ?_ h_dict
    | with_reducible refine fst_only (by assumption) ?_
    | split
    )

theorem doReadBlock_only {gs : List Group} {s : State} {a0 a1} (hs : OnlyTouches gs s a1) (h_dict : Group.dict ∈ gs) :
    OnlyTouches gs s (doReadBlock a0 a1).1 := by
  unfold doReadBlock
  iterate 40 all_goals (try first
    | with_reducible assumption
    | with_reducible refine readFrom_only ?_ h_dict
    )

theorem dictMessage_only {gs : List Group} {s : State} {a0 a1 a2} (hs : OnlyTouches gs s a2) (h_out : Group.out ∈ gs) (h_free : Group.free ∈ gs) (h_tick : Group.tick ∈ gs) (h_gov : Group.gov ∈ gs) (h_parts : Group.parts ∈ gs) (h_rings : Group.rings ∈ gs) (h_arrays : Group.arrays ∈ gs) (h_mem : Group.mem ∈ gs) (h_fab : Group.fab ∈ gs) (h_keys : Group.keys ∈ gs) (h_bind : Group.bind ∈ gs) (h_life : Group.life ∈ gs) (h_ras : Group.ras ∈ gs) (h_lh : Group.lh ∈ gs) (h_dict : Group.dict ∈ gs) (h_side : Group.side ∈ gs) (h_pow : Group.pow ∈ gs) (h_fw : Group.fw ∈ gs) :
    OnlyTouches gs s (dictMessage a0 a1 a2) := by
  unfold dictMessage
  iterate 40 all_goals (try first
    | with_reducible assumption
    | with_reducible refine dropMsg_only ?_ h_dict
    | with_reducible refine closeMsg_only ?_ h_out h_keys h_dict
    | with_reducible refine doOpen3_only ?_ h_free h_keys h_dict
    | with_reducible refine message_only (fun u hu => ?_) ?_ h_out h_dict
    | with_reducible refine doRead_only ?_ h_dict
    | with_reducible refine doOpen1_only ?_ h_out h_free h_dict
    | with_reducible refine doWrite_only ?_ h_out h_free h_tick h_gov h_parts h_rings h_arrays h_mem h_fab h_keys h_bind h_life h_ras h_lh h_dict h_side h_pow h_fw
    | with_reducible refine doReadBlock_only ?_ h_dict
    | with_reducible refine fst_only (by assumption) ?_
    | split
    )

theorem digestIn_only {gs : List Group} {s : State} {a0 a1 a2} (hs : OnlyTouches gs s a2) (h_out : Group.out ∈ gs) (h_free : Group.free ∈ gs) (h_parts : Group.parts ∈ gs) (h_mem : Group.mem ∈ gs) (h_fab : Group.fab ∈ gs) (h_bind : Group.bind ∈ gs) (h_ras : Group.ras ∈ gs) (h_dict : Group.dict ∈ gs) :
    OnlyTouches gs s (digestIn a0 a1 a2) := by
  unfold digestIn
  iterate 40 all_goals (try first
    | with_reducible assumption
    | with_reducible refine updSession_only ?_ h_bind
    | with_reducible refine tryRun_only ?_ h_out h_free h_parts h_mem h_fab h_bind h_ras h_dict
    )

theorem nodeFrames_only {gs : List Group} {s : State} {a0 a1 a2} (hs : OnlyTouches gs s a2) (h_dict : Group.dict ∈ gs) :
    OnlyTouches gs s (nodeFrames a0 a1 a2) := by
  unfold nodeFrames
  iterate 40 all_goals (try first
    | with_reducible assumption
    | split
    | dsimp only
    | with_reducible refine OnlyTouches.upd ?_ rfl (.inr rfl) (.inr rfl) (.inr rfl) (.inr rfl) (.inr rfl) (.inr rfl) (.inr rfl) (.inr rfl) (.inr rfl) (.inr rfl) (.inr rfl) (.inr rfl) (.inr rfl) (.inr rfl) (.inl h_dict) (.inr rfl) (.inr rfl) (.inr rfl)
    )

theorem discover_only {gs : List Group} {s : State} {a0 a1 a2 a3 a4} (hs : OnlyTouches gs s a4) (h_out : Group.out ∈ gs) (h_dict : Group.dict ∈ gs) (h_side : Group.side ∈ gs) :
    OnlyTouches gs s (discover a0 a1 a2 a3 a4) := by
  unfold discover
  iterate 40 all_goals (try first
    | with_reducible assumption
    | with_reducible refine nodeFrames_only ?_ h_dict
    | with_reducible refine State_emit_only ?_ h_out
    | split
    | dsimp only
    | with_reducible refine OnlyTouches.upd ?_ rfl (.inl h_out) (.inr rfl) (.inr rfl) (.inr rfl) (.inr rfl) (.inr rfl) (.inr rfl) (.inr rfl) (.inr rfl) (.inr rfl) (.inr rfl) (.inr rfl) (.inr rfl) (.inr rfl) (.inl h_dict) (.inl h_side) (.inr rfl) (.inr rfl)
    )

theorem shutDownEnds_only {gs : List Group} {s : State} {a0} (hs : OnlyTouches gs s a0) (h_free : Group.free ∈ gs) (h_tick : Group.tick ∈ gs) (h_gov : Group.gov ∈ gs) (h_parts : Group.parts ∈ gs) (h_rings : Group.rings ∈ gs) (h_arrays : Group.arrays ∈ gs) (h_mem : Group.mem ∈ gs) (h_fab : Group.fab ∈ gs) (h_keys : Group.keys ∈ gs) (h_bind : Group.bind ∈ gs) (h_ras : Group.ras ∈ gs) (h_dict : Group.dict ∈ gs) (h_pow : Group.pow ∈ gs) :
    OnlyTouches gs s (shutDownEnds a0) := by
  unfold shutDownEnds
  iterate 40 all_goals (try first
    | with_reducible assumption
    | with_reducible refine beginStandby_only ?_ h_tick h_gov h_parts h_rings h_arrays h_mem h_fab h_keys h_bind h_ras h_dict h_pow
    | with_reducible refine startFromDoze_only ?_ h_pow
    | with_reducible refine startFromStandby_only ?_ h_free h_mem h_keys h_pow
    | with_reducible refine requestStandby_only ?_ h_tick h_gov h_parts h_rings h_arrays h_mem h_fab h_keys h_bind h_ras h_dict h_pow
    | with_reducible refine fst_only (by assumption) ?_
    | split
    | dsimp only
    | with_reducible refine OnlyTouches.upd ?_ rfl (.inr rfl) (.inl h_free) (.inl h_tick) (.inl h_gov) (.inl h_parts) (.inl h_rings) (.inl h_arrays) (.inl h_mem) (.inl h_fab) (.inl h_keys) (.inl h_bind) (.inr rfl) (.inl h_ras) (.inr rfl) (.inl h_dict) (.inr rfl) (.inl h_pow) (.inr rfl)
    )

theorem thermalCause_only {gs : List Group} {s : State} {a0} (hs : OnlyTouches gs s a0) (h_out : Group.out ∈ gs) (h_dict : Group.dict ∈ gs) :
    OnlyTouches gs s (thermalCause a0) := by
  unfold thermalCause
  iterate 40 all_goals (try first
    | with_reducible assumption
    | with_reducible refine sendEvent_only ?_ h_out h_dict
    | split
    | dsimp only
    | with_reducible refine OnlyTouches.upd ?_ rfl (.inl h_out) (.inr rfl) (.inr rfl) (.inr rfl) (.inr rfl) (.inr rfl) (.inr rfl) (.inr rfl) (.inr rfl) (.inr rfl) (.inr rfl) (.inr rfl) (.inr rfl) (.inr rfl) (.inl h_dict) (.inr rfl) (.inr rfl) (.inr rfl)
    )

theorem domainOff_only {gs : List Group} {s : State} {a0 a1} (hs : OnlyTouches gs s a1) (h_out : Group.out ∈ gs) (h_free : Group.free ∈ gs) (h_tick : Group.tick ∈ gs) (h_gov : Group.gov ∈ gs) (h_parts : Group.parts ∈ gs) (h_rings : Group.rings ∈ gs) (h_arrays : Group.arrays ∈ gs) (h_mem : Group.mem ∈ gs) (h_fab : Group.fab ∈ gs) (h_keys : Group.keys ∈ gs) (h_bind : Group.bind ∈ gs) (h_ras : Group.ras ∈ gs) (h_dict : Group.dict ∈ gs) (h_pow : Group.pow ∈ gs) :
    OnlyTouches gs s (domainOff a0 a1) := by
  unfold domainOff
  iterate 40 all_goals (try first
    | with_reducible assumption
    | with_reducible refine shutDownEnds_only ?_ h_free h_tick h_gov h_parts h_rings h_arrays h_mem h_fab h_keys h_bind h_ras h_dict h_pow
    | with_reducible refine thermalCause_only ?_ h_out h_dict
    | split
    | dsimp only
    | with_reducible refine OnlyTouches.upd ?_ rfl (.inl h_out) (.inl h_free) (.inl h_tick) (.inl h_gov) (.inl h_parts) (.inl h_rings) (.inl h_arrays) (.inl h_mem) (.inl h_fab) (.inl h_keys) (.inl h_bind) (.inr rfl) (.inl h_ras) (.inr rfl) (.inl h_dict) (.inr rfl) (.inl h_pow) (.inr rfl)
    )

theorem returned_only {gs : List Group} {s : State} {a0} (hs : OnlyTouches gs s a0) (h_tick : Group.tick ∈ gs) (h_gov : Group.gov ∈ gs) (h_parts : Group.parts ∈ gs) (h_rings : Group.rings ∈ gs) (h_arrays : Group.arrays ∈ gs) (h_mem : Group.mem ∈ gs) (h_fab : Group.fab ∈ gs) (h_keys : Group.keys ∈ gs) (h_bind : Group.bind ∈ gs) (h_ras : Group.ras ∈ gs) (h_dict : Group.dict ∈ gs) (h_pow : Group.pow ∈ gs) :
    OnlyTouches gs s (returned a0) := by
  unfold returned
  iterate 40 all_goals (try first
    | with_reducible assumption
    | with_reducible refine carryLatched_only ?_ h_tick h_gov h_parts h_rings h_arrays h_mem h_fab h_keys h_bind h_ras h_dict h_pow
    | with_reducible refine foldl_only (fun u x hu => ?_) ?_
    | with_reducible refine foldl_fst_only (fun u x hu => ?_) ?_
    | split
    | dsimp only
    | with_reducible refine OnlyTouches.upd ?_ rfl (.inr rfl) (.inr rfl) (.inl h_tick) (.inl h_gov) (.inl h_parts) (.inl h_rings) (.inl h_arrays) (.inl h_mem) (.inl h_fab) (.inl h_keys) (.inl h_bind) (.inr rfl) (.inl h_ras) (.inr rfl) (.inl h_dict) (.inr rfl) (.inl h_pow) (.inr rfl)
    )

theorem settle_only {gs : List Group} {s : State} {a0} (hs : OnlyTouches gs s a0) (h_tick : Group.tick ∈ gs) (h_gov : Group.gov ∈ gs) (h_parts : Group.parts ∈ gs) (h_rings : Group.rings ∈ gs) (h_arrays : Group.arrays ∈ gs) (h_mem : Group.mem ∈ gs) (h_fab : Group.fab ∈ gs) (h_keys : Group.keys ∈ gs) (h_bind : Group.bind ∈ gs) (h_ras : Group.ras ∈ gs) (h_dict : Group.dict ∈ gs) (h_pow : Group.pow ∈ gs) :
    OnlyTouches gs s (settle a0) := by
  unfold settle
  iterate 40 all_goals (try first
    | with_reducible assumption
    | with_reducible refine returned_only ?_ h_tick h_gov h_parts h_rings h_arrays h_mem h_fab h_keys h_bind h_ras h_dict h_pow
    | split
    )

theorem startDies_only {gs : List Group} {s : State} {a0} (hs : OnlyTouches gs s a0) (h_pow : Group.pow ∈ gs) :
    OnlyTouches gs s (startDies a0) := by
  unfold startDies
  iterate 40 all_goals (try first
    | with_reducible assumption
    | with_reducible refine startDomain_only ?_ h_pow
    | with_reducible refine foldl_only (fun u x hu => ?_) ?_
    )

theorem startFetch_only {gs : List Group} {s : State} {a0} (hs : OnlyTouches gs s a0) (h_out : Group.out ∈ gs) (h_free : Group.free ∈ gs) (h_fab : Group.fab ∈ gs) (h_dict : Group.dict ∈ gs) (h_fw : Group.fw ∈ gs) :
    OnlyTouches gs s (startFetch a0) := by
  unfold startFetch
  iterate 40 all_goals (try first
    | with_reducible assumption
    | with_reducible refine fetchOn_only ?_ h_out h_free h_fab h_dict h_fw
    )

theorem startStraits_only {gs : List Group} {s : State} {a0} (hs : OnlyTouches gs s a0) (h_fab : Group.fab ∈ gs) :
    OnlyTouches gs s (startStraits a0) := by
  unfold startStraits
  iterate 40 all_goals (try first
    | with_reducible assumption
    | with_reducible refine State_updStrait_only ?_ h_fab
    | with_reducible refine beginTraining_only ?_ h_fab
    | with_reducible refine foldl_only (fun u x hu => ?_) ?_
    | with_reducible refine foldl_fst_only (fun u x hu => ?_) ?_
    | split
    )

theorem hubReady_only {gs : List Group} {s : State} {a0} (hs : OnlyTouches gs s a0) (h_out : Group.out ∈ gs) (h_free : Group.free ∈ gs) (h_fab : Group.fab ∈ gs) (h_dict : Group.dict ∈ gs) (h_pow : Group.pow ∈ gs) (h_fw : Group.fw ∈ gs) :
    OnlyTouches gs s (hubReady a0) := by
  unfold hubReady
  iterate 40 all_goals (try first
    | with_reducible assumption
    | with_reducible refine startDies_only ?_ h_pow
    | with_reducible refine startFetch_only ?_ h_out h_free h_fab h_dict h_fw
    | with_reducible refine startStraits_only ?_ h_fab
    | split
    )

theorem domainUp_only {gs : List Group} {s : State} {a0 a1} (hs : OnlyTouches gs s a1) (h_out : Group.out ∈ gs) (h_free : Group.free ∈ gs) (h_tick : Group.tick ∈ gs) (h_gov : Group.gov ∈ gs) (h_parts : Group.parts ∈ gs) (h_rings : Group.rings ∈ gs) (h_arrays : Group.arrays ∈ gs) (h_mem : Group.mem ∈ gs) (h_fab : Group.fab ∈ gs) (h_keys : Group.keys ∈ gs) (h_bind : Group.bind ∈ gs) (h_ras : Group.ras ∈ gs) (h_dict : Group.dict ∈ gs) (h_pow : Group.pow ∈ gs) (h_fw : Group.fw ∈ gs) :
    OnlyTouches gs s (domainUp a0 a1) := by
  unfold domainUp
  iterate 40 all_goals (try first
    | with_reducible assumption
    | with_reducible refine settle_only ?_ h_tick h_gov h_parts h_rings h_arrays h_mem h_fab h_keys h_bind h_ras h_dict h_pow
    | with_reducible refine hubReady_only ?_ h_out h_free h_fab h_dict h_pow h_fw
    | split
    | dsimp only
    | with_reducible refine OnlyTouches.upd ?_ rfl (.inl h_out) (.inl h_free) (.inl h_tick) (.inl h_gov) (.inl h_parts) (.inl h_rings) (.inl h_arrays) (.inl h_mem) (.inl h_fab) (.inl h_keys) (.inl h_bind) (.inr rfl) (.inl h_ras) (.inr rfl) (.inl h_dict) (.inr rfl) (.inl h_pow) (.inl h_fw)
    )

theorem loseStack_only {gs : List Group} {s : State} {a0 a1} (hs : OnlyTouches gs s a1) (h_out : Group.out ∈ gs) (h_free : Group.free ∈ gs) (h_parts : Group.parts ∈ gs) (h_mem : Group.mem ∈ gs) (h_ras : Group.ras ∈ gs) (h_dict : Group.dict ∈ gs) :
    OnlyTouches gs s (loseStack a0 a1) := by
  unfold loseStack
  iterate 40 all_goals (try first
    | with_reducible assumption
    | with_reducible refine State_putVM_only ?_ h_out h_free h_parts h_mem h_ras h_dict
    )

theorem dozeEntry_only {gs : List Group} {s : State} {a0 a1} (hs : OnlyTouches gs s a1) (h_out : Group.out ∈ gs) (h_free : Group.free ∈ gs) (h_parts : Group.parts ∈ gs) (h_mem : Group.mem ∈ gs) (h_ras : Group.ras ∈ gs) (h_dict : Group.dict ∈ gs) (h_pow : Group.pow ∈ gs) :
    OnlyTouches gs s (dozeEntry a0 a1) := by
  unfold dozeEntry
  iterate 40 all_goals (try first
    | with_reducible assumption
    | with_reducible refine loseStack_only ?_ h_out h_free h_parts h_mem h_ras h_dict
    | with_reducible refine stopDomains_only ?_ h_pow
    | with_reducible refine foldl_only (fun u x hu => ?_) ?_
    | with_reducible refine foldl_fst_only (fun u x hu => ?_) ?_
    | split
    | dsimp only
    | with_reducible refine OnlyTouches.upd ?_ rfl (.inl h_out) (.inl h_free) (.inr rfl) (.inr rfl) (.inl h_parts) (.inr rfl) (.inr rfl) (.inl h_mem) (.inr rfl) (.inr rfl) (.inr rfl) (.inr rfl) (.inl h_ras) (.inr rfl) (.inl h_dict) (.inr rfl) (.inl h_pow) (.inr rfl)
    )

theorem fillFeeders_only {gs : List Group} {s : State} {a0 a1 a2 a3 a4} (hs : OnlyTouches gs s a4) (h_out : Group.out ∈ gs) (h_free : Group.free ∈ gs) (h_parts : Group.parts ∈ gs) (h_rings : Group.rings ∈ gs) (h_arrays : Group.arrays ∈ gs) (h_mem : Group.mem ∈ gs) (h_fab : Group.fab ∈ gs) (h_ras : Group.ras ∈ gs) (h_dict : Group.dict ∈ gs) :
    OnlyTouches gs s (fillFeeders a0 a1 a2 a3 a4) := by
  unfold fillFeeders
  iterate 40 all_goals (try first
    | with_reducible assumption
    | with_reducible refine State_updArray_only ?_ h_arrays
    | with_reducible refine advanceMovers_only ?_ h_out h_free h_parts h_rings h_arrays h_mem h_fab h_ras h_dict
    | with_reducible refine countRemote_only ?_ h_parts
    | split
    | dsimp only
    | with_reducible refine OnlyTouches.upd ?_ rfl (.inl h_out) (.inl h_free) (.inr rfl) (.inr rfl) (.inl h_parts) (.inl h_rings) (.inl h_arrays) (.inl h_mem) (.inl h_fab) (.inr rfl) (.inr rfl) (.inr rfl) (.inl h_ras) (.inr rfl) (.inl h_dict) (.inr rfl) (.inr rfl) (.inr rfl)
    )

theorem sawPoison_only {gs : List Group} {s : State} {a0 a1 a2 a3} (hs : OnlyTouches gs s a3) (h_rings : Group.rings ∈ gs) :
    OnlyTouches gs s (sawPoison a0 a1 a2 a3) := by
  unfold sawPoison
  iterate 40 all_goals (try first
    | with_reducible assumption
    | with_reducible refine addConds_only ?_ h_rings
    | split
    )

theorem pushRow_only {gs : List Group} {s : State} {a0 a1 a2 a3 a4 a5 a6 a7} (hs : OnlyTouches gs s a7) (h_parts : Group.parts ∈ gs) (h_rings : Group.rings ∈ gs) (h_arrays : Group.arrays ∈ gs) :
    OnlyTouches gs s (pushRow a0 a1 a2 a3 a4 a5 a6 a7) := by
  unfold pushRow
  iterate 40 all_goals (try first
    | with_reducible assumption
    | with_reducible refine updEntry_only ?_ h_rings
    | with_reducible refine State_updArray_only ?_ h_arrays
    | with_reducible refine sawPoison_only ?_ h_rings
    | with_reducible refine countRemote_only ?_ h_parts
    )

theorem drainOne_only {gs : List Group} {s : State} {a0 a1 a2 a3 a4 a5 a6} (hs : OnlyTouches gs s a6) (h_out : Group.out ∈ gs) (h_free : Group.free ∈ gs) (h_parts : Group.parts ∈ gs) (h_rings : Group.rings ∈ gs) (h_arrays : Group.arrays ∈ gs) (h_mem : Group.mem ∈ gs) (h_fab : Group.fab ∈ gs) (h_bind : Group.bind ∈ gs) (h_ras : Group.ras ∈ gs) (h_dict : Group.dict ∈ gs) :
    OnlyTouches gs s (drainOne a0 a1 a2 a3 a4 a5 a6) := by
  unfold drainOne
  iterate 40 all_goals (try first
    | with_reducible assumption
    | with_reducible refine bindRow_only ?_ h_bind
    | with_reducible refine updEntry_only ?_ h_rings
    | with_reducible refine fillFeeders_only ?_ h_out h_free h_parts h_rings h_arrays h_mem h_fab h_ras h_dict
    | with_reducible refine State_updArray_only ?_ h_arrays
    | with_reducible refine sawPoison_only ?_ h_rings
    | with_reducible refine advanceMovers_only ?_ h_out h_free h_parts h_rings h_arrays h_mem h_fab h_ras h_dict
    | with_reducible refine raiseDispute_only ?_ h_rings h_arrays
    | with_reducible refine countRemote_only ?_ h_parts
    | with_reducible refine pushRow_only ?_ h_parts h_rings h_arrays
    | split
    | dsimp only
    )

theorem dropEnable_only {gs : List Group} {s : State} {a0} (hs : OnlyTouches gs s a0) (h_tick : Group.tick ∈ gs) (h_gov : Group.gov ∈ gs) (h_parts : Group.parts ∈ gs) (h_rings : Group.rings ∈ gs) (h_arrays : Group.arrays ∈ gs) (h_mem : Group.mem ∈ gs) (h_fab : Group.fab ∈ gs) (h_keys : Group.keys ∈ gs) (h_bind : Group.bind ∈ gs) (h_ras : Group.ras ∈ gs) (h_dict : Group.dict ∈ gs) (h_pow : Group.pow ∈ gs) :
    OnlyTouches gs s (dropEnable a0) := by
  unfold dropEnable
  iterate 40 all_goals (try first
    | with_reducible assumption
    | with_reducible refine beginStandby_only ?_ h_tick h_gov h_parts h_rings h_arrays h_mem h_fab h_keys h_bind h_ras h_dict h_pow
    | split
    | dsimp only
    | with_reducible refine OnlyTouches.upd ?_ rfl (.inr rfl) (.inr rfl) (.inl h_tick) (.inl h_gov) (.inl h_parts) (.inl h_rings) (.inl h_arrays) (.inl h_mem) (.inl h_fab) (.inl h_keys) (.inl h_bind) (.inr rfl) (.inl h_ras) (.inr rfl) (.inl h_dict) (.inr rfl) (.inl h_pow) (.inr rfl)
    )

theorem dropFilling_only {gs : List Group} {s : State} {a0 a1} (hs : OnlyTouches gs s a1) (h_bind : Group.bind ∈ gs) :
    OnlyTouches gs s (dropFilling a0 a1) := by
  unfold dropFilling
  iterate 40 all_goals (try first
    | with_reducible assumption
    | with_reducible refine updSession_only ?_ h_bind
    | split
    )

theorem dropHs_only {gs : List Group} {s : State} {a0 a1 a2 a3} (hs : OnlyTouches gs s a3) (h_fab : Group.fab ∈ gs) :
    OnlyTouches gs s (dropHs a0 a1 a2 a3) := by
  unfold dropHs
  iterate 40 all_goals (try first
    | with_reducible assumption
    | split
    | dsimp only
    | with_reducible refine OnlyTouches.upd ?_ rfl (.inr rfl) (.inr rfl) (.inr rfl) (.inr rfl) (.inr rfl) (.inr rfl) (.inr rfl) (.inr rfl) (.inl h_fab) (.inr rfl) (.inr rfl) (.inr rfl) (.inr rfl) (.inr rfl) (.inr rfl) (.inr rfl) (.inr rfl) (.inr rfl)
    )

theorem dropLost_only {gs : List Group} {s : State} {a0} (hs : OnlyTouches gs s a0) (h_parts : Group.parts ∈ gs) (h_ras : Group.ras ∈ gs) :
    OnlyTouches gs s (dropLost a0) := by
  unfold dropLost
  iterate 40 all_goals (try first
    | with_reducible assumption
    | with_reducible refine foldl_only (fun u x hu => ?_) ?_
    | with_reducible refine foldl_fst_only (fun u x hu => ?_) ?_
    | split
    | dsimp only
    | with_reducible refine OnlyTouches.upd ?_ rfl (.inr rfl) (.inr rfl) (.inr rfl) (.inr rfl) (.inl h_parts) (.inr rfl) (.inr rfl) (.inr rfl) (.inr rfl) (.inr rfl) (.inr rfl) (.inr rfl) (.inl h_ras) (.inr rfl) (.inr rfl) (.inr rfl) (.inr rfl) (.inr rfl)
    )

theorem dropRows_only {gs : List Group} {s : State} {a0 a1 a2 a3} (hs : OnlyTouches gs s a3) (h_arrays : Group.arrays ∈ gs) :
    OnlyTouches gs s (dropRows a0 a1 a2 a3) := by
  unfold dropRows
  iterate 40 all_goals (try first
    | with_reducible assumption
    | with_reducible refine State_updArray_only ?_ h_arrays
    )

theorem dueAdmit_only {gs : List Group} {s : State} {a0 a1} (hs : OnlyTouches gs s a1) (h_out : Group.out ∈ gs) (h_free : Group.free ∈ gs) (h_gov : Group.gov ∈ gs) (h_parts : Group.parts ∈ gs) (h_rings : Group.rings ∈ gs) (h_mem : Group.mem ∈ gs) (h_ras : Group.ras ∈ gs) (h_dict : Group.dict ∈ gs) :
    OnlyTouches gs s (dueAdmit a0 a1) := by
  unfold dueAdmit
  iterate 40 all_goals (try first
    | with_reducible assumption
    | with_reducible refine eligible_only ?_ h_out h_free h_parts h_mem h_ras h_dict
    | with_reducible refine admitOne_only ?_ h_gov h_parts h_rings
    | with_reducible refine finishAdmission_only ?_ h_out h_free h_gov h_parts h_rings h_mem h_ras h_dict
    | with_reducible refine fst_only (by assumption) ?_
    | split
    )

theorem echo_only {gs : List Group} {s : State} {a0 a1 a2} (hs : OnlyTouches gs s a2) (h_out : Group.out ∈ gs) (h_dict : Group.dict ∈ gs) :
    OnlyTouches gs s (echo a0 a1 a2) := by
  unfold echo
  iterate 40 all_goals (try first
    | with_reducible assumption
    | with_reducible refine nodeFrames_only ?_ h_dict
    | with_reducible refine State_emit_only ?_ h_out
    | split
    )

theorem emitRecord_only {gs : List Group} {s : State} {a0 a1} (hs : OnlyTouches gs s a1) (h_out : Group.out ∈ gs) (h_lh : Group.lh ∈ gs) (h_dict : Group.dict ∈ gs) :
    OnlyTouches gs s (emitRecord a0 a1) := by
  unfold emitRecord
  iterate 40 all_goals (try first
    | with_reducible assumption
    | with_reducible refine State_emit_only ?_ h_out
    | split
    | dsimp only
    | with_reducible refine OnlyTouches.upd ?_ rfl (.inl h_out) (.inr rfl) (.inr rfl) (.inr rfl) (.inr rfl) (.inr rfl) (.inr rfl) (.inr rfl) (.inr rfl) (.inr rfl) (.inr rfl) (.inr rfl) (.inr rfl) (.inl h_lh) (.inl h_dict) (.inr rfl) (.inr rfl) (.inr rfl)
    )

theorem endAll_only {gs : List Group} {s : State} {a0 a1} (hs : OnlyTouches gs s a1) (h_out : Group.out ∈ gs) (h_free : Group.free ∈ gs) (h_parts : Group.parts ∈ gs) (h_rings : Group.rings ∈ gs) (h_arrays : Group.arrays ∈ gs) (h_mem : Group.mem ∈ gs) (h_fab : Group.fab ∈ gs) (h_bind : Group.bind ∈ gs) (h_ras : Group.ras ∈ gs) (h_dict : Group.dict ∈ gs) :
    OnlyTouches gs s (endAll a0 a1).1 := by
  unfold endAll
  iterate 40 all_goals (try first
    | with_reducible assumption
    | with_reducible refine endAttempt_only ?_ h_out h_free h_parts h_rings h_arrays h_mem h_fab h_bind h_ras h_dict
    | with_reducible refine fst_only (by assumption) ?_
    | with_reducible refine foldl_only (fun u x hu => ?_) ?_
    | with_reducible refine foldl_fst_only (fun u x hu => ?_) ?_
    | split
    )

theorem failHost_only {gs : List Group} {s : State} {a0 a1 a2} (hs : OnlyTouches gs s a2) (h_fab : Group.fab ∈ gs) :
    OnlyTouches gs s (failHost a0 a1 a2) := by
  unfold failHost
  iterate 40 all_goals (try first
    | with_reducible assumption
    | split
    | dsimp only
    | with_reducible refine OnlyTouches.upd ?_ rfl (.inr rfl) (.inr rfl) (.inr rfl) (.inr rfl) (.inr rfl) (.inr rfl) (.inr rfl) (.inr rfl) (.inl h_fab) (.inr rfl) (.inr rfl) (.inr rfl) (.inr rfl) (.inr rfl) (.inr rfl) (.inr rfl) (.inr rfl) (.inr rfl)
    )

theorem endSends_only {gs : List Group} {s : State} {a0 a1 a2} (hs : OnlyTouches gs s a2) (h_out : Group.out ∈ gs) (h_free : Group.free ∈ gs) (h_parts : Group.parts ∈ gs) (h_mem : Group.mem ∈ gs) (h_ras : Group.ras ∈ gs) (h_dict : Group.dict ∈ gs) :
    OnlyTouches gs s (endSends a0 a1 a2) := by
  unfold endSends
  iterate 40 all_goals (try first
    | with_reducible assumption
    | with_reducible refine State_putVM_only ?_ h_out h_free h_parts h_mem h_ras h_dict
    | with_reducible refine foldl_only (fun u x hu => ?_) ?_
    | with_reducible refine foldl_fst_only (fun u x hu => ?_) ?_
    | split
    )

theorem failWait_only {gs : List Group} {s : State} {a0 a1 a2} (hs : OnlyTouches gs s a2) (h_out : Group.out ∈ gs) (h_free : Group.free ∈ gs) (h_parts : Group.parts ∈ gs) (h_mem : Group.mem ∈ gs) (h_ras : Group.ras ∈ gs) (h_dict : Group.dict ∈ gs) :
    OnlyTouches gs s (failWait a0 a1 a2) := by
  unfold failWait
  iterate 40 all_goals (try first
    | with_reducible assumption
    | with_reducible refine finishWait_only ?_ h_out h_free h_parts h_mem h_ras h_dict
    | with_reducible refine State_putVM_only ?_ h_out h_free h_parts h_mem h_ras h_dict
    | split
    | dsimp only
    | with_reducible refine OnlyTouches.upd ?_ rfl (.inl h_out) (.inl h_free) (.inr rfl) (.inr rfl) (.inl h_parts) (.inr rfl) (.inr rfl) (.inl h_mem) (.inr rfl) (.inr rfl) (.inr rfl) (.inr rfl) (.inl h_ras) (.inr rfl) (.inl h_dict) (.inr rfl) (.inr rfl) (.inr rfl)
    )

theorem mailLost_only {gs : List Group} {s : State} {a0 a1 a2} (hs : OnlyTouches gs s a2) (h_out : Group.out ∈ gs) (h_fab : Group.fab ∈ gs) :
    OnlyTouches gs s (mailLost a0 a1 a2) := by
  unfold mailLost
  iterate 40 all_goals (try first
    | with_reducible assumption
    | with_reducible refine State_emit_only ?_ h_out
    | split
    | dsimp only
    | with_reducible refine OnlyTouches.upd ?_ rfl (.inl h_out) (.inr rfl) (.inr rfl) (.inr rfl) (.inr rfl) (.inr rfl) (.inr rfl) (.inr rfl) (.inl h_fab) (.inr rfl) (.inr rfl) (.inr rfl) (.inr rfl) (.inr rfl) (.inr rfl) (.inr rfl) (.inr rfl) (.inr rfl)
    )

theorem endFlowOps_only {gs : List Group} {s : State} {a0 a1 a2 a3} (hs : OnlyTouches gs s a3) (h_out : Group.out ∈ gs) (h_free : Group.free ∈ gs) (h_parts : Group.parts ∈ gs) (h_mem : Group.mem ∈ gs) (h_fab : Group.fab ∈ gs) (h_ras : Group.ras ∈ gs) (h_dict : Group.dict ∈ gs) :
    OnlyTouches gs s (endFlowOps a0 a1 a2 a3) := by
  unfold endFlowOps
  iterate 40 all_goals (try first
    | with_reducible assumption
    | with_reducible refine flushHost_only ?_ h_out h_fab
    | with_reducible refine failHost_only ?_ h_fab
    | with_reducible refine endSends_only ?_ h_out h_free h_parts h_mem h_ras h_dict
    | with_reducible refine failWait_only ?_ h_out h_free h_parts h_mem h_ras h_dict
    | with_reducible refine mailLost_only ?_ h_out h_fab
    | with_reducible refine foldl_only (fun u x hu => ?_) ?_
    | with_reducible refine foldl_fst_only (fun u x hu => ?_) ?_
    | split
    | dsimp only
    | with_reducible refine OnlyTouches.upd ?_ rfl (.inl h_out) (.inl h_free) (.inr rfl) (.inr rfl) (.inl h_parts) (.inr rfl) (.inr rfl) (.inl h_mem) (.inl h_fab) (.inr rfl) (.inr rfl) (.inr rfl) (.inl h_ras) (.inr rfl) (.inl h_dict) (.inr rfl) (.inr rfl) (.inr rfl)
    )

theorem recordOpen_only {gs : List Group} {s : State} {a0 a1 a2} (hs : OnlyTouches gs s a2) (h_out : Group.out ∈ gs) (h_free : Group.free ∈ gs) (h_parts : Group.parts ∈ gs) (h_mem : Group.mem ∈ gs) (h_ras : Group.ras ∈ gs) (h_dict : Group.dict ∈ gs) :
    OnlyTouches gs s (recordOpen a0 a1 a2) := by
  unfold recordOpen
  iterate 40 all_goals (try first
    | with_reducible assumption
    | with_reducible refine State_putVM_only ?_ h_out h_free h_parts h_mem h_ras h_dict
    | split
    | dsimp only
    | with_reducible refine OnlyTouches.upd ?_ rfl (.inl h_out) (.inl h_free) (.inr rfl) (.inr rfl) (.inl h_parts) (.inr rfl) (.inr rfl) (.inl h_mem) (.inr rfl) (.inr rfl) (.inr rfl) (.inr rfl) (.inl h_ras) (.inr rfl) (.inl h_dict) (.inr rfl) (.inr rfl) (.inr rfl)
    )

theorem endOpening_only {gs : List Group} {s : State} {a0 a1 a2} (hs : OnlyTouches gs s a2) (h_out : Group.out ∈ gs) (h_free : Group.free ∈ gs) (h_parts : Group.parts ∈ gs) (h_mem : Group.mem ∈ gs) (h_fab : Group.fab ∈ gs) (h_ras : Group.ras ∈ gs) (h_dict : Group.dict ∈ gs) :
    OnlyTouches gs s (endOpening a0 a1 a2) := by
  unfold endOpening
  iterate 40 all_goals (try first
    | with_reducible assumption
    | with_reducible refine recordOpen_only ?_ h_out h_free h_parts h_mem h_ras h_dict
    | with_reducible refine foldl_only (fun u x hu => ?_) ?_
    | with_reducible refine foldl_fst_only (fun u x hu => ?_) ?_
    | split
    | dsimp only
    | with_reducible refine OnlyTouches.upd ?_ rfl (.inl h_out) (.inl h_free) (.inr rfl) (.inr rfl) (.inl h_parts) (.inr rfl) (.inr rfl) (.inl h_mem) (.inl h_fab) (.inr rfl) (.inr rfl) (.inr rfl) (.inl h_ras) (.inr rfl) (.inl h_dict) (.inr rfl) (.inr rfl) (.inr rfl)
    )

theorem endPass_only {gs : List Group} {s : State} {a0 a1 a2 a3} (hs : OnlyTouches gs s a3) (h_parts : Group.parts ∈ gs) (h_rings : Group.rings ∈ gs) (h_arrays : Group.arrays ∈ gs) :
    OnlyTouches gs s (endPass a0 a1 a2 a3) := by
  unfold endPass
  iterate 40 all_goals (try first
    | with_reducible assumption
    | with_reducible refine finishArray_only ?_ h_rings h_arrays
    | with_reducible refine addCounts_only ?_ h_parts
    | with_reducible refine updEntry_only ?_ h_rings
    )

theorem enterHandshake_only {gs : List Group} {s : State} {a0 a1 a2} (hs : OnlyTouches gs s a2) (h_out : Group.out ∈ gs) (h_free : Group.free ∈ gs) (h_fab : Group.fab ∈ gs) :
    OnlyTouches gs s (enterHandshake a0 a1 a2) := by
  unfold enterHandshake
  iterate 40 all_goals (try first
    | with_reducible assumption
    | with_reducible refine State_updStrait_only ?_ h_fab
    | with_reducible refine offerHello_only ?_ h_out h_free h_fab
    )

theorem failDie_only {gs : List Group} {s : State} {a0 a1} (hs : OnlyTouches gs s a1) (h_out : Group.out ∈ gs) (h_free : Group.free ∈ gs) (h_parts : Group.parts ∈ gs) (h_mem : Group.mem ∈ gs) (h_ras : Group.ras ∈ gs) (h_dict : Group.dict ∈ gs) (h_pow : Group.pow ∈ gs) :
    OnlyTouches gs s (failDie a0 a1) := by
  unfold failDie
  iterate 40 all_goals (try first
    | with_reducible assumption
    | with_reducible refine loseStack_only ?_ h_out h_free h_parts h_mem h_ras h_dict
    | with_reducible refine auditRepair_only ?_ h_out h_free h_parts h_mem h_ras h_dict
    | with_reducible refine foldl_only (fun u x hu => ?_) ?_
    | with_reducible refine foldl_fst_only (fun u x hu => ?_) ?_
    | split
    | dsimp only
    | with_reducible refine OnlyTouches.upd ?_ rfl (.inl h_out) (.inl h_free) (.inr rfl) (.inr rfl) (.inl h_parts) (.inr rfl) (.inr rfl) (.inl h_mem) (.inr rfl) (.inr rfl) (.inr rfl) (.inr rfl) (.inl h_ras) (.inr rfl) (.inl h_dict) (.inr rfl) (.inl h_pow) (.inr rfl)
    )

theorem failHub_only {gs : List Group} {s : State} {a0} (hs : OnlyTouches gs s a0) (h_out : Group.out ∈ gs) (h_free : Group.free ∈ gs) (h_parts : Group.parts ∈ gs) (h_mem : Group.mem ∈ gs) (h_fab : Group.fab ∈ gs) (h_ras : Group.ras ∈ gs) (h_dict : Group.dict ∈ gs) (h_pow : Group.pow ∈ gs) (h_fw : Group.fw ∈ gs) :
    OnlyTouches gs s (failHub a0) := by
  unfold failHub
  iterate 40 all_goals (try first
    | with_reducible assumption
    | with_reducible refine auditRepair_only ?_ h_out h_free h_parts h_mem h_ras h_dict
    | with_reducible refine fetchOn_only ?_ h_out h_free h_fab h_dict h_fw
    | split
    | dsimp only
    | with_reducible refine OnlyTouches.upd ?_ rfl (.inl h_out) (.inl h_free) (.inr rfl) (.inr rfl) (.inl h_parts) (.inr rfl) (.inr rfl) (.inl h_mem) (.inl h_fab) (.inr rfl) (.inr rfl) (.inr rfl) (.inl h_ras) (.inr rfl) (.inl h_dict) (.inr rfl) (.inl h_pow) (.inl h_fw)
    )

theorem failStack_only {gs : List Group} {s : State} {a0 a1} (hs : OnlyTouches gs s a1) (h_out : Group.out ∈ gs) (h_free : Group.free ∈ gs) (h_parts : Group.parts ∈ gs) (h_mem : Group.mem ∈ gs) (h_ras : Group.ras ∈ gs) (h_dict : Group.dict ∈ gs) :
    OnlyTouches gs s (failStack a0 a1) := by
  unfold failStack
  iterate 40 all_goals (try first
    | with_reducible assumption
    | with_reducible refine loseStack_only ?_ h_out h_free h_parts h_mem h_ras h_dict
    | with_reducible refine auditRepair_only ?_ h_out h_free h_parts h_mem h_ras h_dict
    | split
    | dsimp only
    | with_reducible refine OnlyTouches.upd ?_ rfl (.inl h_out) (.inl h_free) (.inr rfl) (.inr rfl) (.inl h_parts) (.inr rfl) (.inr rfl) (.inl h_mem) (.inr rfl) (.inr rfl) (.inr rfl) (.inr rfl) (.inl h_ras) (.inr rfl) (.inl h_dict) (.inr rfl) (.inr rfl) (.inr rfl)
    )

theorem failedIn_only {gs : List Group} {s : State} {a0 a1} (hs : OnlyTouches gs s a1) (h_bind : Group.bind ∈ gs) :
    OnlyTouches gs s (failedIn a0 a1) := by
  unfold failedIn
  iterate 40 all_goals (try first
    | with_reducible assumption
    | with_reducible refine noteFailed_only ?_ h_bind
    | split
    )

theorem updFetch_only {gs : List Group} {s : State} {a0 a1 a2 a3 a4} (hs : OnlyTouches gs s a4) (h_mem : Group.mem ∈ gs) :
    OnlyTouches gs s (updFetch a0 a1 a2 a3 a4) := by
  unfold updFetch
  iterate 40 all_goals (try first
    | with_reducible assumption
    | split
    | dsimp only
    | with_reducible refine OnlyTouches.upd ?_ rfl (.inr rfl) (.inr rfl) (.inr rfl) (.inr rfl) (.inr rfl) (.inr rfl) (.inr rfl) (.inl h_mem) (.inr rfl) (.inr rfl) (.inr rfl) (.inr rfl) (.inr rfl) (.inr rfl) (.inr rfl) (.inr rfl) (.inr rfl) (.inr rfl)
    )

theorem noteHome_only {gs : List Group} {s : State} {a0 a1 a2 a3} (hs : OnlyTouches gs s a3) (h_mem : Group.mem ∈ gs) :
    OnlyTouches gs s (noteHome a0 a1 a2 a3) := by
  unfold noteHome
  iterate 40 all_goals (try first
    | with_reducible assumption
    | split
    | dsimp only
    | with_reducible refine OnlyTouches.upd ?_ rfl (.inr rfl) (.inr rfl) (.inr rfl) (.inr rfl) (.inr rfl) (.inr rfl) (.inr rfl) (.inl h_mem) (.inr rfl) (.inr rfl) (.inr rfl) (.inr rfl) (.inr rfl) (.inr rfl) (.inr rfl) (.inr rfl) (.inr rfl) (.inr rfl)
    )

theorem fetchRead_only {gs : List Group} {s : State} {a0 a1 a2 a3} (hs : OnlyTouches gs s a3) (h_out : Group.out ∈ gs) (h_free : Group.free ∈ gs) (h_parts : Group.parts ∈ gs) (h_mem : Group.mem ∈ gs) (h_ras : Group.ras ∈ gs) (h_dict : Group.dict ∈ gs) :
    OnlyTouches gs s (fetchRead a0 a1 a2 a3).1 := by
  unfold fetchRead
  iterate 40 all_goals (try first
    | with_reducible assumption
    | with_reducible refine State_putVM_only ?_ h_out h_free h_parts h_mem h_ras h_dict
    | with_reducible refine noteHome_only ?_ h_mem
    )

theorem fetchTwice_only {gs : List Group} {s : State} {a0 a1 a2 a3 a4 a5} (hs : OnlyTouches gs s a5) (h_out : Group.out ∈ gs) (h_free : Group.free ∈ gs) (h_parts : Group.parts ∈ gs) (h_mem : Group.mem ∈ gs) (h_ras : Group.ras ∈ gs) (h_dict : Group.dict ∈ gs) :
    OnlyTouches gs s (fetchTwice a0 a1 a2 a3 a4 a5).1 := by
  unfold fetchTwice
  iterate 40 all_goals (try first
    | with_reducible assumption
    | with_reducible refine State_putVM_only ?_ h_out h_free h_parts h_mem h_ras h_dict
    | with_reducible refine fetchRead_only ?_ h_out h_free h_parts h_mem h_ras h_dict
    | with_reducible refine fst_only (by assumption) ?_
    | split
    | dsimp only
    )

theorem placeWaiting_only {gs : List Group} {s : State} {a0 a1 a2} (hs : OnlyTouches gs s a2) (h_out : Group.out ∈ gs) (h_free : Group.free ∈ gs) (h_parts : Group.parts ∈ gs) (h_mem : Group.mem ∈ gs) (h_fab : Group.fab ∈ gs) (h_bind : Group.bind ∈ gs) (h_ras : Group.ras ∈ gs) (h_dict : Group.dict ∈ gs) :
    OnlyTouches gs s (placeWaiting a0 a1 a2) := by
  unfold placeWaiting
  iterate 40 all_goals (try first
    | with_reducible assumption
    | with_reducible refine placeChunk_only ?_ h_out h_free h_parts h_mem h_fab h_bind h_ras h_dict
    | with_reducible refine foldl_only (fun u x hu => ?_) ?_
    | with_reducible refine foldl_fst_only (fun u x hu => ?_) ?_
    | split
    )

theorem fetchOne_only {gs : List Group} {s b0 : State} {p e b g f r q} (hs : OnlyTouches gs s b0) (h_out : Group.out ∈ gs) (h_free : Group.free ∈ gs) (h_parts : Group.parts ∈ gs) (h_mem : Group.mem ∈ gs) (h_fab : Group.fab ∈ gs) (h_bind : Group.bind ∈ gs) (h_ras : Group.ras ∈ gs) (h_dict : Group.dict ∈ gs) :
    OnlyTouches gs s (fetchOne p e b g f r q b0) := by
  unfold fetchOne
  have h0 := @fetchTwice_only gs s p g f r q b0 hs h_out h_free h_parts h_mem h_ras h_dict
  generalize fetchTwice p g f r q b0 = z at h0 ⊢
  obtain ⟨u, z1, z2⟩ := z
  have h : OnlyTouches gs s u := h0
  clear h0
  dsimp -zeta only
  extract_lets s1 bad g1 ask last g2 s2 m0 s3 s4
  have h1 : OnlyTouches gs s s1 := OnlyTouches.upd h rfl (.inl h_out) (.inl h_free) (.inr rfl) (.inr rfl) (.inl h_parts) (.inr rfl) (.inr rfl) (.inl h_mem) (.inl h_fab) (.inr rfl) (.inl h_bind) (.inr rfl) (.inl h_ras) (.inr rfl) (.inl h_dict) (.inr rfl) (.inr rfl) (.inr rfl)
  clear_value s1 bad g1 ask last g2
  have h2 : OnlyTouches gs s s2 := by
    simp only [s2]
    split
    · exact h1
    · exact State_putWrites_only h1 h_out h_free h_parts h_mem h_fab h_ras h_dict
  clear_value s2
  have h3 : OnlyTouches gs s s3 := by
    simp only [s3]
    split
    · exact OnlyTouches.upd h2 rfl (.inl h_out) (.inl h_free) (.inr rfl) (.inr rfl) (.inl h_parts) (.inr rfl) (.inr rfl) (.inl h_mem) (.inl h_fab) (.inr rfl) (.inl h_bind) (.inr rfl) (.inl h_ras) (.inr rfl) (.inl h_dict) (.inr rfl) (.inr rfl) (.inr rfl)
    · exact updFetch_only h2 h_mem
  clear_value s3
  have h4 : OnlyTouches gs s s4 := by
    simp only [s4]
    split
    · exact requestResend_only h3 h_out h_free h_parts h_mem h_fab h_bind h_ras h_dict
    · exact h3
  clear_value s4
  split
  · exact h4
  · exact placeWaiting_only h4 h_out h_free h_parts h_mem h_fab h_bind h_ras h_dict

theorem fillFold_only {gs : List Group} {s : State} {a0 a1 a2 a3 a4} (hs : OnlyTouches gs s a4) (h_out : Group.out ∈ gs) (h_free : Group.free ∈ gs) (h_parts : Group.parts ∈ gs) (h_rings : Group.rings ∈ gs) (h_arrays : Group.arrays ∈ gs) (h_mem : Group.mem ∈ gs) (h_fab : Group.fab ∈ gs) (h_ras : Group.ras ∈ gs) (h_dict : Group.dict ∈ gs) :
    OnlyTouches gs s (fillFold a0 a1 a2 a3 a4) := by
  unfold fillFold
  iterate 40 all_goals (try first
    | with_reducible assumption
    | with_reducible refine updEntry_only ?_ h_rings
    | with_reducible refine State_updArray_only ?_ h_arrays
    | with_reducible refine sawPoison_only ?_ h_rings
    | with_reducible refine advanceMovers_only ?_ h_out h_free h_parts h_rings h_arrays h_mem h_fab h_ras h_dict
    | with_reducible refine countRemote_only ?_ h_parts
    )

theorem replaceKey_only {gs : List Group} {s : State} {a0 a1 a2 a3 a4} (hs : OnlyTouches gs s a4) (h_free : Group.free ∈ gs) (h_keys : Group.keys ∈ gs) :
    OnlyTouches gs s (replaceKey a0 a1 a2 a3 a4).1 := by
  unfold replaceKey
  iterate 40 all_goals (try first
    | with_reducible assumption
    | with_reducible refine addKey_only (by assumption) ?_ h_free h_keys
    | split
    | dsimp only
    | with_reducible refine OnlyTouches.upd ?_ rfl (.inr rfl) (.inl h_free) (.inr rfl) (.inr rfl) (.inr rfl) (.inr rfl) (.inr rfl) (.inr rfl) (.inr rfl) (.inl h_keys) (.inr rfl) (.inr rfl) (.inr rfl) (.inr rfl) (.inr rfl) (.inr rfl) (.inr rfl) (.inr rfl)
    )

theorem installHop_only {gs : List Group} {s : State} {a0 a1 a2 a3 a4} (hs : OnlyTouches gs s a4) (h_out : Group.out ∈ gs) (h_free : Group.free ∈ gs) (h_fab : Group.fab ∈ gs) (h_keys : Group.keys ∈ gs) (h_dict : Group.dict ∈ gs) :
    OnlyTouches gs s (installHop a0 a1 a2 a3 a4) := by
  unfold installHop
  iterate 40 all_goals (try first
    | with_reducible assumption
    | with_reducible refine State_updStrait_only ?_ h_fab
    | with_reducible refine setFlow_only ?_ h_fab
    | with_reducible refine replaceKey_only ?_ h_free h_keys
    | with_reducible refine askOver_only ?_ h_out h_dict
    | with_reducible refine fst_only (by assumption) ?_
    | split
    | dsimp only
    | with_reducible refine OnlyTouches.upd ?_ rfl (.inl h_out) (.inl h_free) (.inr rfl) (.inr rfl) (.inr rfl) (.inr rfl) (.inr rfl) (.inr rfl) (.inl h_fab) (.inl h_keys) (.inr rfl) (.inr rfl) (.inr rfl) (.inr rfl) (.inl h_dict) (.inr rfl) (.inr rfl) (.inr rfl)
    )

theorem settleOpening_only {gs : List Group} {s : State} {a0 a1} (hs : OnlyTouches gs s a1) (h_out : Group.out ∈ gs) (h_free : Group.free ∈ gs) (h_parts : Group.parts ∈ gs) (h_mem : Group.mem ∈ gs) (h_fab : Group.fab ∈ gs) (h_keys : Group.keys ∈ gs) (h_ras : Group.ras ∈ gs) (h_dict : Group.dict ∈ gs) :
    OnlyTouches gs s (settleOpening a0 a1) := by
  unfold settleOpening
  iterate 40 all_goals (try first
    | with_reducible assumption
    | with_reducible refine sessionKeys_only (by assumption) ?_ h_free h_keys
    | with_reducible refine setFlow_only ?_ h_fab
    | with_reducible refine recordOpen_only ?_ h_out h_free h_parts h_mem h_ras h_dict
    | with_reducible refine foldl_only (fun u x hu => ?_) ?_
    | with_reducible refine foldl_fst_only (fun u x hu => ?_) ?_
    | split
    | dsimp only
    | with_reducible refine OnlyTouches.upd ?_ rfl (.inl h_out) (.inl h_free) (.inr rfl) (.inr rfl) (.inl h_parts) (.inr rfl) (.inr rfl) (.inl h_mem) (.inl h_fab) (.inl h_keys) (.inr rfl) (.inr rfl) (.inl h_ras) (.inr rfl) (.inl h_dict) (.inr rfl) (.inr rfl) (.inr rfl)
    )

theorem installPair_only {gs : List Group} {s : State} {a0 a1 a2 a3 a4} (hs : OnlyTouches gs s a4) (h_out : Group.out ∈ gs) (h_free : Group.free ∈ gs) (h_parts : Group.parts ∈ gs) (h_mem : Group.mem ∈ gs) (h_fab : Group.fab ∈ gs) (h_keys : Group.keys ∈ gs) (h_ras : Group.ras ∈ gs) (h_dict : Group.dict ∈ gs) :
    OnlyTouches gs s (installPair a0 a1 a2 a3 a4) := by
  unfold installPair
  iterate 40 all_goals (try first
    | with_reducible assumption
    | with_reducible refine endOpening_only ?_ h_out h_free h_parts h_mem h_fab h_ras h_dict
    | with_reducible refine replaceKey_only ?_ h_free h_keys
    | with_reducible refine settleOpening_only ?_ h_out h_free h_parts h_mem h_fab h_keys h_ras h_dict
    | with_reducible refine fst_only (by assumption) ?_
    | split
    | dsimp only
    | with_reducible refine OnlyTouches.upd ?_ rfl (.inl h_out) (.inl h_free) (.inr rfl) (.inr rfl) (.inl h_parts) (.inr rfl) (.inr rfl) (.inl h_mem) (.inl h_fab) (.inl h_keys) (.inr rfl) (.inr rfl) (.inl h_ras) (.inr rfl) (.inl h_dict) (.inr rfl) (.inr rfl) (.inr rfl)
    )

theorem installKeys_only {gs : List Group} {s : State} {a0 a1 a2 a3 a4 a5} (hs : OnlyTouches gs s a5) (h_out : Group.out ∈ gs) (h_free : Group.free ∈ gs) (h_parts : Group.parts ∈ gs) (h_mem : Group.mem ∈ gs) (h_fab : Group.fab ∈ gs) (h_keys : Group.keys ∈ gs) (h_ras : Group.ras ∈ gs) (h_dict : Group.dict ∈ gs) :
    OnlyTouches gs s (installKeys a0 a1 a2 a3 a4 a5) := by
  unfold installKeys
  iterate 40 all_goals (try first
    | with_reducible assumption
    | with_reducible refine installHop_only ?_ h_out h_free h_fab h_keys h_dict
    | with_reducible refine installPair_only ?_ h_out h_free h_parts h_mem h_fab h_keys h_ras h_dict
    | split
    )

theorem trainFail_only {gs : List Group} {s : State} {a0 a1} (hs : OnlyTouches gs s a1) (h_fab : Group.fab ∈ gs) :
    OnlyTouches gs s (trainFail a0 a1) := by
  unfold trainFail
  iterate 40 all_goals (try first
    | with_reducible assumption
    | with_reducible refine State_updStrait_only ?_ h_fab
    | with_reducible refine goDown_only ?_ h_fab
    )

theorem hsFail_only {gs : List Group} {s : State} {a0 a1 a2} (hs : OnlyTouches gs s a2) (h_out : Group.out ∈ gs) (h_free : Group.free ∈ gs) (h_parts : Group.parts ∈ gs) (h_mem : Group.mem ∈ gs) (h_fab : Group.fab ∈ gs) (h_ras : Group.ras ∈ gs) (h_dict : Group.dict ∈ gs) :
    OnlyTouches gs s (hsFail a0 a1 a2) := by
  unfold hsFail
  iterate 40 all_goals (try first
    | with_reducible assumption
    | with_reducible refine endOpening_only ?_ h_out h_free h_parts h_mem h_fab h_ras h_dict
    | with_reducible refine trainFail_only ?_ h_fab
    | split
    | dsimp only
    | with_reducible refine OnlyTouches.upd ?_ rfl (.inl h_out) (.inl h_free) (.inr rfl) (.inr rfl) (.inl h_parts) (.inr rfl) (.inr rfl) (.inl h_mem) (.inl h_fab) (.inr rfl) (.inr rfl) (.inr rfl) (.inl h_ras) (.inr rfl) (.inl h_dict) (.inr rfl) (.inr rfl) (.inr rfl)
    )

theorem finishIn_only {gs : List Group} {s : State} {a0 a1} (hs : OnlyTouches gs s a1) (h_out : Group.out ∈ gs) (h_free : Group.free ∈ gs) (h_parts : Group.parts ∈ gs) (h_mem : Group.mem ∈ gs) (h_fab : Group.fab ∈ gs) (h_keys : Group.keys ∈ gs) (h_ras : Group.ras ∈ gs) (h_dict : Group.dict ∈ gs) :
    OnlyTouches gs s (finishIn a0 a1) := by
  unfold finishIn
  iterate 40 all_goals (try first
    | with_reducible assumption
    | with_reducible refine dropHs_only ?_ h_fab
    | with_reducible refine installKeys_only ?_ h_out h_free h_parts h_mem h_fab h_keys h_ras h_dict
    | with_reducible refine hsFail_only ?_ h_out h_free h_parts h_mem h_fab h_ras h_dict
    | split
    | dsimp only
    )

theorem freePages_only {gs : List Group} {s : State} {a0 a1} (hs : OnlyTouches gs s a1) (h_out : Group.out ∈ gs) (h_free : Group.free ∈ gs) (h_parts : Group.parts ∈ gs) (h_mem : Group.mem ∈ gs) (h_fab : Group.fab ∈ gs) (h_ras : Group.ras ∈ gs) (h_dict : Group.dict ∈ gs) :
    OnlyTouches gs s (freePages a0 a1) := by
  unfold freePages
  iterate 40 all_goals (try first
    | with_reducible assumption
    | with_reducible refine State_putWrites_only ?_ h_out h_free h_parts h_mem h_fab h_ras h_dict
    | with_reducible refine foldl_only (fun u x hu => ?_) ?_
    | with_reducible refine foldl_fst_only (fun u x hu => ?_) ?_
    | split
    | dsimp only
    | with_reducible refine OnlyTouches.upd ?_ rfl (.inl h_out) (.inl h_free) (.inr rfl) (.inr rfl) (.inl h_parts) (.inr rfl) (.inr rfl) (.inl h_mem) (.inl h_fab) (.inr rfl) (.inr rfl) (.inr rfl) (.inl h_ras) (.inr rfl) (.inl h_dict) (.inr rfl) (.inr rfl) (.inr rfl)
    )

theorem openDebug_only {gs : List Group} {s : State} {a0} (hs : OnlyTouches gs s a0) (h_life : Group.life ∈ gs) :
    OnlyTouches gs s (openDebug a0) := by
  unfold openDebug
  iterate 40 all_goals (try first
    | with_reducible assumption
    | split
    | dsimp only
    | with_reducible refine OnlyTouches.upd ?_ rfl (.inr rfl) (.inr rfl) (.inr rfl) (.inr rfl) (.inr rfl) (.inr rfl) (.inr rfl) (.inr rfl) (.inr rfl) (.inr rfl) (.inr rfl) (.inl h_life) (.inr rfl) (.inr rfl) (.inr rfl) (.inr rfl) (.inr rfl) (.inr rfl)
    )

theorem finishRemoval_only {gs : List Group} {s : State} {a0 a1 a2} (hs : OnlyTouches gs s a2) (h_out : Group.out ∈ gs) (h_free : Group.free ∈ gs) (h_parts : Group.parts ∈ gs) (h_rings : Group.rings ∈ gs) (h_mem : Group.mem ∈ gs) (h_fab : Group.fab ∈ gs) (h_keys : Group.keys ∈ gs) (h_life : Group.life ∈ gs) (h_ras : Group.ras ∈ gs) (h_dict : Group.dict ∈ gs) :
    OnlyTouches gs s (finishRemoval a0 a1 a2) := by
  unfold finishRemoval
  iterate 40 all_goals (try first
    | with_reducible assumption
    | with_reducible refine freePages_only ?_ h_out h_free h_parts h_mem h_fab h_ras h_dict
    | with_reducible refine openDebug_only ?_ h_life
    | split
    | dsimp only
    | with_reducible refine OnlyTouches.upd ?_ rfl (.inl h_out) (.inl h_free) (.inr rfl) (.inr rfl) (.inl h_parts) (.inl h_rings) (.inr rfl) (.inl h_mem) (.inl h_fab) (.inl h_keys) (.inr rfl) (.inl h_life) (.inl h_ras) (.inr rfl) (.inl h_dict) (.inr rfl) (.inr rfl) (.inr rfl)
    )

theorem finishRemovals_only {gs : List Group} {s : State} {a0 a1} (hs : OnlyTouches gs s a1) (h_out : Group.out ∈ gs) (h_free : Group.free ∈ gs) (h_parts : Group.parts ∈ gs) (h_rings : Group.rings ∈ gs) (h_mem : Group.mem ∈ gs) (h_fab : Group.fab ∈ gs) (h_keys : Group.keys ∈ gs) (h_life : Group.life ∈ gs) (h_ras : Group.ras ∈ gs) (h_dict : Group.dict ∈ gs) :
    OnlyTouches gs s (finishRemovals a0 a1) := by
  unfold finishRemovals
  iterate 40 all_goals (try first
    | with_reducible assumption
    | with_reducible refine finishRemoval_only ?_ h_out h_free h_parts h_rings h_mem h_fab h_keys h_life h_ras h_dict
    | with_reducible refine foldl_only (fun u x hu => ?_) ?_
    | with_reducible refine foldl_fst_only (fun u x hu => ?_) ?_
    | split
    )

theorem finishRotation_only {gs : List Group} {s : State} {a0 a1} (hs : OnlyTouches gs s a1) (h_parts : Group.parts ∈ gs) (h_keys : Group.keys ∈ gs) :
    OnlyTouches gs s (finishRotation a0 a1) := by
  unfold finishRotation
  iterate 40 all_goals (try first
    | with_reducible assumption
    | split
    | dsimp only
    | with_reducible refine OnlyTouches.upd ?_ rfl (.inr rfl) (.inr rfl) (.inr rfl) (.inr rfl) (.inl h_parts) (.inr rfl) (.inr rfl) (.inr rfl) (.inr rfl) (.inl h_keys) (.inr rfl) (.inr rfl) (.inr rfl) (.inr rfl) (.inr rfl) (.inr rfl) (.inr rfl) (.inr rfl)
    )

theorem nakIn_only {gs : List Group} {s : State} {a0 a1 a2} (hs : OnlyTouches gs s a2) (h_out : Group.out ∈ gs) (h_fab : Group.fab ∈ gs) :
    OnlyTouches gs s (nakIn a0 a1 a2) := by
  unfold nakIn
  iterate 40 all_goals (try first
    | with_reducible assumption
    | with_reducible refine State_updStrait_only ?_ h_fab
    | with_reducible refine State_emit_only ?_ h_out
    )

theorem flitIn_only {gs : List Group} {s : State} {a0 a1 a2} (hs : OnlyTouches gs s a2) (h_out : Group.out ∈ gs) (h_fab : Group.fab ∈ gs) :
    OnlyTouches gs s (flitIn a0 a1 a2) := by
  unfold flitIn
  iterate 40 all_goals (try first
    | with_reducible assumption
    | with_reducible refine State_updStrait_only ?_ h_fab
    | with_reducible refine nakIn_only ?_ h_out h_fab
    | with_reducible refine drainQueue_only ?_ h_out h_fab
    | with_reducible refine askResend_only ?_ h_out h_fab
    | split
    | dsimp only
    )

theorem flushRows_only {gs : List Group} {s : State} {a0 a1 a2 a3} (hs : OnlyTouches gs s a3) (h_bind : Group.bind ∈ gs) :
    OnlyTouches gs s (flushRows a0 a1 a2 a3) := by
  unfold flushRows
  iterate 40 all_goals (try first
    | with_reducible assumption
    | split
    | dsimp only
    | with_reducible refine OnlyTouches.upd ?_ rfl (.inr rfl) (.inr rfl) (.inr rfl) (.inr rfl) (.inr rfl) (.inr rfl) (.inr rfl) (.inr rfl) (.inr rfl) (.inr rfl) (.inl h_bind) (.inr rfl) (.inr rfl) (.inr rfl) (.inr rfl) (.inr rfl) (.inr rfl) (.inr rfl)
    )

theorem forwardPkt_only {gs : List Group} {s : State} {a0 a1 a2 a3 a4} (hs : OnlyTouches gs s a4) (h_out : Group.out ∈ gs) (h_fab : Group.fab ∈ gs) :
    OnlyTouches gs s (forwardPkt a0 a1 a2 a3 a4) := by
  unfold forwardPkt
  iterate 40 all_goals (try first
    | with_reducible assumption
    | with_reducible refine sendOn_only ?_ h_out h_fab
    | split
    | dsimp only
    | with_reducible refine OnlyTouches.upd ?_ rfl (.inl h_out) (.inr rfl) (.inr rfl) (.inr rfl) (.inr rfl) (.inr rfl) (.inr rfl) (.inr rfl) (.inl h_fab) (.inr rfl) (.inr rfl) (.inr rfl) (.inr rfl) (.inr rfl) (.inr rfl) (.inr rfl) (.inr rfl) (.inr rfl)
    )

theorem settleAdmission_only {gs : List Group} {s : State} {a0} (hs : OnlyTouches gs s a0) (h_out : Group.out ∈ gs) (h_free : Group.free ∈ gs) (h_gov : Group.gov ∈ gs) (h_parts : Group.parts ∈ gs) (h_rings : Group.rings ∈ gs) (h_mem : Group.mem ∈ gs) (h_ras : Group.ras ∈ gs) (h_dict : Group.dict ∈ gs) :
    OnlyTouches gs s (settleAdmission a0) := by
  unfold settleAdmission
  iterate 40 all_goals (try first
    | with_reducible assumption
    | with_reducible refine dueAdmit_only ?_ h_out h_free h_gov h_parts h_rings h_mem h_ras h_dict
    | split
    )

theorem reachSuccessors_only {gs : List Group} {s : State} {a0 a1} (hs : OnlyTouches gs s a1) (h_tick : Group.tick ∈ gs) :
    OnlyTouches gs s (reachSuccessors a0 a1) := by
  unfold reachSuccessors
  iterate 40 all_goals (try first
    | with_reducible assumption
    | with_reducible refine nameSuccessors_only ?_ h_tick
    | split
    )

theorem stampOffer_only {gs : List Group} {s : State} {a0 a1 a2} (hs : OnlyTouches gs s a2) (h_rings : Group.rings ∈ gs) :
    OnlyTouches gs s (stampOffer a0 a1 a2) := by
  unfold stampOffer
  iterate 40 all_goals (try first
    | with_reducible assumption
    | with_reducible refine State_updRing_only ?_ h_rings
    )

theorem retire_only {gs : List Group} {s : State} {a0 a1 a2 a3 a4 a5} (hs : OnlyTouches gs s a5) (h_out : Group.out ∈ gs) (h_free : Group.free ∈ gs) (h_parts : Group.parts ∈ gs) (h_rings : Group.rings ∈ gs) (h_mem : Group.mem ∈ gs) (h_fab : Group.fab ∈ gs) (h_ras : Group.ras ∈ gs) (h_dict : Group.dict ∈ gs) :
    OnlyTouches gs s (retire a0 a1 a2 a3 a4 a5) := by
  unfold retire
  iterate 40 all_goals (try first
    | with_reducible assumption
    | with_reducible refine faultRing_only ?_ h_rings
    | with_reducible refine putRecord_only ?_ h_out h_free h_parts h_mem h_fab h_ras h_dict
    | with_reducible refine retired_only ?_ h_out h_free h_parts h_rings h_mem h_fab h_ras h_dict
    | with_reducible refine fst_only (by assumption) ?_
    | split
    )

theorem rejectSlice_only {gs : List Group} {s : State} {a0 a1 a2 a3 a4} (hs : OnlyTouches gs s a4) (h_out : Group.out ∈ gs) (h_free : Group.free ∈ gs) (h_parts : Group.parts ∈ gs) (h_rings : Group.rings ∈ gs) (h_mem : Group.mem ∈ gs) (h_fab : Group.fab ∈ gs) (h_ras : Group.ras ∈ gs) (h_dict : Group.dict ∈ gs) :
    OnlyTouches gs s (rejectSlice a0 a1 a2 a3 a4) := by
  unfold rejectSlice
  iterate 40 all_goals (try first
    | with_reducible assumption
    | with_reducible refine countConds_only ?_ h_out h_free h_parts h_mem h_ras h_dict
    | with_reducible refine retire_only ?_ h_out h_free h_parts h_rings h_mem h_fab h_ras h_dict
    )

theorem putUnrun_only {gs : List Group} {s : State} {a0 a1 a2} (hs : OnlyTouches gs s a2) (h_out : Group.out ∈ gs) (h_free : Group.free ∈ gs) (h_parts : Group.parts ∈ gs) (h_mem : Group.mem ∈ gs) (h_fab : Group.fab ∈ gs) (h_ras : Group.ras ∈ gs) (h_dict : Group.dict ∈ gs) :
    OnlyTouches gs s (putUnrun a0 a1 a2).1 := by
  unfold putUnrun
  iterate 40 all_goals (try first
    | with_reducible assumption
    | with_reducible refine writeRec_only ?_ h_out h_free h_parts h_mem h_fab h_ras h_dict
    | with_reducible refine fst_only (by assumption) ?_
    | with_reducible refine foldl_only (fun u x hu => ?_) ?_
    | with_reducible refine foldl_fst_only (fun u x hu => ?_) ?_
    | split
    )

theorem withdrawSlice_only {gs : List Group} {s : State} {a0 a1 a2 a3} (hs : OnlyTouches gs s a3) (h_out : Group.out ∈ gs) (h_free : Group.free ∈ gs) (h_parts : Group.parts ∈ gs) (h_rings : Group.rings ∈ gs) (h_mem : Group.mem ∈ gs) (h_fab : Group.fab ∈ gs) (h_ras : Group.ras ∈ gs) (h_dict : Group.dict ∈ gs) :
    OnlyTouches gs s (withdrawSlice a0 a1 a2 a3) := by
  unfold withdrawSlice
  iterate 40 all_goals (try first
    | with_reducible assumption
    | with_reducible refine State_updRing_only ?_ h_rings
    | with_reducible refine faultRing_only ?_ h_rings
    | with_reducible refine countConds_only ?_ h_out h_free h_parts h_mem h_ras h_dict
    | with_reducible refine putUnrun_only ?_ h_out h_free h_parts h_mem h_fab h_ras h_dict
    | with_reducible refine retire_only ?_ h_out h_free h_parts h_rings h_mem h_fab h_ras h_dict
    | with_reducible refine fst_only (by assumption) ?_
    | split
    | dsimp only
    )

theorem offerLoop_only {gs : List Group} {s b : State} {p r n} (hs : OnlyTouches gs s b) (h_out : Group.out ∈ gs) (h_free : Group.free ∈ gs) (h_parts : Group.parts ∈ gs) (h_rings : Group.rings ∈ gs) (h_mem : Group.mem ∈ gs) (h_fab : Group.fab ∈ gs) (h_ras : Group.ras ∈ gs) (h_dict : Group.dict ∈ gs) :
    OnlyTouches gs s (offerLoop p r n b).1 := by
  induction n generalizing b with
  | zero => exact hs
  | succ n ih =>
    unfold offerLoop
    dsimp -zeta only
    extract_lets g h0 s1
    have h : OnlyTouches gs s s1 := stampOffer_only hs h_rings
    clear_value g s1
    iterate 16 all_goals (try first
      | with_reducible exact hs
      | with_reducible exact h
      | with_reducible exact faultRing_only hs h_rings
      | with_reducible exact ih (retire_only h h_out h_free h_parts h_rings h_mem h_fab h_ras h_dict)
      | with_reducible exact ih (withdrawSlice_only h h_out h_free h_parts h_rings h_mem h_fab h_ras h_dict)
      | with_reducible exact ih (rejectSlice_only h h_out h_free h_parts h_rings h_mem h_fab h_ras h_dict)
      | with_reducible exact ih (retire_only (countConds_only h h_out h_free h_parts h_mem h_ras h_dict) h_out h_free h_parts h_rings h_mem h_fab h_ras h_dict)
      | split
      | dsimp only
      )

theorem readTail_only {gs : List Group} {s : State} {a0 a1 a2} (hs : OnlyTouches gs s a2) (h_out : Group.out ∈ gs) (h_free : Group.free ∈ gs) (h_parts : Group.parts ∈ gs) (h_rings : Group.rings ∈ gs) (h_mem : Group.mem ∈ gs) (h_ras : Group.ras ∈ gs) (h_dict : Group.dict ∈ gs) :
    OnlyTouches gs s (readTail a0 a1 a2) := by
  unfold readTail
  iterate 40 all_goals (try first
    | with_reducible assumption
    | with_reducible refine State_updRing_only ?_ h_rings
    | with_reducible refine countConds_only ?_ h_out h_free h_parts h_mem h_ras h_dict
    | split
    | dsimp only
    )

theorem offerAll_only {gs : List Group} {s : State} {a0} (hs : OnlyTouches gs s a0) (h_out : Group.out ∈ gs) (h_free : Group.free ∈ gs) (h_parts : Group.parts ∈ gs) (h_rings : Group.rings ∈ gs) (h_mem : Group.mem ∈ gs) (h_fab : Group.fab ∈ gs) (h_ras : Group.ras ∈ gs) (h_dict : Group.dict ∈ gs) :
    OnlyTouches gs s (offerAll a0).1 := by
  unfold offerAll
  iterate 40 all_goals (try first
    | with_reducible assumption
    | with_reducible refine offerLoop_only ?_ h_out h_free h_parts h_rings h_mem h_fab h_ras h_dict
    | with_reducible refine readTail_only ?_ h_out h_free h_parts h_rings h_mem h_ras h_dict
    | with_reducible refine fst_only (by assumption) ?_
    | with_reducible refine foldl_only (fun u x hu => ?_) ?_
    | with_reducible refine foldl_fst_only (fun u x hu => ?_) ?_
    | split
    )

theorem payOwed_only {gs : List Group} {s : State} {a0} (hs : OnlyTouches gs s a0) (h_out : Group.out ∈ gs) (h_free : Group.free ∈ gs) (h_parts : Group.parts ∈ gs) (h_rings : Group.rings ∈ gs) (h_mem : Group.mem ∈ gs) (h_fab : Group.fab ∈ gs) (h_ras : Group.ras ∈ gs) (h_dict : Group.dict ∈ gs) :
    OnlyTouches gs s (payOwed a0) := by
  unfold payOwed
  iterate 40 all_goals (try first
    | with_reducible assumption
    | with_reducible refine State_updRing_only ?_ h_rings
    | with_reducible refine faultRing_only ?_ h_rings
    | with_reducible refine countConds_only ?_ h_out h_free h_parts h_mem h_ras h_dict
    | with_reducible refine putRecord_only ?_ h_out h_free h_parts h_mem h_fab h_ras h_dict
    | with_reducible refine fst_only (by assumption) ?_
    | with_reducible refine foldl_only (fun u x hu => ?_) ?_
    | with_reducible refine foldl_fst_only (fun u x hu => ?_) ?_
    | split
    | dsimp only
    )

theorem gateArrays_only {gs : List Group} {s : State} {a0} (hs : OnlyTouches gs s a0) (h_arrays : Group.arrays ∈ gs) :
    OnlyTouches gs s (gateArrays a0) := by
  unfold gateArrays
  iterate 40 all_goals (try first
    | with_reducible assumption
    | split
    | dsimp only
    | with_reducible refine OnlyTouches.upd ?_ rfl (.inr rfl) (.inr rfl) (.inr rfl) (.inr rfl) (.inr rfl) (.inr rfl) (.inl h_arrays) (.inr rfl) (.inr rfl) (.inr rfl) (.inr rfl) (.inr rfl) (.inr rfl) (.inr rfl) (.inr rfl) (.inr rfl) (.inr rfl) (.inr rfl)
    )

theorem step7_only {gs : List Group} {s : State} {a0} (hs : OnlyTouches gs s a0) (h_out : Group.out ∈ gs) (h_free : Group.free ∈ gs) (h_gov : Group.gov ∈ gs) (h_parts : Group.parts ∈ gs) (h_rings : Group.rings ∈ gs) (h_arrays : Group.arrays ∈ gs) (h_mem : Group.mem ∈ gs) (h_fab : Group.fab ∈ gs) (h_ras : Group.ras ∈ gs) (h_dict : Group.dict ∈ gs) :
    OnlyTouches gs s (step7 a0) := by
  unfold step7
  iterate 40 all_goals (try first
    | with_reducible assumption
    | with_reducible refine offerAll_only ?_ h_out h_free h_parts h_rings h_mem h_fab h_ras h_dict
    | with_reducible refine payOwed_only ?_ h_out h_free h_parts h_rings h_mem h_fab h_ras h_dict
    | with_reducible refine admitAll_only ?_ h_out h_free h_gov h_parts h_rings h_mem h_ras h_dict
    | with_reducible refine gateArrays_only ?_ h_arrays
    | with_reducible refine fst_only (by assumption) ?_
    | split
    | dsimp only
    | with_reducible refine OnlyTouches.upd ?_ rfl (.inl h_out) (.inl h_free) (.inr rfl) (.inl h_gov) (.inl h_parts) (.inl h_rings) (.inl h_arrays) (.inl h_mem) (.inl h_fab) (.inr rfl) (.inr rfl) (.inr rfl) (.inl h_ras) (.inr rfl) (.inl h_dict) (.inr rfl) (.inr rfl) (.inr rfl)
    )

theorem testSwaps_only {gs : List Group} {s : State} {a0} (hs : OnlyTouches gs s a0) (h_ras : Group.ras ∈ gs) :
    OnlyTouches gs s (testSwaps a0) := by
  unfold testSwaps
  iterate 40 all_goals (try first
    | with_reducible assumption
    | with_reducible refine foldl_only (fun u x hu => ?_) ?_
    | with_reducible refine foldl_fst_only (fun u x hu => ?_) ?_
    | split
    | dsimp only
    | with_reducible refine OnlyTouches.upd ?_ rfl (.inr rfl) (.inr rfl) (.inr rfl) (.inr rfl) (.inr rfl) (.inr rfl) (.inr rfl) (.inr rfl) (.inr rfl) (.inr rfl) (.inr rfl) (.inr rfl) (.inl h_ras) (.inr rfl) (.inr rfl) (.inr rfl) (.inr rfl) (.inr rfl)
    )

theorem sendAnnounce_only {gs : List Group} {s : State} {a0} (hs : OnlyTouches gs s a0) (h_out : Group.out ∈ gs) (h_fab : Group.fab ∈ gs) :
    OnlyTouches gs s (sendAnnounce a0) := by
  unfold sendAnnounce
  iterate 40 all_goals (try first
    | with_reducible assumption
    | with_reducible refine State_emit_only ?_ h_out
    | with_reducible refine sendTicks_only ?_ h_fab
    | split
    )

theorem takeLimits_only {gs : List Group} {s : State} {a0} (hs : OnlyTouches gs s a0) (h_gov : Group.gov ∈ gs) :
    OnlyTouches gs s (takeLimits a0) := by
  unfold takeLimits
  iterate 40 all_goals (try first
    | with_reducible assumption
    | split
    | dsimp only
    | with_reducible refine OnlyTouches.upd ?_ rfl (.inr rfl) (.inr rfl) (.inr rfl) (.inl h_gov) (.inr rfl) (.inr rfl) (.inr rfl) (.inr rfl) (.inr rfl) (.inr rfl) (.inr rfl) (.inr rfl) (.inr rfl) (.inr rfl) (.inr rfl) (.inr rfl) (.inr rfl) (.inr rfl)
    )

theorem learnBase_only {gs : List Group} {s : State} {a0 a1 a2 a3} (hs : OnlyTouches gs s a3) (h_gov : Group.gov ∈ gs) :
    OnlyTouches gs s (learnBase a0 a1 a2 a3) := by
  unfold learnBase
  iterate 40 all_goals (try first
    | with_reducible assumption
    | with_reducible refine foldl_only (fun u x hu => ?_) ?_
    | with_reducible refine foldl_fst_only (fun u x hu => ?_) ?_
    | split
    | dsimp only
    | with_reducible refine OnlyTouches.upd ?_ rfl (.inr rfl) (.inr rfl) (.inr rfl) (.inl h_gov) (.inr rfl) (.inr rfl) (.inr rfl) (.inr rfl) (.inr rfl) (.inr rfl) (.inr rfl) (.inr rfl) (.inr rfl) (.inr rfl) (.inr rfl) (.inr rfl) (.inr rfl) (.inr rfl)
    )

theorem measure_only {gs : List Group} {s : State} {a0 a1} (hs : OnlyTouches gs s a1) (h_gov : Group.gov ∈ gs) (h_dict : Group.dict ∈ gs) :
    OnlyTouches gs s (measure a0 a1) := by
  unfold measure
  iterate 40 all_goals (try first
    | with_reducible assumption
    | split
    | dsimp only
    | with_reducible refine OnlyTouches.upd ?_ rfl (.inr rfl) (.inr rfl) (.inr rfl) (.inl h_gov) (.inr rfl) (.inr rfl) (.inr rfl) (.inr rfl) (.inr rfl) (.inr rfl) (.inr rfl) (.inr rfl) (.inr rfl) (.inr rfl) (.inl h_dict) (.inr rfl) (.inr rfl) (.inr rfl)
    )

theorem setTemp_only {gs : List Group} {s : State} {a0 a1 a2} (hs : OnlyTouches gs s a2) (h_out : Group.out ∈ gs) (h_dict : Group.dict ∈ gs) (h_pow : Group.pow ∈ gs) :
    OnlyTouches gs s (setTemp a0 a1 a2) := by
  unfold setTemp
  iterate 40 all_goals (try first
    | with_reducible assumption
    | with_reducible refine thermalCause_only ?_ h_out h_dict
    | split
    | dsimp only
    | with_reducible refine OnlyTouches.upd ?_ rfl (.inl h_out) (.inr rfl) (.inr rfl) (.inr rfl) (.inr rfl) (.inr rfl) (.inr rfl) (.inr rfl) (.inr rfl) (.inr rfl) (.inr rfl) (.inr rfl) (.inr rfl) (.inr rfl) (.inl h_dict) (.inr rfl) (.inl h_pow) (.inr rfl)
    )

theorem readSensors_only {gs : List Group} {s : State} {a0 a1} (hs : OnlyTouches gs s a1) (h_out : Group.out ∈ gs) (h_mem : Group.mem ∈ gs) (h_dict : Group.dict ∈ gs) (h_pow : Group.pow ∈ gs) :
    OnlyTouches gs s (readSensors a0 a1) := by
  unfold readSensors
  iterate 40 all_goals (try first
    | with_reducible assumption
    | with_reducible refine setTemp_only ?_ h_out h_dict h_pow
    | with_reducible refine foldl_only (fun u x hu => ?_) ?_
    | with_reducible refine foldl_fst_only (fun u x hu => ?_) ?_
    | split
    | dsimp only
    | with_reducible refine OnlyTouches.upd ?_ rfl (.inl h_out) (.inr rfl) (.inr rfl) (.inr rfl) (.inr rfl) (.inr rfl) (.inr rfl) (.inl h_mem) (.inr rfl) (.inr rfl) (.inr rfl) (.inr rfl) (.inr rfl) (.inr rfl) (.inl h_dict) (.inr rfl) (.inl h_pow) (.inr rfl)
    )

theorem issueBudget_only {gs : List Group} {s : State} {a0} (hs : OnlyTouches gs s a0) (h_gov : Group.gov ∈ gs) :
    OnlyTouches gs s (issueBudget a0) := by
  unfold issueBudget
  iterate 40 all_goals (try first
    | with_reducible assumption
    | split
    | dsimp only
    | with_reducible refine OnlyTouches.upd ?_ rfl (.inr rfl) (.inr rfl) (.inr rfl) (.inl h_gov) (.inr rfl) (.inr rfl) (.inr rfl) (.inr rfl) (.inr rfl) (.inr rfl) (.inr rfl) (.inr rfl) (.inr rfl) (.inr rfl) (.inr rfl) (.inr rfl) (.inr rfl) (.inr rfl)
    )

theorem step6_only {gs : List Group} {s : State} {a0 a1 a2} (hs : OnlyTouches gs s a2) (h_out : Group.out ∈ gs) (h_gov : Group.gov ∈ gs) (h_mem : Group.mem ∈ gs) (h_dict : Group.dict ∈ gs) (h_pow : Group.pow ∈ gs) :
    OnlyTouches gs s (step6 a0 a1 a2) := by
  unfold step6
  iterate 40 all_goals (try first
    | with_reducible assumption
    | with_reducible refine takeLimits_only ?_ h_gov
    | with_reducible refine learnBase_only ?_ h_gov
    | with_reducible refine measure_only ?_ h_gov h_dict
    | with_reducible refine readSensors_only ?_ h_out h_mem h_dict h_pow
    | with_reducible refine issueBudget_only ?_ h_gov
    )

theorem latchAll_only {gs : List Group} {s : State} {a0} (hs : OnlyTouches gs s a0) (h_tick : Group.tick ∈ gs) (h_parts : Group.parts ∈ gs) (h_mem : Group.mem ∈ gs) (h_fab : Group.fab ∈ gs) (h_bind : Group.bind ∈ gs) (h_dict : Group.dict ∈ gs) :
    OnlyTouches gs s (latchAll a0) := by
  unfold latchAll
  iterate 40 all_goals (try first
    | with_reducible assumption
    | split
    | dsimp only
    | with_reducible refine OnlyTouches.upd ?_ rfl (.inr rfl) (.inr rfl) (.inl h_tick) (.inr rfl) (.inl h_parts) (.inr rfl) (.inr rfl) (.inl h_mem) (.inl h_fab) (.inr rfl) (.inl h_bind) (.inr rfl) (.inr rfl) (.inr rfl) (.inl h_dict) (.inr rfl) (.inr rfl) (.inr rfl)
    )

theorem strobe_only {gs : List Group} {s : State} {a0 a1 a2 a3} (hs : OnlyTouches gs s a3) (h_out : Group.out ∈ gs) (h_lh : Group.lh ∈ gs) (h_dict : Group.dict ∈ gs) :
    OnlyTouches gs s (strobe a0 a1 a2 a3) := by
  unfold strobe
  iterate 40 all_goals (try first
    | with_reducible assumption
    | with_reducible refine emitRecord_only ?_ h_out h_lh h_dict
    | split
    )

theorem stepMemory_only {gs : List Group} {s : State} {a0} (hs : OnlyTouches gs s a0) (h_out : Group.out ∈ gs) (h_free : Group.free ∈ gs) (h_parts : Group.parts ∈ gs) (h_mem : Group.mem ∈ gs) (h_fab : Group.fab ∈ gs) (h_ras : Group.ras ∈ gs) (h_dict : Group.dict ∈ gs) :
    OnlyTouches gs s (stepMemory a0) := by
  unfold stepMemory
  iterate 40 all_goals (try first
    | with_reducible assumption
    | with_reducible refine State_putWrites_only ?_ h_out h_free h_parts h_mem h_fab h_ras h_dict
    )

theorem sendDepart_only {gs : List Group} {s : State} {a0 a1} (hs : OnlyTouches gs s a1) (h_out : Group.out ∈ gs) (h_fab : Group.fab ∈ gs) (h_bind : Group.bind ∈ gs) :
    OnlyTouches gs s (sendDepart a0 a1) := by
  unfold sendDepart
  iterate 40 all_goals (try first
    | with_reducible assumption
    | with_reducible refine updElastic_only ?_ h_bind
    | with_reducible refine queueRequest_only ?_ h_bind
    | with_reducible refine sendHeads_only ?_ h_out h_fab
    | split
    )

theorem inherit_only {gs : List Group} {s : State} {a0 a1 a2} (hs : OnlyTouches gs s a2) (h_out : Group.out ∈ gs) (h_free : Group.free ∈ gs) (h_parts : Group.parts ∈ gs) (h_mem : Group.mem ∈ gs) (h_fab : Group.fab ∈ gs) (h_bind : Group.bind ∈ gs) (h_ras : Group.ras ∈ gs) (h_dict : Group.dict ∈ gs) :
    OnlyTouches gs s (inherit a0 a1 a2) := by
  unfold inherit
  iterate 40 all_goals (try first
    | with_reducible assumption
    | with_reducible refine updSession_only ?_ h_bind
    | with_reducible refine tryClose_only ?_ h_out h_free h_parts h_mem h_fab h_bind h_ras h_dict
    | with_reducible refine updLayer_only ?_ h_bind
    | split
    | dsimp only
    )

theorem rosterTick_only {gs : List Group} {s : State} {a0 a1 a2} (hs : OnlyTouches gs s a2) (h_out : Group.out ∈ gs) (h_free : Group.free ∈ gs) (h_parts : Group.parts ∈ gs) (h_mem : Group.mem ∈ gs) (h_fab : Group.fab ∈ gs) (h_bind : Group.bind ∈ gs) (h_ras : Group.ras ∈ gs) (h_dict : Group.dict ∈ gs) :
    OnlyTouches gs s (rosterTick a0 a1 a2) := by
  unfold rosterTick
  iterate 40 all_goals (try first
    | with_reducible assumption
    | with_reducible refine deputySteps_only ?_ h_bind
    | with_reducible refine declare_only ?_ h_out h_fab h_bind
    | with_reducible refine applyRoster_only ?_ h_out h_free h_parts h_mem h_fab h_bind h_ras h_dict
    | with_reducible refine sendDepart_only ?_ h_out h_fab h_bind
    | with_reducible refine inherit_only ?_ h_out h_free h_parts h_mem h_fab h_bind h_ras h_dict
    | with_reducible refine dropFilling_only ?_ h_bind
    | with_reducible refine foldl_only (fun u x hu => ?_) ?_
    | with_reducible refine foldl_fst_only (fun u x hu => ?_) ?_
    | split
    )

theorem treeAdd_only {gs : List Group} {s : State} {a0} (hs : OnlyTouches gs s a0) (h_bind : Group.bind ∈ gs) :
    OnlyTouches gs s (treeAdd a0) := by
  unfold treeAdd
  iterate 40 all_goals (try first
    | with_reducible assumption
    | split
    | dsimp only
    | with_reducible refine OnlyTouches.upd ?_ rfl (.inr rfl) (.inr rfl) (.inr rfl) (.inr rfl) (.inr rfl) (.inr rfl) (.inr rfl) (.inr rfl) (.inr rfl) (.inr rfl) (.inl h_bind) (.inr rfl) (.inr rfl) (.inr rfl) (.inr rfl) (.inr rfl) (.inr rfl) (.inr rfl)
    )

theorem stepSessions_only {gs : List Group} {s : State} {a0} (hs : OnlyTouches gs s a0) (h_out : Group.out ∈ gs) (h_free : Group.free ∈ gs) (h_parts : Group.parts ∈ gs) (h_mem : Group.mem ∈ gs) (h_fab : Group.fab ∈ gs) (h_bind : Group.bind ∈ gs) (h_ras : Group.ras ∈ gs) (h_dict : Group.dict ∈ gs) :
    OnlyTouches gs s (stepSessions a0) := by
  unfold stepSessions
  iterate 40 all_goals (try first
    | with_reducible assumption
    | with_reducible refine rosterTick_only ?_ h_out h_free h_parts h_mem h_fab h_bind h_ras h_dict
    | with_reducible refine treeAdd_only ?_ h_bind
    | with_reducible refine applyRates_only ?_ h_bind
    | with_reducible refine foldl_only (fun u x hu => ?_) ?_
    )

theorem step4_only {gs : List Group} {s : State} {a0} (hs : OnlyTouches gs s a0) (h_out : Group.out ∈ gs) (h_free : Group.free ∈ gs) (h_gov : Group.gov ∈ gs) (h_parts : Group.parts ∈ gs) (h_rings : Group.rings ∈ gs) (h_mem : Group.mem ∈ gs) (h_fab : Group.fab ∈ gs) (h_keys : Group.keys ∈ gs) (h_bind : Group.bind ∈ gs) (h_life : Group.life ∈ gs) (h_ras : Group.ras ∈ gs) (h_dict : Group.dict ∈ gs) :
    OnlyTouches gs s (step4 a0) := by
  unfold step4
  iterate 40 all_goals (try first
    | with_reducible assumption
    | with_reducible refine stepMemory_only ?_ h_out h_free h_parts h_mem h_fab h_ras h_dict
    | with_reducible refine finishRemovals_only ?_ h_out h_free h_parts h_rings h_mem h_fab h_keys h_life h_ras h_dict
    | with_reducible refine dropLost_only ?_ h_parts h_ras
    | with_reducible refine openDebug_only ?_ h_life
    | with_reducible refine stepSessions_only ?_ h_out h_free h_parts h_mem h_fab h_bind h_ras h_dict
    | with_reducible refine applyQuota_only ?_ h_out h_free h_parts h_mem h_fab h_ras h_dict
    | with_reducible refine becomeCreated_only ?_ h_gov h_parts h_rings h_mem
    | with_reducible refine foldl_only (fun u x hu => ?_) ?_
    | with_reducible refine foldl_fst_only (fun u x hu => ?_) ?_
    | split
    )

theorem frameTick_only {gs : List Group} {s b : State} {x} (hs : OnlyTouches gs s b) (h_out : Group.out ∈ gs) (h_free : Group.free ∈ gs) (h_tick : Group.tick ∈ gs) (h_gov : Group.gov ∈ gs) (h_parts : Group.parts ∈ gs) (h_rings : Group.rings ∈ gs) (h_arrays : Group.arrays ∈ gs) (h_mem : Group.mem ∈ gs) (h_fab : Group.fab ∈ gs) (h_keys : Group.keys ∈ gs) (h_bind : Group.bind ∈ gs) (h_life : Group.life ∈ gs) (h_ras : Group.ras ∈ gs) (h_lh : Group.lh ∈ gs) (h_dict : Group.dict ∈ gs) (h_pow : Group.pow ∈ gs) :
    OnlyTouches gs s (frameTick x b) := by
  unfold frameTick
  have h1 : OnlyTouches gs s (settleAdmission b) := settleAdmission_only hs h_out h_free h_gov h_parts h_rings h_mem h_ras h_dict
  have h2 := @endAll_only gs s x _ h1 h_out h_free h_parts h_rings h_arrays h_mem h_fab h_bind h_ras h_dict
  have h3 : ∀ c u, OnlyTouches gs s u → OnlyTouches gs s (latchAll (addEnergy x (closeAll c u))) := fun c u hu =>
    latchAll_only (addEnergy_only (closeAll_only hu h_out h_free h_parts h_rings h_mem h_fab h_bind h_ras h_dict) h_parts h_dict) h_tick h_parts h_mem h_fab h_bind h_dict
  have h4 : ∀ e l a u, OnlyTouches gs s u → OnlyTouches gs s (sendAnnounce (reachSuccessors x (advanceFrame (strobe e l a u)))) := fun e l a u hu =>
    sendAnnounce_only (reachSuccessors_only (advanceFrame_only (strobe_only hu h_out h_lh h_dict) h_tick) h_tick) h_out h_fab
  have h5 : ∀ v u, OnlyTouches gs s u → OnlyTouches gs s (if u.pow.mod = .active then u.putWrites v else u) := fun v u hu => by
    split
    · exact State_putWrites_only hu h_out h_free h_parts h_mem h_fab h_ras h_dict
    · exact hu
  exact settle_only (windowEnd_only (step7_only (step6_only (testSwaps_only (step4_only (h5 _ _ (h4 _ _ _ _ (h3 _ _ h2))) h_out h_free h_gov h_parts h_rings h_mem h_fab h_keys h_bind h_life h_ras h_dict) h_ras) h_out h_gov h_mem h_dict h_pow)
    h_out h_free h_gov h_parts h_rings h_arrays h_mem h_fab h_ras h_dict) h_tick h_gov h_parts h_rings h_arrays h_mem h_fab h_keys h_bind h_ras h_dict h_pow) h_tick h_gov h_parts h_rings h_arrays h_mem h_fab h_keys h_bind h_ras h_dict h_pow

theorem hbmRepair_only {gs : List Group} {s : State} {a0 a1 a2 a3} (hs : OnlyTouches gs s a3) (h_free : Group.free ∈ gs) (h_ras : Group.ras ∈ gs) :
    OnlyTouches gs s (hbmRepair a0 a1 a2 a3) := by
  unfold hbmRepair
  iterate 40 all_goals (try first
    | with_reducible assumption
    | split
    | dsimp only
    | with_reducible refine OnlyTouches.upd ?_ rfl (.inr rfl) (.inl h_free) (.inr rfl) (.inr rfl) (.inr rfl) (.inr rfl) (.inr rfl) (.inr rfl) (.inr rfl) (.inr rfl) (.inr rfl) (.inr rfl) (.inl h_ras) (.inr rfl) (.inr rfl) (.inr rfl) (.inr rfl) (.inr rfl)
    )

theorem heartbeat_only {gs : List Group} {s : State} {a0 a1 a2} (hs : OnlyTouches gs s a2) (h_out : Group.out ∈ gs) (h_fab : Group.fab ∈ gs) :
    OnlyTouches gs s (heartbeat a0 a1 a2) := by
  unfold heartbeat
  iterate 40 all_goals (try first
    | with_reducible assumption
    | with_reducible refine sendAck_only ?_ h_out h_fab
    | split
    )

theorem helloIn_only {gs : List Group} {s : State} {a0 a1} (hs : OnlyTouches gs s a1) (h_out : Group.out ∈ gs) (h_free : Group.free ∈ gs) (h_parts : Group.parts ∈ gs) (h_mem : Group.mem ∈ gs) (h_fab : Group.fab ∈ gs) (h_ras : Group.ras ∈ gs) (h_dict : Group.dict ∈ gs) :
    OnlyTouches gs s (helloIn a0 a1) := by
  unfold helloIn
  iterate 40 all_goals (try first
    | with_reducible assumption
    | with_reducible refine dropHs_only ?_ h_fab
    | with_reducible refine State_entropy_only ?_ h_free
    | with_reducible refine hsFail_only ?_ h_out h_free h_parts h_mem h_fab h_ras h_dict
    | with_reducible refine sendHandshake_only ?_ h_out h_fab
    | with_reducible refine snd_only (by assumption) ?_
    | split
    | dsimp only
    | with_reducible refine OnlyTouches.upd ?_ rfl (.inl h_out) (.inl h_free) (.inr rfl) (.inr rfl) (.inl h_parts) (.inr rfl) (.inr rfl) (.inl h_mem) (.inl h_fab) (.inr rfl) (.inr rfl) (.inr rfl) (.inl h_ras) (.inr rfl) (.inl h_dict) (.inr rfl) (.inr rfl) (.inr rfl)
    )

theorem holdReset_only {gs : List Group} {s : State} {a0} (hs : OnlyTouches gs s a0) (h_free : Group.free ∈ gs) (h_tick : Group.tick ∈ gs) (h_gov : Group.gov ∈ gs) (h_parts : Group.parts ∈ gs) (h_rings : Group.rings ∈ gs) (h_arrays : Group.arrays ∈ gs) (h_mem : Group.mem ∈ gs) (h_fab : Group.fab ∈ gs) (h_keys : Group.keys ∈ gs) (h_bind : Group.bind ∈ gs) (h_life : Group.life ∈ gs) (h_ras : Group.ras ∈ gs) (h_lh : Group.lh ∈ gs) (h_dict : Group.dict ∈ gs) (h_side : Group.side ∈ gs) (h_pow : Group.pow ∈ gs) (h_fw : Group.fw ∈ gs) :
    OnlyTouches gs s (holdReset a0) := by
  unfold holdReset
  iterate 40 all_goals (try first
    | with_reducible assumption
    | with_reducible refine resetAll_only ?_ h_free h_tick h_gov h_parts h_rings h_arrays h_mem h_fab h_keys h_bind h_life h_ras h_lh h_dict h_side h_pow h_fw
    | split
    | dsimp only
    | with_reducible refine OnlyTouches.upd ?_ rfl (.inr rfl) (.inl h_free) (.inl h_tick) (.inl h_gov) (.inl h_parts) (.inl h_rings) (.inl h_arrays) (.inl h_mem) (.inl h_fab) (.inl h_keys) (.inl h_bind) (.inl h_life) (.inl h_ras) (.inl h_lh) (.inl h_dict) (.inl h_side) (.inl h_pow) (.inl h_fw)
    )

theorem hostConfig_only {gs : List Group} {s : State} {a0 a1 a2} (hs : OnlyTouches gs s a2) (h_out : Group.out ∈ gs) (h_fab : Group.fab ∈ gs) :
    OnlyTouches gs s (hostConfig a0 a1 a2) := by
  unfold hostConfig
  iterate 40 all_goals (try first
    | with_reducible assumption
    | with_reducible refine State_updStrait_only ?_ h_fab
    | with_reducible refine State_emit_only ?_ h_out
    | split
    )

theorem hostFail_only {gs : List Group} {s : State} {a0 a1 a2 a3 a4 a5} (hs : OnlyTouches gs s a5) (h_out : Group.out ∈ gs) (h_free : Group.free ∈ gs) (h_parts : Group.parts ∈ gs) (h_mem : Group.mem ∈ gs) (h_fab : Group.fab ∈ gs) (h_ras : Group.ras ∈ gs) (h_dict : Group.dict ∈ gs) :
    OnlyTouches gs s (hostFail a0 a1 a2 a3 a4 a5) := by
  unfold hostFail
  iterate 40 all_goals (try first
    | with_reducible assumption
    | with_reducible refine waitHost_only ?_ h_fab
    | with_reducible refine State_putVM_only ?_ h_out h_free h_parts h_mem h_ras h_dict
    | with_reducible refine State_emit_only ?_ h_out
    | split
    | dsimp only
    )

theorem ideFailed_only {gs : List Group} {s : State} {a0 a1} (hs : OnlyTouches gs s a1) (h_fab : Group.fab ∈ gs) :
    OnlyTouches gs s (ideFailed a0 a1) := by
  unfold ideFailed
  iterate 40 all_goals (try first
    | with_reducible assumption
    | with_reducible refine State_updStrait_only ?_ h_fab
    )

theorem readLocal_only {gs : List Group} {s : State} {a0 a1 a2 a3 a4} (hs : OnlyTouches gs s a4) (h_out : Group.out ∈ gs) (h_free : Group.free ∈ gs) (h_parts : Group.parts ∈ gs) (h_mem : Group.mem ∈ gs) (h_fab : Group.fab ∈ gs) (h_ras : Group.ras ∈ gs) (h_dict : Group.dict ∈ gs) :
    OnlyTouches gs s (readLocal a0 a1 a2 a3 a4) := by
  unfold readLocal
  iterate 40 all_goals (try first
    | with_reducible assumption
    | with_reducible refine State_putVM_only ?_ h_out h_free h_parts h_mem h_ras h_dict
    | with_reducible refine completeHost_only ?_ h_out h_fab
    | with_reducible refine hostFail_only ?_ h_out h_free h_parts h_mem h_fab h_ras h_dict
    | split
    | dsimp only
    )

theorem readRemote_only {gs : List Group} {s : State} {a0 a1 a2 a3 a4} (hs : OnlyTouches gs s a4) (h_out : Group.out ∈ gs) (h_free : Group.free ∈ gs) (h_parts : Group.parts ∈ gs) (h_mem : Group.mem ∈ gs) (h_fab : Group.fab ∈ gs) (h_ras : Group.ras ∈ gs) (h_dict : Group.dict ∈ gs) :
    OnlyTouches gs s (readRemote a0 a1 a2 a3 a4) := by
  unfold readRemote
  iterate 40 all_goals (try first
    | with_reducible assumption
    | with_reducible refine waitHost_only ?_ h_fab
    | with_reducible refine sendPkt_only ?_ h_out h_fab
    | with_reducible refine hostFail_only ?_ h_out h_free h_parts h_mem h_fab h_ras h_dict
    | with_reducible refine foldl_only (fun u x hu => ?_) ?_
    | with_reducible refine foldl_fst_only (fun u x hu => ?_) ?_
    | split
    | dsimp only
    | with_reducible refine OnlyTouches.upd ?_ rfl (.inl h_out) (.inl h_free) (.inr rfl) (.inr rfl) (.inl h_parts) (.inr rfl) (.inr rfl) (.inl h_mem) (.inl h_fab) (.inr rfl) (.inr rfl) (.inr rfl) (.inl h_ras) (.inr rfl) (.inl h_dict) (.inr rfl) (.inr rfl) (.inr rfl)
    )

theorem hostReadOp_only {gs : List Group} {s : State} {a0 a1 a2 a3 a4} (hs : OnlyTouches gs s a4) (h_out : Group.out ∈ gs) (h_free : Group.free ∈ gs) (h_parts : Group.parts ∈ gs) (h_mem : Group.mem ∈ gs) (h_fab : Group.fab ∈ gs) (h_ras : Group.ras ∈ gs) (h_dict : Group.dict ∈ gs) :
    OnlyTouches gs s (hostReadOp a0 a1 a2 a3 a4) := by
  unfold hostReadOp
  iterate 40 all_goals (try first
    | with_reducible assumption
    | with_reducible refine State_emit_only ?_ h_out
    | with_reducible refine ideFailed_only ?_ h_fab
    | with_reducible refine readLocal_only ?_ h_out h_free h_parts h_mem h_fab h_ras h_dict
    | with_reducible refine readRemote_only ?_ h_out h_free h_parts h_mem h_fab h_ras h_dict
    | split
    )

theorem hostTake_only {gs : List Group} {s : State} {a0 a1 a2 a3 a4} (hs : OnlyTouches gs s a4) (h_out : Group.out ∈ gs) (h_free : Group.free ∈ gs) (h_parts : Group.parts ∈ gs) (h_mem : Group.mem ∈ gs) (h_fab : Group.fab ∈ gs) (h_ras : Group.ras ∈ gs) (h_dict : Group.dict ∈ gs) :
    OnlyTouches gs s (hostTake a0 a1 a2 a3 a4) := by
  unfold hostTake
  iterate 40 all_goals (try first
    | with_reducible assumption
    | with_reducible refine State_putVM_only ?_ h_out h_free h_parts h_mem h_ras h_dict
    | split
    | dsimp only
    | with_reducible refine OnlyTouches.upd ?_ rfl (.inl h_out) (.inl h_free) (.inr rfl) (.inr rfl) (.inl h_parts) (.inr rfl) (.inr rfl) (.inl h_mem) (.inl h_fab) (.inr rfl) (.inr rfl) (.inr rfl) (.inl h_ras) (.inr rfl) (.inl h_dict) (.inr rfl) (.inr rfl) (.inr rfl)
    )

theorem notePosts_only {gs : List Group} {s : State} {a0 a1 a2} (hs : OnlyTouches gs s a2) (hs1 : OnlyTouches gs s a1) (h_fab : Group.fab ∈ gs) :
    OnlyTouches gs s (notePosts a0 a1 a2) := by
  unfold notePosts
  iterate 40 all_goals (try first
    | with_reducible assumption
    | split
    | dsimp only
    | with_reducible refine OnlyTouches.upd ?_ rfl (.inr rfl) (.inr rfl) (.inr rfl) (.inr rfl) (.inr rfl) (.inr rfl) (.inr rfl) (.inr rfl) (.inl h_fab) (.inr rfl) (.inr rfl) (.inr rfl) (.inr rfl) (.inr rfl) (.inr rfl) (.inr rfl) (.inr rfl) (.inr rfl)
    )

theorem writeLocal_only {gs : List Group} {s : State} {a0 a1 a2 a3 a4} (hs : OnlyTouches gs s a4) (h_out : Group.out ∈ gs) (h_free : Group.free ∈ gs) (h_parts : Group.parts ∈ gs) (h_mem : Group.mem ∈ gs) (h_fab : Group.fab ∈ gs) (h_ras : Group.ras ∈ gs) (h_dict : Group.dict ∈ gs) :
    OnlyTouches gs s (writeLocal a0 a1 a2 a3 a4) := by
  unfold writeLocal
  iterate 40 all_goals (try first
    | with_reducible assumption
    | with_reducible refine State_putVM_only ?_ h_out h_free h_parts h_mem h_ras h_dict
    | with_reducible refine State_putWrites_only ?_ h_out h_free h_parts h_mem h_fab h_ras h_dict
    | with_reducible refine State_emit_only ?_ h_out
    | with_reducible refine notePosts_only ?_ ?_ h_fab
    | with_reducible refine foldl_only (fun u x hu => ?_) ?_
    | with_reducible refine foldl_fst_only (fun u x hu => ?_) ?_
    | split
    | dsimp only
    | with_reducible refine OnlyTouches.upd ?_ rfl (.inl h_out) (.inl h_free) (.inr rfl) (.inr rfl) (.inl h_parts) (.inr rfl) (.inr rfl) (.inl h_mem) (.inl h_fab) (.inr rfl) (.inr rfl) (.inr rfl) (.inl h_ras) (.inr rfl) (.inl h_dict) (.inr rfl) (.inr rfl) (.inr rfl)
    )

theorem writeRemote_only {gs : List Group} {s : State} {a0 a1 a2 a3 a4} (hs : OnlyTouches gs s a4) (h_out : Group.out ∈ gs) (h_free : Group.free ∈ gs) (h_parts : Group.parts ∈ gs) (h_mem : Group.mem ∈ gs) (h_fab : Group.fab ∈ gs) (h_ras : Group.ras ∈ gs) (h_dict : Group.dict ∈ gs) :
    OnlyTouches gs s (writeRemote a0 a1 a2 a3 a4) := by
  unfold writeRemote
  iterate 40 all_goals (try first
    | with_reducible assumption
    | with_reducible refine State_putVM_only ?_ h_out h_free h_parts h_mem h_ras h_dict
    | with_reducible refine sendPkt_only ?_ h_out h_fab
    | with_reducible refine notePosts_only ?_ ?_ h_fab
    | with_reducible refine foldl_only (fun u x hu => ?_) ?_
    | with_reducible refine foldl_fst_only (fun u x hu => ?_) ?_
    | split
    | dsimp only
    | with_reducible refine OnlyTouches.upd ?_ rfl (.inl h_out) (.inl h_free) (.inr rfl) (.inr rfl) (.inl h_parts) (.inr rfl) (.inr rfl) (.inl h_mem) (.inl h_fab) (.inr rfl) (.inr rfl) (.inr rfl) (.inl h_ras) (.inr rfl) (.inl h_dict) (.inr rfl) (.inr rfl) (.inr rfl)
    )

theorem hostWriteOp_only {gs : List Group} {s : State} {a0 a1 a2 a3 a4} (hs : OnlyTouches gs s a4) (h_out : Group.out ∈ gs) (h_free : Group.free ∈ gs) (h_parts : Group.parts ∈ gs) (h_mem : Group.mem ∈ gs) (h_fab : Group.fab ∈ gs) (h_ras : Group.ras ∈ gs) (h_dict : Group.dict ∈ gs) :
    OnlyTouches gs s (hostWriteOp a0 a1 a2 a3 a4) := by
  unfold hostWriteOp
  iterate 40 all_goals (try first
    | with_reducible assumption
    | with_reducible refine writeLocal_only ?_ h_out h_free h_parts h_mem h_fab h_ras h_dict
    | with_reducible refine State_emit_only ?_ h_out
    | with_reducible refine writeRemote_only ?_ h_out h_free h_parts h_mem h_fab h_ras h_dict
    | with_reducible refine ideFailed_only ?_ h_fab
    | split
    )

theorem runImage_only {gs : List Group} {s : State} {a0 a1} (hs : OnlyTouches gs s a1) (h_free : Group.free ∈ gs) (h_tick : Group.tick ∈ gs) (h_gov : Group.gov ∈ gs) (h_parts : Group.parts ∈ gs) (h_rings : Group.rings ∈ gs) (h_arrays : Group.arrays ∈ gs) (h_mem : Group.mem ∈ gs) (h_fab : Group.fab ∈ gs) (h_keys : Group.keys ∈ gs) (h_bind : Group.bind ∈ gs) (h_ras : Group.ras ∈ gs) (h_dict : Group.dict ∈ gs) (h_pow : Group.pow ∈ gs) (h_fw : Group.fw ∈ gs) :
    OnlyTouches gs s (runImage a0 a1) := by
  unfold runImage
  iterate 40 all_goals (try first
    | with_reducible assumption
    | with_reducible refine beginStandby_only ?_ h_tick h_gov h_parts h_rings h_arrays h_mem h_fab h_keys h_bind h_ras h_dict h_pow
    | with_reducible refine startDies_only ?_ h_pow
    | with_reducible refine startFromStandby_only ?_ h_free h_mem h_keys h_pow
    | with_reducible refine startStraits_only ?_ h_fab
    | split
    | dsimp only
    | with_reducible refine OnlyTouches.upd ?_ rfl (.inr rfl) (.inl h_free) (.inl h_tick) (.inl h_gov) (.inl h_parts) (.inl h_rings) (.inl h_arrays) (.inl h_mem) (.inl h_fab) (.inl h_keys) (.inl h_bind) (.inr rfl) (.inl h_ras) (.inr rfl) (.inl h_dict) (.inr rfl) (.inl h_pow) (.inl h_fw)
    )

theorem imageCome_only {gs : List Group} {s : State} {a0 a1} (hs : OnlyTouches gs s a1) (h_out : Group.out ∈ gs) (h_free : Group.free ∈ gs) (h_tick : Group.tick ∈ gs) (h_gov : Group.gov ∈ gs) (h_parts : Group.parts ∈ gs) (h_rings : Group.rings ∈ gs) (h_arrays : Group.arrays ∈ gs) (h_mem : Group.mem ∈ gs) (h_fab : Group.fab ∈ gs) (h_keys : Group.keys ∈ gs) (h_bind : Group.bind ∈ gs) (h_ras : Group.ras ∈ gs) (h_dict : Group.dict ∈ gs) (h_pow : Group.pow ∈ gs) (h_fw : Group.fw ∈ gs) :
    OnlyTouches gs s (imageCome a0 a1) := by
  unfold imageCome
  iterate 40 all_goals (try first
    | with_reducible assumption
    | with_reducible refine fetchOn_only ?_ h_out h_free h_fab h_dict h_fw
    | with_reducible refine runImage_only ?_ h_free h_tick h_gov h_parts h_rings h_arrays h_mem h_fab h_keys h_bind h_ras h_dict h_pow h_fw
    | split
    | dsimp only
    | with_reducible refine OnlyTouches.upd ?_ rfl (.inl h_out) (.inl h_free) (.inl h_tick) (.inl h_gov) (.inl h_parts) (.inl h_rings) (.inl h_arrays) (.inl h_mem) (.inl h_fab) (.inl h_keys) (.inl h_bind) (.inr rfl) (.inl h_ras) (.inr rfl) (.inl h_dict) (.inr rfl) (.inl h_pow) (.inl h_fw)
    )

theorem keepChunk_only {gs : List Group} {s : State} {a0 a1 a2 a3 a4 a5 a6 a7} (hs : OnlyTouches gs s a7) (h_bind : Group.bind ∈ gs) :
    OnlyTouches gs s (keepChunk a0 a1 a2 a3 a4 a5 a6 a7) := by
  unfold keepChunk
  iterate 40 all_goals (try first
    | with_reducible assumption
    | with_reducible refine updSession_only ?_ h_bind
    | with_reducible refine updLayer_only ?_ h_bind
    | split
    | dsimp only
    )

theorem keeperAnswer_only {gs : List Group} {s : State} {a0 a1 a2 a3 a4 a5 a6} (hs : OnlyTouches gs s a6) (h_out : Group.out ∈ gs) (h_fab : Group.fab ∈ gs) :
    OnlyTouches gs s (keeperAnswer a0 a1 a2 a3 a4 a5 a6) := by
  unfold keeperAnswer
  iterate 40 all_goals (try first
    | with_reducible assumption
    | with_reducible refine sendRank_only ?_ h_out h_fab
    | with_reducible refine foldl_only (fun u x hu => ?_) ?_
    | with_reducible refine foldl_fst_only (fun u x hu => ?_) ?_
    | split
    )

theorem landRegion_only {gs : List Group} {s : State} {a0 a1 a2 a3 a4 a5} (hs : OnlyTouches gs s a5) (h_out : Group.out ∈ gs) (h_free : Group.free ∈ gs) (h_parts : Group.parts ∈ gs) (h_mem : Group.mem ∈ gs) (h_fab : Group.fab ∈ gs) (h_ras : Group.ras ∈ gs) (h_dict : Group.dict ∈ gs) :
    OnlyTouches gs s (landRegion a0 a1 a2 a3 a4 a5).1 := by
  unfold landRegion
  iterate 40 all_goals (try first
    | with_reducible assumption
    | with_reducible refine State_putVM_only ?_ h_out h_free h_parts h_mem h_ras h_dict
    | with_reducible refine State_putWrites_only ?_ h_out h_free h_parts h_mem h_fab h_ras h_dict
    | split
    | dsimp only
    | with_reducible refine OnlyTouches.upd ?_ rfl (.inl h_out) (.inl h_free) (.inr rfl) (.inr rfl) (.inl h_parts) (.inr rfl) (.inr rfl) (.inl h_mem) (.inl h_fab) (.inr rfl) (.inr rfl) (.inr rfl) (.inl h_ras) (.inr rfl) (.inl h_dict) (.inr rfl) (.inr rfl) (.inr rfl)
    )

theorem landRow_only {gs : List Group} {s : State} {a0 a1 a2 a3 a4} (hs : OnlyTouches gs s a4) (h_out : Group.out ∈ gs) (h_free : Group.free ∈ gs) (h_parts : Group.parts ∈ gs) (h_rings : Group.rings ∈ gs) (h_arrays : Group.arrays ∈ gs) (h_mem : Group.mem ∈ gs) (h_fab : Group.fab ∈ gs) (h_ras : Group.ras ∈ gs) (h_dict : Group.dict ∈ gs) :
    OnlyTouches gs s (landRow a0 a1 a2 a3 a4) := by
  unfold landRow
  iterate 40 all_goals (try first
    | with_reducible assumption
    | with_reducible refine dropRows_only ?_ h_arrays
    | with_reducible refine landRegion_only ?_ h_out h_free h_parts h_mem h_fab h_ras h_dict
    | with_reducible refine updEntry_only ?_ h_rings
    | with_reducible refine State_updArray_only ?_ h_arrays
    | with_reducible refine settleStop_only ?_ h_rings
    | with_reducible refine fst_only (by assumption) ?_
    | with_reducible refine foldl_only (fun u x hu => ?_) ?_
    | with_reducible refine foldl_fst_only (fun u x hu => ?_) ?_
    | split
    | dsimp only
    )

theorem lhAnswer_only {gs : List Group} {s : State} {m r} (hs : OnlyTouches gs s r.1) (h_out : Group.out ∈ gs) :
    OnlyTouches gs s (lhAnswer m r) := by
  unfold lhAnswer
  split
  · exact State_emit_only hs h_out
  · exact hs

theorem lhDown_only {gs : List Group} {s : State} {a0 a1} (hs : OnlyTouches gs s a1) (h_out : Group.out ∈ gs) (h_lh : Group.lh ∈ gs) (h_dict : Group.dict ∈ gs) :
    OnlyTouches gs s (lhDown a0 a1) := by
  unfold lhDown
  iterate 40 all_goals (try first
    | with_reducible assumption
    | with_reducible refine emitRecord_only ?_ h_out h_lh h_dict
    )

theorem lhRead_only {gs : List Group} {s : State} {a0 a1} (hs : OnlyTouches gs s a1) (h_out : Group.out ∈ gs) (h_dict : Group.dict ∈ gs) :
    OnlyTouches gs s (lhRead a0 a1) := by
  unfold lhRead
  iterate 40 all_goals (try first
    | with_reducible assumption
    | with_reducible refine lhAnswer_only ?_ h_out
    | with_reducible refine readFrom_only ?_ h_dict
    | with_reducible refine fst_only (by assumption) ?_
    | split
    )

theorem lhSilent_only {gs : List Group} {s : State} {a0} (hs : OnlyTouches gs s a0) (h_out : Group.out ∈ gs) (h_free : Group.free ∈ gs) (h_parts : Group.parts ∈ gs) (h_mem : Group.mem ∈ gs) (h_ras : Group.ras ∈ gs) (h_lh : Group.lh ∈ gs) (h_dict : Group.dict ∈ gs) :
    OnlyTouches gs s (lhSilent a0) := by
  unfold lhSilent
  iterate 40 all_goals (try first
    | with_reducible assumption
    | with_reducible refine State_putVM_only ?_ h_out h_free h_parts h_mem h_ras h_dict
    | split
    | dsimp only
    | with_reducible refine OnlyTouches.upd ?_ rfl (.inl h_out) (.inl h_free) (.inr rfl) (.inr rfl) (.inl h_parts) (.inr rfl) (.inr rfl) (.inl h_mem) (.inr rfl) (.inr rfl) (.inr rfl) (.inr rfl) (.inl h_ras) (.inl h_lh) (.inl h_dict) (.inr rfl) (.inr rfl) (.inr rfl)
    )

theorem lhUp_only {gs : List Group} {s : State} {a0} (hs : OnlyTouches gs s a0) (h_free : Group.free ∈ gs) (h_lh : Group.lh ∈ gs) :
    OnlyTouches gs s (lhUp a0) := by
  unfold lhUp
  iterate 40 all_goals (try first
    | with_reducible assumption
    | with_reducible refine freshCal_only ?_ h_free h_lh
    | with_reducible refine foldl_only (fun u x hu => ?_) ?_
    | with_reducible refine foldl_fst_only (fun u x hu => ?_) ?_
    | split
    | dsimp only
    | with_reducible refine OnlyTouches.upd ?_ rfl (.inr rfl) (.inl h_free) (.inr rfl) (.inr rfl) (.inr rfl) (.inr rfl) (.inr rfl) (.inr rfl) (.inr rfl) (.inr rfl) (.inr rfl) (.inr rfl) (.inr rfl) (.inl h_lh) (.inr rfl) (.inr rfl) (.inr rfl) (.inr rfl)
    )

theorem lhWrite_only {gs : List Group} {s : State} {a0 a1} (hs : OnlyTouches gs s a1) (h_out : Group.out ∈ gs) (h_lh : Group.lh ∈ gs) (h_dict : Group.dict ∈ gs) :
    OnlyTouches gs s (lhWrite a0 a1) := by
  unfold lhWrite
  iterate 40 all_goals (try first
    | with_reducible assumption
    | with_reducible refine updPer_only ?_ h_dict
    | with_reducible refine lhAnswer_only ?_ h_out
    | split
    | dsimp only
    | with_reducible refine OnlyTouches.upd ?_ rfl (.inl h_out) (.inr rfl) (.inr rfl) (.inr rfl) (.inr rfl) (.inr rfl) (.inr rfl) (.inr rfl) (.inr rfl) (.inr rfl) (.inr rfl) (.inr rfl) (.inr rfl) (.inl h_lh) (.inl h_dict) (.inr rfl) (.inr rfl) (.inr rfl)
    )

theorem loadTable_only {gs : List Group} {s : State} {a0 a1 a2 a3 a4 a5} (hs : OnlyTouches gs s a5) (h_out : Group.out ∈ gs) (h_free : Group.free ∈ gs) (h_parts : Group.parts ∈ gs) (h_rings : Group.rings ∈ gs) (h_arrays : Group.arrays ∈ gs) (h_mem : Group.mem ∈ gs) (h_fab : Group.fab ∈ gs) (h_ras : Group.ras ∈ gs) (h_dict : Group.dict ∈ gs) :
    OnlyTouches gs s (loadTable a0 a1 a2 a3 a4 a5) := by
  unfold loadTable
  iterate 40 all_goals (try first
    | with_reducible assumption
    | with_reducible refine updEntry_only ?_ h_rings
    | with_reducible refine State_updArray_only ?_ h_arrays
    | with_reducible refine sawPoison_only ?_ h_rings
    | with_reducible refine advanceMovers_only ?_ h_out h_free h_parts h_rings h_arrays h_mem h_fab h_ras h_dict
    | with_reducible refine countRemote_only ?_ h_parts
    )

theorem loadTile_only {gs : List Group} {s : State} {a0 a1 a2 a3 a4} (hs : OnlyTouches gs s a4) (h_out : Group.out ∈ gs) (h_free : Group.free ∈ gs) (h_parts : Group.parts ∈ gs) (h_rings : Group.rings ∈ gs) (h_arrays : Group.arrays ∈ gs) (h_mem : Group.mem ∈ gs) (h_fab : Group.fab ∈ gs) (h_ras : Group.ras ∈ gs) (h_dict : Group.dict ∈ gs) :
    OnlyTouches gs s (loadTile a0 a1 a2 a3 a4) := by
  unfold loadTile
  iterate 40 all_goals (try first
    | with_reducible assumption
    | with_reducible refine updEntry_only ?_ h_rings
    | with_reducible refine State_updArray_only ?_ h_arrays
    | with_reducible refine sawPoison_only ?_ h_rings
    | with_reducible refine advanceMovers_only ?_ h_out h_free h_parts h_rings h_arrays h_mem h_fab h_ras h_dict
    | with_reducible refine countRemote_only ?_ h_parts
    )

theorem loadVector_only {gs : List Group} {s : State} {a0 a1 a2 a3 a4 a5 a6} (hs : OnlyTouches gs s a6) (h_out : Group.out ∈ gs) (h_free : Group.free ∈ gs) (h_parts : Group.parts ∈ gs) (h_rings : Group.rings ∈ gs) (h_arrays : Group.arrays ∈ gs) (h_mem : Group.mem ∈ gs) (h_fab : Group.fab ∈ gs) (h_ras : Group.ras ∈ gs) (h_dict : Group.dict ∈ gs) :
    OnlyTouches gs s (loadVector a0 a1 a2 a3 a4 a5 a6) := by
  unfold loadVector
  iterate 40 all_goals (try first
    | with_reducible assumption
    | with_reducible refine updEntry_only ?_ h_rings
    | with_reducible refine sawPoison_only ?_ h_rings
    | with_reducible refine advanceMovers_only ?_ h_out h_free h_parts h_rings h_arrays h_mem h_fab h_ras h_dict
    | with_reducible refine countRemote_only ?_ h_parts
    )

theorem loseDie_only {gs : List Group} {s : State} {a0 a1} (hs : OnlyTouches gs s a1) (h_ras : Group.ras ∈ gs) (h_pow : Group.pow ∈ gs) :
    OnlyTouches gs s (loseDie a0 a1) := by
  unfold loseDie
  iterate 40 all_goals (try first
    | with_reducible assumption
    | split
    | dsimp only
    | with_reducible refine OnlyTouches.upd ?_ rfl (.inr rfl) (.inr rfl) (.inr rfl) (.inr rfl) (.inr rfl) (.inr rfl) (.inr rfl) (.inr rfl) (.inr rfl) (.inr rfl) (.inr rfl) (.inr rfl) (.inl h_ras) (.inr rfl) (.inr rfl) (.inr rfl) (.inl h_pow) (.inr rfl)
    )

theorem loseFlow_only {gs : List Group} {s : State} {a0 a1 a2 a3} (hs : OnlyTouches gs s a3) (h_out : Group.out ∈ gs) (h_free : Group.free ∈ gs) (h_parts : Group.parts ∈ gs) (h_mem : Group.mem ∈ gs) (h_fab : Group.fab ∈ gs) (h_ras : Group.ras ∈ gs) (h_dict : Group.dict ∈ gs) :
    OnlyTouches gs s (loseFlow a0 a1 a2 a3) := by
  unfold loseFlow
  iterate 40 all_goals (try first
    | with_reducible assumption
    | with_reducible refine setFlow_only ?_ h_fab
    | with_reducible refine endFlowOps_only ?_ h_out h_free h_parts h_mem h_fab h_ras h_dict
    )

theorem mailDone_only {gs : List Group} {s : State} {a0 a1 a2 a3} (hs : OnlyTouches gs s a3) (h_out : Group.out ∈ gs) :
    OnlyTouches gs s (mailDone a0 a1 a2 a3) := by
  unfold mailDone
  iterate 40 all_goals (try first
    | with_reducible assumption
    | with_reducible refine State_emit_only ?_ h_out
    )

theorem mailAway_only {gs : List Group} {s : State} {a0 a1 a2 a3 a4 a5} (hs : OnlyTouches gs s a5) (h_out : Group.out ∈ gs) (h_fab : Group.fab ∈ gs) :
    OnlyTouches gs s (mailAway a0 a1 a2 a3 a4 a5) := by
  unfold mailAway
  iterate 40 all_goals (try first
    | with_reducible assumption
    | with_reducible refine mailDone_only ?_ h_out
    | with_reducible refine sendPkt_only ?_ h_out h_fab
    | with_reducible refine State_emit_only ?_ h_out
    | split
    | dsimp only
    | with_reducible refine OnlyTouches.upd ?_ rfl (.inl h_out) (.inr rfl) (.inr rfl) (.inr rfl) (.inr rfl) (.inr rfl) (.inr rfl) (.inr rfl) (.inl h_fab) (.inr rfl) (.inr rfl) (.inr rfl) (.inr rfl) (.inr rfl) (.inr rfl) (.inr rfl) (.inr rfl) (.inr rfl)
    )

theorem mailGo_only {gs : List Group} {s : State} {a0 a1 a2 a3 a4 a5} (hs : OnlyTouches gs s a5) (h_out : Group.out ∈ gs) (h_free : Group.free ∈ gs) (h_tick : Group.tick ∈ gs) (h_gov : Group.gov ∈ gs) (h_parts : Group.parts ∈ gs) (h_rings : Group.rings ∈ gs) (h_arrays : Group.arrays ∈ gs) (h_mem : Group.mem ∈ gs) (h_fab : Group.fab ∈ gs) (h_keys : Group.keys ∈ gs) (h_bind : Group.bind ∈ gs) (h_life : Group.life ∈ gs) (h_ras : Group.ras ∈ gs) (h_lh : Group.lh ∈ gs) (h_dict : Group.dict ∈ gs) (h_side : Group.side ∈ gs) (h_pow : Group.pow ∈ gs) (h_fw : Group.fw ∈ gs) :
    OnlyTouches gs s (mailGo a0 a1 a2 a3 a4 a5) := by
  unfold mailGo
  iterate 40 all_goals (try first
    | with_reducible assumption
    | with_reducible refine mailDone_only ?_ h_out
    | with_reducible refine dictMessage_only ?_ h_out h_free h_tick h_gov h_parts h_rings h_arrays h_mem h_fab h_keys h_bind h_life h_ras h_lh h_dict h_side h_pow h_fw
    | with_reducible refine mailAway_only ?_ h_out h_fab
    | split
    | dsimp only
    )

theorem moverEnd_only {gs : List Group} {s : State} {a0 a1 a2 a3 a4} (hs : OnlyTouches gs s a4) (h_out : Group.out ∈ gs) (h_free : Group.free ∈ gs) (h_parts : Group.parts ∈ gs) (h_rings : Group.rings ∈ gs) (h_arrays : Group.arrays ∈ gs) (h_mem : Group.mem ∈ gs) (h_fab : Group.fab ∈ gs) (h_bind : Group.bind ∈ gs) (h_ras : Group.ras ∈ gs) (h_dict : Group.dict ∈ gs) :
    OnlyTouches gs s (moverEnd a0 a1 a2 a3 a4) := by
  unfold moverEnd
  iterate 40 all_goals (try first
    | with_reducible assumption
    | with_reducible refine copyTo_only ?_ h_out h_free h_parts h_rings h_arrays h_mem h_fab h_ras h_dict
    | with_reducible refine finishArray_only ?_ h_rings h_arrays
    | with_reducible refine updEntry_only ?_ h_rings
    | with_reducible refine flushRows_only ?_ h_bind
    | split
    )

theorem nextFlowKey_only {gs : List Group} {s : State} {a0 a1 a2 a3} (hs : OnlyTouches gs s a3) (h_free : Group.free ∈ gs) (h_keys : Group.keys ∈ gs) :
    OnlyTouches gs s (nextFlowKey a0 a1 a2 a3).1 := by
  unfold nextFlowKey
  iterate 40 all_goals (try first
    | with_reducible assumption
    | with_reducible refine addKey_only (by assumption) ?_ h_free h_keys
    | split
    )

theorem overdue_only {gs : List Group} {s : State} {a0 a1} (hs : OnlyTouches gs s a1) (h_out : Group.out ∈ gs) (h_lh : Group.lh ∈ gs) (h_dict : Group.dict ∈ gs) :
    OnlyTouches gs s (overdue a0 a1) := by
  unfold overdue
  iterate 40 all_goals (try first
    | with_reducible assumption
    | with_reducible refine emitRecord_only ?_ h_out h_lh h_dict
    )

theorem paramIn_only {gs : List Group} {s : State} {a0 a1 a2} (hs : OnlyTouches gs s a2) (h_out : Group.out ∈ gs) (h_free : Group.free ∈ gs) (h_parts : Group.parts ∈ gs) (h_mem : Group.mem ∈ gs) (h_fab : Group.fab ∈ gs) (h_bind : Group.bind ∈ gs) (h_ras : Group.ras ∈ gs) (h_dict : Group.dict ∈ gs) :
    OnlyTouches gs s (paramIn a0 a1 a2) := by
  unfold paramIn
  iterate 40 all_goals (try first
    | with_reducible assumption
    | with_reducible refine forwardChunk_only ?_ h_out h_fab
    | with_reducible refine takeChunk_only ?_ h_out h_free h_parts h_mem h_fab h_bind h_ras h_dict
    | split
    )

theorem passStart_only {gs : List Group} {s : State} {a0 a1 a2 a3 a4} (hs : OnlyTouches gs s a4) (h_parts : Group.parts ∈ gs) (h_rings : Group.rings ∈ gs) (h_arrays : Group.arrays ∈ gs) :
    OnlyTouches gs s (passStart a0 a1 a2 a3 a4) := by
  unfold passStart
  iterate 40 all_goals (try first
    | with_reducible assumption
    | with_reducible refine finishArray_only ?_ h_rings h_arrays
    | with_reducible refine State_updPart_only ?_ h_parts
    | with_reducible refine updEntry_only ?_ h_rings
    | with_reducible refine State_updArray_only ?_ h_arrays
    )

theorem powerOff_only {gs : List Group} {s : State} {a0} (hs : OnlyTouches gs s a0) (h_free : Group.free ∈ gs) (h_tick : Group.tick ∈ gs) (h_gov : Group.gov ∈ gs) (h_parts : Group.parts ∈ gs) (h_rings : Group.rings ∈ gs) (h_arrays : Group.arrays ∈ gs) (h_mem : Group.mem ∈ gs) (h_fab : Group.fab ∈ gs) (h_keys : Group.keys ∈ gs) (h_bind : Group.bind ∈ gs) (h_life : Group.life ∈ gs) (h_ras : Group.ras ∈ gs) (h_lh : Group.lh ∈ gs) (h_dict : Group.dict ∈ gs) (h_side : Group.side ∈ gs) (h_pow : Group.pow ∈ gs) (h_fw : Group.fw ∈ gs) :
    OnlyTouches gs s (powerOff a0) := by
  unfold powerOff
  iterate 40 all_goals (try first
    | with_reducible assumption
    | with_reducible refine resetAll_only ?_ h_free h_tick h_gov h_parts h_rings h_arrays h_mem h_fab h_keys h_bind h_life h_ras h_lh h_dict h_side h_pow h_fw
    | split
    | dsimp only
    | with_reducible refine OnlyTouches.upd ?_ rfl (.inr rfl) (.inl h_free) (.inl h_tick) (.inl h_gov) (.inl h_parts) (.inl h_rings) (.inl h_arrays) (.inl h_mem) (.inl h_fab) (.inl h_keys) (.inl h_bind) (.inl h_life) (.inl h_ras) (.inl h_lh) (.inl h_dict) (.inl h_side) (.inl h_pow) (.inl h_fw)
    )

theorem probeDone_only {gs : List Group} {s : State} {a0 a1 a2 a3 a4 a5} (hs : OnlyTouches gs s a5) (h_fab : Group.fab ∈ gs) :
    OnlyTouches gs s (probeDone a0 a1 a2 a3 a4 a5) := by
  unfold probeDone
  iterate 40 all_goals (try first
    | with_reducible assumption
    | with_reducible refine State_updStrait_only ?_ h_fab
    )

theorem programmed_only {gs : List Group} {s : State} {a0 a1} (hs : OnlyTouches gs s a1) (h_life : Group.life ∈ gs) :
    OnlyTouches gs s (programmed a0 a1) := by
  unfold programmed
  iterate 40 all_goals (try first
    | with_reducible assumption
    | split
    | dsimp only
    | with_reducible refine OnlyTouches.upd ?_ rfl (.inr rfl) (.inr rfl) (.inr rfl) (.inr rfl) (.inr rfl) (.inr rfl) (.inr rfl) (.inr rfl) (.inr rfl) (.inr rfl) (.inr rfl) (.inl h_life) (.inr rfl) (.inr rfl) (.inr rfl) (.inr rfl) (.inr rfl) (.inr rfl)
    )

theorem writeRecord_only {gs : List Group} {s : State} {a0 a1 a2 a3} (hs : OnlyTouches gs s a3) (h_out : Group.out ∈ gs) (h_free : Group.free ∈ gs) (h_parts : Group.parts ∈ gs) (h_mem : Group.mem ∈ gs) (h_fab : Group.fab ∈ gs) (h_ras : Group.ras ∈ gs) (h_dict : Group.dict ∈ gs) :
    OnlyTouches gs s (writeRecord a0 a1 a2 a3).1 := by
  unfold writeRecord
  iterate 40 all_goals (try first
    | with_reducible assumption
    | with_reducible refine State_putWrites_only ?_ h_out h_free h_parts h_mem h_fab h_ras h_dict
    | split
    )

theorem publishLocal_only {gs : List Group} {s : State} {a0 a1 a2 a3} (hs : OnlyTouches gs s a3) (h_out : Group.out ∈ gs) (h_free : Group.free ∈ gs) (h_parts : Group.parts ∈ gs) (h_mem : Group.mem ∈ gs) (h_fab : Group.fab ∈ gs) (h_bind : Group.bind ∈ gs) (h_ras : Group.ras ∈ gs) (h_dict : Group.dict ∈ gs) :
    OnlyTouches gs s (publishLocal a0 a1 a2 a3) := by
  unfold publishLocal
  iterate 40 all_goals (try first
    | with_reducible assumption
    | with_reducible refine updSession_only ?_ h_bind
    | with_reducible refine State_putVM_only ?_ h_out h_free h_parts h_mem h_ras h_dict
    | with_reducible refine writeRecord_only ?_ h_out h_free h_parts h_mem h_fab h_ras h_dict
    | with_reducible refine fst_only (by assumption) ?_
    | split
    | dsimp only
    )

theorem quantOne_only {gs : List Group} {s : State} {a0 a1 a2 a3 a4} (hs : OnlyTouches gs s a4) (h_out : Group.out ∈ gs) (h_free : Group.free ∈ gs) (h_parts : Group.parts ∈ gs) (h_rings : Group.rings ∈ gs) (h_arrays : Group.arrays ∈ gs) (h_mem : Group.mem ∈ gs) (h_fab : Group.fab ∈ gs) (h_ras : Group.ras ∈ gs) (h_dict : Group.dict ∈ gs) :
    OnlyTouches gs s (quantOne a0 a1 a2 a3 a4) := by
  unfold quantOne
  iterate 40 all_goals (try first
    | with_reducible assumption
    | with_reducible refine quantWrite_only ?_ h_out h_free h_parts h_rings h_mem h_fab h_ras h_dict
    | with_reducible refine State_updArray_only ?_ h_arrays
    | with_reducible refine commitRows_only ?_ h_rings
    | split
    )

theorem rasAudit_only {gs : List Group} {s : State} {a0 a1} (hs : OnlyTouches gs s a1) (h_out : Group.out ∈ gs) (h_free : Group.free ∈ gs) (h_parts : Group.parts ∈ gs) (h_mem : Group.mem ∈ gs) (h_ras : Group.ras ∈ gs) (h_dict : Group.dict ∈ gs) :
    OnlyTouches gs s (rasAudit a0 a1) := by
  unfold rasAudit
  iterate 40 all_goals (try first
    | with_reducible assumption
    | with_reducible refine State_putVM_only ?_ h_out h_free h_parts h_mem h_ras h_dict
    )

theorem readOp_only {gs : List Group} {s : State} {a0 a1 a2 a3} (hs : OnlyTouches gs s a3) (h_out : Group.out ∈ gs) (h_free : Group.free ∈ gs) (h_parts : Group.parts ∈ gs) (h_mem : Group.mem ∈ gs) (h_fab : Group.fab ∈ gs) (h_keys : Group.keys ∈ gs) (h_ras : Group.ras ∈ gs) (h_dict : Group.dict ∈ gs) :
    OnlyTouches gs s (readOp a0 a1 a2 a3) := by
  unfold readOp
  iterate 40 all_goals (try first
    | with_reducible assumption
    | with_reducible refine countRefusal_only ?_ h_keys
    | with_reducible refine State_putVM_only ?_ h_out h_free h_parts h_mem h_ras h_dict
    | with_reducible refine askHome_only ?_ h_out h_free h_parts h_mem h_fab h_ras h_dict
    | with_reducible refine State_emit_only ?_ h_out
    | split
    | dsimp only
    )

theorem setStep_only {gs : List Group} {s : State} {a0 a1 a2 a3 a4} (hs : OnlyTouches gs s a4) (h_pow : Group.pow ∈ gs) :
    OnlyTouches gs s (setStep a0 a1 a2 a3 a4) := by
  unfold setStep
  iterate 40 all_goals (try first
    | with_reducible assumption
    | split
    | dsimp only
    | with_reducible refine OnlyTouches.upd ?_ rfl (.inr rfl) (.inr rfl) (.inr rfl) (.inr rfl) (.inr rfl) (.inr rfl) (.inr rfl) (.inr rfl) (.inr rfl) (.inr rfl) (.inr rfl) (.inr rfl) (.inr rfl) (.inr rfl) (.inr rfl) (.inr rfl) (.inl h_pow) (.inr rfl)
    )

theorem trainOn_only {gs : List Group} {s : State} {a0 a1 a2 a3} (hs : OnlyTouches gs s a3) (h_pow : Group.pow ∈ gs) :
    OnlyTouches gs s (trainOn a0 a1 a2 a3) := by
  unfold trainOn
  iterate 40 all_goals (try first
    | with_reducible assumption
    | with_reducible refine setStep_only ?_ h_pow
    )

theorem readyStep_only {gs : List Group} {s : State} {a0 a1 a2 a3 a4} (hs : OnlyTouches gs s a3) (h_out : Group.out ∈ gs) (h_free : Group.free ∈ gs) (h_tick : Group.tick ∈ gs) (h_gov : Group.gov ∈ gs) (h_parts : Group.parts ∈ gs) (h_rings : Group.rings ∈ gs) (h_arrays : Group.arrays ∈ gs) (h_mem : Group.mem ∈ gs) (h_fab : Group.fab ∈ gs) (h_keys : Group.keys ∈ gs) (h_bind : Group.bind ∈ gs) (h_ras : Group.ras ∈ gs) (h_dict : Group.dict ∈ gs) (h_pow : Group.pow ∈ gs) (h_fw : Group.fw ∈ gs) :
    OnlyTouches gs s (readyStep a0 a1 a2 a3 a4) := by
  unfold readyStep
  iterate 40 all_goals (try first
    | with_reducible assumption
    | with_reducible refine trainOn_only ?_ h_pow
    | with_reducible refine setStep_only ?_ h_pow
    | with_reducible refine domainUp_only ?_ h_out h_free h_tick h_gov h_parts h_rings h_arrays h_mem h_fab h_keys h_bind h_ras h_dict h_pow h_fw
    | split
    )

theorem recoverIn_only {gs : List Group} {s : State} {a0 a1 a2 a3 a4} (hs : OnlyTouches gs s a4) (h_out : Group.out ∈ gs) (h_fab : Group.fab ∈ gs) (h_bind : Group.bind ∈ gs) :
    OnlyTouches gs s (recoverIn a0 a1 a2 a3 a4) := by
  unfold recoverIn
  iterate 40 all_goals (try first
    | with_reducible assumption
    | with_reducible refine sendOwn_only ?_ h_out h_fab h_bind
    | with_reducible refine sendRank_only ?_ h_out h_fab
    | with_reducible refine openWork_only ?_ h_bind
    | with_reducible refine updWork_only ?_ h_bind
    | split
    | dsimp only
    )

theorem returnSlots_only {gs : List Group} {s : State} {a0 a1 a2 a3} (hs : OnlyTouches gs s a3) (h_fab : Group.fab ∈ gs) :
    OnlyTouches gs s (returnSlots a0 a1 a2 a3) := by
  unfold returnSlots
  iterate 40 all_goals (try first
    | with_reducible assumption
    | with_reducible refine State_updStrait_only ?_ h_fab
    )

theorem recvPkt_only {gs : List Group} {s b : State} {p c o l k} {f : State → State} (hf : ∀ u, OnlyTouches gs s u → OnlyTouches gs s (f u)) (hs : OnlyTouches gs s b) (h_out : Group.out ∈ gs) (h_parts : Group.parts ∈ gs) (h_fab : Group.fab ∈ gs) :
    OnlyTouches gs s (recvPkt p c o l k f b) := by
  unfold recvPkt
  have hs := @returnSlots_only gs s p.strait (vcOf c o) (slotsOf l) b hs h_fab
  generalize returnSlots p.strait (vcOf c o) (slotsOf l) b = b at hs ⊢
  dsimp only
  split
  · exact deliverPkt_only hf hs h_out h_parts h_fab
  · split
    · exact OnlyTouches.upd hs rfl (.inl h_out) (.inr rfl) (.inr rfl) (.inr rfl) (.inl h_parts) (.inr rfl) (.inr rfl) (.inr rfl) (.inl h_fab) (.inr rfl) (.inr rfl) (.inr rfl) (.inr rfl) (.inr rfl) (.inr rfl) (.inr rfl) (.inr rfl) (.inr rfl)
    · exact forwardPkt_only hs h_out h_fab

theorem refresh_only {gs : List Group} {s : State} {a0 a1 a2} (hs : OnlyTouches gs s a2) (h_side : Group.side ∈ gs) :
    OnlyTouches gs s (refresh a0 a1 a2) := by
  unfold refresh
  iterate 40 all_goals (try first
    | with_reducible assumption
    | split
    | dsimp only
    | with_reducible refine OnlyTouches.upd ?_ rfl (.inr rfl) (.inr rfl) (.inr rfl) (.inr rfl) (.inr rfl) (.inr rfl) (.inr rfl) (.inr rfl) (.inr rfl) (.inr rfl) (.inr rfl) (.inr rfl) (.inr rfl) (.inr rfl) (.inr rfl) (.inl h_side) (.inr rfl) (.inr rfl)
    )

theorem releaseGuard_only {gs : List Group} {s : State} {a0 a1 a2} (hs : OnlyTouches gs s a2) (h_gov : Group.gov ∈ gs) (h_rings : Group.rings ∈ gs) :
    OnlyTouches gs s (releaseGuard a0 a1 a2) := by
  unfold releaseGuard
  iterate 40 all_goals (try first
    | with_reducible assumption
    | with_reducible refine updEntry_only ?_ h_rings
    | with_reducible refine foldl_only (fun u x hu => ?_) ?_
    | with_reducible refine foldl_fst_only (fun u x hu => ?_) ?_
    | split
    | dsimp only
    | with_reducible refine OnlyTouches.upd ?_ rfl (.inr rfl) (.inr rfl) (.inr rfl) (.inl h_gov) (.inr rfl) (.inl h_rings) (.inr rfl) (.inr rfl) (.inr rfl) (.inr rfl) (.inr rfl) (.inr rfl) (.inr rfl) (.inr rfl) (.inr rfl) (.inr rfl) (.inr rfl) (.inr rfl)
    )

theorem releaseReset_only {gs : List Group} {s : State} {a0} (hs : OnlyTouches gs s a0) (h_out : Group.out ∈ gs) (h_free : Group.free ∈ gs) (h_tick : Group.tick ∈ gs) (h_gov : Group.gov ∈ gs) (h_parts : Group.parts ∈ gs) (h_rings : Group.rings ∈ gs) (h_arrays : Group.arrays ∈ gs) (h_mem : Group.mem ∈ gs) (h_fab : Group.fab ∈ gs) (h_keys : Group.keys ∈ gs) (h_bind : Group.bind ∈ gs) (h_life : Group.life ∈ gs) (h_ras : Group.ras ∈ gs) (h_lh : Group.lh ∈ gs) (h_dict : Group.dict ∈ gs) (h_side : Group.side ∈ gs) (h_pow : Group.pow ∈ gs) (h_fw : Group.fw ∈ gs) :
    OnlyTouches gs s (releaseReset a0) := by
  unfold releaseReset
  iterate 40 all_goals (try first
    | with_reducible assumption
    | with_reducible refine boot_only ?_ h_out h_free h_tick h_gov h_parts h_rings h_arrays h_mem h_fab h_keys h_bind h_life h_ras h_lh h_dict h_side h_pow h_fw
    | split
    | dsimp only
    | with_reducible refine OnlyTouches.upd ?_ rfl (.inl h_out) (.inl h_free) (.inl h_tick) (.inl h_gov) (.inl h_parts) (.inl h_rings) (.inl h_arrays) (.inl h_mem) (.inl h_fab) (.inl h_keys) (.inl h_bind) (.inl h_life) (.inl h_ras) (.inl h_lh) (.inl h_dict) (.inl h_side) (.inl h_pow) (.inl h_fw)
    )

theorem replyIn_only {gs : List Group} {s : State} {a0 a1} (hs : OnlyTouches gs s a1) (h_out : Group.out ∈ gs) (h_free : Group.free ∈ gs) (h_parts : Group.parts ∈ gs) (h_mem : Group.mem ∈ gs) (h_fab : Group.fab ∈ gs) (h_keys : Group.keys ∈ gs) (h_ras : Group.ras ∈ gs) (h_dict : Group.dict ∈ gs) :
    OnlyTouches gs s (replyIn a0 a1) := by
  unfold replyIn
  iterate 40 all_goals (try first
    | with_reducible assumption
    | with_reducible refine dropHs_only ?_ h_fab
    | with_reducible refine installKeys_only ?_ h_out h_free h_parts h_mem h_fab h_keys h_ras h_dict
    | with_reducible refine hsFail_only ?_ h_out h_free h_parts h_mem h_fab h_ras h_dict
    | with_reducible refine sendHandshake_only ?_ h_out h_fab
    | split
    | dsimp only
    | with_reducible refine OnlyTouches.upd ?_ rfl (.inl h_out) (.inl h_free) (.inr rfl) (.inr rfl) (.inl h_parts) (.inr rfl) (.inr rfl) (.inl h_mem) (.inl h_fab) (.inl h_keys) (.inr rfl) (.inr rfl) (.inl h_ras) (.inr rfl) (.inl h_dict) (.inr rfl) (.inr rfl) (.inr rfl)
    )

theorem resendIn_only {gs : List Group} {s : State} {a0 a1 a2 a3 a4} (hs : OnlyTouches gs s a4) (h_out : Group.out ∈ gs) (h_free : Group.free ∈ gs) (h_parts : Group.parts ∈ gs) (h_mem : Group.mem ∈ gs) (h_fab : Group.fab ∈ gs) (h_bind : Group.bind ∈ gs) (h_ras : Group.ras ∈ gs) (h_dict : Group.dict ∈ gs) :
    OnlyTouches gs s (resendIn a0 a1 a2 a3 a4) := by
  unfold resendIn
  iterate 40 all_goals (try first
    | with_reducible assumption
    | with_reducible refine updElastic_only ?_ h_bind
    | with_reducible refine answerResend_only ?_ h_out h_free h_parts h_mem h_fab h_bind h_ras h_dict
    | with_reducible refine keeperAnswer_only ?_ h_out h_fab
    | with_reducible refine fst_only (by assumption) ?_
    | split
    )

theorem restartFetch_only {gs : List Group} {s : State} {a0} (hs : OnlyTouches gs s a0) (h_out : Group.out ∈ gs) (h_free : Group.free ∈ gs) (h_fab : Group.fab ∈ gs) (h_dict : Group.dict ∈ gs) (h_pow : Group.pow ∈ gs) (h_fw : Group.fw ∈ gs) :
    OnlyTouches gs s (restartFetch a0) := by
  unfold restartFetch
  iterate 40 all_goals (try first
    | with_reducible assumption
    | with_reducible refine startDomain_only ?_ h_pow
    | with_reducible refine startFetch_only ?_ h_out h_free h_fab h_dict h_fw
    | split
    | dsimp only
    | with_reducible refine OnlyTouches.upd ?_ rfl (.inl h_out) (.inl h_free) (.inr rfl) (.inr rfl) (.inr rfl) (.inr rfl) (.inr rfl) (.inr rfl) (.inl h_fab) (.inr rfl) (.inr rfl) (.inr rfl) (.inr rfl) (.inr rfl) (.inl h_dict) (.inr rfl) (.inl h_pow) (.inl h_fw)
    )

theorem retireOne_only {gs : List Group} {s : State} {a0 a1} (hs : OnlyTouches gs s a1) (h_out : Group.out ∈ gs) (h_free : Group.free ∈ gs) (h_parts : Group.parts ∈ gs) (h_mem : Group.mem ∈ gs) (h_ras : Group.ras ∈ gs) (h_dict : Group.dict ∈ gs) :
    OnlyTouches gs s (retireOne a0 a1) := by
  unfold retireOne
  iterate 40 all_goals (try first
    | with_reducible assumption
    | with_reducible refine rasAudit_only ?_ h_out h_free h_parts h_mem h_ras h_dict
    | split
    | dsimp only
    | with_reducible refine OnlyTouches.upd ?_ rfl (.inl h_out) (.inl h_free) (.inr rfl) (.inr rfl) (.inl h_parts) (.inr rfl) (.inr rfl) (.inl h_mem) (.inr rfl) (.inr rfl) (.inr rfl) (.inr rfl) (.inl h_ras) (.inr rfl) (.inl h_dict) (.inr rfl) (.inr rfl) (.inr rfl)
    )

theorem retireUnit_only {gs : List Group} {s : State} {a0 a1} (hs : OnlyTouches gs s a1) (h_out : Group.out ∈ gs) (h_free : Group.free ∈ gs) (h_parts : Group.parts ∈ gs) (h_mem : Group.mem ∈ gs) (h_ras : Group.ras ∈ gs) (h_dict : Group.dict ∈ gs) :
    OnlyTouches gs s (retireUnit a0 a1) := by
  unfold retireUnit
  iterate 40 all_goals (try first
    | with_reducible assumption
    | with_reducible refine retireOne_only ?_ h_out h_free h_parts h_mem h_ras h_dict
    | split
    | dsimp only
    )

theorem retryFlow_only {gs : List Group} {s : State} {a0 a1 a2} (hs : OnlyTouches gs s a2) (h_out : Group.out ∈ gs) (h_free : Group.free ∈ gs) (h_parts : Group.parts ∈ gs) (h_mem : Group.mem ∈ gs) (h_fab : Group.fab ∈ gs) (h_ras : Group.ras ∈ gs) (h_dict : Group.dict ∈ gs) :
    OnlyTouches gs s (retryFlow a0 a1 a2) := by
  unfold retryFlow
  iterate 40 all_goals (try first
    | with_reducible assumption
    | with_reducible refine loseFlow_only ?_ h_out h_free h_parts h_mem h_fab h_ras h_dict
    | with_reducible refine setFlow_only ?_ h_fab
    | with_reducible refine endFlowOps_only ?_ h_out h_free h_parts h_mem h_fab h_ras h_dict
    | with_reducible refine routePkt_only ?_ h_out h_fab
    | with_reducible refine foldl_only (fun u x hu => ?_) ?_
    | with_reducible refine foldl_fst_only (fun u x hu => ?_) ?_
    | split
    )

theorem rollIn_only {gs : List Group} {s : State} {a0 a1 a2 a3 a4 a5} (hs : OnlyTouches gs s a5) (h_out : Group.out ∈ gs) (h_free : Group.free ∈ gs) (h_parts : Group.parts ∈ gs) (h_mem : Group.mem ∈ gs) (h_fab : Group.fab ∈ gs) (h_bind : Group.bind ∈ gs) (h_ras : Group.ras ∈ gs) (h_dict : Group.dict ∈ gs) :
    OnlyTouches gs s (rollIn a0 a1 a2 a3 a4 a5) := by
  unfold rollIn
  iterate 40 all_goals (try first
    | with_reducible assumption
    | with_reducible refine countLate_only ?_ h_bind
    | with_reducible refine modRed_only ?_ h_bind
    | with_reducible refine openWork_only ?_ h_bind
    | with_reducible refine passRoll_only ?_ h_out h_fab h_bind
    | with_reducible refine updWork_only ?_ h_bind
    | with_reducible refine tryClose_only ?_ h_out h_free h_parts h_mem h_fab h_bind h_ras h_dict
    | split
    | dsimp only
    )

theorem stopDeparted_only {gs : List Group} {s : State} {a0 a1 a2} (hs : OnlyTouches gs s a2) (h_fab : Group.fab ∈ gs) (h_keys : Group.keys ∈ gs) (h_bind : Group.bind ∈ gs) :
    OnlyTouches gs s (stopDeparted a0 a1 a2) := by
  unfold stopDeparted
  iterate 40 all_goals (try first
    | with_reducible assumption
    | with_reducible refine updSession_only ?_ h_bind
    | with_reducible refine updElastic_only ?_ h_bind
    | with_reducible refine closeFlows_only ?_ h_fab h_keys
    | with_reducible refine stopSession_only ?_ h_bind
    | split
    )

theorem rosterIn_only {gs : List Group} {s : State} {a0 a1} (hs : OnlyTouches gs s a1) (h_out : Group.out ∈ gs) (h_fab : Group.fab ∈ gs) (h_keys : Group.keys ∈ gs) (h_bind : Group.bind ∈ gs) :
    OnlyTouches gs s (rosterIn a0 a1) := by
  unfold rosterIn
  iterate 40 all_goals (try first
    | with_reducible assumption
    | with_reducible refine updElastic_only ?_ h_bind
    | with_reducible refine sendRoster_only ?_ h_out h_fab
    | with_reducible refine stopDeparted_only ?_ h_fab h_keys h_bind
    | with_reducible refine foldl_only (fun u x hu => ?_) ?_
    | with_reducible refine foldl_fst_only (fun u x hu => ?_) ?_
    | split
    | dsimp only
    )

theorem selfMaster_only {gs : List Group} {s : State} {a0} (hs : OnlyTouches gs s a0) (h_tick : Group.tick ∈ gs) (h_gov : Group.gov ∈ gs) (h_parts : Group.parts ∈ gs) (h_rings : Group.rings ∈ gs) (h_arrays : Group.arrays ∈ gs) (h_mem : Group.mem ∈ gs) (h_fab : Group.fab ∈ gs) (h_keys : Group.keys ∈ gs) (h_bind : Group.bind ∈ gs) (h_ras : Group.ras ∈ gs) (h_dict : Group.dict ∈ gs) (h_pow : Group.pow ∈ gs) (h_fw : Group.fw ∈ gs) :
    OnlyTouches gs s (selfMaster a0) := by
  unfold selfMaster
  iterate 40 all_goals (try first
    | with_reducible assumption
    | with_reducible refine becomeMaster_only ?_ h_tick
    | with_reducible refine reachActive_only ?_ h_tick h_gov h_parts h_rings h_arrays h_mem h_fab h_keys h_bind h_ras h_dict h_pow h_fw
    | split
    | dsimp only
    | with_reducible refine OnlyTouches.upd ?_ rfl (.inr rfl) (.inr rfl) (.inl h_tick) (.inl h_gov) (.inl h_parts) (.inl h_rings) (.inl h_arrays) (.inl h_mem) (.inl h_fab) (.inl h_keys) (.inl h_bind) (.inr rfl) (.inl h_ras) (.inr rfl) (.inl h_dict) (.inr rfl) (.inl h_pow) (.inl h_fw)
    )

theorem selfTimed_only {gs : List Group} {s : State} {a0} (hs : OnlyTouches gs s a0) (h_out : Group.out ∈ gs) (h_lh : Group.lh ∈ gs) (h_dict : Group.dict ∈ gs) :
    OnlyTouches gs s (selfTimed a0) := by
  unfold selfTimed
  iterate 40 all_goals (try first
    | with_reducible assumption
    | with_reducible refine emitRecord_only ?_ h_out h_lh h_dict
    )

theorem servePartition_only {gs : List Group} {s : State} {a0 a1 a2 a3 a4 a5} (hs : OnlyTouches gs s a5) (h_out : Group.out ∈ gs) (h_free : Group.free ∈ gs) (h_parts : Group.parts ∈ gs) (h_mem : Group.mem ∈ gs) (h_fab : Group.fab ∈ gs) (h_ras : Group.ras ∈ gs) (h_dict : Group.dict ∈ gs) :
    OnlyTouches gs s (servePartition a0 a1 a2 a3 a4 a5) := by
  unfold servePartition
  iterate 40 all_goals (try first
    | with_reducible assumption
    | with_reducible refine answerSectors_only ?_ h_out h_fab
    | with_reducible refine answerError_only ?_ h_out h_fab
    | with_reducible refine State_putVM_only ?_ h_out h_free h_parts h_mem h_ras h_dict
    | split
    | dsimp only
    | with_reducible refine OnlyTouches.upd ?_ rfl (.inl h_out) (.inl h_free) (.inr rfl) (.inr rfl) (.inl h_parts) (.inr rfl) (.inr rfl) (.inl h_mem) (.inl h_fab) (.inr rfl) (.inr rfl) (.inr rfl) (.inl h_ras) (.inr rfl) (.inl h_dict) (.inr rfl) (.inr rfl) (.inr rfl)
    )

theorem serveRead_only {gs : List Group} {s : State} {a0 a1 a2 a3 a4 a5} (hs : OnlyTouches gs s a5) (h_out : Group.out ∈ gs) (h_free : Group.free ∈ gs) (h_fab : Group.fab ∈ gs) :
    OnlyTouches gs s (serveRead a0 a1 a2 a3 a4 a5) := by
  unfold serveRead
  iterate 40 all_goals (try first
    | with_reducible assumption
    | with_reducible refine answerSectors_only ?_ h_out h_fab
    | with_reducible refine answerError_only ?_ h_out h_fab
    | with_reducible refine sendPkt_only ?_ h_out h_fab
    | split
    | dsimp only
    | with_reducible refine OnlyTouches.upd ?_ rfl (.inl h_out) (.inl h_free) (.inr rfl) (.inr rfl) (.inr rfl) (.inr rfl) (.inr rfl) (.inr rfl) (.inl h_fab) (.inr rfl) (.inr rfl) (.inr rfl) (.inr rfl) (.inr rfl) (.inr rfl) (.inr rfl) (.inr rfl) (.inr rfl)
    )

theorem serveRequest_only {gs : List Group} {s : State} {a0 a1 a2 a3 a4} (hs : OnlyTouches gs s a4) (h_out : Group.out ∈ gs) (h_free : Group.free ∈ gs) (h_dict : Group.dict ∈ gs) (h_fw : Group.fw ∈ gs) :
    OnlyTouches gs s (serveRequest a0 a1 a2 a3 a4) := by
  unfold serveRequest
  iterate 40 all_goals (try first
    | with_reducible assumption
    | with_reducible refine State_emitOver_only ?_ h_out h_dict
    | split
    | dsimp only
    | with_reducible refine OnlyTouches.upd ?_ rfl (.inl h_out) (.inl h_free) (.inr rfl) (.inr rfl) (.inr rfl) (.inr rfl) (.inr rfl) (.inr rfl) (.inr rfl) (.inr rfl) (.inr rfl) (.inr rfl) (.inr rfl) (.inr rfl) (.inl h_dict) (.inr rfl) (.inr rfl) (.inl h_fw)
    )

theorem serveResume_only {gs : List Group} {s : State} {a0 a1 a2} (hs : OnlyTouches gs s a2) (h_out : Group.out ∈ gs) (h_dict : Group.dict ∈ gs) :
    OnlyTouches gs s (serveResume a0 a1 a2) := by
  unfold serveResume
  iterate 40 all_goals (try first
    | with_reducible assumption
    | with_reducible refine State_emitOver_only ?_ h_out h_dict
    | split
    )

theorem serveTarget_only {gs : List Group} {s : State} {a0 a1 a2 a3 a4 a5} (hs : OnlyTouches gs s a5) (h_out : Group.out ∈ gs) (h_free : Group.free ∈ gs) (h_parts : Group.parts ∈ gs) (h_mem : Group.mem ∈ gs) (h_fab : Group.fab ∈ gs) (h_ras : Group.ras ∈ gs) (h_dict : Group.dict ∈ gs) :
    OnlyTouches gs s (serveTarget a0 a1 a2 a3 a4 a5) := by
  unfold serveTarget
  iterate 40 all_goals (try first
    | with_reducible assumption
    | with_reducible refine answerError_only ?_ h_out h_fab
    | with_reducible refine servePartition_only ?_ h_out h_free h_parts h_mem h_fab h_ras h_dict
    | with_reducible refine serveRead_only ?_ h_out h_free h_fab
    | split
    )

theorem setPos_only {gs : List Group} {s : State} {a0 a1} (hs : OnlyTouches gs s a1) (h_out : Group.out ∈ gs) (h_side : Group.side ∈ gs) :
    OnlyTouches gs s (setPos a0 a1) := by
  unfold setPos
  iterate 40 all_goals (try first
    | with_reducible assumption
    | with_reducible refine State_emit_only ?_ h_out
    | split
    | dsimp only
    | with_reducible refine OnlyTouches.upd ?_ rfl (.inl h_out) (.inr rfl) (.inr rfl) (.inr rfl) (.inr rfl) (.inr rfl) (.inr rfl) (.inr rfl) (.inr rfl) (.inr rfl) (.inr rfl) (.inr rfl) (.inr rfl) (.inr rfl) (.inr rfl) (.inl h_side) (.inr rfl) (.inr rfl)
    )

theorem setStackTemp_only {gs : List Group} {s : State} {a0 a1 a2} (hs : OnlyTouches gs s a2) (h_mem : Group.mem ∈ gs) :
    OnlyTouches gs s (setStackTemp a0 a1 a2) := by
  unfold setStackTemp
  iterate 40 all_goals (try first
    | with_reducible assumption
    | split
    | dsimp only
    | with_reducible refine OnlyTouches.upd ?_ rfl (.inr rfl) (.inr rfl) (.inr rfl) (.inr rfl) (.inr rfl) (.inr rfl) (.inr rfl) (.inl h_mem) (.inr rfl) (.inr rfl) (.inr rfl) (.inr rfl) (.inr rfl) (.inr rfl) (.inr rfl) (.inr rfl) (.inr rfl) (.inr rfl)
    )

theorem signDone_only {gs : List Group} {s : State} {a0 a1 a2} (hs : OnlyTouches gs s a2) (h_keys : Group.keys ∈ gs) (h_dict : Group.dict ∈ gs) :
    OnlyTouches gs s (signDone a0 a1 a2) := by
  unfold signDone
  iterate 40 all_goals (try first
    | with_reducible assumption
    | with_reducible refine updPer_only ?_ h_dict
    | split
    | dsimp only
    | with_reducible refine OnlyTouches.upd ?_ rfl (.inr rfl) (.inr rfl) (.inr rfl) (.inr rfl) (.inr rfl) (.inr rfl) (.inr rfl) (.inr rfl) (.inr rfl) (.inl h_keys) (.inr rfl) (.inr rfl) (.inr rfl) (.inr rfl) (.inl h_dict) (.inr rfl) (.inr rfl) (.inr rfl)
    )

theorem silence_only {gs : List Group} {s : State} {a0 a1 a2} (hs : OnlyTouches gs s a2) (h_bind : Group.bind ∈ gs) :
    OnlyTouches gs s (silence a0 a1 a2) := by
  unfold silence
  iterate 40 all_goals (try first
    | with_reducible assumption
    | with_reducible refine updSession_only ?_ h_bind
    )

theorem standaloneOne_only {gs : List Group} {s : State} {a0 a1 a2 a3 a4 a5} (hs : OnlyTouches gs s a5) (h_out : Group.out ∈ gs) (h_free : Group.free ∈ gs) (h_parts : Group.parts ∈ gs) (h_rings : Group.rings ∈ gs) (h_arrays : Group.arrays ∈ gs) (h_mem : Group.mem ∈ gs) (h_fab : Group.fab ∈ gs) (h_ras : Group.ras ∈ gs) (h_dict : Group.dict ∈ gs) :
    OnlyTouches gs s (standaloneOne a0 a1 a2 a3 a4 a5) := by
  unfold standaloneOne
  iterate 40 all_goals (try first
    | with_reducible assumption
    | with_reducible refine updEntry_only ?_ h_rings
    | with_reducible refine State_updArray_only ?_ h_arrays
    | with_reducible refine sawPoison_only ?_ h_rings
    | with_reducible refine advanceMovers_only ?_ h_out h_free h_parts h_rings h_arrays h_mem h_fab h_ras h_dict
    | with_reducible refine countRemote_only ?_ h_parts
    | with_reducible refine pushRow_only ?_ h_parts h_rings h_arrays
    | split
    | dsimp only
    )

theorem startList_only {gs : List Group} {s : State} {a0 a1 a2 a3} (hs : OnlyTouches gs s a3) (h_rings : Group.rings ∈ gs) (h_arrays : Group.arrays ∈ gs) :
    OnlyTouches gs s (startList a0 a1 a2 a3) := by
  unfold startList
  iterate 40 all_goals (try first
    | with_reducible assumption
    | with_reducible refine updRun_only ?_ h_rings
    | with_reducible refine State_updArray_only ?_ h_arrays
    )

theorem swapTile_only {gs : List Group} {s : State} {a0 a1 a2 a3 a4} (hs : OnlyTouches gs s a4) (h_rings : Group.rings ∈ gs) (h_arrays : Group.arrays ∈ gs) :
    OnlyTouches gs s (swapTile a0 a1 a2 a3 a4) := by
  unfold swapTile
  iterate 40 all_goals (try first
    | with_reducible assumption
    | with_reducible refine updEntry_only ?_ h_rings
    | with_reducible refine State_updArray_only ?_ h_arrays
    )

theorem switchHopKey_only {gs : List Group} {s : State} {a0 a1 a2 a3} (hs : OnlyTouches gs s a3) (h_free : Group.free ∈ gs) (h_fab : Group.fab ∈ gs) (h_keys : Group.keys ∈ gs) :
    OnlyTouches gs s (switchHopKey a0 a1 a2 a3) := by
  unfold switchHopKey
  iterate 40 all_goals (try first
    | with_reducible assumption
    | with_reducible refine State_updStrait_only ?_ h_fab
    | with_reducible refine setModuleKey_only ?_ h_free h_keys
    | split
    | dsimp only
    | with_reducible refine OnlyTouches.upd ?_ rfl (.inr rfl) (.inl h_free) (.inr rfl) (.inr rfl) (.inr rfl) (.inr rfl) (.inr rfl) (.inr rfl) (.inl h_fab) (.inl h_keys) (.inr rfl) (.inr rfl) (.inr rfl) (.inr rfl) (.inr rfl) (.inr rfl) (.inr rfl) (.inr rfl)
    )

theorem takeAddr_only {gs : List Group} {s : State} {a0 a1} (hs : OnlyTouches gs s a1) (h_out : Group.out ∈ gs) (h_side : Group.side ∈ gs) :
    OnlyTouches gs s (takeAddr a0 a1) := by
  unfold takeAddr
  iterate 40 all_goals (try first
    | with_reducible assumption
    | with_reducible refine State_emit_only ?_ h_out
    | split
    | dsimp only
    | with_reducible refine OnlyTouches.upd ?_ rfl (.inl h_out) (.inr rfl) (.inr rfl) (.inr rfl) (.inr rfl) (.inr rfl) (.inr rfl) (.inr rfl) (.inr rfl) (.inr rfl) (.inr rfl) (.inr rfl) (.inr rfl) (.inr rfl) (.inr rfl) (.inl h_side) (.inr rfl) (.inr rfl)
    )

theorem takeCas_only {gs : List Group} {s : State} {a0 a1 a2 a3} (hs : OnlyTouches gs s a3) (h_out : Group.out ∈ gs) (h_free : Group.free ∈ gs) (h_parts : Group.parts ∈ gs) (h_mem : Group.mem ∈ gs) (h_ras : Group.ras ∈ gs) (h_dict : Group.dict ∈ gs) :
    OnlyTouches gs s (takeCas a0 a1 a2 a3) := by
  unfold takeCas
  iterate 40 all_goals (try first
    | with_reducible assumption
    | with_reducible refine State_putVM_only ?_ h_out h_free h_parts h_mem h_ras h_dict
    | split
    | dsimp only
    | with_reducible refine OnlyTouches.upd ?_ rfl (.inl h_out) (.inl h_free) (.inr rfl) (.inr rfl) (.inl h_parts) (.inr rfl) (.inr rfl) (.inl h_mem) (.inr rfl) (.inr rfl) (.inr rfl) (.inr rfl) (.inl h_ras) (.inr rfl) (.inl h_dict) (.inr rfl) (.inr rfl) (.inr rfl)
    )

theorem takeData_only {gs : List Group} {s : State} {a0 a1 a2 a3 a4} (hs : OnlyTouches gs s a4) (h_out : Group.out ∈ gs) (h_free : Group.free ∈ gs) (h_parts : Group.parts ∈ gs) (h_mem : Group.mem ∈ gs) (h_fab : Group.fab ∈ gs) (h_ras : Group.ras ∈ gs) (h_dict : Group.dict ∈ gs) :
    OnlyTouches gs s (takeData a0 a1 a2 a3 a4) := by
  unfold takeData
  iterate 40 all_goals (try first
    | with_reducible assumption
    | with_reducible refine hostTake_only ?_ h_out h_free h_parts h_mem h_fab h_ras h_dict
    | with_reducible refine flushHost_only ?_ h_out h_fab
    | with_reducible refine dataWait_only ?_ h_out h_free h_parts h_mem h_ras h_dict
    | with_reducible refine failWait_only ?_ h_out h_free h_parts h_mem h_ras h_dict
    | split
    )

theorem takeError_only {gs : List Group} {s : State} {a0 a1 a2 a3} (hs : OnlyTouches gs s a3) (h_out : Group.out ∈ gs) (h_free : Group.free ∈ gs) (h_parts : Group.parts ∈ gs) (h_mem : Group.mem ∈ gs) (h_fab : Group.fab ∈ gs) (h_ras : Group.ras ∈ gs) (h_dict : Group.dict ∈ gs) :
    OnlyTouches gs s (takeError a0 a1 a2 a3) := by
  unfold takeError
  iterate 40 all_goals (try first
    | with_reducible assumption
    | with_reducible refine hostTake_only ?_ h_out h_free h_parts h_mem h_fab h_ras h_dict
    | with_reducible refine flushHost_only ?_ h_out h_fab
    | with_reducible refine failWait_only ?_ h_out h_free h_parts h_mem h_ras h_dict
    | split
    )

theorem takeImage_only {gs : List Group} {s : State} {a0 a1 a2 a3 a4} (hs : OnlyTouches gs s a4) (h_out : Group.out ∈ gs) (h_free : Group.free ∈ gs) (h_tick : Group.tick ∈ gs) (h_gov : Group.gov ∈ gs) (h_parts : Group.parts ∈ gs) (h_rings : Group.rings ∈ gs) (h_arrays : Group.arrays ∈ gs) (h_mem : Group.mem ∈ gs) (h_fab : Group.fab ∈ gs) (h_keys : Group.keys ∈ gs) (h_bind : Group.bind ∈ gs) (h_ras : Group.ras ∈ gs) (h_dict : Group.dict ∈ gs) (h_pow : Group.pow ∈ gs) (h_fw : Group.fw ∈ gs) :
    OnlyTouches gs s (takeImage a0 a1 a2 a3 a4) := by
  unfold takeImage
  iterate 40 all_goals (try first
    | with_reducible assumption
    | with_reducible refine State_emitOver_only ?_ h_out h_dict
    | with_reducible refine imageCome_only ?_ h_out h_free h_tick h_gov h_parts h_rings h_arrays h_mem h_fab h_keys h_bind h_ras h_dict h_pow h_fw
    | split
    | dsimp only
    | with_reducible refine OnlyTouches.upd ?_ rfl (.inl h_out) (.inl h_free) (.inl h_tick) (.inl h_gov) (.inl h_parts) (.inl h_rings) (.inl h_arrays) (.inl h_mem) (.inl h_fab) (.inl h_keys) (.inl h_bind) (.inr rfl) (.inl h_ras) (.inr rfl) (.inl h_dict) (.inr rfl) (.inl h_pow) (.inl h_fw)
    )

theorem takeOffer_only {gs : List Group} {s : State} {a0 a1 a2 a3 a4 a5} (hs : OnlyTouches gs s a5) (h_fw : Group.fw ∈ gs) :
    OnlyTouches gs s (takeOffer a0 a1 a2 a3 a4 a5) := by
  unfold takeOffer
  iterate 40 all_goals (try first
    | with_reducible assumption
    | split
    | dsimp only
    | with_reducible refine OnlyTouches.upd ?_ rfl (.inr rfl) (.inr rfl) (.inr rfl) (.inr rfl) (.inr rfl) (.inr rfl) (.inr rfl) (.inr rfl) (.inr rfl) (.inr rfl) (.inr rfl) (.inr rfl) (.inr rfl) (.inr rfl) (.inr rfl) (.inr rfl) (.inr rfl) (.inl h_fw)
    )

theorem takePureAck_only {gs : List Group} {s : State} {a0 a1 a2} (hs : OnlyTouches gs s a2) (h_out : Group.out ∈ gs) (h_parts : Group.parts ∈ gs) (h_fab : Group.fab ∈ gs) :
    OnlyTouches gs s (takePureAck a0 a1 a2) := by
  unfold takePureAck
  iterate 40 all_goals (try first
    | with_reducible assumption
    | with_reducible refine setFlow_only ?_ h_fab
    | with_reducible refine flushHost_only ?_ h_out h_fab
    | with_reducible refine returnSlots_only ?_ h_fab
    | with_reducible refine dropRevoked_only ?_ h_parts h_fab
    | with_reducible refine forwardPkt_only ?_ h_out h_fab
    | with_reducible refine tagFailed_only ?_ h_fab
    | split
    | dsimp only
    | with_reducible refine OnlyTouches.upd ?_ rfl (.inl h_out) (.inr rfl) (.inr rfl) (.inr rfl) (.inl h_parts) (.inr rfl) (.inr rfl) (.inr rfl) (.inl h_fab) (.inr rfl) (.inr rfl) (.inr rfl) (.inr rfl) (.inr rfl) (.inr rfl) (.inr rfl) (.inr rfl) (.inr rfl)
    )

theorem writePartition_only {gs : List Group} {s : State} {a0 a1 a2 a3} (hs : OnlyTouches gs s a3) (h_out : Group.out ∈ gs) (h_free : Group.free ∈ gs) (h_parts : Group.parts ∈ gs) (h_mem : Group.mem ∈ gs) (h_fab : Group.fab ∈ gs) (h_ras : Group.ras ∈ gs) (h_dict : Group.dict ∈ gs) :
    OnlyTouches gs s (writePartition a0 a1 a2 a3) := by
  unfold writePartition
  iterate 40 all_goals (try first
    | with_reducible assumption
    | with_reducible refine State_putVM_only ?_ h_out h_free h_parts h_mem h_ras h_dict
    | with_reducible refine State_putWrites_only ?_ h_out h_free h_parts h_mem h_fab h_ras h_dict
    | split
    )

theorem takeWrite_only {gs : List Group} {s : State} {a0 a1 a2 a3 a4} (hs : OnlyTouches gs s a4) (h_out : Group.out ∈ gs) (h_free : Group.free ∈ gs) (h_parts : Group.parts ∈ gs) (h_mem : Group.mem ∈ gs) (h_fab : Group.fab ∈ gs) (h_ras : Group.ras ∈ gs) (h_dict : Group.dict ∈ gs) :
    OnlyTouches gs s (takeWrite a0 a1 a2 a3 a4) := by
  unfold takeWrite
  iterate 40 all_goals (try first
    | with_reducible assumption
    | with_reducible refine answerError_only ?_ h_out h_fab
    | with_reducible refine writePartition_only ?_ h_out h_free h_parts h_mem h_fab h_ras h_dict
    | split
    | dsimp only
    | with_reducible refine OnlyTouches.upd ?_ rfl (.inl h_out) (.inl h_free) (.inr rfl) (.inr rfl) (.inl h_parts) (.inr rfl) (.inr rfl) (.inl h_mem) (.inl h_fab) (.inr rfl) (.inr rfl) (.inr rfl) (.inl h_ras) (.inr rfl) (.inl h_dict) (.inr rfl) (.inr rfl) (.inr rfl)
    )

theorem testDone_only {gs : List Group} {s : State} {a0 a1 a2} (hs : OnlyTouches gs s a2) (h_free : Group.free ∈ gs) (h_ras : Group.ras ∈ gs) :
    OnlyTouches gs s (testDone a0 a1 a2) := by
  unfold testDone
  iterate 40 all_goals (try first
    | with_reducible assumption
    | split
    | dsimp only
    | with_reducible refine OnlyTouches.upd ?_ rfl (.inr rfl) (.inl h_free) (.inr rfl) (.inr rfl) (.inr rfl) (.inr rfl) (.inr rfl) (.inr rfl) (.inr rfl) (.inr rfl) (.inr rfl) (.inr rfl) (.inl h_ras) (.inr rfl) (.inr rfl) (.inr rfl) (.inr rfl) (.inr rfl)
    )

theorem tileOne_only {gs : List Group} {s : State} {a0 a1 a2 a3 a4 a5} (hs : OnlyTouches gs s a5) (h_out : Group.out ∈ gs) (h_free : Group.free ∈ gs) (h_parts : Group.parts ∈ gs) (h_rings : Group.rings ∈ gs) (h_arrays : Group.arrays ∈ gs) (h_mem : Group.mem ∈ gs) (h_fab : Group.fab ∈ gs) (h_ras : Group.ras ∈ gs) (h_dict : Group.dict ∈ gs) :
    OnlyTouches gs s (tileOne a0 a1 a2 a3 a4 a5) := by
  unfold tileOne
  iterate 40 all_goals (try first
    | with_reducible assumption
    | with_reducible refine quantWrite_only ?_ h_out h_free h_parts h_rings h_mem h_fab h_ras h_dict
    | with_reducible refine State_updArray_only ?_ h_arrays
    | with_reducible refine commitRows_only ?_ h_rings
    )

theorem timeout_only {gs : List Group} {s : State} {a0 a1 a2 a3 a4} (hs : OnlyTouches gs s a3) (h_out : Group.out ∈ gs) (h_free : Group.free ∈ gs) (h_tick : Group.tick ∈ gs) (h_gov : Group.gov ∈ gs) (h_parts : Group.parts ∈ gs) (h_rings : Group.rings ∈ gs) (h_arrays : Group.arrays ∈ gs) (h_mem : Group.mem ∈ gs) (h_fab : Group.fab ∈ gs) (h_keys : Group.keys ∈ gs) (h_bind : Group.bind ∈ gs) (h_ras : Group.ras ∈ gs) (h_dict : Group.dict ∈ gs) (h_pow : Group.pow ∈ gs) (h_fw : Group.fw ∈ gs) :
    OnlyTouches gs s (timeout a0 a1 a2 a3 a4) := by
  unfold timeout
  iterate 40 all_goals (try first
    | with_reducible assumption
    | with_reducible refine failDie_only ?_ h_out h_free h_parts h_mem h_ras h_dict h_pow
    | with_reducible refine settle_only ?_ h_tick h_gov h_parts h_rings h_arrays h_mem h_fab h_keys h_bind h_ras h_dict h_pow
    | with_reducible refine failHub_only ?_ h_out h_free h_parts h_mem h_fab h_ras h_dict h_pow h_fw
    | with_reducible refine trainOn_only ?_ h_pow
    | with_reducible refine setStep_only ?_ h_pow
    | with_reducible refine failStack_only ?_ h_out h_free h_parts h_mem h_ras h_dict
    | split
    )

theorem tipinIn_only {gs : List Group} {s : State} {a0 a1 a2} (hs : OnlyTouches gs s a2) (h_out : Group.out ∈ gs) (h_free : Group.free ∈ gs) (h_parts : Group.parts ∈ gs) (h_mem : Group.mem ∈ gs) (h_fab : Group.fab ∈ gs) (h_bind : Group.bind ∈ gs) (h_ras : Group.ras ∈ gs) (h_dict : Group.dict ∈ gs) :
    OnlyTouches gs s (tipinIn a0 a1 a2) := by
  unfold tipinIn
  iterate 40 all_goals (try first
    | with_reducible assumption
    | with_reducible refine keepChunk_only ?_ h_bind
    | with_reducible refine restoreFrom_only ?_ h_out h_free h_parts h_mem h_fab h_bind h_ras h_dict
    | with_reducible refine passKeeper_only ?_ h_out h_fab h_bind
    | with_reducible refine inherit_only ?_ h_out h_free h_parts h_mem h_fab h_bind h_ras h_dict
    | with_reducible refine updLayer_only ?_ h_bind
    | split
    | dsimp only
    )

theorem trip_only {gs : List Group} {s : State} {a0} (hs : OnlyTouches gs s a0) (h_out : Group.out ∈ gs) (h_free : Group.free ∈ gs) (h_tick : Group.tick ∈ gs) (h_gov : Group.gov ∈ gs) (h_parts : Group.parts ∈ gs) (h_rings : Group.rings ∈ gs) (h_arrays : Group.arrays ∈ gs) (h_mem : Group.mem ∈ gs) (h_fab : Group.fab ∈ gs) (h_keys : Group.keys ∈ gs) (h_bind : Group.bind ∈ gs) (h_ras : Group.ras ∈ gs) (h_dict : Group.dict ∈ gs) (h_pow : Group.pow ∈ gs) (h_fw : Group.fw ∈ gs) :
    OnlyTouches gs s (trip a0) := by
  unfold trip
  iterate 40 all_goals (try first
    | with_reducible assumption
    | with_reducible refine loseTenants_only ?_ h_parts h_rings h_arrays h_mem h_fab h_keys h_bind h_ras h_dict
    | with_reducible refine leaveTick_only ?_ h_tick h_gov
    | with_reducible refine cutCommit_only ?_ h_free h_fw
    | with_reducible refine thermalCause_only ?_ h_out h_dict
    | split
    | dsimp only
    | with_reducible refine OnlyTouches.upd ?_ rfl (.inl h_out) (.inl h_free) (.inl h_tick) (.inl h_gov) (.inl h_parts) (.inl h_rings) (.inl h_arrays) (.inl h_mem) (.inl h_fab) (.inl h_keys) (.inl h_bind) (.inr rfl) (.inl h_ras) (.inr rfl) (.inl h_dict) (.inr rfl) (.inl h_pow) (.inl h_fw)
    )

theorem turnOn_only {gs : List Group} {s : State} {a0 a1} (hs : OnlyTouches gs s a1) (h_out : Group.out ∈ gs) (h_free : Group.free ∈ gs) (h_tick : Group.tick ∈ gs) (h_gov : Group.gov ∈ gs) (h_parts : Group.parts ∈ gs) (h_rings : Group.rings ∈ gs) (h_arrays : Group.arrays ∈ gs) (h_mem : Group.mem ∈ gs) (h_fab : Group.fab ∈ gs) (h_keys : Group.keys ∈ gs) (h_bind : Group.bind ∈ gs) (h_life : Group.life ∈ gs) (h_ras : Group.ras ∈ gs) (h_lh : Group.lh ∈ gs) (h_dict : Group.dict ∈ gs) (h_side : Group.side ∈ gs) (h_pow : Group.pow ∈ gs) (h_fw : Group.fw ∈ gs) :
    OnlyTouches gs s (turnOn a0 a1) := by
  unfold turnOn
  iterate 40 all_goals (try first
    | with_reducible assumption
    | with_reducible refine boot_only ?_ h_out h_free h_tick h_gov h_parts h_rings h_arrays h_mem h_fab h_keys h_bind h_life h_ras h_lh h_dict h_side h_pow h_fw
    | split
    | dsimp only
    | with_reducible refine OnlyTouches.upd ?_ rfl (.inl h_out) (.inl h_free) (.inl h_tick) (.inl h_gov) (.inl h_parts) (.inl h_rings) (.inl h_arrays) (.inl h_mem) (.inl h_fab) (.inl h_keys) (.inl h_bind) (.inl h_life) (.inl h_ras) (.inl h_lh) (.inl h_dict) (.inl h_side) (.inl h_pow) (.inl h_fw)
    )

theorem wakeDevice_only {gs : List Group} {s : State} {a0 a1 a2} (hs : OnlyTouches gs s a2) (h_out : Group.out ∈ gs) (h_free : Group.free ∈ gs) (h_mem : Group.mem ∈ gs) (h_fab : Group.fab ∈ gs) (h_keys : Group.keys ∈ gs) (h_pow : Group.pow ∈ gs) :
    OnlyTouches gs s (wakeDevice a0 a1 a2) := by
  unfold wakeDevice
  iterate 40 all_goals (try first
    | with_reducible assumption
    | with_reducible refine sendPktHops_only ?_ h_out h_fab
    | with_reducible refine State_emit_only ?_ h_out
    | with_reducible refine wake_only ?_ h_free h_mem h_keys h_pow
    | split
    | dsimp only
    | with_reducible refine OnlyTouches.upd ?_ rfl (.inl h_out) (.inl h_free) (.inr rfl) (.inr rfl) (.inr rfl) (.inr rfl) (.inr rfl) (.inl h_mem) (.inl h_fab) (.inl h_keys) (.inr rfl) (.inr rfl) (.inr rfl) (.inr rfl) (.inr rfl) (.inr rfl) (.inl h_pow) (.inr rfl)
    )

theorem wakeFrame_only {gs : List Group} {s : State} {a0 a1 a2 a3} (hs : OnlyTouches gs s a3) (h_free : Group.free ∈ gs) (h_mem : Group.mem ∈ gs) (h_keys : Group.keys ∈ gs) (h_dict : Group.dict ∈ gs) (h_pow : Group.pow ∈ gs) :
    OnlyTouches gs s (wakeFrame a0 a1 a2 a3) := by
  unfold wakeFrame
  iterate 40 all_goals (try first
    | with_reducible assumption
    | with_reducible refine wake_only ?_ h_free h_mem h_keys h_pow
    | split
    | dsimp only
    | with_reducible refine OnlyTouches.upd ?_ rfl (.inr rfl) (.inl h_free) (.inr rfl) (.inr rfl) (.inr rfl) (.inr rfl) (.inr rfl) (.inl h_mem) (.inr rfl) (.inl h_keys) (.inr rfl) (.inr rfl) (.inr rfl) (.inr rfl) (.inl h_dict) (.inr rfl) (.inl h_pow) (.inr rfl)
    )

theorem windowEcc_only {gs : List Group} {s : State} {a0 a1 a2 a3 a4} (hs : OnlyTouches gs s a4) (h_out : Group.out ∈ gs) (h_free : Group.free ∈ gs) (h_parts : Group.parts ∈ gs) (h_mem : Group.mem ∈ gs) (h_ras : Group.ras ∈ gs) (h_dict : Group.dict ∈ gs) :
    OnlyTouches gs s (windowEcc a0 a1 a2 a3 a4) := by
  unfold windowEcc
  iterate 40 all_goals (try first
    | with_reducible assumption
    | with_reducible refine State_putVM_only ?_ h_out h_free h_parts h_mem h_ras h_dict
    | split
    | dsimp only
    | with_reducible refine OnlyTouches.upd ?_ rfl (.inl h_out) (.inl h_free) (.inr rfl) (.inr rfl) (.inl h_parts) (.inr rfl) (.inr rfl) (.inl h_mem) (.inr rfl) (.inr rfl) (.inr rfl) (.inr rfl) (.inl h_ras) (.inr rfl) (.inl h_dict) (.inr rfl) (.inr rfl) (.inr rfl)
    )

theorem windowFalls_only {gs : List Group} {s : State} {a0 a1 a2 a3 a4} (hs : OnlyTouches gs s a4) (h_out : Group.out ∈ gs) (h_fab : Group.fab ∈ gs) (h_bind : Group.bind ∈ gs) :
    OnlyTouches gs s (windowFalls a0 a1 a2 a3 a4) := by
  unfold windowFalls
  iterate 40 all_goals (try first
    | with_reducible assumption
    | with_reducible refine forwardPartial_only ?_ h_out h_fab
    | with_reducible refine updWork_only ?_ h_bind
    | split
    )

theorem writeFailed_only {gs : List Group} {s : State} {a0 a1 a2 a3} (hs : OnlyTouches gs s a3) (h_out : Group.out ∈ gs) (h_free : Group.free ∈ gs) (h_parts : Group.parts ∈ gs) (h_mem : Group.mem ∈ gs) (h_keys : Group.keys ∈ gs) (h_ras : Group.ras ∈ gs) (h_dict : Group.dict ∈ gs) :
    OnlyTouches gs s (writeFailed a0 a1 a2 a3) := by
  unfold writeFailed
  iterate 40 all_goals (try first
    | with_reducible assumption
    | with_reducible refine countRefusal_only ?_ h_keys
    | with_reducible refine State_putVM_only ?_ h_out h_free h_parts h_mem h_ras h_dict
    )

theorem writeOp_only {gs : List Group} {s b : State} {p v f} (hs : OnlyTouches gs s b) (h_out : Group.out ∈ gs) (h_free : Group.free ∈ gs) (h_parts : Group.parts ∈ gs) (h_mem : Group.mem ∈ gs) (h_fab : Group.fab ∈ gs) (h_keys : Group.keys ∈ gs) (h_ras : Group.ras ∈ gs) (h_dict : Group.dict ∈ gs) :
    OnlyTouches gs s (writeOp p v f b) := by
  unfold writeOp
  dsimp only
  split
  · exact State_putWrites_only hs h_out h_free h_parts h_mem h_fab h_ras h_dict
  · exact writeFailed_only (State_putVM_only hs h_out h_free h_parts h_mem h_ras h_dict) h_out h_free h_parts h_mem h_keys h_ras h_dict

end Sys2Proof.Machine
end

