-- ==== Sys2Proof/Laws/State.lean ====
section
/-!
SUPPORT. Laws/State.lean: one lemma per field of State for each named update: what it writes and what it leaves.
-/

namespace Sys2Proof.Machine

/-! Vectors with one element changed. -/

@[simp] theorem modVec_self {α : Type} {n : Nat} (v : Vector α n) (i : Fin n) (f : α → α) : (modVec v i f)[i] = f v[i] := by simp [modVec]
theorem modVec_other {α : Type} {n : Nat} (v : Vector α n) (i j : Fin n) (f : α → α) (h : j ≠ i) : (modVec v i f)[j] = v[j] := by
  simp only [modVec, Fin.getElem_fin]
  exact Vector.getElem_set_ne _ _ (fun e => h (Fin.ext e.symm))

/-! updPart -/

@[simp] theorem updPart_pending (s : State) (p : PartId) (f : Part → Part) : (s.updPart p f).pending = s.pending := rfl
@[simp] theorem updPart_out (s : State) (p : PartId) (f : Part → Part) : (s.updPart p f).out = s.out := rfl
@[simp] theorem updPart_free (s : State) (p : PartId) (f : Part → Part) : (s.updPart p f).free = s.free := rfl
@[simp] theorem updPart_tick (s : State) (p : PartId) (f : Part → Part) : (s.updPart p f).tick = s.tick := rfl
@[simp] theorem updPart_gov (s : State) (p : PartId) (f : Part → Part) : (s.updPart p f).gov = s.gov := rfl
@[simp] theorem updPart_parts (s : State) (p : PartId) (f : Part → Part) : (s.updPart p f).parts = modVec s.parts p f := rfl
@[simp] theorem updPart_rings (s : State) (p : PartId) (f : Part → Part) : (s.updPart p f).rings = s.rings := rfl
@[simp] theorem updPart_arrays (s : State) (p : PartId) (f : Part → Part) : (s.updPart p f).arrays = s.arrays := rfl
@[simp] theorem updPart_mem (s : State) (p : PartId) (f : Part → Part) : (s.updPart p f).mem = s.mem := rfl
@[simp] theorem updPart_fab (s : State) (p : PartId) (f : Part → Part) : (s.updPart p f).fab = s.fab := rfl
@[simp] theorem updPart_keys (s : State) (p : PartId) (f : Part → Part) : (s.updPart p f).keys = s.keys := rfl
@[simp] theorem updPart_bind (s : State) (p : PartId) (f : Part → Part) : (s.updPart p f).bind = s.bind := rfl
@[simp] theorem updPart_life (s : State) (p : PartId) (f : Part → Part) : (s.updPart p f).life = s.life := rfl
@[simp] theorem updPart_ras (s : State) (p : PartId) (f : Part → Part) : (s.updPart p f).ras = s.ras := rfl
@[simp] theorem updPart_lh (s : State) (p : PartId) (f : Part → Part) : (s.updPart p f).lh = s.lh := rfl
@[simp] theorem updPart_dict (s : State) (p : PartId) (f : Part → Part) : (s.updPart p f).dict = s.dict := rfl
@[simp] theorem updPart_side (s : State) (p : PartId) (f : Part → Part) : (s.updPart p f).side = s.side := rfl
@[simp] theorem updPart_pow (s : State) (p : PartId) (f : Part → Part) : (s.updPart p f).pow = s.pow := rfl
@[simp] theorem updPart_fw (s : State) (p : PartId) (f : Part → Part) : (s.updPart p f).fw = s.fw := rfl

/-! updRing -/

@[simp] theorem updRing_pending (s : State) (p : PartId) (r : RingId) (f : Ring → Ring) : (s.updRing p r f).pending = s.pending := rfl
@[simp] theorem updRing_out (s : State) (p : PartId) (r : RingId) (f : Ring → Ring) : (s.updRing p r f).out = s.out := rfl
@[simp] theorem updRing_free (s : State) (p : PartId) (r : RingId) (f : Ring → Ring) : (s.updRing p r f).free = s.free := rfl
@[simp] theorem updRing_tick (s : State) (p : PartId) (r : RingId) (f : Ring → Ring) : (s.updRing p r f).tick = s.tick := rfl
@[simp] theorem updRing_gov (s : State) (p : PartId) (r : RingId) (f : Ring → Ring) : (s.updRing p r f).gov = s.gov := rfl
@[simp] theorem updRing_parts (s : State) (p : PartId) (r : RingId) (f : Ring → Ring) : (s.updRing p r f).parts = s.parts := rfl
@[simp] theorem updRing_rings (s : State) (p : PartId) (r : RingId) (f : Ring → Ring) : (s.updRing p r f).rings = modVec s.rings p (fun v => modVec v r f) := rfl
@[simp] theorem updRing_arrays (s : State) (p : PartId) (r : RingId) (f : Ring → Ring) : (s.updRing p r f).arrays = s.arrays := rfl
@[simp] theorem updRing_mem (s : State) (p : PartId) (r : RingId) (f : Ring → Ring) : (s.updRing p r f).mem = s.mem := rfl
@[simp] theorem updRing_fab (s : State) (p : PartId) (r : RingId) (f : Ring → Ring) : (s.updRing p r f).fab = s.fab := rfl
@[simp] theorem updRing_keys (s : State) (p : PartId) (r : RingId) (f : Ring → Ring) : (s.updRing p r f).keys = s.keys := rfl
@[simp] theorem updRing_bind (s : State) (p : PartId) (r : RingId) (f : Ring → Ring) : (s.updRing p r f).bind = s.bind := rfl
@[simp] theorem updRing_life (s : State) (p : PartId) (r : RingId) (f : Ring → Ring) : (s.updRing p r f).life = s.life := rfl
@[simp] theorem updRing_ras (s : State) (p : PartId) (r : RingId) (f : Ring → Ring) : (s.updRing p r f).ras = s.ras := rfl
@[simp] theorem updRing_lh (s : State) (p : PartId) (r : RingId) (f : Ring → Ring) : (s.updRing p r f).lh = s.lh := rfl
@[simp] theorem updRing_dict (s : State) (p : PartId) (r : RingId) (f : Ring → Ring) : (s.updRing p r f).dict = s.dict := rfl
@[simp] theorem updRing_side (s : State) (p : PartId) (r : RingId) (f : Ring → Ring) : (s.updRing p r f).side = s.side := rfl
@[simp] theorem updRing_pow (s : State) (p : PartId) (r : RingId) (f : Ring → Ring) : (s.updRing p r f).pow = s.pow := rfl
@[simp] theorem updRing_fw (s : State) (p : PartId) (r : RingId) (f : Ring → Ring) : (s.updRing p r f).fw = s.fw := rfl

/-! updArray -/

@[simp] theorem updArray_pending (s : State) (a : ArrayId) (f : ArrayEng → ArrayEng) : (s.updArray a f).pending = s.pending := rfl
@[simp] theorem updArray_out (s : State) (a : ArrayId) (f : ArrayEng → ArrayEng) : (s.updArray a f).out = s.out := rfl
@[simp] theorem updArray_free (s : State) (a : ArrayId) (f : ArrayEng → ArrayEng) : (s.updArray a f).free = s.free := rfl
@[simp] theorem updArray_tick (s : State) (a : ArrayId) (f : ArrayEng → ArrayEng) : (s.updArray a f).tick = s.tick := rfl
@[simp] theorem updArray_gov (s : State) (a : ArrayId) (f : ArrayEng → ArrayEng) : (s.updArray a f).gov = s.gov := rfl
@[simp] theorem updArray_parts (s : State) (a : ArrayId) (f : ArrayEng → ArrayEng) : (s.updArray a f).parts = s.parts := rfl
@[simp] theorem updArray_rings (s : State) (a : ArrayId) (f : ArrayEng → ArrayEng) : (s.updArray a f).rings = s.rings := rfl
@[simp] theorem updArray_arrays (s : State) (a : ArrayId) (f : ArrayEng → ArrayEng) : (s.updArray a f).arrays = modVec s.arrays a f := rfl
@[simp] theorem updArray_mem (s : State) (a : ArrayId) (f : ArrayEng → ArrayEng) : (s.updArray a f).mem = s.mem := rfl
@[simp] theorem updArray_fab (s : State) (a : ArrayId) (f : ArrayEng → ArrayEng) : (s.updArray a f).fab = s.fab := rfl
@[simp] theorem updArray_keys (s : State) (a : ArrayId) (f : ArrayEng → ArrayEng) : (s.updArray a f).keys = s.keys := rfl
@[simp] theorem updArray_bind (s : State) (a : ArrayId) (f : ArrayEng → ArrayEng) : (s.updArray a f).bind = s.bind := rfl
@[simp] theorem updArray_life (s : State) (a : ArrayId) (f : ArrayEng → ArrayEng) : (s.updArray a f).life = s.life := rfl
@[simp] theorem updArray_ras (s : State) (a : ArrayId) (f : ArrayEng → ArrayEng) : (s.updArray a f).ras = s.ras := rfl
@[simp] theorem updArray_lh (s : State) (a : ArrayId) (f : ArrayEng → ArrayEng) : (s.updArray a f).lh = s.lh := rfl
@[simp] theorem updArray_dict (s : State) (a : ArrayId) (f : ArrayEng → ArrayEng) : (s.updArray a f).dict = s.dict := rfl
@[simp] theorem updArray_side (s : State) (a : ArrayId) (f : ArrayEng → ArrayEng) : (s.updArray a f).side = s.side := rfl
@[simp] theorem updArray_pow (s : State) (a : ArrayId) (f : ArrayEng → ArrayEng) : (s.updArray a f).pow = s.pow := rfl
@[simp] theorem updArray_fw (s : State) (a : ArrayId) (f : ArrayEng → ArrayEng) : (s.updArray a f).fw = s.fw := rfl

/-! updStrait -/

@[simp] theorem updStrait_pending (s : State) (k : StraitId) (f : Strait → Strait) : (s.updStrait k f).pending = s.pending := rfl
@[simp] theorem updStrait_out (s : State) (k : StraitId) (f : Strait → Strait) : (s.updStrait k f).out = s.out := rfl
@[simp] theorem updStrait_free (s : State) (k : StraitId) (f : Strait → Strait) : (s.updStrait k f).free = s.free := rfl
@[simp] theorem updStrait_tick (s : State) (k : StraitId) (f : Strait → Strait) : (s.updStrait k f).tick = s.tick := rfl
@[simp] theorem updStrait_gov (s : State) (k : StraitId) (f : Strait → Strait) : (s.updStrait k f).gov = s.gov := rfl
@[simp] theorem updStrait_parts (s : State) (k : StraitId) (f : Strait → Strait) : (s.updStrait k f).parts = s.parts := rfl
@[simp] theorem updStrait_rings (s : State) (k : StraitId) (f : Strait → Strait) : (s.updStrait k f).rings = s.rings := rfl
@[simp] theorem updStrait_arrays (s : State) (k : StraitId) (f : Strait → Strait) : (s.updStrait k f).arrays = s.arrays := rfl
@[simp] theorem updStrait_mem (s : State) (k : StraitId) (f : Strait → Strait) : (s.updStrait k f).mem = s.mem := rfl
@[simp] theorem updStrait_fab (s : State) (k : StraitId) (f : Strait → Strait) : (s.updStrait k f).fab = { s.fab with straits := modVec s.fab.straits k f } := rfl
@[simp] theorem updStrait_keys (s : State) (k : StraitId) (f : Strait → Strait) : (s.updStrait k f).keys = s.keys := rfl
@[simp] theorem updStrait_bind (s : State) (k : StraitId) (f : Strait → Strait) : (s.updStrait k f).bind = s.bind := rfl
@[simp] theorem updStrait_life (s : State) (k : StraitId) (f : Strait → Strait) : (s.updStrait k f).life = s.life := rfl
@[simp] theorem updStrait_ras (s : State) (k : StraitId) (f : Strait → Strait) : (s.updStrait k f).ras = s.ras := rfl
@[simp] theorem updStrait_lh (s : State) (k : StraitId) (f : Strait → Strait) : (s.updStrait k f).lh = s.lh := rfl
@[simp] theorem updStrait_dict (s : State) (k : StraitId) (f : Strait → Strait) : (s.updStrait k f).dict = s.dict := rfl
@[simp] theorem updStrait_side (s : State) (k : StraitId) (f : Strait → Strait) : (s.updStrait k f).side = s.side := rfl
@[simp] theorem updStrait_pow (s : State) (k : StraitId) (f : Strait → Strait) : (s.updStrait k f).pow = s.pow := rfl
@[simp] theorem updStrait_fw (s : State) (k : StraitId) (f : Strait → Strait) : (s.updStrait k f).fw = s.fw := rfl

/-! emit -/

@[simp] theorem emit_pending (s : State) (o : List Output) : (s.emit o).pending = s.pending := rfl
@[simp] theorem emit_out (s : State) (o : List Output) : (s.emit o).out = s.out ++ o := rfl
@[simp] theorem emit_free (s : State) (o : List Output) : (s.emit o).free = s.free := rfl
@[simp] theorem emit_tick (s : State) (o : List Output) : (s.emit o).tick = s.tick := rfl
@[simp] theorem emit_gov (s : State) (o : List Output) : (s.emit o).gov = s.gov := rfl
@[simp] theorem emit_parts (s : State) (o : List Output) : (s.emit o).parts = s.parts := rfl
@[simp] theorem emit_rings (s : State) (o : List Output) : (s.emit o).rings = s.rings := rfl
@[simp] theorem emit_arrays (s : State) (o : List Output) : (s.emit o).arrays = s.arrays := rfl
@[simp] theorem emit_mem (s : State) (o : List Output) : (s.emit o).mem = s.mem := rfl
@[simp] theorem emit_fab (s : State) (o : List Output) : (s.emit o).fab = s.fab := rfl
@[simp] theorem emit_keys (s : State) (o : List Output) : (s.emit o).keys = s.keys := rfl
@[simp] theorem emit_bind (s : State) (o : List Output) : (s.emit o).bind = s.bind := rfl
@[simp] theorem emit_life (s : State) (o : List Output) : (s.emit o).life = s.life := rfl
@[simp] theorem emit_ras (s : State) (o : List Output) : (s.emit o).ras = s.ras := rfl
@[simp] theorem emit_lh (s : State) (o : List Output) : (s.emit o).lh = s.lh := rfl
@[simp] theorem emit_dict (s : State) (o : List Output) : (s.emit o).dict = s.dict := rfl
@[simp] theorem emit_side (s : State) (o : List Output) : (s.emit o).side = s.side := rfl
@[simp] theorem emit_pow (s : State) (o : List Output) : (s.emit o).pow = s.pow := rfl
@[simp] theorem emit_fw (s : State) (o : List Output) : (s.emit o).fw = s.fw := rfl

/-! updSess -/

@[simp] theorem updSess_pending (s : State) (q : Req) (f : DSess → DSess) : (updSess q f s).pending = s.pending := rfl
@[simp] theorem updSess_out (s : State) (q : Req) (f : DSess → DSess) : (updSess q f s).out = s.out := rfl
@[simp] theorem updSess_free (s : State) (q : Req) (f : DSess → DSess) : (updSess q f s).free = s.free := rfl
@[simp] theorem updSess_tick (s : State) (q : Req) (f : DSess → DSess) : (updSess q f s).tick = s.tick := rfl
@[simp] theorem updSess_gov (s : State) (q : Req) (f : DSess → DSess) : (updSess q f s).gov = s.gov := rfl
@[simp] theorem updSess_parts (s : State) (q : Req) (f : DSess → DSess) : (updSess q f s).parts = s.parts := rfl
@[simp] theorem updSess_rings (s : State) (q : Req) (f : DSess → DSess) : (updSess q f s).rings = s.rings := rfl
@[simp] theorem updSess_arrays (s : State) (q : Req) (f : DSess → DSess) : (updSess q f s).arrays = s.arrays := rfl
@[simp] theorem updSess_mem (s : State) (q : Req) (f : DSess → DSess) : (updSess q f s).mem = s.mem := rfl
@[simp] theorem updSess_fab (s : State) (q : Req) (f : DSess → DSess) : (updSess q f s).fab = s.fab := rfl
@[simp] theorem updSess_keys (s : State) (q : Req) (f : DSess → DSess) : (updSess q f s).keys = s.keys := rfl
@[simp] theorem updSess_bind (s : State) (q : Req) (f : DSess → DSess) : (updSess q f s).bind = s.bind := rfl
@[simp] theorem updSess_life (s : State) (q : Req) (f : DSess → DSess) : (updSess q f s).life = s.life := rfl
@[simp] theorem updSess_ras (s : State) (q : Req) (f : DSess → DSess) : (updSess q f s).ras = s.ras := rfl
@[simp] theorem updSess_lh (s : State) (q : Req) (f : DSess → DSess) : (updSess q f s).lh = s.lh := rfl
@[simp] theorem updSess_side (s : State) (q : Req) (f : DSess → DSess) : (updSess q f s).side = s.side := rfl
@[simp] theorem updSess_pow (s : State) (q : Req) (f : DSess → DSess) : (updSess q f s).pow = s.pow := rfl
@[simp] theorem updSess_fw (s : State) (q : Req) (f : DSess → DSess) : (updSess q f s).fw = s.fw := rfl

/-! updPer -/

@[simp] theorem updPer_pending (s : State) (q : Req) (f : PerSession → PerSession) : (updPer q f s).pending = s.pending := rfl
@[simp] theorem updPer_out (s : State) (q : Req) (f : PerSession → PerSession) : (updPer q f s).out = s.out := rfl
@[simp] theorem updPer_free (s : State) (q : Req) (f : PerSession → PerSession) : (updPer q f s).free = s.free := rfl
@[simp] theorem updPer_tick (s : State) (q : Req) (f : PerSession → PerSession) : (updPer q f s).tick = s.tick := rfl
@[simp] theorem updPer_gov (s : State) (q : Req) (f : PerSession → PerSession) : (updPer q f s).gov = s.gov := rfl
@[simp] theorem updPer_parts (s : State) (q : Req) (f : PerSession → PerSession) : (updPer q f s).parts = s.parts := rfl
@[simp] theorem updPer_rings (s : State) (q : Req) (f : PerSession → PerSession) : (updPer q f s).rings = s.rings := rfl
@[simp] theorem updPer_arrays (s : State) (q : Req) (f : PerSession → PerSession) : (updPer q f s).arrays = s.arrays := rfl
@[simp] theorem updPer_mem (s : State) (q : Req) (f : PerSession → PerSession) : (updPer q f s).mem = s.mem := rfl
@[simp] theorem updPer_fab (s : State) (q : Req) (f : PerSession → PerSession) : (updPer q f s).fab = s.fab := rfl
@[simp] theorem updPer_keys (s : State) (q : Req) (f : PerSession → PerSession) : (updPer q f s).keys = s.keys := rfl
@[simp] theorem updPer_bind (s : State) (q : Req) (f : PerSession → PerSession) : (updPer q f s).bind = s.bind := rfl
@[simp] theorem updPer_life (s : State) (q : Req) (f : PerSession → PerSession) : (updPer q f s).life = s.life := rfl
@[simp] theorem updPer_ras (s : State) (q : Req) (f : PerSession → PerSession) : (updPer q f s).ras = s.ras := rfl
@[simp] theorem updPer_lh (s : State) (q : Req) (f : PerSession → PerSession) : (updPer q f s).lh = s.lh := rfl
@[simp] theorem updPer_side (s : State) (q : Req) (f : PerSession → PerSession) : (updPer q f s).side = s.side := rfl
@[simp] theorem updPer_pow (s : State) (q : Req) (f : PerSession → PerSession) : (updPer q f s).pow = s.pow := rfl
@[simp] theorem updPer_fw (s : State) (q : Req) (f : PerSession → PerSession) : (updPer q f s).fw = s.fw := rfl

/-! updPerPart -/

@[simp] theorem updPerPart_pending (s : State) (q : Req) (p : PartId) (f : PerPart → PerPart) : (updPerPart q p f s).pending = s.pending := rfl
@[simp] theorem updPerPart_out (s : State) (q : Req) (p : PartId) (f : PerPart → PerPart) : (updPerPart q p f s).out = s.out := rfl
@[simp] theorem updPerPart_free (s : State) (q : Req) (p : PartId) (f : PerPart → PerPart) : (updPerPart q p f s).free = s.free := rfl
@[simp] theorem updPerPart_tick (s : State) (q : Req) (p : PartId) (f : PerPart → PerPart) : (updPerPart q p f s).tick = s.tick := rfl
@[simp] theorem updPerPart_gov (s : State) (q : Req) (p : PartId) (f : PerPart → PerPart) : (updPerPart q p f s).gov = s.gov := rfl
@[simp] theorem updPerPart_parts (s : State) (q : Req) (p : PartId) (f : PerPart → PerPart) : (updPerPart q p f s).parts = s.parts := rfl
@[simp] theorem updPerPart_rings (s : State) (q : Req) (p : PartId) (f : PerPart → PerPart) : (updPerPart q p f s).rings = s.rings := rfl
@[simp] theorem updPerPart_arrays (s : State) (q : Req) (p : PartId) (f : PerPart → PerPart) : (updPerPart q p f s).arrays = s.arrays := rfl
@[simp] theorem updPerPart_mem (s : State) (q : Req) (p : PartId) (f : PerPart → PerPart) : (updPerPart q p f s).mem = s.mem := rfl
@[simp] theorem updPerPart_fab (s : State) (q : Req) (p : PartId) (f : PerPart → PerPart) : (updPerPart q p f s).fab = s.fab := rfl
@[simp] theorem updPerPart_keys (s : State) (q : Req) (p : PartId) (f : PerPart → PerPart) : (updPerPart q p f s).keys = s.keys := rfl
@[simp] theorem updPerPart_bind (s : State) (q : Req) (p : PartId) (f : PerPart → PerPart) : (updPerPart q p f s).bind = s.bind := rfl
@[simp] theorem updPerPart_life (s : State) (q : Req) (p : PartId) (f : PerPart → PerPart) : (updPerPart q p f s).life = s.life := rfl
@[simp] theorem updPerPart_ras (s : State) (q : Req) (p : PartId) (f : PerPart → PerPart) : (updPerPart q p f s).ras = s.ras := rfl
@[simp] theorem updPerPart_lh (s : State) (q : Req) (p : PartId) (f : PerPart → PerPart) : (updPerPart q p f s).lh = s.lh := rfl
@[simp] theorem updPerPart_side (s : State) (q : Req) (p : PartId) (f : PerPart → PerPart) : (updPerPart q p f s).side = s.side := rfl
@[simp] theorem updPerPart_pow (s : State) (q : Req) (p : PartId) (f : PerPart → PerPart) : (updPerPart q p f s).pow = s.pow := rfl
@[simp] theorem updPerPart_fw (s : State) (q : Req) (p : PartId) (f : PerPart → PerPart) : (updPerPart q p f s).fw = s.fw := rfl

/-! executed -/

@[simp] theorem executed_pending (s : State) (q : Req) (n : Nat) : (executed q n s).pending = s.pending := rfl
@[simp] theorem executed_out (s : State) (q : Req) (n : Nat) : (executed q n s).out = s.out := rfl
@[simp] theorem executed_free (s : State) (q : Req) (n : Nat) : (executed q n s).free = s.free := rfl
@[simp] theorem executed_tick (s : State) (q : Req) (n : Nat) : (executed q n s).tick = s.tick := rfl
@[simp] theorem executed_gov (s : State) (q : Req) (n : Nat) : (executed q n s).gov = s.gov := rfl
@[simp] theorem executed_parts (s : State) (q : Req) (n : Nat) : (executed q n s).parts = s.parts := rfl
@[simp] theorem executed_rings (s : State) (q : Req) (n : Nat) : (executed q n s).rings = s.rings := rfl
@[simp] theorem executed_arrays (s : State) (q : Req) (n : Nat) : (executed q n s).arrays = s.arrays := rfl
@[simp] theorem executed_mem (s : State) (q : Req) (n : Nat) : (executed q n s).mem = s.mem := rfl
@[simp] theorem executed_fab (s : State) (q : Req) (n : Nat) : (executed q n s).fab = s.fab := rfl
@[simp] theorem executed_keys (s : State) (q : Req) (n : Nat) : (executed q n s).keys = s.keys := rfl
@[simp] theorem executed_bind (s : State) (q : Req) (n : Nat) : (executed q n s).bind = s.bind := rfl
@[simp] theorem executed_life (s : State) (q : Req) (n : Nat) : (executed q n s).life = s.life := rfl
@[simp] theorem executed_ras (s : State) (q : Req) (n : Nat) : (executed q n s).ras = s.ras := rfl
@[simp] theorem executed_lh (s : State) (q : Req) (n : Nat) : (executed q n s).lh = s.lh := rfl
@[simp] theorem executed_side (s : State) (q : Req) (n : Nat) : (executed q n s).side = s.side := rfl
@[simp] theorem executed_pow (s : State) (q : Req) (n : Nat) : (executed q n s).pow = s.pow := rfl
@[simp] theorem executed_fw (s : State) (q : Req) (n : Nat) : (executed q n s).fw = s.fw := rfl

/-! answer -/

@[simp] theorem answer_pending (s : State) (q : Req) (st : Status) : (answer q (s, st)).pending = s.pending := rfl
@[simp] theorem answer_out (s : State) (q : Req) (st : Status) : (answer q (s, st)).out = s.out ++ [.response q.sid q.src 0 st false []] := rfl
@[simp] theorem answer_free (s : State) (q : Req) (st : Status) : (answer q (s, st)).free = s.free := rfl
@[simp] theorem answer_tick (s : State) (q : Req) (st : Status) : (answer q (s, st)).tick = s.tick := rfl
@[simp] theorem answer_gov (s : State) (q : Req) (st : Status) : (answer q (s, st)).gov = s.gov := rfl
@[simp] theorem answer_parts (s : State) (q : Req) (st : Status) : (answer q (s, st)).parts = s.parts := rfl
@[simp] theorem answer_rings (s : State) (q : Req) (st : Status) : (answer q (s, st)).rings = s.rings := rfl
@[simp] theorem answer_arrays (s : State) (q : Req) (st : Status) : (answer q (s, st)).arrays = s.arrays := rfl
@[simp] theorem answer_mem (s : State) (q : Req) (st : Status) : (answer q (s, st)).mem = s.mem := rfl
@[simp] theorem answer_fab (s : State) (q : Req) (st : Status) : (answer q (s, st)).fab = s.fab := rfl
@[simp] theorem answer_keys (s : State) (q : Req) (st : Status) : (answer q (s, st)).keys = s.keys := rfl
@[simp] theorem answer_bind (s : State) (q : Req) (st : Status) : (answer q (s, st)).bind = s.bind := rfl
@[simp] theorem answer_life (s : State) (q : Req) (st : Status) : (answer q (s, st)).life = s.life := rfl
@[simp] theorem answer_ras (s : State) (q : Req) (st : Status) : (answer q (s, st)).ras = s.ras := rfl
@[simp] theorem answer_lh (s : State) (q : Req) (st : Status) : (answer q (s, st)).lh = s.lh := rfl
@[simp] theorem answer_side (s : State) (q : Req) (st : Status) : (answer q (s, st)).side = s.side := rfl
@[simp] theorem answer_pow (s : State) (q : Req) (st : Status) : (answer q (s, st)).pow = s.pow := rfl
@[simp] theorem answer_fw (s : State) (q : Req) (st : Status) : (answer q (s, st)).fw = s.fw := rfl

/-! answerData -/

@[simp] theorem answerData_pending (s : State) (q : Req) (st : Status) (b : Bytes) (index sub : Nat) : (answerData q index sub (s, st, b)).pending = s.pending := by unfold answerData; dsimp only; split <;> rfl
@[simp] theorem answerData_out (s : State) (q : Req) (st : Status) (b : Bytes) (index sub : Nat) : (answerData q index sub (s, st, b)).out = s.out ++ [.response q.sid q.src 0 st false (reqWire (executed q 1 s) q index sub st b)] := by unfold answerData; dsimp only; split <;> rfl
@[simp] theorem answerData_free (s : State) (q : Req) (st : Status) (b : Bytes) (index sub : Nat) : (answerData q index sub (s, st, b)).free = s.free := by unfold answerData; dsimp only; split <;> rfl
@[simp] theorem answerData_tick (s : State) (q : Req) (st : Status) (b : Bytes) (index sub : Nat) : (answerData q index sub (s, st, b)).tick = s.tick := by unfold answerData; dsimp only; split <;> rfl
@[simp] theorem answerData_gov (s : State) (q : Req) (st : Status) (b : Bytes) (index sub : Nat) : (answerData q index sub (s, st, b)).gov = s.gov := by unfold answerData; dsimp only; split <;> rfl
@[simp] theorem answerData_parts (s : State) (q : Req) (st : Status) (b : Bytes) (index sub : Nat) : (answerData q index sub (s, st, b)).parts = s.parts := by unfold answerData; dsimp only; split <;> rfl
@[simp] theorem answerData_rings (s : State) (q : Req) (st : Status) (b : Bytes) (index sub : Nat) : (answerData q index sub (s, st, b)).rings = s.rings := by unfold answerData; dsimp only; split <;> rfl
@[simp] theorem answerData_arrays (s : State) (q : Req) (st : Status) (b : Bytes) (index sub : Nat) : (answerData q index sub (s, st, b)).arrays = s.arrays := by unfold answerData; dsimp only; split <;> rfl
@[simp] theorem answerData_mem (s : State) (q : Req) (st : Status) (b : Bytes) (index sub : Nat) : (answerData q index sub (s, st, b)).mem = s.mem := by unfold answerData; dsimp only; split <;> rfl
@[simp] theorem answerData_fab (s : State) (q : Req) (st : Status) (b : Bytes) (index sub : Nat) : (answerData q index sub (s, st, b)).fab = s.fab := by unfold answerData; dsimp only; split <;> rfl
@[simp] theorem answerData_keys (s : State) (q : Req) (st : Status) (b : Bytes) (index sub : Nat) : (answerData q index sub (s, st, b)).keys = s.keys := by unfold answerData; dsimp only; split <;> rfl
@[simp] theorem answerData_bind (s : State) (q : Req) (st : Status) (b : Bytes) (index sub : Nat) : (answerData q index sub (s, st, b)).bind = s.bind := by unfold answerData; dsimp only; split <;> rfl
@[simp] theorem answerData_life (s : State) (q : Req) (st : Status) (b : Bytes) (index sub : Nat) : (answerData q index sub (s, st, b)).life = s.life := by unfold answerData; dsimp only; split <;> rfl
@[simp] theorem answerData_ras (s : State) (q : Req) (st : Status) (b : Bytes) (index sub : Nat) : (answerData q index sub (s, st, b)).ras = s.ras := by unfold answerData; dsimp only; split <;> rfl
@[simp] theorem answerData_lh (s : State) (q : Req) (st : Status) (b : Bytes) (index sub : Nat) : (answerData q index sub (s, st, b)).lh = s.lh := by unfold answerData; dsimp only; split <;> rfl
@[simp] theorem answerData_side (s : State) (q : Req) (st : Status) (b : Bytes) (index sub : Nat) : (answerData q index sub (s, st, b)).side = s.side := by unfold answerData; dsimp only; split <;> rfl
@[simp] theorem answerData_pow (s : State) (q : Req) (st : Status) (b : Bytes) (index sub : Nat) : (answerData q index sub (s, st, b)).pow = s.pow := by unfold answerData; dsimp only; split <;> rfl
@[simp] theorem answerData_fw (s : State) (q : Req) (st : Status) (b : Bytes) (index sub : Nat) : (answerData q index sub (s, st, b)).fw = s.fw := by unfold answerData; dsimp only; split <;> rfl

/-! updSession -/

@[simp] theorem updSession_pending (s : State) (i : Nat) (f : Session → Session) : (updSession i f s).pending = s.pending := rfl
@[simp] theorem updSession_out (s : State) (i : Nat) (f : Session → Session) : (updSession i f s).out = s.out := rfl
@[simp] theorem updSession_free (s : State) (i : Nat) (f : Session → Session) : (updSession i f s).free = s.free := rfl
@[simp] theorem updSession_tick (s : State) (i : Nat) (f : Session → Session) : (updSession i f s).tick = s.tick := rfl
@[simp] theorem updSession_gov (s : State) (i : Nat) (f : Session → Session) : (updSession i f s).gov = s.gov := rfl
@[simp] theorem updSession_parts (s : State) (i : Nat) (f : Session → Session) : (updSession i f s).parts = s.parts := rfl
@[simp] theorem updSession_rings (s : State) (i : Nat) (f : Session → Session) : (updSession i f s).rings = s.rings := rfl
@[simp] theorem updSession_arrays (s : State) (i : Nat) (f : Session → Session) : (updSession i f s).arrays = s.arrays := rfl
@[simp] theorem updSession_mem (s : State) (i : Nat) (f : Session → Session) : (updSession i f s).mem = s.mem := rfl
@[simp] theorem updSession_fab (s : State) (i : Nat) (f : Session → Session) : (updSession i f s).fab = s.fab := rfl
@[simp] theorem updSession_keys (s : State) (i : Nat) (f : Session → Session) : (updSession i f s).keys = s.keys := rfl
@[simp] theorem updSession_bind (s : State) (i : Nat) (f : Session → Session) : (updSession i f s).bind = { s.bind with sessions := alMod i f s.bind.sessions } := rfl
@[simp] theorem updSession_life (s : State) (i : Nat) (f : Session → Session) : (updSession i f s).life = s.life := rfl
@[simp] theorem updSession_ras (s : State) (i : Nat) (f : Session → Session) : (updSession i f s).ras = s.ras := rfl
@[simp] theorem updSession_lh (s : State) (i : Nat) (f : Session → Session) : (updSession i f s).lh = s.lh := rfl
@[simp] theorem updSession_dict (s : State) (i : Nat) (f : Session → Session) : (updSession i f s).dict = s.dict := rfl
@[simp] theorem updSession_side (s : State) (i : Nat) (f : Session → Session) : (updSession i f s).side = s.side := rfl
@[simp] theorem updSession_pow (s : State) (i : Nat) (f : Session → Session) : (updSession i f s).pow = s.pow := rfl
@[simp] theorem updSession_fw (s : State) (i : Nat) (f : Session → Session) : (updSession i f s).fw = s.fw := rfl

/-! setFlow -/

@[simp] theorem setFlow_pending (s : State) (n : Nat) (x : Flow) : (setFlow n x s).pending = s.pending := rfl
@[simp] theorem setFlow_out (s : State) (n : Nat) (x : Flow) : (setFlow n x s).out = s.out := rfl
@[simp] theorem setFlow_free (s : State) (n : Nat) (x : Flow) : (setFlow n x s).free = s.free := rfl
@[simp] theorem setFlow_tick (s : State) (n : Nat) (x : Flow) : (setFlow n x s).tick = s.tick := rfl
@[simp] theorem setFlow_gov (s : State) (n : Nat) (x : Flow) : (setFlow n x s).gov = s.gov := rfl
@[simp] theorem setFlow_parts (s : State) (n : Nat) (x : Flow) : (setFlow n x s).parts = s.parts := rfl
@[simp] theorem setFlow_rings (s : State) (n : Nat) (x : Flow) : (setFlow n x s).rings = s.rings := rfl
@[simp] theorem setFlow_arrays (s : State) (n : Nat) (x : Flow) : (setFlow n x s).arrays = s.arrays := rfl
@[simp] theorem setFlow_mem (s : State) (n : Nat) (x : Flow) : (setFlow n x s).mem = s.mem := rfl
@[simp] theorem setFlow_fab (s : State) (n : Nat) (x : Flow) : (setFlow n x s).fab = { s.fab with flows := alSet n x s.fab.flows } := rfl
@[simp] theorem setFlow_keys (s : State) (n : Nat) (x : Flow) : (setFlow n x s).keys = s.keys := rfl
@[simp] theorem setFlow_bind (s : State) (n : Nat) (x : Flow) : (setFlow n x s).bind = s.bind := rfl
@[simp] theorem setFlow_life (s : State) (n : Nat) (x : Flow) : (setFlow n x s).life = s.life := rfl
@[simp] theorem setFlow_ras (s : State) (n : Nat) (x : Flow) : (setFlow n x s).ras = s.ras := rfl
@[simp] theorem setFlow_lh (s : State) (n : Nat) (x : Flow) : (setFlow n x s).lh = s.lh := rfl
@[simp] theorem setFlow_dict (s : State) (n : Nat) (x : Flow) : (setFlow n x s).dict = s.dict := rfl
@[simp] theorem setFlow_side (s : State) (n : Nat) (x : Flow) : (setFlow n x s).side = s.side := rfl
@[simp] theorem setFlow_pow (s : State) (n : Nat) (x : Flow) : (setFlow n x s).pow = s.pow := rfl
@[simp] theorem setFlow_fw (s : State) (n : Nat) (x : Flow) : (setFlow n x s).fw = s.fw := rfl

/-! setRequest -/

@[simp] theorem setRequest_pending (s : State) (v : BitVec 8) : (setRequest v s).pending = s.pending := rfl
@[simp] theorem setRequest_out (s : State) (v : BitVec 8) : (setRequest v s).out = s.out := rfl
@[simp] theorem setRequest_free (s : State) (v : BitVec 8) : (setRequest v s).free = s.free := rfl
@[simp] theorem setRequest_tick (s : State) (v : BitVec 8) : (setRequest v s).tick = s.tick := rfl
@[simp] theorem setRequest_gov (s : State) (v : BitVec 8) : (setRequest v s).gov = s.gov := rfl
@[simp] theorem setRequest_parts (s : State) (v : BitVec 8) : (setRequest v s).parts = s.parts := rfl
@[simp] theorem setRequest_rings (s : State) (v : BitVec 8) : (setRequest v s).rings = s.rings := rfl
@[simp] theorem setRequest_arrays (s : State) (v : BitVec 8) : (setRequest v s).arrays = s.arrays := rfl
@[simp] theorem setRequest_mem (s : State) (v : BitVec 8) : (setRequest v s).mem = s.mem := rfl
@[simp] theorem setRequest_fab (s : State) (v : BitVec 8) : (setRequest v s).fab = s.fab := rfl
@[simp] theorem setRequest_keys (s : State) (v : BitVec 8) : (setRequest v s).keys = s.keys := rfl
@[simp] theorem setRequest_bind (s : State) (v : BitVec 8) : (setRequest v s).bind = s.bind := rfl
@[simp] theorem setRequest_life (s : State) (v : BitVec 8) : (setRequest v s).life = s.life := rfl
@[simp] theorem setRequest_ras (s : State) (v : BitVec 8) : (setRequest v s).ras = s.ras := rfl
@[simp] theorem setRequest_lh (s : State) (v : BitVec 8) : (setRequest v s).lh = s.lh := rfl
@[simp] theorem setRequest_dict (s : State) (v : BitVec 8) : (setRequest v s).dict = s.dict := rfl
@[simp] theorem setRequest_side (s : State) (v : BitVec 8) : (setRequest v s).side = s.side := rfl
@[simp] theorem setRequest_pow (s : State) (v : BitVec 8) : (setRequest v s).pow = { s.pow with request := v } := rfl
@[simp] theorem setRequest_fw (s : State) (v : BitVec 8) : (setRequest v s).fw = s.fw := rfl

/-! setLatched -/

@[simp] theorem setLatched_pending (s : State) (m : ModState) (l : Option ModState) : (setLatched m l s).pending = s.pending := rfl
@[simp] theorem setLatched_out (s : State) (m : ModState) (l : Option ModState) : (setLatched m l s).out = s.out := rfl
@[simp] theorem setLatched_free (s : State) (m : ModState) (l : Option ModState) : (setLatched m l s).free = s.free := rfl
@[simp] theorem setLatched_tick (s : State) (m : ModState) (l : Option ModState) : (setLatched m l s).tick = s.tick := rfl
@[simp] theorem setLatched_gov (s : State) (m : ModState) (l : Option ModState) : (setLatched m l s).gov = s.gov := rfl
@[simp] theorem setLatched_parts (s : State) (m : ModState) (l : Option ModState) : (setLatched m l s).parts = s.parts := rfl
@[simp] theorem setLatched_rings (s : State) (m : ModState) (l : Option ModState) : (setLatched m l s).rings = s.rings := rfl
@[simp] theorem setLatched_arrays (s : State) (m : ModState) (l : Option ModState) : (setLatched m l s).arrays = s.arrays := rfl
@[simp] theorem setLatched_mem (s : State) (m : ModState) (l : Option ModState) : (setLatched m l s).mem = s.mem := rfl
@[simp] theorem setLatched_fab (s : State) (m : ModState) (l : Option ModState) : (setLatched m l s).fab = s.fab := rfl
@[simp] theorem setLatched_keys (s : State) (m : ModState) (l : Option ModState) : (setLatched m l s).keys = s.keys := rfl
@[simp] theorem setLatched_bind (s : State) (m : ModState) (l : Option ModState) : (setLatched m l s).bind = s.bind := rfl
@[simp] theorem setLatched_life (s : State) (m : ModState) (l : Option ModState) : (setLatched m l s).life = s.life := rfl
@[simp] theorem setLatched_ras (s : State) (m : ModState) (l : Option ModState) : (setLatched m l s).ras = s.ras := rfl
@[simp] theorem setLatched_lh (s : State) (m : ModState) (l : Option ModState) : (setLatched m l s).lh = s.lh := rfl
@[simp] theorem setLatched_dict (s : State) (m : ModState) (l : Option ModState) : (setLatched m l s).dict = s.dict := rfl
@[simp] theorem setLatched_side (s : State) (m : ModState) (l : Option ModState) : (setLatched m l s).side = s.side := rfl
@[simp] theorem setLatched_pow (s : State) (m : ModState) (l : Option ModState) : (setLatched m l s).pow = { s.pow with mod := m, latched := l } := rfl
@[simp] theorem setLatched_fw (s : State) (m : ModState) (l : Option ModState) : (setLatched m l s).fw = s.fw := rfl

/-! putVM -/

@[simp] theorem putVM_pending (s : State) (v : VM) : (s.putVM v).pending = s.pending := rfl
@[simp] theorem putVM_tick (s : State) (v : VM) : (s.putVM v).tick = s.tick := rfl
@[simp] theorem putVM_gov (s : State) (v : VM) : (s.putVM v).gov = s.gov := rfl
@[simp] theorem putVM_rings (s : State) (v : VM) : (s.putVM v).rings = s.rings := rfl
@[simp] theorem putVM_arrays (s : State) (v : VM) : (s.putVM v).arrays = s.arrays := rfl
@[simp] theorem putVM_fab (s : State) (v : VM) : (s.putVM v).fab = s.fab := rfl
@[simp] theorem putVM_keys (s : State) (v : VM) : (s.putVM v).keys = s.keys := rfl
@[simp] theorem putVM_bind (s : State) (v : VM) : (s.putVM v).bind = s.bind := rfl
@[simp] theorem putVM_life (s : State) (v : VM) : (s.putVM v).life = s.life := rfl
@[simp] theorem putVM_lh (s : State) (v : VM) : (s.putVM v).lh = s.lh := rfl
@[simp] theorem putVM_side (s : State) (v : VM) : (s.putVM v).side = s.side := rfl
@[simp] theorem putVM_pow (s : State) (v : VM) : (s.putVM v).pow = s.pow := rfl
@[simp] theorem putVM_fw (s : State) (v : VM) : (s.putVM v).fw = s.fw := rfl

/-! One element of the state's vectors after an update. -/

@[simp] theorem updPart_at (s : State) (p : PartId) (f : Part → Part) : (s.updPart p f).parts[p] = f s.parts[p] := modVec_self ..
theorem updPart_other (s : State) (p k : PartId) (f : Part → Part) (h : k ≠ p) : (s.updPart p f).parts[k] = s.parts[k] := modVec_other _ _ _ _ h
@[simp] theorem updArray_at (s : State) (a : ArrayId) (f : ArrayEng → ArrayEng) : (s.updArray a f).arrays[a] = f s.arrays[a] := modVec_self ..
theorem updArray_other (s : State) (a k : ArrayId) (f : ArrayEng → ArrayEng) (h : k ≠ a) : (s.updArray a f).arrays[k] = s.arrays[k] := modVec_other _ _ _ _ h
@[simp] theorem updStrait_at (s : State) (k : StraitId) (f : Strait → Strait) : (s.updStrait k f).fab.straits[k] = f s.fab.straits[k] := modVec_self ..
theorem updStrait_other (s : State) (k j : StraitId) (f : Strait → Strait) (h : j ≠ k) : (s.updStrait k f).fab.straits[j] = s.fab.straits[j] := modVec_other _ _ _ _ h
@[simp] theorem updRing_at (s : State) (p : PartId) (r : RingId) (f : Ring → Ring) : (s.updRing p r f).rings[p][r] = f s.rings[p][r] := by
  simp only [updRing_rings, modVec_self]
theorem updRing_other_part (s : State) (p k : PartId) (r : RingId) (f : Ring → Ring) (h : k ≠ p) : (s.updRing p r f).rings[k] = s.rings[k] := modVec_other _ _ _ _ h
theorem updRing_other_ring (s : State) (p : PartId) (r j : RingId) (f : Ring → Ring) (h : j ≠ r) : (s.updRing p r f).rings[p][j] = s.rings[p][j] := by
  simp only [updRing_rings, modVec_self]
  exact modVec_other _ _ _ _ h

/-! Lists keyed by a number. -/

@[simp] theorem alGet_alSet_self {α : Type} (k : Nat) (v : α) (l : List (Nat × α)) : alGet k (alSet k v l) = some v := by
  induction l with
  | nil => simp [alSet, alGet]
  | cons x r ih =>
    obtain ⟨j, w⟩ := x
    simp only [alSet]
    split
    · simp [alGet]
    · split
      · simp [alGet]
      · rename_i h; simp [alGet, h, ih]

theorem alGet_alSet_other {α : Type} (k j : Nat) (v : α) (l : List (Nat × α)) (h : j ≠ k) : alGet j (alSet k v l) = alGet j l := by
  induction l with
  | nil => simp [alSet, alGet, Ne.symm h]
  | cons x r ih =>
    obtain ⟨i, w⟩ := x
    simp only [alSet]
    split
    · simp [alGet, Ne.symm h]
    · split
      · subst_vars; simp [alGet, Ne.symm h]
      · simp [alGet, ih]

theorem alDel_cons {α : Type} (k : Nat) (x : Nat × α) (r : List (Nat × α)) : alDel k (x :: r) = if x.1 = k then alDel k r else x :: alDel k r := by
  by_cases h : x.1 = k <;> simp [alDel, h]

@[simp] theorem alGet_alDel_self {α : Type} (k : Nat) (l : List (Nat × α)) : alGet k (alDel k l) = none := by
  induction l with
  | nil => rfl
  | cons x r ih =>
    rw [alDel_cons]
    split
    · exact ih
    · rename_i h; simp [alGet, h, ih]

theorem alGet_alDel_other {α : Type} (k j : Nat) (l : List (Nat × α)) (h : j ≠ k) : alGet j (alDel k l) = alGet j l := by
  induction l with
  | nil => rfl
  | cons x r ih =>
    rw [alDel_cons]
    split
    · rename_i e; rw [ih]; simp [alGet, e, Ne.symm h]
    · simp [alGet, ih]

@[simp] theorem alGet_alPut_self {α : Type} [DecidableEq α] (d : α) (k : Nat) (v : α) (l : List (Nat × α)) : (alGet k (alPut d k v l)).getD d = v := by
  simp only [alPut]
  split
  · simp_all
  · simp

theorem alGet_alPut_other {α : Type} [DecidableEq α] (d : α) (k j : Nat) (v : α) (l : List (Nat × α)) (h : j ≠ k) : alGet j (alPut d k v l) = alGet j l := by
  simp only [alPut]
  split
  · exact alGet_alDel_other _ _ _ h
  · exact alGet_alSet_other _ _ _ _ h

theorem alGet_alMod {α : Type} (k j : Nat) (f : α → α) (l : List (Nat × α)) : alGet j (alMod k f l) = if j = k then (alGet j l).map f else alGet j l := by
  induction l with
  | nil => simp [alMod, alGet]
  | cons x r ih =>
    obtain ⟨i, w⟩ := x
    simp only [alMod, List.map_cons] at ih ⊢
    by_cases e : i = k
    · subst e
      by_cases h : i = j
      · subst h; simp [alGet]
      · simp only [if_true, alGet, if_neg h, ih]
    · by_cases h : i = j
      · subst h; simp [alGet, e]
      · simp only [if_neg e, alGet, if_neg h, ih]

end Sys2Proof.Machine
end

