-- ==== Sys2Proof/Laws/Memory.lean ====
section
/-!
SUPPORT. Laws/Memory.lean: the bytes of a window: a read after a write, every other byte as before, and the canonical form kept.
-/

namespace Sys2Proof.Machine

@[simp] theorem cellRead_cellWrite_self (a : Nat) (b : Byte) (m : List Host.Cell) : cellRead (cellWrite a b m) a = b := alGet_alPut_self _ _ _ _

theorem cellRead_cellWrite_other (a x : Nat) (b : Byte) (m : List Host.Cell) (h : x ≠ a) : cellRead (cellWrite a b m) x = cellRead m x := by
  simp only [cellRead, cellWrite, alGet_alPut_other _ _ _ _ _ h]

/-- Bytes outside a written range read as before. -/
theorem cellRead_cellsWrite_outside (b : Bytes) (a x : Nat) (m : List Host.Cell) (h : x < a ∨ a + b.length ≤ x) :
    cellRead (cellsWrite a b m) x = cellRead m x := by
  induction b generalizing a m with
  | nil => rfl
  | cons v r ih =>
    simp only [List.length_cons] at h
    rw [cellsWrite, ih (a + 1) _ (by omega), cellRead_cellWrite_other _ _ _ _ (by omega)]

/-- Bytes inside a written range read as written. -/
theorem cellRead_cellsWrite_inside (b : Bytes) (a i : Nat) (m : List Host.Cell) (h : i < b.length) :
    cellRead (cellsWrite a b m) (a + i) = b[i] := by
  induction b generalizing a m i with
  | nil => exact absurd h (Nat.not_lt_zero _)
  | cons v r ih =>
    rw [cellsWrite]
    cases i with
    | zero => rw [cellRead_cellsWrite_outside _ _ _ _ (by omega)]; simp
    | succ j =>
      have := ih (a + 1) j (cellWrite a v m) (by simpa using h)
      simpa [Nat.add_assoc, Nat.add_comm 1] using this

/-! The canonical form. -/

theorem keysRise_cons {α : Type} (x : Nat × α) (l : List (Nat × α)) : keysRise (x :: l) = true ↔ (∀ y ∈ l, x.1 < y.1) ∧ keysRise l = true := by
  induction l generalizing x with
  | nil => simp [keysRise]
  | cons y r ih =>
    rw [keysRise]
    simp only [Bool.and_eq_true, decide_eq_true_eq, List.mem_cons, forall_eq_or_imp]
    constructor
    · rintro ⟨h, k⟩
      exact ⟨⟨h, fun z hz => Nat.lt_trans h (((ih y).1 k).1 z hz)⟩, k⟩
    · rintro ⟨⟨h, -⟩, k⟩
      exact ⟨h, k⟩

theorem mem_alSet {α : Type} (k : Nat) (v : α) (l : List (Nat × α)) (y : Nat × α) (h : y ∈ alSet k v l) : y = (k, v) ∨ y ∈ l := by
  induction l with
  | nil => simpa [alSet] using h
  | cons x r ih =>
    obtain ⟨j, w⟩ := x
    simp only [alSet] at h
    split at h
    · simpa using h
    · split at h
      · rcases List.mem_cons.1 h with h | h
        · exact .inl h
        · exact .inr (List.mem_cons_of_mem _ h)
      · rcases List.mem_cons.1 h with h | h
        · exact .inr (h ▸ List.mem_cons_self ..)
        · exact (ih h).imp_right (List.mem_cons_of_mem _)

theorem keysRise_alSet {α : Type} (k : Nat) (v : α) (l : List (Nat × α)) (h : keysRise l = true) : keysRise (alSet k v l) = true := by
  induction l with
  | nil => rfl
  | cons x r ih =>
    obtain ⟨j, w⟩ := x
    obtain ⟨h1, h2⟩ := (keysRise_cons _ _).1 h
    simp only [alSet]
    split
    · rename_i lt
      exact (keysRise_cons _ _).2 ⟨fun y hy => by
        rcases List.mem_cons.1 hy with e | e
        · subst e; exact lt
        · exact Nat.lt_trans lt (h1 y e), h⟩
    · split
      · rename_i e; subst e
        exact (keysRise_cons _ _).2 ⟨h1, h2⟩
      · refine (keysRise_cons _ _).2 ⟨fun y hy => ?_, ih h2⟩
        rcases mem_alSet k v r y hy with e | e
        · subst e; simp only; omega
        · exact h1 y e

theorem keysRise_filter {α : Type} (P : Nat × α → Bool) (l : List (Nat × α)) (h : keysRise l = true) : keysRise (l.filter P) = true := by
  induction l with
  | nil => rfl
  | cons x r ih =>
    obtain ⟨h1, h2⟩ := (keysRise_cons _ _).1 h
    rw [List.filter_cons]
    split
    · exact (keysRise_cons _ _).2 ⟨fun y hy => h1 y (List.mem_filter.1 hy).1, ih h2⟩
    · exact ih h2

@[simp] theorem wf_nil : Memory.wf [] = true := rfl

theorem wf_filter (P : Host.Cell → Bool) (m : List Host.Cell) (h : Memory.wf m = true) : Memory.wf (m.filter P) = true := by
  simp only [Memory.wf, Bool.and_eq_true, List.all_eq_true] at h ⊢
  exact ⟨keysRise_filter P m h.1, fun c hc => h.2 c (List.mem_filter.1 hc).1⟩

/-- Writing a byte keeps the canonical form. -/
theorem wf_cellWrite (a : Nat) (b : Byte) (m : List Host.Cell) (h : Memory.wf m = true) : Memory.wf (cellWrite a b m) = true := by
  simp only [cellWrite, alPut]
  split
  · exact wf_filter _ m h
  · rename_i nz
    simp only [Memory.wf, Bool.and_eq_true, List.all_eq_true] at h ⊢
    refine ⟨keysRise_alSet a b m h.1, fun c hc => ?_⟩
    rcases mem_alSet a b m c hc with e | e
    · subst e; simpa using nz
    · exact h.2 c e

/-- Writing a range keeps the canonical form. -/
theorem wf_cellsWrite (b : Bytes) (a : Nat) (m : List Host.Cell) (h : Memory.wf m = true) : Memory.wf (cellsWrite a b m) = true := by
  induction b generalizing a m with
  | nil => exact h
  | cons v r ih => exact ih _ _ (wf_cellWrite _ _ _ h)

end Sys2Proof.Machine
end

