-- ==== Sys2Proof/Laws/Ops.lean ====
section
/-!
SUPPORT. Laws/Ops.lean: what the shared shapes of the meanings can do: a cause that is needed, a module that hears, a guarded write and its answer; and how a change of one entry of a running list reads back.
-/

namespace Sys2Proof.Machine

theorem need_of {b : Bool} {t : State} (h : b = true) : need b t = .next t := by simp [need, h]
theorem need_next {b : Bool} {t u : State} : need b t = .next u ↔ b = true ∧ t = u := by cases b <;> simp [need]
theorem software_of {s t : State} (h : reachable s = true) : software s t = .next t := by simp [software, heard, h]
theorem software_not {s t : State} (h : reachable s = false) : software s t = .next s := by simp [software, heard, h]
theorem software_next {s t u : State} : software s t = .next u ↔ (if reachable s then t else s) = u := by
  unfold software heard; exact ⟨fun h => by cases h; rfl, fun h => by rw [h]⟩
theorem guarded_of {s : State} {i : Nat} {may : Bool} {f : State × Status} (h : served s i = true) (m : may = true) : guarded s i may f = f := by simp [guarded, h, m]
theorem guarded_not {s : State} {i : Nat} {may : Bool} {f : State × Status} (h : (served s i && may) = false) : guarded s i may f = (s, .denied) := by simp [guarded, h]

/-- Changing the part of the running list that an array has leaves what it runs. -/
theorem updRun_cur (a b : ArrayId) (f : ArrayRun → ArrayRun) (s : State) : (updRun a f s).arrays[b].cur = s.arrays[b].cur := by
  unfold updRun; split <;> rfl

theorem find_map_array (l : List ArrayRun) (a : ArrayId) (f : ArrayRun → ArrayRun) (hf : ∀ x : ArrayRun, (f x).array = x.array) :
    (l.map (fun x => if x.array = a then f x else x)).find? (fun x => x.array = a) = (l.find? (fun x => x.array = a)).map f := by
  induction l with
  | nil => rfl
  | cons x l ih =>
    by_cases h : x.array = a
    · simp [h, hf]
    · simp [h, ih]

/-- The part of the running slice that an array has, after a change of it. -/
theorem hereRun_updRun (a : ArrayId) (f : ArrayRun → ArrayRun) (s : State) (hf : ∀ x : ArrayRun, (f x).array = x.array) :
    (hereRun (updRun a f s) a).map (fun x => x.2.2.2) = (hereRun s a).map (fun x => f x.2.2.2) := by
  unfold hereRun
  rw [updRun_cur]
  cases hc : s.arrays[a].cur with
  | none => rfl
  | some pr =>
    obtain ⟨p, r⟩ := pr
    have hr : (updRun a f s).rings[p][r].run =
        s.rings[p][r].run.map (fun run => { run with arrays := run.arrays.map (fun x => if x.array = a then f x else x) }) := by
      unfold updRun; rw [hc]; simp [State.updRing, modVec]
    simp only [Option.bind_some, hr]
    cases s.rings[p][r].run with
    | none => rfl
    | some run =>
      simp only [Option.map_some, Option.bind_some, find_map_array _ _ _ hf]
      cases run.arrays.find? (fun x => x.array = a) <;> rfl

theorem entriesOf_updEntry (a : ArrayId) (e : Nat) (f : EntryRun → EntryRun) (s : State) : entriesOf (updEntry a e f s) a = (entriesOf s a).modify e f := by
  have h := hereRun_updRun a (fun x => { x with entries := x.entries.modify e f }) s (fun _ => rfl)
  unfold entriesOf updEntry
  revert h
  cases hereRun (updRun a (fun x => { x with entries := x.entries.modify e f }) s) a <;> cases hereRun s a <;> simp
  intro h; rw [h]

/-- An entry that is changed reads back changed. -/
theorem entryAt_updEntry_self (a : ArrayId) (e : Nat) (f : EntryRun → EntryRun) (s : State) : entryAt (updEntry a e f s) a e = (entryAt s a e).map f := by
  simp [entryAt, entriesOf_updEntry]

/-- The other entries of the list stand. -/
theorem entryAt_updEntry_other (a : ArrayId) (e i : Nat) (f : EntryRun → EntryRun) (s : State) (h : i ≠ e) : entryAt (updEntry a e f s) a i = entryAt s a i := by
  simp [entryAt, entriesOf_updEntry, h.symm]

end Sys2Proof.Machine
end

