-- ==== Sys2Proof/WellFormed.lean ====
section
/-!
DEFINITION. WellFormed.lean: the checks on a command's operands: a number fits the field that carries it on its way to the module.
-/

namespace Sys2Proof

/-- A number that an unsigned field of `w` bits holds. -/
def fits (w n : Nat) : Bool := decide (n < 2 ^ w)
/-- A Bindery session index (R312): 0x00 to 0xFE. -/
def sessOk (s : SessIx) : Bool := decide (s < 0xFF)
/-- SESSION_ID is 32 bits (R554); a source address and port is known by a number. -/
def Req.wf (q : Req) : Bool := fits 32 q.sid
/-- The header fields of a dictionary message (R554). -/
def DictMsg.wf (m : DictMsg) : Bool := fits 32 m.sid && fits 64 m.seq && fits 32 m.offset && fits 16 m.data.length
/-- The header fields of a packet (R282). -/
def Pkt.wf (p : Pkt) : Bool := fits 48 p.psn && fits 48 p.ackPsn && fits 18 p.flow && fits 6 p.hops
/-- A TICK announce's fields (R291). -/
def Announce.wf (n : Announce) : Bool := fits 64 n.frame && fits 16 n.prio && fits 32 n.accDelay
/-- A contribution's fields (R283, R324). -/
def ContribMsg.wf (m : ContribMsg) : Bool := sessOk m.session && fits 16 m.layer && fits 32 m.step && fits 8 m.part && fits 8 m.parts && fits 16 m.source
/-- A parameter or tip-in chunk's fields (R283). -/
def ChunkMsg.wf (m : ChunkMsg) : Bool := sessOk m.session && fits 16 m.layer && fits 32 m.step
/-- A roster chunk's fields (R358): ranks 0 to 4,095. -/
def RosterMsg.wf (m : RosterMsg) : Bool := sessOk m.session && fits 12 m.sender && fits 64 m.effective && fits 32 m.epoch && m.live.all (fits 12)
/-- Five temperatures of one byte each. -/
def TickIn.wf (t : TickIn) : Bool := decide (t.temps.length = 5) && t.temps.all (fits 8)
/-- A flit carries slots on virtual channels 0 to 4 (R274). -/
def Flit.wf (f : Flit) : Bool := f.slots.all (fun x => decide (x.1 < 5))

/-- The operands of a command fit their fields. -/
def Instr.wf : Instr → Bool
  | .frameTick t => t.wf
  | .energyDueAdmit => true
  | .sliceSplit _ _ t => t.wf
  | .sliceStartOnArray _ => true
  | .passStart _ e => fits 16 e
  | .stationaryTileLoad _ e _ => fits 16 e
  | .tileLoadDone _ => true
  | .vectorOperandLoad _ e _ _ => fits 16 e
  | .tableLoad _ e _ _ => fits 16 e
  | .foldHalfFill _ e => fits 16 e
  | .drainRow _ e _ _ _ => fits 16 e
  | .chainStandaloneGroup _ e _ => fits 16 e
  | .rowStatLand _ => true
  | .quantBlockWrite _ => true
  | .sbTileWrite _ => true
  | .columnCheckDone _ e => fits 16 e
  | .disputeRerunStart _ => true
  | .disputeDecide _ _ _ => true
  | .passEnd _ e => fits 16 e
  | .moverStart _ e => fits 16 e
  | .moverComplete _ e _ => fits 16 e
  | .sliceComplete _ _ _ _ => true
  | .tickAnnounce n => n.wf
  | .tickProbe _ _ => true
  | .tickProbeReply _ _ _ _ => true
  | .tickMissed => true
  | .tickSuccession _ => true
  | .tickSelfMaster => true
  | .peakGuardEngage _ _ => true
  | .peakGuardRelease _ _ => true
  | .framePeriodWrite q _ => q.wf
  | .ringEnableWrite q _ _ _ => q.wf
  | .map q _ => q.wf
  | .unmap q _ => q.wf
  | .setAttr q _ => q.wf
  | .discard q _ => q.wf
  | .ptQuery q _ _ => q.wf
  | .rgnQuery q _ _ => q.wf
  | .poolHomeAccess q _ => q.wf
  | .windowGranuleMove _ _ => true
  | .migrationSectorCopy _ page => fits 35 page
  | .gatheringFetchStart => true
  | .fetchSector _ entry bank _ _ => fits 12 entry && decide (bank < 4)
  | .straitTrainDone _ _ => true
  | .straitRetrainTimer _ => true
  | .train q _ _ => q.wf
  | .straitModeWrite q _ _ => q.wf
  | .flitReceive _ f => f.wf
  | .nakReceive _ _ => true
  | .laneSwap _ _ _ => true
  | .laneRetrainNarrow _ _ => true
  | .straitDown _ _ => true
  | .hopKeyNextGeneration _ _ _ => true
  | .causewayUnitReceive _ _ _ unit => decide (unit.bytes.length = 256)
  | .causewayFail _ => true
  | .flowOpen _ _ peerFlow _ _ => fits 18 peerFlow
  | .flowQuery q _ => q.wf
  | .routeEntryAccess q _ => q.wf
  | .pureAckReceive p _ => p.wf
  | .flowRetryTimeout flow => fits 18 flow
  | .flowIntegrityLost flow => fits 18 flow
  | .flowKeygenAdvance flow => fits 18 flow
  | .pairKeyExpire _ => true
  | .memrdRequest p _ _ _ => p.wf
  | .memrdData p _ _ data => p.wf && decide (data.length ≤ 4)
  | .memrdError p _ _ => p.wf
  | .memwr p _ _ data => p.wf && decide (data.length ≤ 4)
  | .atomicSectorCas p _ _ _ _ => p.wf
  | .atomicResult p _ _ _ => p.wf
  | .wakePacket p _ => p.wf
  | .hello _ => true
  | .reply _ => true
  | .finish _ => true
  | .hostConfigRequest _ _ => true
  | .hostRead _ _ len => decide (1 ≤ len ∧ len ≤ 4096)
  | .hostWrite _ _ data => decide (1 ≤ data.length ∧ data.length ≤ 512)
  | .aptEntryWrite q _ => q.wf
  | .mailboxGo _ _ _ m => m.msg.wf
  | .sessionOpOpen q s => q.wf && sessOk s
  | .sessionDigestMatch s _ => sessOk s
  | .sessionOpClose q s => q.wf && sessOk s
  | .closeLayer q s _ => q.wf && sessOk s
  | .withhold q s _ => q.wf && sessOk s
  | .contribData p m => p.wf && m.wf
  | .foldWindowExpire s layer step _ => sessOk s && fits 16 layer && fits 32 step
  | .contribRoll p s layer step _ => p.wf && sessOk s && fits 16 layer && fits 32 step
  | .contribAbsent p s layer step _ => p.wf && sessOk s && fits 16 layer && fits 32 step
  | .contribRecover p s layer step => p.wf && sessOk s && fits 16 layer && fits 32 step
  | .ownerDeadline s layer step => sessOk s && fits 16 layer && fits 32 step
  | .paramData p m => p.wf && m.wf
  | .versionPublish s layer version => sessOk s && fits 16 layer && fits 32 version
  | .paramResendRequest p s layer version => p.wf && sessOk s && fits 16 layer && fits 32 version
  | .paramResendTimeout s layer version => sessOk s && fits 16 layer && fits 32 version
  | .tipinData p m => p.wf && m.wf
  | .sessionHeartbeat s peer => sessOk s && fits 12 peer
  | .rankSilence s rank => sessOk s && fits 12 rank
  | .roster p m => p.wf && m.wf
  | .rosterQuorumHold s => sessOk s
  | .departRequest p m => p.wf && m.wf
  | .restoreFailed p m => p.wf && m.wf
  | .keeperTimeout s layer => sessOk s && fits 16 layer
  | .departAtFrameSet q s _ => q.wf && sessOk s
  | .departWithdraw q s => q.wf && sessOk s
  | .departDeadline s rank => sessOk s && fits 12 rank
  | .ownerQuery q s _ => q.wf && sessOk s
  | .sectorRead _ va _ => decide (va.toNat % 256 = 0)
  | .sectorWrite _ va _ => decide (va.toNat % 256 = 0)
  | .sectorPartialWrite _ va data _ => decide (1 ≤ data.length ∧ va.toNat % 256 + data.length ≤ 256)
  | .rekeySector _ page _ => fits 35 page
  | .regionSteady _ page => fits 35 page
  | .rotationComplete _ => true
  | .hbmRowRepair _ _ _ => true
  | .windowEccError _ _ _ _ => true
  | .alertAck q _ => q.wf
  | .quotaWrite q _ _ _ => q.wf
  | .create q _ => q.wf
  | .remove q _ => q.wf
  | .removalComplete _ => true
  | .partitionKey q _ => q.wf
  | .rotate q _ => q.wf
  | .jointKey q _ => q.wf
  | .hostGrantWrite q _ _ => q.wf
  | .slotQuery q _ => q.wf
  | .sign q => q.wf
  | .loadCert q => q.wf
  | .newNonce q => q.wf
  | .transition q => q.wf
  | .transitionProgrammed => true
  | .lhSealRequest _ => true
  | .certWrite q _ => q.wf
  | .operatorKeyEnrol q _ => q.wf
  | .challenge q => q.wf
  | .debugOpen q => q.wf
  | .libBegin q => q.wf
  | .libCommit q => q.wf
  | .libChunk q data => q.wf && decide (data.length ≤ 1024)
  | .testComplete _ _ => true
  | .testDeferLimit _ => true
  | .unitRetire _ => true
  | .suspectClear _ => true
  | .unitQuery q _ => q.wf
  | .histQuery q _ => q.wf
  | .auditQuery q _ => q.wf
  | .adcSample _ => true
  | .occupancyWord _ _ entries => decide (entries.length = 34)
  | .strobeOverdue _ => true
  | .selfTimedClose => true
  | .minuteClose => true
  | .lhPowerLoss _ => true
  | .lhPowerOn => true
  | .calibrationChange _ => true
  | .lhReadRequest _ => true
  | .lhQuery q _ _ => q.wf
  | .lighthouseSilent => true
  | .read m => m.wf
  | .write m => m.wf
  | .readBlock m => m.wf
  | .open1 m => m.wf
  | .open3 m => m.wf
  | .sessionClose m => m.wf
  | .segmentGapTimeout q _ => q.wf
  | .sessionIdleTimeout sid => fits 32 sid
  | .descQuery q _ => q.wf
  | .entdaa _ => true
  | .rstdaa => true
  | .setnewda _ => true
  | .getpid => true
  | .getbcr => true
  | .getdcr => true
  | .getstatus => true
  | .getmrl => true
  | .getmwl => true
  | .i3cPrivateWrite _ => true
  | .i3cPrivateRead _ => true
  | .i3cRefresh _ _ => true
  | .inputTurnOn _ => true
  | .inputTurnOff => true
  | .overVoltage => true
  | .modPwrEnRise => true
  | .modPwrEnFall => true
  | .modResetNAssert => true
  | .watchdogExpire => true
  | .thermalTrip _ => true
  | .straitSignalWake _ => true
  | .sidebandWakeFrame _ _ _ => true
  | .stateRequestDoze q => q.wf
  | .stateRequestStandby q => q.wf
  | .stateRequestActive q => q.wf
  | .dozeEntry _ => true
  | .domainReady _ _ => true
  | .domainReadyTimeout _ _ => true
  | .domainOff _ => true
  | .recoveryRequest _ _ segment _ => fits 8 segment
  | .recoveryOffer _ _ segment _ total => fits 8 segment && fits 32 total
  | .recoveryData _ off _ _ => fits 32 off
  | .recoveryResume _ off => fits 32 off
  | .recoveryBusy _ => true
  | .recoveryDataGap => true
  | .recoveryStraitTimeout => true
  | .recoveryRestart => true
  | .fwBegin q => q.wf
  | .fwCommit q => q.wf
  | .fwChunk q data => q.wf && decide (data.length ≤ 1024)
  | .registerWrite q _ _ _ => q.wf
  | .probe _ _ _ _ => true
  | .dieTemperature _ celsius => fits 8 celsius
  | .signalDetect _ => true
  | .pcieTraining k _ _ => decide (16 ≤ k.val)
  | .sbLinkStateChange state => decide (state.toNat ≤ 2)
  | .icmpv6Echo _ _ => true
  | .neighbourDiscovery _ _ _ _ => true
  | .modResetNRelease => true
  | .signComplete sid => fits 32 sid
  | .fwCommitComplete => true
  | .libCommitComplete => true

/-- The session ID that a command brings with it: a requester's, a message's, or a timer's. -/
def Instr.sid : Instr → Option Nat
  | .frameTick _ => none
  | .energyDueAdmit => none
  | .sliceSplit _ _ _ => none
  | .sliceStartOnArray _ => none
  | .passStart _ _ => none
  | .stationaryTileLoad _ _ _ => none
  | .tileLoadDone _ => none
  | .vectorOperandLoad _ _ _ _ => none
  | .tableLoad _ _ _ _ => none
  | .foldHalfFill _ _ => none
  | .drainRow _ _ _ _ _ => none
  | .chainStandaloneGroup _ _ _ => none
  | .rowStatLand _ => none
  | .quantBlockWrite _ => none
  | .sbTileWrite _ => none
  | .columnCheckDone _ _ => none
  | .disputeRerunStart _ => none
  | .disputeDecide _ _ _ => none
  | .passEnd _ _ => none
  | .moverStart _ _ => none
  | .moverComplete _ _ _ => none
  | .sliceComplete _ _ _ _ => none
  | .tickAnnounce _ => none
  | .tickProbe _ _ => none
  | .tickProbeReply _ _ _ _ => none
  | .tickMissed => none
  | .tickSuccession _ => none
  | .tickSelfMaster => none
  | .peakGuardEngage _ _ => none
  | .peakGuardRelease _ _ => none
  | .framePeriodWrite q _ => some q.sid
  | .ringEnableWrite q _ _ _ => some q.sid
  | .map q _ => some q.sid
  | .unmap q _ => some q.sid
  | .setAttr q _ => some q.sid
  | .discard q _ => some q.sid
  | .ptQuery q _ _ => some q.sid
  | .rgnQuery q _ _ => some q.sid
  | .poolHomeAccess q _ => some q.sid
  | .windowGranuleMove _ _ => none
  | .migrationSectorCopy _ _ => none
  | .gatheringFetchStart => none
  | .fetchSector _ _ _ _ _ => none
  | .straitTrainDone _ _ => none
  | .straitRetrainTimer _ => none
  | .train q _ _ => some q.sid
  | .straitModeWrite q _ _ => some q.sid
  | .flitReceive _ _ => none
  | .nakReceive _ _ => none
  | .laneSwap _ _ _ => none
  | .laneRetrainNarrow _ _ => none
  | .straitDown _ _ => none
  | .hopKeyNextGeneration _ _ _ => none
  | .causewayUnitReceive _ _ _ _ => none
  | .causewayFail _ => none
  | .flowOpen _ _ _ _ _ => none
  | .flowQuery q _ => some q.sid
  | .routeEntryAccess q _ => some q.sid
  | .pureAckReceive _ _ => none
  | .flowRetryTimeout _ => none
  | .flowIntegrityLost _ => none
  | .flowKeygenAdvance _ => none
  | .pairKeyExpire _ => none
  | .memrdRequest _ _ _ _ => none
  | .memrdData _ _ _ _ => none
  | .memrdError _ _ _ => none
  | .memwr _ _ _ _ => none
  | .atomicSectorCas _ _ _ _ _ => none
  | .atomicResult _ _ _ _ => none
  | .wakePacket _ _ => none
  | .hello _ => none
  | .reply _ => none
  | .finish _ => none
  | .hostConfigRequest _ _ => none
  | .hostRead _ _ _ => none
  | .hostWrite _ _ _ => none
  | .aptEntryWrite q _ => some q.sid
  | .mailboxGo _ _ _ m => some m.msg.sid
  | .sessionOpOpen q _ => some q.sid
  | .sessionDigestMatch _ _ => none
  | .sessionOpClose q _ => some q.sid
  | .closeLayer q _ _ => some q.sid
  | .withhold q _ _ => some q.sid
  | .contribData _ _ => none
  | .foldWindowExpire _ _ _ _ => none
  | .contribRoll _ _ _ _ _ => none
  | .contribAbsent _ _ _ _ _ => none
  | .contribRecover _ _ _ _ => none
  | .ownerDeadline _ _ _ => none
  | .paramData _ _ => none
  | .versionPublish _ _ _ => none
  | .paramResendRequest _ _ _ _ => none
  | .paramResendTimeout _ _ _ => none
  | .tipinData _ _ => none
  | .sessionHeartbeat _ _ => none
  | .rankSilence _ _ => none
  | .roster _ _ => none
  | .rosterQuorumHold _ => none
  | .departRequest _ _ => none
  | .restoreFailed _ _ => none
  | .keeperTimeout _ _ => none
  | .departAtFrameSet q _ _ => some q.sid
  | .departWithdraw q _ => some q.sid
  | .departDeadline _ _ => none
  | .ownerQuery q _ _ => some q.sid
  | .sectorRead _ _ _ => none
  | .sectorWrite _ _ _ => none
  | .sectorPartialWrite _ _ _ _ => none
  | .rekeySector _ _ _ => none
  | .regionSteady _ _ => none
  | .rotationComplete _ => none
  | .hbmRowRepair _ _ _ => none
  | .windowEccError _ _ _ _ => none
  | .alertAck q _ => some q.sid
  | .quotaWrite q _ _ _ => some q.sid
  | .create q _ => some q.sid
  | .remove q _ => some q.sid
  | .removalComplete _ => none
  | .partitionKey q _ => some q.sid
  | .rotate q _ => some q.sid
  | .jointKey q _ => some q.sid
  | .hostGrantWrite q _ _ => some q.sid
  | .slotQuery q _ => some q.sid
  | .sign q => some q.sid
  | .loadCert q => some q.sid
  | .newNonce q => some q.sid
  | .transition q => some q.sid
  | .transitionProgrammed => none
  | .lhSealRequest _ => none
  | .certWrite q _ => some q.sid
  | .operatorKeyEnrol q _ => some q.sid
  | .challenge q => some q.sid
  | .debugOpen q => some q.sid
  | .libBegin q => some q.sid
  | .libCommit q => some q.sid
  | .libChunk q _ => some q.sid
  | .testComplete _ _ => none
  | .testDeferLimit _ => none
  | .unitRetire _ => none
  | .suspectClear _ => none
  | .unitQuery q _ => some q.sid
  | .histQuery q _ => some q.sid
  | .auditQuery q _ => some q.sid
  | .adcSample _ => none
  | .occupancyWord _ _ _ => none
  | .strobeOverdue _ => none
  | .selfTimedClose => none
  | .minuteClose => none
  | .lhPowerLoss _ => none
  | .lhPowerOn => none
  | .calibrationChange _ => none
  | .lhReadRequest _ => none
  | .lhQuery q _ _ => some q.sid
  | .lighthouseSilent => none
  | .read m => some m.sid
  | .write m => some m.sid
  | .readBlock m => some m.sid
  | .open1 m => some m.sid
  | .open3 m => some m.sid
  | .sessionClose m => some m.sid
  | .segmentGapTimeout q _ => some q.sid
  | .sessionIdleTimeout sid => some sid
  | .descQuery q _ => some q.sid
  | .entdaa _ => none
  | .rstdaa => none
  | .setnewda _ => none
  | .getpid => none
  | .getbcr => none
  | .getdcr => none
  | .getstatus => none
  | .getmrl => none
  | .getmwl => none
  | .i3cPrivateWrite _ => none
  | .i3cPrivateRead _ => none
  | .i3cRefresh _ _ => none
  | .inputTurnOn _ => none
  | .inputTurnOff => none
  | .overVoltage => none
  | .modPwrEnRise => none
  | .modPwrEnFall => none
  | .modResetNAssert => none
  | .watchdogExpire => none
  | .thermalTrip _ => none
  | .straitSignalWake _ => none
  | .sidebandWakeFrame _ _ _ => none
  | .stateRequestDoze q => some q.sid
  | .stateRequestStandby q => some q.sid
  | .stateRequestActive q => some q.sid
  | .dozeEntry _ => none
  | .domainReady _ _ => none
  | .domainReadyTimeout _ _ => none
  | .domainOff _ => none
  | .recoveryRequest _ _ _ _ => none
  | .recoveryOffer _ _ _ _ _ => none
  | .recoveryData _ _ _ _ => none
  | .recoveryResume _ _ => none
  | .recoveryBusy _ => none
  | .recoveryDataGap => none
  | .recoveryStraitTimeout => none
  | .recoveryRestart => none
  | .fwBegin q => some q.sid
  | .fwCommit q => some q.sid
  | .fwChunk q _ => some q.sid
  | .registerWrite q _ _ _ => some q.sid
  | .probe _ _ _ _ => none
  | .dieTemperature _ _ => none
  | .signalDetect _ => none
  | .pcieTraining _ _ _ => none
  | .sbLinkStateChange _ => none
  | .icmpv6Echo _ _ => none
  | .neighbourDiscovery _ _ _ _ => none
  | .modResetNRelease => none
  | .signComplete sid => some sid
  | .fwCommitComplete => none
  | .libCommitComplete => none

end Sys2Proof
end

