-- ==== Sys2Proof/Laws/PerInstr.lean ====
section
/-!
SUPPORT. Laws/PerInstr.lean: statements made command by command: the SESSION_ID that a well-formed command of the dictionary names fits its 32-bit field (R554).
-/

namespace Sys2Proof.Laws.SessionId

/-- The session that a command of the dictionary speaks for; none for any other command. -/
def sidOf : Instr → Option Nat
  | .framePeriodWrite q _ => some q.sid
  | .ringEnableWrite q _ _ _ => some q.sid
  | .map q _ => some q.sid
  | .unmap q _ => some q.sid
  | .setAttr q _ => some q.sid
  | .discard q _ => some q.sid
  | .ptQuery q _ _ => some q.sid
  | .rgnQuery q _ _ => some q.sid
  | .poolHomeAccess q _ => some q.sid
  | .train q _ _ => some q.sid
  | .straitModeWrite q _ _ => some q.sid
  | .flowQuery q _ => some q.sid
  | .routeEntryAccess q _ => some q.sid
  | .aptEntryWrite q _ => some q.sid
  | .mailboxGo _ _ _ m => some m.msg.sid
  | .sessionOpOpen q _ => some q.sid
  | .sessionOpClose q _ => some q.sid
  | .closeLayer q _ _ => some q.sid
  | .withhold q _ _ => some q.sid
  | .departAtFrameSet q _ _ => some q.sid
  | .departWithdraw q _ => some q.sid
  | .ownerQuery q _ _ => some q.sid
  | .alertAck q _ => some q.sid
  | .quotaWrite q _ _ _ => some q.sid
  | .create q _ => some q.sid
  | .remove q _ => some q.sid
  | .partitionKey q _ => some q.sid
  | .rotate q _ => some q.sid
  | .jointKey q _ => some q.sid
  | .hostGrantWrite q _ _ => some q.sid
  | .slotQuery q _ => some q.sid
  | .sign q => some q.sid
  | .loadCert q => some q.sid
  | .newNonce q => some q.sid
  | .transition q => some q.sid
  | .certWrite q _ => some q.sid
  | .operatorKeyEnrol q _ => some q.sid
  | .challenge q => some q.sid
  | .debugOpen q => some q.sid
  | .libBegin q => some q.sid
  | .libCommit q => some q.sid
  | .libChunk q _ => some q.sid
  | .unitQuery q _ => some q.sid
  | .histQuery q _ => some q.sid
  | .auditQuery q _ => some q.sid
  | .lhQuery q _ _ => some q.sid
  | .read m => some m.sid
  | .write m => some m.sid
  | .readBlock m => some m.sid
  | .open1 m => some m.sid
  | .open3 m => some m.sid
  | .sessionClose m => some m.sid
  | .segmentGapTimeout q _ => some q.sid
  | .descQuery q _ => some q.sid
  | .stateRequestDoze q => some q.sid
  | .stateRequestStandby q => some q.sid
  | .stateRequestActive q => some q.sid
  | .fwBegin q => some q.sid
  | .fwCommit q => some q.sid
  | .fwChunk q _ => some q.sid
  | .registerWrite q _ _ _ => some q.sid
  | _ => none

/-- A well-formed command's SESSION_ID fits 32 bits. -/
def Statement (i : Instr) : Prop := i.wf = true → ∀ n, sidOf i = some n → n < 2 ^ 32

theorem andL {a b : Bool} (h : (a && b) = true) : a = true := ((Bool.and_eq_true _ _).mp h).1
/-- A requester's session ID is of 32 bits. -/
theorem reqLt (q : Req) (h : q.wf = true) : q.sid < 2 ^ 32 := of_decide_eq_true h
/-- So is a message's. -/
theorem msgLt (m : DictMsg) (h : m.wf = true) : m.sid < 2 ^ 32 := of_decide_eq_true (andL (andL (andL h)))

theorem frameTick (t : TickIn) : Statement (.frameTick t) := by intro _ _ hn; cases hn
theorem energyDueAdmit : Statement .energyDueAdmit := by intro _ _ hn; cases hn
theorem sliceSplit (p : PartId) (r : RingId) (t : TickIn) : Statement (.sliceSplit p r t) := by intro _ _ hn; cases hn
theorem sliceStartOnArray (a : ArrayId) : Statement (.sliceStartOnArray a) := by intro _ _ hn; cases hn
theorem passStart (a : ArrayId) (e : Nat) : Statement (.passStart a e) := by intro _ _ hn; cases hn
theorem stationaryTileLoad (a : ArrayId) (e : Nat) (waited : Nat) : Statement (.stationaryTileLoad a e waited) := by intro _ _ hn; cases hn
theorem tileLoadDone (a : ArrayId) : Statement (.tileLoadDone a) := by intro _ _ hn; cases hn
theorem vectorOperandLoad (a : ArrayId) (e : Nat) (slot : Fin 4) (waited : Nat) : Statement (.vectorOperandLoad a e slot waited) := by intro _ _ hn; cases hn
theorem tableLoad (a : ArrayId) (e : Nat) (slot : Fin 4) (waited : Nat) : Statement (.tableLoad a e slot waited) := by intro _ _ hn; cases hn
theorem foldHalfFill (a : ArrayId) (e : Nat) : Statement (.foldHalfFill a e) := by intro _ _ hn; cases hn
theorem drainRow (a : ArrayId) (e : Nat) (bubbles stalls : Nat) (upset : Upset) : Statement (.drainRow a e bubbles stalls upset) := by intro _ _ hn; cases hn
theorem chainStandaloneGroup (a : ArrayId) (e : Nat) (stalls : Nat) : Statement (.chainStandaloneGroup a e stalls) := by intro _ _ hn; cases hn
theorem rowStatLand (a : ArrayId) : Statement (.rowStatLand a) := by intro _ _ hn; cases hn
theorem quantBlockWrite (a : ArrayId) : Statement (.quantBlockWrite a) := by intro _ _ hn; cases hn
theorem sbTileWrite (a : ArrayId) : Statement (.sbTileWrite a) := by intro _ _ hn; cases hn
theorem columnCheckDone (a : ArrayId) (e : Nat) : Statement (.columnCheckDone a e) := by intro _ _ hn; cases hn
theorem disputeRerunStart (a : ArrayId) : Statement (.disputeRerunStart a) := by intro _ _ hn; cases hn
theorem disputeDecide (a : ArrayId) (agreesOriginal agreesCheck : Bool) : Statement (.disputeDecide a agreesOriginal agreesCheck) := by intro _ _ hn; cases hn
theorem passEnd (a : ArrayId) (e : Nat) : Statement (.passEnd a e) := by intro _ _ hn; cases hn
theorem moverStart (a : ArrayId) (e : Nat) : Statement (.moverStart a e) := by intro _ _ hn; cases hn
theorem moverComplete (a : ArrayId) (e : Nat) (faults : List (Nat × Delivered)) : Statement (.moverComplete a e faults) := by intro _ _ hn; cases hn
theorem sliceComplete (p : PartId) (r : RingId) (cycles energy : Nat) : Statement (.sliceComplete p r cycles energy) := by intro _ _ hn; cases hn
theorem tickAnnounce (n : Announce) : Statement (.tickAnnounce n) := by intro _ _ hn; cases hn
theorem tickProbe (k : StraitId) (t1 : Nat) : Statement (.tickProbe k t1) := by intro _ _ hn; cases hn
theorem tickProbeReply (k : StraitId) (t2 t3 t4 : Nat) : Statement (.tickProbeReply k t2 t3 t4) := by intro _ _ hn; cases hn
theorem tickMissed : Statement .tickMissed := by intro _ _ hn; cases hn
theorem tickSuccession (candidates : List (Nat × Device)) : Statement (.tickSuccession candidates) := by intro _ _ hn; cases hn
theorem tickSelfMaster : Statement .tickSelfMaster := by intro _ _ hn; cases hn
theorem peakGuardEngage (avg100us aboveMs : Nat) : Statement (.peakGuardEngage avg100us aboveMs) := by intro _ _ hn; cases hn
theorem peakGuardRelease (throttledUs : Nat) (stalled : List (ArrayId × Nat)) : Statement (.peakGuardRelease throttledUs stalled) := by intro _ _ hn; cases hn
theorem framePeriodWrite (q : Req) (us : BitVec 32) : Statement (.framePeriodWrite q us) := by intro h n hn; cases hn; exact reqLt q h
theorem ringEnableWrite (q : Req) (p : PartId) (r : RingId) (v : Byte) : Statement (.ringEnableWrite q p r v) := by intro h n hn; cases hn; exact reqLt q h
theorem map (q : Req) (p : PartId) : Statement (.map q p) := by intro h n hn; cases hn; exact reqLt q h
theorem unmap (q : Req) (p : PartId) : Statement (.unmap q p) := by intro h n hn; cases hn; exact reqLt q h
theorem setAttr (q : Req) (p : PartId) : Statement (.setAttr q p) := by intro h n hn; cases hn; exact reqLt q h
theorem discard (q : Req) (p : PartId) : Statement (.discard q p) := by intro h n hn; cases hn; exact reqLt q h
theorem ptQuery (q : Req) (p : PartId) (va : BitVec 64) : Statement (.ptQuery q p va) := by intro h n hn; cases hn; exact reqLt q h
theorem rgnQuery (q : Req) (p : PartId) (va : BitVec 64) : Statement (.rgnQuery q p va) := by intro h n hn; cases hn; exact reqLt q h
theorem poolHomeAccess (q : Req) (value : Option Bytes) : Statement (.poolHomeAccess q value) := by intro h n hn; cases hn; exact reqLt q h
theorem windowGranuleMove (p : PartId) (granule : Nat) : Statement (.windowGranuleMove p granule) := by intro _ _ hn; cases hn
theorem migrationSectorCopy (p : PartId) (page : Nat) : Statement (.migrationSectorCopy p page) := by intro _ _ hn; cases hn
theorem gatheringFetchStart : Statement .gatheringFetchStart := by intro _ _ hn; cases hn
theorem fetchSector (p : PartId) (entry : Nat) (bank : Nat) (read replica : Delivered) : Statement (.fetchSector p entry bank read replica) := by intro _ _ hn; cases hn
theorem straitTrainDone (k : StraitId) (r : TrainResult) : Statement (.straitTrainDone k r) := by intro _ _ hn; cases hn
theorem straitRetrainTimer (k : StraitId) : Statement (.straitRetrainTimer k) := by intro _ _ hn; cases hn
theorem train (q : Req) (k : StraitId) (v : Byte) : Statement (.train q k v) := by intro h n hn; cases hn; exact reqLt q h
theorem straitModeWrite (q : Req) (k : StraitId) (v : Byte) : Statement (.straitModeWrite q k v) := by intro h n hn; cases hn; exact reqLt q h
theorem flitReceive (k : StraitId) (f : Flit) : Statement (.flitReceive k f) := by intro _ _ hn; cases hn
theorem nakReceive (k : StraitId) (ack : BitVec 12) : Statement (.nakReceive k ack) := by intro _ _ hn; cases hn
theorem laneSwap (k : StraitId) (lane : Fin 9) (index : Nat) : Statement (.laneSwap k lane index) := by intro _ _ hn; cases hn
theorem laneRetrainNarrow (k : StraitId) (lane : Fin 9) : Statement (.laneRetrainNarrow k lane) := by intro _ _ hn; cases hn
theorem straitDown (k : StraitId) (c : DownCause) : Statement (.straitDown k c) := by intro _ _ hn; cases hn
theorem hopKeyNextGeneration (k : StraitId) (tx : Bool) (index : Nat) : Statement (.hopKeyNextGeneration k tx index) := by intro _ _ hn; cases hn
theorem causewayUnitReceive (c : Fin 8) (a b : DieId) (unit : CswUnit) : Statement (.causewayUnitReceive c a b unit) := by intro _ _ hn; cases hn
theorem causewayFail (c : Fin 8) : Statement (.causewayFail c) := by intro _ _ hn; cases hn
theorem flowOpen (owner : Nat) (peer : Device) (peerFlow : Nat) (classes : List Nat) (session : Option SessIx) : Statement (.flowOpen owner peer peerFlow classes session) := by intro _ _ hn; cases hn
theorem flowQuery (q : Req) (id : BitVec 32) : Statement (.flowQuery q id) := by intro h n hn; cases hn; exact reqLt q h
theorem routeEntryAccess (q : Req) (value : Option (BitVec 32)) : Statement (.routeEntryAccess q value) := by intro h n hn; cases hn; exact reqLt q h
theorem pureAckReceive (p : Pkt) (cls : Nat) : Statement (.pureAckReceive p cls) := by intro _ _ hn; cases hn
theorem flowRetryTimeout (flow : Nat) : Statement (.flowRetryTimeout flow) := by intro _ _ hn; cases hn
theorem flowIntegrityLost (flow : Nat) : Statement (.flowIntegrityLost flow) := by intro _ _ hn; cases hn
theorem flowKeygenAdvance (flow : Nat) : Statement (.flowKeygenAdvance flow) := by intro _ _ hn; cases hn
theorem pairKeyExpire (peer : Device) : Statement (.pairKeyExpire peer) := by intro _ _ hn; cases hn
theorem memrdRequest (p : Pkt) (g : Target) (read : HomeRead) (tag : Byte) : Statement (.memrdRequest p g read tag) := by intro _ _ hn; cases hn
theorem memrdData (p : Pkt) (status tag : Byte) (data : List StoredSector) : Statement (.memrdData p status tag data) := by intro _ _ hn; cases hn
theorem memrdError (p : Pkt) (status tag : Byte) : Statement (.memrdError p status tag) := by intro _ _ hn; cases hn
theorem memwr (p : Pkt) (g : Target) (tag : Byte) (data : List StoredSector) : Statement (.memwr p g tag data) := by intro _ _ hn; cases hn
theorem atomicSectorCas (p : Pkt) (g : GAddr) (tag : Byte) (expected : BitVec 64) (new : StoredSector) : Statement (.atomicSectorCas p g tag expected new) := by intro _ _ hn; cases hn
theorem atomicResult (p : Pkt) (status tag : Byte) (stored : StoredSector) : Statement (.atomicResult p status tag stored) := by intro _ _ hn; cases hn
theorem wakePacket (p : Pkt) (target : Device) : Statement (.wakePacket p target) := by intro _ _ hn; cases hn
theorem hello (h : Handshake) : Statement (.hello h) := by intro _ _ hn; cases hn
theorem reply (h : Handshake) : Statement (.reply h) := by intro _ _ hn; cases hn
theorem finish (h : Handshake) : Statement (.finish h) := by intro _ _ hn; cases hn
theorem hostConfigRequest (k : StraitId) (r : HostReq) : Statement (.hostConfigRequest k r) := by intro _ _ hn; cases hn
theorem hostRead (k : HostLink) (off len : Nat) : Statement (.hostRead k off len) := by intro _ _ hn; cases hn
theorem hostWrite (k : HostLink) (off : Nat) (data : Bytes) : Statement (.hostWrite k off data) := by intro _ _ hn; cases hn
theorem aptEntryWrite (q : Req) (value : BitVec 128) : Statement (.aptEntryWrite q value) := by intro h n hn; cases hn; exact reqLt q h
theorem mailboxGo (k : StraitId) (slot : Fin 16) (op : Byte) (m : MailRequest) : Statement (.mailboxGo k slot op m) := by intro h n hn; cases hn; exact msgLt m.msg h
theorem sessionOpOpen (q : Req) (s : SessIx) : Statement (.sessionOpOpen q s) := by intro h n hn; cases hn; exact reqLt q (andL h)
theorem sessionDigestMatch (s : SessIx) (answers : List (Nat × BitVec 512)) : Statement (.sessionDigestMatch s answers) := by intro _ _ hn; cases hn
theorem sessionOpClose (q : Req) (s : SessIx) : Statement (.sessionOpClose q s) := by intro h n hn; cases hn; exact reqLt q (andL h)
theorem closeLayer (q : Req) (s : SessIx) (v : BitVec 64) : Statement (.closeLayer q s v) := by intro h n hn; cases hn; exact reqLt q (andL h)
theorem withhold (q : Req) (s : SessIx) (v : BitVec 64) : Statement (.withhold q s v) := by intro h n hn; cases hn; exact reqLt q (andL h)
theorem contribData (p : Pkt) (m : ContribMsg) : Statement (.contribData p m) := by intro _ _ hn; cases hn
theorem foldWindowExpire (s : SessIx) (layer step bucket : Nat) : Statement (.foldWindowExpire s layer step bucket) := by intro _ _ hn; cases hn
theorem contribRoll (p : Pkt) (s : SessIx) (layer step : Nat) (ranks : List Nat) : Statement (.contribRoll p s layer step ranks) := by intro _ _ hn; cases hn
theorem contribAbsent (p : Pkt) (s : SessIx) (layer step : Nat) (whole : Bool) : Statement (.contribAbsent p s layer step whole) := by intro _ _ hn; cases hn
theorem contribRecover (p : Pkt) (s : SessIx) (layer step : Nat) : Statement (.contribRecover p s layer step) := by intro _ _ hn; cases hn
theorem ownerDeadline (s : SessIx) (layer step : Nat) : Statement (.ownerDeadline s layer step) := by intro _ _ hn; cases hn
theorem paramData (p : Pkt) (m : ChunkMsg) : Statement (.paramData p m) := by intro _ _ hn; cases hn
theorem versionPublish (s : SessIx) (layer version : Nat) : Statement (.versionPublish s layer version) := by intro _ _ hn; cases hn
theorem paramResendRequest (p : Pkt) (s : SessIx) (layer version : Nat) : Statement (.paramResendRequest p s layer version) := by intro _ _ hn; cases hn
theorem paramResendTimeout (s : SessIx) (layer version : Nat) : Statement (.paramResendTimeout s layer version) := by intro _ _ hn; cases hn
theorem tipinData (p : Pkt) (m : ChunkMsg) : Statement (.tipinData p m) := by intro _ _ hn; cases hn
theorem sessionHeartbeat (s : SessIx) (peer : Nat) : Statement (.sessionHeartbeat s peer) := by intro _ _ hn; cases hn
theorem rankSilence (s : SessIx) (rank : Nat) : Statement (.rankSilence s rank) := by intro _ _ hn; cases hn
theorem roster (p : Pkt) (m : RosterMsg) : Statement (.roster p m) := by intro _ _ hn; cases hn
theorem rosterQuorumHold (s : SessIx) : Statement (.rosterQuorumHold s) := by intro _ _ hn; cases hn
theorem departRequest (p : Pkt) (m : RosterMsg) : Statement (.departRequest p m) := by intro _ _ hn; cases hn
theorem restoreFailed (p : Pkt) (m : RosterMsg) : Statement (.restoreFailed p m) := by intro _ _ hn; cases hn
theorem keeperTimeout (s : SessIx) (layer : Nat) : Statement (.keeperTimeout s layer) := by intro _ _ hn; cases hn
theorem departAtFrameSet (q : Req) (s : SessIx) (frame : BitVec 64) : Statement (.departAtFrameSet q s frame) := by intro h n hn; cases hn; exact reqLt q (andL h)
theorem departWithdraw (q : Req) (s : SessIx) : Statement (.departWithdraw q s) := by intro h n hn; cases hn; exact reqLt q (andL h)
theorem departDeadline (s : SessIx) (rank : Nat) : Statement (.departDeadline s rank) := by intro _ _ hn; cases hn
theorem ownerQuery (q : Req) (s : SessIx) (layer : BitVec 16) : Statement (.ownerQuery q s layer) := by intro h n hn; cases hn; exact reqLt q (andL h)
theorem sectorRead (p : PartId) (va : BitVec 56) (d : Delivered) : Statement (.sectorRead p va d) := by intro _ _ hn; cases hn
theorem sectorWrite (p : PartId) (va : BitVec 56) (data : Sector) : Statement (.sectorWrite p va data) := by intro _ _ hn; cases hn
theorem sectorPartialWrite (p : PartId) (va : BitVec 56) (data : Bytes) (d : Delivered) : Statement (.sectorPartialWrite p va data d) := by intro _ _ hn; cases hn
theorem rekeySector (p : PartId) (page : Nat) (d : Delivered) : Statement (.rekeySector p page d) := by intro _ _ hn; cases hn
theorem regionSteady (p : PartId) (page : Nat) : Statement (.regionSteady p page) := by intro _ _ hn; cases hn
theorem rotationComplete (p : PartId) : Statement (.rotationComplete p) := by intro _ _ hn; cases hn
theorem hbmRowRepair (k : StackId) (row : Nat) (repairRowsLeft : Bool) : Statement (.hbmRowRepair k row repairRowsLeft) := by intro _ _ hn; cases hn
theorem windowEccError (p : PartId) (off : Nat) (bank : Nat) (double : Bool) : Statement (.windowEccError p off bank double) := by intro _ _ hn; cases hn
theorem alertAck (q : Req) (seq : BitVec 64) : Statement (.alertAck q seq) := by intro h n hn; cases hn; exact reqLt q h
theorem quotaWrite (q : Req) (p : PartId) (sub : Byte) (value : Bytes) : Statement (.quotaWrite q p sub value) := by intro h n hn; cases hn; exact reqLt q h
theorem create (q : Req) (p : PartId) : Statement (.create q p) := by intro h n hn; cases hn; exact reqLt q h
theorem remove (q : Req) (p : PartId) : Statement (.remove q p) := by intro h n hn; cases hn; exact reqLt q h
theorem removalComplete (p : PartId) : Statement (.removalComplete p) := by intro _ _ hn; cases hn
theorem partitionKey (q : Req) (blob : Bytes) : Statement (.partitionKey q blob) := by intro h n hn; cases hn; exact reqLt q h
theorem rotate (q : Req) (blob : Bytes) : Statement (.rotate q blob) := by intro h n hn; cases hn; exact reqLt q h
theorem jointKey (q : Req) (blob : Bytes) : Statement (.jointKey q blob) := by intro h n hn; cases hn; exact reqLt q h
theorem hostGrantWrite (q : Req) (p : PartId) (v : Byte) : Statement (.hostGrantWrite q p v) := by intro h n hn; cases hn; exact reqLt q h
theorem slotQuery (q : Req) (id : BitVec 16) : Statement (.slotQuery q id) := by intro h n hn; cases hn; exact reqLt q h
theorem sign (q : Req) : Statement (.sign q) := by intro h n hn; cases hn; exact reqLt q h
theorem loadCert (q : Req) : Statement (.loadCert q) := by intro h n hn; cases hn; exact reqLt q h
theorem newNonce (q : Req) : Statement (.newNonce q) := by intro h n hn; cases hn; exact reqLt q h
theorem transition (q : Req) : Statement (.transition q) := by intro h n hn; cases hn; exact reqLt q h
theorem transitionProgrammed : Statement .transitionProgrammed := by intro _ _ hn; cases hn
theorem lhSealRequest (request : Bytes) : Statement (.lhSealRequest request) := by intro _ _ hn; cases hn
theorem certWrite (q : Req) (cert : Bytes) : Statement (.certWrite q cert) := by intro h n hn; cases hn; exact reqLt q h
theorem operatorKeyEnrol (q : Req) (digest : BitVec 512) : Statement (.operatorKeyEnrol q digest) := by intro h n hn; cases hn; exact reqLt q h
theorem challenge (q : Req) : Statement (.challenge q) := by intro h n hn; cases hn; exact reqLt q h
theorem debugOpen (q : Req) : Statement (.debugOpen q) := by intro h n hn; cases hn; exact reqLt q h
theorem libBegin (q : Req) : Statement (.libBegin q) := by intro h n hn; cases hn; exact reqLt q h
theorem libCommit (q : Req) : Statement (.libCommit q) := by intro h n hn; cases hn; exact reqLt q h
theorem libChunk (q : Req) (data : Bytes) : Statement (.libChunk q data) := by intro h n hn; cases hn; exact reqLt q (andL h)
theorem testComplete (unit : BitVec 16) (r : TestResult) : Statement (.testComplete unit r) := by intro _ _ hn; cases hn
theorem testDeferLimit (unit : BitVec 16) : Statement (.testDeferLimit unit) := by intro _ _ hn; cases hn
theorem unitRetire (unit : BitVec 16) : Statement (.unitRetire unit) := by intro _ _ hn; cases hn
theorem suspectClear (unit : BitVec 16) : Statement (.suspectClear unit) := by intro _ _ hn; cases hn
theorem unitQuery (q : Req) (unit : BitVec 16) : Statement (.unitQuery q unit) := by intro h n hn; cases hn; exact reqLt q h
theorem histQuery (q : Req) (index : BitVec 32) : Statement (.histQuery q index) := by intro h n hn; cases hn; exact reqLt q h
theorem auditQuery (q : Req) (seq : BitVec 64) : Statement (.auditQuery q seq) := by intro h n hn; cases hn; exact reqLt q h
theorem adcSample (uj : Nat) : Statement (.adcSample uj) := by intro _ _ hn; cases hn
theorem occupancyWord (die : Fin 4) (seq : Byte) (entries : List Byte) : Statement (.occupancyWord die seq entries) := by intro _ _ hn; cases hn
theorem strobeOverdue (lengthUs : Nat) : Statement (.strobeOverdue lengthUs) := by intro _ _ hn; cases hn
theorem selfTimedClose : Statement .selfTimedClose := by intro _ _ hn; cases hn
theorem minuteClose : Statement .minuteClose := by intro _ _ hn; cases hn
theorem lhPowerLoss (lengthUs : Nat) : Statement (.lhPowerLoss lengthUs) := by intro _ _ hn; cases hn
theorem lhPowerOn : Statement .lhPowerOn := by intro _ _ hn; cases hn
theorem calibrationChange (c : Calibration) : Statement (.calibrationChange c) := by intro _ _ hn; cases hn
theorem lhReadRequest (r : LhRead) : Statement (.lhReadRequest r) := by intro _ _ hn; cases hn
theorem lhQuery (q : Req) (k : LhQueryKind) (v : BitVec 64) : Statement (.lhQuery q k v) := by intro h n hn; cases hn; exact reqLt q h
theorem lighthouseSilent : Statement .lighthouseSilent := by intro _ _ hn; cases hn
theorem read (m : DictMsg) : Statement (.read m) := by intro h n hn; cases hn; exact msgLt m h
theorem write (m : DictMsg) : Statement (.write m) := by intro h n hn; cases hn; exact msgLt m h
theorem readBlock (m : DictMsg) : Statement (.readBlock m) := by intro h n hn; cases hn; exact msgLt m h
theorem open1 (m : DictMsg) : Statement (.open1 m) := by intro h n hn; cases hn; exact msgLt m h
theorem open3 (m : DictMsg) : Statement (.open3 m) := by intro h n hn; cases hn; exact msgLt m h
theorem sessionClose (m : DictMsg) : Statement (.sessionClose m) := by intro h n hn; cases hn; exact msgLt m h
theorem segmentGapTimeout (q : Req) (object : Nat) : Statement (.segmentGapTimeout q object) := by intro h n hn; cases hn; exact reqLt q h
theorem sessionIdleTimeout (sid : Nat) : Statement (.sessionIdleTimeout sid) := by intro _ _ hn; cases hn
theorem descQuery (q : Req) (v : BitVec 32) : Statement (.descQuery q v) := by intro h n hn; cases hn; exact reqLt q h
theorem entdaa (addr : BitVec 7) : Statement (.entdaa addr) := by intro _ _ hn; cases hn
theorem rstdaa : Statement .rstdaa := by intro _ _ hn; cases hn
theorem setnewda (addr : BitVec 7) : Statement (.setnewda addr) := by intro _ _ hn; cases hn
theorem getpid : Statement .getpid := by intro _ _ hn; cases hn
theorem getbcr : Statement .getbcr := by intro _ _ hn; cases hn
theorem getdcr : Statement .getdcr := by intro _ _ hn; cases hn
theorem getstatus : Statement .getstatus := by intro _ _ hn; cases hn
theorem getmrl : Statement .getmrl := by intro _ _ hn; cases hn
theorem getmwl : Statement .getmwl := by intro _ _ hn; cases hn
theorem i3cPrivateWrite (data : Bytes) : Statement (.i3cPrivateWrite data) := by intro _ _ hn; cases hn
theorem i3cPrivateRead (len : Nat) : Statement (.i3cPrivateRead len) := by intro _ _ hn; cases hn
theorem i3cRefresh (inputPowerW inputMv : BitVec 16) : Statement (.i3cRefresh inputPowerW inputMv) := by intro _ _ hn; cases hn
theorem inputTurnOn (railsOk : Bool) : Statement (.inputTurnOn railsOk) := by intro _ _ hn; cases hn
theorem inputTurnOff : Statement .inputTurnOff := by intro _ _ hn; cases hn
theorem overVoltage : Statement .overVoltage := by intro _ _ hn; cases hn
theorem modPwrEnRise : Statement .modPwrEnRise := by intro _ _ hn; cases hn
theorem modPwrEnFall : Statement .modPwrEnFall := by intro _ _ hn; cases hn
theorem modResetNAssert : Statement .modResetNAssert := by intro _ _ hn; cases hn
theorem watchdogExpire : Statement .watchdogExpire := by intro _ _ hn; cases hn
theorem thermalTrip (d : DieId) : Statement (.thermalTrip d) := by intro _ _ hn; cases hn
theorem straitSignalWake (k : StraitId) : Statement (.straitSignalWake k) := by intro _ _ hn; cases hn
theorem sidebandWakeFrame (etherType : BitVec 16) (payload : Bytes) (macMatches : Bool) : Statement (.sidebandWakeFrame etherType payload macMatches) := by intro _ _ hn; cases hn
theorem stateRequestDoze (q : Req) : Statement (.stateRequestDoze q) := by intro h n hn; cases hn; exact reqLt q h
theorem stateRequestStandby (q : Req) : Statement (.stateRequestStandby q) := by intro h n hn; cases hn; exact reqLt q h
theorem stateRequestActive (q : Req) : Statement (.stateRequestActive q) := by intro h n hn; cases hn; exact reqLt q h
theorem dozeEntry (writeBackFailed : List StackId) : Statement (.dozeEntry writeBackFailed) := by intro _ _ hn; cases hn
theorem domainReady (d : DieId) (r : Ready) : Statement (.domainReady d r) := by intro _ _ hn; cases hn
theorem domainReadyTimeout (d : DieId) (r : Ready) : Statement (.domainReadyTimeout d r) := by intro _ _ hn; cases hn
theorem domainOff (d : DieId) : Statement (.domainOff d) := by intro _ _ hn; cases hn
theorem recoveryRequest (strait : Option StraitId) (fetchId : BitVec 64) (segment : Nat) (key : Bytes) : Statement (.recoveryRequest strait fetchId segment key) := by intro _ _ hn; cases hn
theorem recoveryOffer (strait : Option StraitId) (fetchId : BitVec 64) (segment : Nat) (ct : Bytes) (total : Nat) : Statement (.recoveryOffer strait fetchId segment ct total) := by intro _ _ hn; cases hn
theorem recoveryData (fetchId : BitVec 64) (off : Nat) (ct tag : Bytes) : Statement (.recoveryData fetchId off ct tag) := by intro _ _ hn; cases hn
theorem recoveryResume (fetchId : BitVec 64) (off : Nat) : Statement (.recoveryResume fetchId off) := by intro _ _ hn; cases hn
theorem recoveryBusy (fetchId : BitVec 64) : Statement (.recoveryBusy fetchId) := by intro _ _ hn; cases hn
theorem recoveryDataGap : Statement .recoveryDataGap := by intro _ _ hn; cases hn
theorem recoveryStraitTimeout : Statement .recoveryStraitTimeout := by intro _ _ hn; cases hn
theorem recoveryRestart : Statement .recoveryRestart := by intro _ _ hn; cases hn
theorem fwBegin (q : Req) : Statement (.fwBegin q) := by intro h n hn; cases hn; exact reqLt q h
theorem fwCommit (q : Req) : Statement (.fwCommit q) := by intro h n hn; cases hn; exact reqLt q h
theorem fwChunk (q : Req) (data : Bytes) : Statement (.fwChunk q data) := by intro h n hn; cases hn; exact reqLt q (andL h)
theorem registerWrite (q : Req) (index : BitVec 16) (sub : Byte) (value : Bytes) : Statement (.registerWrite q index sub value) := by intro h n hn; cases hn; exact reqLt q h
theorem probe (k : StraitId) (t1 t2 t3 : Nat) : Statement (.probe k t1 t2 t3) := by intro _ _ hn; cases hn
theorem dieTemperature (src : TempSource) (celsius : Nat) : Statement (.dieTemperature src celsius) := by intro _ _ hn; cases hn
theorem signalDetect (k : StraitId) : Statement (.signalDetect k) := by intro _ _ hn; cases hn
theorem pcieTraining (k : StraitId) (up : Bool) (width : Nat) : Statement (.pcieTraining k up width) := by intro _ _ hn; cases hn
theorem sbLinkStateChange (state : Byte) : Statement (.sbLinkStateChange state) := by intro _ _ hn; cases hn
theorem icmpv6Echo (lighthouse : Bool) (payload : Bytes) : Statement (.icmpv6Echo lighthouse payload) := by intro _ _ hn; cases hn
theorem neighbourDiscovery (lighthouse : Bool) (solicitation : Bool) (addr : BitVec 128) (mac : BitVec 48) : Statement (.neighbourDiscovery lighthouse solicitation addr mac) := by intro _ _ hn; cases hn
theorem modResetNRelease : Statement .modResetNRelease := by intro _ _ hn; cases hn
theorem signComplete (sid : Nat) : Statement (.signComplete sid) := by intro _ _ hn; cases hn
theorem fwCommitComplete : Statement .fwCommitComplete := by intro _ _ hn; cases hn
theorem libCommitComplete : Statement .libCommitComplete := by intro _ _ hn; cases hn

end Sys2Proof.Laws.SessionId
end

