-- ==== Sys2Proof/Laws/Sectors.lean ====
section
/-!
SUPPORT. Laws/Sectors.lean: a sector as it is stored opens again under the same key, page and counter.
-/

namespace Sys2Proof.Machine

/-- A sealed sector opens (R391, R402, R403). -/
@[simp] theorem openSector_sealSector (km : Bytes) (lbn ctr : Nat) (x : Sector) : openSector km lbn ctr (sealSector km lbn ctr x) = some x := by
  simp [openSector, sealSector]

/-- A ciphertext whose tag differs does not open (R393). -/
theorem openSector_wrong_tag (km : Bytes) (lbn ctr : Nat) (x : StoredSector) (h : sectorTag km lbn ctr x.cipher ≠ x.tag) : openSector km lbn ctr x = none := by
  simp [openSector, h]

/-! What a translation, looking a line up and counting an access leave as they were (R249, R398). -/

@[simp] theorem VM.touch_ctrs (p : PartId) (va : Nat) (acc : Bool) (v : VM) : (v.touch p va acc).mem.ctrs = v.mem.ctrs := by unfold VM.touch; split <;> rfl
@[simp] theorem VM.touch_t1 (p : PartId) (va : Nat) (acc : Bool) (v : VM) : (v.touch p va acc).mem.t1 = v.mem.t1 := by unfold VM.touch; split <;> rfl
@[simp] theorem VM.touch_t2 (p : PartId) (va : Nat) (acc : Bool) (v : VM) : (v.touch p va acc).mem.t2 = v.mem.t2 := by unfold VM.touch; split <;> rfl
@[simp] theorem VM.touch_migrations (p : PartId) (va : Nat) (acc : Bool) (v : VM) : (v.touch p va acc).mem.migrations = v.mem.migrations := by unfold VM.touch; split <;> rfl
@[simp] theorem VM.touch_sets (p : PartId) (va : Nat) (acc : Bool) (v : VM) : (v.touch p va acc).mem.sets = v.mem.sets := by unfold VM.touch; split <;> rfl
@[simp] theorem VM.touch_homes (p : PartId) (va : Nat) (acc : Bool) (v : VM) : (v.touch p va acc).mem.homes = v.mem.homes := by unfold VM.touch; split <;> rfl
@[simp] theorem VM.translate_ctrs (p : PartId) (va : Nat) (v : VM) : (v.translate p va).mem.ctrs = v.mem.ctrs := by unfold VM.translate; dsimp only; split <;> rfl
@[simp] theorem VM.translate_t1 (p : PartId) (va : Nat) (v : VM) : (v.translate p va).mem.t1 = v.mem.t1 := by unfold VM.translate; dsimp only; split <;> rfl
@[simp] theorem VM.translate_t2 (p : PartId) (va : Nat) (v : VM) : (v.translate p va).mem.t2 = v.mem.t2 := by unfold VM.translate; dsimp only; split <;> rfl
@[simp] theorem VM.translate_migrations (p : PartId) (va : Nat) (v : VM) : (v.translate p va).mem.migrations = v.mem.migrations := by unfold VM.translate; dsimp only; split <;> rfl
@[simp] theorem VM.translate_sets (p : PartId) (va : Nat) (v : VM) : (v.translate p va).mem.sets = v.mem.sets := by unfold VM.translate; dsimp only; split <;> rfl
@[simp] theorem VM.translate_homes (p : PartId) (va : Nat) (v : VM) : (v.translate p va).mem.homes = v.mem.homes := by unfold VM.translate; dsimp only; split <;> rfl
@[simp] theorem VM.cacheLines_ctrs (st : Nat) (path : List (Nat × Nat × Nat)) (w : Bool) (v : VM) : (v.cacheLines st path w).mem.ctrs = v.mem.ctrs := by unfold VM.cacheLines; rfl
@[simp] theorem VM.cacheLines_t1 (st : Nat) (path : List (Nat × Nat × Nat)) (w : Bool) (v : VM) : (v.cacheLines st path w).mem.t1 = v.mem.t1 := by unfold VM.cacheLines; rfl
@[simp] theorem VM.cacheLines_t2 (st : Nat) (path : List (Nat × Nat × Nat)) (w : Bool) (v : VM) : (v.cacheLines st path w).mem.t2 = v.mem.t2 := by unfold VM.cacheLines; rfl
@[simp] theorem VM.cacheLines_migrations (st : Nat) (path : List (Nat × Nat × Nat)) (w : Bool) (v : VM) : (v.cacheLines st path w).mem.migrations = v.mem.migrations := by unfold VM.cacheLines; rfl
@[simp] theorem VM.cacheLines_sets (st : Nat) (path : List (Nat × Nat × Nat)) (w : Bool) (v : VM) : (v.cacheLines st path w).mem.sets = v.mem.sets := by unfold VM.cacheLines; rfl
@[simp] theorem VM.cacheLines_homes (st : Nat) (path : List (Nat × Nat × Nat)) (w : Bool) (v : VM) : (v.cacheLines st path w).mem.homes = v.mem.homes := by unfold VM.cacheLines; rfl
@[simp] theorem VM.cacheLook_ctrs (r : Region) (i : Nat) (loc : Loc) (w : Bool) (v : VM) : (v.cacheLook r i loc w).mem.ctrs = v.mem.ctrs := by unfold VM.cacheLook; split <;> simp only [VM.cacheLines_ctrs]
@[simp] theorem VM.cacheLook_t1 (r : Region) (i : Nat) (loc : Loc) (w : Bool) (v : VM) : (v.cacheLook r i loc w).mem.t1 = v.mem.t1 := by unfold VM.cacheLook; split <;> simp only [VM.cacheLines_t1]
@[simp] theorem VM.cacheLook_t2 (r : Region) (i : Nat) (loc : Loc) (w : Bool) (v : VM) : (v.cacheLook r i loc w).mem.t2 = v.mem.t2 := by unfold VM.cacheLook; split <;> simp only [VM.cacheLines_t2]
@[simp] theorem VM.cacheLook_migrations (r : Region) (i : Nat) (loc : Loc) (w : Bool) (v : VM) : (v.cacheLook r i loc w).mem.migrations = v.mem.migrations := by unfold VM.cacheLook; split <;> simp only [VM.cacheLines_migrations]
@[simp] theorem VM.cacheLook_sets (r : Region) (i : Nat) (loc : Loc) (w : Bool) (v : VM) : (v.cacheLook r i loc w).mem.sets = v.mem.sets := by unfold VM.cacheLook; split <;> simp only [VM.cacheLines_sets]
@[simp] theorem VM.cacheLook_homes (r : Region) (i : Nat) (loc : Loc) (w : Bool) (v : VM) : (v.cacheLook r i loc w).mem.homes = v.mem.homes := by unfold VM.cacheLook; split <;> simp only [VM.cacheLines_homes]
@[simp] theorem VM.translate_region (p q : PartId) (va page : Nat) (v : VM) : (v.translate p va).region q page = v.region q page := by unfold VM.translate; dsimp only; split <;> rfl
@[simp] theorem VM.translate_baseKey (p q : PartId) (va e : Nat) (l : Leaf) (v : VM) : (v.translate p va).baseKey q l e = v.baseKey q l e := by unfold VM.translate; dsimp only; split <;> rfl

/-- A read of a sector that was sealed under its region's key and counter gives its plaintext (R402). -/
theorem readSector_sealed (v : VM) (p : PartId) (va n : Nat) (acc : Bool) (l : Leaf) (base : Bytes) (x : Sector) (hl : v.leaf p va = some l) (hu : l.loc ≠ .unbacked)
    (hb : v.baseKey p l (genOf (v.region p (pageOf va)) (sectorOf va)).2 = some base)
    (h0 : ctrOf v.mem (v.region p (pageOf va)) (sectorOf va) ≠ 0) (hF : ctrOf v.mem (v.region p (pageOf va)) (sectorOf va) ≠ 0xFFFF)
    (hs : storedAt v.mem (v.place p va l) (sectorOf va) =
      sealSector (kmat base (pageOf va) (genOf (v.region p (pageOf va)) (sectorOf va)).1 (genOf (v.region p (pageOf va)) (sectorOf va)).2) (lbnOf va) (ctrOf v.mem (v.region p (pageOf va)) (sectorOf va)) x) :
    (v.readSector p va (.asStored n) acc).2 = .data x := by
  have hp : ∀ w : VM, w.mem.migrations = v.mem.migrations → w.place p va l = v.place p va l := by
    intro w h; simp only [VM.place, h]
  have hst : ∀ (m : Mem) (loc : Loc) (i : Nat), m.t1 = v.mem.t1 → m.t2 = v.mem.t2 → m.sets = v.mem.sets → m.homes = v.mem.homes → storedAt m loc i = storedAt v.mem loc i := by
    intro m loc i h1 h2 h3 h4; cases loc <;> simp only [storedAt, t2Locate, h1, h2, h3, h4]
  have hct : ∀ (m : Mem) (r : Region) (i : Nat), m.ctrs = v.mem.ctrs → ctrOf m r i = ctrOf v.mem r i := by
    intro m r i h; simp only [ctrOf, h]
  unfold VM.readSector
  rw [hl]
  simp only [hu, if_false, VM.translate_region, VM.translate_baseKey, hb]
  rw [hct _ _ _ (by simp), if_neg h0, if_neg hF, hp (VM.translate _ _ _) (by simp), hp (VM.cacheLook _ _ _ _ _) (by simp), hst _ _ _ (by simp) (by simp) (by simp) (by simp), hs, openSector_sealSector]

/-- T1_PRIVATE_BYTES leaves at least one page of T1. -/
theorem t1PrivateBase_le : Config.t1PrivateBase ≤ 768 * 2 ^ 30 - 2 ^ 21 := Nat.le_of_lt_succ Config.t1PrivateSize.isLt

end Sys2Proof.Machine
end

