-- ==== Sys2Proof/Tests/Slice0.lean ====
section
/-!
SUPPORT. Tests/Slice0.lean: small checks of single steps, the ill-formed commands that WellFormed refuses, and for each statement with hypotheses a witness that meets them, clause by clause.
-/

namespace Sys2Proof.Tests

open Sys2Proof Sys2Proof.Machine

set_option Elab.async false

/-! ### A small state -/

/-- Sessions: 1 an OPERATOR, 2 a bound TENANT of partition 0, 3 a MAKER; 0 from source 9 has none. -/
def opS : DSess := { sid := 1, role := .operator }
def tenS : DSess := { sid := 2, role := .tenant, part := some 0, slot := some 5 }
def makS : DSess := { sid := 3, role := .maker }
def op : Req := { sid := 1, src := 0 }
def ten : Req := { sid := 2, src := 0 }
def mak : Req := { sid := 3, src := 0 }
def met : Req := { sid := 0, src := 9 }

/-- An ACTIVE module that has joined the tick: device 7, straits 0 and 1 up, partition 0 ACTIVE. -/
def act : State :=
  { State.reset with
    pow := { State.reset.pow with mod := .active, input := true, pwrEn := true, mgmtUp := true, domains := Vector.replicate 5 .up }
    dict := { State.reset.dict with sessions := [opS, tenS, makS] }
    tick := { State.reset.tick with joined := true, frame := 100, ticks := 5, master := 7, role := 0 }
    parts := State.reset.parts.set 0 { State.reset.parts[(0 : Fin 64)] with state := .active, cls := 1 }
    fab := { State.reset.fab with deviceId := 7, idInForce := 7,
                                  straits := (State.reset.fab.straits.set 0 { link := .up, mode := 1 }).set 1 { link := .up, mode := 1 } }
    lh := { State.reset.lh with powered := true } }

def fr : Nat := 100

/-! ### Witnesses: the block and the dictionary -/

/-- The premises of the invariants and frames: a step and an execution that answer a next state from states in canonical form. -/
theorem wit_steps : step State.reset = .next State.reset ∧ exec .tickMissed act = .next { act with tick := { act.tick with missed := 1, missedRun := 1, role := 4 } } := ⟨rfl, rfl⟩
theorem wit_windows : (∀ p : PartId, Memory.wf act.mem.window[p] = true) := by decide +kernel


theorem wit_answers_and_session_values : (findSess act op).isSome = true ∧ op.sid ≠ 0 ∧ ten.sid ≠ op.sid := by decide +kernel

theorem wit_operator_objects : reachable act = true ∧ roleOf act ten ≠ .operator ∧ roleOf act mak ≠ .operator := by decide +kernel

theorem wit_queries :
    reachable act = true ∧ (served act 0x10F0 ∧ mayUse act op 0x10F0 rAll true ∧ (descOf act ((0x210000 : BitVec 32).toNat / 256) ((0x210000 : BitVec 32).toNat % 256)).isSome ∧ (0x210000 : BitVec 32).toNat < 2 ^ 24) ∧
    (served act 0x5040 ∧ opOrTenant act ten 0 ∧ (0xFFFFFFFFFFFFFF : BitVec 64).toNat < 2 ^ 56 ∧ (0xFFFFFFFFE00000 : BitVec 64).toNat % 2 ^ 21 = 0) ∧
    (served act 0x6040 ∧ isOperator act op ∧ (262143 : BitVec 32).toNat < 262144) ∧ (served act 0x8010 ∧ (4095 : BitVec 16).toNat < 4096) ∧
    (served act 0x9004 ∧ unitExists (0x1000 : BitVec 16).toNat) ∧ served act 0x9005 ∧ (served act 0x9010 ∧ roleOf act ten = .tenant) ∧ (served act 0x7001 ∧ (0 : Nat) < 255 ∧ sessMay act op 0) ∧
    served act 0xB003 ∧ served act 0xB004 ∧ (served act 0xB005 ∧ (65535 : BitVec 64).toNat < 65536) ∧ served act 0xB007 := by decide +kernel

theorem wit_settings :
    (reachable act = true ∧ isOperator act op) ∧ (served act 0x2000 ∧ 500 ≤ (500 : BitVec 32).toNat ∧ (500 : BitVec 32).toNat ≤ 8000 ∧ (500 : BitVec 32).toNat % 100 = 0 ∧ (8000 : BitVec 32).toNat ≤ 8000) ∧
    (499 : BitVec 32).toNat < 500 ∧ 8000 < (8100 : BitVec 32).toNat ∧
    (served act 0x5010 ∧ (zeros 16).length = 16 ∧ leNat (zeros 16) = 0 ∧ (perOf act op).poolIndex.toNat < 1024 ∧ homeUsed act.mem (perOf act op).poolIndex.toNat = 0) ∧
    (served act 0x6021 ∧ routeOk 0xFF) ∧ (served act 0x6030 ∧ (perOf act op).aptIndex.toNat < 131072) ∧ served act 0x1102 ∧
    (served act 0x3000 ∧ act.parts[(0 : Fin 64)].state ≠ .removing ∧ quotaOk act 0 5 (leBytes 2 1024)) ∧
    (isTenant act ten 0 ∧ (1 : Byte).toNat ≤ 1) ∧ isTenant act op 0 = false ∧ (served act 0x4000 ∧ opOrTenant act ten 0 ∧ act.parts[(0 : Fin 64)].state = .active ∧ act.rings[(0 : Fin 64)][(0 : Fin 16)].enable = false) := by
  decide +kernel

theorem wit_register_writes :
    reachable act = true ∧ served act 0x2100 ∧ isOperator act op ∧ 300 ≤ (300 : BitVec 16).toNat ∧ (3300 : BitVec 16).toNat ≤ 3300 ∧ leNat (leBytes 2 299) < 300 ∧ 3300 < leNat (leBytes 2 3301) ∧
    ([] : Bytes).length ≠ 2 ∧ isOperator act ten = false ∧ writable act ten (0x2100 : BitVec 16).toNat 0 = false := by decide +kernel

/-- A request of session 1 by the fabric, with SEQ 1. -/
def msg : DictMsg :=
  { version := 1, flags := 1, status := 0, index := 0x2100, sub := 0, count := 0, reqId := 4, dest := 7, sid := 1, src := 0, seq := 1, offset := 0, reserved := 0, data := leBytes 2 3000, tagOk := true, route := .fabric }
/-- A response that is kept for it. -/
def kept : Kept := { reqId := 4, index := 0x2100, sub := 0, offset := 0, data := leBytes 2 3000, status := .done, more := false, answer := [] }

theorem wit_session_messages :
    (reachable act = true ∧ msg.route = .fabric ∧ forHere act msg ∧ msg.sid ≠ 0 ∧ sessOf act msg.sid = some opS ∧ opS.revoked = false) ∧
    (msgForm 3 msg ∧ msg.count = 0 ∧ ({ msg with seq := 0 } : DictMsg).seq ≤ opS.seqIn ∧ ({ msg with tagOk := false } : DictMsg).tagOk = false) ∧
    (msg.tagOk ∧ opS.seqIn < msg.seq ∧ keptFor msg { opS with kept := [kept] } = some kept) ∧
    (keptFor msg opS = none ∧ msg.offset = 0) ∧
    (msgForm 2 msg ∧ msg.flags = 1 ∧ writable act (reqOf msg) msg.index.toNat msg.sub.toNat ∧ msg.data.length ≤ lengthLimit act msg.index.toNat msg.sub.toNat) := by decide +kernel

/-- A READ without a session, of 0x1018:00, of an object that no chapter lays down, and of the limits by READ_BLOCK. -/
def clear : DictMsg := { msg with sid := 0, seq := 0, src := 9, index := 0x1018, data := [], flags := 0 }
def act2 : State := { act with dict := { act.dict with counters := bump act.dict.counters 2 1 } }

theorem wit_reads :
    (reachable act = true ∧ clear.route = .fabric ∧ forHere act clear ∧ clear.sid = 0 ∧ clear.offset = 0 ∧ msgForm 1 clear) ∧
    (readObject act2 (reqOf clear) 0x1018 0).isSome ∧ readObject act2 (reqOf clear) 0x2FFF 0 = none ∧
    (msgForm 3 { clear with count := 1 } ∧ (blockOf act2 (reqOf clear) 0x1018 0 1).isSome) := by decide +kernel

def opening : Opening := { sid := 9, src := 9, role := 4, part := some 1, kemSeed := [], transcript := [] }
def openerS (b : Bytes) : DSess := { sid := 0, src := 9, role := .meter, staged := [(2 ^ 24 + 0x12, b)] }
def actOpen : State := { act with dict := { act.dict with sessions := [openerS [1], opS, tenS, makS], openings := [opening] }, parts := act.parts.set 1 { act.parts[(1 : Fin 64)] with state := .created } }
def open1m : DictMsg := { clear with flags := 1, data := [4, 0] ++ zeros 32 }
def closem : DictMsg := { msg with data := [], sid := 2 }
def open3m : DictMsg := { clear with flags := 1, sid := 9, offset := 1, data := [0, 0] }

theorem wit_sessions_open_prove_and_end :
    (reachable act = true ∧ forHere act open1m ∧ msgForm 0x10 { open1m with sid := 0 } ∧ open1m.offset = 0 ∧ open1m.flags = 1 ∧ open1m.data.length = 34 ∧ leNat (open1m.data.take 1) = 4 ∧
      leNat (slice open1m.data 1 1) = 0 ∧ open1Ok act open1m.route 4 0) ∧
    (closem.sid ≠ 0 ∧ sessOf act closem.sid = some tenS ∧ tenS.revoked = false ∧ msgForm 0x14 closem ∧ closem.tagOk ∧ tenS.seqIn < closem.seq ∧ keptFor closem tenS = none) ∧
    (findSess actOpen met = some (openerS [1]) ∧ alGet (2 ^ 24 + 0x12) (openerS [1]).staged = some [1]) ∧
    (reachable actOpen = true ∧ open3m.route = .fabric ∧ forHere actOpen open3m ∧ open3m.sid = opening.sid ∧ opening.sid ≠ 0 ∧ openingOf actOpen open3m = some opening ∧
      (∀ y ∈ actOpen.dict.sessions, y.sid ≠ opening.sid) ∧ msgForm 0x12 { open3m with sid := 0, seq := 0 } ∧ findSess actOpen (openerOf open3m) = some (openerS [1]) ∧ open3m.offset = ([1] : Bytes).length ∧
      open3m.flags = 1 ∧ ([1] : Bytes).length + open3m.data.length ≤ 8787) ∧
    (opening.role = 4 ∧ opening.part = some 1 ∧ actOpen.parts[(1 : Fin 64)].state = .created ∧ 608 + 960 = 1568 ∧ hearsOpens actOpen 4 ∧
      liveSess actOpen (fun y => y.role = .tenant && !y.bound && y.part = some 1) = 0) := by decide +kernel

/-- The ferry: strait 16 trained for the host, with a host flow 20 to device 8. -/
def hostFlow : Flow := { state := .opened, owner := 0x40, peer := 8, classes := [1, 2, 3, 8] }
def ferry : State :=
  { act with fab := { act.fab with ferry := 7, flows := [(20, hostFlow)], straits := act.fab.straits.set 16 { link := .host, mode := 2, ide := true } } }
def plain16 : State := { ferry with fab := { ferry.fab with straits := ferry.fab.straits.set 16 { link := .host, mode := 2 } } }

theorem wit_mailbox :
    (hostUp ferry 16 ∧ reachable ferry = true ∧ ferry.fab.straits[(16 : Fin 18)].ide ∧ forHere ferry clear ∧ clear.sid = 0 ∧ clear.offset = 0 ∧ msgForm 1 clear) ∧
    (forHere ferry { clear with dest := 9 } = false ∧ findFlow ferry 0x40 9 8 none = none) ∧
    (forHere ferry { clear with dest := 8 } = false ∧ ferry.fab.idInForce ≠ 0xFFFF ∧ findFlow ferry 0x40 8 8 none = some 20 ∧ getFlow ferry 20 = some hostFlow ∧ hostFlow.state = .opened) ∧
    (hostUp plain16 16 ∧ plain16.fab.straits[(16 : Fin 18)].ide = false) := by decide +kernel

theorem wit_sideband_and_i3c :
    act.pow.mgmtUp ∧ (1 : Byte).toNat ≤ 1 ∧ ({ act with side := { act.side with node := 4 } } : State).side.node ≠ 0xFF ∧ reachable act = true ∧ (zeros 1232).length ≤ 1232 ∧ act.lh.powered ∧
    act.side.i3cAddr = none ∧ ({ act with side := { act.side with i3cAddr := some 8 } } : State).side.i3cAddr.isSome := by decide +kernel
/-! ### Witnesses: slices, passes and movers -/

def pd : PassDesc :=
  { type := .product, chainAddr := 0, recordAddr := 0, m0 := 0, n0 := 0, outStride := 1, outExp := 0, outElem := 0, strmExp := 4096, strmElem := 0, statExp := 12288, statElem := 8192, raw := false, source := false,
    strmStride := 1, storeBase := 0, m := 1, statStride := 1, tileN := 32, tileK := 32, check := 2, tagged := false, ones := false, fold := false, resident := false, reading := false, pane := 0, layout := 0, drain := 1,
    strmFmt := 1, statFmt := 1, reserved := 0 }
def md : MoveDesc := { tag := 0, src := 0x1000000000000000, dst := 0x1000000000001000, srcPitch := 64, dstPitch := 64, rowBytes := 64, rows := 2, tagged := false, fence := true, reserved := 0 }
def stg : Stage := { constEl := 0, constEx := 0, constExRaw := 0, statBase := 0, arg := 1, slot := 0, kind := 0, discard := false, recip := false, statComb := false, statMem := false, statBuf := false, swap := false, opcode := 0x0F, reserved := 0 }
/-- A chain program whose first stage has operand kind `k` and opcode `o`, and whose quantiser writes format `fmt`. -/
def prog (k o fmt : Nat) : Chain :=
  { rowstat := 0x1000000000000000, count := 2, reserved := 0, stages := [{ stg with kind := k, opcode := o }, { stg with arg := fmt }], slots := [{ elemAddr := 0x1000000000000000, expAddr := 0, lineLen := 32, fmt := 1, kind := 2, reserved := 0 }] }
def hdr : SliceHdr := { tableAddr := 0, halfAddr := 0x2000000000000040, predEnergy := 100, predCycles := 10, arrayCount := 1, version := 0, session := 0xFF, priority := 0, withdraw := false, reserved := 0 }
def runOf (es : List EntryRun) (done : Bool) : SliceRun :=
  { hdr := hdr, seq := 0, arrays := [{ array := 0, listAddr := 0, entRec := 0, entries := es, started := true, finished := done }], order := 0, charged := 0 }
/-- Ring 0 of partition 0 runs a slice with these entries; array 0 has taken it up. -/
def onA (es : List EntryRun) (f : ArrayEng → ArrayEng) : State :=
  { act with rings := act.rings.set 0 ((Vector.replicate 16 {}).set 0 { enable := true, state := 1, size := 4, run := some (runOf es false), subj := { admitted := true, overruns := 1 } })
             arrays := act.arrays.set 0 (f { cur := some (0, 0) }) }
def ep (d : PassDesc) : EntryRun := { desc := .pass d }
def em : EntryRun := { desc := .move md }
def tile0 : Tile := { fmt := 1, elem := 0, exp := 0, stride := 1, k := 32, n := 32, els := [], exps := [] }

theorem wit_lists_passes_and_movers_start :
    ((sortKey (fun x : Nat × PartId × RingId => x.1) (waitingOn (onA [] (fun y => { y with cur := none })) 0)).head? = some (0, 0, 0) ∧ (onA [] (fun y => { y with cur := none })).arrays[(0 : Fin 128)].cur = none ∧ act.gov.admission = none) ∧
    (let s := onA [ep pd] id; entryAt s 0 0 = some (ep pd) ∧ (ep pd).started = false ∧ (ep pd).ended = false ∧ passMayStart (entriesOf s 0) 0 pd ∧ pd.type = .product ∧ pd.empty = false) ∧
    (let s := onA [{ em with started := true, ended := true }, em] id
     entryAt s 0 1 = some em ∧ em.started = false ∧ inFlight (entriesOf s 0) < 4 ∧ ∀ y ∈ (entriesOf s 0).take 1, y.over' = true) := by decide +kernel

theorem wit_operands_are_loaded :
    (let s := onA [ep pd] id; entryAt s 0 0 = some (ep pd) ∧ loadReady s 0 0 (ep pd) pd) ∧
    (let s := onA [ep pd] (fun y => { y with shadow := some (0, 0, tile0) }); s.arrays[(0 : Fin 128)].shadow = some (0, 0, tile0) ∧ (entryAt s 0 0).bind EntryRun.pass = some pd ∧ boundaryReached (entriesOf s 0) 0 pd) ∧
    (let x : EntryRun := { ep pd with chain := some (prog 2 1 1), started := true }
     let s := onA [x] id
     entryAt s 0 0 = some x ∧ x.over' = false ∧ (prog 2 1 1).vectorSlots.contains 0 ∧ alGet 0 x.vectors = none ∧ mayRead s 0 0 (vectorAreas pd ((prog 2 1 1).slot 0))) ∧
    (let x : EntryRun := { ep pd with chain := some (prog 0 0x0D 1), started := true }
     let s := onA [x] id
     entryAt s 0 0 = some x ∧ x.over' = false ∧ (prog 0 0x0D 1).tableSlots.contains 0 ∧ s.arrays[(0 : Fin 128)].tables = [] ∧ mayRead s 0 0 (tableAreas ((prog 0 0x0D 1).slot 0))) ∧
    (let d := { pd with fold := true, m := 300 }
     let s := onA [ep d] id
     entryAt s 0 0 = some (ep d) ∧ foldReady s 0 0 (ep d) d) := by decide +kernel

theorem wit_rows_drain_and_are_written :
    (let x : EntryRun := { ep pd with started := true, working := true }
     let s := onA [x] (fun y => { y with working := [(0, tile0)] })
     entryAt s 0 0 = some x ∧ drainReady s 0 0 x pd) ∧
    (let d := { pd with type := .chain, source := true, tileN := 512 }
     let x : EntryRun := { ep d with started := true, chain := some (prog 0 1 1) }
     let s := onA [x] id
     entryAt s 0 0 = some x ∧ groupReady s 0 0 x d ∧ s.arrays[(0 : Fin 128)].group.length + 256 < d.width) ∧
    (let d := { pd with type := .chain, source := true, tileN := 256 }
     let x : EntryRun := { ep d with started := true, chain := some (prog 0 1 1) }
     entryAt (onA [x] id) 0 0 = some x ∧ groupReady (onA [x] id) 0 0 x d ∧ ¬((onA [x] id).arrays[(0 : Fin 128)].group.length + 256 < d.width)) ∧
    (let x : EntryRun := { ep pd with started := true, rows := 1, chain := some (prog 0 1 1) }
     let r : ChainRow := { entry := 0, m := 0, lanes := [], stats := [(some 3, .zero, false)] }
     let s := onA [x] (fun y => { y with rows := [r] })
     s.arrays[(0 : Fin 128)].rows.find? (fun r => !r.stats.isEmpty) = some r ∧ (entryAt s 0 0).bind EntryRun.pass = some pd ∧ (entryAt s 0 0).bind EntryRun.chain = some (prog 0 1 1) ∧
       mayWrite s 0 0 (statRegion pd (prog 0 1 1) 0 1) ∧ spaceOf (prog 0 1 1).rowstat = 1) ∧
    (let x : EntryRun := { ep pd with started := true, rows := 1, chain := some (prog 0 1 1) }
     let r : ChainRow := { entry := 0, m := 0, lanes := List.replicate 32 .zero, stats := [] }
     let s := onA [x] (fun y => { y with rows := [r] })
     quantRow s 0 = some (r, pd, prog 0 1 1) ∧ entryAt s 0 0 = some x ∧ mayWrite s 0 0 (outAreas pd (prog 0 1 1) 0 1) ∧ (x.isProduct && !gateOpen (entriesOf s 0) 0) = false) ∧
    (let x : EntryRun := { ep pd with started := true, rows := 1, checked := true, chain := some (prog 0 1 1) }
     let r : ChainRow := { entry := 0, m := 0, lanes := List.replicate 32 .zero, stats := [] }
     let s := onA [x] (fun y => { y with rows := [r] })
     quantRow s 0 = some (r, pd, prog 0 1 1) ∧ entryAt s 0 0 = some x ∧ (x.isProduct && !gateOpen (entriesOf s 0) 0) = true) ∧
    (let x : EntryRun := { ep pd with started := true, rows := 1, chain := some (prog 0 1 4) }
     let r : ChainRow := { entry := 0, m := 0, lanes := List.replicate 32 .zero, stats := [] }
     let s := onA [x] (fun y => { y with rows := [r] })
     quantTile s 0 = some ([r], 0, pd, prog 0 1 4) ∧ entryAt s 0 0 = some x ∧ mayWrite s 0 0 (outAreas pd (prog 0 1 4) 0 1)) := by decide +kernel

/-- Array 0 is disputed over the group of entry 0; unit 0x1020 is a spare. -/
def disputed (u : Option Nat) : State :=
  let s := onA [{ ep pd with started := true, ended := true, checked := true, checkFailed := true, checkDone := true }] (fun y => { y with dispute := some (0, 0, u) })
  { s with ras := { s.ras with units := [(0x1020, { state := .spare })] } }

theorem wit_passes_disputes_and_movers_end :
    (let x : EntryRun := { ep pd with started := true, rows := 1 }
     let s := onA [x] id
     entryAt s 0 0 = some x ∧ x.ended = false ∧ x.left = true) ∧
    (let x : EntryRun := { ep pd with started := true, rows := 1, checked := true }
     entryAt (onA [x] id) 0 0 = some x ∧ x.checkDone = false ∧ x.drained = true ∧ columnFails x.colDiff = false) ∧
    (let x : EntryRun := { ep pd with started := true, rows := 1, checked := true, colDiff := [(0, 0, 5)] }
     entryAt (onA [x] id) 0 0 = some x ∧ x.checkDone = false ∧ x.drained = true ∧ columnFails x.colDiff = true) ∧
    ((disputed none).arrays[(0 : Fin 128)].dispute = some (0, 0, none) ∧ rerunSpare (disputed none) 0 = some 0x1020) ∧
    ((disputed (some 0x1020)).arrays[(0 : Fin 128)].dispute = some (0, 0, some 0x1020) ∧ (true && false) = false ∧ groupFinished (disputed (some 0x1020)) 0 0) ∧
    (let x : EntryRun := { em with started := true }
     entryAt (onA [x] id) 0 0 = some x ∧ x.ended = false ∧ moverFree (onA [x] id) 0 0 md (md.rows * md.rowBytes) ∧ md.tagged = false ∧ spaceOf md.src = 1 ∧ spaceOf md.dst = 1 ∧ x.stopped = false ∧ x.done ≤ md.rows * md.rowBytes) := by
  decide +kernel

theorem wit_array_commands : arrayOfCommand (.moverStart 0 0) = some 0 ∧ (onA [em] id).arrays[(0 : Fin 128)].cur = some (0, 0) := by decide +kernel

def adm : Admission := { pool := 5, rest := [], spent := [] }

theorem wit_slices_end_and_admission_goes_on :
    (let s := { onA [] id with rings := (onA [] id).rings.set 0 ((Vector.replicate 16 {} : Vector Ring 16).set 0 { run := some (runOf [] true) }) }
     s.rings[(0 : Fin 64)][(0 : Fin 16)].run = some (runOf [] true) ∧ (∀ x ∈ (runOf [] true).arrays, x.finished = true) ∧ outputsVisible s 0 ∧ s.rings[(0 : Fin 64)][(0 : Fin 16)].halves = [] ∧ s.rings[(0 : Fin 64)][(0 : Fin 16)].head.toNat = s.rings[(0 : Fin 64)][(0 : Fin 16)].subj.seq) ∧
    ((onA [em] id).rings[(0 : Fin 64)][(0 : Fin 16)].run = some (runOf [em] false) ∧ (runOf [em] false).hdr.halfAddr ≠ 0 ∧ 1 ≤ (onA [em] id).rings[(0 : Fin 64)][(0 : Fin 16)].subj.overruns ∧
      (∃ x ∈ (runOf [em] false).arrays, x.finished = false) ∧ noTick.moved = [] ∧ runStopped (runOf [em] false) = false) ∧
    ({ act with gov := { act.gov with admission := some adm } } : State).gov.admission = some adm := by decide +kernel

theorem wit_the_tick :
    act.tick.joined = true ∧ hubUp act ∧ act.pow.mod = .active ∧ act.pow.atTick = none ∧ act.gov.issued = none ∧ ({ act with tick := { act.tick with ticks := 0 } } : State).tick.ticks = 0 ∧
    act.gov.throttled = false ∧ act.gov.inForce.2.1 < 3801 ∧ 16 ≤ 16 ∧ ({ act with gov := { act.gov with throttled := true } } : State).gov.throttled = true := by decide +kernel
/-! ### Witnesses: announces, memory, partitions and keys -/

def ann : Announce := { strait := 0, frame := 100, period := 2000, next := none, master := 7, prio := 3, succ1 := 8, succ2 := 9, accDelay := 10, hops := 4, arrival := 0, residence := 5 }
/-- Boot has reached step 8. -/
def ready8 : State := { act with pow := { act.pow with mod := .booting }, tick := { act.tick with joined := false } }

theorem wit_announces :
    ann.strait ∈ tickStraits act ∧ (ann.strait ∈ tickStraits ready8 ∧ bootReady ready8 ∧ ready8.tick.joined = false ∧ ann.period < 2 ^ 32 ∧ ann.frame < 2 ^ 64 ∧ ready8.pow.pwrEn ∧ ready8.pow.latched = none) ∧
    (act.tick.joined ∧ ann.master = act.tick.master ∧ act.tick.role ≠ 1 ∧ ann.frame = act.tick.frame.toNat ∧ ann.arrival ≤ 10000 ∧ ({ ann with arrival := 10000 } : Announce).arrival ≤ 10000) ∧
    (({ ann with frame := 99 } : Announce).frame ≠ act.tick.frame.toNat ∧ ann.hops ≠ 0 ∧ 99 ∉ act.tick.forwarded ∧ act.fab.idInForce ≠ 0xFFFF ∧ ({ ann with hops := 0 } : Announce).hops = 0) ∧
    (let s := { act with tick := { act.tick with masterPrio := some 2 } }; ({ ann with master := 9 } : Announce).master ≠ s.tick.master ∧ followsOther { ann with master := 9 } s = false) ∧
    (({ ann with master := 9, frame := 102 } : Announce).master ≠ act.fab.idInForce ∧ followsOther { ann with master := 9 } act = true) := by decide +kernel

theorem wit_probes_and_succession :
    (0 : StraitId) ∈ tickStraits act ∧ act.fab.idInForce ≠ 0xFFFF ∧ (let s := { act with fab := { act.fab with idInForce := 0xFFFF } }; (0 : StraitId) ∈ tickStraits s ∧ s.fab.idInForce = 0xFFFF) ∧ (act.updStrait 0 (fun x => { x with probeT1 := some 1000 })).fab.straits[(0 : Fin 18)].probeT1 = some 1000 ∧ act.tick.role ≠ 1 ∧ act.tick.heard = [] ∧
    (let s := { act with tick := { act.tick with missedRun := 2, succ1 := 7 } }; s.tick.joined ∧ s.tick.role ≠ 1 ∧ s.fab.idInForce ≠ 0xFFFF ∧ 2 ≤ s.tick.missedRun ∧ s.tick.succ1 = s.fab.idInForce) ∧
    (let s := { act with tick := { act.tick with missedRun := 4, succ2 := 7 } }; s.tick.joined ∧ 4 ≤ s.tick.missedRun ∧ s.tick.succ2 = s.fab.idInForce) ∧
    (let s := { ready8 with tick := { ready8.tick with priority := 5 } }; bootReady s ∧ s.tick.joined = false ∧ s.tick.priority ≠ 0) ∧ ready8.tick.priority = 0 := by decide +kernel

/-- Session 2 has written MAP_VA, MAP_PAGES and MAP_ATTR for partition 0, whose T1 quota is 4 MiB. -/
def mapS (va : BitVec 64) (n : BitVec 32) (a : BitVec 8) : State :=
  { act with
    dict := { act.dict with sessions := [opS, { tenS with vals := { parts := [(0, { mapVa := va, mapPages := n, mapAttr := a })] } }, makS] }
    parts := act.parts.set 0 { act.parts[(0 : Fin 64)] with force := { t1 := 4194304 } } }
def leaf1 : Leaf := { loc := .t1 393215, stash := false, param := false, pin := false }
def stash1 : Leaf := { leaf1 with loc := .unbacked, stash := true }
/-- The tables above page 1 of partition 0. -/
def tabs : Vector (List (Nat × Nat)) 64 := (Vector.replicate 64 []).set 0 [(walkKey 0 0x200000, 0), (walkKey 1 0x200000, 4096), (walkKey 2 0x200000, 8192)]
def withPage (l : Leaf) (s : State) : State := { s with mem := { s.mem with pages := s.mem.pages.set 0 [(1, l)], tables := tabs } }

theorem wit_maps :
    (let s := mapS 0xFFFFFFFFE00000 1 1
     reachable s ∧ served s 0x5040 ∧ opOrTenant s ten 0 ∧ s.parts[(0 : Fin 64)].state = .active ∧ (perPart s ten 0).mapAttr = 1 ∧ (perPart s ten 0).mapPages.toNat = 1 ∧ (perPart s ten 0).mapVa.toNat % 2 ^ 21 = 0 ∧
       (perPart s ten 0).mapVa.toNat + 1 * 2 ^ 21 ≤ 2 ^ 56 ∧ s.mem.pages[(0 : Fin 64)] = []) ∧
    (let s := mapS 0x200000 1 8
     reachable s ∧ served s 0x5040 ∧ opOrTenant s ten 0 ∧ s.parts[(0 : Fin 64)].state = .active ∧ s.parts[(0 : Fin 64)].overQuota = false ∧ (perPart s ten 0).mapAttr = 8 ∧ (perPart s ten 0).mapPages = 1 ∧
       (perPart s ten 0).mapVa.toNat = 1 * 2 ^ 21 ∧ alGet 1 s.mem.pages[(0 : Fin 64)] = none ∧ t1Use s.mem 0 < quotaPages s.parts[(0 : Fin 64)].force.t1 ∧ 393216 - 1 ∈ freeSlots s.mem 23) := by decide +kernel

theorem last_frame_free (m : Mem) (n : Nat) (hn : n ≤ 768 * 2 ^ 30 - 2 ^ 21) (h1 : heldLocs m = []) (h2 : m.lendBytes.toNat = 0) (h3 : m.stacksFailed = []) : 393215 ∈ freeFrames m n 23 := by
  have h4 : frameFloor m n ≤ 393215 := by
    rw [frameFloor, h2]
    unfold ceilDiv
    omega
  simp only [freeFrames, h1, h3, List.mem_filterMap, List.mem_range]
  exact ⟨16383, by omega, by simp [h4]⟩
/-- The last frame of T1 is free in that state, whatever the module-private area takes. -/
theorem wit_maps_frame : 393215 ∈ freeFrames (mapS 0x200000 1 8).mem (privBytes (mapS 0x200000 1 8)) 23 :=
  last_frame_free _ _ t1PrivateBase_le (by decide +kernel) (by decide +kernel) (by decide +kernel)

theorem wit_releases :
    (let s := withPage leaf1 (mapS 0x200000 1 6)
     reachable s ∧ served s 0x5040 ∧ opOrTenant s ten 0 ∧ mapPages (perPart s ten 0).mapVa (perPart s ten 0).mapPages.toNat = some [1] ∧ (∀ g ∈ [1], (alGet g s.mem.pages[(0 : Fin 64)]).isSome) ∧
       (perPart s ten 0).mapAttr.toNat = 6 ∧ paramBarred s.parts[(0 : Fin 64)] s.keys 0 (attrParam 6) = false ∧ (alGet 1 s.mem.pages[(0 : Fin 64)]) = some leaf1 ∧ leaf1.stash = false) ∧
    (let s := withPage stash1 (mapS 0x200000 1 0); alGet 1 s.mem.pages[(0 : Fin 64)] = some stash1 ∧ stash1.stash) ∧
    (perPart (mapS 0x200001 1 0) ten 0).mapVa.toNat % 2 ^ 21 ≠ 0 ∧ (perPart (mapS 0x200000 0 0) ten 0).mapPages = 0 ∧ 2 ^ 56 < (perPart (mapS 0xFFFFFFFFE00000 2 0) ten 0).mapVa.toNat + 2 * 2 ^ 21 ∧
    (let s := mapS 0x200000 1 0; mapPages (perPart s ten 0).mapVa (perPart s ten 0).mapPages.toNat = some [1] ∧ alGet 1 s.mem.pages[(0 : Fin 64)] = none) := by decide +kernel

/-- Page 1 of partition 0 in frame 393215 under a memory key, its region in counter slot 3 with the given counter of sector 0. -/
def stored (r : Region) (ctr : Nat) (l : Leaf) : State :=
  { act with
    keys := { act.keys with slots := [(300, { owner := 0, epoch := 0, purpose := 2, kind := 0, mask := 127, value := [1] })] }
    mem := { act.mem with pages := act.mem.pages.set 0 [(1, l)], tables := tabs, regions := act.mem.regions.set 0 [(1, r)],
                          ctrs := if ctr = 0 then [] else [(3 * 8192, ctr)], t1 := [(393215 * 8192, sealSector (kmat [1] 1 0 0) (lbnOf 0x200000) 1 5)] } }
def steady : Region := { slot := 3, watermark := 8192 }

theorem wit_sectors :
    (let s := stored steady 0xEFFE leaf1
     memUp s ∧ s.vm.leaf 0 0x200000 = some leaf1 ∧ leaf1.loc = .t1 393215 ∧ s.vm.migrating 0 1 = false ∧ (s.vm.region 0 1).rekeying = false ∧
       s.vm.baseKey 0 leaf1 (s.vm.region 0 1).epoch.toNat = some [1] ∧ s.vm.absent 0 0x200000 leaf1 = false ∧ nextCtr s.mem (s.vm.region 0 1) (sectorOf 0x200000) < 0xF000) ∧
    (let s := stored steady 0 leaf1; (s.vm.readSector 0 0x200000 (.asStored 0) false).2 = .data 0 ∧ ctrOf s.mem (s.vm.region 0 1) (sectorOf 0x200000) = 0) ∧
    (let s := stored steady 0xFFFF leaf1; ctrOf s.mem (s.vm.region 0 1) (sectorOf 0x200000) = 0xFFFF ∧ s.vm.baseKey 0 leaf1 (genOf (s.vm.region 0 1) 0).2 = some [1]) ∧
    act.vm.leaf 0 0x200000 = none ∧ (withPage stash1 act).vm.leaf 0 0x200000 = some stash1 ∧ (withPage stash1 act).vm.place 0 0x200000 stash1 = .unbacked := by decide +kernel

def rekey : Region := { steady with watermark := 0, rekeying := true, gen := 1 }

/-- The stored sector of that page opens as 5. -/
theorem wit_stored_data : ((stored rekey 1 leaf1).vm.readSector 0 (1 * 2 ^ 21 + 256 * 0) (.asStored 0) false).2 = .data 5 :=
  readSector_sealed _ 0 _ 0 false leaf1 [1] 5 (by decide +kernel) (by decide +kernel) (by decide +kernel) (by decide +kernel) (by decide +kernel) (by rfl)

theorem wit_reencryption :
    (let s := stored rekey 1 leaf1
     s.pow.mod = .active ∧ mayRekey s.vm 0 1 ∧ alGet 1 s.mem.pages[(0 : Fin 64)] = some leaf1 ∧ s.vm.migrating 0 1 = false ∧ ctrOf s.mem (s.vm.region 0 1) 0 ∉ [0, 0xFFFF] ∧ s.vm.baseKey 0 leaf1 (s.vm.region 0 1).epoch.toNat = some [1]) ∧
    (let s := stored rekey 0 leaf1; mayRekey s.vm 0 1 ∧ ctrOf s.mem (s.vm.region 0 1) 0 ∈ [0, 0xFFFF]) ∧
    (let s := stored { rekey with watermark := 8192 } 0 leaf1; maySteady s.vm 0 1 ∧ s.parts[(0 : Fin 64)].rotating = false ∧ (s.vm.region 0 1).peak < 0xF000 ∧ (s.vm.region 0 1).lossDue = false) ∧
    (let s := { act with parts := act.parts.set 0 { act.parts[(0 : Fin 64)] with rotating := true } }; s.parts[(0 : Fin 64)].rotating ∧ rotationLeft s.vm 0 = 0) := by decide +kernel

/-- Page 1 is being copied to frame 100000. -/
def copying (w : Nat) : State := let s := stored steady 1 leaf1; { s with mem := { s.mem with migrations := [{ part := 0, page := 1, dst := .t1 100000, watermark := w }], moves := [(0, 3)] } }
def ga : Gathering := { bytes := 256, winOff := 65536, banks := 1, session := 0xFF, pbuf0 := 0x1000000000200000 }
def fetch0 : Fetch := { part := 0, entry := 0, bank := 0, version := 0 }
def gathers (x : Bool) : State :=
  let s := stored steady 0 leaf1
  { s with parts := s.parts.set 0 { s.parts[(0 : Fin 64)] with gatherings := [ga] }, mem := { s.mem with fetches := [{ fetch0 with started := x }] } }

theorem wit_movement_and_gathering :
    ((copying 0).mem.migrations.find? (fun m => m.part = 0 && m.page = 1) = some { part := 0, page := 1, dst := .t1 100000, watermark := 0 } ∧ alGet 1 (copying 0).mem.pages[(0 : Fin 64)] = some leaf1 ∧
      exchangePartner (copying 0).mem { part := 0, page := 1, dst := .t1 100000, watermark := 0 } leaf1 = none ∧ ctrOf (copying 0).mem ((copying 0).vm.region 0 1) 0 ≠ 0) ∧
    ((copying 8191).mem.migrations.find? (fun m => m.part = 0 && m.page = 1) = some { part := 0, page := 1, dst := .t1 100000, watermark := 8191 }) ∧ (0, 3) ∈ (copying 0).mem.moves ∧
    (memUp (gathers false) ∧ ∃ f ∈ (gathers false).mem.fetches, f.started = false) ∧
    (memUp (gathers true) ∧ fetchAt (gathers true) 0 0 0 = some { fetch0 with started := true } ∧ getGather (gathers true).vm 0 0 = some ga ∧
      ((gathers true).vm.readSector 0 (fetchVa ga { fetch0 with started := true }) (.asStored 0) true).2 = .data 0) := by decide +kernel

def freeP : State := { act with parts := act.parts.set 0 {}, life := { act.life with force := 3 } }
def removing : State := { act with parts := act.parts.set 0 { act.parts[(0 : Fin 64)] with state := .removing, removal := some { requestFrame := 1, aborted := 0, dropped := 0, forced := false } } }

theorem wit_partitions :
    (reachable freeP ∧ served freeP 0x3000 ∧ isOperator freeP op ∧ tenantKeysOn freeP ∧ freeP.parts[(0 : Fin 64)].state = .free ∧ bitmapFits freeP 0 freeP.parts[(0 : Fin 64)].written.bitmap) ∧
    (reachable act ∧ served act 0x3000 ∧ isOperator act op ∧ act.parts[(0 : Fin 64)].state ≠ .free ∧ opOrTenant act ten 0 ∧ act.parts[(0 : Fin 64)].state = .active) ∧
    (removing.tick.joined ∧ removing.parts[(0 : Fin 64)].state = .removing ∧ removing.parts[(0 : Fin 64)].removal = some { requestFrame := 1, aborted := 0, dropped := 0, forced := false } ∧ accessesDone removing 0) := by
  decide +kernel

theorem wit_partitions_fit : t1Fits freeP 0 freeP.parts[(0 : Fin 64)].written.t1.toNat := by
  have h := t1PrivateBase_le
  have h1 : t1Fits freeP 0 freeP.parts[(0 : Fin 64)].written.t1.toNat = decide (0 + (Config.t1PrivateBase + 0) + 0 ≤ 24 * 32 * 2 ^ 30) := by rfl
  rw [h1, decide_eq_true_eq]
  omega

def blob (o sess : Byte) : Bytes := [1, 0, 0, 0, o, 0, sess, 0] ++ zeros 1648
def keyable (o : Nat) : State :=
  { act with
    life := { act.life with force := 3 }
    keys := { act.keys with nonces := [(0, false)] }
    parts := act.parts.set 0 { act.parts[(0 : Fin 64)] with state := if o = 1 then .created else .active, cls := if o = 3 then 2 else 1, force := { slots := 16 } } }

theorem wit_tenant_keys :
    reachable (keyable 1) ∧ served (keyable 1) 0x8002 ∧ tenantOf (keyable 1) ten 0 ∧ importForm (blob 1 0xFF) ∧ importForm (blob 2 0xFF) ∧ importForm (blob 3 0) ∧ (importBlob (blob 1 0xFF)).part = 0 ∧
    (importBlob (blob 1 0xFF)).op = 1 ∧ (importBlob (blob 2 0xFF)).op = 2 ∧ (importBlob (blob 3 0)).op = 3 ∧ tenantKeysOn (keyable 1) ∧ ((importBlob (blob 1 0xFF)).nonce, false) ∈ (keyable 1).keys.nonces ∧
    ((importBlob (blob 3 0)).nonce, false) ∈ (keyable 3).keys.nonces ∧ roomFor (keyable 1) 0 2 ∧ roomFor (keyable 2) 0 2 ∧ roomFor (keyable 3) 0 2 ∧
    (keyable 1).parts[(0 : Fin 64)].state = .created ∧ ((keyable 2).parts[(0 : Fin 64)].state = .active ∧ (keyable 2).parts[(0 : Fin 64)].rotating = false ∧ isTenant (keyable 2) ten 0) ∧
    ((keyable 3).parts[(0 : Fin 64)].cls = 2 ∧ isTenant (keyable 3) ten 0 ∧ (keyable 3).keys.slots = []) := by decide +kernel
/-! ### Witnesses: straits, packets and flows -/

def strait0 (f : Strait → Strait) : State := act.updStrait 0 f
theorem wit_training :
    (let s := strait0 (fun x => { x with link := .training }); hubUp s ∧ s.fab.straits[(0 : Fin 18)].link = .training ∧ (permLanes s 0).length ≤ 1) ∧
    (strait0 (fun x => { x with link := .training, trainFails := 63 })).fab.straits[(0 : Fin 18)].trainFails = 63 ∧
    (let s := strait0 (fun x => { x with link := .detect, counters := bump x.counters 3 1 })
     hubUp s ∧ s.fab.straits[(0 : Fin 18)].link = .detect ∧ s.fab.straits[(0 : Fin 18)].mode = 1 ∧ s.fab.straits[(0 : Fin 18)].counters[3] ≠ 0) ∧
    (reachable act ∧ hubUp act ∧ isOperator act op ∧ served act 0x6000 ∧ act.fab.straits[(0 : Fin 18)].mode = 1 ∧ (0 : Byte) ≠ act.fab.straits[(0 : Fin 18)].mode) ∧
    (let s := { act with fab := { act.fab with ferry := 7 } }; served s (0x6000 + 17) ∧ isFerry s ∧ (2 : Byte) ≠ s.fab.straits[(17 : Fin 18)].mode ∧ hubUp s ∧ s.fab.straits[(17 : Fin 18)].link ≠ .failed) ∧
    (let s := strait0 (fun x => { x with link := .failed }); reachable s ∧ served s 0x6000 ∧ isOperator s op ∧ s.fab.straits[(0 : Fin 18)].link = .failed ∧ !op.flashFails) ∧
    (ferry.fab.straits[(16 : Fin 18)].mode = 2 ∧ 16 ≤ (16 : StraitId).val) := by decide +kernel

def flit0 : Flit := { correctable := true, corrected := 0, fseq := 0, ackFseq := 0, creditVc := 0, creditSlots := 0, kind := 0, reserved := 0, slots := [] }
theorem wit_flits :
    flitsFlow act 0 ∧ ({ flit0 with kind := 2 } : Flit).kind = 2 ∧ flit0.reserved = 0 ∧
    (let s := strait0 (fun x => { x with txIndex := 4098, replay := [⟨4096, 0, 0xFF, 0, [1]⟩, ⟨4097, 0, 0xFF, 0, [2]⟩] })
     4096 % 4096 = (0 : BitVec 12).toNat ∧ s.fab.straits[(0 : Fin 18)].oldest ≤ 4096 + 1 ∧ 4096 + 1 - s.fab.straits[(0 : Fin 18)].oldest ≤ s.fab.straits[(0 : Fin 18)].replay.length) ∧ (flit0.correctable ∧ flit0.fseq.toNat = act.fab.straits[(0 : Fin 18)].rxIndex % 4096) ∧ ({ flit0 with correctable := false } : Flit).correctable = false ∧
    ({ flit0 with fseq := 1 } : Flit).fseq.toNat ≠ act.fab.straits[(0 : Fin 18)].rxIndex % 4096 := by decide +kernel

def hopped : State := { act with keys := { act.keys with slots := [(0, { owner := 0x40, epoch := 0, purpose := 0x16, kind := 0, mask := 127, tag := 0, value := [] }), (1, { owner := 0x40, epoch := 0, purpose := 0x16, kind := 0, mask := 127, tag := 1, value := [] })] } }
theorem wit_faults_of_links :
    (let s := strait0 (fun x => { x with width := 8 }); flowing s 0 ∧ s.fab.straits[(0 : Fin 18)].spare = 0xFF ∧ s.fab.straits[(0 : Fin 18)].swap = none ∧ s.fab.straits[(0 : Fin 18)].width = 8 ∧ (7 : Fin 9).val ≠ 8) ∧
    (let s := strait0 (fun x => { x with spare := 3, badLanes := [3] }); flowing s 0 ∧ s.fab.straits[(0 : Fin 18)].spare ≠ 0xFF ∧ (5 : Fin 9) ∉ s.fab.straits[(0 : Fin 18)].badLanes) ∧
    DownCause.noCodeword ≠ .replayFailed ∧ 8 ≤ (strait0 (fun x => { x with replayFails := 8 })).fab.straits[(0 : Fin 18)].replayFails ∧
    flowing hopped 0 ∧ (findKey hopped.keys 0x40 0x16 (hopTag 0 false)).isSome ∧ (findKey hopped.keys 0x40 0x16 (hopTag 0 true)).isSome ∧
    (flitsFlow hopped 0 ∧ alGet 255 hopped.keys.slots = none) ∧ (cswPath act 0 4 = some ([0], false) ∧ cswPath act 0 3 = some ([0, 3], false)) ∧
    (let s := { act with fab := { act.fab with causeways := act.fab.causeways.set 0 { failed := true } } }; (cswPath s 0 4).isSome ∧ cswPath s 0 4 ≠ some ([0], false)) ∧
    cswUp act 0 ∧ cswUp act 7 ∧ (let s := { act with fab := { act.fab with causeways := act.fab.causeways.set 0 { resendRun := 16 } } }; cswUp s 0 ∧ 16 ≤ s.fab.causeways[(0 : Fin 8)].resendRun) := by decide +kernel

/-- The ferry's aperture granule 0 names byte 0x200000 of partition 0 (kind 2), or of the lent range (kind 1). -/
def apt (kind : Nat) (grant : Bool) (l : Leaf) : State :=
  { ferry with
    fab := { ferry.fab with aperture := [(0, { raw := BitVec.ofNat 128 (7 * 2 ^ 112 + (if kind = 2 then 0x200000 else 0) * 2 ^ 56 + 2 * 4 + kind) })] }
    mem := { (stored steady 0 l).mem with lendBytes := 4096 }
    keys := (stored steady 0 l).keys
    parts := act.parts.set 0 { act.parts[(0 : Fin 64)] with hostGrant := grant } }
def ptFields : AptFields := { device := 7, va := 0x200000, part := 0, access := 2, kind := 2 }
def plFields : AptFields := { device := 7, va := 0, part := 0, access := 2, kind := 1 }

theorem wit_host_requests :
    hostUp ferry 16 ∧ plain16.fab.straits[(16 : Fin 18)].ide = false ∧
    (let s := apt 1 true leaf1
     hostUp s 16 ∧ s.fab.straits[(16 : Fin 18)].ide ∧ aptAt s 0 4096 false = some plFields ∧ plFields.device = s.fab.idInForce ∧ plFields.kind = 1 ∧ openPosts s 16 = [] ∧ plFields.va + 0 % 2 ^ 21 + 4096 ≤ s.mem.lendBytes.toNat) ∧
    (let s := apt 2 true stash1
     hostUp s 16 ∧ s.fab.straits[(16 : Fin 18)].ide ∧ aptAt s 5 4 false = some ptFields ∧ ptFields.device = s.fab.idInForce ∧ ptFields.part = (0 : PartId).val ∧ granted s 0 ∧ openPosts s 16 = [] ∧
       (s.vm.readBytes 0 (ptFields.va + 5 % 2 ^ 21) 4).2 = some [0, 0, 0, 0]) ∧
    (let s := apt 2 true leaf1; aptAt s 5 1 true = some ptFields ∧ granted s 0 ∧ (s.vm.writeBytes 0 (ptFields.va + 5 % 2 ^ 21) [9] true).2.2 = .done) ∧
    (let s := apt 2 false leaf1; aptAt s 5 1 true = some ptFields ∧ granted s 0 = false) ∧
    (let s := { ferry with fab := { ferry.fab with aperture := [(0, { raw := BitVec.ofNat 128 (8 * 2 ^ 112 + 2 * 4 + 1) })] } }
     aptAt s 0 4096 false = some { plFields with device := 8 } ∧ findFlow s 0x40 8 8 none = some 20 ∧ getFlow s 20 = some hostFlow ∧ hostFlow.state = .opened ∧ s.fab.idInForce ≠ 0xFFFF ∧
       findFlow { s with fab := { s.fab with flows := [] } } 0x40 8 8 none = none) := by decide +kernel

/-- Flow 20 to device 8, and a packet that comes on it. -/
def fl : Flow := { state := .opened, owner := 0x40, peer := 8, classes := [1, 2, 3, 6, 7, 8], rxPsn := 3, txPsn := 5, ackedPsn := 2 }
def pk : Pkt := { strait := 0, psn := 3, ackPsn := 2, ackValid := true, dest := 7, src := 8, flow := 20, keygen := false, hops := 3, reserved := 0, tagOk := true }
def withFlow (x : Flow) : State := { act with fab := { act.fab with flows := [(20, x)] }, mem := { act.mem with lendBytes := 1024 } }
def ga0 : GAddr := { device := 7, space := 1, off := 0 }

theorem wit_arrives (cls : Nat) (h : cls ∈ [1, 2, 3, 6, 7, 8]) : Arrives (withFlow fl) pk cls fl :=
  ⟨by decide +kernel, by decide +kernel, by decide +kernel, by decide +kernel, rfl, rfl, rfl, h, rfl, by decide +kernel, by decide +kernel⟩
theorem wit_homes :
    (withFlow fl).pow.mod ≠ .doze ∧ gaddrOk ga0 ∧ ga0.off.toNat % 256 = 0 ∧ lentHolds (withFlow fl) ga0 4 ∧ (List.replicate 4 ({ cipher := 1, tag := 2 } : StoredSector)).length = 4 := by decide +kernel

/-- A read of page 1 waits on flow 20 with tag 6. -/
def wr : WaitRead := { flow := 20, tag := 6, part := 0, va := 0x200000, gen := 0, ctr := 1 }
def waiting : State := let s := stored steady 1 leaf1; { s with fab := (withFlow fl).fab, mem := { s.mem with waits := [wr] } }
theorem wit_arrives_waiting : Arrives waiting pk 1 fl :=
  ⟨by decide +kernel, by decide +kernel, by decide +kernel, by decide +kernel, rfl, rfl, rfl, by decide +kernel, rfl, by decide +kernel, by decide +kernel⟩
theorem wit_waits :
    hostWaitOf waiting 20 6 = false ∧ waitOf waiting 20 6 = some wr ∧ waiting.vm.leaf 0 wr.va = some leaf1 ∧ (waiting.vm.region 0 (pageOf wr.va)).gen = wr.gen ∧
    waiting.vm.baseKey 0 leaf1 (waiting.vm.region 0 (pageOf wr.va)).epoch.toNat = some [1] ∧ Status.ofCode (0x40 : Byte).toNat = some .linkLost ∧ Status.ofCode (0x21 : Byte).toNat = some .uncorrectable ∧
    (20, 6) ∉ (withFlow fl).mem.casWaits ∧ (20, 6) ∈ ({ withFlow fl with mem := { (withFlow fl).mem with casWaits := [(20, 6)] } } : State).mem.casWaits ∧ waitOf (withFlow fl) 20 6 = none := by decide +kernel

theorem wit_order_of_flows :
    (let s := withFlow fl; hubUp s ∧ s.fab.straits[pk.strait].link = .up ∧ forMe s pk ∧ getFlow s 20 = some fl ∧ 2 ∈ fl.classes) ∧
    (fl.state = .opened ∧ fl.rxPsn < ({ pk with psn := 4 } : Pkt).psn ∧ ({ pk with psn := 2 } : Pkt).psn < fl.rxPsn ∧ ({ pk with tagOk := false } : Pkt).tagOk = false ∧ ({ fl with state := .revoked } : Flow).state = .revoked) ∧
    (pk.ackValid ∧ fl.ackedPsn ≤ pk.ackPsn ∧ pk.ackPsn < fl.txPsn) ∧
    (let o : OutPkt := { flow := 20, psn := 4, ackPsn := 2, ackValid := true, dest := 8, src := 7, destFlow := 20, len := 0, cls := 1, op := 0, keygen := false, csf := 0, body := [] }
     ({ fl with unacked := [o], retries := 7 } : Flow).unacked ≠ [] ∧ ({ fl with unacked := [o] } : Flow).retries < 7 ∧ 7 ≤ ({ fl with unacked := [o], retries := 7 } : Flow).retries) ∧
    8 ≤ ({ fl with tagFails := 8 } : Flow).tagFails ∧ (fl.keygen = false ∧ 2 ^ 47 ≤ ({ fl with txPsn := 2 ^ 47 } : Flow).txPsn) := by decide +kernel

def paired : State :=
  { act with keys := { act.keys with slots := [(300, { owner := 0x40, epoch := 0, purpose := 0x17, kind := 0, mask := 127, tag := 16, value := [] }), (301, { owner := 0x40, epoch := 0, purpose := 0x17, kind := 0, mask := 127, tag := 17, value := [] })] } }
def hs0 (hop : Option StraitId) : Handshake := { hop := hop, unit := 1, device := 8, nonce := 0, kemPub := [], cert := [], lifeCycle := 3, debugOpen := false, fwDigest := 0, ct := [], sig := [] }
def shaking (o : Bool) : State := { act with fab := { act.fab with handshakes := [{ hop := none, opener := o, peer := 8, transcript := [] }] } }
theorem wit_flows_and_handshakes :
    (flowKind 0x40 [1, 2, 3] none = some .pool ∧ flowKind 0x40 [8] none = some .dictionary ∧ flowKind 0x40 [5] none = none ∧ (flowKind (0 : PartId).val [1] none).isSome ∧ havePair act.keys 8 = false ∧
      dictSlot { paired with keys := { paired.keys with slots := [(302, { owner := 0x40, epoch := 0, purpose := 0x19, kind := 0, mask := 127, value := [] })] } } 0x40 = some 302) ∧
    (hubUp paired ∧ paired.fab.idInForce ≠ 0xFFFF ∧ havePair paired.keys 8 ∧ getFlow paired 18 = none ∧ pairFlows paired 8 = []) ∧
    (let s := { act with parts := act.parts.set 0 { act.parts[(0 : Fin 64)] with force := { flows := 0 } } }; s.parts[(0 : Fin 64)].state = .active ∧ s.parts[(0 : Fin 64)].force.flows.toNat ≤ flowsUsed s 0) ∧
    hsOpen act none ∧ hsOpen (strait0 (fun x => { x with link := .handshake })) (some 0) ∧ (findHs (shaking true) true (hs0 none).hop (hs0 none).device).isSome ∧ (findHs (shaking false) false (hs0 none).hop (hs0 none).device).isSome := by
  decide +kernel
/-! ### Witnesses: the Bindery -/

/-- A block of 136 bytes: one rank (device 7, partition 0), one layer, one tensor of one element, one step row. -/
def cfgHdr : Nat :=
  64 * 2 ^ 480 + 80 * 2 ^ 448 + 96 * 2 ^ 416 + 128 * 2 ^ 384 + 2 ^ 320 + 2 ^ 232 + 2 ^ 208 + 2 ^ 192 + 2 ^ 176 + 2 ^ 160 + 2 ^ 136 + 2 ^ 128 + 2 ^ 112 + 2 ^ 104
def cfgBytes : Bytes :=
  leBytes 64 cfgHdr ++ leBytes 8 (7 * 2 ^ 48 + 2 ^ 40) ++ zeros 8 ++ leBytes 16 (2 ^ 88 + 2 * 2 ^ 64) ++ leBytes 32 (2 ^ 224 + 2 ^ 192 + 0x2000000000200000 * 2 ^ 64) ++ leBytes 8 0
/-- The block stands, sealed, in sector 0 of page 1. -/
def blockS (carve : BitVec 64) : State :=
  let s := stored steady 1 leaf1
  { s with mem := { s.mem with t1 := [(393215 * 8192, sealSector (kmat [1] 1 0 0) (lbnOf 0x200000) 1 (bytesSector (cfgBytes ++ zeros 120)))] }
           bind := { s.bind with carveout := carve, sessions := [(0, { configAddr := 0x2000000000200000 })] } }

theorem readBytes_in_one_sector (p : PartId) (va len : Nat) (v : VM) (x : Sector) (hp : pieces va len = [(va, len)]) (h : (v.readSector p (va / 256 * 256) (.asStored 0) false).2 = .data x) :
    (v.readBytes p va len).2 = some (slice (sectorBytes x) (va % 256) len) := by
  unfold VM.readBytes
  rw [hp]
  simp only [List.foldl_cons, List.foldl_nil, List.nil_append]
  rcases hr : v.readSector p (va / 256 * 256) (.asStored 0) false with ⟨w, r⟩
  rw [hr] at h
  subst h
  rfl

theorem block_sector (c : BitVec 64) : ((blockS c).vm.readSector 0 0x200000 (.asStored 0) false).2 = .data (bytesSector (cfgBytes ++ zeros 120)) := by
  have h : (blockS c).vm = (blockS 0).vm := rfl
  rw [h]
  exact readSector_sealed _ 0 _ 0 false leaf1 [1] _ (by decide +kernel) (by decide +kernel) (by decide +kernel) (by decide +kernel) (by decide +kernel) (by rfl)

theorem block_bytes (c : BitVec 64) (n : Nat) (hp : pieces 0x200000 n = [(0x200000, n)]) : ((blockS c).vm.readBytes 0 0x200000 n).2 = some (slice (sectorBytes (bytesSector (cfgBytes ++ zeros 120))) 0 n) :=
  readBytes_in_one_sector 0 0x200000 n _ _ hp (block_sector c)

/-- The tenant's OPEN finds its block; the carve-out has room for it, or has not. -/
theorem wit_open_block (c : BitVec 64) : openBlock (listSession 0 (blockS c)) ten 0 { (getSess (blockS c) 0).getD {} with cfg := none } = some (0, cfgBytes) := by
  have h0 : listSession 0 (blockS c) = blockS c := rfl
  have h1 : ((blockS c).vm.readBytes 0 (vaOf 0x2000000000200000) 64).2 = some (leBytes 64 cfgHdr) := by rw [show vaOf 0x2000000000200000 = 0x200000 by decide +kernel, block_bytes c 64 (by decide +kernel)]; decide +kernel
  have h2 : ((blockS c).vm.readBytes 0 (vaOf 0x2000000000200000) 136).2 = some cfgBytes := by rw [show vaOf 0x2000000000200000 = 0x200000 by decide +kernel, block_bytes c 136 (by decide +kernel)]; decide +kernel
  have h3 : readCfg (blockS c) 0 0x2000000000200000 = some cfgBytes := by
    unfold readCfg
    rw [if_pos (by decide +kernel), h1]
    simp only []
    rw [if_pos (by decide +kernel), show cfgLength (leNat (leBytes 64 cfgHdr)) = 136 by decide +kernel, h2]
  have h4 : openParts (blockS c) ten = [0] := by rfl
  have h5 : cfgSuits (blockS c) 0 0 cfgBytes = cfgSuits act 0 0 cfgBytes := by rfl
  have h6 : cfgSuits act 0 0 cfgBytes = true := by decide +kernel
  rw [h0]
  unfold openBlock
  rw [h4, show ({ (getSess (blockS c) 0).getD {} with cfg := none } : Session).configAddr = 0x2000000000200000 from rfl]
  unfold List.findSome?
  rw [h3]
  dsimp only
  rw [h5, h6]
  rfl

theorem wit_sessions_open :
    (reachable (blockS 0) ∧ served (blockS 0) 0x7001 ∧ sessMay (blockS 0) ten 0 ∧ hubUp (blockS 0) ∧ ((getSess (blockS 0) 0).getD {}).state = 0) ∧
    (blockS 0).bind.carveout.toNat < carveUsed (blockS 0).bind + reserveBytes (cfgOf cfgBytes) 0 ((cfgOf cfgBytes).layers.map (·.ownerRank)) ∧
    carveUsed (blockS 1073741824).bind + reserveBytes (cfgOf cfgBytes) 0 ((cfgOf cfgBytes).layers.map (·.ownerRank)) ≤ (blockS 1073741824).bind.carveout.toNat ∧ openBlock act ten 0 {} = none := by decide +kernel

def cfg3 : SessCfg := { cfgOf cfgBytes with ranks := [⟨7, 0, true⟩, ⟨8, 0, true⟩, ⟨9, 0, false⟩], layers := [{ firstTensor := 0, tensorCount := 1, ownerRank := 0, optimizer := 0, imageBytes := 1024 }] }
def elas : Elastic := { live := [0, 1, 2], owners := [0], coordinator := some 0, epoch := 4 }
/-- Session 0 runs; this module is rank 0 and owns layer 0. -/
def se : Session := { state := 2, myRank := some 0, part := some 0, cfg := some cfg3, elastic := elas, layers := [{}] }
def lay (y : Layer) (x : Session) : Session := { x with layers := [y] }
def running (x : Session) : State := { act with bind := { act.bind with carveout := 1048576, sessions := [(0, x)] } }
/-- Session flow 20 to rank 1. -/
def sfl : Flow := { fl with owner := 0x41, classes := [4, 5, 6], session := some 0 }
def heard (x : Session) : State := { running x with fab := { act.fab with flows := [(20, sfl)] } }
def owned1 (x : Session) : Session := { x with elastic := { x.elastic with owners := [1] } }

theorem wit_sessions_run_and_close :
    (hubUp (running { se with state := 1 }) ∧ getSess (running { se with state := 1 }) 0 = some { se with state := 1 } ∧ ({ se with state := 1 } : Session).open' = true ∧ [(1, (5 : BitVec 512))] ≠ []) ∧
    (reachable (running se) ∧ served (running se) 0x7001 ∧ sessMay (running se) ten 0 ∧ getSess (running se) 0 = some se ∧ se.state ≠ 0 ∧ se.open') := by decide +kernel

theorem wit_layers :
    (let x := lay { agreed := [(3, [0], true)] } { se with withholding := [3] }; getSess (running x) 0 = some x ∧ sessMay (running x) ten 0 ∧ (0x30000 : BitVec 64).toNat = 3 * 2 ^ 16 + 0 ∧ closable x 0 3 ∧ 3 ∈ x.withholding) ∧
    (unclosed se 3).contains 0 ∧
    (let w : StepWork := { step := 3, held := [(5, { ex := none, ents := [] })] }
     workOf (running (lay { steps := [w] } se)) 0 0 3 = some w ∧ w.closed = false ∧ w.held.find? (fun h => h.1 = 5) = some (5, { ex := none, ents := [] })) ∧
    (let r : Reduction := { step := 3, tree := true, deadline := 100 }
     let x := lay { reduction := [r], kept := [{ version := 3, chunks := [] }] } se
     redOf x 0 3 = some r ∧ (x.layer 0).ownStep = some 3 ∧ r.deadline ≤ frameNow (running x) ∧ x.open') := by decide +kernel

def cm (st : Nat) : ContribMsg := { session := 0, layer := 0, step := st, chunk := 0, dense := false, exp := 0, part := 0, parts := 1, source := 1, rescaled := false, leaf := false, entries := [], reservedZero := true }
def chm (st : Nat) : ChunkMsg := { session := 0, layer := 0, step := st, chunk := 0, payload := [] }

theorem wit_arrives_session (x : Session) (cls : Nat) (h : cls ∈ [4, 5, 6]) : Arrives (heard x) pk cls sfl :=
  ⟨by show hubUp act = true; decide +kernel, by show act.fab.straits[(0 : Fin 18)].link = .up; decide +kernel, by show forMe act pk = true; decide +kernel, rfl, rfl, rfl, rfl, h, rfl, by decide +kernel, by decide +kernel⟩
theorem wit_bindery_packets :
    (let x := lay { kept := [{ version := 5, chunks := [] }] } se
     let u := afterTaking pk 4 0 32 sfl (heard x)
     (cm 3).reservedZero = true ∧ (cm 3).part < (cm 3).parts ∧ getSess u 0 = some x ∧ senderRank u x 20 = some 1 ∧ x.open' = true ∧ 0 < x.layersOf ∧ x.ownerOf 0 3 = x.me ∧ ownAt x 0 3 = .late ∧ ownAt x 0 5 = .current ∧ x.isLive 1 = true) ∧
    (let x := owned1 se
     let u := afterTaking pk 4 0 32 sfl (heard x)
     getSess u 0 = some x ∧ senderRank u x 20 = some 1 ∧ x.open' = true ∧ 0 < x.layersOf ∧ 0 < x.layers.length ∧ x.ownerOf 0 3 ≠ x.me ∧ (x.layer 0).closedAt 3 = false ∧ (x.layer 0).step 3 = none) ∧
    (let x := lay { newest := some 6 } se; (x.layer 0).newest = some 6 ∧ getSess (afterTaking pk 4 0 32 sfl (heard x)) 0 = some x) ∧
    (0 < cfg3.chunks 0 ∧ (se.layer 0).newest = none) ∧ (se.ownerOf 0 4 = se.me ∧ (se.layer 0).kept = []) ∧
    (let x := owned1 se; (x.layer 0).restore = none ∧ x.elastic.handing = none ∧ x.elastic.owners.getD 0 0xFFFF = 1 ∧ 1 < shadowChunks { cfg3 with tensors := [{ (cfg3.tensors.getD 0 ⟨0, 0, 0, 0, 0, 0, 0, 0⟩) with rows := 1000 }] } 0 ∧
       carveUsed (afterTaking pk 4 0 32 sfl (heard x)).bind + 1024 ≤ (afterTaking pk 4 0 32 sfl (heard x)).bind.carveout.toNat) := by decide +kernel

theorem wit_versions :
    (let r : Version := { version := 4, chunks := (List.range (cfg3.chunks 0)).map (fun k => (k, [])), placed := List.range (cfg3.chunks 0), firstFrame := 50 }
     let x := lay { recv := [r] } (owned1 se)
     x.cfg = some cfg3 ∧ x.part = some 0 ∧ (x.layer 0).recv.find? (fun r => r.version = 4) = some r ∧ mayPublish (running x) 0 0 4 ∧ resendDue (heard x) 0 0 4 ∧ x.ownerOf 0 3 ≠ x.me ∧ rankFlow (heard x) 0 1 5 = some 20 ∧
       getFlow (heard x) 20 = some sfl ∧ sfl.state = .opened ∧ (heard x).fab.idInForce ≠ 0xFFFF) ∧
    (let x := lay { restore := some (3, [1], []), restoreAsked := 98 } se; x.open' ∧ (x.layer 0).restore = some (3, [1], []) ∧ (x.layer 0).restoreAsked + 2 ≤ frameNow (running x)) := by decide +kernel

def rm : RosterMsg := { session := 0, sender := 1, effective := 110, epoch := 5, snapshot := 0, prevSnapshot := 0, rollback := 9, boundary := 0, handover := 1, doRollback := false, doHandover := false, doStop := false, status := 0, live := [0, 1] }
theorem wit_rosters :
    (let u := afterTaking pk 4 0 32 sfl (heard se); getSess u 0 = some se ∧ se.open' = true ∧ se.elastic.next = none ∧ ({ rm with epoch := 4 } : RosterMsg).epoch ≤ se.elastic.epoch ∧ se.elastic.epoch < rm.epoch ∧ rm.live.contains se.rank' ∧
       se.isHead = true ∧ senderRank u se 20 = some rm.handover.toNat ∧ se.isLive rm.handover.toNat = true ∧ rm.effective ≠ 0 ∧ se.elastic.requests = [] ∧ stepOpt ({ elas with rollback := 9 } : Elastic).rollback = some rm.rollback.toNat) ∧
    (let x := { se with elastic := { elas with coordinator := some 1 } }; beatFlow { heard x with fab := { act.fab with flows := [(20, { sfl with classes := [4, 5, 6] })] } } 0 1 = some 20) ∧
    watches (running se) 0 2 ∧ (se.isCoord = true ∧ 16 ≤ ({ elas with held := 16 } : Elastic).held) ∧ (se.isLive 1 = true ∧ ((1, 100) : Nat × Nat).2 ≤ frameNow (running se)) ∧
    (isOperator (running se) op ∧ frameNow (running se) + 4 ≤ (104 : BitVec 64).toNat ∧ (103 : BitVec 64).toNat < frameNow (running se) + 4 ∧ se.elastic.departState ≠ 3 ∧
      ({ elas with departState := 1 } : Elastic).departState = 1 ∧ elas.departState = 0 ∧ 2 ≤ ({ elas with departState := 2 } : Elastic).departState.toNat) := by decide +kernel
/-! ### Witnesses: attestation, life cycle, firmware, repair, Lighthouse and power -/

def pending : State := { act with dict := { act.dict with sessions := [{ opS with vals := { attPending := some (zeros 80) } }, tenS, makS, { sid := 4, role := .enrol }] } }
def enr : Req := { sid := 4, src := 0 }
theorem wit_reports_certificates_debug :
    (reachable act ∧ served act 0x8040 ∧ mayAttest act ten ∧ (perOf act ten).attPending = none) ∧
    (reachable pending ∧ (perOf pending op).attPending = some (zeros 80) ∧ op.sid ≠ 0 ∧ pending.pow.mgmtUp) ∧
    (served act 0xA004 ∧ isMaker act mak ∧ act.life.force = 1) ∧
    (let s := { pending with life := { pending.life with force := 2 } }; served s 0xA005 ∧ roleOf s enr = .enrol ∧ s.life.operatorDigest = 0 ∧ (findSess s enr).isSome) ∧
    (served act 0xA002 ∧ opOrMaker act mak ∧ dbgOpen act ∧ act.life.dbg ≠ 3 ∧ responseOk act) := by decide +kernel

theorem zeros_length (n : Nat) : (zeros n).length = n := by simp [zeros]
theorem wit_certificate_length : (zeros 8192).length = 8192 := zeros_length 8192

theorem wit_life_cycle : (served act 0xA001 ∧ opOrMaker act mak ∧ lcOpen act) ∧ (let s := { act with life := { act.life with running := some 2 } }; s.life.running = some 2 ∧ s.pow.mgmtUp) := by decide +kernel

theorem wit_images :
    (served act 0x9020 ∧ opOrMaker act op ∧ act.ras.libStatus ≠ 1 ∧ (zeros 1024).length = 1024) ∧ ({ act with ras := { act.ras with libStatus := 1 } } : State).ras.libStatus = 1 ∧
    (served act 0x1120 ∧ act.pow.mod = .active ∧ act.fw.committing = none) ∧ ({ act with fw := { act.fw with committing := some [1] } } : State).fw.committing = some [1] := by decide +kernel

def serving (v : Option ServeRun) : State := { act with fw := { act.fw with running := some [1, 2, 3], serve := v } }
def sv : ServeRun := { fetchId := 5, strait := some 0, key := [], secret := none, sent := 0 }
def fetchS (f : FetchRun) : State := { act with pow := { act.pow with mod := .booting }, fw := { act.fw with running := none, fetch := some f } }
def fr0 : FetchRun := { fetchId := 5, kemSeed := [], strait := some 0 }
theorem wit_recovery :
    ((serving none).pow.mgmtUp ∧ heardOver (serving none) (some 0) ∧ serves (serving none) (some 0) ∧ (serving none).fw.serve = none) ∧
    ((serving (some sv)).fw.serve = some sv ∧ sv.fetchId = 5 ∧ sv.secret = none ∧ sv.fetchId ≠ 6 ∧ sv.strait = some 0) ∧
    ((fetchS fr0).fw.fetch = some fr0 ∧ fetching (fetchS fr0) ∧ hubUp (fetchS fr0) ∧ (fetchS fr0).fab.straits[(0 : Fin 18)].link = .up ∧ fr0.ct = [] ∧ ({ fr0 with ct := zeros 1024 } : FetchRun).ct.length = 1024 ∧
      ({ fr0 with total := some 9 } : FetchRun).total = some 9) ∧
    (fabricFrom (fetchS fr0) (1 + 1) = some 2 ∧ (fetchS fr0).fab.straits[(2 : Fin 18)].link ≠ .up ∧ fabricFrom (fetchS fr0) (17 + 1) = none) ∧
    (let s := { fetchS fr0 with fab := { act.fab with straits := Vector.replicate 18 { mode := 0 } } }; fabricFrom s 0 = none ∧ fetching s ∧ hubUp s) := by decide +kernel

def unit0 (u : Machine.PUnit) : State := { act with ras := { act.ras with units := alSet 0x1000 u act.ras.units } }
theorem wit_units :
    (let s := unit0 { state := .underTest }
     (s.ras.unit 0x1000).state = .underTest ∧ (s.ras.unit 0x1000).leaving = false ∧ (s.ras.unit 0x1000).permanent = false ∧ (s.ras.unit 0x1000).retest = false ∧ (s.ras.unit 0x1000).rowsUsed < 4) ∧
    (unitKind (0x1000 : BitVec 16).toNat ≠ 2 ∧ unitKind (0x2000 : BitVec 16).toNat = 2 ∧ (({ act with ras := { act.ras with units := alSet 0x2000 { state := .underTest } act.ras.units } } : State).ras.unit 0x2000).state = .underTest) ∧
    (let s := unit0 { deferrals := 64, serves := some 0 }; (s.ras.unit 0x1000).state = .inService ∧ 64 ≤ (s.ras.unit 0x1000).deferrals ∧ unitIdle s 0x1000) ∧
    (let s := unit0 { permanent := true, serves := some 0 }
     (s.ras.unit 0x1000).permanent ∧ (s.ras.unit 0x1000).state ≠ .retired ∧ unitIdle s 0x1000 ∧ unitKind 0x1000 = 1 ∧ 0x1000 ∉ s.ras.spares (unitDie 0x1000) (rerunUnits s) ∧ s.ras.spares (unitDie 0x1000) (rerunUnits s) ≠ []) ∧
    mayClear (unit0 { suspect := true }) 0x1000 ∧
    (let s := { act with parts := act.parts.set 0 { act.parts[(0 : Fin 64)] with force := { bitmap := 1 } } }; 3145727 < windowBytes s.parts[(0 : Fin 64)].force.bitmap ∧ s.pow.mod = .active) ∧
    (act.pow.domains[stackDie 23] = .up ∧ (23 : StackId).val ∉ act.mem.stacksFailed ∧ act.pow.domains[(4 : DieId)] = .up ∧ 85 < 86) := by decide +kernel

def lhS (f : Lighthouse → Lighthouse) : State := { act with lh := f act.lh }
def rec0 : FrameRec := { frame := 5, seq := 0, minute := 0, energyMj := 1, lengthUs := 2000, belowUs := 0, overUs := 0, gapUs := 0, peakW := 0, sealCount := 0, flags := 0, counts := [] }
theorem wit_lighthouse :
    (act.lh.powered ∧ act.pow.domains[(3 : Fin 4).val] = .up ∧ act.lh.gathered = [] ∧ act.lh.tapSeq[(3 : Fin 4)] = none ∧ (0x80 : Byte).toNat % 128 = (0 : PartId).val) ∧
    ((lhS (fun l => { l with lastFrame := some 5 })).lh.lastFrame = some 5 ∧ minuteDue (lhS (fun l => { l with lastFrame := some 5 })).lh = false) ∧
    (let s := { act with tick := { act.tick with joined := false } }; s.lh.powered ∧ s.tick.joined = false ∧ minuteDue s.lh = false) ∧
    (let s := lhS (fun l => { l with minuteUs := 60000000, gathered := [rec0] }); s.lh.powered ∧ minuteDue s.lh ∧ s.lh.minute % 60 ≠ 59) ∧
    (let s := lhS (fun l => { l with minuteUs := 60000000, gathered := [rec0], minute := 59 }); minuteDue s.lh ∧ s.lh.minute % 60 = 59) ∧
    (let s := { act with pow := { act.pow with input := false } }; s.lh.powered ∧ s.pow.input = false ∧ minuteDue s.lh = false) ∧
    ((lhS (fun l => { l with powered := false })).lh.powered = false ∧ act.pow.input) ∧ (act.lh.silent = false ∧ (lhS (fun l => { l with silent := true })).lh.silent = true) := by decide +kernel
theorem wit_lighthouse_room : act.lh.minutes.length < 60 * flashHours := by
  have : act.lh.minutes.length = 0 := by decide +kernel
  rw [this]; unfold flashHours; omega

def pw (f : Power → Power) : State := { act with pow := f act.pow }
theorem wit_power_events :
    (act.pow.input ∧ act.pow.resetLow = false ∧ act.pow.mgmtUp ∧ (pw (fun x => { x with resetLow := true })).pow.resetLow ∧ (pw (fun x => { x with input := false })).pow.input = false) ∧
    (let s := pw (fun x => { x with pwrEn := false, mod := .standby }); s.pow.pwrEn = false ∧ s.pow.mgmtUp ∧ s.pow.mod = .standby ∧ s.pow.tripped = false ∧ s.pow.scrapped = false ∧ s.pow.domains[(4 : Fin 5)] ≠ .failed) ∧
    (act.pow.pwrEn = true ∧ act.pow.mod = .active ∧ act.pow.domains[(4 : Fin 5)] ≠ .off ∧ act.pow.domains[(4 : Fin 5)] ≠ .failed) := by decide +kernel

def dozing : State := { withFlow { fl with classes := [9] } with pow := { act.pow with mod := .doze } }
theorem wit_wakes :
    (dozing.pow.mgmtUp ∧ dozing.pow.mod = .doze ∧ dozing.pow.pwrEn ∧ dozing.pow.tripped = false ∧ dozing.fab.straits[(2 : Fin 18)].mode = 1 ∧ dozing.fab.straits[(2 : Fin 18)].link ≠ .up ∧ dozing.fab.idInForce ≠ 0xFFFF) ∧
    (reachable act ∧ served act 0x1100 ∧ isOperator act op ∧ act.pow.mod = .active ∧ act.tick.joined ∧ dozeBarred act = false ∧ act.parts[(0 : Fin 64)].state ≠ .free) ∧ dozeBarred (running se) ∧
    (let s := { act with parts := act.parts.set 0 {} }; ∀ p : PartId, s.parts[p].state = .free) := by decide +kernel
theorem wit_arrives_wake : Arrives dozing pk 9 { fl with classes := [9] } :=
  ⟨by decide +kernel, by decide +kernel, by decide +kernel, by decide +kernel, rfl, rfl, rfl, by decide +kernel, rfl, by decide +kernel, by decide +kernel⟩

def dom (d : DieId) (x : DomainState) (f : Power → Power) : State := pw (fun y => f { y with domains := y.domains.set d x })
theorem wit_domains :
    ((dom 0 (.powering 1 [] false) id).pow.domains[(0 : Fin 5)] = .powering 1 [] false ∧ (dom 0 (.powering 1 [] false) id).pow.fromDoze = false) ∧ (dom 4 (.powering 2 [] true) id).pow.domains[(4 : Fin 5)] = .powering 2 [] true ∧
    (dom 4 (.powering 3 [] true) id).pow.domains[(4 : Fin 5)] = .powering 3 [] true ∧ stacksLeft 3 [18] (dom 3 (.powering 3 [18] false) id) ≠ [] ∧
    (let s := dom 3 (.powering 5 [] false) (fun x => { x with mod := .booting }); s.pow.domains[(3 : Fin 5)] = .powering 5 [] false ∧ s.pow.mod = .booting) ∧
    (let s := pw (fun x => { x with windowRun := true, atTick := some .doze, target := some .doze }); s.pow.windowRun ∧ s.pow.atTick = some .doze ∧ s.pow.target = some .doze ∧ ∀ d : DieId, d.val < 4 → s.pow.domains[d] = .up) ∧
    (let s := dom 3 .stopping (fun x => { x with target := some .doze }); s.pow.domains[(3 : Fin 5)] = .stopping ∧ s.pow.latched = none ∧ ∀ e : DieId, e.val < 4 → e ≠ 3 → s.pow.domains[e] ≠ .stopping) ∧
    (let s := dom 3 .stopping (fun x => { x with target := some .standby, domains := x.domains.set 4 .stopping }); s.pow.domains[(3 : Fin 5)] = .stopping ∧ s.pow.target = some .standby ∧ s.pow.domains[(4 : Fin 5)] = .stopping) := by decide +kernel

/-! ### Witnesses: numbers -/

theorem wit_numbers :
    (List.length [(-7 : Int), 7] % 2 = 0 ∧ ∀ x ∈ [(-7 : Int), 7], minCode 0 ≤ x ∧ x ≤ maxCode 0) ∧ anyPoison [.val 8388607 3, .zero] = false ∧ A48.val 8388607 3 ∈ [A48.val 8388607 3, .zero] ∧ anyPoison [A48.val 0 5] = false := by decide +kernel
/-- Events whose cause stands: of the tick, an array, a strait, a session, a unit, the Lighthouse and power. -/
theorem wit_event_tick : Cause (.frameTick noTick) act := show act.tick.joined = true ∧ hubUp act from by decide +kernel
theorem wit_event_missed : Cause .tickMissed act := show act.tick.joined = true ∧ act.tick.role ≠ 1 ∧ act.tick.heard = [] from by decide +kernel
theorem wit_event_pass : Cause (.passStart 0 0) (onA [ep pd] id) := ⟨ep pd, pd, by decide +kernel⟩
theorem wit_event_mover : Cause (.moverStart 0 0) (onA [em] id) := show moverReady (onA [em] id) 0 0 = true from by decide +kernel
theorem wit_event_down : Cause (.straitDown 0 .noCodeword) act := show flowing act 0 = true ∧ (DownCause.noCodeword = .replayFailed → 8 ≤ (act.fab.straits[(0 : StraitId)]).replayFails) from by decide +kernel
theorem wit_event_silence : Cause (.rankSilence 0 2) (running se) := show hubUp (running se) = true ∧ watches (running se) 0 2 = true from by decide +kernel
theorem wit_event_adc : Cause (.adcSample 625) act := show act.lh.powered = true from by decide +kernel
theorem wit_event_watchdog : Cause .watchdogExpire act := show act.pow.mgmtUp = true from by decide +kernel
theorem wit_event_trip : Cause (.thermalTrip 4) act := show act.pow.domains[(4 : DieId)] ≠ .off ∧ act.pow.domains[(4 : DieId)] ≠ .failed from by decide +kernel

/-! ### Ill-formed commands that WellFormed refuses, one for each check -/

theorem wf_takes_the_witnesses : (Instr.map op 0).wf = true ∧ (Instr.read clear).wf = true ∧ (Instr.memrdRequest pk (.global ga0) { sectors := 1 } 0).wf = true ∧ (Instr.tickAnnounce ann).wf = true ∧ (Instr.roster pk rm).wf = true := by decide +kernel
theorem wf_session_id : (Instr.map { op with sid := 2 ^ 32 } 0).wf = false ∧ (Instr.sessionIdleTimeout (2 ^ 32)).wf = false ∧ (Instr.signComplete (2 ^ 32)).wf = false := by decide +kernel
theorem wf_message : (Instr.read { clear with seq := 2 ^ 64 }).wf = false ∧ (Instr.write { clear with offset := 2 ^ 32 }).wf = false := by decide +kernel
theorem wf_packet : (Instr.memrdRequest { pk with psn := 2 ^ 48 } (.global ga0) { sectors := 1 } 0).wf = false ∧ (Instr.memrdRequest { pk with flow := 2 ^ 18 } (.global ga0) { sectors := 1 } 0).wf = false ∧ (Instr.memrdRequest { pk with hops := 64 } (.global ga0) { sectors := 1 } 0).wf = false ∧
    (Instr.memwr pk (.global ga0) 0 (List.replicate 5 { cipher := 0, tag := 0 })).wf = false := by decide +kernel
theorem wf_announce : (Instr.tickAnnounce { ann with frame := 2 ^ 64 }).wf = false ∧ (Instr.tickAnnounce { ann with prio := 65536 }).wf = false := by decide +kernel
theorem wf_bindery : (Instr.contribData pk { cm 0 with session := 255 }).wf = false ∧ (Instr.paramData pk { chm 0 with layer := 65536 }).wf = false ∧ (Instr.roster pk { rm with live := [4096] }).wf = false ∧ (Instr.sessionOpOpen op 255).wf = false ∧
    (Instr.rankSilence 0 4096).wf = false ∧ (Instr.ownerDeadline 0 0 (2 ^ 32)).wf = false := by decide +kernel
theorem wf_memory : (Instr.sectorRead 0 1 (.asStored 0)).wf = false ∧ (Instr.sectorPartialWrite 0 255 [0, 0] (.asStored 0)).wf = false ∧ (Instr.rekeySector 0 (2 ^ 35) (.asStored 0)).wf = false ∧ (Instr.fetchSector 0 0 4 (.asStored 0) (.asStored 0)).wf = false := by
  decide +kernel
theorem wf_links : (Instr.flitReceive 0 { flit0 with slots := [(5, 1)] }).wf = false ∧ (Instr.pcieTraining 15 true 8).wf = false ∧ (Instr.flowRetryTimeout (2 ^ 18)).wf = false ∧ (Instr.hostRead { strait := 16 } 0 4097).wf = false ∧ (Instr.hostWrite { strait := 16 } 0 []).wf = false := by
  decide +kernel
theorem wf_others : (Instr.frameTick { noTick with temps := [] }).wf = false ∧ (Instr.occupancyWord 0 0 []).wf = false ∧ (Instr.fwChunk op (zeros 1025)).wf = false ∧ (Instr.dieTemperature (.die 0) 256).wf = false ∧ (Instr.sbLinkStateChange 3).wf = false ∧
    (Instr.passStart 0 65536).wf = false ∧ (Instr.recoveryData 0 (2 ^ 32) [] []).wf = false := by decide +kernel

/-! ### The spec's worked examples -/

/-- R21's example: 3, -7, 0 and 5 as BI4 lie in bytes 0x93 and 0x50. -/
theorem test_bi4_packing : packElems 0 [3, -7, 0, 5] = [0x93, 0x50] := by decide +kernel
/-- R24's example: 2.5, -2.5, 1.5. -/
theorem test_half_to_even : rheDiv 5 2 = 2 ∧ rheDiv (-5) 2 = -2 ∧ rheDiv 3 2 = 2 := by decide +kernel

/-- The block of the BI8 example: 211/64, -13/256, 3/64, 5/64 and zeros. -/
def bi8Block : List A48 := [.val 211 (-6), .val (-13) (-8), .val 3 (-6), .val 5 (-6)] ++ List.replicate 28 .zero
theorem test_bi8_tight : (quantiseTight 1 bi8Block).1.ex = some (-5) ∧ (quantiseTight 1 bi8Block).1.els.take 4 = [106, -2, 2, 2] := by decide +kernel
/-- In HELD mode with HELD_EXP -6 the first value saturates, and the open need becomes -5. -/
theorem test_bi8_held : (quantElems 1 (-6) bi8Block) = ([127, -3, 3, 5] ++ List.replicate 28 0, 1) ∧ needExp 1 bi8Block = -5 := by decide +kernel
/-- The second block of that example: 255/2 needs exponent 1. -/
theorem test_bi8_rounds_past_the_limit : needExp 1 [.val 255 (-1)] = 1 := by decide +kernel

/-- The seam of "Matrix arrays": 1,000 at -10 and -7 at -6 give 55 at -6. -/
theorem test_seam : columnSum [.val 1000 (-10), .val (-7) (-6)] = .val 55 (-6) := by decide +kernel
/-- The frame worked through in "Frames, scheduling and the energy budget". -/
theorem test_budget : derateOf 95 105 97 = 55706 ∧ budgetOf 3300 700 2000 55706 113000 = 4307031 := by decide +kernel
/-- The sector traced in "Memory protection". -/
theorem test_sector_place : lbnOf 0x2A4001234500 = 0x2A40012345 ∧ pageOf 0x2A4001234500 = 0x1520009 ∧ sectorOf 0x2A4001234500 = 837 := by decide +kernel
/-- The power loss between FIELDED and RETURNED. -/
theorem test_life_cycle_word : lcState 0xFFFF = 3 ∧ lcState 0x00FF00000003FFFF = 3 ∧ lcIntent 0x00FF00000003FFFF = 4 ∧ lcState 0x00FF000000FFFFFF = 4 ∧ lcIntent 0x000300000000FFFF = 0 := by decide +kernel
/-- The byte located in two sets: offset 1,049,600 of slot 40 in sets of 32 and of 48 homes. -/
def homesOf (n : Nat) : Mem := { act.mem with homes := (List.range n).map (fun i => (i, { base := BitVec.ofNat 64 ((i + 1) * 2 ^ 48), bytes := 2 ^ 30 })), sets := [(0, { contribution := 2 ^ 30, homes := (List.range n).map (fun i => (i, 0)), slots := 100 })] }
theorem test_t2_locate : t2Locate (homesOf 32) 0 40 1049600 = 17 * 2 ^ 48 + 0x280400 ∧ t2Locate (homesOf 48) 0 40 1049600 = 1 * 2 ^ 48 + 0x1B0400 := by decide +kernel
/-- The announce followed over two hops: 692 arrives over a strait of 1,207 ns. -/
theorem test_announce_delay : announceDelay { ann with accDelay := 692 } (strait0 (fun x => { x with delay := 1207 })) = 1899 := by decide +kernel
/-- A step takes the front command and leaves the rest. -/
def isNext (o : Host.Outcome State Fault Refusal) (p : State → Bool) : Bool := match o with | .next t => p t | _ => false
theorem test_step : isNext (step { act with pending := [.tickMissed, .tickMissed] }) (fun t => decide (t.pending = [.tickMissed]) && t.tick.missed = 1) = true := by decide +kernel
theorem test_read_is_counted : isNext (exec (.read { clear with index := 0x1018 }) act) (fun t => t.dict.counters[2] = 1) = true := by decide +kernel

/-- R544: where the flash write of a persistent object fails, the WRITE ends INTERNAL and the old value stands. -/
theorem test_flash_failure : isNext (exec (.framePeriodWrite { op with flashFails := true } 1000) act) (fun t => t.tick.period = 2000 && (t.out.getLast? = some (.response 1 0 0 .internal false []))) = true := by decide +kernel
theorem test_flash_success : isNext (exec (.framePeriodWrite op 1000) act) (fun t => t.tick.period = 1000 && (t.out.getLast? = some (.response 1 0 0 .done false []))) = true := by decide +kernel

end Sys2Proof.Tests
end

section
/-!
Settles O3: the frame of each command. What a command answers comes from one of a few shapes (`need`, `heard`, `software`, `onStrait`, `directed`) around an operation whose groups Laws/Frames.lean gives; so each command needs only that `touches` lists those groups, and, where its meaning chooses, that each branch keeps to them.
A plain update of records keeps every other group by `rfl`.
-/

namespace Sys2Proof.Machine

/-- Every state that `o` answers differs from `s` in these groups at most, and not in the queue. -/
def Within (gs : List Group) (s : State) (o : Res) : Prop := ∀ t, o = .next t → OnlyTouches gs s t

/-- The list of a command is concrete, so whether a group stands in it is a computation. -/
theorem mem_touches {g : Group} {i : Instr} (h : decide (g ∈ touches i) = true) : g ∈ touches i := of_decide_eq_true h

/-! The shared shapes of the meanings. -/

section
variable {gs : List Group} {s t : State}

theorem next_within (h : OnlyTouches gs s t) : Within gs s (.next t) := fun _ e => by cases e; exact h
theorem fault_within {f : Fault} : Within gs s (.fault f) := fun _ e => by cases e
theorem need_within {b : Bool} (h : OnlyTouches gs s t) : Within gs s (need b t) := fun _ e => (need_next.mp e).2 ▸ h
theorem heard_within {b : Bool} (h : OnlyTouches gs s t) : Within gs s (heard b s t) := next_within (by cases b; exacts [.refl _ _, h])
theorem directed_within (h : OnlyTouches gs s t) (h_out : Group.out ∈ gs) : Within gs s (directed s t) :=
  heard_within (by split; exacts [h, State_emit_only (.refl _ _) h_out])
theorem answered_within {q : Req} {r : State × Status} (h : OnlyTouches gs s r.1) (h_out : Group.out ∈ gs) (h_dict : Group.dict ∈ gs) :
    Within gs s (software s (answer q r)) :=
  heard_within (answer_only h h_out h_dict)
theorem packet_within {p c o l k} {f : State → State} (hf : ∀ u, OnlyTouches gs s u → OnlyTouches gs s (f u))
    (h_out : Group.out ∈ gs) (h_parts : Group.parts ∈ gs) (h_fab : Group.fab ∈ gs) :
    Within gs s (onStrait p s (recvPkt p c o l k f s)) :=
  need_within (recvPkt_only hf (.refl _ _) h_out h_parts h_fab)

end

section
variable (s : State)

/-! ### Frames, slices and arrays -/

theorem execFrameTick_within (t : TickIn) : Within (touches (.frameTick t)) s (execFrameTick t s) := by
  apply need_within
  apply frameTick_only (.refl _ _) <;> exact mem_touches rfl
theorem execEnergyDueAdmit_within : Within (touches .energyDueAdmit) s (execEnergyDueAdmit s) := by
  unfold execEnergyDueAdmit
  split
  · apply next_within
    apply dueAdmit_only (.refl _ _) <;> exact mem_touches rfl
  · exact fault_within
theorem execSliceSplit_within (p : PartId) (r : RingId) (t : TickIn) : Within (touches (.sliceSplit p r t)) s (execSliceSplit p r t s) := by
  apply need_within
  apply abortRun_only (.refl _ _) <;> exact mem_touches rfl
theorem execSliceStartOnArray_within (a : ArrayId) : Within (touches (.sliceStartOnArray a)) s (execSliceStartOnArray a s) := by
  unfold execSliceStartOnArray
  split
  · apply need_within
    apply startList_only (.refl _ _) <;> exact mem_touches rfl
  · exact fault_within
theorem execPassStart_within (a : ArrayId) (e : Nat) : Within (touches (.passStart a e)) s (execPassStart a e s) := by
  unfold execPassStart
  repeat' split
  · apply need_within
    apply passStart_only (.refl _ _) <;> exact mem_touches rfl
  all_goals exact fault_within
theorem execStationaryTileLoad_within (a : ArrayId) (e : Nat) (waited : Nat) : Within (touches (.stationaryTileLoad a e waited)) s (execStationaryTileLoad a e waited s) := by
  unfold execStationaryTileLoad
  repeat' split
  · apply need_within
    apply loadTile_only (.refl _ _) <;> exact mem_touches rfl
  all_goals exact fault_within
theorem execTileLoadDone_within (a : ArrayId) : Within (touches (.tileLoadDone a)) s (execTileLoadDone a s) := by
  unfold execTileLoadDone
  repeat' split
  · apply need_within
    apply swapTile_only (.refl _ _) <;> exact mem_touches rfl
  all_goals exact fault_within
theorem execVectorOperandLoad_within (a : ArrayId) (e : Nat) (slot : Fin 4) (waited : Nat) : Within (touches (.vectorOperandLoad a e slot waited)) s (execVectorOperandLoad a e slot waited s) := by
  unfold execVectorOperandLoad
  repeat' split
  · apply need_within
    apply loadVector_only (.refl _ _) <;> exact mem_touches rfl
  all_goals exact fault_within
theorem execTableLoad_within (a : ArrayId) (e : Nat) (slot : Fin 4) (waited : Nat) : Within (touches (.tableLoad a e slot waited)) s (execTableLoad a e slot waited s) := by
  unfold execTableLoad
  repeat' split
  · apply need_within
    apply loadTable_only (.refl _ _) <;> exact mem_touches rfl
  all_goals exact fault_within
theorem execFoldHalfFill_within (a : ArrayId) (e : Nat) : Within (touches (.foldHalfFill a e)) s (execFoldHalfFill a e s) := by
  unfold execFoldHalfFill
  repeat' split
  · apply need_within
    apply fillFold_only (.refl _ _) <;> exact mem_touches rfl
  all_goals exact fault_within
theorem execDrainRow_within (a : ArrayId) (e : Nat) (bubbles stalls : Nat) (upset : Upset) : Within (touches (.drainRow a e bubbles stalls upset)) s (execDrainRow a e bubbles stalls upset s) := by
  unfold execDrainRow
  repeat' split
  · apply need_within
    apply drainOne_only (.refl _ _) <;> exact mem_touches rfl
  all_goals exact fault_within
theorem execChainStandaloneGroup_within (a : ArrayId) (e : Nat) (stalls : Nat) : Within (touches (.chainStandaloneGroup a e stalls)) s (execChainStandaloneGroup a e stalls s) := by
  unfold execChainStandaloneGroup
  repeat' split
  · apply need_within
    apply standaloneOne_only (.refl _ _) <;> exact mem_touches rfl
  all_goals exact fault_within
theorem execRowStatLand_within (a : ArrayId) : Within (touches (.rowStatLand a)) s (execRowStatLand a s) := by
  unfold execRowStatLand
  repeat' split
  · apply need_within
    apply landRow_only (.refl _ _) <;> exact mem_touches rfl
  all_goals exact fault_within
theorem execQuantBlockWrite_within (a : ArrayId) : Within (touches (.quantBlockWrite a)) s (execQuantBlockWrite a s) := by
  unfold execQuantBlockWrite
  split
  · apply need_within
    apply quantOne_only (.refl _ _) <;> exact mem_touches rfl
  · exact fault_within
theorem execSbTileWrite_within (a : ArrayId) : Within (touches (.sbTileWrite a)) s (execSbTileWrite a s) := by
  unfold execSbTileWrite
  split
  · apply need_within
    apply tileOne_only (.refl _ _) <;> exact mem_touches rfl
  · exact fault_within
theorem execColumnCheckDone_within (a : ArrayId) (e : Nat) : Within (touches (.columnCheckDone a e)) s (execColumnCheckDone a e s) := by
  unfold execColumnCheckDone
  split
  · apply need_within
    apply columnDone_only (.refl _ _) <;> exact mem_touches rfl
  · exact fault_within
theorem execDisputeRerunStart_within (a : ArrayId) : Within (touches (.disputeRerunStart a)) s (execDisputeRerunStart a s) := by
  unfold execDisputeRerunStart
  split
  · exact next_within (State_updArray_only (.refl _ _) (mem_touches rfl))
  · exact fault_within
theorem execDisputeDecide_within (a : ArrayId) (agreesOriginal agreesCheck : Bool) : Within (touches (.disputeDecide a agreesOriginal agreesCheck)) s (execDisputeDecide a agreesOriginal agreesCheck s) := by
  unfold execDisputeDecide
  split
  · apply need_within
    apply decideDispute_only (.refl _ _) <;> exact mem_touches rfl
  · exact fault_within
theorem execPassEnd_within (a : ArrayId) (e : Nat) : Within (touches (.passEnd a e)) s (execPassEnd a e s) := by
  unfold execPassEnd
  repeat' split
  · apply need_within
    apply endPass_only (.refl _ _) <;> exact mem_touches rfl
  all_goals exact fault_within
theorem execMoverStart_within (a : ArrayId) (e : Nat) : Within (touches (.moverStart a e)) s (execMoverStart a e s) :=
  need_within (updEntry_only (.refl _ _) (mem_touches rfl))
theorem execMoverComplete_within (a : ArrayId) (e : Nat) (faults : Faults) : Within (touches (.moverComplete a e faults)) s (execMoverComplete a e faults s) := by
  unfold execMoverComplete
  repeat' split
  · apply need_within
    apply moverEnd_only (.refl _ _) <;> exact mem_touches rfl
  all_goals exact fault_within
theorem execSliceComplete_within (p : PartId) (r : RingId) (cycles energy : Nat) : Within (touches (.sliceComplete p r cycles energy)) s (execSliceComplete p r cycles energy s) := by
  unfold execSliceComplete
  split
  · apply need_within
    apply completeRun_only (.refl _ _) <;> exact mem_touches rfl
  · exact fault_within

/-! ### The tick on the fabric, and the governor -/

theorem execTickAnnounce_within (n : Announce) : Within (touches (.tickAnnounce n)) s (execTickAnnounce n s) := by
  apply need_within
  apply announceIn_only (.refl _ _) <;> exact mem_touches rfl
theorem execTickProbe_within (k : StraitId) (t1 : Nat) : Within (touches (.tickProbe k t1)) s (execTickProbe k t1 s) :=
  need_within (State_emit_only (sendFlit_only (State_updStrait_only (.refl _ _) (mem_touches rfl)) (mem_touches rfl)) (mem_touches rfl))
theorem execTickProbeReply_within (k : StraitId) (t2 t3 t4 : Nat) : Within (touches (.tickProbeReply k t2 t3 t4)) s (execTickProbeReply k t2 t3 t4 s) := by
  unfold execTickProbeReply
  split
  · exact need_within (probeDone_only (.refl _ _) (mem_touches rfl))
  · exact fault_within
theorem execTickMissed_within : Within (touches .tickMissed) s (execTickMissed s) :=
  need_within rfl
theorem execTickSuccession_within (cands : List (Nat × Device)) : Within (touches (.tickSuccession cands)) s (execTickSuccession cands s) := by
  apply need_within
  split
  · exact becomeMaster_only (.refl _ _) (mem_touches rfl)
  · exact .refl _ _
theorem execTickSelfMaster_within : Within (touches .tickSelfMaster) s (execTickSelfMaster s) := by
  apply need_within
  apply selfMaster_only (.refl _ _) <;> exact mem_touches rfl
theorem execPeakGuardEngage_within (avg100us aboveMs : Nat) : Within (touches (.peakGuardEngage avg100us aboveMs)) s (execPeakGuardEngage avg100us aboveMs s) :=
  need_within rfl
theorem execPeakGuardRelease_within (us : Nat) (stalled : List (ArrayId × Nat)) : Within (touches (.peakGuardRelease us stalled)) s (execPeakGuardRelease us stalled s) :=
  need_within (releaseGuard_only (.refl _ _) (mem_touches rfl) (mem_touches rfl))
theorem execFramePeriodWrite_within (q : Req) (us : BitVec 32) : Within (touches (.framePeriodWrite q us)) s (execFramePeriodWrite q us s) :=
  answered_within (flashed_only (.refl _ _) (opFramePeriod_only (.refl _ _) (mem_touches rfl))) (mem_touches rfl) (mem_touches rfl)
theorem execRingEnableWrite_within (q : Req) (p : PartId) (r : RingId) (v : Byte) : Within (touches (.ringEnableWrite q p r v)) s (execRingEnableWrite q p r v s) :=
  answered_within (opRingEnable_only (.refl _ _) (mem_touches rfl)) (mem_touches rfl) (mem_touches rfl)

/-! ### Memory tiers -/

theorem execMap_within (q : Req) (p : PartId) : Within (touches (.map q p)) s (execMap q p s) := by
  apply answered_within
  · apply opMapOp_only (.refl _ _) <;> exact mem_touches rfl
  all_goals exact mem_touches rfl
theorem execUnmap_within (q : Req) (p : PartId) : Within (touches (.unmap q p)) s (execUnmap q p s) := by
  apply answered_within
  · apply opMapOp_only (.refl _ _) <;> exact mem_touches rfl
  all_goals exact mem_touches rfl
theorem execSetAttr_within (q : Req) (p : PartId) : Within (touches (.setAttr q p)) s (execSetAttr q p s) := by
  apply answered_within
  · apply opMapOp_only (.refl _ _) <;> exact mem_touches rfl
  all_goals exact mem_touches rfl
theorem execDiscard_within (q : Req) (p : PartId) : Within (touches (.discard q p)) s (execDiscard q p s) := by
  apply answered_within
  · apply opMapOp_only (.refl _ _) <;> exact mem_touches rfl
  all_goals exact mem_touches rfl
theorem execPtQuery_within (q : Req) (p : PartId) (va : BitVec 64) : Within (touches (.ptQuery q p va)) s (execPtQuery q p va s) :=
  answered_within (opPtQuery_only (.refl _ _) (mem_touches rfl)) (mem_touches rfl) (mem_touches rfl)
theorem execRgnQuery_within (q : Req) (p : PartId) (va : BitVec 64) : Within (touches (.rgnQuery q p va)) s (execRgnQuery q p va s) :=
  answered_within (opRgnQuery_only (.refl _ _) (mem_touches rfl)) (mem_touches rfl) (mem_touches rfl)
theorem execPoolHomeAccess_within (q : Req) (value : Option Bytes) : Within (touches (.poolHomeAccess q value)) s (execPoolHomeAccess q value s) := by
  apply heard_within
  split
  · exact answer_only (flashed_only (.refl _ _) (opPoolHome_only (.refl _ _) (mem_touches rfl))) (mem_touches rfl) (mem_touches rfl)
  · refine answerData_only ?_ (mem_touches rfl) (mem_touches rfl)
    split <;> exact .refl _ _
theorem execWindowGranuleMove_within (p : PartId) (granule : Nat) : Within (touches (.windowGranuleMove p granule)) s (execWindowGranuleMove p granule s) :=
  need_within rfl
theorem execMigrationSectorCopy_within (p : PartId) (page : Nat) : Within (touches (.migrationSectorCopy p page)) s (execMigrationSectorCopy p page s) := by
  apply need_within
  apply State_putWrites_only (.refl _ _) <;> exact mem_touches rfl
theorem execGatheringFetchStart_within : Within (touches .gatheringFetchStart) s (execGatheringFetchStart s) :=
  need_within rfl
theorem execFetchSector_within (p : PartId) (e b : Nat) (read replica : Delivered) : Within (touches (.fetchSector p e b read replica)) s (execFetchSector p e b read replica s) := by
  unfold execFetchSector
  split
  · apply need_within
    apply fetchOne_only (.refl _ _) <;> exact mem_touches rfl
  · exact fault_within

/-! ### Straits -/

theorem execStraitTrainDone_within (k : StraitId) (r : TrainResult) : Within (touches (.straitTrainDone k r)) s (execStraitTrainDone k r s) := by
  apply need_within
  split
  · split
    · exact enterHandshake_only (.refl _ _) (mem_touches rfl) (mem_touches rfl) (mem_touches rfl)
    · exact trainFail_only (.refl _ _) (mem_touches rfl)
  · exact trainFail_only (.refl _ _) (mem_touches rfl)
theorem execStraitRetrainTimer_within (k : StraitId) : Within (touches (.straitRetrainTimer k)) s (execStraitRetrainTimer k s) :=
  need_within (beginTraining_only (.refl _ _) (mem_touches rfl))
theorem execTrain_within (q : Req) (k : StraitId) (v : Byte) : Within (touches (.train q k v)) s (execTrain q k v s) :=
  answered_within (opTrain_only (.refl _ _) (mem_touches rfl)) (mem_touches rfl) (mem_touches rfl)
theorem execStraitModeWrite_within (q : Req) (k : StraitId) (v : Byte) : Within (touches (.straitModeWrite q k v)) s (execStraitModeWrite q k v s) :=
  answered_within (flashed_only (.refl _ _) (opStraitMode_only (.refl _ _) (mem_touches rfl))) (mem_touches rfl) (mem_touches rfl)
theorem execFlitReceive_within (k : StraitId) (f : Flit) : Within (touches (.flitReceive k f)) s (execFlitReceive k f s) :=
  need_within (flitIn_only (.refl _ _) (mem_touches rfl) (mem_touches rfl))
theorem execNakReceive_within (k : StraitId) (ack : BitVec 12) : Within (touches (.nakReceive k ack)) s (execNakReceive k ack s) :=
  need_within (nakIn_only (.refl _ _) (mem_touches rfl) (mem_touches rfl))
theorem execLaneSwap_within (k : StraitId) (lane : Fin 9) (index : Nat) : Within (touches (.laneSwap k lane index)) s (execLaneSwap k lane index s) :=
  need_within rfl
theorem execLaneRetrainNarrow_within (k : StraitId) (lane : Fin 9) : Within (touches (.laneRetrainNarrow k lane)) s (execLaneRetrainNarrow k lane s) := by
  apply need_within
  dsimp only
  split
  · exact goDown_only rfl (mem_touches rfl)
  · exact beginTraining_only (goDown_only rfl (mem_touches rfl)) (mem_touches rfl)
theorem execStraitDown_within (k : StraitId) (c : DownCause) : Within (touches (.straitDown k c)) s (execStraitDown k c s) :=
  need_within (goDown_only (.refl _ _) (mem_touches rfl))
theorem execHopKeyNextGeneration_within (k : StraitId) (tx : Bool) (index : Nat) : Within (touches (.hopKeyNextGeneration k tx index)) s (execHopKeyNextGeneration k tx index s) :=
  need_within (switchHopKey_only (.refl _ _) (mem_touches rfl) (mem_touches rfl) (mem_touches rfl))
theorem execCausewayUnitReceive_within (c : Fin 8) (a b : DieId) (unit : CswUnit) : Within (touches (.causewayUnitReceive c a b unit)) s (execCausewayUnitReceive c a b unit s) := by
  unfold execCausewayUnitReceive
  split
  · exact need_within (cswUnitIn_only (.refl _ _) (mem_touches rfl) (mem_touches rfl))
  · exact fault_within
theorem execCausewayFail_within (c : Fin 8) : Within (touches (.causewayFail c)) s (execCausewayFail c s) := by
  refine need_within (foldl_only (fun u d hu => ?_) rfl)
  split
  · exact loseDie_only hu (mem_touches rfl) (mem_touches rfl)
  · exact hu

/-! ### Flows and packets -/

theorem execFlowOpen_within (owner : Nat) (peer : Device) (peerFlow : Nat) (classes : List Nat) (session : Option SessIx) : Within (touches (.flowOpen owner peer peerFlow classes session)) s (execFlowOpen owner peer peerFlow classes session s) := by
  have opened : OnlyTouches (touches (.flowOpen owner peer peerFlow classes session)) s (openFlow owner peer peerFlow classes session s).1 := by
    apply openFlow_only (.refl _ _) <;> exact mem_touches rfl
  apply need_within
  dsimp only
  split
  · split
    · exact opened
    · apply State_putVM_only opened <;> exact mem_touches rfl
  · exact opened
theorem execFlowQuery_within (q : Req) (id : BitVec 32) : Within (touches (.flowQuery q id)) s (execFlowQuery q id s) :=
  answered_within (opFlowQuery_only (.refl _ _) (mem_touches rfl)) (mem_touches rfl) (mem_touches rfl)
theorem execRouteEntryAccess_within (q : Req) (value : Option (BitVec 32)) : Within (touches (.routeEntryAccess q value)) s (execRouteEntryAccess q value s) := by
  apply heard_within
  split
  · exact answer_only (flashed_only (.refl _ _) (opRouteEntry_only (.refl _ _) (mem_touches rfl))) (mem_touches rfl) (mem_touches rfl)
  · refine answerData_only ?_ (mem_touches rfl) (mem_touches rfl)
    split <;> exact .refl _ _
theorem execPureAckReceive_within (p : Pkt) (cls : Nat) : Within (touches (.pureAckReceive p cls)) s (execPureAckReceive p cls s) :=
  need_within (takePureAck_only (.refl _ _) (mem_touches rfl) (mem_touches rfl) (mem_touches rfl))
theorem execFlowRetryTimeout_within (f : Nat) : Within (touches (.flowRetryTimeout f)) s (execFlowRetryTimeout f s) := by
  apply need_within
  split
  · apply retryFlow_only (.refl _ _) <;> exact mem_touches rfl
  · exact .refl _ _
theorem execFlowIntegrityLost_within (f : Nat) : Within (touches (.flowIntegrityLost f)) s (execFlowIntegrityLost f s) := by
  apply need_within
  split
  · apply State_putVM_only
    · apply loseFlow_only (.refl _ _) <;> exact mem_touches rfl
    all_goals exact mem_touches rfl
  · exact .refl _ _
theorem execFlowKeygenAdvance_within (f : Nat) : Within (touches (.flowKeygenAdvance f)) s (execFlowKeygenAdvance f s) := by
  apply need_within
  split
  · exact setFlow_only (nextFlowKey_only (nextFlowKey_only (.refl _ _) (mem_touches rfl) (mem_touches rfl)) (mem_touches rfl) (mem_touches rfl)) (mem_touches rfl)
  · exact .refl _ _
theorem execPairKeyExpire_within (peer : Device) : Within (touches (.pairKeyExpire peer)) s (execPairKeyExpire peer s) :=
  need_within rfl
theorem execMemrdRequest_within (p : Pkt) (g : Target) (r : HomeRead) (tag : Byte) : Within (touches (.memrdRequest p g r tag)) s (execMemrdRequest p g r tag s) := by
  apply packet_within
  · intro _ h
    apply serveTarget_only h <;> exact mem_touches rfl
  all_goals exact mem_touches rfl
theorem execMemrdData_within (p : Pkt) (st tag : Byte) (data : List StoredSector) : Within (touches (.memrdData p st tag data)) s (execMemrdData p st tag data s) := by
  apply packet_within
  · intro _ h
    apply takeData_only h <;> exact mem_touches rfl
  all_goals exact mem_touches rfl
theorem execMemrdError_within (p : Pkt) (st tag : Byte) : Within (touches (.memrdError p st tag)) s (execMemrdError p st tag s) := by
  apply packet_within
  · intro _ h
    apply takeError_only h <;> exact mem_touches rfl
  all_goals exact mem_touches rfl
theorem execMemwr_within (p : Pkt) (g : Target) (tag : Byte) (data : List StoredSector) : Within (touches (.memwr p g tag data)) s (execMemwr p g tag data s) := by
  apply packet_within
  · intro _ h
    apply takeWrite_only h <;> exact mem_touches rfl
  all_goals exact mem_touches rfl
theorem execAtomicSectorCas_within (p : Pkt) (g : GAddr) (tag : Byte) (expected : BitVec 64) (new : StoredSector) : Within (touches (.atomicSectorCas p g tag expected new)) s (execAtomicSectorCas p g tag expected new s) :=
  packet_within (fun _ h => casSector_only h (mem_touches rfl) (mem_touches rfl) (mem_touches rfl)) (mem_touches rfl) (mem_touches rfl) (mem_touches rfl)
theorem execAtomicResult_within (p : Pkt) (st tag : Byte) (_stored : StoredSector) : Within (touches (.atomicResult p st tag _stored)) s (execAtomicResult p st tag _stored s) := by
  apply packet_within
  · intro _ h
    apply takeCas_only h <;> exact mem_touches rfl
  all_goals exact mem_touches rfl
theorem execWakePacket_within (p : Pkt) (target : Device) : Within (touches (.wakePacket p target)) s (execWakePacket p target s) := by
  refine packet_within (fun u hu => ?_) (mem_touches rfl) (mem_touches rfl) (mem_touches rfl)
  split
  · exact hu.trans rfl
  · apply wakeDevice_only hu <;> exact mem_touches rfl
theorem execHello_within (h : Handshake) : Within (touches (.hello h)) s (execHello h s) := by
  apply need_within
  apply helloIn_only (.refl _ _) <;> exact mem_touches rfl
theorem execReply_within (h : Handshake) : Within (touches (.reply h)) s (execReply h s) := by
  apply need_within
  apply replyIn_only (.refl _ _) <;> exact mem_touches rfl
theorem execFinish_within (h : Handshake) : Within (touches (.finish h)) s (execFinish h s) := by
  apply need_within
  apply finishIn_only (.refl _ _) <;> exact mem_touches rfl

/-! ### The host and the ferry -/

theorem execHostConfigRequest_within (k : StraitId) (r : HostReq) : Within (touches (.hostConfigRequest k r)) s (execHostConfigRequest k r s) :=
  need_within (hostConfig_only (.refl _ _) (mem_touches rfl) (mem_touches rfl))
theorem execHostRead_within (k : HostLink) (off len : Nat) : Within (touches (.hostRead k off len)) s (execHostRead k off len s) := by
  apply need_within
  apply hostReadOp_only (.refl _ _) <;> exact mem_touches rfl
theorem execHostWrite_within (k : HostLink) (off : Nat) (data : Bytes) : Within (touches (.hostWrite k off data)) s (execHostWrite k off data s) := by
  apply need_within
  apply hostWriteOp_only (.refl _ _) <;> exact mem_touches rfl
theorem execAptEntryWrite_within (q : Req) (w : BitVec 128) : Within (touches (.aptEntryWrite q w)) s (execAptEntryWrite q w s) :=
  answered_within (flashed_only (.refl _ _) (opAptEntry_only (.refl _ _) (mem_touches rfl))) (mem_touches rfl) (mem_touches rfl)
theorem execMailboxGo_within (k : StraitId) (slot : Fin 16) (op : Byte) (m : MailRequest) : Within (touches (.mailboxGo k slot op m)) s (execMailboxGo k slot op m s) := by
  apply need_within
  split
  · apply mailGo_only (.refl _ _) <;> exact mem_touches rfl
  · exact State_emit_only (.refl _ _) (mem_touches rfl)

/-! ### The Bindery -/

theorem execSessionOpOpen_within (q : Req) (i : SessIx) : Within (touches (.sessionOpOpen q i)) s (execSessionOpOpen q i s) := by
  apply answered_within
  · apply opSessionOpen_only (.refl _ _) <;> exact mem_touches rfl
  all_goals exact mem_touches rfl
theorem execSessionDigestMatch_within (i : SessIx) (answers : List (Nat × BitVec 512)) : Within (touches (.sessionDigestMatch i answers)) s (execSessionDigestMatch i answers s) := by
  apply need_within
  apply digestIn_only (.refl _ _) <;> exact mem_touches rfl
theorem execSessionOpClose_within (q : Req) (i : SessIx) : Within (touches (.sessionOpClose q i)) s (execSessionOpClose q i s) := by
  apply answered_within
  · apply opSessionClose_only (.refl _ _) <;> exact mem_touches rfl
  all_goals exact mem_touches rfl
theorem execCloseLayer_within (q : Req) (i : SessIx) (w : BitVec 64) : Within (touches (.closeLayer q i w)) s (execCloseLayer q i w s) := by
  apply answered_within
  · apply opCloseLayer_only (.refl _ _) <;> exact mem_touches rfl
  all_goals exact mem_touches rfl
theorem execWithhold_within (q : Req) (i : SessIx) (w : BitVec 64) : Within (touches (.withhold q i w)) s (execWithhold q i w s) := by
  apply answered_within
  · apply opWithhold_only (.refl _ _) <;> exact mem_touches rfl
  all_goals exact mem_touches rfl
theorem execContribData_within (p : Pkt) (m : ContribMsg) : Within (touches (.contribData p m)) s (execContribData p m s) := by
  apply packet_within
  · intro _ h
    apply contribIn_only h <;> exact mem_touches rfl
  all_goals exact mem_touches rfl
theorem execFoldWindowExpire_within (i : SessIx) (l v b : Nat) : Within (touches (.foldWindowExpire i l v b)) s (execFoldWindowExpire i l v b s) :=
  need_within (windowFalls_only (.refl _ _) (mem_touches rfl) (mem_touches rfl) (mem_touches rfl))
theorem execContribRoll_within (p : Pkt) (i : SessIx) (l v : Nat) (ranks : List Nat) : Within (touches (.contribRoll p i l v ranks)) s (execContribRoll p i l v ranks s) := by
  apply packet_within
  · intro _ h
    apply rollIn_only h <;> exact mem_touches rfl
  all_goals exact mem_touches rfl
theorem execContribAbsent_within (p : Pkt) (i : SessIx) (l v : Nat) (whole : Bool) : Within (touches (.contribAbsent p i l v whole)) s (execContribAbsent p i l v whole s) := by
  apply packet_within
  · intro _ h
    apply absentIn_only h <;> exact mem_touches rfl
  all_goals exact mem_touches rfl
theorem execContribRecover_within (p : Pkt) (i : SessIx) (l v : Nat) : Within (touches (.contribRecover p i l v)) s (execContribRecover p i l v s) :=
  packet_within (fun _ h => recoverIn_only h (mem_touches rfl) (mem_touches rfl) (mem_touches rfl)) (mem_touches rfl) (mem_touches rfl) (mem_touches rfl)
theorem execOwnerDeadline_within (i : SessIx) (l v : Nat) : Within (touches (.ownerDeadline i l v)) s (execOwnerDeadline i l v s) := by
  apply need_within
  apply deadlineFalls_only (.refl _ _) <;> exact mem_touches rfl
theorem execParamData_within (p : Pkt) (m : ChunkMsg) : Within (touches (.paramData p m)) s (execParamData p m s) := by
  apply packet_within
  · intro _ h
    apply paramIn_only h <;> exact mem_touches rfl
  all_goals exact mem_touches rfl
theorem execVersionPublish_within (i : SessIx) (l v : Nat) : Within (touches (.versionPublish i l v)) s (execVersionPublish i l v s) := by
  apply need_within
  apply publishLocal_only (.refl _ _) <;> exact mem_touches rfl
theorem execParamResendRequest_within (p : Pkt) (i : SessIx) (l v : Nat) : Within (touches (.paramResendRequest p i l v)) s (execParamResendRequest p i l v s) := by
  apply packet_within
  · intro _ h
    apply resendIn_only h <;> exact mem_touches rfl
  all_goals exact mem_touches rfl
theorem execParamResendTimeout_within (i : SessIx) (l v : Nat) : Within (touches (.paramResendTimeout i l v)) s (execParamResendTimeout i l v s) := by
  apply need_within
  apply requestResend_only (.refl _ _) <;> exact mem_touches rfl
theorem execTipinData_within (p : Pkt) (m : ChunkMsg) : Within (touches (.tipinData p m)) s (execTipinData p m s) := by
  apply packet_within
  · intro _ h
    apply tipinIn_only h <;> exact mem_touches rfl
  all_goals exact mem_touches rfl

/-! ### Elastic training -/

theorem execSessionHeartbeat_within (i : SessIx) (peer : Nat) : Within (touches (.sessionHeartbeat i peer)) s (execSessionHeartbeat i peer s) :=
  need_within (heartbeat_only (.refl _ _) (mem_touches rfl) (mem_touches rfl))
theorem execRankSilence_within (i : SessIx) (rank : Nat) : Within (touches (.rankSilence i rank)) s (execRankSilence i rank s) :=
  need_within (silence_only (.refl _ _) (mem_touches rfl))
theorem execRoster_within (p : Pkt) (m : RosterMsg) : Within (touches (.roster p m)) s (execRoster p m s) := by
  apply packet_within
  · intro _ h
    apply rosterIn_only h <;> exact mem_touches rfl
  all_goals exact mem_touches rfl
theorem execRosterQuorumHold_within (i : SessIx) : Within (touches (.rosterQuorumHold i)) s (execRosterQuorumHold i s) :=
  need_within (declare_only (.refl _ _) (mem_touches rfl) (mem_touches rfl) (mem_touches rfl))
theorem execDepartRequest_within (p : Pkt) (m : RosterMsg) : Within (touches (.departRequest p m)) s (execDepartRequest p m s) :=
  packet_within (fun _ h => departIn_only h (mem_touches rfl)) (mem_touches rfl) (mem_touches rfl) (mem_touches rfl)
theorem execRestoreFailed_within (p : Pkt) (m : RosterMsg) : Within (touches (.restoreFailed p m)) s (execRestoreFailed p m s) :=
  packet_within (fun _ h => failedIn_only h (mem_touches rfl)) (mem_touches rfl) (mem_touches rfl) (mem_touches rfl)
theorem execKeeperTimeout_within (i : SessIx) (l : Nat) : Within (touches (.keeperTimeout i l)) s (execKeeperTimeout i l s) :=
  need_within (passKeeper_only (.refl _ _) (mem_touches rfl) (mem_touches rfl) (mem_touches rfl))
theorem execDepartAtFrameSet_within (q : Req) (i : SessIx) (f : BitVec 64) : Within (touches (.departAtFrameSet q i f)) s (execDepartAtFrameSet q i f s) :=
  answered_within (opDepartAt_only (.refl _ _) (mem_touches rfl)) (mem_touches rfl) (mem_touches rfl)
theorem execDepartWithdraw_within (q : Req) (i : SessIx) : Within (touches (.departWithdraw q i)) s (execDepartWithdraw q i s) :=
  answered_within (opDepartWithdraw_only (.refl _ _) (mem_touches rfl)) (mem_touches rfl) (mem_touches rfl)
theorem execDepartDeadline_within (i : SessIx) (rank : Nat) : Within (touches (.departDeadline i rank)) s (execDepartDeadline i rank s) :=
  need_within (departOverdue_only (.refl _ _) (mem_touches rfl))
theorem execOwnerQuery_within (q : Req) (i : SessIx) (l : BitVec 16) : Within (touches (.ownerQuery q i l)) s (execOwnerQuery q i l s) :=
  answered_within (opOwnerQuery_only (.refl _ _) (mem_touches rfl)) (mem_touches rfl) (mem_touches rfl)

/-! ### Memory protection -/

theorem execSectorRead_within (p : PartId) (va : BitVec 56) (d : Delivered) : Within (touches (.sectorRead p va d)) s (execSectorRead p va d s) := by
  apply need_within
  apply readOp_only (.refl _ _) <;> exact mem_touches rfl
theorem execSectorWrite_within (p : PartId) (va : BitVec 56) (x : Sector) : Within (touches (.sectorWrite p va x)) s (execSectorWrite p va x s) := by
  apply need_within
  apply writeOp_only (.refl _ _) <;> exact mem_touches rfl
theorem execSectorPartialWrite_within (p : PartId) (va : BitVec 56) (b : Bytes) (d : Delivered) : Within (touches (.sectorPartialWrite p va b d)) s (execSectorPartialWrite p va b d s) := by
  apply need_within
  apply writeOp_only (.refl _ _) <;> exact mem_touches rfl
theorem execRekeySector_within (p : PartId) (page : Nat) (d : Delivered) : Within (touches (.rekeySector p page d)) s (execRekeySector p page d s) := by
  apply need_within
  apply State_putWrites_only (.refl _ _) <;> exact mem_touches rfl
theorem execRegionSteady_within (p : PartId) (page : Nat) : Within (touches (.regionSteady p page)) s (execRegionSteady p page s) := by
  apply need_within
  apply State_putVM_only (.refl _ _) <;> exact mem_touches rfl
theorem execRotationComplete_within (p : PartId) : Within (touches (.rotationComplete p)) s (execRotationComplete p s) :=
  need_within (finishRotation_only (.refl _ _) (mem_touches rfl) (mem_touches rfl))
theorem execHbmRowRepair_within (k : StackId) (row : Nat) (left : Bool) : Within (touches (.hbmRowRepair k row left)) s (execHbmRowRepair k row left s) :=
  need_within (hbmRepair_only (.refl _ _) (mem_touches rfl) (mem_touches rfl))
theorem execWindowEccError_within (p : PartId) (off bank : Nat) (dbl : Bool) : Within (touches (.windowEccError p off bank dbl)) s (execWindowEccError p off bank dbl s) := by
  apply need_within
  apply windowEcc_only (.refl _ _) <;> exact mem_touches rfl
theorem execAlertAck_within (q : Req) (seq : BitVec 64) : Within (touches (.alertAck q seq)) s (execAlertAck q seq s) :=
  answered_within (opAlertAck_only (.refl _ _) (mem_touches rfl)) (mem_touches rfl) (mem_touches rfl)

/-! ### Partitions, keys, attestation -/

theorem execQuotaWrite_within (q : Req) (p : PartId) (sub : Byte) (v : Bytes) : Within (touches (.quotaWrite q p sub v)) s (execQuotaWrite q p sub v s) :=
  answered_within (opQuota_only (.refl _ _) (mem_touches rfl)) (mem_touches rfl) (mem_touches rfl)
theorem execCreate_within (q : Req) (p : PartId) : Within (touches (.create q p)) s (execCreate q p s) :=
  answered_within (opCreate_only (.refl _ _) (mem_touches rfl)) (mem_touches rfl) (mem_touches rfl)
theorem execRemove_within (q : Req) (p : PartId) : Within (touches (.remove q p)) s (execRemove q p s) := by
  apply answered_within
  · apply opRemove_only (.refl _ _) <;> exact mem_touches rfl
  all_goals exact mem_touches rfl
theorem execRemovalComplete_within (p : PartId) : Within (touches (.removalComplete p)) s (execRemovalComplete p s) := by
  apply need_within
  apply finishRemoval_only (.refl _ _) <;> exact mem_touches rfl
theorem execPartitionKey_within (q : Req) (b : Bytes) : Within (touches (.partitionKey q b)) s (execPartitionKey q b s) := by
  unfold execPartitionKey
  split
  · apply answered_within
    · apply opKeyImport_only (.refl _ _) <;> exact mem_touches rfl
    all_goals exact mem_touches rfl
  · exact fault_within
theorem execRotate_within (q : Req) (b : Bytes) : Within (touches (.rotate q b)) s (execRotate q b s) := by
  unfold execRotate
  split
  · apply answered_within
    · apply opKeyImport_only (.refl _ _) <;> exact mem_touches rfl
    all_goals exact mem_touches rfl
  · exact fault_within
theorem execJointKey_within (q : Req) (b : Bytes) : Within (touches (.jointKey q b)) s (execJointKey q b s) := by
  unfold execJointKey
  split
  · apply answered_within
    · apply opKeyImport_only (.refl _ _) <;> exact mem_touches rfl
    all_goals exact mem_touches rfl
  · exact fault_within
theorem execHostGrantWrite_within (q : Req) (p : PartId) (v : Byte) : Within (touches (.hostGrantWrite q p v)) s (execHostGrantWrite q p v s) :=
  answered_within (opHostGrant_only (.refl _ _) (mem_touches rfl)) (mem_touches rfl) (mem_touches rfl)
theorem execSlotQuery_within (q : Req) (id : BitVec 16) : Within (touches (.slotQuery q id)) s (execSlotQuery q id s) :=
  answered_within (opSlotQuery_only (.refl _ _) (mem_touches rfl)) (mem_touches rfl) (mem_touches rfl)
theorem execSign_within (q : Req) : Within (touches (.sign q)) s (execSign q s) :=
  answered_within (opSign_only (.refl _ _) (mem_touches rfl)) (mem_touches rfl) (mem_touches rfl)
theorem execLoadCert_within (q : Req) : Within (touches (.loadCert q)) s (execLoadCert q s) :=
  answered_within (opLoadCert_only (.refl _ _) (mem_touches rfl)) (mem_touches rfl) (mem_touches rfl)

/-! ### Life cycle and debug -/

theorem execNewNonce_within (q : Req) : Within (touches (.newNonce q)) s (execNewNonce q s) :=
  answered_within (opNewNonce_only (.refl _ _) (mem_touches rfl) (mem_touches rfl)) (mem_touches rfl) (mem_touches rfl)
theorem execTransition_within (q : Req) : Within (touches (.transition q)) s (execTransition q s) :=
  answered_within (opTransition_only (.refl _ _) (mem_touches rfl) (mem_touches rfl) (mem_touches rfl)) (mem_touches rfl) (mem_touches rfl)
theorem execTransitionProgrammed_within : Within (touches .transitionProgrammed) s (execTransitionProgrammed s) := by
  unfold execTransitionProgrammed
  split
  · exact need_within (programmed_only (.refl _ _) (mem_touches rfl))
  · exact fault_within
theorem execLhSealRequest_within (b : Bytes) : Within (touches (.lhSealRequest b)) s (execLhSealRequest b s) :=
  need_within (sealBy_only (.refl _ _) (mem_touches rfl))
theorem execCertWrite_within (q : Req) (b : Bytes) : Within (touches (.certWrite q b)) s (execCertWrite q b s) :=
  answered_within (opCertWrite_only (.refl _ _) (mem_touches rfl)) (mem_touches rfl) (mem_touches rfl)
theorem execOperatorKeyEnrol_within (q : Req) (d : BitVec 512) : Within (touches (.operatorKeyEnrol q d)) s (execOperatorKeyEnrol q d s) :=
  answered_within (opEnrol_only (.refl _ _) (mem_touches rfl) (mem_touches rfl)) (mem_touches rfl) (mem_touches rfl)
theorem execChallenge_within (q : Req) : Within (touches (.challenge q)) s (execChallenge q s) :=
  answered_within (opChallenge_only (.refl _ _) (mem_touches rfl) (mem_touches rfl) (mem_touches rfl)) (mem_touches rfl) (mem_touches rfl)
theorem execDebugOpen_within (q : Req) : Within (touches (.debugOpen q)) s (execDebugOpen q s) := by
  apply answered_within
  · apply opDebugOpen_only (.refl _ _) <;> exact mem_touches rfl
  all_goals exact mem_touches rfl

/-! ### Repair -/

theorem execLibBegin_within (q : Req) : Within (touches (.libBegin q)) s (execLibBegin q s) :=
  answered_within (opLibBegin_only (.refl _ _) (mem_touches rfl)) (mem_touches rfl) (mem_touches rfl)
theorem execLibCommit_within (q : Req) : Within (touches (.libCommit q)) s (execLibCommit q s) :=
  answered_within (opLibCommit_only (.refl _ _) (mem_touches rfl)) (mem_touches rfl) (mem_touches rfl)
theorem execLibChunk_within (q : Req) (d : Bytes) : Within (touches (.libChunk q d)) s (execLibChunk q d s) :=
  answered_within (opLibChunk_only (.refl _ _) (mem_touches rfl)) (mem_touches rfl) (mem_touches rfl)
theorem execTestComplete_within (u : BitVec 16) (r : TestResult) : Within (touches (.testComplete u r)) s (execTestComplete u r s) := by
  apply need_within
  split
  · split
    · exact rfl
    · exact checkerFailed_only (.refl _ _) (mem_touches rfl) (mem_touches rfl)
  · exact testDone_only (.refl _ _) (mem_touches rfl) (mem_touches rfl)
theorem execTestDeferLimit_within (u : BitVec 16) : Within (touches (.testDeferLimit u)) s (execTestDeferLimit u s) :=
  need_within rfl
theorem execUnitRetire_within (u : BitVec 16) : Within (touches (.unitRetire u)) s (execUnitRetire u s) := by
  apply need_within
  apply retireUnit_only (.refl _ _) <;> exact mem_touches rfl
theorem execSuspectClear_within (u : BitVec 16) : Within (touches (.suspectClear u)) s (execSuspectClear u s) :=
  need_within rfl
theorem execUnitQuery_within (q : Req) (u : BitVec 16) : Within (touches (.unitQuery q u)) s (execUnitQuery q u s) :=
  answered_within (opUnitQuery_only (.refl _ _) (mem_touches rfl)) (mem_touches rfl) (mem_touches rfl)
theorem execHistQuery_within (q : Req) (i : BitVec 32) : Within (touches (.histQuery q i)) s (execHistQuery q i s) :=
  answered_within (opHistQuery_only (.refl _ _) (mem_touches rfl)) (mem_touches rfl) (mem_touches rfl)
theorem execAuditQuery_within (q : Req) (n : BitVec 64) : Within (touches (.auditQuery q n)) s (execAuditQuery q n s) :=
  answered_within (opAuditQuery_only (.refl _ _) (mem_touches rfl)) (mem_touches rfl) (mem_touches rfl)

/-! ### The Lighthouse -/

theorem execAdcSample_within (uj : Nat) : Within (touches (.adcSample uj)) s (execAdcSample uj s) :=
  need_within rfl
theorem execOccupancyWord_within (die : Fin 4) (seq : Byte) (entries : List Byte) : Within (touches (.occupancyWord die seq entries)) s (execOccupancyWord die seq entries s) :=
  need_within rfl
theorem execStrobeOverdue_within (lengthUs : Nat) : Within (touches (.strobeOverdue lengthUs)) s (execStrobeOverdue lengthUs s) :=
  need_within (overdue_only (.refl _ _) (mem_touches rfl) (mem_touches rfl) (mem_touches rfl))
theorem execSelfTimedClose_within : Within (touches .selfTimedClose) s (execSelfTimedClose s) :=
  need_within (selfTimed_only (.refl _ _) (mem_touches rfl) (mem_touches rfl) (mem_touches rfl))
theorem execMinuteClose_within : Within (touches .minuteClose) s (execMinuteClose s) :=
  need_within rfl
theorem execLhPowerLoss_within (lengthUs : Nat) : Within (touches (.lhPowerLoss lengthUs)) s (execLhPowerLoss lengthUs s) :=
  need_within (lhDown_only (.refl _ _) (mem_touches rfl) (mem_touches rfl) (mem_touches rfl))
theorem execLhPowerOn_within : Within (touches .lhPowerOn) s (execLhPowerOn s) :=
  need_within (lhUp_only (.refl _ _) (mem_touches rfl) (mem_touches rfl))
theorem execCalibrationChange_within (c : Calibration) : Within (touches (.calibrationChange c)) s (execCalibrationChange c s) :=
  need_within (calibrate_only (.refl _ _) (mem_touches rfl) (mem_touches rfl))
theorem execLhReadRequest_within (r : LhRead) : Within (touches (.lhReadRequest r)) s (execLhReadRequest r s) :=
  need_within rfl
theorem execLhQuery_within (q : Req) (k : LhQueryKind) (v : BitVec 64) : Within (touches (.lhQuery q k v)) s (execLhQuery q k v s) :=
  answered_within (opLhQuery_only (.refl _ _) (mem_touches rfl)) (mem_touches rfl) (mem_touches rfl)
theorem execLighthouseSilent_within : Within (touches .lighthouseSilent) s (execLighthouseSilent s) := by
  apply need_within
  apply lhSilent_only (.refl _ _) <;> exact mem_touches rfl

/-! ### The object dictionary -/

theorem execRead_within (m : DictMsg) : Within (touches (.read m)) s (execRead m s) := by
  unfold execRead
  split
  · exact next_within (lhRead_only (.refl _ _) (mem_touches rfl) (mem_touches rfl))
  · exact heard_within (message_only (fun _ h => doRead_only h (mem_touches rfl)) (.refl _ _) (mem_touches rfl) (mem_touches rfl))
theorem execWrite_within (m : DictMsg) : Within (touches (.write m)) s (execWrite m s) := by
  unfold execWrite
  split
  · exact next_within (lhWrite_only (.refl _ _) (mem_touches rfl) (mem_touches rfl) (mem_touches rfl))
  · refine heard_within (message_only (fun _ h => ?_) (.refl _ _) (mem_touches rfl) (mem_touches rfl))
    apply doWrite_only h <;> exact mem_touches rfl
theorem execReadBlock_within (m : DictMsg) : Within (touches (.readBlock m)) s (execReadBlock m s) :=
  heard_within (message_only (fun _ h => doReadBlock_only h (mem_touches rfl)) (.refl _ _) (mem_touches rfl) (mem_touches rfl))
theorem execOpen1_within (m : DictMsg) : Within (touches (.open1 m)) s (execOpen1 m s) :=
  heard_within (message_only (fun _ h => doOpen1_only h (mem_touches rfl) (mem_touches rfl) (mem_touches rfl)) (.refl _ _) (mem_touches rfl) (mem_touches rfl))
theorem execOpen3_within (m : DictMsg) : Within (touches (.open3 m)) s (execOpen3 m s) :=
  heard_within (message_only (fun _ h => doOpen3_only h (mem_touches rfl) (mem_touches rfl) (mem_touches rfl)) (.refl _ _) (mem_touches rfl) (mem_touches rfl))
theorem execSessionClose_within (m : DictMsg) : Within (touches (.sessionClose m)) s (execSessionClose m s) :=
  heard_within (closeMsg_only (.refl _ _) (mem_touches rfl) (mem_touches rfl) (mem_touches rfl))
theorem execSegmentGapTimeout_within (q : Req) (object : Nat) : Within (touches (.segmentGapTimeout q object)) s (execSegmentGapTimeout q object s) :=
  need_within (updSess_only (.refl _ _) (mem_touches rfl))
theorem execSessionIdleTimeout_within (sid : Nat) : Within (touches (.sessionIdleTimeout sid)) s (execSessionIdleTimeout sid s) :=
  need_within (endSession_only (.refl _ _) (mem_touches rfl) (mem_touches rfl))
theorem execDescQuery_within (q : Req) (v : BitVec 32) : Within (touches (.descQuery q v)) s (execDescQuery q v s) :=
  answered_within (opDescQuery_only (.refl _ _) (mem_touches rfl)) (mem_touches rfl) (mem_touches rfl)

/-! ### I3C -/

theorem execEntdaa_within (a : BitVec 7) : Within (touches (.entdaa a)) s (execEntdaa a s) :=
  heard_within (takeAddr_only (.refl _ _) (mem_touches rfl) (mem_touches rfl))
theorem execRstdaa_within : Within (touches .rstdaa) s (execRstdaa s) :=
  heard_within rfl
theorem execSetnewda_within (a : BitVec 7) : Within (touches (.setnewda a)) s (execSetnewda a s) :=
  directed_within rfl (mem_touches rfl)
theorem execGetpid_within : Within (touches .getpid) s (execGetpid s) :=
  directed_within rfl (mem_touches rfl)
theorem execGetbcr_within : Within (touches .getbcr) s (execGetbcr s) :=
  directed_within rfl (mem_touches rfl)
theorem execGetdcr_within : Within (touches .getdcr) s (execGetdcr s) :=
  directed_within rfl (mem_touches rfl)
theorem execGetstatus_within : Within (touches .getstatus) s (execGetstatus s) :=
  directed_within rfl (mem_touches rfl)
theorem execGetmrl_within : Within (touches .getmrl) s (execGetmrl s) :=
  directed_within rfl (mem_touches rfl)
theorem execGetmwl_within : Within (touches .getmwl) s (execGetmwl s) :=
  directed_within rfl (mem_touches rfl)
theorem execI3cPrivateWrite_within (data : Bytes) : Within (touches (.i3cPrivateWrite data)) s (execI3cPrivateWrite data s) :=
  directed_within (setPos_only (.refl _ _) (mem_touches rfl) (mem_touches rfl)) (mem_touches rfl)
theorem execI3cPrivateRead_within (len : Nat) : Within (touches (.i3cPrivateRead len)) s (execI3cPrivateRead len s) :=
  directed_within rfl (mem_touches rfl)
theorem execI3cRefresh_within (w mv : BitVec 16) : Within (touches (.i3cRefresh w mv)) s (execI3cRefresh w mv s) :=
  need_within (refresh_only (.refl _ _) (mem_touches rfl))

/-! ### Power and boot -/

theorem execInputTurnOn_within (railsOk : Bool) : Within (touches (.inputTurnOn railsOk)) s (execInputTurnOn railsOk s) := by
  apply need_within
  apply turnOn_only (.refl _ _) <;> exact mem_touches rfl
theorem execInputTurnOff_within : Within (touches .inputTurnOff) s (execInputTurnOff s) := by
  apply need_within
  apply powerOff_only (.refl _ _) <;> exact mem_touches rfl
theorem execOverVoltage_within : Within (touches .overVoltage) s (execOverVoltage s) := by
  apply need_within
  apply powerOff_only (.refl _ _) <;> exact mem_touches rfl
theorem execModPwrEnRise_within : Within (touches .modPwrEnRise) s (execModPwrEnRise s) := by
  apply need_within
  dsimp only
  split
  · apply wake_only rfl <;> exact mem_touches rfl
  · exact rfl
theorem execModPwrEnFall_within : Within (touches .modPwrEnFall) s (execModPwrEnFall s) := by
  apply need_within
  apply dropEnable_only (.refl _ _) <;> exact mem_touches rfl
theorem execModResetNAssert_within : Within (touches .modResetNAssert) s (execModResetNAssert s) := by
  apply need_within
  split
  · apply holdReset_only (.refl _ _) <;> exact mem_touches rfl
  · exact rfl
theorem execWatchdogExpire_within : Within (touches .watchdogExpire) s (execWatchdogExpire s) := by
  apply need_within
  apply boot_only (.refl _ _) <;> exact mem_touches rfl
theorem execThermalTrip_within (d : DieId) : Within (touches (.thermalTrip d)) s (execThermalTrip d s) := by
  apply need_within
  apply trip_only (.refl _ _) <;> exact mem_touches rfl
theorem execStraitSignalWake_within (k : StraitId) : Within (touches (.straitSignalWake k)) s (execStraitSignalWake k s) := by
  apply need_within
  apply wake_only (.refl _ _) <;> exact mem_touches rfl
theorem execSidebandWakeFrame_within (etherType : BitVec 16) (payload : Bytes) (mac : Bool) : Within (touches (.sidebandWakeFrame etherType payload mac)) s (execSidebandWakeFrame etherType payload mac s) := by
  apply heard_within
  apply wakeFrame_only (.refl _ _) <;> exact mem_touches rfl
theorem execStateRequestDoze_within (q : Req) : Within (touches (.stateRequestDoze q)) s (execStateRequestDoze q s) := by
  apply answered_within
  · apply opStateDoze_only (.refl _ _) <;> exact mem_touches rfl
  all_goals exact mem_touches rfl
theorem execStateRequestStandby_within (q : Req) : Within (touches (.stateRequestStandby q)) s (execStateRequestStandby q s) := by
  apply answered_within
  · apply opStateStandby_only (.refl _ _) <;> exact mem_touches rfl
  all_goals exact mem_touches rfl
theorem execStateRequestActive_within (q : Req) : Within (touches (.stateRequestActive q)) s (execStateRequestActive q s) := by
  apply answered_within
  · apply opStateActive_only (.refl _ _) <;> exact mem_touches rfl
  all_goals exact mem_touches rfl
theorem execDozeEntry_within (bad : List StackId) : Within (touches (.dozeEntry bad)) s (execDozeEntry bad s) := by
  have entered : OnlyTouches (touches (.dozeEntry bad)) s (dozeEntry bad s) := by
    apply dozeEntry_only (.refl _ _) <;> exact mem_touches rfl
  apply need_within
  dsimp only
  split
  · apply shutDownEnds_only entered <;> exact mem_touches rfl
  · exact entered
theorem execDomainReady_within (d : DieId) (r : Ready) : Within (touches (.domainReady d r)) s (execDomainReady d r s) := by
  unfold execDomainReady
  split
  · apply need_within
    apply readyStep_only (.refl _ _) <;> exact mem_touches rfl
  · exact fault_within
theorem execDomainReadyTimeout_within (d : DieId) (r : Ready) : Within (touches (.domainReadyTimeout d r)) s (execDomainReadyTimeout d r s) := by
  unfold execDomainReadyTimeout
  split
  · apply need_within
    apply timeout_only (.refl _ _) <;> exact mem_touches rfl
  · exact fault_within
theorem execDomainOff_within (d : DieId) : Within (touches (.domainOff d)) s (execDomainOff d s) := by
  apply need_within
  apply domainOff_only (.refl _ _) <;> exact mem_touches rfl

/-! ### Firmware -/

theorem execRecoveryRequest_within (k : Option StraitId) (id : BitVec 64) (seg : Nat) (key : Bytes) : Within (touches (.recoveryRequest k id seg key)) s (execRecoveryRequest k id seg key s) := by
  apply heard_within
  split
  · exact serveRequest_only (State_hear_only (.refl _ _) (mem_touches rfl)) (mem_touches rfl) (mem_touches rfl) (mem_touches rfl) (mem_touches rfl)
  · exact State_hear_only (.refl _ _) (mem_touches rfl)
theorem execRecoveryOffer_within (k : Option StraitId) (id : BitVec 64) (seg : Nat) (ct : Bytes) (total : Nat) : Within (touches (.recoveryOffer k id seg ct total)) s (execRecoveryOffer k id seg ct total s) :=
  heard_within (takeOffer_only (State_hear_only (.refl _ _) (mem_touches rfl)) (mem_touches rfl))
theorem execRecoveryData_within (id : BitVec 64) (off : Nat) (ct tag : Bytes) : Within (touches (.recoveryData id off ct tag)) s (execRecoveryData id off ct tag s) := by
  apply heard_within
  split
  · apply takeImage_only
    · split
      · exact State_hear_only (.refl _ _) (mem_touches rfl)
      · exact .refl _ _
    all_goals exact mem_touches rfl
  · split
    · exact State_hear_only (.refl _ _) (mem_touches rfl)
    · exact .refl _ _
theorem execRecoveryResume_within (id : BitVec 64) (off : Nat) : Within (touches (.recoveryResume id off)) s (execRecoveryResume id off s) := by
  refine heard_within (serveResume_only ?_ (mem_touches rfl) (mem_touches rfl))
  split
  · exact State_hear_only (.refl _ _) (mem_touches rfl)
  · exact .refl _ _
theorem execRecoveryBusy_within (_id : BitVec 64) : Within (touches (.recoveryBusy _id)) s (execRecoveryBusy _id s) := by
  apply heard_within
  split
  · exact State_hear_only (.refl _ _) (mem_touches rfl)
  · exact .refl _ _
theorem execRecoveryDataGap_within : Within (touches .recoveryDataGap) s (execRecoveryDataGap s) := by
  unfold execRecoveryDataGap
  split
  · exact need_within (State_emitOver_only (.refl _ _) (mem_touches rfl) (mem_touches rfl))
  · exact fault_within
theorem execRecoveryStraitTimeout_within : Within (touches .recoveryStraitTimeout) s (execRecoveryStraitTimeout s) := by
  unfold execRecoveryStraitTimeout
  split
  · apply need_within
    apply fetchOn_only (.refl _ _) <;> exact mem_touches rfl
  · exact fault_within
theorem execRecoveryRestart_within : Within (touches .recoveryRestart) s (execRecoveryRestart s) := by
  apply need_within
  apply restartFetch_only (.refl _ _) <;> exact mem_touches rfl
theorem execFwBegin_within (q : Req) : Within (touches (.fwBegin q)) s (execFwBegin q s) :=
  answered_within (opFwBegin_only (.refl _ _) (mem_touches rfl)) (mem_touches rfl) (mem_touches rfl)
theorem execFwCommit_within (q : Req) : Within (touches (.fwCommit q)) s (execFwCommit q s) :=
  answered_within (opFwCommit_only (.refl _ _) (mem_touches rfl)) (mem_touches rfl) (mem_touches rfl)
theorem execFwChunk_within (q : Req) (b : Bytes) : Within (touches (.fwChunk q b)) s (execFwChunk q b s) :=
  answered_within (opFwChunk_only (.refl _ _) (mem_touches rfl)) (mem_touches rfl) (mem_touches rfl)

/-! ### The rest -/

theorem execRegisterWrite_within (q : Req) (index : BitVec 16) (sub : Byte) (value : Bytes) : Within (touches (.registerWrite q index sub value)) s (execRegisterWrite q index sub value s) := by
  apply answered_within
  · apply writeObject_only (.refl _ _) <;> exact mem_touches rfl
  all_goals exact mem_touches rfl
theorem execProbe_within (k : StraitId) (t1 t2 t3 : Nat) : Within (touches (.probe k t1 t2 t3)) s (execProbe k t1 t2 t3 s) := by
  apply need_within
  split
  · exact State_emit_only (sendFlit_only (.refl _ _) (mem_touches rfl)) (mem_touches rfl)
  · exact .refl _ _
theorem execDieTemperature_within (src : TempSource) (c : Nat) : Within (touches (.dieTemperature src c)) s (execDieTemperature src c s) := by
  cases src with
  | die d => exact need_within (setTemp_only (.refl _ _) (mem_touches rfl) (mem_touches rfl) (mem_touches rfl))
  | stack k => exact need_within (setStackTemp_only (.refl _ _) (mem_touches rfl))
theorem execSignalDetect_within (k : StraitId) : Within (touches (.signalDetect k)) s (execSignalDetect k s) :=
  need_within (beginTraining_only (.refl _ _) (mem_touches rfl))
theorem execPcieTraining_within (k : StraitId) (up : Bool) (width : Nat) : Within (touches (.pcieTraining k up width)) s (execPcieTraining k up width s) :=
  need_within rfl
theorem execSbLinkStateChange_within (v : Byte) : Within (touches (.sbLinkStateChange v)) s (execSbLinkStateChange v s) :=
  need_within rfl
theorem execIcmpv6Echo_within (lighthouse : Bool) (payload : Bytes) : Within (touches (.icmpv6Echo lighthouse payload)) s (execIcmpv6Echo lighthouse payload s) :=
  heard_within (echo_only (.refl _ _) (mem_touches rfl) (mem_touches rfl))
theorem execNeighbourDiscovery_within (lighthouse solicitation : Bool) (addr : BitVec 128) (mac : BitVec 48) : Within (touches (.neighbourDiscovery lighthouse solicitation addr mac)) s (execNeighbourDiscovery lighthouse solicitation addr mac s) :=
  heard_within (discover_only (.refl _ _) (mem_touches rfl) (mem_touches rfl) (mem_touches rfl))
theorem execModResetNRelease_within : Within (touches .modResetNRelease) s (execModResetNRelease s) := by
  apply need_within
  apply releaseReset_only (.refl _ _) <;> exact mem_touches rfl
theorem execSignComplete_within (sid : Nat) : Within (touches (.signComplete sid)) s (execSignComplete sid s) := by
  unfold execSignComplete
  split
  · apply need_within
    apply signDone_only (.refl _ _) <;> exact mem_touches rfl
  · exact fault_within
theorem execFwCommitComplete_within : Within (touches .fwCommitComplete) s (execFwCommitComplete s) := by
  unfold execFwCommitComplete
  split
  · exact need_within (commitDone_only (.refl _ _) (mem_touches rfl))
  · exact fault_within
theorem execLibCommitComplete_within : Within (touches .libCommitComplete) s (execLibCommitComplete s) :=
  need_within rfl

end

/-! ### All commands -/

/-- A command answers only states that differ in the groups that `touches` lists for it. -/
theorem exec_within (s : State) (i : Instr) : Within (touches i) s (exec i s) :=
  match i with
  | .frameTick t => execFrameTick_within s t
  | .energyDueAdmit => execEnergyDueAdmit_within s
  | .sliceSplit p r t => execSliceSplit_within s p r t
  | .sliceStartOnArray a => execSliceStartOnArray_within s a
  | .passStart a e => execPassStart_within s a e
  | .stationaryTileLoad a e waited => execStationaryTileLoad_within s a e waited
  | .tileLoadDone a => execTileLoadDone_within s a
  | .vectorOperandLoad a e slot waited => execVectorOperandLoad_within s a e slot waited
  | .tableLoad a e slot waited => execTableLoad_within s a e slot waited
  | .foldHalfFill a e => execFoldHalfFill_within s a e
  | .drainRow a e bubbles stalls upset => execDrainRow_within s a e bubbles stalls upset
  | .chainStandaloneGroup a e stalls => execChainStandaloneGroup_within s a e stalls
  | .rowStatLand a => execRowStatLand_within s a
  | .quantBlockWrite a => execQuantBlockWrite_within s a
  | .sbTileWrite a => execSbTileWrite_within s a
  | .columnCheckDone a e => execColumnCheckDone_within s a e
  | .disputeRerunStart a => execDisputeRerunStart_within s a
  | .disputeDecide a agreesOriginal agreesCheck => execDisputeDecide_within s a agreesOriginal agreesCheck
  | .passEnd a e => execPassEnd_within s a e
  | .moverStart a e => execMoverStart_within s a e
  | .moverComplete a e faults => execMoverComplete_within s a e faults
  | .sliceComplete p r cycles energy => execSliceComplete_within s p r cycles energy
  | .tickAnnounce n => execTickAnnounce_within s n
  | .tickProbe k t1 => execTickProbe_within s k t1
  | .tickProbeReply k t2 t3 t4 => execTickProbeReply_within s k t2 t3 t4
  | .tickMissed => execTickMissed_within s
  | .tickSuccession candidates => execTickSuccession_within s candidates
  | .tickSelfMaster => execTickSelfMaster_within s
  | .peakGuardEngage avg100us aboveMs => execPeakGuardEngage_within s avg100us aboveMs
  | .peakGuardRelease throttledUs stalled => execPeakGuardRelease_within s throttledUs stalled
  | .framePeriodWrite q us => execFramePeriodWrite_within s q us
  | .ringEnableWrite q p r v => execRingEnableWrite_within s q p r v
  | .map q p => execMap_within s q p
  | .unmap q p => execUnmap_within s q p
  | .setAttr q p => execSetAttr_within s q p
  | .discard q p => execDiscard_within s q p
  | .ptQuery q p va => execPtQuery_within s q p va
  | .rgnQuery q p va => execRgnQuery_within s q p va
  | .poolHomeAccess q value => execPoolHomeAccess_within s q value
  | .windowGranuleMove p granule => execWindowGranuleMove_within s p granule
  | .migrationSectorCopy p page => execMigrationSectorCopy_within s p page
  | .gatheringFetchStart => execGatheringFetchStart_within s
  | .fetchSector p entry bank read replica => execFetchSector_within s p entry bank read replica
  | .straitTrainDone k r => execStraitTrainDone_within s k r
  | .straitRetrainTimer k => execStraitRetrainTimer_within s k
  | .train q k v => execTrain_within s q k v
  | .straitModeWrite q k v => execStraitModeWrite_within s q k v
  | .flitReceive k f => execFlitReceive_within s k f
  | .nakReceive k ack => execNakReceive_within s k ack
  | .laneSwap k lane index => execLaneSwap_within s k lane index
  | .laneRetrainNarrow k lane => execLaneRetrainNarrow_within s k lane
  | .straitDown k c => execStraitDown_within s k c
  | .hopKeyNextGeneration k tx index => execHopKeyNextGeneration_within s k tx index
  | .causewayUnitReceive c a b unit => execCausewayUnitReceive_within s c a b unit
  | .causewayFail c => execCausewayFail_within s c
  | .flowOpen owner peer peerFlow classes session => execFlowOpen_within s owner peer peerFlow classes session
  | .flowQuery q id => execFlowQuery_within s q id
  | .routeEntryAccess q value => execRouteEntryAccess_within s q value
  | .pureAckReceive p cls => execPureAckReceive_within s p cls
  | .flowRetryTimeout flow => execFlowRetryTimeout_within s flow
  | .flowIntegrityLost flow => execFlowIntegrityLost_within s flow
  | .flowKeygenAdvance flow => execFlowKeygenAdvance_within s flow
  | .pairKeyExpire peer => execPairKeyExpire_within s peer
  | .memrdRequest p g read tag => execMemrdRequest_within s p g read tag
  | .memrdData p status tag data => execMemrdData_within s p status tag data
  | .memrdError p status tag => execMemrdError_within s p status tag
  | .memwr p g tag data => execMemwr_within s p g tag data
  | .atomicSectorCas p g tag expected new => execAtomicSectorCas_within s p g tag expected new
  | .atomicResult p status tag stored => execAtomicResult_within s p status tag stored
  | .wakePacket p target => execWakePacket_within s p target
  | .hello h => execHello_within s h
  | .reply h => execReply_within s h
  | .finish h => execFinish_within s h
  | .hostConfigRequest k r => execHostConfigRequest_within s k r
  | .hostRead k off len => execHostRead_within s k off len
  | .hostWrite k off data => execHostWrite_within s k off data
  | .aptEntryWrite q value => execAptEntryWrite_within s q value
  | .mailboxGo k slot op m => execMailboxGo_within s k slot op m
  | .sessionOpOpen q n => execSessionOpOpen_within s q n
  | .sessionDigestMatch n answers => execSessionDigestMatch_within s n answers
  | .sessionOpClose q n => execSessionOpClose_within s q n
  | .closeLayer q n v => execCloseLayer_within s q n v
  | .withhold q n v => execWithhold_within s q n v
  | .contribData p m => execContribData_within s p m
  | .foldWindowExpire n layer step bucket => execFoldWindowExpire_within s n layer step bucket
  | .contribRoll p n layer step ranks => execContribRoll_within s p n layer step ranks
  | .contribAbsent p n layer step whole => execContribAbsent_within s p n layer step whole
  | .contribRecover p n layer step => execContribRecover_within s p n layer step
  | .ownerDeadline n layer step => execOwnerDeadline_within s n layer step
  | .paramData p m => execParamData_within s p m
  | .versionPublish n layer version => execVersionPublish_within s n layer version
  | .paramResendRequest p n layer version => execParamResendRequest_within s p n layer version
  | .paramResendTimeout n layer version => execParamResendTimeout_within s n layer version
  | .tipinData p m => execTipinData_within s p m
  | .sessionHeartbeat n peer => execSessionHeartbeat_within s n peer
  | .rankSilence n rank => execRankSilence_within s n rank
  | .roster p m => execRoster_within s p m
  | .rosterQuorumHold n => execRosterQuorumHold_within s n
  | .departRequest p m => execDepartRequest_within s p m
  | .restoreFailed p m => execRestoreFailed_within s p m
  | .keeperTimeout n layer => execKeeperTimeout_within s n layer
  | .departAtFrameSet q n frame => execDepartAtFrameSet_within s q n frame
  | .departWithdraw q n => execDepartWithdraw_within s q n
  | .departDeadline n rank => execDepartDeadline_within s n rank
  | .ownerQuery q n layer => execOwnerQuery_within s q n layer
  | .sectorRead p va d => execSectorRead_within s p va d
  | .sectorWrite p va data => execSectorWrite_within s p va data
  | .sectorPartialWrite p va data d => execSectorPartialWrite_within s p va data d
  | .rekeySector p page d => execRekeySector_within s p page d
  | .regionSteady p page => execRegionSteady_within s p page
  | .rotationComplete p => execRotationComplete_within s p
  | .hbmRowRepair k row repairRowsLeft => execHbmRowRepair_within s k row repairRowsLeft
  | .windowEccError p off bank double => execWindowEccError_within s p off bank double
  | .alertAck q seq => execAlertAck_within s q seq
  | .quotaWrite q p sub value => execQuotaWrite_within s q p sub value
  | .create q p => execCreate_within s q p
  | .remove q p => execRemove_within s q p
  | .removalComplete p => execRemovalComplete_within s p
  | .partitionKey q blob => execPartitionKey_within s q blob
  | .rotate q blob => execRotate_within s q blob
  | .jointKey q blob => execJointKey_within s q blob
  | .hostGrantWrite q p v => execHostGrantWrite_within s q p v
  | .slotQuery q id => execSlotQuery_within s q id
  | .sign q => execSign_within s q
  | .loadCert q => execLoadCert_within s q
  | .newNonce q => execNewNonce_within s q
  | .transition q => execTransition_within s q
  | .transitionProgrammed => execTransitionProgrammed_within s
  | .lhSealRequest request => execLhSealRequest_within s request
  | .certWrite q cert => execCertWrite_within s q cert
  | .operatorKeyEnrol q digest => execOperatorKeyEnrol_within s q digest
  | .challenge q => execChallenge_within s q
  | .debugOpen q => execDebugOpen_within s q
  | .libBegin q => execLibBegin_within s q
  | .libCommit q => execLibCommit_within s q
  | .libChunk q data => execLibChunk_within s q data
  | .testComplete unit r => execTestComplete_within s unit r
  | .testDeferLimit unit => execTestDeferLimit_within s unit
  | .unitRetire unit => execUnitRetire_within s unit
  | .suspectClear unit => execSuspectClear_within s unit
  | .unitQuery q unit => execUnitQuery_within s q unit
  | .histQuery q index => execHistQuery_within s q index
  | .auditQuery q seq => execAuditQuery_within s q seq
  | .adcSample uj => execAdcSample_within s uj
  | .occupancyWord die seq entries => execOccupancyWord_within s die seq entries
  | .strobeOverdue lengthUs => execStrobeOverdue_within s lengthUs
  | .selfTimedClose => execSelfTimedClose_within s
  | .minuteClose => execMinuteClose_within s
  | .lhPowerLoss lengthUs => execLhPowerLoss_within s lengthUs
  | .lhPowerOn => execLhPowerOn_within s
  | .calibrationChange c => execCalibrationChange_within s c
  | .lhReadRequest r => execLhReadRequest_within s r
  | .lhQuery q k v => execLhQuery_within s q k v
  | .lighthouseSilent => execLighthouseSilent_within s
  | .read m => execRead_within s m
  | .write m => execWrite_within s m
  | .readBlock m => execReadBlock_within s m
  | .open1 m => execOpen1_within s m
  | .open3 m => execOpen3_within s m
  | .sessionClose m => execSessionClose_within s m
  | .segmentGapTimeout q object => execSegmentGapTimeout_within s q object
  | .sessionIdleTimeout sid => execSessionIdleTimeout_within s sid
  | .descQuery q v => execDescQuery_within s q v
  | .entdaa addr => execEntdaa_within s addr
  | .rstdaa => execRstdaa_within s
  | .setnewda addr => execSetnewda_within s addr
  | .getpid => execGetpid_within s
  | .getbcr => execGetbcr_within s
  | .getdcr => execGetdcr_within s
  | .getstatus => execGetstatus_within s
  | .getmrl => execGetmrl_within s
  | .getmwl => execGetmwl_within s
  | .i3cPrivateWrite data => execI3cPrivateWrite_within s data
  | .i3cPrivateRead len => execI3cPrivateRead_within s len
  | .i3cRefresh inputPowerW inputMv => execI3cRefresh_within s inputPowerW inputMv
  | .inputTurnOn railsOk => execInputTurnOn_within s railsOk
  | .inputTurnOff => execInputTurnOff_within s
  | .overVoltage => execOverVoltage_within s
  | .modPwrEnRise => execModPwrEnRise_within s
  | .modPwrEnFall => execModPwrEnFall_within s
  | .modResetNAssert => execModResetNAssert_within s
  | .watchdogExpire => execWatchdogExpire_within s
  | .thermalTrip d => execThermalTrip_within s d
  | .straitSignalWake k => execStraitSignalWake_within s k
  | .sidebandWakeFrame etherType payload macMatches => execSidebandWakeFrame_within s etherType payload macMatches
  | .stateRequestDoze q => execStateRequestDoze_within s q
  | .stateRequestStandby q => execStateRequestStandby_within s q
  | .stateRequestActive q => execStateRequestActive_within s q
  | .dozeEntry writeBackFailed => execDozeEntry_within s writeBackFailed
  | .domainReady d r => execDomainReady_within s d r
  | .domainReadyTimeout d r => execDomainReadyTimeout_within s d r
  | .domainOff d => execDomainOff_within s d
  | .recoveryRequest strait fetchId segment key => execRecoveryRequest_within s strait fetchId segment key
  | .recoveryOffer strait fetchId segment ct total => execRecoveryOffer_within s strait fetchId segment ct total
  | .recoveryData fetchId off ct tag => execRecoveryData_within s fetchId off ct tag
  | .recoveryResume fetchId off => execRecoveryResume_within s fetchId off
  | .recoveryBusy fetchId => execRecoveryBusy_within s fetchId
  | .recoveryDataGap => execRecoveryDataGap_within s
  | .recoveryStraitTimeout => execRecoveryStraitTimeout_within s
  | .recoveryRestart => execRecoveryRestart_within s
  | .fwBegin q => execFwBegin_within s q
  | .fwCommit q => execFwCommit_within s q
  | .fwChunk q data => execFwChunk_within s q data
  | .registerWrite q index sub value => execRegisterWrite_within s q index sub value
  | .probe k t1 t2 t3 => execProbe_within s k t1 t2 t3
  | .dieTemperature src celsius => execDieTemperature_within s src celsius
  | .signalDetect k => execSignalDetect_within s k
  | .pcieTraining k up width => execPcieTraining_within s k up width
  | .sbLinkStateChange state => execSbLinkStateChange_within s state
  | .icmpv6Echo lighthouse payload => execIcmpv6Echo_within s lighthouse payload
  | .neighbourDiscovery lighthouse solicitation addr mac => execNeighbourDiscovery_within s lighthouse solicitation addr mac
  | .modResetNRelease => execModResetNRelease_within s
  | .signComplete sid => execSignComplete_within s sid
  | .fwCommitComplete => execFwCommitComplete_within s
  | .libCommitComplete => execLibCommitComplete_within s
/-- Settles O3: command by command, by the frame of the operation that the command runs. -/
theorem everyCommandTouchesOnlyItsGroups : Obligations.EveryCommandTouchesOnlyItsGroups :=
  fun i s _ h => exec_within s i _ h

end Sys2Proof.Machine
end

section
/-!
Settles O7: what only OPERATOR writes is denied to every other role. Each write of such an object is `guarded` by `isOperator`, so it is the denial, and its answer is all that is left of the command.
-/

namespace Sys2Proof.Machine

section
variable {s : State} {q : Req}

theorem isOperator_eq_false (h : roleOf s q ≠ .operator) : isOperator s q = false := by simp [isOperator, h]

/-- A denied write never reaches module flash (R544). -/
@[simp] theorem flashed_denied (b : Bool) : flashed q b s (s, .denied) = (s, .denied) := by simp [flashed]

/-- A denied request changes nothing but what its answer changes. -/
theorem software_denied {r : State × Status} (hr : reachable s) (h : r = (s, .denied)) : software s (answer q r) = .next (answer q (s, .denied)) := by
  rw [h, software_of hr]

theorem software_flashed_denied {r : State × Status} {b : Bool} (hr : reachable s) (h : r = (s, .denied)) :
    software s (answer q (flashed q b s r)) = .next (answer q (s, .denied)) :=
  software_denied hr (by rw [h, flashed_denied])

variable (h : isOperator s q = false)
include h

theorem opFramePeriod_denied (us) : opFramePeriod q us s = (s, .denied) := guarded_not (by simp [h])
theorem opPoolHome_denied (v) : opPoolHome q v s = (s, .denied) := guarded_not (by simp [h])
theorem opRouteEntry_denied (w) : opRouteEntry q w s = (s, .denied) := guarded_not (by simp [h])
theorem opAptEntry_denied (w) : opAptEntry q w s = (s, .denied) := guarded_not (by simp [h])
theorem opAlertAck_denied (n) : opAlertAck q n s = (s, .denied) := guarded_not (by simp [h])
theorem opQuota_denied (p sub v) : opQuota q p sub v s = (s, .denied) := guarded_not (by simp [h])
theorem opCreate_denied (p) : opCreate q p s = (s, .denied) := guarded_not (by simp [h])
theorem opTrain_denied (k v) : opTrain q k v s = (s, .denied) := guarded_not (by simp [h])
theorem opStraitMode_denied (k v) : opStraitMode q k v s = (s, .denied) := guarded_not (by simp [h])
theorem opUnitQuery_denied (u) : opUnitQuery q u s = (s, .denied) := guarded_not (by simp [h])
theorem opHistQuery_denied (i) : opHistQuery q i s = (s, .denied) := guarded_not (by simp [h])
theorem opDepartAt_denied (i f) : opDepartAt q i f s = (s, .denied) := guarded_not (by simp [h])
theorem opDepartWithdraw_denied (i) : opDepartWithdraw q i s = (s, .denied) := guarded_not (by simp [h])
theorem opStateDoze_denied : opStateDoze q s = (s, .denied) := guarded_not (by simp [h])
theorem opStateStandby_denied : opStateStandby q s = (s, .denied) := guarded_not (by simp [h])
theorem opStateActive_denied : opStateActive q s = (s, .denied) := guarded_not (by simp [h])

end

/-- Settles O7: every one of these commands is the answer to a guarded write, and the guard denies a requester that is not OPERATOR. -/
theorem operatorObjectsRefuseOtherRoles : Obligations.OperatorObjectsRefuseOtherRoles := by
  intro s q hr hrole
  have h := isOperator_eq_false hrole
  exact ⟨fun us => software_flashed_denied hr (opFramePeriod_denied h us), fun v => software_flashed_denied hr (opPoolHome_denied h v),
    fun w => software_flashed_denied hr (opRouteEntry_denied h w), fun w => software_flashed_denied hr (opAptEntry_denied h w),
    fun n => software_denied hr (opAlertAck_denied h n), fun p sub v => software_denied hr (opQuota_denied h p sub v),
    fun p => software_denied hr (opCreate_denied h p), fun k v => software_denied hr (opTrain_denied h k v),
    fun k v => software_flashed_denied hr (opStraitMode_denied h k v), fun u => software_denied hr (opUnitQuery_denied h u),
    fun i => software_denied hr (opHistQuery_denied h i), fun i f => software_denied hr (opDepartAt_denied h i f),
    fun i => software_denied hr (opDepartWithdraw_denied h i), software_denied hr (opStateDoze_denied h),
    software_denied hr (opStateStandby_denied h), software_denied hr (opStateActive_denied h)⟩

end Sys2Proof.Machine
end

section
/-!
Settles O59: rounding half to even (R24) and the precedence of a record's conditions (R10).
-/

namespace Sys2Proof.Machine

/-! Rounding. -/

/-- The rounded quotient, against the floor `q` and the remainder `r` of the exact one: below the half it is `q`, above the half `q + 1`, and at the half the even one of the two. -/
theorem rheDiv_cases (a : Int) {d : Nat} :
    (2 * (a % d) < d ∧ rheDiv a d = a / d) ∨ (d < 2 * (a % d) ∧ rheDiv a d = a / d + 1) ∨
    (2 * (a % d) = d ∧ rheDiv a d % 2 = 0 ∧ (rheDiv a d = a / d ∨ rheDiv a d = a / d + 1)) := by
  simp only [rheDiv]
  split
  · omega
  · split
    · omega
    · split <;> omega

theorem rheDiv_nearest_even (a : Int) {d : Nat} (hd : 0 < d) :
    2 * (rheDiv a d * d - a).natAbs ≤ d ∧ (2 * (rheDiv a d * d - a).natAbs = d → rheDiv a d % 2 = 0) := by
  have exact_quotient : a / d * d + a % d = a := Int.ediv_mul_add_emod a d
  have nonneg : 0 ≤ a % (d : Int) := Int.emod_nonneg _ (by omega)
  have below : a % (d : Int) < d := Int.emod_lt_of_pos _ (by omega)
  have next_multiple : (a / d + 1) * d = a / d * d + d := by ring
  obtain ⟨hr, hq⟩ | ⟨hr, hq⟩ | ⟨hr, he, hq | hq⟩ := rheDiv_cases a (d := d)
  · rw [hq]; omega
  · rw [hq, next_multiple]; omega
  · rw [hq] at he ⊢; omega
  · rw [hq] at he ⊢; rw [next_multiple]; omega

/-! Precedence. -/

/-- The conditions in the order of R10, the one that prevails first. -/
def Status.order : List Status :=
  [.internal, .denied, .badDescriptor, .overlap, .keyRevoked, .integrity, .uncorrectable, .linkLost, .peerFailed, .snapshotLost, .quota, .stashFull, .poisonIn, .checkMismatch,
    .contribDropped, .split, .overrun, .gatheringLate, .deferred, .partialDone, .checkResolved, .rescaled, .saturated, .done]

theorem Status.idxOf_order (c : Status) : Status.order.idxOf c = c.rank := by cases c <;> rfl

theorem Status.first_eq_or (a b : Status) : Status.first a b = a ∨ Status.first a b = b := by
  unfold Status.first; split <;> simp

theorem Status.rank_first (a b : Status) : (Status.first a b).rank = min a.rank b.rank := by
  unfold Status.first; split <;> omega

/-- What is chosen from `a` and then the list is one of them, and none of them stands before it. -/
theorem Status.foldl_first (l : List Status) (a : Status) :
    (l.foldl Status.first a = a ∨ l.foldl Status.first a ∈ l) ∧
    (l.foldl Status.first a).rank ≤ a.rank ∧ ∀ c ∈ l, (l.foldl Status.first a).rank ≤ c.rank := by
  induction l generalizing a with
  | nil => simp
  | cons b l ih =>
    obtain ⟨mem, le_start, le_all⟩ := ih (Status.first a b)
    rw [Status.rank_first] at le_start
    refine ⟨?_, by simp only [List.foldl_cons]; omega, ?_⟩
    · rcases Status.first_eq_or a b with e | e <;> simp only [List.foldl_cons, List.mem_cons, e] at mem ⊢ <;> tauto
    · simp only [List.foldl_cons, List.forall_mem_cons]
      exact ⟨by omega, le_all⟩

theorem Status.choose_eq_done_or_mem (l : List Status) : Status.choose l = .done ∨ Status.choose l ∈ l := (Status.foldl_first l .done).1
theorem Status.rank_choose_le {l : List Status} {c : Status} (h : c ∈ l) : (Status.choose l).rank ≤ c.rank := (Status.foldl_first l .done).2.2 c h

/-- Settles O59: the rounded quotient lies within half a divisor of the exact one, and a record's code is the first of its conditions in the order of R10. -/
theorem roundingAndPrecedence : Obligations.RoundingAndPrecedence := by
  refine ⟨fun a d hd => rheDiv_nearest_even a hd, fun l => ⟨Status.choose_eq_done_or_mem l, fun c hc => ?_⟩⟩
  change Status.order.idxOf (Status.choose l) ≤ Status.order.idxOf c
  rw [Status.idxOf_order, Status.idxOf_order]
  exact Status.rank_choose_le hc

end Sys2Proof.Machine
end

section
/-!
Settles O58: stored blocks (R17, R20) and the need exponent (R27). The bytes of a block's elements are read back in two ways, as half bytes (INT4) and as strings of whole bytes; the need exponent is the first
hit of a search.
-/

namespace Sys2Proof.Machine

/-! Byte strings and two's-complement codes. -/

theorem codeOf_lt (w : Nat) (x : Int) : codeOf w x < 2 ^ w := by
  have pos : (0 : Int) < 2 ^ w := by positivity
  have below : x % 2 ^ w < 2 ^ w := Int.emod_lt_of_pos x pos
  have nonneg : 0 ≤ x % 2 ^ w := Int.emod_nonneg x pos.ne'
  zify [codeOf]
  rwa [Int.toNat_of_nonneg nonneg]

@[simp] theorem length_leBytes (k n : Nat) : (leBytes k n).length = k := by
  induction k generalizing n with
  | zero => rfl
  | succ k ih => simp [leBytes, ih]

theorem leNat_leBytes {k n : Nat} (h : n < 256 ^ k) : leNat (leBytes k n) = n := by
  induction k generalizing n with
  | zero => simp only [pow_zero] at h; simp only [leBytes, leNat]; omega
  | succ k ih =>
    have tail : n / 256 < 256 ^ k := Nat.div_lt_of_lt_mul (by rwa [mul_comm, ← pow_succ])
    simp only [leBytes, leNat, ih tail, BitVec.toNat_ofNat]
    omega

theorem leNat_leBytes_codeOf (k : Nat) (x : Int) : leNat (leBytes k (codeOf (8 * k) x)) = codeOf (8 * k) x :=
  leNat_leBytes (by simpa [pow_mul] using codeOf_lt (8 * k) x)

theorem slice_append_left (a b : Bytes) : slice (a ++ b) 0 a.length = a := by simp [slice, zeros]

theorem slice_append_right (a b : Bytes) (k n : Nat) : slice (a ++ b) (a.length + k) n = slice b k n := by
  simp only [slice, List.drop_length_add_append]

section
variable {α : Type} {f : α → Bytes} {n : Nat} (hf : ∀ x, (f x).length = n)
include hf

theorem length_flatMap_of_length_eq (l : List α) : (l.flatMap f).length = n * l.length := by
  induction l with
  | nil => simp
  | cons x l ih => simp only [List.flatMap_cons, List.length_append, List.length_cons, ih, hf]; ring

theorem slice_flatMap (l : List α) (i : Nat) (h : i < l.length) : slice (l.flatMap f) (n * i) n = f l[i] := by
  induction l generalizing i with
  | nil => simp at h
  | cons x l ih =>
    cases i with
    | zero => simpa [hf] using slice_append_left (f x) (l.flatMap f)
    | succ i =>
      have skip : n * (i + 1) = (f x).length + n * i := by rw [hf]; ring
      simpa [skip, slice_append_right] using ih i (by simpa using h)

end

/-- Two's complement reads back what it can hold. -/
theorem signedOf_codeOf {w : Nat} {x : Int} (lower : -2 ^ w ≤ x) (upper : x < 2 ^ w) : signedOf (w + 1) (codeOf (w + 1) x) = x := by
  have pos : (0 : Int) < 2 ^ w := by positivity
  have double : (2 : Int) ^ (w + 1) = 2 * 2 ^ w := by ring
  have code : (codeOf (w + 1) x : Int) = if 0 ≤ x then x else x + 2 * 2 ^ w := by
    rw [codeOf, double, Int.toNat_of_nonneg (Int.emod_nonneg x (by omega))]
    split
    · exact Int.emod_eq_of_lt ‹_› (by omega)
    · rw [← Int.add_emod_right]; exact Int.emod_eq_of_lt (by omega) (by omega)
  simp only [signedOf, Nat.mod_eq_of_lt (codeOf_lt _ x), Nat.add_sub_cancel, double]
  zify
  by_cases sign : 0 ≤ x
  · rw [code, if_pos sign]; split <;> omega
  · rw [code, if_neg sign]; split <;> omega

/-! The exponent byte. -/

theorem readExp_poison : readExp 0x80 = none := rfl

theorem readExp_of_ne {b : Byte} (h : b ≠ 0x80) : readExp b = some b.toInt := if_neg h

theorem writeExp_readExp (b : Byte) : writeExp (readExp b) = b := by
  by_cases h : b = 0x80
  · rw [h]; rfl
  · rw [readExp_of_ne h]; exact BitVec.ofInt_toInt

/-- The byte 0x80 is POISON, a byte below it is its own exponent, a byte above it a negative one. -/
theorem readExp_twos_complement (b : Byte) :
    (b = 0x80 → readExp b = none) ∧ (b.toNat ≤ 0x7F → readExp b = some (b.toNat : Int)) ∧ (0x81 ≤ b.toNat → readExp b = some ((b.toNat : Int) - 256)) := by
  refine ⟨fun h => h ▸ readExp_poison, fun h => ?_, fun h => ?_⟩ <;>
  · rw [readExp_of_ne (by rintro rfl; simp at h), BitVec.toInt_eq_toNat_cond]
    simp only [Option.some.injEq]
    split <;> omega

/-! The elements' bytes. -/

theorem elemBits_cases {fmt : Nat} (h : fmt ≤ 7) : elemBits fmt = 4 ∨ ∃ n, 0 < n ∧ elemBits fmt = 8 * n := by
  interval_cases fmt
  exacts [.inl rfl, .inr ⟨1, by decide⟩, .inr ⟨2, by decide⟩, .inl rfl, .inr ⟨1, by decide⟩, .inr ⟨2, by decide⟩, .inr ⟨4, by decide⟩, .inr ⟨1, by decide⟩]

/-- A signed format of `w + 1` bits produces elements up to `2 ^ w - 1` (R14). -/
theorem maxCode_signed {fmt : Nat} (h : fmt ≤ 6) : ∃ w, elemBits fmt = w + 1 ∧ maxCode fmt = 2 ^ w - 1 := by
  interval_cases fmt
  exacts [⟨3, rfl, rfl⟩, ⟨7, rfl, rfl⟩, ⟨15, rfl, rfl⟩, ⟨3, rfl, rfl⟩, ⟨7, rfl, rfl⟩, ⟨15, rfl, rfl⟩, ⟨31, rfl, rfl⟩]

/-- An element that its format can produce reads back from its code. -/
theorem readElem_codeOf {fmt : Nat} {x : Int} (h : fmt ≤ 7) (lower : minCode fmt ≤ x) (upper : x ≤ maxCode fmt) : readElem fmt (codeOf (elemBits fmt) x) = x := by
  by_cases h7 : fmt = 7
  · subst h7
    simp only [minCode, maxCode, if_true] at lower upper
    simp only [readElem, codeOf, elemBits, if_true]
    omega
  · obtain ⟨w, bits, top⟩ := maxCode_signed (show fmt ≤ 6 by omega)
    simp only [minCode, h7, if_false] at lower
    simp only [readElem, h7, if_false, bits, signedOf_codeOf (w := w) (x := x) (by omega) (by omega)]
    split <;> omega

/-- The byte of two half-byte codes: the first is its low half, the second its high half. -/
theorem nibble_pair (a b : Int) :
    (BitVec.ofNat 8 (codeOf 4 a + 16 * codeOf 4 b)).toNat % 16 = codeOf 4 a ∧ (BitVec.ofNat 8 (codeOf 4 a + 16 * codeOf 4 b)).toNat / 16 = codeOf 4 b := by
  have ha := codeOf_lt 4 a
  have hb := codeOf_lt 4 b
  rw [BitVec.toNat_ofNat]
  omega

theorem packNibbles_place (l : List Int) (i : Nat) (h : i < l.length) : ((packNibbles l).getD (i / 2) 0).toNat / 16 ^ (i % 2) % 16 = codeOf 4 l[i] := by
  induction l using packNibbles.induct generalizing i with
  | case1 a b r ih =>
    obtain ⟨low, high⟩ := nibble_pair a b
    match i with
    | 0 => simpa [packNibbles] using low
    | 1 =>
      change (BitVec.ofNat 8 (codeOf 4 a + 16 * codeOf 4 b)).toNat / 16 % 16 = codeOf 4 b
      rw [high]
      exact Nat.mod_eq_of_lt (codeOf_lt 4 b)
    | i + 2 => simpa [packNibbles, Nat.add_div_right] using ih i (by simpa using h)
  | case2 a =>
    obtain rfl : i = 0 := by simpa using h
    have ha := codeOf_lt 4 a
    simp [packNibbles]
    omega
  | case3 => simp at h

section
variable {fmt : Nat}

theorem packElems_nibbles (hb : elemBits fmt = 4) (l : List Int) : packElems fmt l = packNibbles l := by simp [packElems, hb]

theorem unpackElems_nibbles (hb : elemBits fmt = 4) (b : Bytes) : unpackElems fmt b = b.flatMap (fun x => [readElem fmt (x.toNat % 16), readElem fmt (x.toNat / 16)]) := by
  simp [unpackElems, hb]

theorem unpackElems_packNibbles (h : fmt ≤ 7) (hb : elemBits fmt = 4) {l : List Int} (even : l.length % 2 = 0) (range : ∀ x ∈ l, minCode fmt ≤ x ∧ x ≤ maxCode fmt) :
    unpackElems fmt (packNibbles l) = l := by
  rw [unpackElems_nibbles hb]
  induction l using packNibbles.induct with
  | case1 a b r ih =>
    simp only [List.forall_mem_cons] at range
    obtain ⟨⟨la, ua⟩, ⟨lb, ub⟩, range⟩ := range
    obtain ⟨low, high⟩ := nibble_pair a b
    have ra := readElem_codeOf h la ua
    have rb := readElem_codeOf h lb ub
    rw [hb] at ra rb
    rw [packNibbles, List.flatMap_cons, low, high, ra, rb, ih (by simp only [List.length_cons] at even; omega) range]
    rfl
  | case2 a => simp at even
  | case3 => rfl

variable {n : Nat} (hn : 0 < n) (hb : elemBits fmt = 8 * n)
include hn hb

theorem packElems_bytes (l : List Int) : packElems fmt l = l.flatMap (fun x => leBytes n (codeOf (8 * n) x)) := by
  simp [packElems, hb, hn.ne']

theorem unpackElems_bytes (b : Bytes) : unpackElems fmt b = (List.range (b.length / n)).map (fun i => readElem fmt (leNat (slice b (i * n) n))) := by
  simp [unpackElems, hb, hn.ne']

theorem length_packElems_bytes (l : List Int) : (packElems fmt l).length = n * l.length := by
  rw [packElems_bytes hn hb, length_flatMap_of_length_eq (fun x => length_leBytes n _)]

theorem packElems_place (l : List Int) (i : Nat) (h : i < l.length) : leNat (slice (packElems fmt l) (n * i) n) = codeOf (8 * n) l[i] := by
  rw [packElems_bytes hn hb, slice_flatMap (fun x => length_leBytes n _) l i h, leNat_leBytes_codeOf]

theorem unpackElems_packElems_bytes (h : fmt ≤ 7) {l : List Int} (range : ∀ x ∈ l, minCode fmt ≤ x ∧ x ≤ maxCode fmt) : unpackElems fmt (packElems fmt l) = l := by
  rw [unpackElems_bytes hn hb, length_packElems_bytes hn hb, Nat.mul_div_cancel_left _ hn]
  refine List.ext_getElem (by simp) fun i _ hi => ?_
  obtain ⟨lower, upper⟩ := range l[i] (List.getElem_mem hi)
  rw [List.getElem_map, List.getElem_range, mul_comm i n, packElems_place hn hb l i hi, ← hb, readElem_codeOf h lower upper]

end

theorem unpackElems_packElems {fmt : Nat} {l : List Int} (h : fmt ≤ 7) (even : l.length % 2 = 0) (range : ∀ x ∈ l, minCode fmt ≤ x ∧ x ≤ maxCode fmt) :
    unpackElems fmt (packElems fmt l) = l := by
  obtain hb | ⟨n, hn, hb⟩ := elemBits_cases h
  · rw [packElems_nibbles hb, unpackElems_packNibbles h hb even range]
  · exact unpackElems_packElems_bytes hn hb h range

/-! The need exponent. -/

theorem fitsAt_iff {fmt : Nat} {vs : List A48} {e : Int} :
    fitsAt fmt vs e = true ↔ ∀ el ex, A48.val el ex ∈ vs → if fmt = 7 then rheShift el (ex - e) ≤ 255 else (rheShift el (ex - e)).natAbs ≤ (maxCode fmt).natAbs := by
  have top : fmt = 7 → maxCode fmt = 255 := by rintro rfl; rfl
  rw [fitsAt, List.all_eq_true]
  constructor
  · intro all el ex mem
    have := all _ mem
    split <;> simp_all
  · rintro fits (_ | ⟨el, ex⟩) mem
    · rfl
    · have := fits el ex mem
      split at this <;> simp_all

/-- The search of `needExp` runs over integers, the naturals below 255 cast one by one; this is the same search over the naturals themselves. -/
theorem needExp_eq (fmt : Nat) (vs : List A48) :
    needExp fmt vs = (((List.range 255).find? (fun i : Nat => fitsAt fmt vs ((i : Int) - 127))).map (fun i : Nat => (i : Int) - 127)).getD 127 := by
  simp only [needExp, List.pure_def, List.bind_eq_flatMap, ← List.map_eq_flatMap, List.find?_map, Function.comp_def]
  cases (List.range 255).find? (fun i : Nat => fitsAt fmt vs ((i : Int) - 127)) <;> rfl

/-- The search of R27 either stops at the first exponent under which the values fit, or passes all of -127 to 127 and answers 127. -/
theorem needExp_cases (fmt : Nat) (vs : List A48) :
    (∃ i : Nat, i < 255 ∧ needExp fmt vs = (i : Int) - 127 ∧ fitsAt fmt vs ((i : Int) - 127) = true ∧ ∀ j : Nat, j < i → fitsAt fmt vs ((j : Int) - 127) = false) ∨
    (needExp fmt vs = 127 ∧ ∀ j : Nat, j < 255 → fitsAt fmt vs ((j : Int) - 127) = false) := by
  rw [needExp_eq]
  cases search : (List.range 255).find? (fun i : Nat => fitsAt fmt vs ((i : Int) - 127)) with
  | some i =>
    obtain ⟨fits, mem, before⟩ := List.find?_range_eq_some.mp search
    exact .inl ⟨i, List.mem_range.mp mem, rfl, fits, fun j hj => by simpa using before j hj⟩
  | none => exact .inr ⟨rfl, fun j hj => by simpa using List.find?_range_eq_none.mp search j hj⟩

theorem needExp_bounds (fmt : Nat) (vs : List A48) : -127 ≤ needExp fmt vs ∧ needExp fmt vs ≤ 127 := by
  obtain ⟨i, hi, found, -⟩ | ⟨found, -⟩ := needExp_cases fmt vs <;> omega

theorem fitsAt_needExp (fmt : Nat) (vs : List A48) : fitsAt fmt vs (needExp fmt vs) = true ∨ needExp fmt vs = 127 := by
  obtain ⟨i, -, found, fits, -⟩ | ⟨found, -⟩ := needExp_cases fmt vs
  · exact .inl (found ▸ fits)
  · exact .inr found

theorem not_fitsAt_of_lt_needExp {fmt : Nat} {vs : List A48} {e : Int} (low : -127 ≤ e) (below : e < needExp fmt vs) : ¬ fitsAt fmt vs e = true := by
  obtain ⟨j, rfl⟩ : ∃ j : Nat, e = (j : Int) - 127 := ⟨(e + 127).toNat, by omega⟩
  rw [Bool.not_eq_true]
  obtain ⟨i, -, found, -, before⟩ | ⟨found, before⟩ := needExp_cases fmt vs <;> exact before j (by omega)

@[simp] theorem rheShift_zero (k : Int) : rheShift 0 k = 0 := by simp [rheShift, rheDiv]

/-- Zeros fit under every exponent, so the search stops at the smallest. -/
theorem needExp_of_zeros {fmt : Nat} {vs : List A48} (zero : ∀ el ex, A48.val el ex ∈ vs → el = 0) : needExp fmt vs = -127 := by
  have fits : fitsAt fmt vs (-127) = true := by
    refine fitsAt_iff.mpr fun el ex mem => ?_
    rw [zero el ex mem, rheShift_zero]
    split <;> simp
  obtain ⟨low, -⟩ := needExp_bounds fmt vs
  by_contra ne
  exact not_fitsAt_of_lt_needExp le_rfl (by omega) fits

/-- Settles O58: the exponent byte is two's complement but for 0x80; the elements stand at their places and read back; and the need exponent is where the search of R27 first finds that the values fit. -/
theorem storedBlocksReadAsTheirLayout : Obligations.StoredBlocksReadAsTheirLayout := by
  refine ⟨fun b => ?_, fun _ _ => rfl, fun fmt l i hi => ⟨?_, ?_, ?_⟩, fun _ _ h even range => unpackElems_packElems h even range, fun fmt vs _ _ => ?_⟩
  · obtain ⟨poison, positive, negative⟩ := readExp_twos_complement b
    exact ⟨poison, positive, negative, writeExp_readExp b⟩
  · rintro (rfl | rfl) <;> exact packNibbles_place l i hi
  · rintro (rfl | rfl) <;> exact packElems_place (n := 2) (by decide) rfl l i hi
  · rintro rfl; exact packElems_place (n := 4) (by decide) rfl l i hi
  · obtain ⟨low, high⟩ := needExp_bounds fmt vs
    exact ⟨low, high, (fitsAt_needExp fmt vs).imp_left fitsAt_iff.mp, fun e le lt fits => not_fitsAt_of_lt_needExp le lt (fitsAt_iff.mpr fits), needExp_of_zeros⟩

end Sys2Proof.Machine
end

section
/-!
Settles O21: the engines of one array reach no other array and no ring but that of the slice that the array runs. `Local` says so of a change of the state; it is transitive, each operation that the engines share is `Local`, and so is each command of an array, being made of these operations.
-/

namespace Sys2Proof.Machine

/-! What a frame says of one group. -/

section
variable {gs : List Group} {s t : State} (h : OnlyTouches gs s t)
include h

theorem OnlyTouches.parts_eq (n : Group.parts ∉ gs) : t.parts = s.parts := by simpa only [State.hide, if_neg n] using congrArg State.parts h
theorem OnlyTouches.rings_eq (n : Group.rings ∉ gs) : t.rings = s.rings := by simpa only [State.hide, if_neg n] using congrArg State.rings h
theorem OnlyTouches.arrays_eq (n : Group.arrays ∉ gs) : t.arrays = s.arrays := by simpa only [State.hide, if_neg n] using congrArg State.arrays h
theorem OnlyTouches.mem_eq (n : Group.mem ∉ gs) : t.mem = s.mem := by simpa only [State.hide, if_neg n] using congrArg State.mem h
theorem OnlyTouches.bind_eq (n : Group.bind ∉ gs) : t.bind = s.bind := by simpa only [State.hide, if_neg n] using congrArg State.bind h
theorem OnlyTouches.ras_eq (n : Group.ras ∉ gs) : t.ras = s.ras := by simpa only [State.hide, if_neg n] using congrArg State.ras h

end

theorem putWrites_beside (s : State) (v : VM) : OnlyTouches [.out, .free, .parts, .mem, .fab, .ras, .dict] s (s.putWrites v) := by
  apply State_putWrites_only (.refl _ _) <;> decide
@[simp] theorem putWrites_arrays (s : State) (v : VM) : (s.putWrites v).arrays = s.arrays := (putWrites_beside s v).arrays_eq (by decide)
@[simp] theorem putWrites_rings (s : State) (v : VM) : (s.putWrites v).rings = s.rings := (putWrites_beside s v).rings_eq (by decide)

/-! Changes that stay on one array. -/

/-- From `s` to `t` nothing changes in another array, nor in a ring other than that of the slice that `a` runs; and `a` takes up no other slice. -/
def Local (a : ArrayId) (s t : State) : Prop :=
  (∀ b, b ≠ a → t.arrays[b] = s.arrays[b]) ∧ (t.arrays[a].cur = s.arrays[a].cur ∨ t.arrays[a].cur = none) ∧
  ∀ p r, s.arrays[a].cur ≠ some (p, r) → t.rings[p][r] = s.rings[p][r]

/-- The groups that the engines of an array change apart from the arrays and the rings. -/
def besideArrays : List Group := [.out, .free, .parts, .mem, .fab, .bind, .ras, .dict]

section
variable {a : ArrayId} {s t u : State}

theorem Local.refl (a : ArrayId) (s : State) : Local a s s := ⟨fun _ _ => rfl, .inl rfl, fun _ _ _ => rfl⟩

theorem Local.trans (h : Local a s t) (k : Local a t u) : Local a s u := by
  obtain ⟨arr, cur, ring⟩ := h
  obtain ⟨arr', cur', ring'⟩ := k
  refine ⟨fun b hb => (arr' b hb).trans (arr b hb), ?_, fun p r hp => ?_⟩
  · rcases cur' with e | e
    · exact e ▸ cur
    · exact .inr e
  · have still : t.arrays[a].cur ≠ some (p, r) := by
      rcases cur with e | e
      · exact e ▸ hp
      · exact e ▸ nofun
    exact (ring' p r still).trans (ring p r hp)

theorem Local.of_only (h : OnlyTouches besideArrays s t) : Local a s t := by
  have arr := h.arrays_eq (by decide)
  have ring := h.rings_eq (by decide)
  exact ⟨fun _ _ => by rw [arr], .inl (by rw [arr]), fun _ _ _ => by rw [ring]⟩

theorem updArray_local {f : ArrayEng → ArrayEng} (cur : (f s.arrays[a]).cur = s.arrays[a].cur ∨ (f s.arrays[a]).cur = none) : Local a s (s.updArray a f) :=
  ⟨fun _ hb => updArray_other _ _ _ _ hb, by rwa [updArray_at], fun _ _ _ => rfl⟩

@[simp] theorem updRun_arrays (a : ArrayId) (f : ArrayRun → ArrayRun) (s : State) : (updRun a f s).arrays = s.arrays := by unfold updRun; split <;> rfl
@[simp] theorem updEntry_arrays (a : ArrayId) (e : Nat) (f : EntryRun → EntryRun) (s : State) : (updEntry a e f s).arrays = s.arrays := updRun_arrays ..
@[simp] theorem addConds_arrays (a : ArrayId) (e : Nat) (l : List Status) (s : State) : (addConds a e l s).arrays = s.arrays := updRun_arrays ..

theorem updRun_local (f : ArrayRun → ArrayRun) : Local a s (updRun a f s) := by
  refine ⟨fun b _ => by rw [updRun_arrays], .inl (updRun_cur ..), fun p r other => ?_⟩
  unfold updRun
  split
  case h_2 => rfl
  case h_1 q k run =>
    by_cases part : p = q
    · subst part
      exact updRing_other_ring _ _ _ _ _ (fun e => other (e ▸ run))
    · rw [updRing_other_part _ _ _ _ _ part]

theorem updEntry_local (e : Nat) (f : EntryRun → EntryRun) : Local a s (updEntry a e f s) := updRun_local _

end

section
variable {a : ArrayId} {s u : State} (hu : Local a s u)
include hu

theorem Local.updArray {f : ArrayEng → ArrayEng} (cur : (f u.arrays[a]).cur = u.arrays[a].cur := by rfl) : Local a s (u.updArray a f) := hu.trans (updArray_local (.inl cur))
theorem Local.updEntry {e : Nat} {f : EntryRun → EntryRun} : Local a s (updEntry a e f u) := hu.trans (updEntry_local e f)
theorem Local.addConds {e : Nat} {l : List Status} : Local a s (addConds a e l u) := hu.updEntry
theorem Local.sawPoison {e : Nat} {b : Bool} : Local a s (sawPoison a e b u) := by
  unfold Machine.sawPoison; split; exacts [hu.addConds, hu]
theorem Local.beside {t : State} (h : OnlyTouches besideArrays u t) : Local a s t := hu.trans (.of_only h)
theorem Local.same {t : State} (arr : t.arrays = u.arrays) (ring : t.rings = u.rings) : Local a s t := hu.trans ⟨fun _ _ => by rw [arr], .inl (by rw [arr]), fun _ _ _ => by rw [ring]⟩
theorem Local.updPart {p : PartId} {f : Part → Part} : Local a s (u.updPart p f) := hu.same rfl rfl
theorem Local.countRemote {l : List Area} : Local a s (countRemote a l u) := hu.beside (countRemote_only (.refl _ _) (by decide))
theorem Local.finishArray : Local a s (finishArray a u) := by
  unfold Machine.finishArray
  split
  · exact hu.trans ((updRun_local _).trans (updArray_local (.inr rfl)))
  · exact hu
theorem Local.settleStop {e : Nat} : Local a s (settleStop a e u) := hu.updEntry
theorem Local.raiseDispute {e : Nat} : Local a s (raiseDispute a e u) := by
  unfold Machine.raiseDispute
  dsimp only
  split; exacts [hu.updEntry, hu.updEntry.updArray]
theorem Local.commitRows {e n : Nat} : Local a s (commitRows a e n u) := hu.updEntry.settleStop
theorem Local.dropRows {e m : Nat} : Local a s (dropRows a e m u) := hu.updArray
theorem Local.openGate {e : Nat} : Local a s (openGate a e u) := by
  refine Local.finishArray ?_
  induction groupOf (entriesOf u a) e generalizing u with
  | nil => exact hu
  | cons i l ih => exact ih hu.updEntry
theorem Local.foldl {α : Type} {f : State → α → State} {l : List α} (hf : ∀ v x, Local a s v → Local a s (f v x)) : Local a s (l.foldl f u) := by
  induction l generalizing u with
  | nil => exact hu
  | cons x l ih => exact ih (hf _ _ hu)

end

/-! What a change leaves of the entries of the list that an array runs. -/

/-- What `view` shows of each entry of the list on `a` is as it was. -/
def Keeps {β : Type} (view : EntryRun → β) (a : ArrayId) (s t : State) : Prop := (entriesOf t a).map view = (entriesOf s a).map view

theorem entriesOf_congr {a : ArrayId} {s t : State} (cur : t.arrays[a].cur = s.arrays[a].cur) (ring : t.rings = s.rings) : entriesOf t a = entriesOf s a := by
  unfold entriesOf hereRun; rw [cur, ring]

theorem partHere_congr {a : ArrayId} {s t : State} (cur : t.arrays[a].cur = s.arrays[a].cur) : partHere t a = partHere s a := by
  unfold partHere; rw [cur]

theorem map_modify_of_eq {α β : Type} {view : α → β} {f : α → α} (l : List α) (i : Nat) (h : ∀ x ∈ l[i]?, view (f x) = view x) : (l.modify i f).map view = l.map view := by
  apply List.ext_getElem?
  intro j
  simp only [List.getElem?_map, List.getElem?_modify]
  by_cases e : i = j
  · subst e
    cases hx : l[i]? with
    | none => simp
    | some x => simpa using h x hx
  · simp [e]

section
variable {β : Type} {view : EntryRun → β} {a : ArrayId} {s t u : State}

theorem Keeps.refl (view : EntryRun → β) (a : ArrayId) (s : State) : Keeps view a s s := rfl
theorem Keeps.trans (h : Keeps view a s t) (k : Keeps view a t u) : Keeps view a s u := Eq.trans k h
theorem Keeps.same (cur : t.arrays[a].cur = s.arrays[a].cur) (ring : t.rings = s.rings) : Keeps view a s t := by
  unfold Keeps; rw [entriesOf_congr cur ring]
theorem updEntry_keeps {e : Nat} {f : EntryRun → EntryRun} (hf : ∀ x, entryAt s a e = some x → view (f x) = view x) : Keeps view a s (updEntry a e f s) := by
  unfold Keeps
  rw [entriesOf_updEntry]
  exact map_modify_of_eq _ _ hf

/-- What can be seen through a view stands too. -/
theorem Keeps.through {γ : Type} (h : Keeps view a s t) (f : β → γ) : Keeps (fun x => f (view x)) a s t := by
  simpa only [Keeps, List.map_map, Function.comp_def] using congrArg (List.map f) h

/-- An entry shows afterwards what it showed before. -/
theorem Keeps.entryAt (h : Keeps view a s t) {e : Nat} {x : EntryRun} (hx : entryAt s a e = some x) : ∃ y, entryAt t a e = some y ∧ view y = view x := by
  have at_e := congrArg (fun l => l[e]?) h
  simp only [List.getElem?_map] at at_e
  unfold Machine.entryAt at hx ⊢
  simpa [hx] using at_e

end

/-! Movers. -/

/-- An entry without what a running transfer changes in its own. -/
def EntryRun.sansTransfer (x : EntryRun) : EntryRun :=
  match x.desc with
  | .move _ => { x with done := 0, conds := [], selfPoison := [], stopped := false }
  | _ => x

theorem EntryRun.sansTransfer_desc (x : EntryRun) : x.sansTransfer.desc = x.desc := by
  unfold EntryRun.sansTransfer; split <;> rfl

/-- A pass is not changed by transfers. -/
theorem EntryRun.eq_of_sansTransfer {x y : EntryRun} {d : PassDesc} (hx : x.desc = .pass d) (h : y.sansTransfer = x.sansTransfer) : y = x := by
  have hy : y.desc = .pass d := by rw [← y.sansTransfer_desc, h, x.sansTransfer_desc, hx]
  simpa only [EntryRun.sansTransfer, hx, hy] using h

/-- What transfers that run on do to the state: on their array they write the store and the row-statistic buffer, and in the list their own progress. -/
structure MoverWork (a : ArrayId) (s t : State) : Prop where
  stays : Local a s t
  here : t.arrays[a] = { s.arrays[a] with store := t.arrays[a].store, rowbuf := t.arrays[a].rowbuf }
  entries : Keeps EntryRun.sansTransfer a s t

section
variable {a : ArrayId} {s t u : State}

theorem MoverWork.refl (a : ArrayId) (s : State) : MoverWork a s s := ⟨.refl a s, rfl, .refl _ a s⟩
theorem MoverWork.trans (h : MoverWork a s t) (k : MoverWork a t u) : MoverWork a s u :=
  ⟨h.stays.trans k.stays, by rw [k.here, h.here], h.entries.trans k.entries⟩
theorem MoverWork.same (arr : t.arrays = s.arrays) (ring : t.rings = s.rings) : MoverWork a s t :=
  ⟨(Local.refl a s).same arr ring, by rw [arr], .same (by rw [arr]) ring⟩
theorem MoverWork.writes (f g : ArrayEng → List (Nat × A48)) : MoverWork a s (s.updArray a (fun x => { x with store := f x, rowbuf := g x })) :=
  ⟨updArray_local (.inl rfl), by rw [updArray_at], .same (by rw [updArray_at]) rfl⟩

theorem MoverWork.cur (h : MoverWork a s t) : t.arrays[a].cur = s.arrays[a].cur := by rw [h.here]

/-- A pass stands as it was. -/
theorem Keeps.pass (h : Keeps EntryRun.sansTransfer a s t) {e : Nat} {x : EntryRun} {d : PassDesc} (hx : Machine.entryAt s a e = some x) (hd : x.desc = .pass d) : Machine.entryAt t a e = some x := by
  obtain ⟨y, hy, same⟩ := h.entryAt hx
  rw [hy, EntryRun.eq_of_sansTransfer hd same]
theorem MoverWork.pass (h : MoverWork a s t) {e : Nat} {x : EntryRun} {d : PassDesc} (hx : entryAt s a e = some x) (hd : x.desc = .pass d) : entryAt t a e = some x := h.entries.pass hx hd

/-- Entry `e` of the list on `a` is a transfer. -/
def MoverAt (s : State) (a : ArrayId) (e : Nat) : Prop := ∃ x d, entryAt s a e = some x ∧ x.desc = .move d

/-- A transfer is still one. -/
theorem MoverWork.move (h : MoverWork a s t) {e : Nat} (mover : MoverAt s a e) : MoverAt t a e := by
  obtain ⟨x, d, hx, hd⟩ := mover
  obtain ⟨y, hy, same⟩ := h.entries.entryAt hx
  exact ⟨y, d, hy, by rw [← y.sansTransfer_desc, same, x.sansTransfer_desc, hd]⟩

theorem putWrites_work (s : State) (v : VM) : MoverWork a s (s.putWrites v) := .same (putWrites_arrays ..) (putWrites_rings ..)

theorem readSource_work {p faults w off len} : MoverWork a s (readSource s a p faults w off len).1 := by
  have h : OnlyTouches besideArrays s (readSource s a p faults w off len).1 := by apply readSource_only (.refl _ _) <;> decide
  exact .same (h.arrays_eq (by decide)) (h.rings_eq (by decide))

theorem writeDest_work {p w off r own} : MoverWork a s (writeDest s a p w off r own).1 := by
  unfold writeDest
  dsimp only
  split
  · exact .same rfl rfl
  · split
    · split <;> exact .same rfl rfl
    · split
      · exact putWrites_work ..
      all_goals exact .same rfl rfl
  · exact .writes _ (·.rowbuf)
  · exact .writes (·.store) _
  · exact .refl a s

/-- The progress of a transfer is written in its own entry. -/
theorem updEntry_work {e : Nat} {f : EntryRun → EntryRun} (mover : MoverAt s a e)
    (hf : ∀ x : EntryRun, f x = { x with done := (f x).done, conds := (f x).conds, selfPoison := (f x).selfPoison, stopped := (f x).stopped }) : MoverWork a s (updEntry a e f s) := by
  refine ⟨updEntry_local e f, by rw [updEntry_arrays], updEntry_keeps fun x hx => ?_⟩
  obtain ⟨x', d, hx', hd⟩ := mover
  obtain rfl : x' = x := Option.some.inj (hx'.symm.trans hx)
  rw [hf x']
  simp only [EntryRun.sansTransfer, hd]

/-- One piece of a transfer: it is read, written, and counted in the entry `x` that the transfer is (R172). -/
def copyPiece (a : ArrayId) (e : Nat) (d : MoveDesc) (faults : Faults) (n : Nat) (x : EntryRun) (s : State) : State :=
  let row := x.done / d.rowBytes
  let col := x.done % d.rowBytes
  let len := min (min (d.rowBytes - col) (n - x.done)) (destRoom d.dst (row * d.dstPitch + col))
  let p := partHere s a
  let src := readSource s a p faults d.src (row * d.srcPitch + col) len
  let dst := if src.2.bytes.isEmpty then (src.1, none, x.selfPoison) else writeDest src.1 a p d.dst (row * d.dstPitch + col) src.2 x.selfPoison
  let stop : Option Status := match dst.2.1 with | some st => some st | none => src.2.stop
  updEntry a e (fun y => { y with done := if dst.2.1.isSome then y.done else y.done + src.2.bytes.length, selfPoison := dst.2.2, stopped := stop.isSome })
    (addConds a e (src.2.poison ++ stop.toList) dst.1)

theorem copyGo_done {e : Nat} {x : EntryRun} {d faults n} (fuel : Nat) (hx : entryAt s a e = some x) (ended : n ≤ x.done ∨ x.stopped) : copyGo a e d faults n fuel s = s := by
  cases fuel with
  | zero => rfl
  | succ fuel => rw [copyGo]; simp only [hx, if_pos ended]

theorem copyGo_next {e : Nat} {x : EntryRun} {d faults n} (fuel : Nat) (hx : entryAt s a e = some x) (on : ¬(n ≤ x.done ∨ x.stopped)) :
    copyGo a e d faults n (fuel + 1) s = copyGo a e d faults n fuel (copyPiece a e d faults n x s) := by
  rw [copyGo]; simp only [hx, if_neg on]; rfl

theorem copyPiece_work {e : Nat} {d faults n x} (mover : MoverAt s a e) : MoverWork a s (copyPiece a e d faults n x s) := by
  unfold copyPiece
  extract_lets row col len p src dst stop
  have written : MoverWork a s dst.1 := by
    unfold dst
    split
    · exact readSource_work
    · exact readSource_work.trans writeDest_work
  have counted := written.trans (updEntry_work (f := fun x => { x with conds := (src.2.poison ++ stop.toList).foldl (fun c st => addCond st c) x.conds }) (written.move mover) fun _ => rfl)
  exact counted.trans (updEntry_work (counted.move mover) fun _ => rfl)

theorem copyGo_work (e : Nat) (d : MoveDesc) (faults : Faults) (n fuel : Nat) (s : State) (mover : MoverAt s a e) : MoverWork a s (copyGo a e d faults n fuel s) := by
  induction fuel generalizing s with
  | zero => exact .refl a s
  | succ fuel ih =>
    obtain ⟨x, -, hx, -⟩ := id mover
    by_cases ended : n ≤ x.done ∨ x.stopped
    · rw [copyGo_done _ hx ended]; exact .refl a s
    · rw [copyGo_next _ hx ended]
      have piece := copyPiece_work (d := d) (faults := faults) (n := n) (x := x) mover
      exact piece.trans (ih _ (piece.move mover))

theorem copyTo_work (e : Nat) (d : MoveDesc) (faults : Faults) (n : Nat) (mover : MoverAt s a e) : MoverWork a s (copyTo a e d faults n s) := by
  unfold copyTo
  split
  · exact .refl a s
  · exact copyGo_work e d faults _ _ s mover

theorem advanceMovers_work (e : Nat) (areas : List Area) (s : State) : MoverWork a s (advanceMovers a e areas s) := by
  unfold advanceMovers
  induction List.range e generalizing s with
  | nil => exact .refl a s
  | cons i l ih =>
    refine MoverWork.trans ?_ (ih _)
    dsimp only
    split
    · split
      · split
        · exact copyTo_work _ _ _ _ ⟨_, _, ‹_›, ‹_›⟩
        · exact .refl a _
      · exact .refl a _
    · exact .refl a _

end

/-! The quantiser. -/

section
variable {a : ArrayId} {s : State} {e : Nat}

theorem quantWrite_none {d fmt blocks} (hx : entryAt s a e = none) : quantWrite a e d fmt blocks s = s := by unfold quantWrite; simp only [hx]

/-- What the quantiser writes leaves the arrays and the rings, but for the record's poison and the conditions of the entry that it writes for. -/
theorem quantWrite_eq {x : EntryRun} (d : PassDesc) (fmt : Nat) (blocks : List (List A48 × Nat × Nat)) (hx : entryAt s a e = some x) :
    ∃ (u : State) (failed : Bool) (c c' : Status),
      quantWrite a e d fmt blocks s = updEntry a e (fun y => { y with recordPoisoned := y.recordPoisoned || failed, conds := addCond c (addCond c' y.conds) }) u ∧
      u.arrays = s.arrays ∧ u.rings = s.rings := by
  unfold quantWrite
  simp only [hx]
  refine ⟨_, _, _, _, rfl, ?_, ?_⟩
  · rw [updPart_arrays]; exact putWrites_arrays _ _
  · rw [updPart_rings]; exact putWrites_rings _ _

end

/-! The commands of an array. -/

section
variable {a : ArrayId} {s u : State} (hu : Local a s u)
include hu

theorem Local.advanceMovers {e : Nat} {areas : List Area} : Local a s (advanceMovers a e areas u) := hu.trans (advanceMovers_work e areas u).stays
theorem Local.putWrites {v : VM} : Local a s (u.putWrites v) := hu.same (putWrites_arrays ..) (putWrites_rings ..)
theorem Local.fillFeeders {e m : Nat} {d : PassDesc} : Local a s (fillFeeders a e m d u) := by
  unfold Machine.fillFeeders
  refine (Local.updArray (hu.advanceMovers.countRemote) ?_).same rfl rfl
  unfold setFeed; split <;> rfl
theorem Local.bindRow {e d m row} : Local a s (bindRow a e d m row u) := hu.beside (bindRow_only (.refl _ _) (by decide))
theorem Local.pushRow {e m y d c lanes} : Local a s (pushRow a e m y d c lanes u) := hu.countRemote.sawPoison.updArray.updEntry
theorem Local.landRegion {d c m v} : Local a s (landRegion a d c m v u).1 := hu.beside (by apply landRegion_only (.refl _ _) <;> decide)
theorem Local.quantWrite {e d fmt blocks} : Local a s (quantWrite a e d fmt blocks u) := by
  cases hx : entryAt u a e with
  | none => rw [quantWrite_none hx]; exact hu
  | some x =>
    obtain ⟨v, failed, c, c', h, arr, ring⟩ := quantWrite_eq d fmt blocks hx
    rw [h]
    exact (hu.same arr ring).updEntry
theorem Local.rewriteRows {e d c rows} : Local a s (rewriteRows a e d c rows u) := by
  unfold Machine.rewriteRows
  split
  · exact hu
  · split
    · exact hu
    · exact hu.quantWrite
theorem Local.replaceRows {e rows} : Local a s (replaceRows a e rows u) := hu.beside (replaceRows_only (.refl _ _) (by decide))
theorem Local.rerunPass {e} : Local a s (rerunPass a e u) := by
  unfold Machine.rerunPass
  split
  · exact hu
  · split
    · extract_lets rows v final w
      have hw : Local a s w := by
        unfold w
        split
        exacts [(Local.updArray hu).replaceRows, hu.updArray]
      split
      · split
        exacts [hw.rewriteRows, hw]
      · exact hw
    · exact hu
theorem Local.poisonPass {e} : Local a s (poisonPass a e u) := by
  unfold Machine.poisonPass
  split
  · exact hu
  · split
    · extract_lets row v w
      have hv : Local a s v := by
        unfold v
        split
        exacts [hu.updArray, hu]
      have hw : Local a s w := by
        unfold w
        split
        exacts [hv.replaceRows, hv]
      split
      · split
        exacts [hw.rewriteRows, hw]
      · exact hw
    · exact hu
theorem Local.countRerun {v e} : Local a s (countRerun a v e u) := hu.beside (countRerun_only (.refl _ _) (by decide))
theorem Local.auditDispute {st v} : Local a s (auditDispute a st v u) := hu.beside (by apply auditDispute_only (.refl _ _) <;> decide)

theorem Local.passStart {e x d} : Local a s (passStart a e x d u) := by
  unfold Machine.passStart
  extract_lets p prog
  split
  exact hu.updPart.updArray.updEntry.finishArray
theorem Local.loadTile {e w d} : Local a s (loadTile a e w d u) := hu.advanceMovers.countRemote.updArray.updEntry.sawPoison
theorem Local.swapTile {e k t} : Local a s (swapTile a e k t u) := hu.updArray.updEntry
theorem Local.loadVector {e slot w d c} : Local a s (loadVector a e slot w d c u) := hu.advanceMovers.countRemote.updEntry.sawPoison
theorem Local.loadTable {e slot w c} : Local a s (loadTable a e slot w c u) := hu.advanceMovers.countRemote.updArray.updEntry.sawPoison
theorem Local.fillFold {e x d} : Local a s (fillFold a e x d u) := hu.advanceMovers.countRemote.updArray.updEntry.sawPoison
theorem Local.drainOne {e b w upset d} : Local a s (drainOne a e b w upset d u) := by
  unfold Machine.drainOne
  split
  · exact hu
  · next x hx =>
    extract_lets m areas u1 u2 t l row u3 u4 base u5 u6 seen u7 u8 u9
    have h2 : Local a s u2 := by
      unfold u2; split; exacts [hu.advanceMovers, hu.advanceMovers.countRemote]
    have h4 : Local a s u4 := h2.fillFeeders.updArray
    have h5 : Local a s u5 := by unfold u5; split; exacts [h4.updArray, h4]
    have h6 : Local a s u6 := by unfold u6; split; exacts [h5.bindRow, h5]
    have h8 : Local a s u8 := h6.updEntry.sawPoison
    have h9 : Local a s u9 := by
      unfold u9
      split
      · split; exacts [h8.pushRow, h8]
      · exact h8
    split; exacts [h9.raiseDispute, h9]
theorem Local.standaloneOne {e w d c} : Local a s (standaloneOne a e w d c u) := by
  unfold Machine.standaloneOne
  split
  · exact hu
  · extract_lets m got n u1 u2 new all u3 tgt sums lanes u4 u5
    have h2 : Local a s u2 := by
      unfold u2; split; exacts [hu.advanceMovers.countRemote, hu.advanceMovers]
    have h3 : Local a s u3 := h2.updEntry.sawPoison
    split
    · exact h3.updArray
    · exact h3.updEntry.updArray.sawPoison.updEntry.pushRow
theorem Local.landRow {r d c} : Local a s (landRow a r d c u) := by
  unfold Machine.landRow
  extract_lets buf v mem
  have landed : Local a s (mem.foldl (fun (acc : State × Option Status) t => if acc.2.isSome then acc else Machine.landRegion a d c r.m t.2.1 acc.1) (v, none)).1 := by
    refine List.foldlRecOn (motive := fun acc : State × Option Status => Local a s acc.1) mem _ hu.updArray fun acc h t _ => ?_
    split; exacts [h, h.landRegion]
  generalize mem.foldl _ _ = w at landed
  obtain ⟨w, st⟩ := w
  cases st with
  | none => exact landed
  | some st => exact landed.updEntry.dropRows.settleStop
theorem Local.quantOne {r d c} : Local a s (quantOne a r d c u) := by
  refine Local.commitRows ?_
  split; exacts [hu.updArray, hu.updArray.quantWrite]
theorem Local.tileOne {rows tr d c} : Local a s (tileOne a rows tr d c u) := hu.updArray.quantWrite.commitRows
theorem Local.endPass {e x} : Local a s (endPass a e x u) := hu.updPart.updEntry.finishArray
theorem Local.columnDone {e} : Local a s (columnDone a e u) := by
  unfold Machine.columnDone
  extract_lets bad v w
  have hw : Local a s w := by unfold w; split; exacts [hu.updEntry.raiseDispute, hu.updEntry]
  split; exacts [hw.openGate, hw]
theorem Local.decideDispute {orig check f l v} : Local a s (decideDispute a orig check f l v u) := by
  unfold Machine.decideDispute
  extract_lets g phys fr u1 ras st u2 u3 u4 u5 u6 u7
  have h1 : Local a s u1 := hu.foldl fun _ _ h => h.countRerun
  have h3 : Local a s u3 := (h1.same (t := u2) rfl rfl).updPart
  have h4 : Local a s u4 := by
    unfold u4
    repeat' split
    · exact h3
    · exact h3.foldl fun _ _ h => h.rerunPass
    · exact h3.foldl fun _ _ h => h.poisonPass
  have h6 : Local a s u6 := (h4.foldl fun _ _ h => h.updEntry.addConds).updArray
  exact (h6.same (t := u7) rfl rfl).auditDispute.openGate
theorem Local.flushRows {e d} : Local a s (flushRows a e d u) := hu.beside (flushRows_only (.refl _ _) (by decide))

end

/-- A transfer that completes: what it leaves before the array looks for the end of its list. -/
theorem copyTo_local {a : ArrayId} {s : State} {e : Nat} {x : EntryRun} {d d' : MoveDesc} (faults : Faults) (n : Nat) (hx : entryAt s a e = some x) (hd : x.desc = .move d') : Local a s (copyTo a e d faults n s) :=
  (copyTo_work e d faults n ⟨x, d', hx, hd⟩).stays

/-- Every state that `o` answers is `Local`. -/
def Stays (a : ArrayId) (s : State) (o : Res) : Prop := ∀ t, o = .next t → Local a s t

section
variable {a : ArrayId} {s t : State}
theorem need_stays {b : Bool} (h : Local a s t) : Stays a s (need b t) := fun _ e => (need_next.mp e).2 ▸ h
theorem fault_stays {f : Fault} : Stays a s (.fault f) := fun _ e => by cases e
end

section
variable (a : ArrayId) (s : State)

theorem execPassStart_stays (e : Nat) : Stays a s (execPassStart a e s) := by
  unfold execPassStart
  repeat' split
  · exact need_stays (Local.refl a s).passStart
  all_goals exact fault_stays
theorem execStationaryTileLoad_stays (e w : Nat) : Stays a s (execStationaryTileLoad a e w s) := by
  unfold execStationaryTileLoad
  repeat' split
  · exact need_stays (Local.refl a s).loadTile
  all_goals exact fault_stays
theorem execTileLoadDone_stays : Stays a s (execTileLoadDone a s) := by
  unfold execTileLoadDone
  repeat' split
  · exact need_stays (Local.refl a s).swapTile
  all_goals exact fault_stays
theorem execVectorOperandLoad_stays (e : Nat) (slot : Fin 4) (w : Nat) : Stays a s (execVectorOperandLoad a e slot w s) := by
  unfold execVectorOperandLoad
  repeat' split
  · exact need_stays (Local.refl a s).loadVector
  all_goals exact fault_stays
theorem execTableLoad_stays (e : Nat) (slot : Fin 4) (w : Nat) : Stays a s (execTableLoad a e slot w s) := by
  unfold execTableLoad
  repeat' split
  · exact need_stays (Local.refl a s).loadTable
  all_goals exact fault_stays
theorem execFoldHalfFill_stays (e : Nat) : Stays a s (execFoldHalfFill a e s) := by
  unfold execFoldHalfFill
  repeat' split
  · exact need_stays (Local.refl a s).fillFold
  all_goals exact fault_stays
theorem execDrainRow_stays (e b w : Nat) (upset : Upset) : Stays a s (execDrainRow a e b w upset s) := by
  unfold execDrainRow
  repeat' split
  · exact need_stays (Local.refl a s).drainOne
  all_goals exact fault_stays
theorem execChainStandaloneGroup_stays (e w : Nat) : Stays a s (execChainStandaloneGroup a e w s) := by
  unfold execChainStandaloneGroup
  repeat' split
  · exact need_stays (Local.refl a s).standaloneOne
  all_goals exact fault_stays
theorem execRowStatLand_stays : Stays a s (execRowStatLand a s) := by
  unfold execRowStatLand
  repeat' split
  · exact need_stays (Local.refl a s).landRow
  all_goals exact fault_stays
theorem execQuantBlockWrite_stays : Stays a s (execQuantBlockWrite a s) := by
  unfold execQuantBlockWrite
  split
  · exact need_stays (Local.refl a s).quantOne
  · exact fault_stays
theorem execSbTileWrite_stays : Stays a s (execSbTileWrite a s) := by
  unfold execSbTileWrite
  split
  · exact need_stays (Local.refl a s).tileOne
  · exact fault_stays
theorem execColumnCheckDone_stays (e : Nat) : Stays a s (execColumnCheckDone a e s) := by
  unfold execColumnCheckDone
  split
  · exact need_stays (Local.refl a s).columnDone
  · exact fault_stays
theorem execDisputeRerunStart_stays : Stays a s (execDisputeRerunStart a s) := by
  unfold execDisputeRerunStart
  split
  · intro t e; cases e; exact (Local.refl a s).updArray
  · exact fault_stays
theorem execDisputeDecide_stays (o c : Bool) : Stays a s (execDisputeDecide a o c s) := by
  unfold execDisputeDecide
  split
  · exact need_stays (Local.refl a s).decideDispute
  · exact fault_stays
theorem execPassEnd_stays (e : Nat) : Stays a s (execPassEnd a e s) := by
  unfold execPassEnd
  repeat' split
  · exact need_stays (Local.refl a s).endPass
  all_goals exact fault_stays
theorem execMoverStart_stays (e : Nat) : Stays a s (execMoverStart a e s) := need_stays (updEntry_local ..)
theorem execMoverComplete_stays (e : Nat) (faults : Faults) : Stays a s (execMoverComplete a e faults s) := by
  unfold execMoverComplete
  split
  · next x hx =>
    split
    · next d hd =>
      refine need_stays (Local.finishArray (Local.updEntry ?_))
      split
      · exact (Local.refl a s).flushRows.updEntry
      · exact copyTo_local _ _ hx hd
    · exact fault_stays
  · exact fault_stays

end

/-- Every command of an array is made of operations that stay on it. -/
theorem exec_local {c : Instr} {a : ArrayId} {s t : State} (on : arrayOfCommand c = some a) (h : exec c s = .next t) : Local a s t := by
  cases c with
  | passStart _ e => cases on; exact execPassStart_stays a s e t h
  | stationaryTileLoad _ e w => cases on; exact execStationaryTileLoad_stays a s e w t h
  | tileLoadDone _ => cases on; exact execTileLoadDone_stays a s t h
  | vectorOperandLoad _ e slot w => cases on; exact execVectorOperandLoad_stays a s e slot w t h
  | tableLoad _ e slot w => cases on; exact execTableLoad_stays a s e slot w t h
  | foldHalfFill _ e => cases on; exact execFoldHalfFill_stays a s e t h
  | drainRow _ e b w upset => cases on; exact execDrainRow_stays a s e b w upset t h
  | chainStandaloneGroup _ e w => cases on; exact execChainStandaloneGroup_stays a s e w t h
  | rowStatLand _ => cases on; exact execRowStatLand_stays a s t h
  | quantBlockWrite _ => cases on; exact execQuantBlockWrite_stays a s t h
  | sbTileWrite _ => cases on; exact execSbTileWrite_stays a s t h
  | columnCheckDone _ e => cases on; exact execColumnCheckDone_stays a s e t h
  | disputeRerunStart _ => cases on; exact execDisputeRerunStart_stays a s t h
  | disputeDecide _ o c => cases on; exact execDisputeDecide_stays a s o c t h
  | passEnd _ e => cases on; exact execPassEnd_stays a s e t h
  | moverStart _ e => cases on; exact execMoverStart_stays a s e t h
  | moverComplete _ e faults => cases on; exact execMoverComplete_stays a s e faults t h
  | _ => cases on

/-- Settles O21: what a command of an array does is `Local`. -/
theorem arrayCommandsStayOnTheirArrayAndRing : Obligations.ArrayCommandsStayOnTheirArrayAndRing := by
  intro c a s t p r on cur h
  obtain ⟨arr, -, ring⟩ := exec_local on h
  exact ⟨arr, fun p' r' other => ring p' r' fun e => other (Option.some.inj (e.symm.trans cur))⟩

end Sys2Proof.Machine
end

section
/-!
Settles O16: what starts on an array. Each start is `need` of its condition and then a plain change of the array's engines and of one entry of the list, read back by the laws of Laws/Ops.lean.
-/

namespace Sys2Proof.Machine

/-! What an update of the array's engines leaves of the list. -/

section
variable {a : ArrayId} {s : State} {e : Nat}

@[simp] theorem entriesOf_updPart (p : PartId) (f : Part → Part) : entriesOf (s.updPart p f) a = entriesOf s a := entriesOf_congr rfl rfl
theorem entriesOf_updArray {f : ArrayEng → ArrayEng} (cur : (f s.arrays[a]).cur = s.arrays[a].cur) : entriesOf (s.updArray a f) a = entriesOf s a :=
  entriesOf_congr (by rw [updArray_at, cur]) rfl
theorem entryAt_updArray {f : ArrayEng → ArrayEng} (cur : (f s.arrays[a]).cur = s.arrays[a].cur) : entryAt (s.updArray a f) a e = entryAt s a e := by
  unfold entryAt; rw [entriesOf_updArray cur]

/-! The list of a slice. -/

theorem startList_array (p : PartId) (r : RingId) :
    (startList a p r s).arrays[a] = { s.arrays[a].clear with cur := some (p, r), working := [], store := [], rowbuf := [], tables := [], tableClock := 0 } := by
  unfold startList; rw [updRun_arrays, updArray_at]

theorem startList_other_array {p : PartId} {r : RingId} {b : ArrayId} (h : b ≠ a) : (startList a p r s).arrays[b] = s.arrays[b] := by
  unfold startList; rw [updRun_arrays, updArray_other _ _ _ _ h]

theorem startList_other_ring {p p' : PartId} {r r' : RingId} (h : (p', r') ≠ (p, r)) : (startList a p r s).rings[p'][r'] = s.rings[p'][r'] := by
  obtain ⟨-, -, ring⟩ := updRun_local (a := a) (s := s.updArray a fun y => { y.clear with cur := some (p, r), working := [], store := [], rowbuf := [], tables := [], tableClock := 0 })
    (fun x => { x with started := true })
  exact ring p' r' (by rw [updArray_at]; exact fun e => h (Option.some.inj e).symm)

/-! A pass. -/

/-- The state in which a pass has started, before the array looks for the end of its list: the counts of R488, the naming of its tables (R109), and the entry. -/
def passBegun (a : ArrayId) (e : Nat) (x : EntryRun) (d : PassDesc) (s : State) : State :=
  let p := partHere s a
  let prog := match readChain p s.vm x.desc with | (some c, _) => some c | _ => x.chain
  let check := if d.type = .product then checkOn s.parts[p].cls.toNat s.ras.policy[p].toNat d.check else (false, false)
  let s := s.updPart p (fun y => (y.count 0x0F (if check.1 && !d.empty then 1 else 0)).count 0x12 (if check.2 then 1 else 0))
  let names : List (BitVec 64) := match prog with | some c => c.tableSlots.map (fun i => (c.slot i).elemAddr) | none => []
  let s := s.updArray a (fun y => { y with tableClock := y.tableClock + 1, tables := y.tables.map (fun t => if names.contains t.addr then { t with named := y.tableClock + 1 } else t) })
  updEntry a e (fun y => { y with started := true, stamp := s.arrays[a].tableClock, chain := prog, checked := check.1 && !d.empty, rows := min x.skip d.m, quanted := min x.skip d.m, done := y.done + min x.skip d.m, ended := d.empty || (d.raw && d.m ≤ min x.skip d.m) }) s

theorem passStart_eq (x : EntryRun) (d : PassDesc) : passStart a e x d s = finishArray a (passBegun a e x d s) := rfl

theorem passBegun_only (x : EntryRun) (d : PassDesc) : OnlyTouches [.parts, .rings, .arrays] s (passBegun a e x d s) :=
  updEntry_only (State_updArray_only (State_updPart_only (.refl _ s) (by decide)) (by decide)) (by decide)

theorem entryAt_passBegun {x : EntryRun} (d : PassDesc) (hx : entryAt s a e = some x) :
    ∃ y, entryAt (passBegun a e x d s) a e = some y ∧ y.started = true ∧ y.rows = min x.skip d.m ∧ y.done = x.done + min x.skip d.m ∧
      y.ended = (d.empty || (d.raw && decide (d.m ≤ min x.skip d.m))) := by
  unfold passBegun
  rw [entryAt_updEntry_self, entryAt_updArray rfl, entryAt, entriesOf_updPart, ← entryAt, hx]
  exact ⟨_, rfl, rfl, rfl, rfl, rfl⟩

theorem entryAt_passBegun_other {i : Nat} (x : EntryRun) (d : PassDesc) (h : i ≠ e) : entryAt (passBegun a e x d s) a i = entryAt s a i := by
  unfold passBegun
  rw [entryAt_updEntry_other _ _ _ _ _ h, entryAt_updArray rfl, entryAt, entriesOf_updPart, ← entryAt]

end

section
variable {s : State} {a : ArrayId} {e : Nat} {x : EntryRun}

theorem execSliceStartOnArray_of {n p r} (first : (sortKey (fun x : Nat × PartId × RingId => x.1) (waitingOn s a)).head? = some (n, p, r)) (cur : s.arrays[a].cur = none) (adm : s.gov.admission = none) :
    execSliceStartOnArray a s = .next (startList a p r s) := by
  unfold execSliceStartOnArray
  rw [first]
  exact need_of (by simp only [cur, adm, Option.isNone_none, Bool.and_self])

theorem execPassStart_of {d : PassDesc} (hx : entryAt s a e = some x) (hd : x.desc = .pass d) (started : x.started = false) (ended : x.ended = false) (may : passMayStart (entriesOf s a) e d) :
    execPassStart a e s = .next (passStart a e x d s) := by
  unfold execPassStart
  simp only [hx, hd]
  exact need_of (by simp only [started, ended, may, Bool.not_false, Bool.and_self])

theorem moverReady_of {d : MoveDesc} (hx : entryAt s a e = some x) (hd : x.desc = .move d) (started : x.started = false) (few : inFlight (entriesOf s a) < 4)
    (fence : d.fence = true → ∀ y ∈ (entriesOf s a).take e, y.over' = true) : moverReady s a e = true := by
  have hl : (entriesOf s a)[e]? = some x := hx
  unfold moverReady
  simp only [hl, hd, started, few, Bool.not_false, decide_true, Bool.true_and, Bool.or_eq_true, Bool.not_eq_true', List.all_eq_true]
  cases hf : d.fence with
  | false => exact .inl rfl
  | true => exact .inr (fence hf)

end

/-- Settles O16: each start is admitted by its condition, and what it changes reads back. -/
theorem listsPassesAndMoversStart : Obligations.ListsPassesAndMoversStart := by
  intro s a
  refine ⟨fun n p r first cur adm => ?_, fun e x d hx hd started ended may => ?_, fun e x d hx hd started few fence => ?_⟩
  · have run := execSliceStartOnArray_of first cur adm
    refine ⟨_, run, ?_⟩
    rw [startList_array]
    exact ⟨rfl, rfl, rfl, rfl, rfl, fun b hb => startList_other_array hb, fun p' r' h => startList_other_ring h, exec_within s (.sliceStartOnArray a) _ run⟩
  · obtain ⟨y, hy, begun, rows, done, ended'⟩ := entryAt_passBegun d hx
    exact ⟨_, y, (execPassStart_of hx hd started ended may).trans (congrArg _ (passStart_eq x d)), hy, begun, rows, done, ended', fun i hi => entryAt_passBegun_other x d hi, passBegun_only x d⟩
  · have run : execMoverStart a e s = .next (updEntry a e (fun x => { x with started := true }) s) := need_of (moverReady_of hx hd started few fence)
    refine ⟨_, run, by rw [entryAt_updEntry_self, hx]; rfl, fun i hi => entryAt_updEntry_other a e i _ s hi, updEntry_only (.refl _ s) (by decide)⟩

end Sys2Proof.Machine
end

section
/-!
Settles O18: what each load leaves in the array's engines and in its entry. Before a load the movers that write what it reads run on (R174): `fed` is the state that the load then reads from, and `fed_work` says what of the array and of the list still stands there.
-/

namespace Sys2Proof.Machine

/-- The state that a load of these areas reads from: movers have delivered them, and the remote bytes are counted. -/
def fed (a : ArrayId) (e : Nat) (areas : List Area) (s : State) : State := countRemote a areas (advanceMovers a e areas s)

section
variable {a : ArrayId} {s : State} {e : Nat} {areas : List Area}

theorem countRemote_work : MoverWork a s (countRemote a areas s) := .same rfl rfl
theorem fed_work : MoverWork a s (fed a e areas s) := (advanceMovers_work e areas s).trans countRemote_work

theorem MoverWork.partHere {t : State} (h : MoverWork a s t) : partHere t a = partHere s a := partHere_congr h.cur

@[simp] theorem sawPoison_arrays (b : Bool) : (sawPoison a e b s).arrays = s.arrays := by
  unfold sawPoison; split; exacts [addConds_arrays .., rfl]

/-- POISON_IN is the one thing that a poisoned block changes in an entry. -/
theorem entryAt_sawPoison (b : Bool) : entryAt (sawPoison a e b s) a e = (entryAt s a e).map fun x => { x with conds := if b then addCond .poisonIn x.conds else x.conds } := by
  cases b with
  | true => exact entryAt_updEntry_self ..
  | false => exact (Option.map_id' ..).symm

/-! Tiles. -/

theorem execStationaryTileLoad_of {w x d} (hx : entryAt s a e = some x) (hd : x.desc = .pass d) (ready : loadReady s a e x d) : execStationaryTileLoad a e w s = .next (loadTile a e w d s) := by
  unfold execStationaryTileLoad
  simp only [hx, hd]
  exact need_of ready

theorem loadTile_array (w : Nat) (d : PassDesc) :
    (loadTile a e w d s).arrays[a] = { (fed a e (statAreas d) s).arrays[a] with shadow := some (e, d.paneKey, readTile (advanceMovers a e (statAreas d) s).mem (partHere s a) d) } := by
  rw [← (fed_work (s := s) (e := e) (areas := statAreas d)).partHere]
  unfold loadTile
  dsimp only
  rw [sawPoison_arrays, updEntry_arrays, updArray_at]
  rfl

theorem execTileLoadDone_of {k tile d} (shadow : s.arrays[a].shadow = some (e, k, tile)) (hd : (entryAt s a e).bind EntryRun.pass = some d) (boundary : boundaryReached (entriesOf s a) e d) :
    execTileLoadDone a s = .next (swapTile a e k tile s) := by
  unfold execTileLoadDone
  simp only [shadow, hd]
  exact need_of boundary

theorem swapTile_array (k : Nat) (tile : Tile) :
    (swapTile a e k tile s).arrays[a] = { s.arrays[a] with shadow := none, working := (k, tile) :: s.arrays[a].working.filter (fun w => w.1 / 16 = k / 16 && w.1 ≠ k) } := by
  unfold swapTile; rw [updEntry_arrays, updArray_at]

theorem entryAt_swapTile {k tile x} (hx : entryAt s a e = some x) : entryAt (swapTile a e k tile s) a e = some { x with working := true } := by
  unfold swapTile; rw [entryAt_updEntry_self, entryAt_updArray rfl, hx]; rfl

/-! Vectors. -/

theorem execVectorOperandLoad_of {slot : Fin 4} {w x d c} (hx : entryAt s a e = some x) (hd : x.desc = .pass d) (hc : x.chain = some c) (started : x.started = true) (on : x.over' = false)
    (named : c.vectorSlots.contains slot.val) (first : alGet slot.val x.vectors = none) (may : mayRead s a e (vectorAreas d (c.slot slot.val))) :
    execVectorOperandLoad a e slot w s = .next (loadVector a e slot.val w d c s) := by
  unfold execVectorOperandLoad
  simp only [hx, hd, hc]
  exact need_of (by simp only [started, on, named, first, may, Bool.not_false, Option.isNone_none, Bool.and_self])

theorem entryAt_loadVector {slot w : Nat} {x : EntryRun} {d : PassDesc} {c : Chain} (hx : entryAt s a e = some x) (hd : x.desc = .pass d) :
    ∃ y, entryAt (loadVector a e slot w d c s) a e = some y ∧ y.load = x.load + w ∧
      alGet slot y.vectors = some (vectorOperand (advanceMovers a e (vectorAreas d (c.slot slot)) s).mem (partHere s a) d (c.slot slot)) := by
  have work := fed_work (a := a) (s := s) (e := e) (areas := vectorAreas d (c.slot slot))
  rw [← work.partHere, loadVector]
  rw [entryAt_sawPoison, entryAt_updEntry_self, ← fed, work.pass hx hd]
  exact ⟨_, rfl, rfl, alGet_alSet_self ..⟩

/-! Tables. -/

theorem mem_insKey {α : Type} {key : α → Nat} {x y : α} {l : List α} (h : y ∈ insKey key x l) : y = x ∨ y ∈ l := by
  induction l with
  | nil => simpa [insKey] using h
  | cons z r ih =>
    simp only [insKey] at h
    split at h
    · rcases List.mem_cons.mp h with e | e
      · exact .inr (e ▸ List.mem_cons_self)
      · exact (ih e).imp_right (List.mem_cons_of_mem z)
    · simpa using h

theorem mem_sortKey {α : Type} {key : α → Nat} {y : α} {l : List α} (h : y ∈ sortKey key l) : y ∈ l := by
  have gen : ∀ acc : List α, y ∈ l.foldl (fun acc x => insKey key x acc) acc → y ∈ acc ∨ y ∈ l := by
    clear h
    induction l with
    | nil => exact fun _ h => .inl h
    | cons x r ih =>
      intro acc h
      rcases ih _ h with e | e
      · exact (mem_insKey e).elim (fun e => .inr (e ▸ List.mem_cons_self)) .inl
      · exact .inr (List.mem_cons_of_mem x e)
  exact (gen [] h).resolve_left List.not_mem_nil

/-- The table that gives way is held, and is not in use. -/
theorem evictable_spec {ts : List Table} {used : List (BitVec 64)} {o : Table} (h : evictable ts used = some o) : o ∈ ts ∧ used.contains o.addr = false := by
  have held := mem_sortKey (List.mem_of_mem_head? h)
  simpa using held

/-- The tables that stay when another one is loaded. -/
def tablesKept (ts : List Table) (used : List (BitVec 64)) : List Table :=
  if ts.length < 4 then ts else match evictable ts used with | some o => ts.filter (fun x => x.addr ≠ o.addr) | none => ts

theorem tablesKept_length {ts : List Table} {used : List (BitVec 64)} (four : ts.length ≤ 4) (room : ts.length < 4 ∨ (evictable ts used).isSome) : (tablesKept ts used).length < 4 := by
  unfold tablesKept
  split
  · assumption
  · next full =>
    obtain ⟨o, ho⟩ := Option.isSome_iff_exists.mp (room.resolve_left full)
    simp only [ho]
    refine Nat.lt_of_lt_of_le (List.length_filter_lt_length_iff_exists.mpr ⟨o, (evictable_spec ho).1, by simp⟩) four

theorem mem_tablesKept {ts : List Table} {used : List (BitVec 64)} {old : Table} (mem : old ∈ ts) (inUse : used.contains old.addr) : old ∈ tablesKept ts used := by
  unfold tablesKept
  split
  · exact mem
  · split
    · next o ho =>
      refine List.mem_filter.mpr ⟨mem, decide_eq_true fun same => ?_⟩
      rw [same, (evictable_spec ho).2] at inUse
      cases inUse
    · exact mem

theorem EntryRun.left_of_move {x : EntryRun} {d : MoveDesc} (h : x.desc = .move d) : x.left = true := by
  unfold EntryRun.left; simp only [h, Bool.or_true]

/-- Transfers name no table. -/
theorem tablesInUse_sansTransfer (l : List EntryRun) : tablesInUse (l.map EntryRun.sansTransfer) = tablesInUse l := by
  unfold tablesInUse
  induction l with
  | nil => rfl
  | cons x r ih =>
    cases hd : x.desc with
    | move d =>
      have hs : x.sansTransfer.left = true := EntryRun.left_of_move (d := d) (by rw [x.sansTransfer_desc, hd])
      simpa [EntryRun.left_of_move hd, hs] using ih
    | pass d | bad =>
      have same : x.sansTransfer = x := by simp only [EntryRun.sansTransfer, hd]
      simp only [List.map_cons, same, List.filter_cons]
      split
      · rw [List.flatMap_cons, List.flatMap_cons, ih]
      · exact ih

theorem MoverWork.tablesInUse {t : State} (h : MoverWork a s t) : tablesInUse (entriesOf t a) = tablesInUse (entriesOf s a) := by
  rw [← tablesInUse_sansTransfer, h.entries, tablesInUse_sansTransfer]

theorem execTableLoad_of {slot : Fin 4} {w x c} (hx : entryAt s a e = some x) (hc : x.chain = some c) (started : x.started = true) (on : x.over' = false) (named : c.tableSlots.contains slot.val)
    (absent : ∀ t ∈ s.arrays[a].tables, t.addr ≠ (c.slot slot.val).elemAddr)
    (room : s.arrays[a].tables.length < 4 ∨ (evictable s.arrays[a].tables (tablesInUse (entriesOf s a))).isSome) (may : mayRead s a e (tableAreas (c.slot slot.val))) :
    execTableLoad a e slot w s = .next (loadTable a e slot.val w c s) := by
  unfold execTableLoad
  simp only [hx, hc]
  have absent' : s.arrays[a].tables.all (fun t => t.addr ≠ (c.slot slot.val).elemAddr) = true := by simpa only [List.all_eq_true, decide_eq_true_eq] using absent
  have room' : (decide (s.arrays[a].tables.length < 4) || (evictable s.arrays[a].tables (Machine.tablesInUse (entriesOf s a))).isSome) = true := by simpa only [Bool.or_eq_true, decide_eq_true_eq] using room
  exact need_of (by simp only [started, on, named, absent', room', may, Bool.not_false, Bool.and_self])

/-- The table that is loaded stands beside those that stay. -/
theorem loadTable_tables (slot w : Nat) (c : Chain) :
    ∃ tb : Table, tb.addr = (c.slot slot).elemAddr ∧ (loadTable a e slot w c s).arrays[a].tables = tablesKept s.arrays[a].tables (tablesInUse (entriesOf s a)) ++ [tb] := by
  have work := fed_work (a := a) (s := s) (e := e) (areas := tableAreas (c.slot slot))
  have tables : (fed a e (tableAreas (c.slot slot)) s).arrays[a].tables = s.arrays[a].tables := by rw [work.here]
  rw [← work.tablesInUse, ← tables, loadTable]
  dsimp only
  rw [sawPoison_arrays, updEntry_arrays, updArray_at]
  exact ⟨_, rfl, rfl⟩

/-! The fold buffer. -/

theorem execFoldHalfFill_of {x d} (hx : entryAt s a e = some x) (hd : x.desc = .pass d) (ready : foldReady s a e x d) : execFoldHalfFill a e s = .next (fillFold a e x d s) := by
  unfold execFoldHalfFill
  simp only [hx, hd]
  exact need_of ready

/-- Halves of the fold buffer that serve a pass that is not over (R131). -/
def liveHalves (u : State) (a : ArrayId) (l : List (Nat × Nat × List Line)) : List (Nat × Nat × List Line) := l.filter (fun h => !((entryAt u a h.1).map EntryRun.over').getD true)

theorem fillFold_fold {x : EntryRun} {d : PassDesc} :
    let n := min 256 (foldLines d - x.folded)
    ∃ lines, lines.length = n ∧ (fillFold a e x d s).arrays[a].fold = liveHalves (advanceMovers a e (foldAreas d x.folded n) s) a s.arrays[a].fold ++ [(e, x.folded, lines)] := by
  intro n
  have work := fed_work (a := a) (s := s) (e := e) (areas := foldAreas d x.folded n)
  have fold : (fed a e (foldAreas d x.folded n) s).arrays[a].fold = s.arrays[a].fold := by rw [work.here]
  rw [← fold, fillFold]
  rw [sawPoison_arrays, updEntry_arrays, updArray_at]
  exact ⟨_, by rw [List.length_map, List.length_range], rfl⟩

theorem entryAt_fillFold {x : EntryRun} {d : PassDesc} (hx : entryAt s a e = some x) (hd : x.desc = .pass d) :
    ∃ y, entryAt (fillFold a e x d s) a e = some y ∧ y.folded = x.folded + min 256 (foldLines d - x.folded) := by
  have work := fed_work (a := a) (s := s) (e := e) (areas := foldAreas d x.folded (min 256 (foldLines d - x.folded)))
  unfold fillFold
  dsimp only
  rw [entryAt_sawPoison, entryAt_updEntry_self, entryAt_updArray rfl, ← fed, work.pass hx hd]
  exact ⟨_, rfl, rfl⟩

end

/-- Settles O18: each load runs where its operand may be read, and the operand then stands in its place. -/
theorem operandsAreLoaded : Obligations.OperandsAreLoaded := by
  intro s a
  refine ⟨fun e w x d hx hd ready => ?_, fun e k tile d shadow hd boundary => ?_, fun e slot w x d c hx hd hc started on named first may => ?_,
    fun e slot w x c hx hc started on named absent four room may => ?_, fun e x d hx hd ready => ?_⟩
  · have run : exec (.stationaryTileLoad a e w) s = .next (loadTile a e w d s) := execStationaryTileLoad_of hx hd ready
    obtain ⟨others, -, -⟩ := exec_local rfl run
    have working : (fed a e (statAreas d) s).arrays[a].working = s.arrays[a].working := by rw [fed_work.here]
    exact ⟨_, run, by rw [loadTile_array], by rw [loadTile_array, ← working], others⟩
  · have run : exec (.tileLoadDone a) s = .next (swapTile a e k tile s) := execTileLoadDone_of shadow hd boundary
    obtain ⟨others, -, -⟩ := exec_local rfl run
    obtain ⟨x, hx, -⟩ := Option.bind_eq_some_iff.mp hd
    exact ⟨_, _, run, by rw [swapTile_array], by rw [swapTile_array]; simp [alGet], entryAt_swapTile hx, rfl, others, exec_within s (.tileLoadDone a) _ run⟩
  · obtain ⟨y, hy, load, vector⟩ := entryAt_loadVector (slot := slot.val) (w := w) (c := c) hx hd
    exact ⟨_, y, execVectorOperandLoad_of hx hd hc started on named first may, hy, load, vector⟩
  · obtain ⟨tb, addr, tables⟩ := loadTable_tables (a := a) (s := s) (e := e) slot.val w c
    refine ⟨_, tb, execTableLoad_of hx hc started on named absent room may, ?_, addr, ?_, fun old mem inUse => ?_⟩
    · rw [tables]; exact List.mem_append_right _ (List.mem_singleton_self tb)
    · rw [tables, List.length_append]; exact tablesKept_length four room
    · rw [tables]; exact List.mem_append_left _ (mem_tablesKept mem inUse)
  · obtain ⟨lines, len, fold⟩ := fillFold_fold (a := a) (s := s) (e := e) (x := x) (d := d)
    obtain ⟨y, hy, folded⟩ := entryAt_fillFold hx hd
    exact ⟨_, y, lines, execFoldHalfFill_of hx hd ready, fold, len, hy, folded⟩

end Sys2Proof.Machine
end

section
/-!
Settles O19: what a row's way through the array leaves in its entry and in the chain engine. Of the many small changes on the way only one writes an entry's progress, and the others keep it: `Keeps` with the view `EntryRun.progress` says so.
-/

namespace Sys2Proof.Machine

/-! What each operation keeps of the entries. -/

/-- What the counts of a drained row show of an entry. -/
def EntryRun.progress (x : EntryRun) : Nat × Nat × Nat × Nat × Nat × Nat := (x.rows, x.busy, x.bubble, x.stall, x.quanted, x.done)

/-- What the reading of a group shows of an entry. -/
def EntryRun.pace (x : EntryRun) : Nat × Nat := (x.rows, x.stall)

section
variable {β : Type} {view : EntryRun → β} {a : ArrayId} {s : State} {e : Nat}

theorem entryAt_updEntry_of {f : EntryRun → EntryRun} {x : EntryRun} (hx : entryAt s a e = some x) : entryAt (updEntry a e f s) a e = some (f x) := by
  rw [entryAt_updEntry_self, hx]; rfl

theorem updEntry_keeps_of {f : EntryRun → EntryRun} (hf : ∀ x, view (f x) = view x) : Keeps view a s (updEntry a e f s) := updEntry_keeps fun x _ => hf x

theorem updArray_keeps {f : ArrayEng → ArrayEng} (cur : (f s.arrays[a]).cur = s.arrays[a].cur) : Keeps view a s (s.updArray a f) := .same (by rw [updArray_at, cur]) rfl

theorem sawPoison_keeps {b : Bool} (conds : ∀ (x : EntryRun) c, view { x with conds := c } = view x) : Keeps view a s (sawPoison a e b s) := by
  unfold sawPoison
  split
  · exact updEntry_keeps_of fun x => conds x _
  · exact .refl ..

theorem raiseDispute_keeps (failed : ∀ x : EntryRun, view { x with checkFailed := true } = view x) : Keeps view a s (raiseDispute a e s) := by
  unfold raiseDispute
  dsimp only
  have h : Keeps view a s (updEntry a e (fun y => { y with checkFailed := true }) s) := updEntry_keeps_of failed
  split
  · exact h
  · exact h.trans (updArray_keeps rfl)

theorem pushRow_keeps {m y d c lanes} (conds : ∀ (x : EntryRun) c, view { x with conds := c } = view x)
    (counts : ∀ (x : EntryRun) b k l, view { x with chainBusy := b, clamps := k, domain := l } = view x) : Keeps view a s (pushRow a e m y d c lanes s) := by
  unfold pushRow
  extract_lets r n bad u v
  have poison : Keeps view a s u := Keeps.trans (.same rfl rfl) (sawPoison_keeps conds)
  have row : Keeps view a s v := poison.trans (updArray_keeps rfl)
  exact row.trans (updEntry_keeps_of fun x => counts x ..)

theorem fillFeeders_keeps (m : Nat) (d : PassDesc) : Keeps EntryRun.sansTransfer a s (fillFeeders a e m d s) := by
  unfold fillFeeders
  extract_lets l new areas u lines
  have work : MoverWork a s u := fed_work
  have feeders : Keeps EntryRun.sansTransfer a u (u.updArray a (setFeed d ((feedOf u.arrays[a] d).filter (fun f => f.entry ≠ e) ++ lines))) := updArray_keeps (by unfold setFeed; split <;> rfl)
  exact (work.entries.trans feeders).trans (.same rfl rfl)

end

/-! Draining. -/

section
variable {a : ArrayId} {s : State} {e : Nat} {x : EntryRun} {d : PassDesc}

theorem execDrainRow_of {b w u} (hx : entryAt s a e = some x) (hd : x.desc = .pass d) (ready : drainReady s a e x d) : execDrainRow a e b w u s = .next (drainOne a e b w u d s) := by
  unfold execDrainRow
  simp only [hx, hd]
  exact need_of ready

theorem progress_drainOne {b w : Nat} {upset : Upset} (hx : entryAt s a e = some x) (hd : x.desc = .pass d) :
    ∃ y, entryAt (drainOne a e b w upset d s) a e = some y ∧ y.progress = (x.rows + 1, x.busy + (if d.needsTile then 1 else 0), x.bubble + b, x.stall + w, x.quanted, x.done) := by
  unfold drainOne
  simp -zeta only [hx]
  extract_lets m areas u1 u2 t l row u3 u4 base u5 u6 seen u7 u8 u9
  have k2 : Keeps EntryRun.sansTransfer a s u2 := by
    unfold u2
    split
    · exact (advanceMovers_work ..).entries
    · exact ((advanceMovers_work ..).trans countRemote_work).entries
  have k4 : Keeps EntryRun.sansTransfer a s u4 := (k2.trans (fillFeeders_keeps _ d)).trans (updArray_keeps rfl)
  have k5 : Keeps EntryRun.sansTransfer a s u5 := by
    unfold u5
    split
    exacts [k4.trans (updArray_keeps rfl), k4]
  have k6 : Keeps EntryRun.sansTransfer a s u6 := by
    unfold u6
    split
    · have beside : OnlyTouches [.bind] u5 (bindRow a e d m row u5) := bindRow_only (.refl _ _) (by decide)
      exact k5.trans (.same (by rw [beside.arrays_eq (by decide)]) (beside.rings_eq (by decide)))
    · exact k5
  have k8 : Keeps EntryRun.progress a u7 u8 := sawPoison_keeps fun _ _ => rfl
  have k9 : Keeps EntryRun.progress a u7 u9 := by
    unfold u9
    split
    · split
      exacts [k8.trans (pushRow_keeps (fun _ _ => rfl) fun _ _ _ _ => rfl), k8]
    · exact k8
  have before := k6.pass hx hd
  split
  · exact (k9.trans (raiseDispute_keeps fun _ => rfl)).entryAt (entryAt_updEntry_of before)
  · exact k9.entryAt (entryAt_updEntry_of before)

/-! Standalone chain passes. -/

theorem execChainStandaloneGroup_of {w c} (hx : entryAt s a e = some x) (hd : x.desc = .pass d) (hc : x.chain = some c) (ready : groupReady s a e x d) :
    execChainStandaloneGroup a e w s = .next (standaloneOne a e w d c s) := by
  unfold execChainStandaloneGroup
  simp only [hx, hd, hc]
  exact need_of ready

theorem sourceGroup_length (u : State) (m j n : Nat) : (sourceGroup u a d m j n).length = n := by
  unfold sourceGroup storeRead
  split <;> rw [List.length_map, List.length_range]

theorem pushRow_array {m y c lanes} : (pushRow a e m y d c lanes s).arrays[a] =
    { s.arrays[a] with rows := s.arrays[a].rows ++ [{ entry := e, m := m, lanes := (rowThrough s a y d c m lanes).lanes, stats := (rowThrough s a y d c m lanes).stats }] } := by
  unfold pushRow
  dsimp only
  rw [updEntry_arrays, updArray_at, sawPoison_arrays]
  rfl

/-- A group has entered: until the row is whole the groups wait, and the last one sends the row on (R117). -/
def GroupTaken (a : ArrayId) (e w width : Nat) (x : EntryRun) (s t : State) : Prop :=
  ∃ y, entryAt t a e = some y ∧ y.stall = x.stall + w ∧
    (if s.arrays[a].group.length + 256 < width then t.arrays[a].group.length = s.arrays[a].group.length + 256 ∧ t.arrays[a].rows = s.arrays[a].rows ∧ y.rows = x.rows
     else t.arrays[a].group = [] ∧ t.arrays[a].rows.length = s.arrays[a].rows.length + 1 ∧ y.rows = x.rows + 1)

theorem standaloneOne_takes {w : Nat} {c : Chain} (hx : entryAt s a e = some x) (hd : x.desc = .pass d) : GroupTaken a e w d.width x s (standaloneOne a e w d c s) := by
  unfold standaloneOne
  simp -zeta only [hx]
  extract_lets m got n u1 u2 new all u3 tgt sums lanes u4 u5
  have work : MoverWork a s u2 := by
    unfold u2
    split
    · exact (advanceMovers_work ..).trans countRemote_work
    · exact advanceMovers_work ..
  have rows : u3.arrays[a].rows = s.arrays[a].rows := by
    unfold u3; rw [sawPoison_arrays, updEntry_arrays, work.here]
  have stalled : ∃ y, entryAt u3 a e = some y ∧ y.pace = (x.rows, x.stall + w) :=
    Keeps.entryAt (view := EntryRun.pace) (sawPoison_keeps fun _ _ => rfl) (entryAt_updEntry_of (work.pass hx hd))
  have len : all.length = got.length + min 256 (d.width - got.length) := by
    rw [List.length_append, sourceGroup_length]
  obtain ⟨y, hy, same⟩ := stalled
  by_cases short : got.length + 256 < d.width
  · have part : all.length < d.width := by omega
    rw [if_pos part]
    refine ⟨y, (entryAt_updArray rfl).trans hy, (Prod.mk.inj same).2, ?_⟩
    rw [if_pos short, updArray_at]
    exact ⟨by rw [len, Nat.min_eq_left (by omega)], rows, (Prod.mk.inj same).1⟩
  · have whole : ¬ all.length < d.width := by omega
    have k4 : Keeps EntryRun.pace a u3 u4 := updEntry_keeps_of fun _ => rfl
    have cleared : Keeps EntryRun.pace a u4 (u4.updArray a fun y => { y with group := [] }) := updArray_keeps rfl
    have k5 : Keeps EntryRun.pace a u3 u5 := (k4.trans cleared).trans (sawPoison_keeps fun _ _ => rfl)
    obtain ⟨z, hz, same'⟩ := k5.entryAt hy
    have pushed : Keeps EntryRun.pace a _ (pushRow a e m x d c lanes (updEntry a e (fun y => { y with rows := m + 1 }) u5)) := pushRow_keeps (fun _ _ => rfl) fun _ _ _ _ => rfl
    obtain ⟨v, hv, same''⟩ := pushed.entryAt (entryAt_updEntry_of hz)
    have group : u5.arrays[a] = { u3.arrays[a] with group := [] } := by
      unfold u5 u4; rw [sawPoison_arrays, updArray_at, updEntry_arrays]
    rw [if_neg whole]
    refine ⟨v, hv, ?_, ?_⟩
    · exact (Prod.mk.inj same'').2.trans ((Prod.mk.inj same').2.trans (Prod.mk.inj same).2)
    · rw [if_neg short, pushRow_array, updEntry_arrays, group]
      exact ⟨rfl, by rw [List.length_append, rows]; rfl, (Prod.mk.inj same'').1⟩

/-! Statistics. -/

theorem execRowStatLand_of {r c} (row : s.arrays[a].rows.find? (fun r => !r.stats.isEmpty) = some r) (hd : (entryAt s a r.entry).bind EntryRun.pass = some d)
    (hc : (entryAt s a r.entry).bind EntryRun.chain = some c) (may : mayWrite s a r.entry (statRegion d c r.m 1)) : execRowStatLand a s = .next (landRow a r d c s) := by
  unfold execRowStatLand
  simp only [row, hd, hc]
  exact need_of may

@[simp] theorem settleStop_arrays : (settleStop a e s).arrays = s.arrays := updEntry_arrays ..

theorem landRegion_arrays (c : Chain) (m : Nat) (v : A48) : (landRegion a d c m v s).1.arrays = s.arrays := by
  have h : OnlyTouches besideArrays s (landRegion a d c m v s).1 := by apply landRegion_only (.refl _ _) <;> decide
  exact h.arrays_eq (by decide)

/-- A region in the window takes every statistic (R113). -/
theorem landRegion_window {c : Chain} (m : Nat) (v : A48) (window : spaceOf c.rowstat = 1) : (landRegion a d c m v s).2 = none := by
  unfold landRegion
  dsimp only
  rw [if_pos window]

/-- The statistics of a row, one after another into the region: the arrays stand, and a region in the window refuses none. -/
theorem landRegions_spec (c : Chain) (m : Nat) (l : List (Option Nat × A48 × Bool)) (s : State) :
    let landed := l.foldl (fun (acc : State × Option Status) t => if acc.2.isSome then acc else landRegion a d c m t.2.1 acc.1) (s, none)
    landed.1.arrays = s.arrays ∧ (spaceOf c.rowstat = 1 → landed.2 = none) := by
  refine List.foldlRecOn (motive := fun acc : State × Option Status => acc.1.arrays = s.arrays ∧ (spaceOf c.rowstat = 1 → acc.2 = none)) l _ ⟨rfl, fun _ => rfl⟩ fun acc h t _ => ?_
  split
  · exact h
  · exact ⟨(landRegion_arrays c m t.2.1).trans h.1, fun window => landRegion_window m t.2.1 window⟩

theorem landRow_array (r : ChainRow) (c : Chain) :
    (landRow a r d c s).arrays[a].store = s.arrays[a].store ∧
    (spaceOf c.rowstat = 1 → (landRow a r d c s).arrays[a].rows = s.arrays[a].rows.map (fun q => if q.entry = r.entry ∧ q.m = r.m then { q with stats := [] } else q)) := by
  unfold landRow
  extract_lets buf u mem
  obtain ⟨arrays, window⟩ := landRegions_spec (a := a) (d := d) c r.m mem u
  generalize mem.foldl _ _ = landed at arrays window
  obtain ⟨v, st⟩ := landed
  have here : v.arrays[a] = { s.arrays[a] with rowbuf := buf.foldl (fun l x => alPut .zero x.1 x.2 l) s.arrays[a].rowbuf, rows := s.arrays[a].rows.map (fun q => if q.entry = r.entry ∧ q.m = r.m then { q with stats := [] } else q) } := by
    rw [arrays, updArray_at]
  cases st with
  | none => exact ⟨by rw [here], fun _ => by rw [here]⟩
  | some st =>
    refine ⟨?_, fun space => nomatch window space⟩
    dsimp only
    rw [settleStop_arrays, dropRows, updArray_at, updEntry_arrays, here]

/-! The check gate reads the verdicts of the entries. -/

/-- An entry with nothing but what the gate of a group looks at (R489). -/
def EntryRun.verdict (x : EntryRun) : EntryRun := { desc := x.desc, checked := x.checked, checkDone := x.checkDone, checkFailed := x.checkFailed }

theorem groupStarts_verdict (k : Nat) (l : List EntryRun) : groupStarts k (l.map EntryRun.verdict) = groupStarts k l := by
  unfold groupStarts
  rw [List.zipIdx_map, List.foldl_map]
  rfl

theorem groupOf_verdict (l : List EntryRun) (i : Nat) : groupOf (l.map EntryRun.verdict) i = groupOf l i := by
  unfold groupOf
  simp only [groupStarts_verdict, List.getElem?_map]
  cases l[i]? <;> rfl

theorem gateOpen_verdict (l : List EntryRun) (i : Nat) : gateOpen (l.map EntryRun.verdict) i = gateOpen l i := by
  unfold gateOpen
  rw [groupOf_verdict]
  refine congrArg (List.all _) (funext fun j => ?_)
  rw [List.getElem?_map]
  cases l[j]? <;> rfl

theorem Keeps.gateOpen {t : State} (h : Keeps EntryRun.verdict a s t) (i : Nat) : gateOpen (entriesOf t a) i = gateOpen (entriesOf s a) i := by
  rw [← gateOpen_verdict, h, gateOpen_verdict]

/-! Committing. -/

/-- Rows have left the quantiser: committed, or provisional while the gate of their group is closed (R187, R489). -/
def Committed (s : State) (a : ArrayId) (e n : Nat) (x y : EntryRun) : Prop :=
  y.quanted = x.quanted + n ∧ y.rows = x.rows ∧
  (if x.isProduct && !gateOpen (entriesOf s a) e then y.done = x.done ∧ y.provisional = x.provisional + n else y.done = x.done + n ∧ y.provisional = x.provisional)

theorem Committed.total {n : Nat} {y : EntryRun} (h : Committed s a e n x y) : y.done + y.provisional = x.done + x.provisional + n := by
  obtain ⟨-, -, h⟩ := h
  split at h <;> omega

theorem commitRows_commits (n : Nat) (hx : entryAt s a e = some x) : ∃ y, entryAt (commitRows a e n s) a e = some y ∧ Committed s a e n x y := by
  have hl : (entriesOf s a)[e]? = some x := hx
  have counted := entryAt_updEntry_of (f := fun y => { y with quanted := y.quanted + n, done := if x.isProduct && !gateOpen (entriesOf s a) e then y.done else y.done + n,
                                                               provisional := if x.isProduct && !gateOpen (entriesOf s a) e then y.provisional + n else y.provisional }) hx
  unfold commitRows settleStop
  simp only [hl]
  refine ⟨_, entryAt_updEntry_of counted, ?_⟩
  unfold Committed
  repeat' split
  all_goals exact ⟨rfl, rfl, rfl, rfl⟩

@[simp] theorem commitRows_arrays (n : Nat) : (commitRows a e n s).arrays = s.arrays := (settleStop_arrays).trans (updEntry_arrays ..)

/-! The quantiser's writes. -/

theorem quantWrite_arrays (fmt : Nat) (blocks : List (List A48 × Nat × Nat)) : (quantWrite a e d fmt blocks s).arrays = s.arrays := by
  cases hx : entryAt s a e with
  | none => rw [quantWrite_none hx]
  | some x =>
    obtain ⟨u, failed, c, c', h, arrays, -⟩ := quantWrite_eq d fmt blocks hx
    rw [h, updEntry_arrays, arrays]

/-- An entry without what the quantiser writes in it. -/
def EntryRun.sansRecord (x : EntryRun) : EntryRun := { x with recordPoisoned := false, conds := [] }

theorem quantWrite_keeps (fmt : Nat) (blocks : List (List A48 × Nat × Nat)) : Keeps EntryRun.sansRecord a s (quantWrite a e d fmt blocks s) := by
  cases hx : entryAt s a e with
  | none => rw [quantWrite_none hx]; exact .refl ..
  | some x =>
    obtain ⟨u, failed, c, c', h, arrays, rings⟩ := quantWrite_eq d fmt blocks hx
    rw [h]
    exact Keeps.trans (.same (by rw [arrays]) rings) (updEntry_keeps_of fun _ => rfl)

/-- Rows that are committed once they have been written. -/
theorem commitRows_written {u : State} (n : Nat) (kept : Keeps EntryRun.sansRecord a s u) (hx : entryAt s a e = some x) :
    ∃ y, entryAt (commitRows a e n u) a e = some y ∧ Committed s a e n x y := by
  obtain ⟨z, hz, same⟩ := kept.entryAt hx
  obtain ⟨y, hy, quanted, rows, shut⟩ := commitRows_commits n hz
  have gate : gateOpen (entriesOf u a) e = gateOpen (entriesOf s a) e := Keeps.gateOpen (kept.through EntryRun.verdict) e
  have product : z.isProduct = x.isProduct := (congrArg EntryRun.isProduct same :)
  have done : z.done = x.done := (congrArg EntryRun.done same :)
  have provisional : z.provisional = x.provisional := (congrArg EntryRun.provisional same :)
  rw [gate, product, done, provisional] at shut
  exact ⟨y, hy, quanted.trans (congrArg (EntryRun.quanted · + n) same :), rows.trans (congrArg EntryRun.rows same :), shut⟩

theorem execQuantBlockWrite_of {r c} (row : quantRow s a = some (r, d, c)) (may : c.discards = true ∨ mayWrite s a r.entry (outAreas d c r.m 1)) : execQuantBlockWrite a s = .next (quantOne a r d c s) := by
  unfold execQuantBlockWrite
  simp only [row]
  exact need_of (by simpa only [Bool.or_eq_true] using may)

theorem quantOne_rows (r : ChainRow) (c : Chain) : (quantOne a r d c s).arrays[a].rows = s.arrays[a].rows.filter (fun q => !(q.entry = r.entry && q.m = r.m)) := by
  unfold quantOne
  extract_lets u
  have written : (if c.discards then u else quantWrite a r.entry d c.outFmt (biBlocks d c.outFmt r.m r.lanes) u).arrays = u.arrays := by
    split
    exacts [rfl, quantWrite_arrays ..]
  rw [commitRows_arrays, written, updArray_at]

theorem quantOne_commits (r : ChainRow) (c : Chain) (hx : entryAt s a r.entry = some x) : ∃ y, entryAt (quantOne a r d c s) a r.entry = some y ∧ Committed s a r.entry 1 x y := by
  refine commitRows_written 1 ?_ hx
  split
  · exact updArray_keeps rfl
  · exact (updArray_keeps rfl).trans (quantWrite_keeps ..)

theorem execSbTileWrite_of {rows tr c r} (tile : quantTile s a = some (rows, tr, d, c)) (first : rows.head? = some r) (may : mayWrite s a r.entry (outAreas d c r.m rows.length)) :
    execSbTileWrite a s = .next (tileOne a rows tr d c s) := by
  unfold execSbTileWrite
  simp only [tile, first]
  exact need_of may

theorem tileOne_rows {rows : List ChainRow} {r : ChainRow} (tr : Nat) (c : Chain) (first : rows.head? = some r) :
    (tileOne a rows tr d c s).arrays[a].rows = s.arrays[a].rows.filter (fun q => !(q.entry = r.entry && rows.any (fun k => k.m = q.m))) := by
  have entry : (rows.head?.map (·.entry)).getD 0 = r.entry := by rw [first]; rfl
  unfold tileOne
  dsimp only
  rw [commitRows_arrays, quantWrite_arrays, updArray_at, entry]

theorem tileOne_commits {rows : List ChainRow} {r : ChainRow} (tr : Nat) (c : Chain) (first : rows.head? = some r) (hx : entryAt s a r.entry = some x) :
    ∃ y, entryAt (tileOne a rows tr d c s) a r.entry = some y ∧ Committed s a r.entry rows.length x y := by
  unfold tileOne
  simp only [first]
  exact commitRows_written rows.length ((updArray_keeps rfl).trans (quantWrite_keeps ..)) hx

end

/-- Settles O19: a row that drains or is read counts in its entry and enters the chain engine, its statistics land, and what the quantiser writes leaves the engine and is committed, or provisional behind its gate. -/
theorem rowsDrainAndAreWritten : Obligations.RowsDrainAndAreWritten := by
  intro s a
  refine ⟨fun e b w u x d hx hd ready => ?_, fun e w x d c hx hd hc ready => ?_, fun r d c row hd hc may => ?_, fun r d c x row hx may => ?_, fun rows tr d c r x tile first hx may => ?_⟩
  · obtain ⟨y, hy, progress⟩ := progress_drainOne (b := b) (w := w) (upset := u) hx hd
    simp only [EntryRun.progress, Prod.mk.injEq] at progress
    obtain ⟨rows, busy, bubble, stall, quanted, done⟩ := progress
    exact ⟨_, y, execDrainRow_of hx hd ready, hy, rows, busy, bubble, stall, quanted, done⟩
  · obtain ⟨y, taken⟩ := standaloneOne_takes (w := w) (c := c) hx hd
    exact ⟨_, y, execChainStandaloneGroup_of hx hd hc ready, taken⟩
  · obtain ⟨store, rows⟩ := landRow_array (a := a) (s := s) (d := d) r c
    exact ⟨_, execRowStatLand_of row hd hc may, store, rows⟩
  · obtain ⟨y, hy, quanted, rows, shut⟩ := quantOne_commits (d := d) r c hx
    exact ⟨_, y, execQuantBlockWrite_of row may, quantOne_rows r c, hy, quanted, rows, shut⟩
  · obtain ⟨y, hy, committed⟩ := tileOne_commits (d := d) tr c first hx
    exact ⟨_, y, execSbTileWrite_of tile first may, tileOne_rows tr c first, hy, committed.1, committed.2.1, committed.total⟩

end Sys2Proof.Machine
end

section
/-!
Settles O20: how a pass, a column check, a dispute and a transfer end. Each end is a change of the entry and of what the rule names, and then `finishArray` or `openGate`, which touch the list and the array's current slice alone.
-/

namespace Sys2Proof.Machine

section
variable {a : ArrayId} {s : State} {e : Nat} {x : EntryRun}

@[simp] theorem updEntry_parts (f : EntryRun → EntryRun) : (updEntry a e f s).parts = s.parts :=
  (updEntry_only (.refl [.rings] s) (by decide)).parts_eq (by decide)

/-! Passes. -/

theorem execPassEnd_of {d : PassDesc} (hx : entryAt s a e = some x) (hd : x.desc = .pass d) (started : x.started = true) (ended : x.ended = false) (left : x.left = true) :
    execPassEnd a e s = .next (endPass a e x s) := by
  unfold execPassEnd
  simp only [hx, hd]
  exact need_of (by simp only [started, ended, left, Bool.not_false, Bool.and_self])

/-- The state in which a pass has ended, before the array looks for the end of its list (R58, R118). -/
def passOver (a : ArrayId) (e : Nat) (x : EntryRun) (s : State) : State :=
  updEntry a e (fun y => { y with ended := true, busy := 0, bubble := 0, stall := 0, load := 0, chainBusy := 0, clamps := 0, domain := 0 }) (addCounts (partHere s a) x s)

theorem endPass_eq : endPass a e x s = finishArray a (passOver a e x s) := rfl

theorem passOver_only : OnlyTouches [.parts, .rings] s (passOver a e x s) :=
  updEntry_only (addCounts_only (.refl _ s) (by decide)) (by decide)

theorem entryAt_passOver (hx : entryAt s a e = some x) : ∃ y, entryAt (passOver a e x s) a e = some y ∧ y.ended = true ∧ y.done = x.done ∧ y.conds = x.conds := by
  refine ⟨_, entryAt_updEntry_of (x := x) ?_, rfl, rfl, rfl⟩
  rw [addCounts, entryAt, entriesOf_updPart, ← entryAt, hx]

theorem passOver_part : (passOver a e x s).parts[partHere s a] =
    (((((((s.parts[partHere s a].count 5 x.busy).count 6 x.bubble).count 7 x.stall).count 8 x.load).count 9 x.chainBusy).count 0xA x.clamps).count 0xB x.domain) := by
  rw [passOver, updEntry_parts, addCounts, updPart_at]

theorem passOver_other_part {p : PartId} (h : p ≠ partHere s a) : (passOver a e x s).parts[p] = s.parts[p] := by
  rw [passOver, updEntry_parts, addCounts, updPart_other _ _ _ _ h]

/-! Column checks. -/

theorem execColumnCheckDone_of (hx : entryAt s a e = some x) (checked : x.checked = true) (first : x.checkDone = false) (started : x.started = true) (drained : x.drained = true) :
    execColumnCheckDone a e s = .next (columnDone a e s) := by
  unfold execColumnCheckDone
  simp only [hx]
  exact need_of (by simp only [checked, first, started, drained, Bool.not_false, Bool.and_self])

theorem columnDone_passed (hx : entryAt s a e = some x) (passed : columnFails x.colDiff = false) :
    let u := updEntry a e (fun y => { y with checkDone := true }) s
    columnDone a e s = if gateOpen (entriesOf u a) e then openGate a e u else u := by
  unfold columnDone
  simp only [hx, passed]
  rfl

theorem mem_of_alGet {α : Type} {k : Nat} {v : α} {l : List (Nat × α)} (h : alGet k l = some v) : (k, v) ∈ l := by
  induction l with
  | nil => cases h
  | cons z r ih =>
    obtain ⟨j, w⟩ := z
    rw [alGet] at h
    split at h
    · next same => cases h; exact same ▸ List.mem_cons_self
    · exact List.mem_cons_of_mem _ (ih h)

/-- An entry stands in its own group. -/
theorem mem_groupOf_self (l : List EntryRun) (e : Nat) : e ∈ groupOf l e := by
  unfold groupOf
  split
  · dsimp only
    split
    · next g hg => exact List.mem_map.mpr ⟨(e, g), List.mem_filter.mpr ⟨mem_of_alGet hg, by simp⟩, rfl⟩
    · exact List.mem_singleton_self e
  · exact List.mem_singleton_self e

/-- A failed check closes the gate of its group. -/
theorem gateOpen_of_failed (hx : entryAt s a e = some x) (checked : x.checked = true) (failed : x.checkFailed = true) : gateOpen (entriesOf s a) e = false := by
  have hl : (entriesOf s a)[e]? = some x := hx
  refine List.all_eq_false.mpr ⟨e, mem_groupOf_self _ e, ?_⟩
  simp [hl, checked, failed]

theorem raiseDispute_disputes : (raiseDispute a e s).arrays[a].dispute.isSome = true := by
  unfold raiseDispute
  dsimp only
  split
  · assumption
  · rw [updArray_at]; rfl

theorem entryAt_raiseDispute (hx : entryAt s a e = some x) : entryAt (raiseDispute a e s) a e = some { x with checkFailed := true } := by
  unfold raiseDispute
  dsimp only
  split
  · exact entryAt_updEntry_of hx
  · rw [entryAt_updArray rfl]; exact entryAt_updEntry_of hx

theorem columnDone_failed (hx : entryAt s a e = some x) (checked : x.checked = true) (fails : columnFails x.colDiff = true) :
    columnDone a e s = raiseDispute a e (updEntry a e (fun y => { y with checkDone := true }) s) := by
  have closed := gateOpen_of_failed (entryAt_raiseDispute (entryAt_updEntry_of (f := fun y => { y with checkDone := true }) hx)) checked rfl
  unfold columnDone
  simp only [hx, fails, if_true, closed]
  rfl

/-! Disputes. -/

theorem execDisputeRerunStart_of {f l u} (open' : s.arrays[a].dispute = some (f, l, none)) (spare : rerunSpare s a = some u) :
    execDisputeRerunStart a s = .next (s.updArray a (fun y => { y with dispute := some (f, l, some u) })) := by
  unfold execDisputeRerunStart
  simp only [open', spare]

theorem execDisputeDecide_of {f l u o c} (open' : s.arrays[a].dispute = some (f, l, some u)) (one : (o && c) = false) (finished : groupFinished s a f) :
    execDisputeDecide a o c s = .next (decideDispute a o c f l u s) := by
  unfold execDisputeDecide
  simp only [open']
  exact need_of (by simp only [one, finished, Bool.not_false, Bool.and_self])

theorem foldl_updEntry_arrays {α : Type} (l : List α) {g : State → α → State} (hg : ∀ u x, (g u x).arrays = u.arrays) : (l.foldl g s).arrays = s.arrays :=
  List.foldlRecOn (motive := fun u : State => u.arrays = s.arrays) l g rfl fun u h x _ => (hg u x).trans h

/-- Once its list is done an array gives up its slice, and nothing else of its engines changes. -/
theorem finishArray_here : (finishArray a s).arrays[a] = { s.arrays[a] with cur := (finishArray a s).arrays[a].cur } := by
  unfold finishArray
  split
  · rw [updArray_at, updRun_arrays]
  · rfl

theorem openGate_here : (openGate a e s).arrays[a] = { s.arrays[a] with cur := (openGate a e s).arrays[a].cur } := by
  unfold openGate
  rw [finishArray_here, foldl_updEntry_arrays _ fun _ _ => updEntry_arrays ..]

theorem openGate_beside : OnlyTouches [.rings, .arrays] s (openGate a e s) := openGate_only (.refl _ s) (by decide) (by decide)

/-- A strike enters no audit. -/
theorem strike_auditCount (frame u detail : Nat) (r : Ras) : (r.strike frame u detail).auditCount = r.auditCount := by
  unfold Ras.strike Ras.suspect
  dsimp only
  split <;> rfl

theorem unresolved_updUnit (r : Ras) (u : Nat) : ((r.updUnit u (fun x => { x with unresolved := 0 })).unit u).unresolved = 0 := by
  unfold Ras.updUnit Ras.setUnit
  rw [Ras.unit, alGet_alSet_self]
  rfl

theorem decideDispute_ends (orig check : Bool) (f l u : Nat) :
    (decideDispute a orig check f l u s).arrays[a].dispute = none ∧ ((decideDispute a orig check f l u s).ras.unit (physOf s a)).unresolved = 0 := by
  unfold decideDispute
  extract_lets g phys fr u1 ras st u2 u3 u4 u5 u6 u7
  have ras : (openGate a l (auditDispute a st phys u7)).ras = (auditDispute a st phys u7).ras := openGate_beside.ras_eq (by decide)
  have dispute : u6.arrays[a].dispute = none := by unfold u6; rw [updArray_at]
  rw [openGate_here, ras]
  exact ⟨dispute, unresolved_updUnit u6.ras phys⟩

/-- Where the original stands, a dispute changes no byte and enters one audit (R491, R492). -/
theorem decideDispute_original (check : Bool) (f l u : Nat) :
    let t := decideDispute a true check f l u s
    t.ras.auditCount = s.ras.auditCount + 1 ∧ t.mem = s.mem ∧ t.bind = s.bind ∧ t.arrays[a].store = s.arrays[a].store := by
  unfold decideDispute
  extract_lets g phys fr u1 ras st u2 u3 u4 u5 u6 u7 t
  have reread : OnlyTouches [.parts] s u1 := foldl_only (fun _ _ h => countRerun_only h (by decide)) (.refl _ s)
  have strikes : ras.auditCount = s.ras.auditCount := by
    rw [← reread.ras_eq (by decide)]
    exact strike_auditCount ..
  have decided : OnlyTouches [.rings] u3 u5 := foldl_only (fun _ _ h => addConds_only (updEntry_only h (by decide)) (by decide)) (.refl _ u3)
  have gate : OnlyTouches [.rings, .arrays] (auditDispute a st phys u7) t := openGate_beside
  have store : u6.arrays[a].store = s.arrays[a].store := by
    unfold u6
    rw [updArray_at, decided.arrays_eq (by decide), ← reread.arrays_eq (by decide)]
    rfl
  refine ⟨?_, ?_, ?_, ?_⟩
  · rw [gate.ras_eq (by decide)]
    have count : u5.ras.auditCount = ras.auditCount := (congrArg Ras.auditCount (decided.ras_eq (by decide)) :)
    exact congrArg (· + 1) (count.trans strikes)
  · rw [gate.mem_eq (by decide)]
    exact (decided.mem_eq (by decide)).trans (reread.mem_eq (by decide))
  · rw [gate.bind_eq (by decide)]
    exact (decided.bind_eq (by decide)).trans (reread.bind_eq (by decide))
  · unfold t; rw [openGate_here]; exact store

/-! Transfers. -/

theorem execMoverComplete_of {faults d} (hx : entryAt s a e = some x) (hd : x.desc = .move d) (started : x.started = true) (ended : x.ended = false)
    (free : x.stopped = true ∨ moverFree s a e d (d.rows * d.rowBytes)) : execMoverComplete a e faults s = .next (moverEnd a e d faults s) := by
  unfold execMoverComplete
  simp only [hx, hd]
  exact need_of (by simpa only [started, ended, Bool.not_false, Bool.and_self, Bool.true_and, Bool.or_eq_true] using free)

theorem readSource_window {p faults w off len} (window : spaceOf w = 1) :
    ∃ r : SrcRead, readSource s a p faults w off len = (countRemote a [{ space := 1, base := winOf w + off, pitch := 0, count := 1, len := len }] s, r) ∧ r.bytes.length = len ∧ r.stop = none := by
  unfold readSource
  simp only [window]
  exact ⟨_, rfl, by rw [cellsRead, List.length_map, List.length_range], rfl⟩

theorem writeDest_window {p w off r own} (window : spaceOf w = 1) : ∃ (m : Mem) (own' : List (Nat × Nat)), writeDest s a p w off r own = ({ s with mem := m }, none, own') := by
  unfold writeDest
  simp only [window]
  exact ⟨_, _, rfl⟩

/-- A piece from the window to the window moves the transfer on, by no more than is asked, and does not stop it. -/
theorem copyPiece_window {d : MoveDesc} {faults : Faults} {n : Nat} (src : spaceOf d.src = 1) (dst : spaceOf d.dst = 1) (row : 0 < d.rowBytes) (more : x.done < n) (hx : entryAt s a e = some x) :
    ∃ y, entryAt (copyPiece a e d faults n x s) a e = some y ∧ x.done < y.done ∧ y.done ≤ n ∧ y.stopped = false := by
  unfold copyPiece
  extract_lets line col len p rd wr stop
  have room : 0 < destRoom d.dst (line * d.dstPitch + col) := by
    have := Nat.mod_lt (winOf d.dst + (line * d.dstPitch + col)) (show 256 > 0 by omega)
    rw [destRoom, dst, if_neg (by decide)]
    omega
  have positive : 0 < len := by
    have := Nat.mod_lt x.done row
    exact Nat.lt_min.mpr ⟨Nat.lt_min.mpr ⟨Nat.sub_pos_of_lt this, Nat.sub_pos_of_lt more⟩, room⟩
  have within' : len ≤ n - x.done := (Nat.min_le_left _ _).trans (Nat.min_le_right _ _)
  obtain ⟨r, hr, bytes, going⟩ := readSource_window (s := s) (a := a) (p := p) (faults := faults) (off := line * d.srcPitch + col) (len := len) src
  obtain ⟨m, own, hw⟩ := writeDest_window (s := rd.1) (a := a) (p := p) (off := line * d.dstPitch + col) (r := rd.2) (own := x.selfPoison) dst
  have read : rd = _ := hr
  have nonempty : ¬ rd.2.bytes.isEmpty := by
    rw [read, List.isEmpty_iff_length_eq_zero]
    exact bytes ▸ positive.ne'
  have written : wr = _ := (if_neg nonempty).trans hw
  have still : entryAt wr.1 a e = some x := by
    rw [written, read]
    exact (congrArg (·[e]?) (entriesOf_congr rfl rfl)).trans hx
  have moved : (if wr.2.1.isSome then x.done else x.done + rd.2.bytes.length) = x.done + len := by
    rw [written, read, ← bytes]; rfl
  have unstopped : stop = none := by
    unfold stop; rw [written, read]; exact going
  refine ⟨_, entryAt_updEntry_of (entryAt_updEntry_of still), ?_, ?_, by rw [unstopped]; rfl⟩
  · exact (Nat.lt_add_of_pos_right positive).trans_eq moved.symm
  · exact moved.trans_le (Nat.add_le_of_le_sub' more.le within')

/-- A transfer within the window runs to the byte that is asked for. -/
theorem copyGo_window {d : MoveDesc} {faults : Faults} {n fuel : Nat} (src : spaceOf d.src = 1) (dst : spaceOf d.dst = 1) (row : 0 < n → 0 < d.rowBytes) (start : x.done ≤ n) (going : x.stopped = false)
    (enough : n ≤ x.done + fuel) (hx : entryAt s a e = some x) : ∃ y, entryAt (copyGo a e d faults n fuel s) a e = some y ∧ y.done = n ∧ y.stopped = false := by
  induction fuel generalizing s x with
  | zero => exact ⟨x, hx, Nat.le_antisymm start enough, going⟩
  | succ fuel ih =>
    by_cases whole : n ≤ x.done
    · rw [copyGo_done _ hx (.inl whole)]
      exact ⟨x, hx, Nat.le_antisymm start whole, going⟩
    · obtain ⟨y, hy, more, within', going'⟩ := copyPiece_window (faults := faults) src dst (row (by omega)) (Nat.lt_of_not_le whole) hx
      rw [copyGo_next _ hx (by simp only [whole, going, Bool.false_eq_true, or_self, not_false_eq_true])]
      exact ih within' going' (by omega) hy

theorem copyTo_window {d : MoveDesc} {faults : Faults} (flush : d.tagged = false) (src : spaceOf d.src = 1) (dst : spaceOf d.dst = 1) (start : x.done ≤ d.rows * d.rowBytes) (going : x.stopped = false)
    (hx : entryAt s a e = some x) : ∃ y, entryAt (copyTo a e d faults (d.rows * d.rowBytes) s) a e = some y ∧ y.done = d.rows * d.rowBytes ∧ y.stopped = false := by
  have row : 0 < d.rows * d.rowBytes → 0 < d.rowBytes := fun h => Nat.pos_of_mul_pos_left h
  unfold copyTo
  rw [flush, if_neg Bool.false_ne_true, Nat.min_self]
  exact copyGo_window src dst row start going (by omega) hx

/-- The state in which a transfer has ended, before the array looks for the end of its list (R172). -/
def moverOver (a : ArrayId) (e : Nat) (d : MoveDesc) (faults : Faults) (s : State) : State :=
  updEntry a e (fun x => { x with ended := true }) (if d.tagged then updEntry a e (fun x => { x with done := d.rows }) (flushRows a e d s) else copyTo a e d faults (d.rows * d.rowBytes) s)

theorem moverEnd_eq {d : MoveDesc} {faults : Faults} : moverEnd a e d faults s = finishArray a (moverOver a e d faults s) := rfl

theorem entryAt_flushRows {d : MoveDesc} (hx : entryAt s a e = some x) : entryAt (flushRows a e d s) a e = some x := by
  have h : OnlyTouches [.bind] s (flushRows a e d s) := flushRows_only (.refl _ s) (by decide)
  rw [entryAt, entriesOf_congr (by rw [h.arrays_eq (by decide)]) (h.rings_eq (by decide))]
  exact hx

theorem entryAt_moverOver {d : MoveDesc} {faults : Faults} (hx : entryAt s a e = some x) (hd : x.desc = .move d) :
    ∃ y, entryAt (moverOver a e d faults s) a e = some y ∧ y.ended = true ∧ (d.tagged = true → y.done = d.rows) ∧
      (d.tagged = false → spaceOf d.src = 1 → spaceOf d.dst = 1 → x.stopped = false → x.done ≤ d.rows * d.rowBytes → y.done = d.rows * d.rowBytes ∧ y.stopped = false) := by
  unfold moverOver
  cases flush : d.tagged with
  | true =>
    refine ⟨_, entryAt_updEntry_of (entryAt_updEntry_of (entryAt_flushRows hx)), rfl, fun _ => rfl, nofun⟩
  | false =>
    obtain ⟨y, hy, -⟩ := (copyTo_work e d faults (d.rows * d.rowBytes) ⟨x, d, hx, hd⟩).entries.entryAt hx
    refine ⟨_, entryAt_updEntry_of hy, rfl, nofun, fun _ src dst going start => ?_⟩
    obtain ⟨z, hz, done, still⟩ := copyTo_window (faults := faults) flush src dst start going hx
    obtain rfl : z = y := Option.some.inj (hz.symm.trans hy)
    exact ⟨done, still⟩

theorem moverOver_local {d : MoveDesc} {faults : Faults} (hx : entryAt s a e = some x) (hd : x.desc = .move d) : Local a s (moverOver a e d faults s) := by
  unfold moverOver
  refine Local.updEntry ?_
  split
  · exact (Local.refl a s).flushRows.updEntry
  · exact copyTo_local faults _ hx hd

end

/-- Settles O20: each end runs where its condition holds, and what it leaves reads back. -/
theorem passesDisputesAndMoversEnd : Obligations.PassesDisputesAndMoversEnd := by
  intro s a
  refine ⟨fun e x d hx hd started ended left => ?_, fun e x hx checked first started drained => ⟨fun passed => ?_, fun fails => ?_⟩, fun f l u open' spare => execDisputeRerunStart_of open' spare,
    fun f l u o c open' one finished => ?_, fun e faults x d hx hd started ended free => ?_⟩
  · obtain ⟨y, hy, over', done, conds⟩ := entryAt_passOver hx
    exact ⟨_, y, (execPassEnd_of hx hd started ended left).trans (congrArg _ endPass_eq), hy, over', done, conds, passOver_part, fun p hp => passOver_other_part hp, passOver_only⟩
  · have run := execColumnCheckDone_of hx checked first started drained
    rw [columnDone_passed hx passed] at run
    exact ⟨_, entryAt_updEntry_of hx, run, updEntry_only (.refl _ s) (by decide)⟩
  · have run := execColumnCheckDone_of hx checked first started drained
    rw [columnDone_failed hx checked fails] at run
    exact ⟨_, run, raiseDispute_disputes, entryAt_raiseDispute (entryAt_updEntry_of hx), exec_within s (.columnCheckDone a e) _ run⟩
  · obtain ⟨dispute, unresolved⟩ := decideDispute_ends (s := s) (a := a) o c f l u
    refine ⟨_, execDisputeDecide_of open' one finished, dispute, unresolved, ?_⟩
    rintro rfl
    exact decideDispute_original c f l u
  · obtain ⟨y, hy, over', flushed, copied⟩ := entryAt_moverOver (faults := faults) hx hd
    obtain ⟨others, -, -⟩ := moverOver_local (faults := faults) hx hd
    exact ⟨_, y, (execMoverComplete_of hx hd started ended free).trans (congrArg _ moverEnd_eq), hy, over', flushed, copied, others⟩

end Sys2Proof.Machine
end

section
/-!
Settles O60: where `Cause` holds of an event, the event answers a next state. For most events the cause says in the spec's words what `exec` asks before it acts; the lemmas before the last are about the events whose cause names something that `exec` has to look up. That only the event's groups change holds of every command.
-/

namespace Sys2Proof.Machine

/-- The model answers a next state, and no fault or refusal. -/
def Completes (r : Res) : Prop := ∃ t, r = .next t

theorem Completes.need {b : Bool} {t : State} (h : b = true) : Completes (need b t) := ⟨t, need_of h⟩

theorem completes_next (t : State) : Completes (.next t) := ⟨t, rfl⟩

section
variable {a : ArrayId} {s : State} {e : Nat}

/-! Slices and arrays. -/

theorem insKey_ne_nil {α : Type} (key : α → Nat) (y : α) (l : List α) : insKey key y l ≠ [] := by
  cases l with
  | nil => exact List.cons_ne_nil _ _
  | cons z r =>
    unfold insKey
    split <;> exact List.cons_ne_nil _ _

theorem sortKey_ne_nil {α : Type} {key : α → Nat} {l : List α} (h : l ≠ []) : sortKey key l ≠ [] := by
  obtain ⟨r, y, rfl⟩ := List.eq_nil_or_concat l |>.resolve_left h
  rw [sortKey, List.concat_eq_append, List.foldl_append]
  exact insKey_ne_nil _ _ _

theorem execEnergyDueAdmit_completes (due : s.gov.admission.isSome) : Completes (execEnergyDueAdmit s) := by
  obtain ⟨x, hx⟩ := Option.isSome_iff_exists.mp due
  unfold execEnergyDueAdmit
  rw [hx]
  exact completes_next _

theorem execSliceStartOnArray_completes (cur : s.arrays[a].cur = none) (adm : s.gov.admission = none) (waiting : waitingOn s a ≠ []) : Completes (execSliceStartOnArray a s) := by
  obtain ⟨⟨n, p, r⟩, first⟩ := Option.isSome_iff_exists.mp (List.isSome_head?.mpr (sortKey_ne_nil waiting))
  exact ⟨_, execSliceStartOnArray_of first cur adm⟩

theorem execSliceComplete_completes {p r cycles energy run} (hr : s.rings[p][r].run = some run) (over' : ∀ x ∈ run.arrays, x.finished = true) (visible : outputsVisible s p) :
    Completes (execSliceComplete p r cycles energy s) := by
  unfold execSliceComplete
  simp only [hr]
  exact .need (Bool.and_eq_true_iff.mpr ⟨List.all_eq_true.mpr over', visible⟩)

theorem execDisputeRerunStart_completes {f l} (open' : s.arrays[a].dispute = some (f, l, none)) (spare : (rerunSpare s a).isSome) : Completes (execDisputeRerunStart a s) := by
  obtain ⟨u, hu⟩ := Option.isSome_iff_exists.mp spare
  exact ⟨_, execDisputeRerunStart_of open' hu⟩

/-! The fabric and memory. -/

theorem execTickProbeReply_completes {k t2 t3 t4} (tick : k ∈ tickStraits s) (sent : s.fab.straits[k].probeT1.isSome) : Completes (execTickProbeReply k t2 t3 t4 s) := by
  obtain ⟨t1, ht⟩ := Option.isSome_iff_exists.mp sent
  unfold execTickProbeReply
  simp only [ht]
  exact .need (List.contains_iff_mem.mpr tick)

theorem execFetchSector_completes {p e b read replica} (up : memUp s) (asked : (fetchAt s p e b).isSome) (gathering : (getGather s.vm p e).isSome) : Completes (execFetchSector p e b read replica s) := by
  obtain ⟨f, hf⟩ := Option.isSome_iff_exists.mp asked
  obtain ⟨g, hg⟩ := Option.isSome_iff_exists.mp gathering
  unfold execFetchSector
  simp only [hf, hg]
  exact .need up

theorem execCausewayUnitReceive_completes {c : Fin 8} {b d : DieId} {unit : CswUnit} {path detour} (up : cswUp s c) (whole : unit.bytes.length = 256) (route : cswPath s b d = some (path, detour))
    (on : c ∈ path) : Completes (execCausewayUnitReceive c b d unit s) := by
  unfold execCausewayUnitReceive
  simp only [route]
  exact .need (by simp only [up, List.contains_iff_mem.mpr on, whole, decide_true, Bool.and_self])

theorem execStraitDown_completes {k c} (flows : flowing s k) (failed : c = .replayFailed → 8 ≤ s.fab.straits[k].replayFails) : Completes (execStraitDown k c s) :=
  .need (by simpa only [flows, Bool.true_and, Bool.or_eq_true, decide_eq_true_eq, ← imp_iff_not_or] using failed)

theorem execFlowIntegrityLost_completes {f x} (hx : getFlow s f = some x) (opened : x.state = .opened) (fails : 8 ≤ x.tagFails) : Completes (execFlowIntegrityLost f s) :=
  .need (by simp only [hx, opened, fails, decide_true, Bool.and_self])

theorem execFlowKeygenAdvance_completes {f x} (hx : getFlow s f = some x) (opened : x.state = .opened) (first : x.keygen = false) (half : 2 ^ 47 ≤ x.txPsn ∨ 2 ^ 47 ≤ x.rxPsn) :
    Completes (execFlowKeygenAdvance f s) :=
  .need (by simpa only [hx, opened, first, decide_true, Bool.not_false, Bool.true_and, Bool.or_eq_true, decide_eq_true_eq] using half)

theorem execSessionDigestMatch_completes {i answers x} (up : hubUp s) (answered : answers ≠ []) (hx : getSess s i = some x) (open' : x.open' = true) : Completes (execSessionDigestMatch i answers s) :=
  .need (by simp only [up, hx, open', Bool.true_and, Bool.not_eq_true', List.isEmpty_eq_false_iff]; exact answered)

/-! Life cycle, firmware and management. -/

theorem execTransitionProgrammed_completes (running : s.life.running.isSome) (up : s.pow.mgmtUp) : Completes (execTransitionProgrammed s) := by
  obtain ⟨t, ht⟩ := Option.isSome_iff_exists.mp running
  unfold execTransitionProgrammed
  simp only [ht]
  exact .need up

theorem execSignComplete_completes {sid} (up : s.pow.mgmtUp) (asked : ((s.dict.sessions.find? (fun x => x.sid = sid && sid ≠ 0)).bind (fun x => x.vals.attPending)).isSome) : Completes (execSignComplete sid s) := by
  obtain ⟨b, hb⟩ := Option.isSome_iff_exists.mp asked
  unfold execSignComplete
  simp only [hb]
  exact .need up

theorem execFwCommitComplete_completes (up : s.pow.mgmtUp) (committing : s.fw.committing.isSome) : Completes (execFwCommitComplete s) := by
  obtain ⟨b, hb⟩ := Option.isSome_iff_exists.mp committing
  unfold execFwCommitComplete
  simp only [hb]
  exact .need up

theorem execRecoveryDataGap_completes {f} (on : fetching s) (hf : s.fw.fetch = some f) (total : f.total.isSome) : Completes (execRecoveryDataGap s) := by
  unfold execRecoveryDataGap
  simp only [hf]
  exact .need (Bool.and_eq_true_iff.mpr ⟨on, total⟩)

theorem execRecoveryStraitTimeout_completes (on : fetching s) (strait : (s.fw.fetch.bind (·.strait)).isSome) : Completes (execRecoveryStraitTimeout s) := by
  obtain ⟨k, hk⟩ := Option.isSome_iff_exists.mp strait
  unfold execRecoveryStraitTimeout
  simp only [hk]
  exact .need on

theorem execSegmentGapTimeout_completes {q object x} (reach : reachable s) (hx : findSess s q = some x) (staged : (alGet object x.staged).isSome) : Completes (execSegmentGapTimeout q object s) :=
  .need (by simp only [reach, hx, staged, Bool.and_self])

theorem execSessionIdleTimeout_completes {sid x} (up : s.pow.mgmtUp) (hx : sessOf s sid = some x) (live : x.revoked = false) : Completes (execSessionIdleTimeout sid s) :=
  .need (by simp only [up, hx, live, Bool.not_false, Bool.and_self])

/-! Sensors and power. -/

theorem execDieTemperature_completes {src c} (die : ∀ d, src = .die d → s.pow.domains[d] = .up) (stack : ∀ k, src = .stack k → s.pow.domains[stackDie k] = .up ∧ k.val ∉ s.mem.stacksFailed) :
    Completes (execDieTemperature src c s) := by
  cases src with
  | die d => exact .need (decide_eq_true (die d rfl))
  | stack k =>
    obtain ⟨up, works⟩ := stack k rfl
    exact .need (by simpa [up] using works)

theorem execDomainReady_completes {d r step trained retry} (powering : s.pow.domains[d] = .powering step trained retry) (waited : awaited d step trained s r) : Completes (execDomainReady d r s) := by
  unfold execDomainReady
  simp only [powering]
  exact .need waited

theorem execDomainReadyTimeout_completes {d r step trained retry} (powering : s.pow.domains[d] = .powering step trained retry) (waited : awaited d step trained s r) :
    Completes (execDomainReadyTimeout d r s) := by
  unfold execDomainReadyTimeout
  simp only [powering]
  exact .need waited

theorem execDomainOff_completes {d} (stopping : s.pow.domains[d] = .stopping) (last : d = 4 → ∀ b : DieId, b ≠ 4 → s.pow.domains[b] ≠ .stopping) : Completes (execDomainOff d s) := by
  have others : d ≠ 4 ∨ ∀ b ∈ [(0 : DieId), 1, 2, 3], s.pow.domains[b] ≠ .stopping := by
    refine imp_iff_not_or.mp fun hub b hb => last hub b ?_
    rintro rfl
    exact absurd hb (by decide)
  exact .need (by simpa only [stopping, decide_true, Bool.true_and, Bool.or_eq_true, decide_eq_true_eq, List.all_eq_true] using others)

end

/-- Every event of the module's own answers a next state where its cause stands. -/
theorem exec_completes_of_cause {c : Instr} {s : State} (cause : Cause c s) : Completes (exec c s) := by
  cases c
  -- events whose cause is, clause by clause, the condition that `exec` asks
  case frameTick | sliceSplit | moverStart => exact .need (by simpa [Cause] using cause)
  case tickProbe | tickSelfMaster | peakGuardEngage | peakGuardRelease => exact .need (by simpa [Cause, and_assoc] using cause)
  case windowGranuleMove | migrationSectorCopy | gatheringFetchStart | rekeySector | regionSteady | rotationComplete | hbmRowRepair | windowEccError =>
    exact .need (by simpa [Cause, and_assoc] using cause)
  case straitRetrainTimer | signalDetect | laneSwap | laneRetrainNarrow | hopKeyNextGeneration | causewayFail | flowRetryTimeout => exact .need (by simpa [Cause, and_assoc] using cause)
  case foldWindowExpire | ownerDeadline | versionPublish | paramResendTimeout | keeperTimeout | sessionHeartbeat | rankSilence | rosterQuorumHold | departDeadline =>
    exact .need (by simpa [Cause] using cause)
  case removalComplete | libCommitComplete | recoveryRestart | testComplete | testDeferLimit | unitRetire | suspectClear => exact .need (by simpa [Cause, and_assoc] using cause)
  case adcSample | occupancyWord | strobeOverdue | selfTimedClose | minuteClose | lhPowerLoss | lhPowerOn | lighthouseSilent => exact .need (by simpa [Cause, and_assoc] using cause)
  case i3cRefresh | inputTurnOff | overVoltage | modResetNAssert | modResetNRelease | watchdogExpire | modPwrEnRise | modPwrEnFall | thermalTrip | straitSignalWake | dozeEntry =>
    exact .need (by simpa [Cause, and_assoc] using cause)
  -- the slice on an array
  case energyDueAdmit => exact execEnergyDueAdmit_completes cause
  case sliceStartOnArray =>
    obtain ⟨cur, adm, waiting⟩ := cause
    exact execSliceStartOnArray_completes cur adm waiting
  case sliceComplete =>
    obtain ⟨run, hr, over', visible⟩ := cause
    exact execSliceComplete_completes hr over' visible
  case passStart =>
    obtain ⟨x, d, hx, hd, started, ended, may⟩ := cause
    exact ⟨_, execPassStart_of hx hd started ended may⟩
  case stationaryTileLoad =>
    obtain ⟨x, d, hx, hd, ready⟩ := cause
    exact ⟨_, execStationaryTileLoad_of hx hd ready⟩
  case tileLoadDone =>
    obtain ⟨e, k, tile, d, shadow, hd, boundary⟩ := cause
    exact ⟨_, execTileLoadDone_of shadow hd boundary⟩
  case vectorOperandLoad =>
    obtain ⟨x, d, c, hx, hd, hc, started, on, named, missing, may⟩ := cause
    exact ⟨_, execVectorOperandLoad_of hx hd hc started on named missing may⟩
  case tableLoad =>
    obtain ⟨x, c, hx, hc, started, on, named, missing, place, may⟩ := cause
    exact ⟨_, execTableLoad_of hx hc started on named missing place may⟩
  case foldHalfFill =>
    obtain ⟨x, d, hx, hd, ready⟩ := cause
    exact ⟨_, execFoldHalfFill_of hx hd ready⟩
  case drainRow =>
    obtain ⟨x, d, hx, hd, ready⟩ := cause
    exact ⟨_, execDrainRow_of hx hd ready⟩
  case chainStandaloneGroup =>
    obtain ⟨x, d, hx, hd, chained, ready⟩ := cause
    obtain ⟨c, hc⟩ := Option.isSome_iff_exists.mp chained
    exact ⟨_, execChainStandaloneGroup_of hx hd hc ready⟩
  case rowStatLand =>
    obtain ⟨r, d, c, row, hd, hc, may⟩ := cause
    exact ⟨_, execRowStatLand_of row hd hc may⟩
  case quantBlockWrite =>
    obtain ⟨r, d, c, row, may⟩ := cause
    exact ⟨_, execQuantBlockWrite_of row may⟩
  case sbTileWrite =>
    obtain ⟨r, rows, tr, d, c, tile, may⟩ := cause
    exact ⟨_, execSbTileWrite_of tile rfl may⟩
  case columnCheckDone =>
    obtain ⟨x, hx, checked, first', started, drained⟩ := cause
    exact ⟨_, execColumnCheckDone_of hx checked first' started drained⟩
  case disputeRerunStart =>
    obtain ⟨f, l, open', spare⟩ := cause
    exact execDisputeRerunStart_completes open' spare
  case disputeDecide =>
    obtain ⟨f, l, u, open', one, finished⟩ := cause
    exact ⟨_, execDisputeDecide_of open' one finished⟩
  case passEnd =>
    obtain ⟨x, d, hx, hd, started, ended, left⟩ := cause
    exact ⟨_, execPassEnd_of hx hd started ended left⟩
  case moverComplete =>
    obtain ⟨x, d, hx, hd, started, ended, free⟩ := cause
    exact ⟨_, execMoverComplete_of hx hd started ended free⟩
  -- the fabric, memory and the Bindery
  case tickProbeReply =>
    obtain ⟨tick, sent⟩ := cause
    exact execTickProbeReply_completes tick sent
  case probe =>
    obtain ⟨tick, -⟩ := cause
    exact .need (List.contains_iff_mem.mpr tick)
  case tickMissed => exact .need (by simpa [Cause, and_assoc] using cause)
  case tickSuccession =>
    obtain ⟨joined, follower, missed, -⟩ := cause
    exact .need (by simpa [joined, missed] using follower)
  case fetchSector =>
    obtain ⟨up, asked, gathering⟩ := cause
    exact execFetchSector_completes up asked gathering
  case straitTrainDone =>
    obtain ⟨up, training, -⟩ := cause
    exact .need (by simpa [up] using training)
  case straitDown =>
    obtain ⟨flows, failed⟩ := cause
    exact execStraitDown_completes flows failed
  case causewayUnitReceive =>
    obtain ⟨up, whole, path, detour, route, on⟩ := cause
    exact execCausewayUnitReceive_completes up whole route on
  case flowIntegrityLost =>
    obtain ⟨x, hx, opened, fails⟩ := cause
    exact execFlowIntegrityLost_completes hx opened fails
  case flowKeygenAdvance =>
    obtain ⟨x, hx, opened, first', half⟩ := cause
    exact execFlowKeygenAdvance_completes hx opened first' half
  case pairKeyExpire =>
    obtain ⟨pair, idle⟩ := cause
    exact .need (Bool.and_eq_true_iff.mpr ⟨pair, List.all_eq_true.mpr fun x hx => decide_eq_true (idle x hx)⟩)
  case pcieTraining k up width =>
    obtain ⟨hub, mode, host, widths⟩ := cause
    have lanes : up = false ∨ width = 1 ∨ width = 2 ∨ width = 4 ∨ width = 8 := or_iff_not_imp_left.mpr fun h => widths (Bool.eq_true_of_not_eq_false h)
    exact .need (by simpa [hub, host, or_assoc] using ⟨mode, lanes⟩)
  case sessionDigestMatch =>
    obtain ⟨up, answered, x, hx, open'⟩ := cause
    exact execSessionDigestMatch_completes up answered hx open'
  -- life cycle, firmware and the Lighthouse
  case transitionProgrammed =>
    obtain ⟨running, up⟩ := cause
    exact execTransitionProgrammed_completes running up
  case signComplete =>
    obtain ⟨up, asked⟩ := cause
    exact execSignComplete_completes up asked
  case fwCommitComplete =>
    obtain ⟨up, committing⟩ := cause
    exact execFwCommitComplete_completes up committing
  case recoveryDataGap =>
    obtain ⟨on, f, hf, total⟩ := cause
    exact execRecoveryDataGap_completes on hf total
  case recoveryStraitTimeout =>
    obtain ⟨on, strait⟩ := cause
    exact execRecoveryStraitTimeout_completes on strait
  case calibrationChange =>
    obtain ⟨powered, -⟩ := cause
    exact .need powered
  -- management, sensors and power
  case segmentGapTimeout =>
    obtain ⟨reach, x, hx, staged⟩ := cause
    exact execSegmentGapTimeout_completes reach hx staged
  case sessionIdleTimeout =>
    obtain ⟨up, x, hx, live⟩ := cause
    exact execSessionIdleTimeout_completes up hx live
  case sbLinkStateChange =>
    obtain ⟨up, known, node⟩ := cause
    exact .need (by simpa [up, known, ← imp_iff_not_or] using node)
  case dieTemperature =>
    obtain ⟨die, stack⟩ := cause
    exact execDieTemperature_completes die stack
  case inputTurnOn => exact .need (Bool.or_eq_true_iff.mpr (.inr (Bool.not_eq_true' _ |>.mpr cause)))
  case domainReady =>
    obtain ⟨step, trained, retry, powering, waited⟩ := cause
    exact execDomainReady_completes powering waited
  case domainReadyTimeout =>
    obtain ⟨step, trained, retry, powering, waited⟩ := cause
    exact execDomainReadyTimeout_completes powering waited
  case domainOff =>
    obtain ⟨stopping, last⟩ := cause
    exact execDomainOff_completes stopping last
  -- requests, messages and packets have no cause
  all_goals exact False.elim cause

/-- Settles O60: an event completes where its cause stands, and like every command it changes only the groups that `touches` names. -/
theorem eventsRunWhereTheirCauseStands : Obligations.EventsRunWhereTheirCauseStands := by
  intro c s cause
  obtain ⟨t, run⟩ := exec_completes_of_cause cause
  exact ⟨t, run, exec_within s c t run⟩

end Sys2Proof.Machine
end

section
/-!
Settles O2: the state at reset is `State`'s own defaults but for the units of the RAS, so each object reads its default; what the state holds once for each partition, ring, strait or window is the same default for all of them.
-/

namespace Sys2Proof.Machine

/-! What each partition, ring, strait and window is at reset. -/

theorem reset_correction (p : PartId) : State.reset.gov.correction[p] = 16384 := Vector.getElem_replicate p.isLt
theorem reset_allotment (p : PartId) : State.reset.gov.allotment[p] = 0 := Vector.getElem_replicate p.isLt
theorem reset_part (p : PartId) : State.reset.parts[p] = {} := Vector.getElem_replicate p.isLt
theorem reset_ring (p : PartId) (r : RingId) : State.reset.rings[p][r] = {} := by
  have part : State.reset.rings[p] = Vector.replicate 16 {} := Vector.getElem_replicate p.isLt
  rw [part]
  exact Vector.getElem_replicate r.isLt
theorem reset_strait (k : StraitId) : State.reset.fab.straits[k] = {} := Vector.getElem_replicate k.isLt
theorem reset_window (p : PartId) : State.reset.mem.window[p] = [] := Vector.getElem_replicate p.isLt

/-- The windows are canonical at reset: they list no byte. -/
theorem reset_windowsWf : WindowsWf State.reset := by
  intro p
  rw [reset_window]
  rfl

/-- Settles O2: the objects that stand once read their defaults, and those that stand in a vector read the default that it repeats. -/
theorem resetHoldsTheDefaults : Obligations.ResetHoldsTheDefaults := by
  refine ⟨⟨?tick, ?governor, fun p => ?part, fun p r => ?ring, ?memory, fun k => ?strait, ?fabric, ?lifeAndRas, ?power⟩, reset_windowsWf⟩
  case tick => exact ⟨rfl, rfl, rfl, rfl, rfl⟩
  case governor => exact ⟨rfl, rfl, rfl, rfl, rfl, rfl, rfl, reset_correction, reset_allotment⟩
  case part => rw [reset_part]; exact ⟨rfl, rfl, rfl, rfl, rfl, rfl, rfl⟩
  case ring => rw [reset_ring]; exact ⟨rfl, rfl, rfl, rfl⟩
  case memory => exact ⟨rfl, rfl, rfl, rfl, rfl, rfl, rfl, reset_window⟩
  case strait => rw [reset_strait]; exact ⟨rfl, rfl, rfl, rfl, rfl, rfl, rfl⟩
  case fabric => exact ⟨rfl, rfl, rfl, rfl, rfl, rfl⟩
  case lifeAndRas => exact ⟨rfl, rfl, rfl, rfl, rfl, rfl, rfl⟩
  case power => exact ⟨rfl, rfl, rfl, rfl, rfl, rfl, rfl, rfl, rfl⟩

end Sys2Proof.Machine
end

section
/-!
What the end of an attempt does to the rings (R188 to R191, R194). Counting, records and gradient rows leave them, so an end is `endRun` and perhaps `retired` on one ring (`closeAttempt_cases`), its run is over, and every other ring stands (`EndsRun`).
-/

namespace Sys2Proof.Machine

theorem OnlyTouches.gov_eq {gs : List Group} {s t : State} (h : OnlyTouches gs s t) (n : Group.gov ∉ gs) : t.gov = s.gov := by simpa only [State.hide, if_neg n] using congrArg State.gov h

/-! What leaves the rings. -/

section
variable (p : PartId) (r : RingId) (s : State)

@[simp] theorem countConds_rings (l : List Status) : (countConds p l s).rings = s.rings := by
  have h : OnlyTouches besideArrays s (countConds p l s) := by apply countConds_only (.refl _ s) <;> decide
  exact h.rings_eq (by decide)

@[simp] theorem putEntries_rings (code : Status) (completed : Bool) (run : SliceRun) : (putEntries p code completed run s).1.rings = s.rings := by
  have h : OnlyTouches besideArrays s (putEntries p code completed run s).1 := by apply putEntries_only (.refl _ s) <;> decide
  exact h.rings_eq (by decide)

@[simp] theorem putSubject_rings (x : Subject) (final : Bool) (st : Status) (grad : Nat) (bad : Nat × Nat) : (putSubject p x final st grad bad s).1.rings = s.rings := by
  have h : OnlyTouches besideArrays s (putSubject p x final st grad bad s).1 := by apply putSubject_only (.refl _ s) <;> decide
  exact h.rings_eq (by decide)

@[simp] theorem putRecord_rings (final : Bool) (st : Status) (grad : Nat) (bad : Nat × Nat) : (putRecord p r final st grad bad s).1.rings = s.rings := putSubject_rings ..

@[simp] theorem dropGrad_rings : (dropGrad p r s).rings = s.rings := rfl

@[simp] theorem commitGrad_rings (v seq : Nat) : (commitGrad p r v seq s).rings = s.rings := by
  have h : OnlyTouches besideArrays s (commitGrad p r v seq s) := commitGrad_only (.refl _ s) (by decide)
  exact h.rings_eq (by decide)

@[simp] theorem leaveDispute_rings (a : ArrayId) : (leaveDispute a s).rings = s.rings := by
  have h : OnlyTouches (.arrays :: besideArrays) s (leaveDispute a s) := by apply leaveDispute_only (.refl _ s) <;> decide
  exact h.rings_eq (by decide)

@[simp] theorem eligible_rings (c : Candidate) : (eligible c s).1.rings = s.rings := by
  have h : OnlyTouches besideArrays s (eligible c s).1 := by apply eligible_only (.refl _ s) <;> decide
  exact h.rings_eq (by decide)

/-- The counting of an attempt's conditions, its entries' and its own. -/
theorem countAttempt_beside (l : List Status) (code : Status) (run : SliceRun) : OnlyTouches besideArrays s (countConds p l ((runEntries run).foldl (fun s e => countConds p (e.allConds code) s) s)) := by
  have entries : OnlyTouches besideArrays s ((runEntries run).foldl (fun s e => countConds p (e.allConds code) s) s) := by
    refine foldl_only (fun u e hu => ?_) (.refl _ s)
    apply countConds_only hu <;> decide
  apply countConds_only entries <;> decide

end

theorem updRing_rings_congr {p : PartId} {r : RingId} {f : Ring → Ring} {s t : State} (h : t.rings = s.rings) : (t.updRing p r f).rings = (s.updRing p r f).rings := by
  rw [updRing_rings, updRing_rings, h]

theorem fst_rings {α : Type} {s t : State} {c : α} {x : State × α} (e : x = (t, c)) (h : x.1.rings = s.rings) : t.rings = s.rings := by subst e; exact h

/-! Changes of one ring. -/

/-- From `s` to `t` no ring changes but ring `r` of partition `p`. -/
def OnlyRing (p : PartId) (r : RingId) (s t : State) : Prop := ∀ p' r', (p', r') ≠ (p, r) → t.rings[p'][r'] = s.rings[p'][r']

section
variable {p : PartId} {r : RingId} {s t u : State}

theorem OnlyRing.trans (h : OnlyRing p r s t) (k : OnlyRing p r t u) : OnlyRing p r s u := fun p' r' ne => (k p' r' ne).trans (h p' r' ne)

theorem OnlyRing.same (h : t.rings = s.rings) : OnlyRing p r s t := fun _ _ _ => by rw [h]

theorem OnlyRing.of_local {a : ArrayId} (h : Local a s t) (cur : s.arrays[a].cur = some (p, r)) : OnlyRing p r s t := by
  obtain ⟨-, -, ring⟩ := h
  exact fun p' r' ne => ring p' r' fun e => ne (Option.some.inj (e.symm.trans cur))

theorem updRing_onlyRing (p : PartId) (r : RingId) (f : Ring → Ring) (s : State) : OnlyRing p r s (s.updRing p r f) := by
  intro p' r' ne
  by_cases part : p' = p
  · subst part
    exact updRing_other_ring _ _ _ _ _ fun e => ne (e ▸ rfl)
  · rw [updRing_other_part _ _ _ _ _ part]

/-- From `s` to `t` no ring changes but this one, and what it ran is over. -/
structure EndsRun (p : PartId) (r : RingId) (s t : State) : Prop where
  others : OnlyRing p r s t
  idle : t.rings[p][r].run = none

theorem EndsRun.after (k : EndsRun p r t u) (h : OnlyRing p r s t) : EndsRun p r s u := ⟨h.trans k.others, k.idle⟩

theorem EndsRun.same (h : EndsRun p r s t) (ring : u.rings = t.rings) : EndsRun p r s u := ⟨h.others.trans (.same ring), by rw [ring]; exact h.idle⟩

theorem updRing_endsRun {f : Ring → Ring} (h : (f s.rings[p][r]).run = none) : EndsRun p r s (s.updRing p r f) := ⟨updRing_onlyRing p r f s, by rw [updRing_at]; exact h⟩

theorem faultRing_endsRun (st : Status) : EndsRun p r s (faultRing p r st s) := updRing_endsRun rfl

/-- A retirement leaves no run, whether it ends at HEAD, at the second half or in a fault. -/
theorem retired_endsRun (n : Nat) (st : Status) (grad : Nat) (h : s.rings[p][r].run = none) : EndsRun p r s (retired n p r st grad s) := by
  induction n generalizing s st grad with
  | zero => exact ⟨.same rfl, h⟩
  | succ n ih =>
    unfold retired
    split
    case h_1 => exact (updRing_endsRun rfl).same rfl
    case h_2 l rest _ =>
      split
      · exact updRing_endsRun rfl
      · extract_lets st' u
        have hu : EndsRun p r s u := updRing_endsRun rfl
        split
        · next v e =>
          have hv := hu.same (fst_rings e (by simp))
          exact (ih _ _ hv.idle).after hv.others
        · next v c _ e =>
          have hv := hu.same (fst_rings e (by simp))
          exact (faultRing_endsRun c).after hv.others

theorem retired_whole {n : Nat} {st : Status} {grad : Nat} (h : s.rings[p][r].halves = []) : retired (n + 1) p r st grad s = advanceHead p r s := by
  unfold retired
  rw [h]

/-- What is left once the attempt's records have been written, or could not be (R188, R194). -/
theorem closeAttempt_cases (c : Closing) (s : State) : ∃ v, v.rings = (s.updRing c.part c.ring (endRun c)).rings ∧
    ((∃ st, closeAttempt c s = dropGrad c.part c.ring (faultRing c.part c.ring st v)) ∨
      (c.final = true ∧ ∃ grad, closeAttempt c s = retired halfDepth c.part c.ring c.status grad v) ∨
      (c.final = false ∧ closeAttempt c s = v)) := by
  unfold closeAttempt
  extract_lets p r x
  split
  · next v e =>
    have hv := fst_rings e (putEntries_rings ..)
    extract_lets grad
    split
    · next w e' =>
      have hw := (fst_rings e' (putSubject_rings ..)).trans hv
      split
      · next final =>
        refine ⟨_, ?_, .inr (.inl ⟨final, grad, rfl⟩)⟩
        split
        · exact (commitGrad_rings ..).trans hw
        · exact hw
      · next more => exact ⟨w, hw, .inr (.inr ⟨Bool.eq_false_of_not_eq_true more, rfl⟩)⟩
    · next w st _ e' => exact ⟨w, (fst_rings e' (putSubject_rings ..)).trans hv, .inl ⟨st, rfl⟩⟩
  · next v st _ e => exact ⟨v, fst_rings e (putEntries_rings ..), .inl ⟨st, rfl⟩⟩

theorem endRun_idle (c : Closing) (g : Ring) : (endRun c g).run = none := by unfold endRun; split <;> rfl

theorem closeAttempt_endsRun (c : Closing) (s : State) : EndsRun c.part c.ring s (closeAttempt c s) := by
  obtain ⟨v, hv, e⟩ := closeAttempt_cases c s
  have ended : EndsRun c.part c.ring s v := (updRing_endsRun (endRun_idle c _)).same hv
  rcases e with ⟨st, e⟩ | ⟨-, grad, e⟩ | ⟨-, e⟩ <;> rw [e]
  · exact ((faultRing_endsRun st).after ended.others).same rfl
  · exact (retired_endsRun _ _ _ ended.idle).after ended.others
  · exact ended

/-- HEAD moves past a whole slice that retires, unless its ring is FAULTED or HEAD has been written meanwhile (R191, R195). -/
theorem closeAttempt_head {c : Closing} (final : c.final = true) (unsplit : c.split = false) (whole : s.rings[c.part][c.ring].halves = []) (kept : s.rings[c.part][c.ring].head.toNat = s.rings[c.part][c.ring].subj.seq)
    (good : (closeAttempt c s).rings[c.part][c.ring].state ≠ 2) : (closeAttempt c s).rings[c.part][c.ring].head = s.rings[c.part][c.ring].head + 1 := by
  obtain ⟨v, hv, e⟩ := closeAttempt_cases c s
  have ring : v.rings[c.part][c.ring] = { s.rings[c.part][c.ring] with run := none } := by
    rw [hv, updRing_at, endRun, unsplit, if_neg Bool.false_ne_true]
  rcases e with ⟨st, e⟩ | ⟨-, grad, e⟩ | ⟨more, -⟩
  · rw [e, dropGrad_rings, faultRing, updRing_at] at good
    exact absurd rfl good
  · rw [e, halfDepth, retired_whole (by rw [ring]; exact whole), advanceHead, updPart_rings, updRing_at, ring]
    exact if_pos kept
  · exact absurd (final.symm.trans more) Bool.true_eq_false.mp

/-- A split leaves the first half at the head, whether or not its records can be written (R184, R190). -/
theorem closeAttempt_split {c : Closing} (more : c.final = false) (split' : c.split = true) :
    (closeAttempt c s).rings[c.part][c.ring].head = s.rings[c.part][c.ring].head ∧
      (closeAttempt c s).rings[c.part][c.ring].subj = { seq := s.rings[c.part][c.ring].subj.seq } ∧
      (closeAttempt c s).rings[c.part][c.ring].halves =
        { halfAddr := c.run.hdr.halfAddr, second := false, firstStatus := .done, firstGrad := 0, outer := s.rings[c.part][c.ring].subj } :: s.rings[c.part][c.ring].halves := by
  obtain ⟨v, hv, e⟩ := closeAttempt_cases c s
  have ring : v.rings[c.part][c.ring] = endRun c s.rings[c.part][c.ring] := by rw [hv, updRing_at]
  rw [endRun, split', if_pos rfl] at ring
  rcases e with ⟨st, e⟩ | ⟨final, -⟩ | ⟨-, e⟩
  · rw [e, dropGrad_rings, faultRing, updRing_at, ring]
    exact ⟨rfl, rfl, rfl⟩
  · exact absurd (final.symm.trans more) Bool.true_eq_false.mp
  · rw [e, ring]
    exact ⟨rfl, rfl, rfl⟩

end

/-! Completion (R188, R221). -/

section
variable (p : PartId) (r : RingId) (run : SliceRun) (cycles energy : Nat) (s : State)

/-- The state in which a completed slice has been measured, its conditions counted and its energy learned from; its records are still to be written. -/
def measured : State :=
  learnCorrection p (min energy 0xFFFFFFFF) run.hdr.predEnergy
    (countConds p (Status.choose (runConds run) :: runConds run) ((runEntries run).foldl (fun s e => countConds p (e.allConds .done) s)
      (s.updRing p r (fun g => { g with subj := { g.subj with cycles := cycles, energy := energy, frame := frameNow s, overruns := 0 } }))))

/-- How a completed slice ends. -/
def completion : Closing := { part := p, ring := r, run := run, entryCode := .done, status := Status.choose (runConds run), completed := true, final := true, split := false }

theorem completeRun_eq : completeRun p r run cycles energy s = closeAttempt (completion p r run) (measured p r run cycles energy s) := rfl

theorem measured_rings : (measured p r run cycles energy s).rings =
    (s.updRing p r (fun g => { g with subj := { g.subj with cycles := cycles, energy := energy, frame := frameNow s, overruns := 0 } })).rings :=
  (countAttempt_beside ..).rings_eq (by decide)

theorem measured_ring : (measured p r run cycles energy s).rings[p][r] =
    { s.rings[p][r] with subj := { s.rings[p][r].subj with cycles := cycles, energy := energy, frame := frameNow s, overruns := 0 } } := by
  rw [measured_rings, updRing_at]

theorem measured_correction : (measured p r run cycles energy s).gov.correction =
    modVec s.gov.correction p (fun f => BitVec.ofNat 16 (correctionOf f.toNat (min energy 0xFFFFFFFF) run.hdr.predEnergy)) := by
  rw [measured, learnCorrection, (countAttempt_beside ..).gov_eq (by decide), updRing_gov]

theorem completeRun_correction : (completeRun p r run cycles energy s).gov.correction =
    modVec s.gov.correction p (fun f => BitVec.ofNat 16 (correctionOf f.toNat (min energy 0xFFFFFFFF) run.hdr.predEnergy)) := by
  have closed : OnlyTouches (.rings :: besideArrays) (measured p r run cycles energy s) (completeRun p r run cycles energy s) := by
    rw [completeRun_eq]
    apply closeAttempt_only (.refl _ _) <;> decide
  rw [closed.gov_eq (by decide), measured_correction]

theorem completeRun_endsRun : EndsRun p r s (completeRun p r run cycles energy s) := by
  have before : OnlyRing p r s (measured p r run cycles energy s) := (updRing_onlyRing p r _ s).trans (.same (measured_rings ..))
  exact (closeAttempt_endsRun (completion p r run) _).after before

theorem completeRun_head (whole : s.rings[p][r].halves = []) (kept : s.rings[p][r].head.toNat = s.rings[p][r].subj.seq) (good : (completeRun p r run cycles energy s).rings[p][r].state ≠ 2) :
    (completeRun p r run cycles energy s).rings[p][r].head = s.rings[p][r].head + 1 := by
  have ring := measured_ring p r run cycles energy s
  calc
    _ = (measured p r run cycles energy s).rings[p][r].head + 1 := closeAttempt_head (c := completion p r run) rfl rfl (by rw [completion, ring]; exact whole) (by rw [completion, ring]; exact kept) good
    _ = s.rings[p][r].head + 1 := by rw [ring]

end

end Sys2Proof.Machine
end

section
/-!
What the stop of its arrays leaves of a slice (R172, R189). Each array's stop is `Local`, so the other rings stand. Where no transfer reports that it has moved on, no list finishes and no entry stops (`Ring.Going`): a transfer that is cut changes its own entry alone (`EntryOnly`), and `spillMover` puts that entry back.
-/

namespace Sys2Proof.Machine

/-! The arrays stop (R172, R189). -/

section
variable {a : ArrayId} {s t u : State} {e : Nat}

theorem MoverWork.copyFree {d : MoveDesc} {n : Nat} (mover : MoverAt s a e) : MoverWork a s (copyFree a e d n s) := by
  unfold Machine.copyFree
  split
  · exact copyTo_work e d [] n mover
  · exact .refl a s

theorem spillMover_local (d : MoveDesc) (mover : MoverAt s a e) : Local a s (spillMover a e d s) := by
  unfold spillMover
  split
  · exact .refl a s
  · next x hx =>
    have drawn : MoverWork a s { s with free := s.free + 1 } := .same rfl rfl
    exact (drawn.trans (.copyFree (drawn.move mover))).stays.updEntry

theorem cutMovers_local (moved : List (ArrayId × Nat × Nat)) : Local a s (cutMovers a moved s) := by
  unfold cutMovers
  refine (Local.refl a s).foldl fun v e hv => hv.trans ?_
  split
  · exact .refl a v
  · next x hx =>
    split
    · next d hd =>
      have mover : MoverAt v a e := ⟨x, d, hx, hd⟩
      split
      · split
        · next m _ =>
          have moved' : MoverWork a v (copyFree a e d m.2.2 v) := .copyFree mover
          exact moved'.stays.trans (spillMover_local d (moved'.move mover))
        · exact spillMover_local d mover
      · exact .refl a v
    · exact .refl a v

theorem Local.leaveDispute (hu : Local a s u) : Local a s (leaveDispute a u) := by
  unfold Machine.leaveDispute
  split
  · exact hu
  · extract_lets v ras n ras' w
    have hw : Local a s w := Local.auditDispute (u := { u with ras := ras' }) (st := .overrun) (v := v) (hu.same rfl rfl)
    exact hw.updArray

/-- One array of a slice stops; the counts of its passes belong to this frame (R209). -/
def stopArray (p : PartId) (t : TickIn) (a : ArrayId) (s : State) : State :=
  let s := leaveDispute a (cutMovers a t.moved s)
  let s := ((entriesOf s a).zipIdx).foldl (fun s x => if x.1.started ∧ !x.1.ended ∧ x.1.pass.isSome then addCounts p (x.1.withWaits t.waits a x.2) s else s) s
  s.updArray a ArrayEng.clear

theorem stopArrays_eq (p : PartId) (r : RingId) (t : TickIn) (arrays : List ArrayId) (s : State) :
    stopArrays p r t arrays s = arrays.foldl (fun s a => if s.arrays[a].cur = some (p, r) then stopArray p t a s else s) s := rfl

theorem stopArray_local (p : PartId) (t : TickIn) : Local a s (stopArray p t a s) := by
  unfold stopArray
  extract_lets v w
  have hv : Local a s v := (cutMovers_local t.moved).leaveDispute
  have hw : Local a s w := by
    refine hv.foldl fun u x hu => ?_
    split
    · exact hu.updPart
    · exact hu
  exact hw.trans (updArray_local (.inr rfl))

theorem stopArrays_onlyRing (p : PartId) (r : RingId) (t : TickIn) (arrays : List ArrayId) (s : State) : OnlyRing p r s (stopArrays p r t arrays s) := by
  rw [stopArrays_eq]
  refine List.foldlRecOn (motive := OnlyRing p r s) arrays _ (.same rfl) fun u hu a _ => ?_
  split
  · next cur => exact hu.trans (.of_local (stopArray_local p t) cur)
  · exact hu

end

/-! Entries of a running list, changed one after the other. -/

/-- A ring in which the list that its run has on `a` is changed. -/
def Ring.updList (a : ArrayId) (f : ArrayRun → ArrayRun) (g : Ring) : Ring :=
  { g with run := g.run.map (fun run => { run with arrays := run.arrays.map (fun x => if x.array = a then f x else x) }) }

/-- A list with entry `e` changed. -/
def ArrayRun.updEntry (e : Nat) (f : EntryRun → EntryRun) (x : ArrayRun) : ArrayRun := { x with entries := x.entries.modify e f }

section
variable {a : ArrayId} {s : State} {p : PartId} {r : RingId}

theorem updEntry_idle {e : Nat} {f : EntryRun → EntryRun} (cur : s.arrays[a].cur = none) : updEntry a e f s = s := by
  unfold updEntry updRun; rw [cur]

theorem updEntry_running {e : Nat} {f : EntryRun → EntryRun} (cur : s.arrays[a].cur = some (p, r)) : updEntry a e f s = s.updRing p r (Ring.updList a (ArrayRun.updEntry e f)) := by
  unfold updEntry updRun; rw [cur]; rfl

theorem modVec_modVec {α : Type} {n : Nat} (v : Vector α n) (i : Fin n) (f g : α → α) : modVec (modVec v i f) i g = modVec v i (g ∘ f) := by
  simp [modVec]

theorem updRing_updRing (f g : Ring → Ring) : (s.updRing p r f).updRing p r g = s.updRing p r (g ∘ f) := by
  simp only [State.updRing, modVec_modVec, Function.comp_def]

theorem updEntry_updEntry_list (e : Nat) (f g : EntryRun → EntryRun) : Ring.updList a (ArrayRun.updEntry e g) ∘ Ring.updList a (ArrayRun.updEntry e f) = Ring.updList a (ArrayRun.updEntry e (g ∘ f)) := by
  funext y
  simp only [Function.comp_apply, Ring.updList, Option.map_map]
  congr 2
  funext run
  simp only [Function.comp_apply, List.map_map]
  congr 2
  funext x
  by_cases h : x.array = a
  · simp [h, ArrayRun.updEntry, List.modify_modify_eq]
  · simp [h]

/-- Of two changes of one entry, one after the other, the second may as well act on the result of the first. -/
theorem updEntry_updEntry (a : ArrayId) (e : Nat) (f g : EntryRun → EntryRun) (s : State) : updEntry a e g (updEntry a e f s) = updEntry a e (g ∘ f) s := by
  cases cur : s.arrays[a].cur with
  | none => rw [updEntry_idle cur, updEntry_idle cur, updEntry_idle cur]
  | some pr =>
    obtain ⟨p, r⟩ := pr
    rw [updEntry_running cur, updEntry_running (p := p) (r := r) (by rw [updRing_arrays, cur]), updEntry_running cur, updRing_updRing, updEntry_updEntry_list]

/-! An entry that is put back. -/

/-- What changes the rings from `s` to `t` is entry `e` of the list on `a`: once the entry is put back, nothing of the change is left. -/
structure EntryOnly (a : ArrayId) (e : Nat) (s t : State) : Prop where
  cur : t.arrays[a].cur = s.arrays[a].cur
  back : ∀ x, (updEntry a e (fun _ => x) t).rings = (updEntry a e (fun _ => x) s).rings

variable {e : Nat} {t u : State}

theorem EntryOnly.refl (a : ArrayId) (e : Nat) (s : State) : EntryOnly a e s s := ⟨rfl, fun _ => rfl⟩

theorem EntryOnly.trans (h : EntryOnly a e s t) (k : EntryOnly a e t u) : EntryOnly a e s u := ⟨k.cur.trans h.cur, fun x => (k.back x).trans (h.back x)⟩

theorem EntryOnly.same (cur : t.arrays[a].cur = s.arrays[a].cur) (ring : t.rings = s.rings) : EntryOnly a e s t := by
  refine ⟨cur, fun x => ?_⟩
  cases here : s.arrays[a].cur with
  | none => rw [updEntry_idle here, updEntry_idle (cur.trans here), ring]
  | some pr => rw [updEntry_running (p := pr.1) (r := pr.2) here, updEntry_running (cur.trans here), updRing_rings_congr ring]

theorem EntryOnly.updEntry (f : EntryRun → EntryRun) : EntryOnly a e s (updEntry a e f s) := ⟨updRun_cur .., fun x => congrArg State.rings (updEntry_updEntry a e f (fun _ => x) s)⟩

theorem writeDest_rings (p : PartId) (w : BitVec 64) (off : Nat) (x : SrcRead) (own : List (Nat × Nat)) : (writeDest s a p w off x own).1.rings = s.rings := by
  have h : OnlyTouches (.arrays :: besideArrays) s (writeDest s a p w off x own).1 := by apply writeDest_only (.refl _ s) <;> decide
  exact h.rings_eq (by decide)

theorem readSource_rings (p : PartId) (faults : Faults) (w : BitVec 64) (off len : Nat) : (readSource s a p faults w off len).1.rings = s.rings := by
  have h : OnlyTouches besideArrays s (readSource s a p faults w off len).1 := by apply readSource_only (.refl _ s) <;> decide
  exact h.rings_eq (by decide)

/-- A piece of a transfer is counted in the transfer's own entry. -/
theorem copyPiece_entryOnly {d : MoveDesc} {faults : Faults} {n : Nat} {x : EntryRun} : EntryOnly a e s (copyPiece a e d faults n x s) := by
  unfold copyPiece
  extract_lets row col len p src dst stop
  have read : EntryOnly a e s src.1 := .same readSource_work.cur (readSource_rings ..)
  have written : EntryOnly a e s dst.1 := by
    unfold dst
    split
    · exact read
    · exact read.trans (.same writeDest_work.cur (writeDest_rings ..))
  exact (written.trans (.updEntry _)).trans (.updEntry _)

theorem copyGo_entryOnly {d : MoveDesc} {faults : Faults} (n fuel : Nat) (s : State) : EntryOnly a e s (copyGo a e d faults n fuel s) := by
  induction fuel generalizing s with
  | zero => exact .refl a e s
  | succ fuel ih =>
    cases hx : entryAt s a e with
    | none => rw [copyGo]; simp only [hx]; exact .refl a e s
    | some x =>
      by_cases ended : n ≤ x.done ∨ x.stopped
      · rw [copyGo_done _ hx ended]; exact .refl a e s
      · rw [copyGo_next _ hx ended]; exact copyPiece_entryOnly.trans (ih _)

theorem copyFree_entryOnly {d : MoveDesc} {n : Nat} : EntryOnly a e s (copyFree a e d n s) := by
  unfold copyFree copyTo
  split
  · split
    · exact .refl a e s
    · exact copyGo_entryOnly ..
  · exact .refl a e s

/-- The bytes that a cut transfer spills leave no trace in its list. -/
theorem spillMover_rings {d : MoveDesc} {x : EntryRun} (hx : entryAt s a e = some x) : (spillMover a e d s).rings = (updEntry a e (fun _ => x) s).rings := by
  have drawn : EntryOnly a e s { s with free := s.free + 1 } := .same rfl rfl
  unfold spillMover
  rw [hx]
  exact (drawn.trans copyFree_entryOnly).back x

end

/-! What the stop of its arrays leaves of a slice. -/

/-- `h` is the ring `g` with its run's lists further on: the run has the header of `run`, a list that has not finished, and no entry that has stopped. -/
def Ring.Going (g : Ring) (run : SliceRun) (h : Ring) : Prop :=
  ∃ y : SliceRun, h = { g with run := some y } ∧ y.hdr = run.hdr ∧ (∃ x ∈ y.arrays, x.finished = false) ∧ ∀ x ∈ y.arrays, ∀ z ∈ x.entries, z.stopped = false

theorem runStopped_iff (run : SliceRun) : runStopped run = false ↔ ∀ x ∈ run.arrays, ∀ z ∈ x.entries, z.stopped = false := by
  simp only [runStopped, runEntries, List.any_eq_false, List.mem_flatMap, Bool.not_eq_true]
  exact ⟨fun h x hx z hz => h z ⟨x, hx, hz⟩, fun h z ⟨x, hx, hz⟩ => h x hx z hz⟩

section
variable {g : Ring} {run : SliceRun} {p : PartId} {r : RingId} {a : ArrayId} {s : State}

theorem Ring.Going.updList {f : ArrayRun → ArrayRun} {h : Ring} (on : g.Going run h) (finished : ∀ x, (f x).finished = x.finished)
    (going : ∀ x : ArrayRun, (∀ z ∈ x.entries, z.stopped = false) → ∀ z ∈ (f x).entries, z.stopped = false) : g.Going run (h.updList a f) := by
  obtain ⟨y, rfl, hdr, ⟨x, hx, open'⟩, still⟩ := on
  refine ⟨_, rfl, hdr, ⟨_, List.mem_map_of_mem hx, ?_⟩, ?_⟩
  · split
    · exact (finished x).trans open'
    · exact open'
  · intro x' hx'
    obtain ⟨x, hx, rfl⟩ := List.mem_map.mp hx'
    split
    · exact going x (still x hx)
    · exact still x hx

theorem updEntry_going {x : ArrayRun} {z : EntryRun} (e : Nat) (hz : z.stopped = false) (still : ∀ w ∈ x.entries, w.stopped = false) : ∀ w ∈ (x.updEntry e fun _ => z).entries, w.stopped = false := by
  intro w hw
  obtain ⟨i, hi⟩ := List.mem_iff_getElem?.mp hw
  simp only [ArrayRun.updEntry, List.getElem?_modify] at hi
  obtain ⟨v, hv, rfl⟩ := Option.map_eq_some_iff.mp hi
  split
  · exact hz
  · exact still v (List.mem_of_getElem? hv)

/-- An entry put back as it was, not stopped. -/
theorem Ring.Going.putBack {e : Nat} {z : EntryRun} (on : g.Going run s.rings[p][r]) (hz : z.stopped = false) : g.Going run (updEntry a e (fun _ => z) s).rings[p][r] := by
  cases cur : s.arrays[a].cur with
  | none => rw [updEntry_idle cur]; exact on
  | some pr =>
    obtain ⟨p', r'⟩ := pr
    rw [updEntry_running cur]
    by_cases here : (p, r) = (p', r')
    · cases here
      rw [updRing_at]
      exact on.updList (fun _ => rfl) fun x still => updEntry_going e hz still
    · rw [updRing_onlyRing p' r' _ s p r here]
      exact on

/-- Where no transfer reports that it has moved on, the cut leaves every entry unstopped (R172). -/
theorem Ring.Going.cutMovers (on : g.Going run s.rings[p][r]) : g.Going run (cutMovers a [] s).rings[p][r] := by
  unfold Machine.cutMovers
  refine List.foldlRecOn (motive := fun u : State => g.Going run u.rings[p][r]) _ _ on fun u hu e _ => ?_
  split
  · exact hu
  · next x hx =>
    split
    · next d hd =>
      split
      · next cut =>
        obtain ⟨-, still⟩ := cut
        have going : x.stopped = false := by
          unfold EntryRun.over' at still
          simpa using (Bool.or_eq_false_iff.mp (Bool.not_eq_true' _ |>.mp still)).2
        show g.Going run (spillMover a e d u).rings[p][r]
        rw [spillMover_rings hx]
        exact hu.putBack going
      · exact hu
    · exact hu

theorem Ring.Going.stopArray {t : TickIn} (moved : t.moved = []) (on : g.Going run s.rings[p][r]) : g.Going run (stopArray p t a s).rings[p][r] := by
  unfold Machine.stopArray
  rw [moved]
  extract_lets v w
  have hv : g.Going run v.rings[p][r] := by
    unfold v
    rw [leaveDispute_rings]
    exact on.cutMovers
  have hw : g.Going run w.rings[p][r] := by
    refine List.foldlRecOn (motive := fun u : State => g.Going run u.rings[p][r]) _ _ hv fun u hu x _ => ?_
    split <;> exact hu
  exact hw

theorem Ring.Going.stopArrays {t : TickIn} {arrays : List ArrayId} (moved : t.moved = []) (on : g.Going run s.rings[p][r]) : g.Going run (stopArrays p r t arrays s).rings[p][r] := by
  rw [stopArrays_eq]
  refine List.foldlRecOn (motive := fun u : State => g.Going run u.rings[p][r]) _ _ on fun u hu a _ => ?_
  split
  · exact hu.stopArray moved
  · exact hu

end

end Sys2Proof.Machine
end

section
/-!
Settles O22: a slice that completes, a slice that is split, and the due candidate. A split is the end of an attempt (`endAttempt_of`) whose lists are still going; an admission keeps whatever already runs (`KeepsRuns`), so that the due candidate runs still after pass 2.
-/

namespace Sys2Proof.Machine

/-! An attempt that a tick or a removal ends (R189, R190). -/

section
variable {p : PartId} {r : RingId} {s : State} {run : SliceRun}

/-- Ending an attempt stops its arrays and measures the slice. An overrun of lists `y` that are still going is not final, and splits the slice where it is the second in a row and there is a halves block. -/
theorem endAttempt_of (code : Status) (t : TickIn) (hr : s.rings[p][r].run = some run) :
    ∃ (c : Closing) (v : State) (x : Subject), endAttempt p r code t s = (v, some c) ∧ c.part = p ∧ c.ring = r ∧
      (let u := stopArrays p r t (run.arrays.map (·.array)) s
       v.rings = (u.updRing p r (fun g => { g with subj := x })).rings ∧ x.seq = u.rings[p][r].subj.seq ∧
       ∀ y, u.rings[p][r].run = some y → y.arrays.all (·.finished) = false → runStopped y = false → code = .overrun →
         c.run = y ∧ c.final = false ∧ c.split = (decide (2 ≤ u.rings[p][r].subj.overruns + 1) && decide (y.hdr.halfAddr ≠ 0))) := by
  generalize h : endAttempt p r code t s = o
  unfold endAttempt at h
  split at h
  · next idle => exact absurd (hr.symm.trans idle) (Option.some_ne_none _)
  · next run0 hr' =>
    obtain rfl : run0 = run := Option.some.inj (hr'.symm.trans hr)
    extract_lets u left completed g stop n split' own clocks st last x ended drawn dropped w entries v at h
    subst h
    refine ⟨_, v, x, rfl, rfl, rfl, ?_, rfl, fun y hy open' still over' => ?_⟩
    · have counted : v.rings = w.rings := (countAttempt_beside ..).rings_eq (by decide)
      have kept : w.rings = ended.rings := by unfold w dropped; split <;> rfl
      exact counted.trans kept
    · obtain rfl : left = y := by unfold left; rw [hy]; rfl
      have unfinished : completed = false := by unfold completed; rw [open', Bool.false_and]
      have unstopped : stop = false := still
      refine ⟨rfl, ?_, ?_⟩
      · simp only [unfinished, unstopped, over', ne_eq, not_true_eq_false, decide_false, Bool.or_false]
      · unfold split'
        simp only [unfinished, unstopped, over', decide_true, Bool.not_false, Bool.true_and]
        rfl

/-- An attempt's end leaves no run and every other ring. -/
theorem abortRun_endsRun (code : Status) (t : TickIn) (hr : s.rings[p][r].run = some run) : EndsRun p r s (abortRun p r code t s) := by
  obtain ⟨c, v, x, e, rfl, rfl, ring, -⟩ := endAttempt_of code t hr
  unfold abortRun
  rw [e]
  have stopped := stopArrays_onlyRing c.part c.ring t (run.arrays.map (·.array)) s
  exact (closeAttempt_endsRun c v).after ((stopped.trans (updRing_onlyRing c.part c.ring _ _)).trans (.same ring))

/-- A second overrun of a slice with a halves block, none of whose entries stopped early, splits it (R190). -/
theorem abortRun_splits {t : TickIn} (hr : s.rings[p][r].run = some run) (block : run.hdr.halfAddr ≠ 0) (again : 1 ≤ s.rings[p][r].subj.overruns) (open' : ∃ x ∈ run.arrays, x.finished = false)
    (moved : t.moved = []) (still : runStopped run = false) :
    (abortRun p r .overrun t s).rings[p][r].head = s.rings[p][r].head ∧ (abortRun p r .overrun t s).rings[p][r].subj = { seq := s.rings[p][r].subj.seq } ∧
      ∃ h, (abortRun p r .overrun t s).rings[p][r].halves = h :: s.rings[p][r].halves ∧ h.halfAddr = run.hdr.halfAddr ∧ h.second = false := by
  have start : Ring.Going s.rings[p][r] run s.rings[p][r] := ⟨run, by rw [← hr], rfl, open', (runStopped_iff run).mp still⟩
  obtain ⟨y, ring, hdr, ⟨z, hz, unfinished⟩, going⟩ := start.stopArrays (t := t) (arrays := run.arrays.map (·.array)) moved
  obtain ⟨c, v, x, e, rfl, rfl, measured, number, closing⟩ := endAttempt_of .overrun t hr
  obtain ⟨run', more, splits⟩ := closing y (by rw [ring]) (List.all_eq_false.mpr ⟨z, hz, by rw [unfinished]; exact Bool.false_ne_true⟩) ((runStopped_iff y).mpr going) rfl
  have split' : c.split = true := by
    rw [splits, ring, hdr]
    simpa using ⟨again, block⟩
  have here : v.rings[c.part][c.ring] = { s.rings[c.part][c.ring] with run := some y, subj := x } := by
    rw [measured, updRing_at, ring]
  obtain ⟨head, subj, halves⟩ := closeAttempt_split (s := v) more split'
  have aborted : abortRun c.part c.ring .overrun t s = closeAttempt c v := by unfold abortRun; rw [e]
  rw [here] at head subj halves
  rw [aborted]
  refine ⟨head, ?_, _, halves, by rw [run', hdr], rfl⟩
  rw [subj, number, ring]

end

/-! Admission (R217, R220). -/

/-- A ring that runs a slice in `s` still runs one in `t`. -/
def KeepsRuns (s t : State) : Prop := ∀ (p : PartId) (r : RingId), (s.rings[p][r].run).isSome → (t.rings[p][r].run).isSome

section
variable {s t u : State}

theorem KeepsRuns.trans (h : KeepsRuns s t) (k : KeepsRuns t u) : KeepsRuns s u := fun p r some' => k p r (h p r some')

theorem KeepsRuns.same (h : t.rings = s.rings) : KeepsRuns s t := fun p r some' => by rw [h]; exact some'

theorem updRing_keepsRuns {p : PartId} {r : RingId} {f : Ring → Ring} (hf : (s.rings[p][r].run).isSome → ((f s.rings[p][r]).run).isSome) : KeepsRuns s (s.updRing p r f) := by
  intro p' r' some'
  by_cases here : (p', r') = (p, r)
  · cases here
    rw [updRing_at]
    exact hf some'
  · rw [updRing_onlyRing p r f s p' r' here]
    exact some'

theorem admitOne_runs (c : Candidate) (s : State) : ((admitOne c s).rings[c.part][c.ring].run).isSome := by
  unfold admitOne
  extract_lets arrays v
  show (v.rings[c.part][c.ring].run).isSome
  unfold v
  rw [updRing_at]
  rfl

theorem admitOne_keepsRuns (c : Candidate) (s : State) : KeepsRuns s (admitOne c s) := by
  unfold admitOne
  extract_lets arrays v
  have hv : KeepsRuns s v := updRing_keepsRuns fun _ => rfl
  exact hv.trans (.same rfl)

theorem consider_keepsRuns (c : Candidate) (fits : Bool) (s : State) : KeepsRuns s (consider c fits s).1 := by
  have same := eligible_rings s c
  unfold consider
  split
  · next v e =>
    have reserved : KeepsRuns s v := .same (fst_rings e same)
    split
    · exact reserved.trans (admitOne_keepsRuns c v)
    · exact reserved
  · next v l _ e => exact .same (fst_rings e same)

theorem pass2_keepsRuns (n : Nat) (pool : Int) (spent : List (PartId × Nat)) (rest out : List Candidate) (s : State) : KeepsRuns s (pass2 n pool spent rest out s).1 := by
  induction n generalizing pool spent rest out s with
  | zero => exact .same rfl
  | succ n ih =>
    unfold pass2
    split
    · exact .same rfl
    · next c _ =>
      have considered := consider_keepsRuns c ((c.e : Int) ≤ pool) s
      extract_lets left
      split
      all_goals
        next e =>
          rw [e] at considered
          exact considered.trans (ih _ _ _ _ _)

theorem leaveOut_keepsRuns (l : List Candidate) (s : State) : KeepsRuns s (leaveOut l s) := by
  unfold leaveOut
  refine List.foldlRecOn (motive := KeepsRuns s) l _ (.same rfl) fun u hu c _ => ?_
  extract_lets v
  have hv : KeepsRuns s v := hu.trans (updRing_keepsRuns id)
  split
  · exact hv.trans (.same rfl)
  · exact hv

theorem finishAdmission_keepsRuns (a : Admission) (s : State) : KeepsRuns s (finishAdmission a s) := by
  unfold finishAdmission
  extract_lets x
  have passed : KeepsRuns s x.1 := pass2_keepsRuns _ _ _ _ _ _
  have closed : KeepsRuns s { x.1 with gov := { x.1.gov with admission := none } } := passed.trans (.same rfl)
  exact closed.trans (leaveOut_keepsRuns _ _)

theorem finishAdmission_over (a : Admission) (s : State) : (finishAdmission a s).gov.admission = none := by
  unfold finishAdmission
  extract_lets x
  have h : OnlyTouches [.parts, .rings] { x.1 with gov := { x.1.gov with admission := none } } (leaveOut x.2 { x.1 with gov := { x.1.gov with admission := none } }) :=
    leaveOut_only (.refl _ _) (by decide) (by decide)
  rw [h.gov_eq (by decide)]

theorem dueAdmit_over (a : Admission) (s : State) : (dueAdmit a s).gov.admission = none := by
  unfold dueAdmit
  split <;> exact finishAdmission_over ..

/-- The due candidate runs, whatever pass 2 then admits (R220). -/
theorem dueAdmit_runs {a : Admission} {c : Candidate} (due : duePick a s = some c) : ((dueAdmit a s).rings[c.part][c.ring].run).isSome := by
  unfold dueAdmit
  rw [due]
  exact finishAdmission_keepsRuns _ _ _ _ (admitOne_runs c _)

end

section
variable {p : PartId} {r : RingId} {s : State} {run : SliceRun}

theorem execSliceComplete_of {cycles energy : Nat} (hr : s.rings[p][r].run = some run) (over' : ∀ x ∈ run.arrays, x.finished = true) (visible : outputsVisible s p) :
    execSliceComplete p r cycles energy s = .next (completeRun p r run cycles energy s) := by
  unfold execSliceComplete
  rw [hr]
  exact need_of (Bool.and_eq_true_iff.mpr ⟨List.all_eq_true.mpr over', visible⟩)

theorem execSliceSplit_of {t : TickIn} (hr : s.rings[p][r].run = some run) (block : run.hdr.halfAddr ≠ 0) (again : 1 ≤ s.rings[p][r].subj.overruns) (open' : ∃ x ∈ run.arrays, x.finished = false) :
    execSliceSplit p r t s = .next (abortRun p r .overrun t s) := by
  refine need_of ?_
  unfold maySplit
  rw [hr]
  simpa using ⟨⟨block, again⟩, open'⟩

end

/-- Settles O22: a completion, a split and a due admission each run under their condition; the first two end the run of their ring alone. -/
theorem slicesEndAndAdmissionGoesOn : Obligations.SlicesEndAndAdmissionGoesOn := by
  intro s p r
  refine ⟨fun run cycles energy hr over' visible => ?_, fun run tin hr block again open' => ?_, fun adm due => ?_⟩
  · obtain ⟨others, idle⟩ := completeRun_endsRun p r run cycles energy s
    have learned := completeRun_correction p r run cycles energy s
    refine ⟨_, execSliceComplete_of hr over' visible, idle, ?_, fun p' ne => ?_, fun whole kept good => completeRun_head p r run cycles energy s whole kept good, others⟩
    · rw [learned, modVec_self]
    · rw [learned, modVec_other _ _ _ _ ne]
  · obtain ⟨others, idle⟩ := abortRun_endsRun .overrun tin hr
    exact ⟨_, execSliceSplit_of hr block again open', idle, fun moved still => abortRun_splits hr block again open' moved still, others⟩
  · have run : execEnergyDueAdmit s = .next (dueAdmit adm s) := by unfold execEnergyDueAdmit; rw [due]
    exact ⟨_, run, dueAdmit_over adm s, fun c pick => dueAdmit_runs pick⟩

end Sys2Proof.Machine
end

section
/-!
Settles O9: the settings that an OPERATOR, or a TENANT for its own partition, writes. Each write is `guarded`; where the guard lets it through, its answer is all that is added to the one value that changes, and a persistent value stands only where its flash write does not fail (`flashed_done`).
-/

namespace Sys2Proof.Machine

/-! The answers to a write that takes, and to a read. -/

section
variable {s t : State} {q : Req} {r : State × Status}

/-- A write of a persistent object that was carried out stands unless module flash fails (R544). -/
@[simp] theorem flashed_done : flashed q true s (t, .done) = if q.flashFails then (s, .internal) else (t, .done) := by simp [flashed]

theorem software_done (hr : reachable s) (h : r = (t, .done)) : software s (answer q r) = .next (answer q (t, .done)) := by
  rw [h, software_of hr]

theorem software_flashed_done (hr : reachable s) (h : r = (t, .done)) :
    software s (answer q (flashed q true s r)) = .next (answer q (if q.flashFails then (s, .internal) else (t, .done))) := by
  rw [h, flashed_done, software_of hr]

theorem opOrMaker_of_isOperator (h : isOperator s q) : opOrMaker s q := by simp [opOrMaker, h]

/-- An OPERATOR reads a served object. -/
theorem software_read {index sub : Nat} {b : Bytes} (hr : reachable s) (sv : served s index) (op : isOperator s q) :
    software s (answerData q index sub (if served s index && opOrMaker s q then (s, .done, b) else (s, .denied, []))) = .next (answerData q index sub (s, .done, b)) := by
  rw [software_of hr, if_pos (by simp [sv, opOrMaker_of_isOperator op])]

end

/-! The writes of an OPERATOR. -/

section
variable {s : State} {q : Req}

theorem opFramePeriod_range {us : BitVec 32} (out : us.toNat < 500 ∨ 8000 < us.toNat ∨ us.toNat % 100 ≠ 0) : opFramePeriod q us s = (s, .denied) := by
  refine guarded_not ?_
  simp only [Bool.and_eq_false_iff, decide_eq_false_iff_not]
  omega

variable (op : isOperator s q)
include op

theorem opFramePeriod_of {us : BitVec 32} (sv : served s 0x2000) (low : 500 ≤ us.toNat) (high : us.toNat ≤ 8000) (whole : us.toNat % 100 = 0) :
    opFramePeriod q us s = ({ s with tick := { s.tick with period := us, announced := if s.tick.role = 1 then some us.toNat else s.tick.announced } }, .done) :=
  guarded_of sv (by simp [op, low, high, whole])

/-- All zero removes the home, where nothing uses it. -/
theorem opPoolHome_removes {v : Bytes} (sv : served s 0x5010) (len : v.length = 16) (zero : leNat v = 0) (inList : (perOf s q).poolIndex.toNat < 1024)
    (free : homeUsed s.mem (perOf s q).poolIndex.toNat = 0) :
    opPoolHome q v s = ({ s with mem := { s.mem with homes := alDel (perOf s q).poolIndex.toNat s.mem.homes } }, .done) := by
  unfold opPoolHome
  rw [guarded_of sv op]
  simp [len, zero, inList, free]

theorem opRouteEntry_of {w : BitVec 32} (sv : served s 0x6021) (ok : routeOk w) :
    opRouteEntry q w s = ({ s with fab := { s.fab with routes := alPut 0 (perOf s q).routeDest.toNat w s.fab.routes } }, .done) :=
  guarded_of sv (by simp [op, ok])

theorem opAptEntry_of {w : BitVec 128} (sv : served s 0x6030) (inBar : (perOf s q).aptIndex.toNat < 131072) (ok : aptOk w) (valid : w ≠ 0) :
    opAptEntry q w s = ({ s with fab := { s.fab with aperture := alSet (perOf s q).aptIndex.toNat { raw := w } s.fab.aperture } }, .done) := by
  unfold opAptEntry
  rw [guarded_of sv (by simp [op, inBar, ok]), if_neg valid]

theorem opAlertAck_of {n : BitVec 64} (sv : served s 0x1102) :
    opAlertAck q n s = ({ s with dict := { s.dict with alerts := s.dict.alerts.filter (fun a => n.toNat < a) } }, .done) :=
  guarded_of sv op

theorem opQuota_of {p : PartId} {sub : Byte} {v : Bytes} (sv : served s (0x3000 + p.val)) (stays : s.parts[p].state ≠ .removing) (ok : quotaOk s p sub v) :
    opQuota q p sub v s = (s.updPart p (setQuota sub (leNat v)), .done) :=
  guarded_of sv (by simpa [op, ok] using stays)

end

/-- Subindex 5 of a partition is its share. -/
theorem setQuota_share (n : Nat) (x : Part) : setQuota 5 n x = { x with written := { x.written with share := BitVec.ofNat 16 n } } := rfl

/-! The writes of a TENANT for its partition. -/

section
variable {s : State} {q : Req} {p : PartId}

theorem opHostGrant_of {v : Byte} (sv : served s (0x3000 + p.val)) (tenant : isTenant s q p) (bit : v.toNat ≤ 1) :
    opHostGrant q p v s = (s.updPart p (fun x => { x with hostGrant := v = 1 }), .done) :=
  guarded_of sv (by simp [tenant, bit])

theorem opHostGrant_others {v : Byte} (other : ¬isTenant s q p) : opHostGrant q p v s = (s, .denied) :=
  guarded_not (by simp [other])

/-- A ring that is enabled runs from HEAD on. -/
def Ring.enabled (g : Ring) : Ring := { g with enable := true, state := if g.enable then g.state else 1 }

/-- A ring that is disabled offers nothing, and its fault is over. -/
def Ring.disabled (g : Ring) : Ring := { g with enable := false, state := 0 }

theorem opRingEnable_one {r : RingId} (sv : served s (0x4000 + 16 * p.val + r.val)) (may : opOrTenant s q p) (active : s.parts[p].state = .active) :
    opRingEnable q p r 1 s = (s.updRing p r Ring.enabled, .done) :=
  guarded_of sv (by simpa [may] using active)

theorem opRingEnable_zero {r : RingId} (sv : served s (0x4000 + 16 * p.val + r.val)) (may : opOrTenant s q p) :
    opRingEnable q p r 0 s = (s.updRing p r Ring.disabled, .done) :=
  guarded_of sv (by simp [may])

end

/-! What the answer to a write of one partition or ring leaves. -/

section
variable (s : State) (q : Req) (p : PartId) (st : Status)

theorem answer_updPart_other (f : Part → Part) (p' : PartId) (h : p' ≠ p) : (answer q (s.updPart p f, st)).parts[p'] = s.parts[p'] := updPart_other _ _ _ _ h

theorem answer_updPart_only (f : Part → Part) : OnlyTouches [.parts, .out, .dict] s (answer q (s.updPart p f, st)) :=
  answer_only (State_updPart_only (.refl _ s) (by decide)) (by decide) (by decide)

theorem answer_updRing_only (r : RingId) (f : Ring → Ring) : OnlyTouches [.rings, .out, .dict] s (answer q (s.updRing p r f, st)) :=
  answer_only (State_updRing_only (.refl _ s) (by decide)) (by decide) (by decide)

end

/-- Settles O9: every write is carried out by its guarded operation, and its answer leaves what the operation left; a TENANT's grant is denied to every other requester. -/
theorem settingsTakeTheirValue : Obligations.SettingsTakeTheirValue := by
  refine ⟨fun s q hr op => ⟨?period, ?range, ?homeRead, ?home, ?routeRead, ?route, ?aperture, ?alerts, ?share⟩, fun s q p hr => ⟨?grant, ?grantDenied, ?enable, ?disable⟩⟩
  case period => exact fun us sv low high whole => software_flashed_done hr (opFramePeriod_of op sv low high whole)
  case range => exact fun us out => software_flashed_denied hr (opFramePeriod_range out)
  case homeRead => exact fun sv => software_read hr sv op
  case home => exact fun v sv len zero inList free => software_flashed_done hr (opPoolHome_removes op sv len zero inList free)
  case routeRead => exact fun sv => software_read hr sv op
  case route => exact fun w sv ok => software_flashed_done hr (opRouteEntry_of op sv ok)
  case aperture => exact fun w sv inBar ok valid => software_flashed_done hr (opAptEntry_of op sv inBar ok valid)
  case alerts => exact fun n sv => software_done hr (opAlertAck_of op sv)
  case share =>
    intro p v sv stays ok
    have share : (s.updPart p (setQuota 5 (leNat v))).parts[p] = _ := (updPart_at ..).trans (setQuota_share ..)
    exact ⟨_, software_done hr (opQuota_of op sv stays ok), by rw [answer_parts, share], by rw [answer_parts, share], answer_updPart_other _ _ _ _ _, answer_updPart_only ..⟩
  case grant => exact fun v sv tenant bit => ⟨_, software_done hr (opHostGrant_of sv tenant bit), updPart_at .., answer_updPart_other _ _ _ _ _, rfl, answer_updPart_only ..⟩
  case grantDenied => exact fun v other => software_denied hr (opHostGrant_others other)
  case enable =>
    intro r sv may active off
    have ring : (s.updRing p r Ring.enabled).rings[p][r] = { s.rings[p][r] with enable := true, state := 1 } := by rw [updRing_at, Ring.enabled, off]; rfl
    exact ⟨_, software_done hr (opRingEnable_one sv may active), ring, updRing_onlyRing _ _ _ _, rfl, answer_updRing_only ..⟩
  case disable => exact fun r sv may => ⟨_, software_done hr (opRingEnable_zero sv may), updRing_at .., updRing_onlyRing _ _ _ _, rfl, answer_updRing_only ..⟩

end Sys2Proof.Machine
end

section
/-!
What announces leave of the tick (R205 to R207, R291, R293). The packets of an announce change the straits alone (`sendTicks_tick`), an announce that goes on enters its frame among those forwarded and nothing else (`forwardAnnounce_tick`), and an announce of the master followed adds what it says of the master and how the tick is held to it (`hearAnnounce_tick`).
-/

namespace Sys2Proof.Machine

section
variable {gs : List Group} {s t : State} (h : OnlyTouches gs s t)
include h

theorem OnlyTouches.out_eq (n : Group.out ∉ gs) : t.out = s.out := by simpa only [State.hide, if_neg n] using congrArg State.out h
theorem OnlyTouches.tick_eq (n : Group.tick ∉ gs) : t.tick = s.tick := by simpa only [State.hide, if_neg n] using congrArg State.tick h
theorem OnlyTouches.pow_eq (n : Group.pow ∉ gs) : t.pow = s.pow := by simpa only [State.hide, if_neg n] using congrArg State.pow h

end

section
variable {n : Announce} {s : State}

/-! An announce travels on (R280, R291). -/

theorem mayOriginate_of (id : s.fab.idInForce ≠ 0xFFFF) : mayOriginate s = true := decide_eq_true id

theorem mayOriginate_not (id : s.fab.idInForce = 0xFFFF) : mayOriginate s = false := by simp [mayOriginate, id]

@[simp] theorem sendTicks_tick (ks : List StraitId) : (sendTicks ks s).tick = s.tick :=
  (sendTicks_only (gs := [.fab]) (.refl _ s) (by decide)).tick_eq (by decide)

@[simp] theorem sendTicks_out (ks : List StraitId) : (sendTicks ks s).out = s.out :=
  (sendTicks_only (gs := [.fab]) (.refl _ s) (by decide)).out_eq (by decide)

theorem forwardAnnounce_stops (h : n.hops = 0 ∨ n.frame ∈ s.tick.forwarded ∨ s.fab.idInForce = 0xFFFF) : forwardAnnounce n s = s :=
  if_pos (by simpa [mayOriginate] using h)

theorem forwardAnnounce_travels (left : n.hops ≠ 0) (first : n.frame ∉ s.tick.forwarded) (id : s.fab.idInForce ≠ 0xFFFF) :
    forwardAnnounce n s = (sendTicks ((tickStraits s).filter (fun k => k ≠ n.strait)) { s with tick := { s.tick with forwarded := n.frame :: s.tick.forwarded } }).emit
      (((tickStraits s).filter (fun k => k ≠ n.strait)).map (fun k => .announce { n with strait := k, accDelay := announceDelay n s + n.residence, hops := n.hops - 1, arrival := 0, residence := 0 })) :=
  if_neg (by simp [mayOriginate_of id, left, first])

/-- Of the tick, only the frames forwarded may change. -/
theorem forwardAnnounce_tick : ∃ fs, (forwardAnnounce n s).tick = { s.tick with forwarded := fs } := by
  by_cases stops : n.hops = 0 ∨ n.frame ∈ s.tick.forwarded ∨ s.fab.idInForce = 0xFFFF
  · exact ⟨s.tick.forwarded, by rw [forwardAnnounce_stops stops]⟩
  · obtain ⟨left, first, id⟩ : n.hops ≠ 0 ∧ n.frame ∉ s.tick.forwarded ∧ s.fab.idInForce ≠ 0xFFFF := by simpa only [not_or] using stops
    exact ⟨n.frame :: s.tick.forwarded, by rw [forwardAnnounce_travels left first id, emit_tick, sendTicks_tick]⟩

/-! An announce of the master followed (R206, R293). -/

/-- The copies heard of the frame in progress, once this one has come: a copy later than 10 us is not one of them. -/
def heardOf (n : Announce) (s : State) : List (StraitId × Nat) :=
  if n.arrival ≤ 10000 then s.tick.heard ++ [(n.strait, announceDelay n s)] else s.tick.heard

/-- The tick is held to a copy that disciplines it, by at most 50 ns in a frame (R293). -/
def steered (n : Announce) (s : State) : State :=
  let off : Int := announceDelay n s - n.arrival
  if disciplines n s then { s with tick := { s.tick with offset := off, owedNs := off - max (-50) (min 50 off) } } else s

theorem steered_tick : ∃ off owed, (steered n s).tick = { s.tick with offset := off, owedNs := owed } := by
  unfold steered
  split
  · exact ⟨_, _, rfl⟩
  · exact ⟨s.tick.offset, s.tick.owedNs, rfl⟩

theorem steered_fab : (steered n s).fab = s.fab := by
  unfold steered
  split <;> rfl

theorem hearAnnounce_eq : hearAnnounce n s =
    let u := steered n (takeMaster n s)
    let t := forwardAnnounce n u
    if n.arrival ≤ 10000 then { t with tick := { t.tick with heard := t.tick.heard ++ [(n.strait, announceDelay n u)] } } else t := rfl

/-- It says who the master is and who follows it; the tick may be held to it, and it may go on. -/
theorem hearAnnounce_tick : ∃ off owed fs,
    (hearAnnounce n s).tick = { (takeMaster n s).tick with offset := off, owedNs := owed, forwarded := fs, heard := heardOf n s } := by
  have delay : announceDelay n (steered n (takeMaster n s)) = announceDelay n s := by
    unfold announceDelay
    rw [steered_fab]
    rfl
  obtain ⟨off, owed, held⟩ := steered_tick (n := n) (s := takeMaster n s)
  obtain ⟨fs, sent⟩ := forwardAnnounce_tick (n := n) (s := steered n (takeMaster n s))
  rw [held] at sent
  refine ⟨off, owed, fs, ?_⟩
  rw [hearAnnounce_eq, heardOf]
  split
  · simp only [sent, delay]
    rfl
  · exact sent

/-! Which of its ways an announce takes. -/

theorem execTickAnnounce_of (on : n.strait ∈ tickStraits s) (listens : s.tick.joined ∨ bootReady s) : execTickAnnounce n s = .next (announceIn n s) :=
  need_of (by rcases listens with h | h <;> simpa [h] using on)

theorem announceIn_joins (h : s.tick.joined = false) : announceIn n s = joinTick n s := if_pos (by simp [h])

section
variable (joined : s.tick.joined)
include joined

theorem announceIn_own (own : n.master = s.tick.master) (follower : s.tick.role ≠ 1) :
    announceIn n s = if n.frame = s.tick.frame.toNat then hearAnnounce n s else forwardAnnounce n s := by
  unfold announceIn
  rw [if_neg (by simp [joined]), if_pos ⟨own, follower⟩]

theorem announceIn_other (other : n.master ≠ s.tick.master) :
    announceIn n s = if n.master ≠ s.fab.idInForce ∧ followsOther n s then adoptMaster n s else forwardAnnounce n s := by
  unfold announceIn
  rw [if_neg (by simp [joined]), if_neg fun own => other own.1]

/-- An announce of another frame of the master followed, or of a master that is not followed, only travels on. -/
theorem announceIn_forwards (h : (n.master = s.tick.master ∧ s.tick.role ≠ 1 ∧ n.frame ≠ s.tick.frame.toNat) ∨ (n.master ≠ s.tick.master ∧ followsOther n s = false)) :
    announceIn n s = forwardAnnounce n s := by
  rcases h with ⟨own, follower, frame⟩ | ⟨other, lower⟩
  · rw [announceIn_own joined own follower, if_neg frame]
  · rw [announceIn_other joined other, if_neg (by simp [lower])]

end

end

/-! Boot step 8 ends (R593, R595). -/

section
variable {s t : State}

theorem bootReady_congr (h : t.pow = s.pow) : bootReady t = bootReady s := by
  unfold bootReady hubUp diesSettled
  rw [h]

/-- With MOD_PWR_EN high and no request that waited, ACTIVE is reached and the tick stands. -/
theorem reachActive_plain (boot : bootReady s) (power : s.pow.pwrEn) (free : s.pow.latched = none) : (reachActive s).tick = s.tick ∧ (reachActive s).pow.mod = .active := by
  unfold reachActive carryLatched
  simp [boot, power, free]

end

end Sys2Proof.Machine
end

section
/-!
Settles O24: which announce is joined, heard, followed or only sent on. Each way's tick is read off `hearAnnounce_tick` or `forwardAnnounce_tick`.
-/

namespace Sys2Proof.Machine

section
variable {n : Announce} {s : State}

/-- The state in which a booting module hears its first announce: joined, in the master's frame and period. -/
def joining (n : Announce) (s : State) : State :=
  { s with tick := { s.tick with joined := true, ticks := 0, frame := BitVec.ofNat 64 n.frame, inForce := BitVec.ofNat 32 n.period, parent := some n.strait, heard := [], forwarded := [], announced := none } }

theorem joinTick_eq : joinTick n s = reachActive (hearAnnounce n (joining n s)) := rfl

theorem joinTick_joins (boot : bootReady s) (power : s.pow.pwrEn) (free : s.pow.latched = none) :
    (joinTick n s).tick = (hearAnnounce n (joining n s)).tick ∧ (joinTick n s).pow.mod = .active := by
  have pow : (hearAnnounce n (joining n s)).pow = s.pow :=
    (hearAnnounce_only (gs := [.out, .tick, .fab]) (.refl _ (joining n s)) (by decide) (by decide) (by decide)).pow_eq (by decide)
  rw [joinTick_eq]
  exact reachActive_plain ((bootReady_congr pow).trans boot) ((congrArg Power.pwrEn pow).trans power) ((congrArg Power.latched pow).trans free)

/-- Following another master keeps the frame in progress; in another phase the running frame ends at the master's next one. -/
theorem adoptMaster_follows :
    let t := adoptMaster n s
    t.tick.master = n.master ∧ t.tick.masterPrio = some n.prio ∧ t.tick.role = followRole s.fab.idInForce n.succ1 n.succ2 ∧ t.tick.frame = s.tick.frame ∧
      (n.frame ≠ s.tick.frame.toNat → t.tick.adopt = some (n.frame + 1) ∧ t.tick.adjusted = true) := by
  intro t
  unfold t adoptMaster
  split
  case isTrue same =>
    obtain ⟨off, owed, fs, tick⟩ := hearAnnounce_tick (n := n) (s := { s with tick := { s.tick with announced := none } })
    rw [tick]
    exact ⟨rfl, rfl, rfl, rfl, fun phase => absurd same.1 phase⟩
  case isFalse =>
    obtain ⟨fs, tick⟩ := forwardAnnounce_tick (n := n) (s := takeMaster n { s with tick := { s.tick with adjusted := true, adopt := some (n.frame + 1), parent := some n.strait, heard := [], announced := none } })
    rw [tick]
    exact ⟨rfl, rfl, rfl, rfl, fun _ => ⟨rfl, rfl⟩⟩

theorem forwardAnnounce_within : OnlyTouches [.out, .tick, .fab] s (forwardAnnounce n s) := forwardAnnounce_only (.refl _ s) (by decide) (by decide) (by decide)

end

/-- Settles O24: a module joins the first announce, hears its own master's, follows one that stands before it, and sends every other one on. -/
theorem announcesAreFollowed : Obligations.AnnouncesAreFollowed := by
  intro s n on
  refine ⟨fun boot out period frame power free => ?_, fun joined own follower now early => ?_, fun joined passes => ⟨fun stops => ?_, fun left first id => ?_⟩, fun joined other foreign before => ?_⟩
  · have run := (execTickAnnounce_of on (.inr boot)).trans (congrArg _ (announceIn_joins out))
    obtain ⟨tick, active⟩ := joinTick_joins (n := n) boot power free
    obtain ⟨off, owed, fs, heard⟩ := hearAnnounce_tick (n := n) (s := joining n s)
    rw [heard] at tick
    refine ⟨_, run, ?_⟩
    rw [tick]
    exact ⟨rfl, Nat.mod_eq_of_lt frame, Nat.mod_eq_of_lt period, rfl, rfl, rfl, active⟩
  · have run := (execTickAnnounce_of on (.inl joined)).trans (congrArg _ (announceIn_own joined own follower))
    rw [if_pos now] at run
    obtain ⟨off, owed, fs, tick⟩ := hearAnnounce_tick (n := n) (s := s)
    refine ⟨_, run, ?_⟩
    rw [tick, heardOf, if_pos early]
    exact ⟨rfl, rfl, rfl, rfl, rfl, rfl, hearAnnounce_only (.refl _ s) (by decide) (by decide) (by decide)⟩
  · have run := (execTickAnnounce_of on (.inl joined)).trans (congrArg _ (announceIn_forwards joined passes))
    rwa [forwardAnnounce_stops stops] at run
  · have run := (execTickAnnounce_of on (.inl joined)).trans (congrArg _ (announceIn_forwards joined passes))
    refine ⟨_, run, ?_, ?_, forwardAnnounce_within⟩
    · rw [forwardAnnounce_travels left first id, emit_tick, sendTicks_tick]
    · rw [forwardAnnounce_travels left first id, emit_out, sendTicks_out]
  · have run := (execTickAnnounce_of on (.inl joined)).trans (congrArg _ (announceIn_other joined other))
    rw [if_pos ⟨foreign, before⟩] at run
    obtain ⟨master, prio, role, frame, phase⟩ := adoptMaster_follows (n := n) (s := s)
    exact ⟨_, run, master, prio, role, frame, phase, adoptMaster_only (.refl _ s) (by decide) (by decide) (by decide)⟩

end Sys2Proof.Machine
end

section
/-!
Settles O25: probes of a link (R292), missed ticks and succession (R205), and boot step 8 without an announce (R593). A probe or its answer is one flit of one slot, which the strait counts and which leaves what the probe measures (`sent_probe`).
-/

namespace Sys2Proof.Machine

/-! A flit leaves on a strait. -/

section
variable (key : Nat → Bytes) (vc slots : Nat) (bytes : Bytes) (x : Strait)

/-- A lane swap that falls due changes neither the counters nor what probes measure. -/
theorem Strait.swapped_keeps : x.swapped.counters = x.counters ∧ x.swapped.probeT1 = x.probeT1 ∧ x.swapped.delay = x.delay := by
  unfold Strait.swapped
  split
  · split
    · exact ⟨rfl, rfl, rfl⟩
    · exact ⟨rfl, rfl, rfl⟩
  · exact ⟨rfl, rfl, rfl⟩

/-- The flit's slots are counted, and what probes measure stands. -/
theorem Strait.sent_probe :
    (x.sent key vc slots bytes).counters = bump x.counters 4 slots ∧ (x.sent key vc slots bytes).probeT1 = x.probeT1 ∧ (x.sent key vc slots bytes).delay = x.delay := by
  obtain ⟨counters, probe, delay⟩ := x.swapped_keeps
  exact ⟨congrArg (bump · 4 slots) counters, probe, delay⟩

end

section
variable (k : StraitId) (vc slots : Nat) (bytes : Option Bytes) (s : State)

theorem sendFlit_probe :
    let x := (sendFlit k vc slots bytes s).fab.straits[k]
    x.counters = bump s.fab.straits[k].counters 4 slots ∧ x.probeT1 = s.fab.straits[k].probeT1 ∧ x.delay = s.fab.straits[k].delay := by
  unfold sendFlit
  rw [updStrait_at]
  exact Strait.sent_probe ..

theorem sendFlit_other (j : StraitId) (h : j ≠ k) : (sendFlit k vc slots bytes s).fab.straits[j] = s.fab.straits[j] := updStrait_other _ _ _ _ h

variable {k vc slots bytes s}

theorem emit_sendFlit_only {u : State} {o : List Output} (h : OnlyTouches [.out, .fab] u s) : OnlyTouches [.out, .fab] u ((sendFlit k vc slots bytes s).emit o) :=
  State_emit_only (sendFlit_only h (by decide)) (by decide)

end

/-! Probes. -/

section
variable {k : StraitId} {s : State} {t1 t2 t3 t4 : Nat} (on : k ∈ tickStraits s)
include on

/-- The strait notes when its probe left (R292). -/
theorem execTickProbe_of (id : s.fab.idInForce ≠ 0xFFFF) :
    execTickProbe k t1 s = .next ((sendFlit k 0 (slotsOf 0) none (s.updStrait k (fun x => { x with probeT1 := some t1 }))).emit [.probe k]) :=
  need_of (Bool.and_eq_true_iff.mpr ⟨List.contains_iff_mem.mpr on, mayOriginate_of id⟩)

theorem execProbe_answers (id : s.fab.idInForce ≠ 0xFFFF) : execProbe k t1 t2 t3 s = .next ((sendFlit k 0 (slotsOf 0) none s).emit [.probeReply k t1 t2 t3]) := by
  unfold execProbe
  rw [need_of (List.contains_iff_mem.mpr on), if_pos (mayOriginate_of id)]

theorem execProbe_silent (id : s.fab.idInForce = 0xFFFF) : execProbe k t1 t2 t3 s = .next s := by
  unfold execProbe
  rw [need_of (List.contains_iff_mem.mpr on), if_neg (by simp [mayOriginate_not id])]

theorem execTickProbeReply_of (sent : s.fab.straits[k].probeT1 = some t1) : execTickProbeReply k t2 t3 t4 s = .next (probeDone k t1 t2 t3 t4 s) := by
  unfold execTickProbeReply
  rw [sent]
  exact need_of (List.contains_iff_mem.mpr on)

end

/-! Succession and the first master. -/

section
variable {s : State} {c : List (Nat × Device)}

theorem execTickSuccession_of (joined : s.tick.joined) (follower : s.tick.role ≠ 1) (id : s.fab.idInForce ≠ 0xFFFF)
    (turn : (2 ≤ s.tick.missedRun ∧ s.tick.succ1 = s.fab.idInForce) ∨ (4 ≤ s.tick.missedRun ∧ s.tick.succ2 = s.fab.idInForce)) :
    execTickSuccession c s = .next (becomeMaster c s) := by
  have missed : 2 ≤ s.tick.missedRun := by omega
  have falls : succeeds c s = true := by
    unfold succeeds
    rcases turn with ⟨two, first⟩ | ⟨four, second⟩
    · simpa [two, first] using id
    · simpa [four, second] using id
  unfold execTickSuccession
  rw [need_of (by simpa [joined, missed] using follower), if_pos falls]

theorem execTickSelfMaster_of (boot : bootReady s) (out : s.tick.joined = false) : execTickSelfMaster s = .next (selfMaster s) := need_of (by simp [boot, out])

/-- A candidate for master at boot step 8: joined, in frame 1 with its own period. -/
def firstMaster (s : State) : State :=
  becomeMaster [] { s with tick := { s.tick with joined := true, ticks := 0, frame := 1, inForce := s.tick.period, heard := [], forwarded := [] } }

theorem selfMaster_candidate (h : s.tick.priority ≠ 0) : selfMaster s = reachActive (firstMaster s) := if_pos h

theorem selfMaster_other (h : s.tick.priority = 0) : selfMaster s = reachActive { s with tick := { s.tick with role := 5 } } := if_neg (not_not_intro h)

end

/-- Settles O25: a probe and its answers, a missed tick, the successor's turn, and a module that hears no announce at boot step 8. -/
theorem ticksAreProbedAndSucceeded : Obligations.TicksAreProbedAndSucceeded := by
  intro s
  refine ⟨fun k on t1 t2 t3 t4 => ⟨fun id => ?_, fun id => ?_, fun id => execProbe_silent on id, fun sent => ?_⟩, fun joined follower silent => ?_,
    fun c joined follower id turn => ?_, fun boot out power free candidate => ?_, fun boot out power free other => ?_⟩
  · obtain ⟨counters, probe, delay⟩ := sendFlit_probe k 0 (slotsOf 0) none (s.updStrait k (fun x => { x with probeT1 := some t1 }))
    rw [updStrait_at] at counters probe delay
    refine ⟨_, execTickProbe_of on id, probe, delay, counters, fun j ne => ?_, rfl, emit_sendFlit_only (State_updStrait_only (.refl _ s) (by decide))⟩
    exact (sendFlit_other _ _ _ _ _ j ne).trans (updStrait_other _ _ _ _ ne)
  · obtain ⟨counters, -, -⟩ := sendFlit_probe k 0 (slotsOf 0) none s
    exact ⟨_, execProbe_answers on id, counters, rfl, sendFlit_other _ _ _ _ _, emit_sendFlit_only (.refl _ s)⟩
  · exact ⟨_, execTickProbeReply_of on sent, updStrait_at .., fun j => updStrait_other _ _ j _, State_updStrait_only (.refl _ s) (by decide)⟩
  · exact need_of (by simpa [joined, silent] using follower)
  · exact ⟨_, execTickSuccession_of joined follower id turn, rfl, rfl, rfl, rfl, rfl, becomeMaster_only (.refl _ s) (by decide)⟩
  · have run := (execTickSelfMaster_of boot out).trans (congrArg _ (selfMaster_candidate candidate))
    obtain ⟨tick, active⟩ := reachActive_plain (s := firstMaster s) boot power free
    refine ⟨_, run, ?_⟩
    rw [tick]
    exact ⟨rfl, rfl, rfl, rfl, active⟩
  · have run := (execTickSelfMaster_of boot out).trans (congrArg _ (selfMaster_other other))
    obtain ⟨tick, active⟩ := reachActive_plain (s := { s with tick := { s.tick with role := 5 } }) boot power free
    refine ⟨_, run, ?_⟩
    rw [tick]
    exact ⟨out, rfl, active⟩

end Sys2Proof.Machine
end

section
/-!
Memory work and the windows: an operation on `VM` or `Mem` never writes a window's bytes (R230, R231); only the operations on `State` do.
-/

namespace Sys2Proof.Machine

/-- What each step of a fold keeps, the fold keeps. -/
theorem foldl_keeps {α β γ : Type} (π : β → γ) {f : β → α → β} (hf : ∀ u x, π (f u x) = π u) (l : List α) (b : β) : π (l.foldl f b) = π b := by
  induction l generalizing b with
  | nil => rfl
  | cons x l ih => exact (ih _).trans (hf _ _)

@[simp] theorem VM.foldl_windows {α : Type} {f : VM → α → VM} (hf : ∀ v x, (f v x).mem.window = v.mem.window) (l : List α) (v : VM) : (l.foldl f v).mem.window = v.mem.window :=
  foldl_keeps (fun v => v.mem.window) hf l v
@[simp] theorem VM.foldl_fst_windows {α β : Type} {f : VM × β → α → VM × β} (hf : ∀ u x, (f u x).1.mem.window = u.1.mem.window) (l : List α) (u : VM × β) :
    (l.foldl f u).1.mem.window = u.1.mem.window :=
  foldl_keeps (fun u => u.1.mem.window) hf l u
@[simp] theorem Mem.foldl_windows {α : Type} {f : Mem → α → Mem} (hf : ∀ m x, (f m x).window = m.window) (l : List α) (m : Mem) : (l.foldl f m).window = m.window :=
  foldl_keeps Mem.window hf l m

/-- The state that a pair carries, where a match has taken the pair apart. -/
theorem VM.fst_windows {β : Type} {u : VM × β} {v : VM} {c : β} (e : u = (v, c)) : v.mem.window = u.1.mem.window := by subst e; rfl

/-! What is stored. -/

section
variable (m : Mem) (k : Keys)

@[simp] theorem storeAt_windows (loc : Loc) (i : Nat) (x : StoredSector) : (storeAt loc i x m).window = m.window := by cases loc <;> rfl
@[simp] theorem freeLoc_windows (loc : Loc) : (freeLoc loc m).window = m.window := by cases loc <;> rfl
@[simp] theorem treeUpdate_windows (stack i : Nat) : (treeUpdate k stack i m).window = m.window := rfl
@[simp] theorem setCtr_windows (r : Region) (i c : Nat) : (setCtr k r i c m).window = m.window := rfl
@[simp] theorem clearSlot_windows (slot : Nat) : (clearSlot k slot m).window = m.window := rfl
@[simp] theorem winMark_windows (p : PartId) (off len : Nat) : (winMark p off len m).window = m.window := rfl
@[simp] theorem heatPages_windows : (heatPages m).window = m.window := rfl
@[simp] theorem stopMemory_windows (p : PartId) : (stopMemory p m).window = m.window := rfl
@[simp] theorem Mem.latch_windows : m.latch.window = m.window := rfl
@[simp] theorem lentStore_windows (i : Nat) (l : List StoredSector) : (lentStore i l m).window = m.window := by
  induction l generalizing i m with
  | nil => rfl
  | cons x l ih => exact ih _ _
theorem formSet_windows {m' : Mem} {i : Nat} (h : formSet m = some (m', i)) : m'.window = m.window := by
  unfold formSet at h
  dsimp only at h
  split at h
  · cases h; rfl
  · cases h

end

section
variable (p : PartId) (page va i : Nat) (acc : Bool) (v : VM)

@[simp] theorem VM.foldl_setCtr_windows (r : Region) (c : Nat) (l : List Nat) : (l.foldl (fun v i => { v with mem := setCtr v.keys r i c v.mem }) v).mem.window = v.mem.window := by
  apply VM.foldl_windows
  exact fun _ _ => rfl

/-! Regions, leaf entries and caches. -/

@[simp] theorem VM.audit_windows (e : AuditEntry) : (v.audit e).mem.window = v.mem.window := rfl
@[simp] theorem VM.alert_windows (n : Nat) : (v.alert n).mem.window = v.mem.window := rfl
@[simp] theorem VM.stat_windows (k : Nat) : (v.stat i k).mem.window = v.mem.window := rfl
@[simp] theorem VM.updPart_windows (f : Part → Part) : (v.updPart p f).mem.window = v.mem.window := rfl
@[simp] theorem VM.event_windows (c : Status) : (v.event p c).mem.window = v.mem.window := rfl
@[simp] theorem VM.draw_windows : v.draw.mem.window = v.mem.window := rfl
@[simp] theorem VM.growTable_windows (level : Nat) : (v.growTable p va level).mem.window = v.mem.window := by unfold VM.growTable; split <;> rfl
@[simp] theorem VM.translate_windows : (v.translate p va).mem.window = v.mem.window := by unfold VM.translate; dsimp only; split <;> rfl
@[simp] theorem VM.dropLeaf_windows : (v.dropLeaf p page).mem.window = v.mem.window := rfl
@[simp] theorem VM.setRegion_windows (r : Region) : (v.setRegion p page r).mem.window = v.mem.window := rfl
@[simp] theorem VM.setLeaf_windows (l : Leaf) : (v.setLeaf p page l).mem.window = v.mem.window := by simp [VM.setLeaf]
@[simp] theorem VM.cacheLines_windows (path : List (Nat × Nat × Nat)) (w : Bool) : (v.cacheLines i path w).mem.window = v.mem.window := rfl
@[simp] theorem VM.cacheLook_windows (r : Region) (loc : Loc) (w : Bool) : (v.cacheLook r i loc w).mem.window = v.mem.window := by unfold VM.cacheLook; split <;> simp
@[simp] theorem VM.touch_windows : (v.touch p va acc).mem.window = v.mem.window := by unfold VM.touch; split <;> rfl

/-! Failures and re-encryption. -/

@[simp] theorem VM.endWaits_windows (st : Status) : (v.endWaits p va st).mem.window = v.mem.window := by simp [VM.endWaits]
@[simp] theorem VM.markPoisoned_windows (st : Status) : (v.markPoisoned p va st).mem.window = v.mem.window := by unfold VM.markPoisoned; split <;> simp
@[simp] theorem VM.enterRekey_windows (reason : Reason) (e : Nat) : (v.enterRekey p page reason e).mem.window = v.mem.window := by simp [VM.enterRekey]
@[simp] theorem VM.treeLoss_windows (r : Region) (level : Nat) (integrity : Bool) : (v.treeLoss r i level integrity).mem.window = v.mem.window := by
  refine (VM.foldl_windows (fun u x => ?_) _ _).trans (Mem.foldl_windows (fun m n => treeUpdate_windows m ..) ..)
  dsimp only
  (repeat' split) <;> simp
@[simp] theorem VM.enterMissed_windows : (v.enterMissed p page).mem.window = v.mem.window := by
  unfold VM.enterMissed
  dsimp only
  (repeat' split) <;> simp
@[simp] theorem VM.steady_windows : (v.steady p page).mem.window = v.mem.window := by unfold VM.steady; dsimp only; split <;> simp

/-! Reading. -/

@[simp] theorem VM.readSector_windows (d : Delivered) : (v.readSector p va d acc).1.mem.window = v.mem.window := by
  unfold VM.readSector
  dsimp only
  (repeat' split) <;> simp
@[simp] theorem VM.readBytes_windows (len : Nat) : (v.readBytes p va len).1.mem.window = v.mem.window := by
  refine VM.foldl_fst_windows (fun u x => ?_) _ _
  split
  · rfl
  · split <;> rename_i e <;> simp [VM.fst_windows e]
@[simp] theorem readVirtual_windows (faults : Faults) (len : Nat) : (readVirtual p faults va len v).1.mem.window = v.mem.window := by
  refine VM.foldl_fst_windows (fun u x => ?_) _ _
  dsimp only
  split
  · rfl
  · split <;> rename_i e <;> simp [VM.fst_windows e]

/-! Re-encrypting and copying. -/

@[simp] theorem VM.rekeyOne_windows (d : Delivered) : (v.rekeyOne p page d).mem.window = v.mem.window := by
  unfold VM.rekeyOne
  dsimp only
  (repeat' split) <;> simp
@[simp] theorem VM.rekeyPast_windows : (v.rekeyPast p page i).mem.window = v.mem.window := by simp [VM.rekeyPast]
@[simp] theorem VM.migrateOne_windows : (v.migrateOne p page).mem.window = v.mem.window := by
  unfold VM.migrateOne
  dsimp only
  (repeat' split) <;> simp
@[simp] theorem VM.migrateEnd_windows : (v.migrateEnd p page).mem.window = v.mem.window := by
  unfold VM.migrateEnd
  dsimp only
  (repeat' split) <;> simp
@[simp] theorem VM.migrateAll_windows : (v.migrateAll p page).mem.window = v.mem.window := by unfold VM.migrateAll; split <;> simp
@[simp] theorem VM.dropCopy_windows : (v.dropCopy p page).mem.window = v.mem.window := rfl
@[simp] theorem VM.abandonCopy_windows : (v.abandonCopy p page).mem.window = v.mem.window := by
  unfold VM.abandonCopy
  dsimp only
  split
  · (repeat' split) <;> simp [apply_ite Mem.window]
  · rfl
@[simp] theorem VM.copySector_windows : (v.copySector p page).mem.window = v.mem.window := by
  unfold VM.copySector
  dsimp only
  (repeat' split) <;> simp

/-! Writing. -/

@[simp] theorem VM.writeWait_windows : (v.writeWait p va).mem.window = v.mem.window := by
  unfold VM.writeWait
  dsimp only
  (repeat' split) <;> simp
@[simp] theorem VM.writeNow_windows (x : Sector) (cas : Bool) : (v.writeNow p va x acc cas).1.mem.window = v.mem.window := by
  unfold VM.writeNow
  dsimp only
  (repeat' split) <;> simp
@[simp] theorem VM.writeAs_windows (x : Sector) (cas : Bool) : (v.writeAs p va x acc cas).1.mem.window = v.mem.window := by
  unfold VM.writeAs
  split
  · rfl
  · split <;> simp
@[simp] theorem VM.writeSector_windows (x : Sector) : (v.writeSector p va x acc).1.mem.window = v.mem.window := VM.writeAs_windows ..
@[simp] theorem VM.writePart_windows (b : Bytes) (d : Delivered) : (v.writePart p va b d acc).1.mem.window = v.mem.window := by
  unfold VM.writePart
  split
  · rfl
  · split
    · rfl
    · split
      · simp
      · split <;> rename_i e <;> simp [VM.fst_windows e]
@[simp] theorem VM.writeBytes_windows (b : Bytes) : (v.writeBytes p va b acc).1.mem.window = v.mem.window := by
  refine VM.foldl_fst_windows (fun u x => ?_) _ _
  dsimp only
  split
  · split <;> rename_i e <;> simp [VM.fst_windows e]
  · rfl
@[simp] theorem VM.refused_windows (len : Nat) (st : Status) : (v.refused p va len st).mem.window = v.mem.window := by unfold VM.refused; split <;> rfl
@[simp] theorem VM.poisonSector_windows : (v.poisonSector p va).1.mem.window = v.mem.window := by
  unfold VM.poisonSector
  dsimp only
  (repeat' split) <;> rfl

end

section
variable (priv : Nat) (p : PartId) (page i : Nat) (v : VM)

/-! Backing and mapping. -/

theorem VM.takeFrame_windows {w : VM} {loc : Loc} (h : v.takeFrame priv = some (w, loc)) : w.mem.window = v.mem.window := by
  obtain ⟨st, -, h⟩ := List.exists_of_findSome?_eq_some h
  split at h
  · cases h
  · cases h; rfl
theorem VM.takeSlot_windows {w : VM} {c : Nat} (h : v.takeSlot = some (w, c)) : w.mem.window = v.mem.window := by
  obtain ⟨st, -, h⟩ := List.exists_of_findSome?_eq_some h
  split at h
  · cases h
  · cases h; rfl
theorem VM.takeT2_windows {w : VM} {loc : Loc} (h : v.takeT2 = some (w, loc)) : w.mem.window = v.mem.window := by
  unfold VM.takeT2 at h
  split at h
  · cases h; rfl
  · split at h
    · rename_i e
      obtain ⟨x, -, hx⟩ := Option.map_eq_some_iff.mp h
      cases hx
      exact formSet_windows _ e
    · cases h
theorem VM.backAt_windows {w : VM} (leaf : Leaf) (h : v.backAt p page leaf = some w) : w.mem.window = v.mem.window := by
  unfold VM.backAt at h
  split at h
  · cases h
  · rename_i e
    cases h
    simp [VM.takeSlot_windows _ e]
theorem VM.backPage_windows {w : VM} (place : Nat) (mk : Loc → Leaf) (h : v.backPage priv p page place mk = some w) : w.mem.window = v.mem.window := by
  have frame : ∀ x, (if t1Use v.mem p < quotaPages v.parts[p].force.t1 then v.takeFrame priv else none) = some x → x.1.mem.window = v.mem.window := fun x e => by
    split at e
    · exact VM.takeFrame_windows _ _ e
    · cases e
  have slot : ∀ x, (if t2Use v.mem p < quotaPages v.parts[p].force.t2 then v.takeT2 else none) = some x → x.1.mem.window = v.mem.window := fun x e => by
    split at e
    · exact VM.takeT2_windows _ e
    · cases e
  unfold VM.backPage at h
  dsimp only at h
  split at h
  · cases h
  split at h
  · cases h
  · rename_i u loc got
    refine (VM.backAt_windows _ _ _ _ h).trans ?_
    split at got
    · exact frame _ got
    · split at got
      · exact slot _ got
      · split at got
        · rename_i e; cases got; exact frame _ e
        · exact slot _ got
theorem VM.mapAll_windows {w : VM} (attr : Nat) (l : List Nat) (h : v.mapAll priv p attr l = some w) : w.mem.window = v.mem.window := by
  induction l generalizing v with
  | nil => cases h; rfl
  | cons page l ih =>
    unfold VM.mapAll at h
    dsimp only at h
    split at h
    · simpa using ih _ h
    · split at h
      · rename_i e; exact (ih _ h).trans (VM.backPage_windows _ _ _ _ _ _ e)
      · cases h
theorem VM.reserve_windows {w : VM} (l : List Nat) (h : v.reserve priv p l = .ok w) : w.mem.window = v.mem.window := by
  induction l generalizing v with
  | nil => cases h; rfl
  | cons g l ih =>
    unfold VM.reserve at h
    split at h
    · split at h
      · split at h
        · rename_i e; exact (ih _ h).trans (VM.backPage_windows _ _ _ _ _ _ e)
        · cases h
      · exact ih _ h
    · exact ih _ h
@[simp] theorem VM.doMap_windows (va : BitVec 64) (n attr : Nat) : (v.doMap priv p va n attr).1.mem.window = v.mem.window := by
  unfold VM.doMap
  split
  · rfl
  · split
    · rfl
    · split
      · rename_i e; exact VM.mapAll_windows _ _ _ _ _ e
      · rfl
@[simp] theorem VM.doSetAttr_windows (va : BitVec 64) (n attr : Nat) : (v.doSetAttr p va n attr).1.mem.window = v.mem.window := by
  unfold VM.doSetAttr
  split
  · rfl
  · split <;> rfl
@[simp] theorem VM.doRelease_windows (va : BitVec 64) (n : Nat) (discard : Bool) : (v.doRelease p va n discard).1.mem.window = v.mem.window := by
  unfold VM.doRelease
  split
  · rfl
  · split <;> rfl
@[simp] theorem VM.unback_windows : (v.unback p page).mem.window = v.mem.window := by
  unfold VM.unback
  dsimp only
  (repeat' split) <;> simp
@[simp] theorem VM.applyReleases_windows : (v.applyReleases p).mem.window = v.mem.window := by
  refine VM.foldl_windows (fun u x => ?_) _ _
  dsimp only
  split <;> simp

/-! Migration and failed homes. -/

@[simp] theorem VM.plan_windows (dst : Loc) : (v.plan p page dst).mem.window = v.mem.window := rfl
@[simp] theorem VM.demote_windows : (v.demote p).1.mem.window = v.mem.window := by
  refine VM.foldl_fst_windows (fun u x => ?_) _ _
  dsimp only
  split
  · rfl
  · split
    · rfl
    · split
      · rename_i e; exact (VM.plan_windows ..).trans (VM.takeT2_windows _ e)
      · rfl
@[simp] theorem VM.promote_windows : (v.promote priv).mem.window = v.mem.window := by
  refine VM.foldl_windows (fun u x => ?_) _ _
  dsimp only
  split
  · rfl
  · split
    · rename_i e
      split at e
      · exact (VM.plan_windows ..).trans (VM.takeFrame_windows _ _ e)
      · cases e
    · split
      · split <;> rfl
      · rfl
@[simp] theorem VM.overQuota_windows (short : Bool) : (v.overQuota p short).mem.window = v.mem.window := rfl
@[simp] theorem VM.judgeQuota_windows : v.judgeQuota.mem.window = v.mem.window := by
  unfold VM.judgeQuota
  refine VM.foldl_windows (fun u x => ?_) _ _
  split <;> simp
@[simp] theorem VM.planMigrations_windows : (v.planMigrations priv).mem.window = v.mem.window := by
  unfold VM.planMigrations
  rw [VM.promote_windows]
  refine VM.foldl_windows (fun u x => ?_) _ _
  split <;> simp
@[simp] theorem VM.replaceHome_windows (home : Nat) : (v.replaceHome home).mem.window = v.mem.window := by
  refine (VM.foldl_windows (fun u x => ?_) _ _).trans (VM.foldl_windows (fun u q => VM.abandonCopy_windows ..) _ _)
  have lost : ∀ (u : VM) (l : List (PartId × Nat × Nat)) (f : VM → PartId × Nat × Nat → VM), (∀ w y, (f w y).mem.window = w.mem.window) → (l.foldl f u).mem.window = u.mem.window := fun u l f hf => VM.foldl_windows hf l u
  dsimp only
  split
  all_goals
    refine lost _ _ _ fun w y => ?_
    split <;> simp
@[simp] theorem VM.replaceHomes_windows : v.replaceHomes.mem.window = v.mem.window := VM.foldl_windows (fun _ _ => VM.replaceHome_windows ..) _ _
@[simp] theorem startRotation_windows : (startRotation p v).mem.window = v.mem.window := VM.foldl_windows (fun u x => by split <;> rfl) _ _

/-! Gathering. -/

@[simp] theorem stopFetches_windows : (stopFetches p i v).mem.window = v.mem.window := rfl
@[simp] theorem setGather_windows (g : Gathering) : (setGather p i g v).mem.window = v.mem.window := rfl
@[simp] theorem reportGather_windows : (reportGather p i v).mem.window = v.mem.window := by
  unfold reportGather
  dsimp only
  (repeat' split) <;> simp
@[simp] theorem tickEntry_windows : (tickEntry p i v).mem.window = v.mem.window := by
  unfold tickEntry
  split
  · rfl
  dsimp only
  split
  · rfl
  split
  · rename_i e; simp [VM.fst_windows e]
  · rename_i e
    have := VM.fst_windows e
    (repeat' split) <;> simp [this]
@[simp] theorem tickGatherPart_windows : (tickGatherPart p v).mem.window = v.mem.window := by
  unfold tickGatherPart
  refine (VM.foldl_windows (fun u i => tickEntry_windows ..) _ _).trans ((VM.updPart_windows ..).trans (VM.foldl_windows (fun u k => stopFetches_windows ..) _ _))
@[simp] theorem tickGather_windows : (tickGather v).mem.window = v.mem.window := by
  unfold tickGather
  refine VM.foldl_windows (fun u x => ?_) _ _
  split <;> simp
@[simp] theorem shrinkGather_windows (window : Nat) : (shrinkGather p window v).mem.window = v.mem.window := by
  refine VM.foldl_windows (fun u x => ?_) _ _
  split
  · split <;> simp
  · rfl

end

end Sys2Proof.Machine
end

section
/-!
Operations on the state that write no window (R230, R231): those that do not touch memory, by their frames, and those that touch memory but leave the windows' bytes.
-/

namespace Sys2Proof.Machine

/-- Every group of the state but memory. -/
def sparingMem : List Group := [.out, .free, .tick, .gov, .parts, .rings, .arrays, .fab, .keys, .bind, .life, .ras, .lh, .dict, .side, .pow, .fw]

theorem mem_of_only {s t : State} (h : OnlyTouches sparingMem s t) : t.mem = s.mem := h.mem_eq (by decide)

@[simp] theorem State.foldl_windows {α : Type} {f : State → α → State} (hf : ∀ s x, (f s x).mem.window = s.mem.window) (l : List α) (s : State) : (l.foldl f s).mem.window = s.mem.window :=
  foldl_keeps (fun s => s.mem.window) hf l s
@[simp] theorem State.foldl_fst_windows {α β : Type} {f : State × β → α → State × β} (hf : ∀ u x, (f u x).1.mem.window = u.1.mem.window) (l : List α) (u : State × β) :
    (l.foldl f u).1.mem.window = u.1.mem.window :=
  foldl_keeps (fun u => u.1.mem.window) hf l u

/-- The state that a pair carries, where a match has taken the pair apart. -/
theorem State.fst_windows {β : Type} {u : State × β} {v : State} {c : β} (e : u = (v, c)) : v.mem.window = u.1.mem.window := by subst e; rfl

@[simp] theorem vm_mem (s : State) : s.vm.mem = s.mem := rfl
@[simp] theorem vmOn_mem (s : State) (d : Nat) : (s.vmOn d).mem = s.mem := rfl
@[simp] theorem putVM_mem (s : State) (v : VM) : (s.putVM v).mem = v.mem := rfl

section
variable (s : State)

/-! Operations that do not touch memory. -/

@[simp] theorem emitOver_mem {k o} : (State.emitOver k o s).mem = s.mem := mem_of_only (State_emitOver_only (.refl _ _) (by decide) (by decide))
@[simp] theorem testSwaps_mem : (testSwaps s).mem = s.mem := mem_of_only (testSwaps_only (.refl _ _) (by decide))
@[simp] theorem opUnitQuery_mem {q u} : (opUnitQuery q u s).1.mem = s.mem := mem_of_only (opUnitQuery_only (.refl _ _) (by decide))
@[simp] theorem opHistQuery_mem {q i} : (opHistQuery q i s).1.mem = s.mem := mem_of_only (opHistQuery_only (.refl _ _) (by decide))
@[simp] theorem opAuditQuery_mem {q n} : (opAuditQuery q n s).1.mem = s.mem := mem_of_only (opAuditQuery_only (.refl _ _) (by decide))
@[simp] theorem opLibBegin_mem {q} : (opLibBegin q s).1.mem = s.mem := mem_of_only (opLibBegin_only (.refl _ _) (by decide))
@[simp] theorem opLibChunk_mem {q d} : (opLibChunk q d s).1.mem = s.mem := mem_of_only (opLibChunk_only (.refl _ _) (by decide))
@[simp] theorem opLibCommit_mem {q} : (opLibCommit q s).1.mem = s.mem := mem_of_only (opLibCommit_only (.refl _ _) (by decide))
@[simp] theorem entropy_mem : (State.entropy s).2.mem = s.mem := mem_of_only (State_entropy_only (.refl _ _) (by decide))
@[simp] theorem ladderKeys_mem : (ladderKeys s).mem = s.mem := mem_of_only (ladderKeys_only (.refl _ _) (by decide) (by decide))
@[simp] theorem bootKeys_mem : (bootKeys s).mem = s.mem := mem_of_only (bootKeys_only (.refl _ _) (by decide) (by decide))
@[simp] theorem startDomain_mem {d} : (startDomain d s).mem = s.mem := mem_of_only (startDomain_only (.refl _ _) (by decide))
@[simp] theorem startDies_mem : (startDies s).mem = s.mem := mem_of_only (startDies_only (.refl _ _) (by decide))
@[simp] theorem startFromDoze_mem : (startFromDoze s).mem = s.mem := mem_of_only (startFromDoze_only (.refl _ _) (by decide))
@[simp] theorem routePkt_mem {o again x} : (routePkt o again x s).mem = s.mem := mem_of_only (routePkt_only (.refl _ _) (by decide) (by decide))
@[simp] theorem sendPktHops_mem {hops f cls op csf payload} : (sendPktHops hops f cls op csf payload s).mem = s.mem := mem_of_only (sendPktHops_only (.refl _ _) (by decide) (by decide))
@[simp] theorem sendPkt_mem {f cls op csf payload} : (sendPkt f cls op csf payload s).mem = s.mem := mem_of_only (sendPkt_only (.refl _ _) (by decide) (by decide))
@[simp] theorem revokeFlows_mem {sel} : (revokeFlows sel s).mem = s.mem := mem_of_only (revokeFlows_only (.refl _ _) (by decide))
@[simp] theorem sendHandshake_mem {kind hop peer nonce ct sig len} : (sendHandshake kind hop peer nonce ct sig len s).mem = s.mem := mem_of_only (sendHandshake_only (.refl _ _) (by decide) (by decide))
@[simp] theorem openFlow_mem {owner peer peerFlow classes session} : (openFlow owner peer peerFlow classes session s).1.mem = s.mem := mem_of_only (openFlow_only (.refl _ _) (by decide) (by decide) (by decide) (by decide))
@[simp] theorem trainFail_mem {k} : (trainFail k s).mem = s.mem := mem_of_only (trainFail_only (.refl _ _) (by decide))
@[simp] theorem opRouteEntry_mem {q w} : (opRouteEntry q w s).1.mem = s.mem := mem_of_only (opRouteEntry_only (.refl _ _) (by decide))
@[simp] theorem opFlowQuery_mem {q id} : (opFlowQuery q id s).1.mem = s.mem := mem_of_only (opFlowQuery_only (.refl _ _) (by decide))
@[simp] theorem flushHost_mem : (flushHost s).mem = s.mem := mem_of_only (flushHost_only (.refl _ _) (by decide) (by decide))
@[simp] theorem mailLost_mem {peer st} : (mailLost peer st s).mem = s.mem := mem_of_only (mailLost_only (.refl _ _) (by decide) (by decide))
@[simp] theorem failHost_mem {f x} : (failHost f x s).mem = s.mem := mem_of_only (failHost_only (.refl _ _) (by decide))
@[simp] theorem opPtQuery_mem {q p va} : (opPtQuery q p va s).1.mem = s.mem := mem_of_only (opPtQuery_only (.refl _ _) (by decide))
@[simp] theorem opRgnQuery_mem {q p va} : (opRgnQuery q p va s).1.mem = s.mem := mem_of_only (opRgnQuery_only (.refl _ _) (by decide))
@[simp] theorem opAlertAck_mem {q seq} : (opAlertAck q seq s).1.mem = s.mem := mem_of_only (opAlertAck_only (.refl _ _) (by decide))
@[simp] theorem countRefusal_mem {st} : (countRefusal st s).mem = s.mem := mem_of_only (countRefusal_only (.refl _ _) (by decide))
@[simp] theorem updEntry_mem {a e f} : (updEntry a e f s).mem = s.mem := mem_of_only (updEntry_only (.refl _ _) (by decide))
@[simp] theorem addConds_mem {a e l} : (addConds a e l s).mem = s.mem := mem_of_only (addConds_only (.refl _ _) (by decide))
@[simp] theorem countRemote_mem {a areas} : (countRemote a areas s).mem = s.mem := mem_of_only (countRemote_only (.refl _ _) (by decide))
@[simp] theorem flushRows_mem {a e d} : (flushRows a e d s).mem = s.mem := mem_of_only (flushRows_only (.refl _ _) (by decide))
@[simp] theorem finishArray_mem {a} : (finishArray a s).mem = s.mem := mem_of_only (finishArray_only (.refl _ _) (by decide) (by decide))
@[simp] theorem sawPoison_mem {a e b} : (sawPoison a e b s).mem = s.mem := mem_of_only (sawPoison_only (.refl _ _) (by decide))
@[simp] theorem pushRow_mem {a e m y d c lanes} : (pushRow a e m y d c lanes s).mem = s.mem := mem_of_only (pushRow_only (.refl _ _) (by decide) (by decide) (by decide))
@[simp] theorem raiseDispute_mem {a e} : (raiseDispute a e s).mem = s.mem := mem_of_only (raiseDispute_only (.refl _ _) (by decide) (by decide))
@[simp] theorem bindRow_mem {a e d m row} : (bindRow a e d m row s).mem = s.mem := mem_of_only (bindRow_only (.refl _ _) (by decide))
@[simp] theorem dropRows_mem {a e m} : (dropRows a e m s).mem = s.mem := mem_of_only (dropRows_only (.refl _ _) (by decide))
@[simp] theorem settleStop_mem {a e} : (settleStop a e s).mem = s.mem := mem_of_only (settleStop_only (.refl _ _) (by decide))
@[simp] theorem commitRows_mem {a e n} : (commitRows a e n s).mem = s.mem := mem_of_only (commitRows_only (.refl _ _) (by decide))
@[simp] theorem addCounts_mem {p x} : (addCounts p x s).mem = s.mem := mem_of_only (addCounts_only (.refl _ _) (by decide))
@[simp] theorem openGate_mem {a e} : (openGate a e s).mem = s.mem := mem_of_only (openGate_only (.refl _ _) (by decide) (by decide))
@[simp] theorem replaceRows_mem {a e rows} : (replaceRows a e rows s).mem = s.mem := mem_of_only (replaceRows_only (.refl _ _) (by decide))
@[simp] theorem countRerun_mem {a u e} : (countRerun a u e s).mem = s.mem := mem_of_only (countRerun_only (.refl _ _) (by decide))
@[simp] theorem updLayer_mem {i l f} : (updLayer i l f s).mem = s.mem := mem_of_only (updLayer_only (.refl _ _) (by decide))
@[simp] theorem dropGrad_mem {p r} : (dropGrad p r s).mem = s.mem := mem_of_only (dropGrad_only (.refl _ _) (by decide))
@[simp] theorem commitGrad_mem {p r v seq} : (commitGrad p r v seq s).mem = s.mem := mem_of_only (commitGrad_only (.refl _ _) (by decide))
@[simp] theorem treeAdd_mem : (treeAdd s).mem = s.mem := mem_of_only (treeAdd_only (.refl _ _) (by decide))
@[simp] theorem faultRing_mem {p r st} : (faultRing p r st s).mem = s.mem := mem_of_only (faultRing_only (.refl _ _) (by decide))
@[simp] theorem advanceHead_mem {p r} : (advanceHead p r s).mem = s.mem := mem_of_only (advanceHead_only (.refl _ _) (by decide) (by decide))
@[simp] theorem learnCorrection_mem {p energy pred} : (learnCorrection p energy pred s).mem = s.mem := mem_of_only (learnCorrection_only (.refl _ _) (by decide))
@[simp] theorem stampOffer_mem {p r} : (stampOffer p r s).mem = s.mem := mem_of_only (stampOffer_only (.refl _ _) (by decide))
@[simp] theorem admitOne_mem {c} : (admitOne c s).mem = s.mem := mem_of_only (admitOne_only (.refl _ _) (by decide) (by decide) (by decide))
@[simp] theorem leaveOut_mem {out} : (leaveOut out s).mem = s.mem := mem_of_only (leaveOut_only (.refl _ _) (by decide) (by decide))
@[simp] theorem opRingEnable_mem {q p r v} : (opRingEnable q p r v s).1.mem = s.mem := mem_of_only (opRingEnable_only (.refl _ _) (by decide))
@[simp] theorem stopDomains_mem {ds} : (stopDomains ds s).mem = s.mem := mem_of_only (stopDomains_only (.refl _ _) (by decide))
@[simp] theorem forwardAnnounce_mem {n} : (forwardAnnounce n s).mem = s.mem := mem_of_only (forwardAnnounce_only (.refl _ _) (by decide) (by decide) (by decide))
@[simp] theorem hearAnnounce_mem {n} : (hearAnnounce n s).mem = s.mem := mem_of_only (hearAnnounce_only (.refl _ _) (by decide) (by decide) (by decide))
@[simp] theorem adoptMaster_mem {n} : (adoptMaster n s).mem = s.mem := mem_of_only (adoptMaster_only (.refl _ _) (by decide) (by decide) (by decide))
@[simp] theorem becomeMaster_mem {cands} : (becomeMaster cands s).mem = s.mem := mem_of_only (becomeMaster_only (.refl _ _) (by decide))
@[simp] theorem opFramePeriod_mem {q us} : (opFramePeriod q us s).1.mem = s.mem := mem_of_only (opFramePeriod_only (.refl _ _) (by decide))
@[simp] theorem sendEvent_mem {event part} : (sendEvent event part s).mem = s.mem := mem_of_only (sendEvent_only (.refl _ _) (by decide) (by decide))
@[simp] theorem thermalCause_mem : (thermalCause s).mem = s.mem := mem_of_only (thermalCause_only (.refl _ _) (by decide) (by decide))
@[simp] theorem setTemp_mem {d c} : (setTemp d c s).mem = s.mem := mem_of_only (setTemp_only (.refl _ _) (by decide) (by decide) (by decide))
@[simp] theorem strobe_mem {frame lengthUs adjusted} : (strobe frame lengthUs adjusted s).mem = s.mem := mem_of_only (strobe_only (.refl _ _) (by decide) (by decide) (by decide))
@[simp] theorem opLhQuery_mem {q k v} : (opLhQuery q k v s).1.mem = s.mem := mem_of_only (opLhQuery_only (.refl _ _) (by decide))
@[simp] theorem sendRank_mem {i rank cls op layer step chunk payload} : (sendRank i rank cls op layer step chunk payload s).mem = s.mem := mem_of_only (sendRank_only (.refl _ _) (by decide) (by decide))
@[simp] theorem forwardChunk_mem {i l v c b} : (forwardChunk i l v c b s).mem = s.mem := mem_of_only (forwardChunk_only (.refl _ _) (by decide) (by decide))
@[simp] theorem takeShadow_mem {i l w} : (takeShadow i l w s).mem = s.mem := mem_of_only (takeShadow_only (.refl _ _) (by decide))
@[simp] theorem tipIns_mem {i l v} : (tipIns i l v s).mem = s.mem := mem_of_only (tipIns_only (.refl _ _) (by decide) (by decide) (by decide))
@[simp] theorem expectResend_mem {i l v} : (expectResend i l v s).mem = s.mem := mem_of_only (expectResend_only (.refl _ _) (by decide))
@[simp] theorem modRed_mem {i l v f} : (modRed i l v f s).mem = s.mem := mem_of_only (modRed_only (.refl _ _) (by decide))
@[simp] theorem countLate_mem {i l} : (countLate i l s).mem = s.mem := mem_of_only (countLate_only (.refl _ _) (by decide))
@[simp] theorem handOver_mem {i l h dst} : (handOver i l h dst s).mem = s.mem := mem_of_only (handOver_only (.refl _ _) (by decide) (by decide))
@[simp] theorem openWork_mem {i l v} : (openWork i l v s).mem = s.mem := mem_of_only (openWork_only (.refl _ _) (by decide))
@[simp] theorem updWork_mem {i l v f} : (updWork i l v f s).mem = s.mem := mem_of_only (updWork_only (.refl _ _) (by decide))
@[simp] theorem sendOwn_mem {i l v dst leaf all} : (sendOwn i l v dst leaf all s).mem = s.mem := mem_of_only (sendOwn_only (.refl _ _) (by decide) (by decide) (by decide))
@[simp] theorem passRoll_mem {i l v ranks} : (passRoll i l v ranks s).mem = s.mem := mem_of_only (passRoll_only (.refl _ _) (by decide) (by decide) (by decide))
@[simp] theorem releaseHeld_mem {i l v} : (releaseHeld i l v s).mem = s.mem := mem_of_only (releaseHeld_only (.refl _ _) (by decide) (by decide) (by decide))
@[simp] theorem partialIn_mem {i l v b y} : (partialIn i l v b y s).mem = s.mem := mem_of_only (partialIn_only (.refl _ _) (by decide) (by decide) (by decide))
@[simp] theorem listSession_mem {i} : (listSession i s).mem = s.mem := mem_of_only (listSession_only (.refl _ _) (by decide))
@[simp] theorem noteDigest_mem {q i x} : (noteDigest q i x s).mem = s.mem := mem_of_only (noteDigest_only (.refl _ _) (by decide))
@[simp] theorem closeFlows_mem {i keep} : (closeFlows i keep s).mem = s.mem := mem_of_only (closeFlows_only (.refl _ _) (by decide) (by decide))
@[simp] theorem stopSession_mem {i st} : (stopSession i st s).mem = s.mem := mem_of_only (stopSession_only (.refl _ _) (by decide))
@[simp] theorem opSessionValue_mem {q i sub v} : (opSessionValue q i sub v s).1.mem = s.mem := mem_of_only (opSessionValue_only (.refl _ _) (by decide))
@[simp] theorem opCarveout_mem {q v} : (opCarveout q v s).1.mem = s.mem := mem_of_only (opCarveout_only (.refl _ _) (by decide))
@[simp] theorem updElastic_mem {i f} : (updElastic i f s).mem = s.mem := mem_of_only (updElastic_only (.refl _ _) (by decide))
@[simp] theorem askKeeper_mem {i l} : (askKeeper i l s).mem = s.mem := mem_of_only (askKeeper_only (.refl _ _) (by decide) (by decide) (by decide))
@[simp] theorem passKeeper_mem {i l} : (passKeeper i l s).mem = s.mem := mem_of_only (passKeeper_only (.refl _ _) (by decide) (by decide) (by decide))
@[simp] theorem keepersGone_mem {i gone} : (keepersGone i gone s).mem = s.mem := mem_of_only (keepersGone_only (.refl _ _) (by decide) (by decide) (by decide))
@[simp] theorem handAgain_mem {i x0 map} : (handAgain i x0 map s).mem = s.mem := mem_of_only (handAgain_only (.refl _ _) (by decide) (by decide))
@[simp] theorem declare_mem {force i frame} : (declare force i frame s).mem = s.mem := mem_of_only (declare_only (.refl _ _) (by decide) (by decide) (by decide))
@[simp] theorem deputySteps_mem {i} : (deputySteps i s).mem = s.mem := mem_of_only (deputySteps_only (.refl _ _) (by decide))
@[simp] theorem dropFilling_mem {i} : (dropFilling i s).mem = s.mem := mem_of_only (dropFilling_only (.refl _ _) (by decide))
@[simp] theorem sendDepart_mem {i} : (sendDepart i s).mem = s.mem := mem_of_only (sendDepart_only (.refl _ _) (by decide) (by decide) (by decide))
@[simp] theorem opDepartAt_mem {q i f} : (opDepartAt q i f s).1.mem = s.mem := mem_of_only (opDepartAt_only (.refl _ _) (by decide))
@[simp] theorem opDepartWithdraw_mem {q i} : (opDepartWithdraw q i s).1.mem = s.mem := mem_of_only (opDepartWithdraw_only (.refl _ _) (by decide))
@[simp] theorem opOwnerQuery_mem {q i l} : (opOwnerQuery q i l s).1.mem = s.mem := mem_of_only (opOwnerQuery_only (.refl _ _) (by decide))
@[simp] theorem keepChunk_mem {i l owner step chunk n b} : (keepChunk i l owner step chunk n b s).mem = s.mem := mem_of_only (keepChunk_only (.refl _ _) (by decide))
@[simp] theorem keeperAnswer_mem {i l w rank x c} : (keeperAnswer i l w rank x c s).mem = s.mem := mem_of_only (keeperAnswer_only (.refl _ _) (by decide) (by decide))
@[simp] theorem opAptEntry_mem {q w} : (opAptEntry q w s).1.mem = s.mem := mem_of_only (opAptEntry_only (.refl _ _) (by decide))
@[simp] theorem waitHost_mem {w} : (waitHost w s).mem = s.mem := mem_of_only (waitHost_only (.refl _ _) (by decide))
@[simp] theorem completeHost_mem {k b} : (completeHost k b s).mem = s.mem := mem_of_only (completeHost_only (.refl _ _) (by decide) (by decide))
@[simp] theorem ideFailed_mem {k} : (ideFailed k s).mem = s.mem := mem_of_only (ideFailed_only (.refl _ _) (by decide))
@[simp] theorem answerError_mem {f st tag} : (answerError f st tag s).mem = s.mem := mem_of_only (answerError_only (.refl _ _) (by decide) (by decide))
@[simp] theorem answerSectors_mem {f tag l} : (answerSectors f tag l s).mem = s.mem := mem_of_only (answerSectors_only (.refl _ _) (by decide) (by decide))
@[simp] theorem serveRead_mem {p g n tag bad} : (serveRead p g n tag bad s).mem = s.mem := mem_of_only (serveRead_only (.refl _ _) (by decide) (by decide) (by decide))
@[simp] theorem opHostGrant_mem {q p v} : (opHostGrant q p v s).1.mem = s.mem := mem_of_only (opHostGrant_only (.refl _ _) (by decide))
@[simp] theorem dropHs_mem {opener hop peer} : (dropHs opener hop peer s).mem = s.mem := mem_of_only (dropHs_only (.refl _ _) (by decide))
@[simp] theorem replaceKey_mem {shared purpose tag value} : (replaceKey shared purpose tag value s).1.mem = s.mem := mem_of_only (replaceKey_only (.refl _ _) (by decide) (by decide))
@[simp] theorem installHop_mem {k peer tx rx} : (installHop k peer tx rx s).mem = s.mem := mem_of_only (installHop_only (.refl _ _) (by decide) (by decide) (by decide) (by decide) (by decide))
@[simp] theorem useNonce_mem {n} : (useNonce n s).mem = s.mem := mem_of_only (useNonce_only (.refl _ _) (by decide))
@[simp] theorem opSlotQuery_mem {q id} : (opSlotQuery q id s).1.mem = s.mem := mem_of_only (opSlotQuery_only (.refl _ _) (by decide))
@[simp] theorem opQuota_mem {q p sub v} : (opQuota q p sub v s).1.mem = s.mem := mem_of_only (opQuota_only (.refl _ _) (by decide))
@[simp] theorem opCreate_mem {q p} : (opCreate q p s).1.mem = s.mem := mem_of_only (opCreate_only (.refl _ _) (by decide))
@[simp] theorem openDebug_mem : (openDebug s).mem = s.mem := mem_of_only (openDebug_only (.refl _ _) (by decide))
@[simp] theorem opNewNonce_mem {q} : (opNewNonce q s).1.mem = s.mem := mem_of_only (opNewNonce_only (.refl _ _) (by decide) (by decide))
@[simp] theorem opTransition_mem {q} : (opTransition q s).1.mem = s.mem := mem_of_only (opTransition_only (.refl _ _) (by decide) (by decide) (by decide))
@[simp] theorem opLcRequest_mem {q b} : (opLcRequest q b s).1.mem = s.mem := mem_of_only (opLcRequest_only (.refl _ _) (by decide))
@[simp] theorem bootLife_mem : (bootLife s).1.mem = s.mem := mem_of_only (bootLife_only (.refl _ _) (by decide) (by decide) (by decide))
@[simp] theorem opCertWrite_mem {q b} : (opCertWrite q b s).1.mem = s.mem := mem_of_only (opCertWrite_only (.refl _ _) (by decide))
@[simp] theorem opEnrol_mem {q d} : (opEnrol q d s).1.mem = s.mem := mem_of_only (opEnrol_only (.refl _ _) (by decide) (by decide))
@[simp] theorem eraseChallenge_mem : (eraseChallenge s).mem = s.mem := mem_of_only (eraseChallenge_only (.refl _ _) (by decide) (by decide))
@[simp] theorem opChallenge_mem {q} : (opChallenge q s).1.mem = s.mem := mem_of_only (opChallenge_only (.refl _ _) (by decide) (by decide) (by decide))
@[simp] theorem opDbgResponse_mem {q b} : (opDbgResponse q b s).1.mem = s.mem := mem_of_only (opDbgResponse_only (.refl _ _) (by decide))
@[simp] theorem opSign_mem {q} : (opSign q s).1.mem = s.mem := mem_of_only (opSign_only (.refl _ _) (by decide))
@[simp] theorem opLoadCert_mem {q} : (opLoadCert q s).1.mem = s.mem := mem_of_only (opLoadCert_only (.refl _ _) (by decide))
@[simp] theorem addEnergy_mem {t} : (addEnergy t s).mem = s.mem := mem_of_only (addEnergy_only (.refl _ _) (by decide) (by decide))
@[simp] theorem advanceFrame_mem : (advanceFrame s).mem = s.mem := mem_of_only (advanceFrame_only (.refl _ _) (by decide))
@[simp] theorem reachSuccessors_mem {t} : (reachSuccessors t s).mem = s.mem := mem_of_only (reachSuccessors_only (.refl _ _) (by decide))
@[simp] theorem sendAnnounce_mem : (sendAnnounce s).mem = s.mem := mem_of_only (sendAnnounce_only (.refl _ _) (by decide) (by decide))
@[simp] theorem dropLost_mem : (dropLost s).mem = s.mem := mem_of_only (dropLost_only (.refl _ _) (by decide) (by decide))
@[simp] theorem applyRates_mem : (applyRates s).mem = s.mem := mem_of_only (applyRates_only (.refl _ _) (by decide))
@[simp] theorem measure_mem {t} : (measure t s).mem = s.mem := mem_of_only (measure_only (.refl _ _) (by decide) (by decide))
@[simp] theorem learnBase_mem {period limit t} : (learnBase period limit t s).mem = s.mem := mem_of_only (learnBase_only (.refl _ _) (by decide))
@[simp] theorem takeLimits_mem : (takeLimits s).mem = s.mem := mem_of_only (takeLimits_only (.refl _ _) (by decide))
@[simp] theorem issueBudget_mem : (issueBudget s).mem = s.mem := mem_of_only (issueBudget_only (.refl _ _) (by decide))
@[simp] theorem gateArrays_mem : (gateArrays s).mem = s.mem := mem_of_only (gateArrays_only (.refl _ _) (by decide))
@[simp] theorem startStraits_mem : (startStraits s).mem = s.mem := mem_of_only (startStraits_only (.refl _ _) (by decide))
@[simp] theorem fetchOn_mem {k} : (fetchOn k s).mem = s.mem := mem_of_only (fetchOn_only (.refl _ _) (by decide) (by decide) (by decide) (by decide) (by decide))
@[simp] theorem opFwBegin_mem {q} : (opFwBegin q s).1.mem = s.mem := mem_of_only (opFwBegin_only (.refl _ _) (by decide))
@[simp] theorem opFwChunk_mem {q b} : (opFwChunk q b s).1.mem = s.mem := mem_of_only (opFwChunk_only (.refl _ _) (by decide))
@[simp] theorem opFwCommit_mem {q} : (opFwCommit q s).1.mem = s.mem := mem_of_only (opFwCommit_only (.refl _ _) (by decide))
@[simp] theorem cutCommit_mem : (cutCommit s).mem = s.mem := mem_of_only (cutCommit_only (.refl _ _) (by decide) (by decide))
@[simp] theorem hubReady_mem : (hubReady s).mem = s.mem := mem_of_only (hubReady_only (.refl _ _) (by decide) (by decide) (by decide) (by decide) (by decide) (by decide))
@[simp] theorem setStep_mem {d step trained retry} : (setStep d step trained retry s).mem = s.mem := mem_of_only (setStep_only (.refl _ _) (by decide))
@[simp] theorem trainOn_mem {d trained retry} : (trainOn d trained retry s).mem = s.mem := mem_of_only (trainOn_only (.refl _ _) (by decide))
@[simp] theorem opDescQuery_mem {q v} : (opDescQuery q v s).1.mem = s.mem := mem_of_only (opDescQuery_only (.refl _ _) (by decide))
@[simp] theorem opRingValue_mem {p r sub n} : (opRingValue p r sub n s).1.mem = s.mem := mem_of_only (opRingValue_only (.refl _ _) (by decide))
@[simp] theorem opStraitValue_mem {q k sub n} : (opStraitValue q k sub n s).1.mem = s.mem := mem_of_only (opStraitValue_only (.refl _ _) (by decide))
@[simp] theorem dropMsg_mem : (dropMsg s).mem = s.mem := mem_of_only (dropMsg_only (.refl _ _) (by decide))
@[simp] theorem doRead_mem {m} : (doRead m s).1.mem = s.mem := mem_of_only (doRead_only (.refl _ _) (by decide))
@[simp] theorem doReadBlock_mem {m} : (doReadBlock m s).1.mem = s.mem := mem_of_only (doReadBlock_only (.refl _ _) (by decide))
@[simp] theorem takeSegment_mem {q key limit m} : (takeSegment q key limit m s).1.mem = s.mem := mem_of_only (takeSegment_only (.refl _ _) (by decide))
@[simp] theorem closeMsg_mem {m} : (closeMsg m s).mem = s.mem := mem_of_only (closeMsg_only (.refl _ _) (by decide) (by decide) (by decide))
@[simp] theorem doOpen1_mem {m} : (doOpen1 m s).1.mem = s.mem := mem_of_only (doOpen1_only (.refl _ _) (by decide) (by decide) (by decide))
@[simp] theorem doOpen3_mem {m} : (doOpen3 m s).1.mem = s.mem := mem_of_only (doOpen3_only (.refl _ _) (by decide) (by decide) (by decide))
@[simp] theorem mailDone_mem {k slot st} : (mailDone k slot st s).mem = s.mem := mem_of_only (mailDone_only (.refl _ _) (by decide))
@[simp] theorem mailAway_mem {k slot op m back} : (mailAway k slot op m back s).mem = s.mem := mem_of_only (mailAway_only (.refl _ _) (by decide) (by decide))

/-! The shapes of a request's effect. -/

@[simp] theorem when_windows {b t} : (when b s t).1.mem.window = if b then t.mem.window else s.mem.window := by unfold when; split <;> rfl
@[simp] theorem guarded_windows {i b} {r : State × Status} : (guarded s i b r).1.mem.window = if served s i && b then r.1.mem.window else s.mem.window := by unfold guarded; split <;> rfl
@[simp] theorem setMapStatus_windows {q p} {r : State × Status} : (setMapStatus q p r).1.mem.window = r.1.mem.window := rfl
@[simp] theorem setOpStatus_windows {i} {r : State × Status} : (setOpStatus i r).1.mem.window = r.1.mem.window := rfl
@[simp] theorem setPartStatus_windows {p} {r : State × Status} : (setPartStatus p r).1.mem.window = r.1.mem.window := rfl
@[simp] theorem setDbg_windows {r : State × Status} : (setDbg r).1.mem.window = r.1.mem.window := rfl
@[simp] theorem notePosts_windows {k t} : (notePosts k s t).mem.window = t.mem.window := rfl
theorem addKey_mem {b k r} (h : addKey b k s = some r) : r.1.mem = s.mem := by
  obtain ⟨i, -, rfl⟩ := Option.map_eq_some_iff.mp h
  rfl
theorem putSecret_mem {p ps pm e secret m t} (h : putSecret p ps pm e secret m s = some t) : t.mem = s.mem := by
  unfold putSecret at h
  split at h
  · rename_i e
    obtain ⟨r, hr, rfl⟩ := Option.map_eq_some_iff.mp h
    exact (addKey_mem _ hr).trans (addKey_mem _ e)
  · cases h
theorem sessionKeys_mem {peer n d t a b} (h : sessionKeys peer n d s = some (t, a, b)) : t.mem = s.mem := by
  unfold sessionKeys at h
  split at h
  · split at h
    · rename_i e
      obtain ⟨r, hr, k⟩ := Option.map_eq_some_iff.mp h
      cases k
      exact (addKey_mem _ hr).trans (addKey_mem _ e)
    · cases h
  · cases h

/-! Operations that touch memory. -/

@[simp] theorem rasAudit_windows {u} : (rasAudit u s).mem.window = s.mem.window := by simp [rasAudit]
@[simp] theorem retireOne_windows {u} : (retireOne u s).mem.window = s.mem.window := by
  unfold retireOne
  dsimp only
  (repeat' split) <;> simp
@[simp] theorem retireUnit_windows {u} : (retireUnit u s).mem.window = s.mem.window := by
  unfold retireUnit
  dsimp only
  split <;> simp
@[simp] theorem windowEcc_windows {p off bank dbl} : (windowEcc p off bank dbl s).mem.window = s.mem.window := by unfold windowEcc; split <;> simp
@[simp] theorem startFromStandby_windows : (startFromStandby s).mem.window = s.mem.window := by simp [startFromStandby]
@[simp] theorem wake_windows {code} : (wake code s).mem.window = s.mem.window := by
  unfold wake
  dsimp only
  (repeat' split) <;> simp
@[simp] theorem finishWait_windows {w data st} : (finishWait w data st s).mem.window = s.mem.window := by simp [finishWait]
@[simp] theorem failWait_windows {w st} : (failWait w st s).mem.window = s.mem.window := by
  unfold failWait
  dsimp only
  (repeat' split) <;> simp
@[simp] theorem dataWait_windows {w x} : (dataWait w x s).mem.window = s.mem.window := by
  unfold dataWait
  dsimp only
  (repeat' split) <;> simp
@[simp] theorem hostTake_windows {f tag st data} : (hostTake f tag st data s).mem.window = s.mem.window := by unfold hostTake; split <;> simp
@[simp] theorem takeData_windows {f st tag data} : (takeData f st tag data s).mem.window = s.mem.window := by
  unfold takeData
  (repeat' split) <;> simp
@[simp] theorem takeError_windows {f st tag} : (takeError f st tag s).mem.window = s.mem.window := by
  unfold takeError
  split
  · simp
  · split <;> simp
@[simp] theorem casSector_windows {p g tag expected new} : (casSector p g tag expected new s).mem.window = s.mem.window := by
  unfold casSector
  dsimp only
  (repeat' split) <;> simp
@[simp] theorem takeCas_windows {p st tag} : (takeCas p st tag s).mem.window = s.mem.window := by
  unfold takeCas
  dsimp only
  (repeat' split) <;> simp
@[simp] theorem endSends_windows {x st} : (endSends x st s).mem.window = s.mem.window := by
  have audits : ∀ (l : List OutPkt) (e : AuditEntry), (l.foldl (fun v _ => v.audit e) s.vm).mem.window = s.mem.window := fun l e => by
    refine VM.foldl_windows (fun v _ => ?_) l s.vm
    rfl
  unfold endSends
  split
  · rfl
  · dsimp only
    split <;> simp [audits]
@[simp] theorem endFlowOps_windows {f x st} : (endFlowOps f x st s).mem.window = s.mem.window := by unfold endFlowOps; split <;> simp
@[simp] theorem loseFlow_windows {f x st} : (loseFlow f x st s).mem.window = s.mem.window := by simp [loseFlow]
@[simp] theorem retryFlow_windows {f x} : (retryFlow f x s).mem.window = s.mem.window := by
  unfold retryFlow
  dsimp only
  (repeat' split) <;> simp
@[simp] theorem wakeDevice_windows {target hops} : (wakeDevice target hops s).mem.window = s.mem.window := by
  unfold wakeDevice
  dsimp only
  (repeat' split) <;> simp
@[simp] theorem opMapOp_windows {code q p} : (opMapOp code q p s).1.mem.window = s.mem.window := by
  unfold opMapOp
  dsimp only
  split <;> simp
@[simp] theorem opPoolHome_windows {q v} : (opPoolHome q v s).1.mem.window = s.mem.window := by
  unfold opPoolHome
  simp [apply_ite Prod.fst, apply_ite State.mem, apply_ite Mem.window]
@[simp] theorem sendT2_windows {w} : (sendT2 s w).mem.window = s.mem.window := by
  unfold sendT2
  dsimp only
  (repeat' split) <;> simp
@[simp] theorem putWrites_windows {v : VM} : (s.putWrites v).mem.window = v.mem.window := State.foldl_windows (fun _ _ => sendT2_windows _) _ _
@[simp] theorem askHome_windows {p va h k} : (askHome p va h k s).mem.window = s.mem.window := by
  unfold askHome
  dsimp only
  split <;> simp
@[simp] theorem readOp_windows {p va d} : (readOp p va d s).mem.window = s.mem.window := by
  unfold readOp
  dsimp only
  (repeat' split) <;> simp
@[simp] theorem writeFailed_windows {p va st} : (writeFailed p va st s).mem.window = s.mem.window := by simp [writeFailed]
@[simp] theorem writeOp_windows {p va} {run : VM → VM × Status} (h : ∀ v, (run v).1.mem.window = v.mem.window) : (writeOp p va run s).mem.window = s.mem.window := by
  unfold writeOp
  dsimp only
  split <;> simp [h]
@[simp] theorem readSource_windows {a p faults w off len} : (readSource s a p faults w off len).1.mem.window = s.mem.window := by
  unfold readSource
  dsimp only
  split <;> simp
@[simp] theorem auditDispute_windows {a st u} : (auditDispute a st u s).mem.window = s.mem.window := by simp [auditDispute]
@[simp] theorem writeRec_windows {p base va b} : (writeRec p base va b s).1.mem.window = s.mem.window := by unfold writeRec; split <;> simp
@[simp] theorem countConds_windows {p l} : (countConds p l s).mem.window = s.mem.window := by
  refine State.foldl_windows (fun u c => ?_) _ _
  simp
@[simp] theorem putSubject_windows {p x final st grad bad} : (putSubject p x final st grad bad s).1.mem.window = s.mem.window := by unfold putSubject; split <;> simp
@[simp] theorem putRecord_windows {p r final st grad bad} : (putRecord p r final st grad bad s).1.mem.window = s.mem.window := by simp [putRecord]
@[simp] theorem retired_windows {n p r st grad} : (retired n p r st grad s).mem.window = s.mem.window := by
  induction n generalizing s st grad with
  | zero => rfl
  | succ n ih =>
    unfold retired
    split
    · simp
    · dsimp only
      split
      · simp
      · split <;> rename_i e <;> simp [ih, State.fst_windows e]
@[simp] theorem retire_windows {p r st grad bad} : (retire p r st grad bad s).mem.window = s.mem.window := by
  unfold retire
  split <;> rename_i e <;> simp [State.fst_windows e]
@[simp] theorem putEntries_windows {p code completed run} : (putEntries p code completed run s).1.mem.window = s.mem.window := by
  refine State.foldl_fst_windows (fun u a => State.foldl_fst_windows (fun u x => ?_) _ _) _ _
  split <;> simp
@[simp] theorem leaveDispute_windows {a} : (leaveDispute a s).mem.window = s.mem.window := by unfold leaveDispute; split <;> simp
@[simp] theorem closeAttempt_windows {c} : (closeAttempt c s).mem.window = s.mem.window := by
  unfold closeAttempt
  dsimp only
  split <;> rename_i e
  · split <;> rename_i e'
    · (repeat' split) <;> simp [State.fst_windows e', State.fst_windows e]
    · simp [State.fst_windows e', State.fst_windows e]
  · simp [State.fst_windows e]
@[simp] theorem completeRun_windows {p r run cycles energy} : (completeRun p r run cycles energy s).mem.window = s.mem.window := by simp [completeRun]
@[simp] theorem readTail_windows {p r} : (readTail p r s).mem.window = s.mem.window := by
  unfold readTail
  dsimp only
  (repeat' split) <;> simp
@[simp] theorem putUnrun_windows {p h} : (putUnrun p h s).1.mem.window = s.mem.window := by
  refine State.foldl_fst_windows (fun u e => State.foldl_fst_windows (fun u i => ?_) _ _) _ _
  split <;> simp
@[simp] theorem withdrawSlice_windows {p r h} : (withdrawSlice p r h s).mem.window = s.mem.window := by
  unfold withdrawSlice
  dsimp only
  split <;> rename_i e <;> split at e <;> simp [State.fst_windows e]
@[simp] theorem rejectSlice_windows {p r fails f} : (rejectSlice p r fails f s).mem.window = s.mem.window := by simp [rejectSlice]
@[simp] theorem offerLoop_windows {p r n} : (offerLoop p r n s).1.mem.window = s.mem.window := by
  induction n generalizing s with
  | zero => rfl
  | succ n ih =>
    unfold offerLoop
    dsimp only
    (repeat' split) <;> simp [ih]
@[simp] theorem offerAll_windows : (offerAll s).1.mem.window = s.mem.window := by
  unfold offerAll
  refine State.foldl_fst_windows (fun u x => ?_) _ _
  split
  · split <;> rename_i e <;> simp [State.fst_windows e]
  · rfl
@[simp] theorem reserveStash_windows {c} : (reserveStash c s).1.mem.window = s.mem.window := by
  unfold reserveStash
  split
  · rename_i e; exact VM.reserve_windows _ _ _ _ e
  · rfl
@[simp] theorem eligible_windows {c} : (eligible c s).1.mem.window = s.mem.window := by simp [eligible]
@[simp] theorem consider_windows {c fits} : (consider c fits s).1.mem.window = s.mem.window := by
  unfold consider
  split <;> rename_i e
  · split <;> simp [State.fst_windows e]
  · simp [State.fst_windows e]
@[simp] theorem pass1_windows {cands allot} : (pass1 cands allot s).state.mem.window = s.mem.window := by
  refine foldl_keeps (fun a : Pass1 => a.state.mem.window) (fun a c => ?_) _ _
  split <;> rename_i e <;> simp [State.fst_windows e]
@[simp] theorem pass2_windows {n pool spent rest out} : (pass2 n pool spent rest out s).1.mem.window = s.mem.window := by
  induction n generalizing pool spent rest out s with
  | zero => rfl
  | succ n ih =>
    unfold pass2
    split
    · rfl
    · dsimp only
      split <;> rename_i e <;> simp [ih, State.fst_windows e]
@[simp] theorem finishAdmission_windows {a} : (finishAdmission a s).mem.window = s.mem.window := by simp [finishAdmission]
@[simp] theorem admitAll_windows {cands} : (admitAll cands s).mem.window = s.mem.window := by
  unfold admitAll
  dsimp only
  (repeat' split) <;> simp
@[simp] theorem dueAdmit_windows {a} : (dueAdmit a s).mem.window = s.mem.window := by unfold dueAdmit; split <;> simp
@[simp] theorem payOwed_windows : (payOwed s).mem.window = s.mem.window := by
  unfold payOwed
  refine State.foldl_windows (fun u x => ?_) _ _
  split
  · rfl
  · dsimp only
    split
    · split <;> rename_i e <;> simp [State.fst_windows e]
    · simp
@[simp] theorem setStackTemp_windows {k c} : (setStackTemp k c s).mem.window = s.mem.window := by simp [setStackTemp]
@[simp] theorem lhSilent_windows : (lhSilent s).mem.window = s.mem.window := by unfold lhSilent; split <;> simp
@[simp] theorem writeChunk_windows {p g v c b} : (writeChunk p g v c b s).1.mem.window = s.mem.window := by
  unfold writeChunk
  dsimp only
  (repeat' split) <;> simp
@[simp] theorem healed_windows {i l v} : (healed i l v s).mem.window = s.mem.window := by
  unfold healed
  (repeat' split) <;> simp
@[simp] theorem placeChunk_windows {i l v c} : (placeChunk i l v c s).mem.window = s.mem.window := by
  unfold placeChunk
  split
  · split
    · split
      · dsimp only
        split
        · simp
        · split
          · rfl
          · split <;> rename_i e <;> simp [State.fst_windows e]
      · simp
      · rfl
    · rfl
  · rfl
@[simp] theorem placeWaiting_windows {i l} : (placeWaiting i l s).mem.window = s.mem.window := by
  unfold placeWaiting
  split
  · split
    · refine State.foldl_windows (fun u r => State.foldl_windows (fun u k => ?_) _ _) _ _
      split <;> simp
    · rfl
  · rfl
@[simp] theorem takeChunk_windows {i l v c b} : (takeChunk i l v c b s).mem.window = s.mem.window := by
  unfold takeChunk
  dsimp only
  (repeat' split) <;> simp
@[simp] theorem publish_windows {i l v image exps rec} : (publish i l v image exps rec s).mem.window = s.mem.window := by simp [publish]
@[simp] theorem writeRecord_windows {x p b} : (writeRecord x p b s).1.mem.window = s.mem.window := by unfold writeRecord; split <;> simp
@[simp] theorem publishLocal_windows {i l v} : (publishLocal i l v s).mem.window = s.mem.window := by
  unfold publishLocal
  split
  · split
    · dsimp only
      split <;> rename_i e
      · split <;> simp [State.fst_windows e]
      · simp [State.fst_windows e]
    · rfl
  · rfl
@[simp] theorem answerResend_windows {i l v rank} : (answerResend i l v rank s).1.mem.window = s.mem.window := by
  unfold answerResend
  split
  · split
    · dsimp only
      split <;> simp
    · rfl
  · rfl
@[simp] theorem requestResend_windows {i l v} : (requestResend i l v s).mem.window = s.mem.window := by
  unfold requestResend
  dsimp only
  (repeat' split) <;> simp
@[simp] theorem paramIn_windows {flow m} : (paramIn flow m s).mem.window = s.mem.window := by
  unfold paramIn
  dsimp only
  (repeat' split) <;> simp
@[simp] theorem closeStep_windows {i l v} : (closeStep i l v s).mem.window = s.mem.window := by
  unfold closeStep
  dsimp only
  (repeat' split) <;> simp
@[simp] theorem tryClose_windows {i l v} : (tryClose i l v s).mem.window = s.mem.window := by
  unfold tryClose
  (repeat' split) <;> simp
@[simp] theorem startRecovery_windows {i l v} : (startRecovery i l v s).mem.window = s.mem.window := by unfold startRecovery; split <;> simp
@[simp] theorem deadlineFalls_windows {i l v} : (deadlineFalls i l v s).mem.window = s.mem.window := by
  unfold deadlineFalls
  (repeat' split) <;> simp
@[simp] theorem afterClose_windows {i l v} : (afterClose i l v s).mem.window = s.mem.window := by
  unfold afterClose
  dsimp only
  (repeat' split) <;> simp
@[simp] theorem withholdLayer_windows {i l v} : (withholdLayer i l v s).mem.window = s.mem.window := by
  unfold withholdLayer
  dsimp only
  (repeat' split) <;> simp
@[simp] theorem buildLayer_windows {i l v} : (buildLayer i l v s).mem.window = s.mem.window := by
  unfold buildLayer
  dsimp only
  (repeat' split) <;> simp
@[simp] theorem closeRank_windows {i l v} : (closeRank i l v s).mem.window = s.mem.window := by
  unfold closeRank
  dsimp only
  (repeat' split) <;> simp
@[simp] theorem opCloseLayer_windows {q i w} : (opCloseLayer q i w s).1.mem.window = s.mem.window := by simp [opCloseLayer]
@[simp] theorem withhold_windows {i l v} : (withhold i l v s).mem.window = s.mem.window := by unfold withhold; split <;> simp
@[simp] theorem opWithhold_windows {q i w} : (opWithhold q i w s).1.mem.window = s.mem.window := by simp [opWithhold]
@[simp] theorem ownerTakes_windows {i l v b rank leaf y} : (ownerTakes i l v b rank leaf y s).mem.window = s.mem.window := by
  unfold ownerTakes
  dsimp only
  (repeat' split) <;> simp
@[simp] theorem contribIn_windows {flow m} : (contribIn flow m s).mem.window = s.mem.window := by
  unfold contribIn
  dsimp only
  (repeat' split) <;> simp
@[simp] theorem rollIn_windows {flow i l v ranks} : (rollIn flow i l v ranks s).mem.window = s.mem.window := by
  unfold rollIn
  dsimp only
  (repeat' split) <;> simp
@[simp] theorem noticeOne_windows {i l v rank whole} : (noticeOne i l v rank whole s).mem.window = s.mem.window := by
  unfold noticeOne
  dsimp only
  (repeat' split) <;> simp
@[simp] theorem absentIn_windows {flow i l v whole} : (absentIn flow i l v whole s).mem.window = s.mem.window := by
  unfold absentIn
  (repeat' split) <;> simp
@[simp] theorem openFlows_windows {i p c me} : (openFlows i p c me s).mem.window = s.mem.window := by
  refine State.foldl_windows (fun u r => ?_) _ _
  split
  · rfl
  · dsimp only
    split <;> rename_i e <;> simp [State.fst_windows e]
@[simp] theorem publishFirst_windows {i l} : (publishFirst i l s).mem.window = s.mem.window := by
  unfold publishFirst
  split
  · split
    · change (if _ then s else publish _ _ _ _ _ _ (updLayer _ _ _ _)).mem.window = _
      split
      · rfl
      · rw [publish_windows, updLayer_mem]
    · rfl
  · rfl
@[simp] theorem tryRun_windows {i} : (tryRun i s).mem.window = s.mem.window := by
  unfold tryRun
  dsimp only
  (repeat' split) <;> simp
@[simp] theorem doOpen_windows {q i x} : (doOpen q i x s).1.mem.window = s.mem.window := by
  unfold doOpen
  dsimp only
  (repeat' split) <;> simp
@[simp] theorem opSessionOpen_windows {q i} : (opSessionOpen q i s).1.mem.window = s.mem.window := by
  simp [opSessionOpen, apply_ite Prod.fst, apply_ite State.mem, apply_ite Mem.window]
@[simp] theorem digestIn_windows {i answers} : (digestIn i answers s).mem.window = s.mem.window := by simp [digestIn]
@[simp] theorem closeSession_windows {i} : (closeSession i s).mem.window = s.mem.window := by
  unfold closeSession
  dsimp only
  (repeat' split) <;> simp
@[simp] theorem opSessionClose_windows {q i} : (opSessionClose q i s).1.mem.window = s.mem.window := by
  simp [opSessionClose, apply_ite Prod.fst, apply_ite State.mem, apply_ite Mem.window]
@[simp] theorem closeRanksOf_windows {p} : (closeRanksOf p s).mem.window = s.mem.window := by simp [closeRanksOf, apply_ite State.mem, apply_ite Mem.window]
@[simp] theorem publishRestored_windows {i l} : (publishRestored i l s).mem.window = s.mem.window := by
  unfold publishRestored
  dsimp only
  (repeat' split) <;> simp
@[simp] theorem restoreFrom_windows {i l b} : (restoreFrom i l b s).mem.window = s.mem.window := by unfold restoreFrom; split <;> simp
@[simp] theorem startRestore_windows {i l w} : (startRestore i l w s).mem.window = s.mem.window := by
  unfold startRestore
  dsimp only
  (repeat' split) <;> simp
@[simp] theorem rollBack_windows {i m x0 map} : (rollBack i m x0 map s).mem.window = s.mem.window := by
  unfold rollBack
  dsimp only
  refine (State.foldl_windows (fun u l => ?_) _ _).trans (by simp)
  (repeat' split) <;> simp
@[simp] theorem afterDepartures_windows {i x0 gone} : (afterDepartures i x0 gone s).mem.window = s.mem.window := by
  refine State.foldl_windows (fun u l => ?_) _ _
  dsimp only
  have resend : (((x0.layer l).recv).foldl (fun s r =>
      match treeParent x0.elastic.live (x0.ownerOf l (r.version - 1)) x0.me, x0.cfg with
      | some p, some c => if !r.published ∧ gone.contains p ∧ !allChunks (c.chunks l) r.chunks then requestResend i l r.version s else s
      | _, _ => s) u).mem.window = u.mem.window := State.foldl_windows (fun w r => by (repeat' split) <;> simp) _ _
  rw [← resend]
  generalize List.foldl _ u _ = w
  (repeat' split) <;> simp
@[simp] theorem applyRoster_windows {i m} : (applyRoster i m s).mem.window = s.mem.window := by
  unfold applyRoster
  dsimp only
  (repeat' split) <;> simp
@[simp] theorem inherit_windows {i l} : (inherit i l s).mem.window = s.mem.window := by
  unfold inherit
  dsimp only
  (repeat' split) <;> simp
@[simp] theorem rosterTick_windows {frame i} : (rosterTick frame i s).mem.window = s.mem.window := by
  unfold rosterTick
  dsimp only
  (repeat' split) <;> simp
@[simp] theorem tipinIn_windows {flow m} : (tipinIn flow m s).mem.window = s.mem.window := by
  unfold tipinIn
  dsimp only
  (repeat' split) <;> simp
@[simp] theorem resendIn_windows {flow i l v} : (resendIn flow i l v s).mem.window = s.mem.window := by
  unfold resendIn
  split
  · split
    · split
      · rfl
      · split
        · split <;> rename_i e <;> simp [State.fst_windows e]
        · simp
    · rfl
  · rfl
@[simp] theorem updFetch_windows {p e b f} : (updFetch p e b f s).mem.window = s.mem.window := by simp [updFetch]
@[simp] theorem noteHome_windows {p va r} : (noteHome p va r s).mem.window = s.mem.window := by
  unfold noteHome
  dsimp only
  split <;> simp
@[simp] theorem fetchRead_windows {p va d} : (fetchRead p va d s).1.mem.window = s.mem.window := by simp [fetchRead]
@[simp] theorem fetchTwice_windows {p g f read replica} : (fetchTwice p g f read replica s).1.mem.window = s.mem.window := by
  unfold fetchTwice
  dsimp only
  split
  · split
    · split <;> rename_i e <;> split at e <;> simp [State.fst_windows e]
    · split <;> simp
  · simp
@[simp] theorem hostFail_windows {k st part va len} : (hostFail k st part va len s).mem.window = s.mem.window := by
  unfold hostFail
  dsimp only
  split <;> simp
@[simp] theorem readLocal_windows {k f off len} : (readLocal k f off len s).mem.window = s.mem.window := by
  unfold readLocal
  dsimp only
  split
  · split <;> simp
  · split
    · simp
    · split
      · split <;> rename_i e <;> simp [VM.fst_windows e]
      · split <;> simp
@[simp] theorem writeLocal_windows {k f off data} : (writeLocal k f off data s).mem.window = s.mem.window := by
  unfold writeLocal
  dsimp only
  split
  · split
    · refine Mem.foldl_windows (fun m x => ?_) _ _
      rfl
    · simp
  · split
    · simp
    · split
      · split <;> rename_i e <;> simp [VM.fst_windows e]
      · simp
@[simp] theorem readRemote_windows {k f off len} : (readRemote k f off len s).mem.window = s.mem.window := by unfold readRemote; split <;> simp
@[simp] theorem writeRemote_windows {k f off data} : (writeRemote k f off data s).mem.window = s.mem.window := by
  unfold writeRemote
  dsimp only
  split <;> simp
@[simp] theorem hostReadOp_windows {k off len ideOk} : (hostReadOp k off len ideOk s).mem.window = s.mem.window := by
  unfold hostReadOp
  (repeat' split) <;> simp
@[simp] theorem hostWriteOp_windows {k off data ideOk} : (hostWriteOp k off data ideOk s).mem.window = s.mem.window := by
  unfold hostWriteOp
  (repeat' split) <;> simp
@[simp] theorem servePartition_windows {f p va n tag} : (servePartition f p va n tag s).mem.window = s.mem.window := by
  unfold servePartition
  dsimp only
  split
  · split <;> rename_i e <;> simp [VM.fst_windows e]
  · split <;> simp
@[simp] theorem serveTarget_windows {p g n tag bad} : (serveTarget p g n tag bad s).mem.window = s.mem.window := by
  unfold serveTarget
  (repeat' split) <;> simp
@[simp] theorem writePartition_windows {p va data} : (writePartition p va data s).mem.window = s.mem.window := by
  unfold writePartition
  split
  · split <;> rename_i e <;> simp [VM.fst_windows e]
  · simp
@[simp] theorem takeWrite_windows {p g tag data} : (takeWrite p g tag data s).mem.window = s.mem.window := by
  unfold takeWrite
  (repeat' split) <;> simp
@[simp] theorem recordOpen_windows {owner st} : (recordOpen owner st s).mem.window = s.mem.window := by unfold recordOpen; split <;> simp
@[simp] theorem endOpening_windows {peer st} : (endOpening peer st s).mem.window = s.mem.window := by simp [endOpening]
@[simp] theorem settleOpening_windows {peer} : (settleOpening peer s).mem.window = s.mem.window := by
  refine State.foldl_windows (fun u x => ?_) _ _
  split
  · simp
  · dsimp only
    split
    · simp
    · split
      · rename_i e; simp [sessionKeys_mem _ e]
      · simp
@[simp] theorem hsFail_windows {hop peer} : (hsFail hop peer s).mem.window = s.mem.window := by unfold hsFail; split <;> simp
@[simp] theorem installPair_windows {peer fw tx rx} : (installPair peer fw tx rx s).mem.window = s.mem.window := by
  unfold installPair
  dsimp only
  split <;> simp
@[simp] theorem installKeys_windows {hop opener peer fw kmat} : (installKeys hop opener peer fw kmat s).mem.window = s.mem.window := by
  unfold installKeys
  dsimp only
  split <;> simp
@[simp] theorem helloIn_windows {h} : (helloIn h s).mem.window = s.mem.window := by
  unfold helloIn
  dsimp only
  (repeat' split) <;> simp
@[simp] theorem replyIn_windows {h} : (replyIn h s).mem.window = s.mem.window := by
  unfold replyIn
  dsimp only
  (repeat' split) <;> simp
@[simp] theorem finishIn_windows {h} : (finishIn h s).mem.window = s.mem.window := by
  unfold finishIn
  dsimp only
  (repeat' split) <;> simp
theorem importDone_windows {x p secret t} (h : importDone x p secret s = some t) : t.mem.window = s.mem.window := by
  unfold importDone at h
  dsimp only at h
  split at h
  all_goals
    obtain ⟨u, hu, rfl⟩ := Option.map_eq_some_iff.mp h
    simp [endUnbound, putSecret_mem _ hu]
@[simp] theorem opKeyImport_windows {q b} : (opKeyImport q b s).1.mem.window = s.mem.window := by
  unfold opKeyImport
  dsimp only
  split
  · rfl
  split
  · rfl
  rw [updPart_mem]
  split
  · simp
  split
  · simp
  split
  · simp
  split
  · rename_i e; simp [importDone_windows _ e]
  · simp
@[simp] theorem latchAll_windows : (latchAll s).mem.window = s.mem.window := by simp [latchAll]
@[simp] theorem closeAll_windows {l} : (closeAll l s).mem.window = s.mem.window := by simp [closeAll]
@[simp] theorem stepMemory_windows : (stepMemory s).mem.window = s.mem.window := by
  unfold stepMemory
  rw [putWrites_windows]
  split <;> simp
@[simp] theorem stepSessions_windows : (stepSessions s).mem.window = s.mem.window := by
  unfold stepSessions
  rw [applyRates_mem, treeAdd_mem]
  exact State.foldl_windows (fun u i => rosterTick_windows u) _ _
@[simp] theorem readSensors_windows {t} : (readSensors t s).mem.window = s.mem.window := by
  unfold readSensors
  dsimp only
  refine State.foldl_windows (fun u d => ?_) _ _
  split <;> simp
@[simp] theorem step6_windows {period t} : (step6 period t s).mem.window = s.mem.window := by simp [step6]
@[simp] theorem step7_windows : (step7 s).mem.window = s.mem.window := by
  unfold step7
  dsimp only
  (repeat' split) <;> simp
@[simp] theorem settleAdmission_windows : (settleAdmission s).mem.window = s.mem.window := by unfold settleAdmission; split <;> simp
@[simp] theorem bootImage_windows : (bootImage s).mem.window = s.mem.window := by
  unfold bootImage
  dsimp only
  (repeat' split) <;> simp
@[simp] theorem wakeFrame_windows {etherType payload mac} : (wakeFrame etherType payload mac s).mem.window = s.mem.window := by unfold wakeFrame; split <;> simp
@[simp] theorem requestActive_windows : (requestActive s).mem.window = s.mem.window := by unfold requestActive; split <;> simp
@[simp] theorem opStateActive_windows {q} : (opStateActive q s).1.mem.window = s.mem.window := by simp [opStateActive]
@[simp] theorem loseStack_windows {k} : (loseStack k s).mem.window = s.mem.window := by simp [loseStack]
@[simp] theorem auditRepair_windows : (auditRepair s).mem.window = s.mem.window := by simp [auditRepair]
@[simp] theorem failStack_windows {k} : (failStack k s).mem.window = s.mem.window := by simp [failStack]
@[simp] theorem failDie_windows {d} : (failDie d s).mem.window = s.mem.window := by simp [failDie]
@[simp] theorem failHub_windows : (failHub s).mem.window = s.mem.window := by
  unfold failHub
  dsimp only
  split <;> simp
@[simp] theorem dozeEntry_windows {bad} : (dozeEntry bad s).mem.window = s.mem.window := by simp [dozeEntry]
@[simp] theorem opMemValue_windows {q p sub n} : (opMemValue q p sub n s).1.mem.window = s.mem.window := by
  unfold opMemValue
  dsimp only
  split <;> simp
@[simp] theorem opSessionObject_windows {q i sub n} : (opSessionObject q i sub n s).1.mem.window = s.mem.window := by
  unfold opSessionObject
  (repeat' split) <;> simp
@[simp] theorem opFabricValue_windows {q index sub n b} : (opFabricValue q index sub n b s).1.mem.window = s.mem.window := by
  unfold opFabricValue
  split <;> simp

end

end Sys2Proof.Machine
end

section
/-!
Operations that write windows keep their canonical form (R230, R231): addresses rising, no byte 0 listed.
-/

namespace Sys2Proof.Machine

/-- Every partition's window in canonical form (log 4): `WindowsWf s` is `Canonical s.mem.window`. -/
def Canonical (w : Vector (List Host.Cell) 64) : Prop := ∀ p : PartId, Memory.wf w[p]

theorem Canonical.modVec {w : Vector (List Host.Cell) 64} (h : Canonical w) (p : PartId) {f : List Host.Cell → List Host.Cell} (hf : ∀ l, Memory.wf l → Memory.wf (f l)) : Canonical (modVec w p f) := by
  intro k
  by_cases e : k = p
  · subst e
    rw [modVec_self]
    exact hf _ (h k)
  · rw [modVec_other _ _ _ _ e]
    exact h k
theorem canonical_empty : Canonical (Vector.replicate 64 []) := by intro p; simp

/-! The operations on memory that write a window. -/

section
variable {m : Mem} (h : Canonical m.window)
include h

@[simp] theorem winWrite_canonical {p off b} : Canonical (winWrite p off b m).window := h.modVec p fun l => wf_cellsWrite b off l
@[simp] theorem winPutBlk_canonical {p fmt elem ex b} : Canonical (winPutBlk p fmt elem ex b m).window := winWrite_canonical (winWrite_canonical h)
@[simp] theorem resizeWindow_canonical {p old new} : Canonical (resizeWindow p old new m).window := h.modVec p fun l => wf_filter _ l
@[simp] theorem landSector_canonical {p off r} : Canonical (landSector p off r m).window := by
  unfold landSector
  split
  · exact winWrite_canonical h
  · exact winWrite_canonical h
theorem clearedWindow_canonical {p : PartId} : Canonical (modVec m.window p fun _ => []) := h.modVec p fun _ _ => wf_nil
theorem Mem.foldl_canonical {α : Type} {f : Mem → α → Mem} (hf : ∀ m x, Canonical m.window → Canonical (f m x).window) (l : List α) : Canonical (l.foldl f m).window := by
  induction l generalizing m with
  | nil => exact h
  | cons x l ih => exact ih (hf _ _ h)

end

@[simp] theorem Mem.lost_canonical {m : Mem} : Canonical m.lost.window := canonical_empty

/-! The operations on the state that do. -/

section
variable {s : State}

theorem State.foldl_canonical {α : Type} {f : State → α → State} (hf : ∀ s x, Canonical s.mem.window → Canonical (f s x).mem.window) (l : List α) (h : Canonical s.mem.window) : Canonical (l.foldl f s).mem.window := by
  induction l generalizing s with
  | nil => exact h
  | cons x l ih => exact ih (hf _ _ h)
theorem State.foldl_fst_canonical {α β : Type} {f : State × β → α → State × β} (hf : ∀ u x, Canonical u.1.mem.window → Canonical (f u x).1.mem.window) (l : List α) {u : State × β} (h : Canonical u.1.mem.window) :
    Canonical (l.foldl f u).1.mem.window := by
  induction l generalizing u with
  | nil => exact h
  | cons x l ih => exact ih (hf _ _ h)
/-- The state that a pair carries, where a match has taken the pair apart. -/
theorem State.fst_canonical {β : Type} {u : State × β} {v : State} {c : β} (e : u = (v, c)) (h : Canonical u.1.mem.window) : Canonical v.mem.window := by subst e; exact h
theorem guarded_canonical {i b} {r : State × Status} (h : Canonical s.mem.window) (hr : Canonical r.1.mem.window) : Canonical (guarded s i b r).1.mem.window := by
  unfold guarded
  split
  · exact hr
  · exact h
theorem flashed_canonical {q b} {r : State × Status} (h : Canonical s.mem.window) (hr : Canonical r.1.mem.window) : Canonical (flashed q b s r).1.mem.window := by
  unfold flashed
  split
  · exact h
  · exact hr

@[simp] theorem respond_mem {m st more data} : (respond m st more data s).mem = s.mem := mem_of_only (respond_only (.refl _ _) (by decide) (by decide))
@[simp] theorem respondSeq_mem {m st more data} : (respondSeq m st more data s).mem = s.mem := mem_of_only (respondSeq_only (.refl _ _) (by decide) (by decide))
@[simp] theorem respondClear_mem {m st more data} : (respondClear m st more data s).mem = s.mem := mem_of_only (respondClear_only (.refl _ _) (by decide) (by decide))

/-! Where arrays write a window: movers, loads, row statistics, quantised blocks. -/

@[simp] theorem loseTenants_canonical : Canonical (loseTenants s).mem.window := by
  unfold loseTenants
  simp
@[simp] theorem writeDest_canonical {a p w off r own} (h : Canonical s.mem.window) : Canonical (writeDest s a p w off r own).1.mem.window := by
  unfold writeDest
  dsimp only
  split
  · split <;> simp [h]
  · split
    · split <;> rename_i e <;> simp [VM.fst_windows e, h]
    · split <;> rename_i e
      · simp [VM.fst_windows e, h]
      · split <;> simp [VM.fst_windows e, h]
      · simp [VM.fst_windows e, h]
  all_goals exact h
@[simp] theorem copyGo_canonical {a e d faults n x5} (h : Canonical s.mem.window) : Canonical (copyGo a e d faults n x5 s).mem.window := by
  induction x5 generalizing s with
  | zero => exact h
  | succ f ih =>
    unfold copyGo
    split
    · exact h
    · dsimp only
      split
      · exact h
      · apply ih
        rw [updEntry_mem, addConds_mem]
        split
        · simpa using h
        · exact writeDest_canonical (by simpa using h)
@[simp] theorem copyTo_canonical {a e d faults n} (h : Canonical s.mem.window) : Canonical (copyTo a e d faults n s).mem.window := by
  unfold copyTo
  split <;> simp [h]
@[simp] theorem advanceMovers_canonical {a e areas} (h : Canonical s.mem.window) : Canonical (advanceMovers a e areas s).mem.window := by
  refine State.foldl_canonical (fun u i hu => ?_) _ h
  (repeat' split) <;> simp [hu]
@[simp] theorem moverEnd_canonical {a e d faults} (h : Canonical s.mem.window) : Canonical (moverEnd a e d faults s).mem.window := by
  unfold moverEnd
  split <;> simp [h]
@[simp] theorem loadTile_canonical {a e waited d} (h : Canonical s.mem.window) : Canonical (loadTile a e waited d s).mem.window := by
  unfold loadTile
  simp [h]
@[simp] theorem loadVector_canonical {a e slot waited d c} (h : Canonical s.mem.window) : Canonical (loadVector a e slot waited d c s).mem.window := by
  unfold loadVector
  simp [h]
@[simp] theorem loadTable_canonical {a e slot waited c} (h : Canonical s.mem.window) : Canonical (loadTable a e slot waited c s).mem.window := by
  unfold loadTable
  simp [h]
@[simp] theorem fillFold_canonical {a e x d} (h : Canonical s.mem.window) : Canonical (fillFold a e x d s).mem.window := by
  unfold fillFold
  simp [h]
@[simp] theorem fillFeeders_canonical {a e m d} (h : Canonical s.mem.window) : Canonical (fillFeeders a e m d s).mem.window := by
  unfold fillFeeders
  simp [h]
@[simp] theorem drainOne_canonical {a e bubbles stalls upset d} (h : Canonical s.mem.window) : Canonical (drainOne a e bubbles stalls upset d s).mem.window := by
  unfold drainOne
  split
  · exact h
  · next x _ =>
    have moved := fun areas => advanceMovers_canonical (a := a) (e := e) (areas := areas) h
    cases x.chain <;> simp [moved, apply_ite State.mem]
@[simp] theorem standaloneOne_canonical {a e stalls d c} (h : Canonical s.mem.window) : Canonical (standaloneOne a e stalls d c s).mem.window := by
  unfold standaloneOne
  dsimp only
  (repeat' split) <;> simp [h]
@[simp] theorem landRegion_canonical {a d c m v} (h : Canonical s.mem.window) : Canonical (landRegion a d c m v s).1.mem.window := by
  unfold landRegion
  dsimp only
  split
  · simp [h]
  · split <;> rename_i e <;> simp [h, VM.fst_windows e]
@[simp] theorem landRow_canonical {a r d c} (h : Canonical s.mem.window) : Canonical (landRow a r d c s).mem.window := by
  unfold landRow
  dsimp only
  have landed : ∀ (l : List (Option Nat × A48 × Bool)) (u : State × Option Status), Canonical u.1.mem.window →
      Canonical (l.foldl (fun (acc : State × Option Status) t => if acc.2.isSome then acc else landRegion a d c r.m t.2.1 acc.1) u).1.mem.window := fun l u hu =>
    State.foldl_fst_canonical (fun u t hu => by split <;> simp [hu]) l hu
  split
  · rw [settleStop_mem, dropRows_mem, updEntry_mem]
    exact landed _ _ h
  · exact landed _ _ h
@[simp] theorem quantWrite_canonical {a e d fmt blocks} (h : Canonical s.mem.window) : Canonical (quantWrite a e d fmt blocks s).mem.window := by
  unfold quantWrite
  split
  · exact h
  · dsimp only
    rw [updEntry_mem, updPart_mem]
    refine Mem.foldl_canonical ?_ (fun m b hm => winPutBlk_canonical hm) _
    rw [putWrites_windows]
    split <;> split <;> simp [h]
@[simp] theorem quantOne_canonical {a r d c} (h : Canonical s.mem.window) : Canonical (quantOne a r d c s).mem.window := by
  unfold quantOne
  dsimp only
  rw [commitRows_mem]
  split
  · exact h
  · exact quantWrite_canonical h
@[simp] theorem tileOne_canonical {a rows tr d c} (h : Canonical s.mem.window) : Canonical (tileOne a rows tr d c s).mem.window := by
  unfold tileOne
  dsimp only
  rw [commitRows_mem]
  exact quantWrite_canonical h
@[simp] theorem rewriteRows_canonical {a e d c rows} (h : Canonical s.mem.window) : Canonical (rewriteRows a e d c rows s).mem.window := by
  unfold rewriteRows
  dsimp only
  (repeat' split) <;> simp [h]
@[simp] theorem rerunPass_canonical {a e} (h : Canonical s.mem.window) : Canonical (rerunPass a e s).mem.window := by
  unfold rerunPass
  split
  · exact h
  · next x _ =>
    split
    · dsimp only
      split
      · split
        · refine rewriteRows_canonical ?_
          split <;> simpa using h
        · split <;> simpa using h
      · split <;> simpa using h
    · exact h
@[simp] theorem poisonPass_canonical {a e} (h : Canonical s.mem.window) : Canonical (poisonPass a e s).mem.window := by
  unfold poisonPass
  split
  · exact h
  · next x _ =>
    split
    · dsimp only
      split
      · split
        · refine rewriteRows_canonical ?_
          split <;> split <;> simpa using h
        · split <;> split <;> simpa using h
      · split <;> split <;> simpa using h
    · exact h
@[simp] theorem decideDispute_canonical {a orig check f l u} (h : Canonical s.mem.window) : Canonical (decideDispute a orig check f l u s).mem.window := by
  unfold decideDispute
  dsimp only
  rw [openGate_mem, auditDispute_windows]
  have counted : Canonical ((groupOf (entriesOf s a) f).foldl (fun s e => countRerun a u e s) s).mem.window := State.foldl_canonical (fun v e hv => by simpa using hv) _ h
  refine State.foldl_canonical (fun v e hv => by simpa using hv) _ ?_
  split
  · exact counted
  · split
    · exact State.foldl_canonical (fun v e hv => rerunPass_canonical hv) _ counted
    · exact State.foldl_canonical (fun v e hv => poisonPass_canonical hv) _ counted
@[simp] theorem copyFree_canonical {a e d n} (h : Canonical s.mem.window) : Canonical (copyFree a e d n s).mem.window := by
  unfold copyFree
  split <;> simp [h]
@[simp] theorem spillMover_canonical {a e d} (h : Canonical s.mem.window) : Canonical (spillMover a e d s).mem.window := by
  unfold spillMover
  split <;> simp [h]
@[simp] theorem cutMovers_canonical {a moved} (h : Canonical s.mem.window) : Canonical (cutMovers a moved s).mem.window := by
  refine State.foldl_canonical (fun u e hu => ?_) _ h
  (repeat' split) <;> simp [hu]
@[simp] theorem stopArrays_canonical {p r t arrays} (h : Canonical s.mem.window) : Canonical (stopArrays p r t arrays s).mem.window := by
  refine State.foldl_canonical (fun u a hu => ?_) _ h
  dsimp only
  split
  · refine State.foldl_canonical (fun v x hv => ?_) _ ?_
    · split <;> simp [hv]
    · rw [leaveDispute_windows]
      exact cutMovers_canonical hu
  · exact hu
@[simp] theorem endAttempt_canonical {p r code t} (h : Canonical s.mem.window) : Canonical (endAttempt p r code t s).1.mem.window := by
  unfold endAttempt
  dsimp only
  (repeat' split) <;> simp [h]
@[simp] theorem abortRun_canonical {p r code t} (h : Canonical s.mem.window) : Canonical (abortRun p r code t s).mem.window := by
  unfold abortRun
  have ended := endAttempt_canonical (p := p) (r := r) (code := code) (t := t) h
  split <;> rename_i e <;> simpa using State.fst_canonical e ended
@[simp] theorem beginStandby_canonical : Canonical (beginStandby s).mem.window := by
  unfold beginStandby
  simp
@[simp] theorem windowEnd_canonical (h : Canonical s.mem.window) : Canonical (windowEnd s).mem.window := by
  unfold windowEnd
  dsimp only
  (repeat' split) <;> simp [h]
@[simp] theorem acceptLower_canonical {target} (h : Canonical s.mem.window) : Canonical (acceptLower target s).mem.window := by
  unfold acceptLower
  split <;> simp [h]
@[simp] theorem requestDoze_canonical (h : Canonical s.mem.window) : Canonical (requestDoze s).1.mem.window := by
  unfold requestDoze
  split
  · split
    · exact h
    · exact acceptLower_canonical h
  · exact h
  · exact h
  · split <;> exact h
  · split <;> exact h
  · exact h
@[simp] theorem requestStandby_canonical (h : Canonical s.mem.window) : Canonical (requestStandby s).1.mem.window := by
  unfold requestStandby
  split
  · exact h
  · split
    · exact acceptLower_canonical h
    · exact beginStandby_canonical
    all_goals exact h
@[simp] theorem carryLatched_canonical (h : Canonical s.mem.window) : Canonical (carryLatched s).mem.window := by
  unfold carryLatched
  dsimp only
  (repeat' split) <;> simp [h]
@[simp] theorem returned_canonical : Canonical (returned s).mem.window := carryLatched_canonical canonical_empty
@[simp] theorem settle_canonical (h : Canonical s.mem.window) : Canonical (settle s).mem.window := by
  unfold settle
  split <;> simp [h]
@[simp] theorem reachActive_canonical (h : Canonical s.mem.window) : Canonical (reachActive s).mem.window := by
  unfold reachActive
  split <;> simp [h]
@[simp] theorem joinTick_canonical {n} (h : Canonical s.mem.window) : Canonical (joinTick n s).mem.window := by
  unfold joinTick
  simp [h]
@[simp] theorem announceIn_canonical {n} (h : Canonical s.mem.window) : Canonical (announceIn n s).mem.window := by
  unfold announceIn
  (repeat' split) <;> simp [h]
@[simp] theorem selfMaster_canonical (h : Canonical s.mem.window) : Canonical (selfMaster s).mem.window := by
  unfold selfMaster
  split <;> simp [h]
@[simp] theorem fetchOne_canonical {p e b g f read replica} (h : Canonical s.mem.window) : Canonical (fetchOne p e b g f read replica s).mem.window := by
  unfold fetchOne
  simp [h, apply_ite State.mem, apply_ite Mem.window]
@[simp] theorem becomeCreated_canonical {p} (h : Canonical s.mem.window) : Canonical (becomeCreated p s).mem.window := clearedWindow_canonical h
@[simp] theorem abortSlices_canonical {p} (h : Canonical s.mem.window) : Canonical (abortSlices p s).mem.window := by
  unfold abortSlices
  exact State.foldl_canonical (fun _ _ hu => abortRun_canonical hu) _ h
@[simp] theorem startRemoval_canonical {p forced} (h : Canonical s.mem.window) : Canonical (startRemoval p forced s).mem.window := by
  unfold startRemoval
  dsimp only
  rw [sendEvent_mem, stopMemory_windows, revokeFlows_mem, closeRanksOf_windows]
  exact abortSlices_canonical h
@[simp] theorem doRemove_canonical {p} (h : Canonical s.mem.window) : Canonical (doRemove p s).1.mem.window := by
  unfold doRemove
  split <;> simp [h]
@[simp] theorem opRemove_canonical {q p} (h : Canonical s.mem.window) : Canonical (opRemove q p s).1.mem.window := guarded_canonical h (doRemove_canonical h)
@[simp] theorem freePages_canonical {p} (h : Canonical s.mem.window) : Canonical (freePages p s).mem.window := by
  unfold freePages
  refine clearedWindow_canonical ?_
  rw [putWrites_windows, VM.foldl_windows fun v page => VM.unback_windows ..]
  exact h
@[simp] theorem finishRemoval_canonical {p done} (h : Canonical s.mem.window) : Canonical (finishRemoval p done s).mem.window := by
  unfold finishRemoval
  split <;> simp [h]
@[simp] theorem finishRemovals_canonical {done} (h : Canonical s.mem.window) : Canonical (finishRemovals done s).mem.window := by
  unfold finishRemovals
  refine State.foldl_canonical (fun u p hu => ?_) _ h
  split
  · exact finishRemoval_canonical hu
  · exact hu
@[simp] theorem beginDebug_canonical (h : Canonical s.mem.window) : Canonical (beginDebug s).mem.window := by
  unfold beginDebug
  simp only [revokeFlows_mem]
  refine State.foldl_canonical (fun u p hu => ?_) _ ?_
  · split
    · exact startRemoval_canonical hu
    · split <;> exact hu
  · simpa using h
@[simp] theorem doDebugOpen_canonical (h : Canonical s.mem.window) : Canonical (doDebugOpen s).1.mem.window := by
  unfold doDebugOpen
  (repeat' split) <;> simp [h]
@[simp] theorem opDebugOpen_canonical {q} (h : Canonical s.mem.window) : Canonical (opDebugOpen q s).1.mem.window := guarded_canonical h (doDebugOpen_canonical h)
@[simp] theorem endAll_canonical {t} (h : Canonical s.mem.window) : Canonical (endAll t s).1.mem.window := by
  unfold endAll
  refine State.foldl_fst_canonical (fun u pr hu => ?_) _ h
  have ended := endAttempt_canonical (p := pr.1) (r := pr.2) (code := .overrun) (t := t) hu
  split <;> rename_i e <;> exact State.fst_canonical e ended
@[simp] theorem applyQuota_canonical {p} (h : Canonical s.mem.window) : Canonical (applyQuota p s).mem.window := by
  unfold applyQuota
  dsimp only
  (repeat' split) <;> simp [h]
@[simp] theorem step4_canonical (h : Canonical s.mem.window) : Canonical (step4 s).mem.window := by
  unfold step4
  dsimp only
  rw [openDebug_mem, stepSessions_windows, stepMemory_windows]
  refine State.foldl_canonical (fun u p hu => ?_) _ (State.foldl_canonical (fun u p hu => applyQuota_canonical hu) _ ?_)
  · split
    · exact becomeCreated_canonical hu
    · exact hu
  · rw [dropLost_mem]
    exact finishRemovals_canonical h
@[simp] theorem frameTick_canonical {t} (h : Canonical s.mem.window) : Canonical (frameTick t s).mem.window := by
  unfold frameTick
  dsimp only
  refine settle_canonical (windowEnd_canonical ?_)
  rw [step7_windows, step6_windows, testSwaps_mem]
  refine step4_canonical ?_
  have gathered : ∀ u : State, Canonical u.mem.window → Canonical (if u.pow.mod = .active then u.putWrites (tickGather u.vm) else u).mem.window := fun u hu => by
    split
    · simpa using hu
    · exact hu
  refine gathered _ ?_
  simp [endAll_canonical, h]
@[simp] theorem runImage_canonical {b} (h : Canonical s.mem.window) : Canonical (runImage b s).mem.window := by
  unfold runImage
  dsimp only
  (repeat' split) <;> simp [h]
@[simp] theorem imageCome_canonical {f} (h : Canonical s.mem.window) : Canonical (imageCome f s).mem.window := by
  unfold imageCome
  dsimp only
  (repeat' split) <;> simp [h]
@[simp] theorem takeImage_canonical {id off ct tag} (h : Canonical s.mem.window) : Canonical (takeImage id off ct tag s).mem.window := by
  unfold takeImage
  dsimp only
  (repeat' split) <;> simp [h]
@[simp] theorem resetAll_canonical : Canonical (resetAll s).mem.window := by
  unfold resetAll
  simp
@[simp] theorem boot_canonical {cause wakeCode} : Canonical (boot cause wakeCode s).mem.window := by
  have reset := resetAll_canonical (s := s)
  unfold boot
  dsimp only
  split <;> rename_i e <;> (rw [(bootLife_mem _).symm.trans (congrArg (·.1.mem) e)] at reset)
  · exact reset
  · split
    · exact reset
    · simpa using reset
@[simp] theorem powerOff_canonical : Canonical (powerOff s).mem.window := by
  unfold powerOff
  simp
@[simp] theorem turnOn_canonical {railsOk} (h : Canonical s.mem.window) : Canonical (turnOn railsOk s).mem.window := by
  unfold turnOn
  dsimp only
  (repeat' split) <;> simp [h]
@[simp] theorem holdReset_canonical : Canonical (holdReset s).mem.window := by
  unfold holdReset
  simp
@[simp] theorem releaseReset_canonical (h : Canonical s.mem.window) : Canonical (releaseReset s).mem.window := by
  unfold releaseReset
  dsimp only
  (repeat' split) <;> simp [h]
@[simp] theorem dropEnable_canonical (h : Canonical s.mem.window) : Canonical (dropEnable s).mem.window := by
  unfold dropEnable
  dsimp only
  (repeat' split) <;> simp [h]
@[simp] theorem trip_canonical : Canonical (trip s).mem.window := by
  unfold trip
  simp
@[simp] theorem opStateDoze_canonical {q} (h : Canonical s.mem.window) : Canonical (opStateDoze q s).1.mem.window := guarded_canonical h (requestDoze_canonical h)
@[simp] theorem opStateStandby_canonical {q} (h : Canonical s.mem.window) : Canonical (opStateStandby q s).1.mem.window := guarded_canonical h (requestStandby_canonical h)
@[simp] theorem domainUp_canonical {d} (h : Canonical s.mem.window) : Canonical (domainUp d s).mem.window := by
  unfold domainUp
  split <;> simp [h]
@[simp] theorem readyStep_canonical {d trained retry x4} (h : Canonical s.mem.window) : Canonical (readyStep d trained retry s x4).mem.window := by
  unfold readyStep
  split
  case h_5 => exact domainUp_canonical h
  case h_3 => split <;> simpa using h
  all_goals simpa using h
@[simp] theorem timeout_canonical {d trained retry x4} (h : Canonical s.mem.window) : Canonical (timeout d trained retry s x4).mem.window := by
  unfold timeout
  split
  · simpa using h
  · split
    · simpa using h
    · split
      · simpa using h
      · exact settle_canonical (by simpa using h)
@[simp] theorem shutDownEnds_canonical (h : Canonical s.mem.window) : Canonical (shutDownEnds s).mem.window := by
  unfold shutDownEnds
  dsimp only
  (repeat' split) <;> simp [h]
@[simp] theorem domainOff_canonical {d} (h : Canonical s.mem.window) : Canonical (domainOff d s).mem.window := by
  unfold domainOff
  dsimp only
  (repeat' split) <;> simp [h]
@[simp] theorem opPartValue_canonical {q p sub b} (h : Canonical s.mem.window) : Canonical (opPartValue q p sub b s).1.mem.window := by
  unfold opPartValue
  split
  · split
    · simpa using h
    · exact opRemove_canonical h
  · simpa using h
  · simpa using h
@[simp] theorem opModuleValue_canonical {q index sub n b} (h : Canonical s.mem.window) : Canonical (opModuleValue q index sub n b s).1.mem.window := by
  unfold opModuleValue
  dsimp only
  (repeat' split) <;> simp [h]
@[simp] theorem opSystemValue_canonical {q index sub n b} (h : Canonical s.mem.window) : Canonical (opSystemValue q index sub n b s).1.mem.window := by
  unfold opSystemValue
  dsimp only
  (repeat' split) <;> simp [h]
@[simp] theorem applyWrite_canonical {q index sub b} (h : Canonical s.mem.window) : Canonical (applyWrite q index sub b s).1.mem.window := by
  unfold applyWrite
  dsimp only
  (repeat' split) <;> simp [h]
@[simp] theorem writeObject_canonical {q index sub b} (h : Canonical s.mem.window) : Canonical (writeObject q index sub b s).1.mem.window := by
  have written := applyWrite_canonical (q := q) (index := index) (sub := sub) (b := b) h
  unfold writeObject
  generalize (writable s q index sub && _ : Bool) = may
  split
  · exact flashed_canonical h written
  · exact h
/-- A message's answer writes what its operation writes. -/
theorem runMsg_canonical {m} {f : State → State × Reply} (hf : ∀ u : State, Canonical u.mem.window → Canonical (f u).1.mem.window) (h : Canonical s.mem.window) : Canonical (runMsg m f s).mem.window := by
  unfold runMsg
  dsimp only
  split
  · rw [respond_mem]
    exact hf _ h
  · exact hf _ h
theorem inSession_canonical {m x} {f : State → State × Reply} (hf : ∀ u : State, Canonical u.mem.window → Canonical (f u).1.mem.window) (h : Canonical s.mem.window) : Canonical (inSession m x f s).mem.window := by
  unfold inSession
  split
  · simpa using h
  · split
    · simpa using h
    · dsimp only
      split
      · simpa using h
      · exact runMsg_canonical hf h
theorem message_canonical {op m} {f : State → State × Reply} (hf : ∀ u : State, Canonical u.mem.window → Canonical (f u).1.mem.window) (h : Canonical s.mem.window) : Canonical (message op m f s).mem.window := by
  have framed : Canonical (sbFrame m 1 1 s).mem.window := by unfold sbFrame; split <;> exact h
  unfold message
  dsimp only
  split
  · exact framed
  · split
    · simpa using framed
    · split
      · exact runMsg_canonical hf framed
      · split
        · simpa using framed
        · exact inSession_canonical hf framed

@[simp] theorem doWrite_canonical {m} (h : Canonical s.mem.window) : Canonical (doWrite m s).1.mem.window := by
  unfold doWrite
  split
  · exact h
  · split <;> rename_i e
    · exact State.fst_canonical e (by simpa using h)
    · exact State.fst_canonical e (by simpa using h)
    · exact writeObject_canonical (State.fst_canonical e (by simpa using h))
@[simp] theorem dictMessage_canonical {op m} (h : Canonical s.mem.window) : Canonical (dictMessage op m s).mem.window := by
  unfold dictMessage
  split
  · exact message_canonical (fun u hu => by simpa using hu) h
  · exact message_canonical (fun u hu => doWrite_canonical hu) h
  · exact message_canonical (fun u hu => by simpa using hu) h
  · exact message_canonical (fun u hu => by simpa using hu) h
  · exact message_canonical (fun u hu => by simpa using hu) h
  · simpa using h
  · simpa using h
@[simp] theorem mailGo_canonical {k slot op m back} (h : Canonical s.mem.window) : Canonical (mailGo k slot op m back s).mem.window := by
  unfold mailGo
  dsimp only
  (repeat' split) <;> simp [h]

end

end Sys2Proof.Machine
end

section
/-!
O5: every command keeps the windows' canonical form, hence every step does.
-/

namespace Sys2Proof.Machine

/-- The windows are in canonical form in the state that an outcome holds, if it holds one. -/
def CanonicalAfter (o : Res) : Prop := ∀ t, o = .next t → Canonical t.mem.window

/-! The shared shapes of the meanings. -/

section
variable {s t : State}

theorem next_canonical (h : Canonical t.mem.window) : CanonicalAfter (.next t) := fun _ e => by cases e; exact h
theorem fault_canonical {f : Fault} : CanonicalAfter (.fault f) := fun _ e => by cases e
theorem need_canonical {b : Bool} (h : Canonical t.mem.window) : CanonicalAfter (need b t) := fun _ e => (need_next.mp e).2 ▸ h
theorem heard_canonical {b : Bool} (h : Canonical s.mem.window) (ht : Canonical t.mem.window) : CanonicalAfter (heard b s t) :=
  next_canonical (by split <;> assumption)
theorem answered_canonical {q : Req} {r : State × Status} (h : Canonical s.mem.window) (hr : Canonical r.1.mem.window) : CanonicalAfter (software s (answer q r)) :=
  heard_canonical h (by rw [answer_mem]; exact hr)
theorem spared_canonical {i : Instr} (h : Canonical s.mem.window) (spared : decide (Group.mem ∈ touches i) = false) : CanonicalAfter (exec i s) := fun t e => by
  rw [(everyCommandTouchesOnlyItsGroups i s t e).mem_eq (of_decide_eq_false spared)]
  exact h

/-! A packet writes what its effect writes. -/

@[simp] theorem State.hear_mem {k} : (s.hear k).mem = s.mem := mem_of_only (State_hear_only (.refl _ _) (by decide))
@[simp] theorem sendAck_mem {f psn} : (sendAck f psn s).mem = s.mem := mem_of_only (sendAck_only (.refl _ _) (by decide) (by decide))
@[simp] theorem dropRevoked_mem {x} : (dropRevoked x s).mem = s.mem := mem_of_only (dropRevoked_only (.refl _ _) (by decide) (by decide))
@[simp] theorem tagFailed_mem {p x} : (tagFailed p x s).mem = s.mem := mem_of_only (tagFailed_only (.refl _ _) (by decide))
@[simp] theorem forwardPkt_mem {p cls op len} : (forwardPkt p cls op len s).mem = s.mem := mem_of_only (forwardPkt_only (.refl _ _) (by decide) (by decide))
@[simp] theorem returnSlots_mem {k vc n} : (returnSlots k vc n s).mem = s.mem := rfl
@[simp] theorem lhWrite_mem {m} : (lhWrite m s).mem = s.mem := mem_of_only (lhWrite_only (.refl _ _) (by decide) (by decide) (by decide))

variable {f : State → State}

theorem deliverPkt_canonical {p cls ok} (hf : ∀ u : State, Canonical u.mem.window → Canonical (f u).mem.window) (h : Canonical s.mem.window) : Canonical (deliverPkt p cls ok f s).mem.window := by
  unfold deliverPkt
  split
  · exact h
  · dsimp only
    split
    · simpa using h
    · split
      · exact h
      · split
        · simpa using h
        · split
          · rw [sendAck_mem]
            exact hf _ (by simpa using h)
          · split <;> simpa using h
theorem recvPkt_canonical {p cls op len ok} (hf : ∀ u : State, Canonical u.mem.window → Canonical (f u).mem.window) (h : Canonical s.mem.window) : Canonical (recvPkt p cls op len ok f s).mem.window := by
  unfold recvPkt
  dsimp only
  split
  · exact deliverPkt_canonical hf h
  · split
    · exact h
    · simpa using h
theorem packet_canonical {p cls op len ok} (hf : ∀ u : State, Canonical u.mem.window → Canonical (f u).mem.window) (h : Canonical s.mem.window) : CanonicalAfter (onStrait p s (recvPkt p cls op len ok f s)) :=
  need_canonical (recvPkt_canonical hf h)

end

section
variable {s : State} (h : Canonical s.mem.window)
include h

/-! The commands whose meaning makes a case distinction of its own. -/

theorem execEnergyDueAdmit_canonical : CanonicalAfter (execEnergyDueAdmit s) := by
  unfold execEnergyDueAdmit
  split
  · exact next_canonical (by simpa using h)
  · exact fault_canonical
theorem execStationaryTileLoad_canonical {a e waited} : CanonicalAfter (execStationaryTileLoad a e waited s) := by
  unfold execStationaryTileLoad
  split
  · split
    · exact need_canonical (loadTile_canonical h)
    · exact fault_canonical
  · exact fault_canonical
theorem execVectorOperandLoad_canonical {a e slot waited} : CanonicalAfter (execVectorOperandLoad a e slot waited s) := by
  unfold execVectorOperandLoad
  split
  · split
    · exact need_canonical (loadVector_canonical h)
    · exact fault_canonical
  · exact fault_canonical
theorem execTableLoad_canonical {a e slot waited} : CanonicalAfter (execTableLoad a e slot waited s) := by
  unfold execTableLoad
  split
  · split
    · exact need_canonical (loadTable_canonical h)
    · exact fault_canonical
  · exact fault_canonical
theorem execFoldHalfFill_canonical {a e} : CanonicalAfter (execFoldHalfFill a e s) := by
  unfold execFoldHalfFill
  split
  · split
    · exact need_canonical (fillFold_canonical h)
    · exact fault_canonical
  · exact fault_canonical
theorem execDrainRow_canonical {a e bubbles stalls upset} : CanonicalAfter (execDrainRow a e bubbles stalls upset s) := by
  unfold execDrainRow
  split
  · split
    · exact need_canonical (drainOne_canonical h)
    · exact fault_canonical
  · exact fault_canonical
theorem execChainStandaloneGroup_canonical {a e stalls} : CanonicalAfter (execChainStandaloneGroup a e stalls s) := by
  unfold execChainStandaloneGroup
  split
  · split
    · exact need_canonical (standaloneOne_canonical h)
    · exact fault_canonical
  · exact fault_canonical
theorem execRowStatLand_canonical {a} : CanonicalAfter (execRowStatLand a s) := by
  unfold execRowStatLand
  split
  · split
    · exact need_canonical (landRow_canonical h)
    · exact fault_canonical
  · exact fault_canonical
theorem execQuantBlockWrite_canonical {a} : CanonicalAfter (execQuantBlockWrite a s) := by
  unfold execQuantBlockWrite
  split
  · exact need_canonical (quantOne_canonical h)
  · exact fault_canonical
theorem execSbTileWrite_canonical {a} : CanonicalAfter (execSbTileWrite a s) := by
  unfold execSbTileWrite
  split
  · exact need_canonical (tileOne_canonical h)
  · exact fault_canonical
theorem execDisputeDecide_canonical {a o c} : CanonicalAfter (execDisputeDecide a o c s) := by
  unfold execDisputeDecide
  split
  · exact need_canonical (decideDispute_canonical h)
  · exact fault_canonical
theorem execMoverComplete_canonical {a e faults} : CanonicalAfter (execMoverComplete a e faults s) := by
  unfold execMoverComplete
  split
  · split
    · exact need_canonical (moverEnd_canonical h)
    · exact fault_canonical
  · exact fault_canonical
theorem execSliceComplete_canonical {p r cycles energy} : CanonicalAfter (execSliceComplete p r cycles energy s) := by
  unfold execSliceComplete
  split
  · exact need_canonical (by simpa using h)
  · exact fault_canonical
theorem execPoolHomeAccess_canonical {q value} : CanonicalAfter (execPoolHomeAccess q value s) := by
  refine heard_canonical h ?_
  split
  · rw [answer_mem]
    exact flashed_canonical h (by simpa using h)
  · unfold answerData
    split <;> split <;> exact h
theorem execFetchSector_canonical {p e b read replica} : CanonicalAfter (execFetchSector p e b read replica s) := by
  unfold execFetchSector
  split
  · exact need_canonical (fetchOne_canonical h)
  · exact fault_canonical
theorem execFlowOpen_canonical {owner peer peerFlow classes session} : CanonicalAfter (execFlowOpen owner peer peerFlow classes session s) := by
  refine need_canonical ?_
  dsimp only
  split
  · split <;> simpa using h
  · simpa using h
theorem execFlowRetryTimeout_canonical {f} : CanonicalAfter (execFlowRetryTimeout f s) := by
  refine need_canonical ?_
  split <;> simpa using h
theorem execFlowIntegrityLost_canonical {f} : CanonicalAfter (execFlowIntegrityLost f s) := by
  refine need_canonical ?_
  split <;> simpa using h
theorem execWakePacket_canonical {p target} : CanonicalAfter (execWakePacket p target s) := by
  refine packet_canonical (fun u hu => ?_) h
  split
  · exact hu
  · simpa using hu
theorem execMailboxGo_canonical {k slot op m} : CanonicalAfter (execMailboxGo k slot op m s) := by
  refine need_canonical ?_
  split
  · exact mailGo_canonical h
  · exact h
theorem execPartitionKey_canonical {q b} : CanonicalAfter (execPartitionKey q b s) := by
  unfold execPartitionKey
  split
  · exact answered_canonical h (by simpa using h)
  · exact fault_canonical
theorem execRotate_canonical {q b} : CanonicalAfter (execRotate q b s) := by
  unfold execRotate
  split
  · exact answered_canonical h (by simpa using h)
  · exact fault_canonical
theorem execJointKey_canonical {q b} : CanonicalAfter (execJointKey q b s) := by
  unfold execJointKey
  split
  · exact answered_canonical h (by simpa using h)
  · exact fault_canonical
theorem execWrite_canonical {m} : CanonicalAfter (execWrite m s) := by
  unfold execWrite
  split
  · exact next_canonical (by simpa using h)
  · exact heard_canonical h (message_canonical (fun u hu => doWrite_canonical hu) h)
theorem execModPwrEnRise_canonical : CanonicalAfter (execModPwrEnRise s) := by
  refine need_canonical ?_
  dsimp only
  split
  · simpa using h
  · exact h
theorem execModResetNAssert_canonical : CanonicalAfter (execModResetNAssert s) := by
  refine need_canonical ?_
  split
  · exact holdReset_canonical
  · exact h
theorem execDozeEntry_canonical {bad} : CanonicalAfter (execDozeEntry bad s) := by
  refine need_canonical ?_
  dsimp only
  split
  · exact shutDownEnds_canonical (by simpa using h)
  · simpa using h
theorem execDomainReady_canonical {d r} : CanonicalAfter (execDomainReady d r s) := by
  unfold execDomainReady
  split
  · exact need_canonical (readyStep_canonical h)
  · exact fault_canonical
theorem execDomainReadyTimeout_canonical {d r} : CanonicalAfter (execDomainReadyTimeout d r s) := by
  unfold execDomainReadyTimeout
  split
  · exact need_canonical (timeout_canonical h)
  · exact fault_canonical
theorem execRecoveryData_canonical {id off ct tag} : CanonicalAfter (execRecoveryData id off ct tag s) := by
  have heardOf : Canonical (match s.fw.fetch with | some f => s.hear f.strait | none => s).mem.window := by split <;> simpa using h
  refine heard_canonical h ?_
  split
  · exact takeImage_canonical heardOf
  · exact heardOf
theorem execDieTemperature_canonical {src c} : CanonicalAfter (execDieTemperature src c s) := by
  unfold execDieTemperature
  split <;> exact need_canonical (by simpa using h)

/-- Every command keeps the windows' form: those that do not touch memory by their frame, the others by what they write. -/
theorem exec_canonical (i : Instr) : CanonicalAfter (exec i s) := by
  cases i with
  | frameTick => exact need_canonical (frameTick_canonical h)
  | energyDueAdmit => exact execEnergyDueAdmit_canonical h
  | sliceSplit => exact need_canonical (abortRun_canonical h)
  | stationaryTileLoad => exact execStationaryTileLoad_canonical h
  | vectorOperandLoad => exact execVectorOperandLoad_canonical h
  | tableLoad => exact execTableLoad_canonical h
  | foldHalfFill => exact execFoldHalfFill_canonical h
  | drainRow => exact execDrainRow_canonical h
  | chainStandaloneGroup => exact execChainStandaloneGroup_canonical h
  | rowStatLand => exact execRowStatLand_canonical h
  | quantBlockWrite => exact execQuantBlockWrite_canonical h
  | sbTileWrite => exact execSbTileWrite_canonical h
  | disputeDecide => exact execDisputeDecide_canonical h
  | moverComplete => exact execMoverComplete_canonical h
  | sliceComplete => exact execSliceComplete_canonical h
  | tickAnnounce => exact need_canonical (announceIn_canonical h)
  | tickSelfMaster => exact need_canonical (selfMaster_canonical h)
  | map => exact answered_canonical h (by simpa using h)
  | unmap => exact answered_canonical h (by simpa using h)
  | setAttr => exact answered_canonical h (by simpa using h)
  | discard => exact answered_canonical h (by simpa using h)
  | poolHomeAccess => exact execPoolHomeAccess_canonical h
  | windowGranuleMove => exact need_canonical h
  | migrationSectorCopy => exact need_canonical (by simpa using h)
  | gatheringFetchStart => exact need_canonical h
  | fetchSector => exact execFetchSector_canonical h
  | flowOpen => exact execFlowOpen_canonical h
  | flowRetryTimeout => exact execFlowRetryTimeout_canonical h
  | flowIntegrityLost => exact execFlowIntegrityLost_canonical h
  | memrdRequest => exact packet_canonical (fun u hu => by simpa using hu) h
  | memrdData => exact packet_canonical (fun u hu => by simpa using hu) h
  | memrdError => exact packet_canonical (fun u hu => by simpa using hu) h
  | memwr => exact packet_canonical (fun u hu => by simpa using hu) h
  | atomicSectorCas => exact packet_canonical (fun u hu => by simpa using hu) h
  | atomicResult => exact packet_canonical (fun u hu => by simpa using hu) h
  | wakePacket => exact execWakePacket_canonical h
  | hello => exact need_canonical (by simpa using h)
  | reply => exact need_canonical (by simpa using h)
  | finish => exact need_canonical (by simpa using h)
  | hostRead => exact need_canonical (by simpa using h)
  | hostWrite => exact need_canonical (by simpa using h)
  | mailboxGo => exact execMailboxGo_canonical h
  | sessionOpOpen => exact answered_canonical h (by simpa using h)
  | sessionDigestMatch => exact need_canonical (by simpa using h)
  | sessionOpClose => exact answered_canonical h (by simpa using h)
  | closeLayer => exact answered_canonical h (by simpa using h)
  | withhold => exact answered_canonical h (by simpa using h)
  | contribData => exact packet_canonical (fun u hu => by simpa using hu) h
  | contribRoll => exact packet_canonical (fun u hu => by simpa using hu) h
  | contribAbsent => exact packet_canonical (fun u hu => by simpa using hu) h
  | ownerDeadline => exact need_canonical (by simpa using h)
  | paramData => exact packet_canonical (fun u hu => by simpa using hu) h
  | versionPublish => exact need_canonical (by simpa using h)
  | paramResendRequest => exact packet_canonical (fun u hu => by simpa using hu) h
  | paramResendTimeout => exact need_canonical (by simpa using h)
  | tipinData => exact packet_canonical (fun u hu => by simpa using hu) h
  | sectorRead => exact need_canonical (by simpa using h)
  | sectorWrite => exact need_canonical (by simpa using h)
  | sectorPartialWrite => exact need_canonical (by simpa using h)
  | rekeySector => exact need_canonical (by simpa using h)
  | regionSteady => exact need_canonical (by simpa using h)
  | windowEccError => exact need_canonical (by simpa using h)
  | remove => exact answered_canonical h (opRemove_canonical h)
  | removalComplete => exact need_canonical (finishRemoval_canonical h)
  | partitionKey => exact execPartitionKey_canonical h
  | rotate => exact execRotate_canonical h
  | jointKey => exact execJointKey_canonical h
  | debugOpen => exact answered_canonical h (opDebugOpen_canonical h)
  | unitRetire => exact need_canonical (by simpa using h)
  | lighthouseSilent => exact need_canonical (by simpa using h)
  | write => exact execWrite_canonical h
  | inputTurnOn => exact need_canonical (turnOn_canonical h)
  | inputTurnOff => exact need_canonical (powerOff_canonical)
  | overVoltage => exact need_canonical (powerOff_canonical)
  | modPwrEnRise => exact execModPwrEnRise_canonical h
  | modPwrEnFall => exact need_canonical (dropEnable_canonical h)
  | modResetNAssert => exact execModResetNAssert_canonical h
  | watchdogExpire => exact need_canonical (boot_canonical)
  | thermalTrip => exact need_canonical (trip_canonical)
  | straitSignalWake => exact need_canonical (by simpa using h)
  | sidebandWakeFrame => exact heard_canonical h (by simpa using h)
  | stateRequestDoze => exact answered_canonical h (opStateDoze_canonical h)
  | stateRequestStandby => exact answered_canonical h (opStateStandby_canonical h)
  | stateRequestActive => exact answered_canonical h (by simpa using h)
  | dozeEntry => exact execDozeEntry_canonical h
  | domainReady => exact execDomainReady_canonical h
  | domainReadyTimeout => exact execDomainReadyTimeout_canonical h
  | domainOff => exact need_canonical (domainOff_canonical h)
  | recoveryData => exact execRecoveryData_canonical h
  | registerWrite => exact answered_canonical h (writeObject_canonical h)
  | dieTemperature => exact execDieTemperature_canonical h
  | modResetNRelease => exact need_canonical (releaseReset_canonical h)
  | _ => exact spared_canonical h rfl

end

/-- Settles O5: a step is the command at the front of the queue, and every command keeps the form. -/
theorem windowsStayCanonicalOverEveryStep : Obligations.WindowsStayCanonicalOverEveryStep := by
  intro s t h e
  unfold step at e
  split at e
  · cases e
    exact h
  · next c rest _ =>
    have front : Canonical ({ s with pending := rest } : State).mem.window := h
    exact exec_canonical front c t e

end Sys2Proof.Machine
end

section
/-!
Settles O8: a query subindex. Each write is `guarded`, and where the guard lets it through it records the key for its session and answers DONE.
-/

namespace Sys2Proof.Machine

/-- An address below 2^56 names the page it lies in. -/
theorem pageOf_of_lt {va : Nat} (short : va < 2 ^ 56) : pageOf va = va / 2 ^ 21 := by rw [pageOf, Nat.mod_eq_of_lt short]

section
variable {s : State} {q : Req} {p : PartId} {va : BitVec 64}

theorem opPtQuery_of (sv : served s (0x5040 + p.val)) (may : opOrTenant s q p) (short : va.toNat < 2 ^ 56) :
    opPtQuery q p va s = (updPerPart q p (fun x => { x with ptQuery := va, ptEntry := leafWord s.mem p (va.toNat / 2 ^ 21) }) s, .done) := by
  unfold opPtQuery
  rw [guarded_of sv (Bool.and_eq_true_iff.mpr ⟨may, decide_eq_true short⟩), pageOf_of_lt short]

theorem opRgnQuery_of (sv : served s (0x5040 + p.val)) (may : opOrTenant s q p) (short : va.toNat < 2 ^ 56) (whole : va.toNat % 2 ^ 21 = 0) :
    opRgnQuery q p va s = (updPerPart q p (fun x => { x with rgnQuery := va, rgnRecord := regionWord (s.vm.region p (va.toNat / 2 ^ 21)) }) s, .done) := by
  unfold opRgnQuery
  rw [guarded_of sv (Bool.and_eq_true_iff.mpr ⟨Bool.and_eq_true_iff.mpr ⟨may, decide_eq_true short⟩, decide_eq_true whole⟩), pageOf_of_lt short]

end

/-- Settles O8: each query's guard holds, so the key is recorded and answered DONE. -/
theorem queriesRecordTheirKey : Obligations.QueriesRecordTheirKey := by
  intro s q hr
  refine ⟨fun v sv may known short => ?desc, fun p va sv may short => ?pt, fun p va sv may short whole => ?rgn, fun id sv op inList => ?flow, fun id sv op inList => ?slot, fun u sv op known => ?unit,
    fun i sv op => ?hist, fun n sv may => ?audit, fun i l sv real may => ?owner, fun n sv => ?frame, fun n sv => ?minute, fun n sv => ?hour, fun n sv short => ?sealOffset, fun n sv short => ?certOffset⟩
  case desc => exact software_done hr (guarded_of sv (Bool.and_eq_true_iff.mpr ⟨Bool.and_eq_true_iff.mpr ⟨may, known⟩, decide_eq_true short⟩))
  case pt => exact software_done hr (opPtQuery_of sv may short)
  case rgn => exact software_done hr (opRgnQuery_of sv may short whole)
  case flow => exact software_done hr (guarded_of sv (by simp [op, inList]))
  case slot => exact software_done hr (guarded_of sv (by simp [op, inList]))
  case unit => exact software_done hr (guarded_of sv (by simp [op, known]))
  case hist => exact software_done hr (guarded_of sv op)
  case audit => exact software_done hr (guarded_of sv (by simpa using may))
  case owner => exact software_done hr (guarded_of sv (by simp [real, may]))
  case frame | minute | hour => exact software_done hr (guarded_of sv rfl)
  case sealOffset | certOffset => exact software_done hr (guarded_of sv (decide_eq_true short))

end Sys2Proof.Machine
end

section
/-!
Memory work that changes memory and the free values alone: translations, counting an access, cache lookups, and the reads that find no stored data (R238, R249, R394, R398, R402).
-/

namespace Sys2Proof.Machine

/-- `w` is `v` but for memory and the free values used. -/
def VM.MemFree (v w : VM) : Prop := ∃ m n, w = { v with mem := m, free := n }

theorem VM.MemFree.refl (v : VM) : v.MemFree v := ⟨_, _, rfl⟩
theorem VM.MemFree.trans {u v w : VM} (h : u.MemFree v) (k : v.MemFree w) : u.MemFree w := by
  obtain ⟨m, n, rfl⟩ := h
  obtain ⟨m', n', rfl⟩ := k
  exact ⟨m', n', rfl⟩
/-- Where nothing was sent, the state takes the work over without a packet. -/
theorem VM.MemFree.putWrites_eq {s : State} {w : VM} (h : s.vm.MemFree w) : s.putWrites w = { s with mem := w.mem, free := w.free } := by
  obtain ⟨m, n, rfl⟩ := h
  rfl
theorem VM.MemFree.putVM_eq {s : State} {w : VM} (h : s.vm.MemFree w) : s.putVM w = { s with mem := w.mem, free := w.free } := by
  obtain ⟨m, n, rfl⟩ := h
  rfl

section
variable (v : VM) (p : PartId) (va : Nat)

theorem VM.translate_memFree : v.MemFree (v.translate p va) := by
  unfold VM.translate
  dsimp only
  split
  · exact .refl v
  · exact ⟨_, _, rfl⟩
theorem VM.touch_memFree (acc : Bool) : v.MemFree (v.touch p va acc) := by
  unfold VM.touch
  split
  · exact ⟨_, _, rfl⟩
  · exact .refl v
theorem VM.cacheLook_memFree (r : Region) (i : Nat) (loc : Loc) (write : Bool) : v.MemFree (v.cacheLook r i loc write) := by
  have lines : ∀ (u : VM) st path, u.MemFree (u.cacheLines st path write) := fun u st path => ⟨_, _, rfl⟩
  unfold VM.cacheLook
  split
  · exact (lines v _ _).trans (lines _ _ _)
  · exact lines v _ _

/-! What decides whether a stack that an access needs has failed. -/

@[simp] theorem VM.translate_regions : (v.translate p va).mem.regions = v.mem.regions := by unfold VM.translate; dsimp only; split <;> rfl
@[simp] theorem VM.translate_stacksFailed : (v.translate p va).mem.stacksFailed = v.mem.stacksFailed := by unfold VM.translate; dsimp only; split <;> rfl
@[simp] theorem VM.touch_regions (acc : Bool) : (v.touch p va acc).mem.regions = v.mem.regions := by unfold VM.touch; split <;> rfl
@[simp] theorem VM.touch_stacksFailed (acc : Bool) : (v.touch p va acc).mem.stacksFailed = v.mem.stacksFailed := by unfold VM.touch; split <;> rfl
@[simp] theorem VM.cacheLines_regions (st : Nat) (path : List (Nat × Nat × Nat)) (w : Bool) : (v.cacheLines st path w).mem.regions = v.mem.regions := by unfold VM.cacheLines; rfl
@[simp] theorem VM.cacheLines_stacksFailed (st : Nat) (path : List (Nat × Nat × Nat)) (w : Bool) : (v.cacheLines st path w).mem.stacksFailed = v.mem.stacksFailed := by unfold VM.cacheLines; rfl
@[simp] theorem VM.cacheLook_regions (r : Region) (i : Nat) (loc : Loc) (w : Bool) : (v.cacheLook r i loc w).mem.regions = v.mem.regions := by unfold VM.cacheLook; split <;> simp only [VM.cacheLines_regions]
@[simp] theorem VM.cacheLook_stacksFailed (r : Region) (i : Nat) (loc : Loc) (w : Bool) : (v.cacheLook r i loc w).mem.stacksFailed = v.mem.stacksFailed := by
  unfold VM.cacheLook; split <;> simp only [VM.cacheLines_stacksFailed]

theorem VM.place_congr {v w : VM} (h : w.mem.migrations = v.mem.migrations) (l : Leaf) : w.place p va l = v.place p va l := by simp only [VM.place, h]
theorem VM.absent_congr {v w : VM} (migrations : w.mem.migrations = v.mem.migrations) (regions : w.mem.regions = v.mem.regions) (failed : w.mem.stacksFailed = v.mem.stacksFailed) (l : Leaf) :
    w.absent p va l = v.absent p va l := by simp only [VM.absent, VM.region, VM.place_congr p va migrations, regions, failed]

/-- What reading a sector of a backed page does before its counter is looked at: translation, access count, cache lines. -/
def VM.opened (l : Leaf) (acc : Bool) : VM :=
  ((v.translate p va).touch p va acc).cacheLook (v.region p (pageOf va)) (sectorOf va) ((v.translate p va).place p va l) false

theorem VM.opened_memFree (l : Leaf) (acc : Bool) : v.MemFree (v.opened p va l acc) :=
  ((v.translate_memFree p va).trans (VM.touch_memFree _ p va acc)).trans (VM.cacheLook_memFree _ _ _ _ _)
@[simp] theorem VM.opened_ctrs (l : Leaf) (acc : Bool) : (v.opened p va l acc).mem.ctrs = v.mem.ctrs := by simp [VM.opened]
theorem VM.opened_absent (l : Leaf) (acc : Bool) : (v.opened p va l acc).absent p va l = v.absent p va l :=
  VM.absent_congr p va (by simp [VM.opened]) (by simp [VM.opened]) (by simp [VM.opened]) l

end

/-! What a read gives where no data are stored. -/

section
variable {v : VM} {p : PartId} {va : Nat} {acc : Bool} {l : Leaf} {base : Bytes}

theorem readSector_notMapped (hl : v.leaf p va = none) (d : Delivered) : v.readSector p va d acc = (v, .unmapped) := by
  unfold VM.readSector
  rw [hl]
theorem readSector_unbacked (hl : v.leaf p va = some l) (hu : l.loc = .unbacked) (d : Delivered) : v.readSector p va d acc = (v, .data 0) := by
  unfold VM.readSector
  rw [hl]
  exact if_pos hu

variable (hl : v.leaf p va = some l) (hu : l.loc ≠ .unbacked) (hb : v.baseKey p l (genOf (v.region p (pageOf va)) (sectorOf va)).2 = some base)
include hl hu hb

theorem readSector_freeCounter (n : Nat) (h0 : ctrOf v.mem (v.region p (pageOf va)) (sectorOf va) = 0) : v.readSector p va (.asStored n) acc = (v.opened p va l acc, .data 0) := by
  have free : ctrOf (v.opened p va l acc).mem (v.region p (pageOf va)) (sectorOf va) = 0 := by rw [← h0, ctrOf, ctrOf, VM.opened_ctrs]
  unfold VM.readSector
  rw [hl]
  simp only [hu, if_false, VM.translate_region, VM.translate_baseKey, hb]
  exact if_pos free
theorem readSector_poisonedCounter (n : Nat) (hF : ctrOf v.mem (v.region p (pageOf va)) (sectorOf va) = 0xFFFF) :
    v.readSector p va (.asStored n) acc = (v.opened p va l acc, .poisoned (if v.absent p va l then .uncorrectable else .poisonIn)) := by
  have poisoned : ctrOf (v.opened p va l acc).mem (v.region p (pageOf va)) (sectorOf va) = 0xFFFF := by rw [← hF, ctrOf, ctrOf, VM.opened_ctrs]
  rw [← VM.opened_absent v p va l acc]
  unfold VM.readSector
  rw [hl]
  simp only [hu, if_false, VM.translate_region, VM.translate_baseKey, hb]
  refine (if_neg fun free => ?_).trans (if_pos poisoned)
  cases poisoned.symm.trans free

end

/-! A read that is answered without asking a home. -/

section
variable {s : State} {p : PartId} {va : Nat} {l : Leaf}

/-- The sector that an answer carries. -/
def RdRes.sector : RdRes → Option Sector
  | .data x => some x
  | _ => none

/-- A read that is answered at once, with what it found. -/
theorem readOp_answers {w : VM} {r : RdRes} (hw : s.vm.MemFree w) (hr : s.vm.readSector p va (.asStored 0) true = (w, r)) (kept : r.status ≠ .keyRevoked)
    (here : s.vm.leaf p va = none ∨ ∃ l, s.vm.leaf p va = some l ∧
      (s.vm.place p va l = .unbacked ∨ ctrOf s.mem (s.vm.region p (pageOf va)) (sectorOf va) = 0 ∨ ctrOf s.mem (s.vm.region p (pageOf va)) (sectorOf va) = 0xFFFF)) :
    readOp p va (.asStored 0) s = ({ s with mem := w.mem, free := w.free } : State).emit [.sectorData p va r.sector r.status] := by
  have now : (countRefusal r.status (s.putVM w)).emit [.sectorData p va r.sector r.status] = ({ s with mem := w.mem, free := w.free } : State).emit [.sectorData p va r.sector r.status] := by
    rw [countRefusal, if_neg kept, hw.putVM_eq]
  unfold readOp
  simp only [hr]
  rcases here with none' | ⟨l, hl, found⟩
  · simp only [none']
    exact now
  · simp only [hl]
    split
    · next place _ =>
      refine (if_pos ?_).trans now
      rcases found with unbacked | free | poisoned
      · rw [place] at unbacked
        cases unbacked
      · exact .inl free
      · exact .inr (.inl poisoned)
    · next none' => cases none'
    · next none' => cases none'
    · exact now

end

end Sys2Proof.Machine
end

section
/-!
Settles O29: reads where no data are stored.
-/

namespace Sys2Proof.Machine

section
variable {s : State} {p : PartId} {va : BitVec 56} (up : memUp s) (whole : va.toNat % 256 = 0)
include up whole

theorem execSectorRead_of {t : State} (h : readOp p va.toNat (.asStored 0) s = t) : exec (.sectorRead p va (.asStored 0)) s = .next t :=
  (need_of (by simp [up, whole])).trans (congrArg _ h)

theorem sectorRead_notMapped (hl : s.vm.leaf p va.toNat = none) : exec (.sectorRead p va (.asStored 0)) s = .next (s.emit [.sectorData p va.toNat none .quota]) :=
  execSectorRead_of up whole (readOp_answers (.refl _) (readSector_notMapped hl _) (by decide) (.inl hl))

theorem sectorRead_unbacked {l : Leaf} (hl : s.vm.leaf p va.toNat = some l) (here : s.vm.place p va.toNat l = .unbacked) (hu : l.loc = .unbacked) :
    exec (.sectorRead p va (.asStored 0)) s = .next (s.emit [.sectorData p va.toNat (some 0) .done]) :=
  execSectorRead_of up whole (readOp_answers (.refl _) (readSector_unbacked hl hu _) (fun e => by cases e) (.inr ⟨l, hl, .inl here⟩))

variable {l : Leaf} {base : Bytes} (hl : s.vm.leaf p va.toNat = some l) (hu : l.loc ≠ .unbacked)
  (hb : s.vm.baseKey p l (genOf (s.vm.region p (pageOf va.toNat)) (sectorOf va.toNat)).2 = some base)
include hl hu hb

theorem sectorRead_freeCounter (h0 : ctrOf s.mem (s.vm.region p (pageOf va.toNat)) (sectorOf va.toNat) = 0) :
    ∃ t, exec (.sectorRead p va (.asStored 0)) s = .next t ∧ t.out = s.out ++ [.sectorData p va.toNat (some 0) .done] ∧ OnlyTouches [.out, .mem, .free] s t :=
  ⟨_, execSectorRead_of up whole (readOp_answers (s.vm.opened_memFree ..) (readSector_freeCounter hl hu hb 0 h0) (fun e => by cases e) (.inr ⟨l, hl, .inr (.inl h0)⟩)), rfl, rfl⟩

theorem sectorRead_poisonedCounter (hF : ctrOf s.mem (s.vm.region p (pageOf va.toNat)) (sectorOf va.toNat) = 0xFFFF) :
    ∃ t, exec (.sectorRead p va (.asStored 0)) s = .next t ∧
      t.out = s.out ++ [.sectorData p va.toNat none (if s.vm.absent p va.toNat l then .uncorrectable else .poisonIn)] ∧ OnlyTouches [.out, .mem, .free] s t :=
  ⟨_, execSectorRead_of up whole (readOp_answers (s.vm.opened_memFree ..) (readSector_poisonedCounter hl hu hb 0 hF) (by simp only [RdRes.status]; split <;> decide) (.inr ⟨l, hl, .inr (.inr hF)⟩)), rfl, rfl⟩

end

/-- Settles O29: the page's leaf entry and the sector's counter decide the answer before any stored data are looked at. -/
theorem readsWithoutStoredDataAnswerByTheirState : Obligations.ReadsWithoutStoredDataAnswerByTheirState := fun _ _ _ up whole =>
  ⟨sectorRead_notMapped up whole, fun _ hl here hu => sectorRead_unbacked up whole hl here hu,
    fun _ _ hl hu hb => ⟨sectorRead_freeCounter up whole hl hu hb, sectorRead_poisonedCounter up whole hl hu hb⟩⟩

end Sys2Proof.Machine
end

section
/-!
Settles O32: gathering fetches start in queue order, and each fills its place in its bank.
-/

namespace Sys2Proof.Machine

/-- The first fetch that has not started starts, and no other changes. -/
theorem startFirst_starts {l : List Fetch} (waiting : ∃ f ∈ l, f.started = false) :
    ∃ a f b, l = a ++ f :: b ∧ (∀ x ∈ a, x.started) ∧ f.started = false ∧ execGatheringFetchStart.startFirst l = a ++ { f with started := true } :: b := by
  induction l with
  | nil => simp at waiting
  | cons f l ih =>
    cases hf : f.started with
    | false => exact ⟨[], f, l, rfl, by simp, hf, by simp [execGatheringFetchStart.startFirst, hf]⟩
    | true =>
      obtain ⟨a, g, b, split, started, fresh, result⟩ := ih (by simpa [hf] using waiting)
      exact ⟨f :: a, g, b, by simp [split], List.forall_mem_cons.mpr ⟨hf, started⟩, fresh, by simp [execGatheringFetchStart.startFirst, hf, result]⟩

section
variable {s : State} {p : PartId} {e b : Nat} {g : Gathering} {f : Fetch} {read replica : Delivered} {x : Sector}

/-- Of all that a fetch does, only the sector that lands writes a window. -/
theorem fetchOne_windows : (fetchOne p e b g f read replica s).mem.window =
    (landSector p (g.winOff + b * bankBytes g + 256 * f.pos) (fetchTwice p g f read replica s).2.1 (fetchTwice p g f read replica s).1.mem).window := by
  unfold fetchOne
  simp [apply_ite State.mem, apply_ite Mem.window]

/-- Data that the first read delivers need no replica. -/
theorem fetchTwice_data (h : (s.vm.readSector p (fetchVa g f) read true).2 = .data x) : (fetchTwice p g f read replica s).2.1 = .data x := by
  unfold fetchTwice fetchRead
  simp only [h]

/-- A fetch that reads data writes its 256 bytes in place and no other. -/
theorem fetchOne_lands (h : (s.vm.readSector p (fetchVa g f) read true).2 = .data x) :
    (fetchOne p e b g f read replica s).mem.window = modVec s.mem.window p (cellsWrite (g.winOff + b * bankBytes g + 256 * f.pos) (sectorBytes x)) := by
  rw [fetchOne_windows, fetchTwice_data h]
  change modVec (fetchTwice p g f read replica s).1.mem.window p _ = _
  rw [fetchTwice_windows]

end

/-- What was written reads back. -/
theorem cellsRead_cellsWrite (a : Nat) (b : Bytes) (m : List Host.Cell) : cellsRead (cellsWrite a b m) a b.length = b := by
  refine List.ext_getElem (by simp [cellsRead]) fun i _ hi => ?_
  simp only [cellsRead, List.getElem_map, List.getElem_range]
  exact cellRead_cellsWrite_inside b a i m hi

theorem length_sectorBytes (x : Sector) : (sectorBytes x).length = 256 := by simp [sectorBytes]

/-- Settles O32: the first waiting fetch starts; the sector that a fetch has read is what its place in the bank holds from then on. -/
theorem gatheringFetchesFillTheirBank : Obligations.GatheringFetchesFillTheirBank := by
  refine ⟨fun s up waiting => ?start, fun s p e b d f g x up hf hg _ hx => ?fill⟩
  case start =>
    obtain ⟨a, f, b, split, started, fresh, result⟩ := startFirst_starts waiting
    exact ⟨_, a, f, b, need_of (by simpa [up] using waiting), split, started, fresh, result, rfl⟩
  case fill =>
    have run : exec (.fetchSector p e b (.asStored 0) d) s = .next (fetchOne p e b g f (.asStored 0) d s) := by
      change execFetchSector p e b (.asStored 0) d s = _
      simp only [execFetchSector, hf, hg, need_of up]
    refine ⟨_, run, ?_, fun a outside => ?_, fun p' other => ?_⟩ <;> rw [fetchOne_lands hx]
    · rw [modVec_self, ← length_sectorBytes x, cellsRead_cellsWrite]
    · rw [modVec_self]
      exact cellRead_cellsWrite_outside _ _ _ _ (by rw [length_sectorBytes]; exact outside)
    · exact modVec_other _ _ _ _ other

end Sys2Proof.Machine
end

section
/-!
Settles O31: a page copy within T1 and the granules of a window that moves (R232, R251).
-/

namespace Sys2Proof.Machine

/-! What leaf entries and re-encryption change, all told. -/

section
variable (v : VM) (p : PartId) (g : Nat)

theorem VM.growTable_eq (va level : Nat) : ∃ t n, v.growTable p va level = { v with mem := { v.mem with tables := t }, free := n } := by
  unfold VM.growTable
  split
  · exact ⟨_, _, rfl⟩
  · exact ⟨_, _, rfl⟩
/-- Writing a leaf entry writes that entry, and the tables above it. -/
theorem VM.setLeaf_eq (l : Leaf) : ∃ t n, v.setLeaf p g l = { v with mem := { v.mem with pages := modVec v.mem.pages p (alSet g l), tables := t }, free := n } := by
  obtain ⟨_, _, h0⟩ := v.growTable_eq p (g * 2 ^ 21) 0
  obtain ⟨_, _, h1⟩ := (v.growTable p (g * 2 ^ 21) 0).growTable_eq p (g * 2 ^ 21) 1
  obtain ⟨t, n, h2⟩ := ((v.growTable p (g * 2 ^ 21) 0).growTable p (g * 2 ^ 21) 1).growTable_eq p (g * 2 ^ 21) 2
  refine ⟨t, n, ?_⟩
  simp only [VM.setLeaf, List.foldl_cons, List.foldl_nil, h2]
  rw [h1, h0]
theorem VM.enterMissed_eq : ∃ r k c, v.enterMissed p g = { v with mem := { v.mem with regions := r, rekeyClock := k, counters := c } } := by
  unfold VM.enterMissed
  dsimp only
  repeat' split
  all_goals exact ⟨_, _, _, rfl⟩

@[simp] theorem freeLoc_pages (loc : Loc) (m : Mem) : (freeLoc loc m).pages = m.pages := by cases loc <;> rfl
@[simp] theorem freeLoc_migrations (loc : Loc) (m : Mem) : (freeLoc loc m).migrations = m.migrations := by cases loc <;> rfl
@[simp] theorem storeAt_pages (loc : Loc) (i : Nat) (x : StoredSector) (m : Mem) : (storeAt loc i x m).pages = m.pages := by cases loc <;> rfl

/-! One step of a copy. -/

/-- A copy whose next sector has been copied. -/
def Migration.advance (p : PartId) (g : Nat) (w : Migration) : Migration := if w.part = p && w.page = g then { w with watermark := w.watermark + 1 } else w

theorem find_advance (l : List Migration) : (l.map (Migration.advance p g)).find? (fun m => m.part = p && m.page = g) =
    (l.find? (fun m => m.part = p && m.page = g)).map (Migration.advance p g) := by
  rw [List.find?_map]
  congr 2
  funext m
  simp only [Function.comp, Migration.advance]
  split <;> rfl

section
variable {v p g} {q : Migration} {l : Leaf} (hq : v.mem.migrations.find? (fun m => m.part = p && m.page = g) = some q) (hl : alGet g v.mem.pages[p] = some l)
include hq

theorem advance_found : q.advance p g = { q with watermark := q.watermark + 1 } := if_pos (List.find?_some hq)

include hl

/-- A page that is exchanged with none, copied within T1: a sector that has data is stored at the destination as it is stored at the source. -/
theorem VM.migrateOne_within {b : Nat} (hb : q.dst = .t1 b) (alone : exchangePartner v.mem q l = none) :
    v.migrateOne p g = { v with mem := { (if ctrOf v.mem (v.region p g) q.watermark = 0 then v.mem else storeAt (.t1 b) q.watermark (storedAt v.mem l.loc q.watermark) v.mem) with
      migrations := v.mem.migrations.map (Migration.advance p g) } } := by
  unfold VM.migrateOne
  simp only [hq, hl, alone, hb, VM.sendOf, ite_self, List.append_nil, Bool.or_self]
  split <;> rfl

theorem VM.copySector_within {a b : Nat} (ha : l.loc = .t1 a) (hb : q.dst = .t1 b) (rest : q.watermark < 8192) : v.copySector p g = (v.migrateOne p g).migrateEnd p g := by
  unfold VM.copySector
  simp only [hq, hl, ha, hb, VM.cutOff]
  simp [Nat.not_le.mpr rest]

theorem VM.migrateEnd_before (rest : q.watermark < 8192) : v.migrateEnd p g = v := by
  unfold VM.migrateEnd
  simp only [hq, hl, if_pos rest]

/-- After the last sector the leaf names the destination and the copy is over. -/
theorem VM.migrateEnd_after (ended : 8192 ≤ q.watermark) :
    (v.migrateEnd p g).mem.pages = modVec v.mem.pages p (alSet g { l with loc := q.dst, migrating := false }) ∧ (v.migrateEnd p g).migrating p g = false ∧ (v.migrateEnd p g).sends = v.sends := by
  have whole : ∀ u : VM, u.mem.pages = v.mem.pages → u.mem.migrations = v.mem.migrations.filter (fun m => !(m.part = p && m.page = g)) → u.sends = v.sends →
      let w := ((u.setLeaf p g { l with loc := q.dst, migrating := false }).updPart p (Part.count 0x14 1)).enterMissed p g
      w.mem.pages = modVec v.mem.pages p (alSet g { l with loc := q.dst, migrating := false }) ∧ w.migrating p g = false ∧ w.sends = v.sends := by
    intro u pages migrations sends
    obtain ⟨t, n, leaf⟩ := u.setLeaf_eq p g { l with loc := q.dst, migrating := false }
    obtain ⟨r, k, c, missed⟩ := ((u.setLeaf p g { l with loc := q.dst, migrating := false }).updPart p (Part.count 0x14 1)).enterMissed_eq p g
    dsimp only
    rw [missed, leaf]
    refine ⟨congrArg (modVec · p _) pages, ?_, sends⟩
    change u.mem.migrations.any _ = false
    rw [migrations]
    exact List.any_eq_false.mpr fun x hx gone => by simpa [gone] using (List.mem_filter.mp hx).2
  unfold VM.migrateEnd
  simp only [hq, hl, if_neg (Nat.not_lt.mpr ended)]
  exact whole _ (by split <;> simp) (by split <;> simp) rfl

end

end

/-! The copy, the last copy, and the granules. -/

section
variable {s : State} {p : PartId} {g a b : Nat} {q : Migration} {l : Leaf} (active : s.pow.mod = .active) (hq : s.mem.migrations.find? (fun m => m.part = p && m.page = g) = some q)
  (hl : alGet g s.mem.pages[p] = some l) (ha : l.loc = .t1 a) (hb : q.dst = .t1 b)
include active hq hl ha hb

theorem execMigrationSectorCopy_of (rest : q.watermark < 8192) : exec (.migrationSectorCopy p g) s = .next (s.putWrites ((s.vm.migrateOne p g).migrateEnd p g)) := by
  have copying : s.vm.migrating p g = true := List.any_eq_true.mpr ⟨q, List.mem_of_find?_eq_some hq, by simpa using List.find?_some hq⟩
  rw [← VM.copySector_within (v := s.vm) hq hl ha hb rest]
  exact need_of (by simp [copying, active])

variable (alone : exchangePartner s.mem q l = none)
include alone

theorem migrationSectorCopy_goesOn (rest : q.watermark < 8191) (written : ctrOf s.mem (s.vm.region p g) q.watermark ≠ 0) :
    ∃ t, exec (.migrationSectorCopy p g) s = .next t ∧ storedAt t.mem (.t1 b) q.watermark = storedAt s.mem (.t1 a) q.watermark ∧
      t.mem.migrations.find? (fun m => m.part = p && m.page = g) = some { q with watermark := q.watermark + 1 } ∧ t.mem.pages = s.mem.pages ∧ t.mem.ctrs = s.mem.ctrs ∧
      (∀ k, k ≠ b * 8192 + q.watermark → alGet k t.mem.t1 = alGet k s.mem.t1) ∧ OnlyTouches [.mem] s t := by
  have one := VM.migrateOne_within (v := s.vm) hq hl hb alone
  have next : (s.mem.migrations.map (Migration.advance p g)).find? (fun m => m.part = p && m.page = g) = some { q with watermark := q.watermark + 1 } := by
    rw [find_advance, hq, Option.map_some, advance_found (v := s.vm) hq]
  rw [if_neg (c := ctrOf s.vm.mem (s.vm.region p g) q.watermark = 0) written, ha] at one
  have run := execMigrationSectorCopy_of active hq hl ha hb (by omega)
  rw [one, VM.migrateEnd_before next hl (Nat.succ_lt_succ rest)] at run
  exact ⟨_, run, by simp [State.putWrites, State.putVM, State.vm, storedAt, storeAt], next, rfl, rfl, fun k other => alGet_alSet_other _ _ _ _ other, rfl⟩

theorem migrationSectorCopy_ends (last : q.watermark = 8191) :
    ∃ t, exec (.migrationSectorCopy p g) s = .next t ∧ alGet g t.mem.pages[p] = some { l with loc := .t1 b, migrating := false } ∧ t.vm.migrating p g = false ∧
      (∀ h, h ≠ g → alGet h t.mem.pages[p] = alGet h s.mem.pages[p]) := by
  have one := VM.migrateOne_within (v := s.vm) hq hl hb alone
  have next : (s.vm.migrateOne p g).mem.migrations.find? (fun m => m.part = p && m.page = g) = some { q with watermark := q.watermark + 1 } := by
    rw [one]
    exact (find_advance p g s.mem.migrations).trans (by rw [hq, Option.map_some, advance_found (v := s.vm) hq])
  have pages : (s.vm.migrateOne p g).mem.pages = s.mem.pages := by
    rw [one]
    dsimp only
    split <;> rfl
  have sends : (s.vm.migrateOne p g).sends = [] := by
    rw [one]
    rfl
  obtain ⟨moved, idle, sent⟩ := VM.migrateEnd_after next (by rw [pages]; exact hl) (by simp [last])
  have still : (s.putWrites ((s.vm.migrateOne p g).migrateEnd p g)) = s.putVM ((s.vm.migrateOne p g).migrateEnd p g) := by rw [State.putWrites, sent, sends]; rfl
  have leaf : (s.putVM ((s.vm.migrateOne p g).migrateEnd p g)).mem.pages = modVec s.mem.pages p (alSet g { l with loc := .t1 b, migrating := false }) := moved.trans (by rw [pages, hb])
  refine ⟨_, execMigrationSectorCopy_of active hq hl ha hb (by omega), ?_⟩
  rw [still]
  exact ⟨by rw [leaf, modVec_self, alGet_alSet_self], idle, fun h other => by rw [leaf, modVec_self, alGet_alSet_other _ _ _ _ other]⟩

end

/-- Settles O31: one step of a copy is `migrateOne_within`, its last step ends with `migrateEnd_after`; a granule that has been moved leaves the queue. -/
theorem movementKeepsTheBytes : Obligations.MovementKeepsTheBytes := fun _ _ =>
  ⟨fun _ _ _ _ _ active hq hl ha hb alone rest written => migrationSectorCopy_goesOn active hq hl ha hb alone rest written,
    fun _ _ _ _ _ active hq hl ha hb alone last => migrationSectorCopy_ends active hq hl ha hb alone last,
    fun _ waits => need_of (List.contains_iff_mem.mpr waits)⟩

end Sys2Proof.Machine
end

section
/-!
A mapping request of R246: how its object's value for the session, its answer and its work fit together.
-/

namespace Sys2Proof.Machine

/-! The per-session values of a request that has a session (R556). -/

section
variable {s : State} {q : Req} {p : PartId}

/-- A change of a session's values leaves who it is. -/
theorem findSess_updPer {x : DSess} (f : PerSession → PerSession) (h : findSess s q = some x) : findSess (updPer q f s) q = some { x with vals := f x.vals } := by
  have who := List.find?_some h
  unfold updPer updSess
  rw [h]
  unfold findSess at h ⊢
  dsimp only
  rw [List.find?_map]
  have same : ((fun y : DSess => decide (y.sid = q.sid) && (decide (q.sid ≠ 0) || decide (y.src = q.src))) ∘
      fun y => if decide (y.sid = q.sid) && (decide (q.sid ≠ 0) || decide (y.src = q.src)) then { y with vals := f y.vals } else y) =
      fun y => decide (y.sid = q.sid) && (decide (q.sid ≠ 0) || decide (y.src = q.src)) := by
    funext y
    simp only [Function.comp]
    split <;> rfl
  rw [same, h, Option.map_some, if_pos who]
theorem perPart_updPerPart (f : PerPart → PerPart) (h : (findSess s q).isSome) : perPart (updPerPart q p f s) q p = f (perPart s q p) := by
  obtain ⟨x, hx⟩ := Option.isSome_iff_exists.mp h
  simp only [perPart, perOf, updPerPart, findSess_updPer _ hx, hx, Option.map_some, Option.getD_some, alGet_alSet_self]
theorem perPart_congr {t : State} (h : t.dict.sessions = s.dict.sessions) : perPart t q p = perPart s q p := by simp only [perPart, perOf, findSess, h]

theorem answer_sessions {r : State × Status} : (answer q r).dict.sessions = r.1.dict.sessions := (apply_ite Dict.sessions _ _ _).trans (ite_self _)

/-- Who may map pages of a partition has a session. -/
theorem findSess_of_opOrTenant (may : opOrTenant s q p) : (findSess s q).isSome := by
  cases h : findSess s q with
  | some x => rfl
  | none =>
    have meter : roleOf s q = .meter := by simp [roleOf, h]
    simp [opOrTenant, isOperator, isTenant, meter] at may

end

/-! A request that is let through. -/

section
variable {s : State} {q : Req} {p : PartId}

/-- The state after a mapping request whose work left `v` and the status `st`. -/
def mapped (q : Req) (p : PartId) (s : State) (v : VM) (st : Status) : State :=
  answer q (updPerPart q p (fun x => { x with mapStatus := BitVec.ofNat 8 st.code }) (s.putVM v), st)

/-- The work of the four mapping requests, by OP code. -/
def mapWork (code : Nat) (q : Req) (p : PartId) (s : State) : VM × Status :=
  match code with
  | 1 => s.vm.doMap (privBytes s) p (perPart s q p).mapVa (perPart s q p).mapPages.toNat (perPart s q p).mapAttr.toNat
  | 2 => s.vm.doRelease p (perPart s q p).mapVa (perPart s q p).mapPages.toNat false
  | 3 => s.vm.doSetAttr p (perPart s q p).mapVa (perPart s q p).mapPages.toNat (perPart s q p).mapAttr.toNat
  | 4 => s.vm.doRelease p (perPart s q p).mapVa (perPart s q p).mapPages.toNat true
  | _ => (s.vm, .denied)

theorem opMapOp_of {code : Nat} {v : VM} {st : Status} (hr : reachable s) (sv : served s (0x5040 + p.val)) (may : opOrTenant s q p) (h : mapWork code q p s = (v, st)) :
    software s (answer q (opMapOp code q p s)) = .next (mapped q p s v st) := by
  have work : opMapOp code q p s = setMapStatus q p (s.putVM (mapWork code q p s).1, (mapWork code q p s).2) := guarded_of sv may
  rw [software_of hr, work, h]
  rfl

end

section
variable {s : State} {q : Req} {p : PartId} {v : VM} {st : Status}

@[simp] theorem mapped_mem : (mapped q p s v st).mem = v.mem := rfl
@[simp] theorem mapped_parts : (mapped q p s v st).parts = v.parts := rfl
theorem mapped_responds (out : v.out = s.out) : Responds q st [] s (mapped q p s v st) := congrArg (· ++ _) out
/-- MAP_STATUS is the status of the request. -/
theorem mapped_status (may : opOrTenant s q p) (dict : v.dict = s.dict) : (perPart (mapped q p s v st) q p).mapStatus = BitVec.ofNat 8 st.code := by
  have sessions : (findSess (s.putVM v) q).isSome := by
    unfold findSess
    rw [show (s.putVM v).dict = s.dict from dict]
    exact findSess_of_opOrTenant may
  have answered : (mapped q p s v st).dict.sessions = (updPerPart q p (fun x => { x with mapStatus := BitVec.ofNat 8 st.code }) (s.putVM v)).dict.sessions := answer_sessions
  rw [perPart_congr answered, perPart_updPerPart _ sessions]

end

end Sys2Proof.Machine
end

section
/-!
Settles O27: releases are noted for step 4, SET_ATTR stands at once, and a request that names a page wrongly is denied whole (R246).
-/

namespace Sys2Proof.Machine

/-! What the requests' work gives. -/

section
variable {v : VM} {p : PartId} {va : BitVec 64} {n : Nat} {l : List Nat}

/-- The form of R246 that an address and a length must have. -/
theorem mapPages_misformed (bad : va.toNat % 2 ^ 21 ≠ 0 ∨ n = 0 ∨ 2 ^ 56 < va.toNat + n * 2 ^ 21) : mapPages va n = none := if_neg (by omega)

theorem doMap_misformed {priv attr : Nat} (h : mapPages va n = none) : v.doMap priv p va n attr = (v, .denied) := by simp [VM.doMap, h]
theorem doSetAttr_misformed {attr : Nat} (h : mapPages va n = none) : v.doSetAttr p va n attr = (v, .denied) := by simp [VM.doSetAttr, h]
theorem doRelease_misformed {discard : Bool} (h : mapPages va n = none) : v.doRelease p va n discard = (v, .denied) := by simp [VM.doRelease, h]

section
variable {g : Nat} (hl : mapPages va n = some l) (hg : g ∈ l) (hole : alGet g v.mem.pages[p] = none)
include hl hg hole

theorem doSetAttr_unmapped {attr : Nat} : v.doSetAttr p va n attr = (v, .denied) := by
  unfold VM.doSetAttr
  simp only [hl]
  exact if_pos (.inr (.inr (.inr (.inr (List.any_eq_true.mpr ⟨g, hg, by rw [hole]⟩)))))
theorem doRelease_unmapped {discard : Bool} : v.doRelease p va n discard = (v, .denied) := by
  unfold VM.doRelease
  simp only [hl]
  exact if_pos (.inr (List.any_eq_true.mpr ⟨g, hg, by rw [hole]⟩))

end

variable (active : v.parts[p].state = .active) (hl : mapPages va n = some l)
include active hl

/-- A release of mapped pages is noted; DISCARD is for STASH pages. -/
theorem doRelease_of {discard : Bool} (fit : ∀ g ∈ l, ∃ x, alGet g v.mem.pages[p] = some x ∧ (discard → x.stash)) :
    v.doRelease p va n discard = (v.updPart p (fun x => { x with releases := x.releases ++ l.map (fun g => (g, discard)) }), .done) := by
  unfold VM.doRelease
  simp only [hl]
  refine if_neg fun refused => ?_
  rcases refused with idle | some'
  · exact idle active
  · obtain ⟨g, hg, refused⟩ := List.any_eq_true.mp some'
    obtain ⟨x, hx, stash⟩ := fit g hg
    rw [hx] at refused
    cases discard with
    | false => cases refused
    | true => simp [stash rfl] at refused

/-- SET_ATTR as it changes one leaf entry. -/
def Leaf.setAttr (a : Nat) (x : Leaf) : Leaf := if x.stash then x else { x with pin := attrPin a, param := attrParam a }

theorem doSetAttr_of {a : Nat} (small : a < 24) (keyed : paramBarred v.parts[p] v.keys p (attrParam a) = false) (fit : ∀ g ∈ l, ∃ x, alGet g v.mem.pages[p] = some x ∧ x.stash = false) :
    v.doSetAttr p va n a = ({ v with mem := { v.mem with pages := modVec v.mem.pages p (fun m => l.foldl (fun m g => alMod g (Leaf.setAttr a) m) m) } }, .done) := by
  unfold VM.doSetAttr
  simp only [hl]
  refine if_neg fun refused => ?_
  rcases refused with idle | wide | place | barred | some'
  · exact idle active
  · omega
  · unfold attrPlace at place
    omega
  · rw [keyed] at barred
    cases barred
  · obtain ⟨g, hg, refused⟩ := List.any_eq_true.mp some'
    obtain ⟨x, hx, plain⟩ := fit g hg
    rw [hx] at refused
    simp [plain] at refused

end

/-- A change that is made once is made for good, whatever list of keys repeats it. -/
theorem alGet_foldl_alMod {α : Type} {f : α → α} (idem : ∀ x, f (f x) = f x) (ks : List Nat) (k : Nat) (l : List (Nat × α)) :
    alGet k (ks.foldl (fun l j => alMod j f l) l) = (alGet k l).map (fun x => if k ∈ ks then f x else x) := by
  induction ks generalizing l with
  | nil => simp
  | cons j ks ih =>
    rw [List.foldl_cons, ih, alGet_alMod]
    by_cases e : k = j
    · subst e
      by_cases again : k ∈ ks <;> simp [again, Function.comp_def, idem]
    · simp [e]
theorem Leaf.setAttr_setAttr (a : Nat) (x : Leaf) : (x.setAttr a).setAttr a = x.setAttr a := by
  unfold Leaf.setAttr
  cases h : x.stash <;> simp [h]

section
variable {s : State} {q : Req} {p : PartId} (hr : reachable s) (sv : served s (0x5040 + p.val)) (may : opOrTenant s q p)
include hr sv may

/-- A request that is denied changes MAP_STATUS alone. -/
theorem mapOp_denied {code : Nat} (h : mapWork code q p s = (s.vm, .denied)) :
    ∃ t, software s (answer q (opMapOp code q p s)) = .next t ∧ (perPart t q p).mapStatus = 0x60 ∧ Responds q .denied [] s t ∧ OnlyTouches [.out, .dict] s t :=
  ⟨_, opMapOp_of hr sv may h, mapped_status may rfl, mapped_responds rfl, rfl⟩

theorem misformed_denied (bad : (perPart s q p).mapVa.toNat % 2 ^ 21 ≠ 0 ∨ (perPart s q p).mapPages = 0 ∨ 2 ^ 56 < (perPart s q p).mapVa.toNat + (perPart s q p).mapPages.toNat * 2 ^ 21) :
    ∀ c ∈ [Instr.map q p, .unmap q p, .setAttr q p, .discard q p],
      ∃ t, exec c s = .next t ∧ (perPart t q p).mapStatus = 0x60 ∧ Responds q .denied [] s t ∧ OnlyTouches [.out, .dict] s t := by
  have none' : mapPages (perPart s q p).mapVa (perPart s q p).mapPages.toNat = none := mapPages_misformed (bad.imp id (.imp (fun e => by rw [e]; rfl) id))
  intro c hc
  rcases List.mem_cons.mp hc with rfl | hc
  · exact mapOp_denied hr sv may (code := 1) (doMap_misformed none')
  rcases List.mem_cons.mp hc with rfl | hc
  · exact mapOp_denied hr sv may (code := 2) (doRelease_misformed none')
  rcases List.mem_cons.mp hc with rfl | hc
  · exact mapOp_denied hr sv may (code := 3) (doSetAttr_misformed none')
  · cases List.mem_singleton.mp hc
    exact mapOp_denied hr sv may (code := 4) (doRelease_misformed none')

variable {l : List Nat} (hl : mapPages (perPart s q p).mapVa (perPart s q p).mapPages.toNat = some l)
include hl

theorem unmapped_denied {g : Nat} (hg : g ∈ l) (hole : alGet g s.mem.pages[p] = none) :
    ∀ c ∈ [Instr.unmap q p, .setAttr q p, .discard q p], ∃ t, exec c s = .next t ∧ (perPart t q p).mapStatus = 0x60 ∧ Responds q .denied [] s t ∧ OnlyTouches [.out, .dict] s t := by
  intro c hc
  rcases List.mem_cons.mp hc with rfl | hc
  · exact mapOp_denied hr sv may (code := 2) (doRelease_unmapped hl hg hole)
  rcases List.mem_cons.mp hc with rfl | hc
  · exact mapOp_denied hr sv may (code := 3) (doSetAttr_unmapped hl hg hole)
  · cases List.mem_singleton.mp hc
    exact mapOp_denied hr sv may (code := 4) (doRelease_unmapped hl hg hole)

variable (active : s.parts[p].state = .active)
include active

theorem release_noted {code : Nat} {discard : Bool} (hc : mapWork code q p s = s.vm.doRelease p (perPart s q p).mapVa (perPart s q p).mapPages.toNat discard)
    (fit : ∀ g ∈ l, ∃ x, alGet g s.mem.pages[p] = some x ∧ (discard → x.stash)) :
    ∃ t, software s (answer q (opMapOp code q p s)) = .next t ∧ t.parts[p] = { s.parts[p] with releases := s.parts[p].releases ++ l.map (fun g => (g, discard)) } ∧
      (∀ p', p' ≠ p → t.parts[p'] = s.parts[p']) ∧ Responds q .done [] s t ∧ OnlyTouches [.parts, .out, .dict] s t :=
  ⟨_, opMapOp_of hr sv may (hc.trans (doRelease_of active hl fit)), modVec_self _ _ _, fun _ other => modVec_other _ _ _ _ other, mapped_responds rfl, rfl⟩

theorem setAttr_stands {a : Nat} (ha : (perPart s q p).mapAttr.toNat = a) (small : a < 24) (keyed : paramBarred s.parts[p] s.keys p (attrParam a) = false)
    (fit : ∀ g ∈ l, ∃ x, alGet g s.mem.pages[p] = some x ∧ x.stash = false) :
    ∃ t, exec (.setAttr q p) s = .next t ∧
      (∀ g, alGet g t.mem.pages[p] = (alGet g s.mem.pages[p]).map (fun x => if g ∈ l then { x with pin := attrPin a, param := attrParam a } else x)) ∧
      (∀ p', p' ≠ p → t.mem.pages[p'] = s.mem.pages[p']) ∧ Responds q .done [] s t ∧ OnlyTouches [.mem, .out, .dict] s t := by
  subst ha
  refine ⟨_, opMapOp_of hr sv may (code := 3) (doSetAttr_of (v := s.vm) active hl small keyed fit), fun g => ?_, fun _ other => modVec_other _ _ _ _ other, mapped_responds rfl, rfl⟩
  rw [mapped_mem, modVec_self, alGet_foldl_alMod (Leaf.setAttr_setAttr _)]
  by_cases hg : g ∈ l
  · obtain ⟨x, hx, plain⟩ := fit g hg
    rw [show alGet g s.vm.mem.pages[p] = some x from hx, hx]
    simp [hg, Leaf.setAttr, plain]
  · simp [State.vm, hg]

end

/-- Settles O27: `doRelease_of` and `doSetAttr_of` for the requests that are carried out, and the first page that is named wrongly for those that are denied. -/
theorem releasesWaitAndMisformedMappingsAreDenied : Obligations.ReleasesWaitAndMisformedMappingsAreDenied := by
  refine ⟨fun s q p l hr sv may active hl => ⟨fun mapped => ?_, fun stash => ?_, fun a ha small keyed fit => setAttr_stands hr sv may hl active ha small keyed fit⟩,
    fun s q p hr sv may => ⟨misformed_denied hr sv may, fun l g hl hg hole => unmapped_denied hr sv may hl hg hole⟩⟩
  · refine release_noted hr sv may hl active (code := 2) rfl fun g hg => ?_
    obtain ⟨x, hx⟩ := Option.isSome_iff_exists.mp (mapped g hg)
    exact ⟨x, hx, nofun⟩
  · refine release_noted hr sv may hl active (code := 4) rfl fun g hg => ?_
    obtain ⟨x, hx, hs⟩ := stash g hg
    exact ⟨x, hx, fun _ => hs⟩

end Sys2Proof.Machine
end

section
/-!
Settles O26: MAP of STASH pages leaves them UNBACKED, MAP of a page in T1 takes a free frame (R246, R401).
-/

namespace Sys2Proof.Machine

/-! STASH pages. -/

section
variable {p : PartId} {priv : Nat}

/-- Pages that are mapped with attribute 1 are mapped UNBACKED, one after another. -/
theorem mapAll_stash (l : List Nat) (v : VM) : ∃ w, VM.mapAll priv p 1 l v = some w ∧ v.MemFree w ∧
    (∀ g, alGet g w.mem.pages[p] = if g ∈ l then some { loc := .unbacked, stash := true, param := false, pin := false } else alGet g v.mem.pages[p]) ∧
    ∀ p', p' ≠ p → w.mem.pages[p'] = v.mem.pages[p'] := by
  induction l generalizing v with
  | nil => exact ⟨v, rfl, .refl v, fun g => by simp, fun _ _ => rfl⟩
  | cons j l ih =>
    obtain ⟨t, n, leaf⟩ := v.setLeaf_eq p j { loc := .unbacked, stash := true, param := false, pin := false }
    obtain ⟨w, all, kept, here, others⟩ := ih (v.setLeaf p j { loc := .unbacked, stash := true, param := false, pin := false })
    refine ⟨w, all, VM.MemFree.trans ⟨_, _, leaf⟩ kept, fun g => ?_, fun p' ne => ?_⟩
    · rw [here, leaf, modVec_self]
      by_cases hg : g ∈ l
      · simp [hg]
      · by_cases e : g = j
        · subst e
          simp [hg]
        · rw [alGet_alSet_other _ _ _ _ e]
          simp [hg, e]
    · rw [others p' ne, leaf]
      exact modVec_other _ _ _ _ ne

/-- The pages of a request are those from its address on. -/
theorem mapPages_eq_some {va : BitVec 64} {n : Nat} (whole : va.toNat % 2 ^ 21 = 0) (some' : 1 ≤ n) (short : va.toNat + n * 2 ^ 21 ≤ 2 ^ 56) :
    mapPages va n = some ((List.range n).map (fun i => va.toNat / 2 ^ 21 + i)) := if_pos ⟨whole, some', short⟩
theorem mem_pageRange {b n g : Nat} : g ∈ (List.range n).map (fun i => b + i) ↔ b ≤ g ∧ g < b + n := by
  rw [List.mem_map]
  exact ⟨fun ⟨i, hi, e⟩ => by rw [List.mem_range] at hi; omega, fun h => ⟨g - b, List.mem_range.mpr (by omega), by omega⟩⟩

/-- MAP of attribute 1 or 8 (STASH, or T1) of pages that are not mapped is carried out as far as there is backing. -/
theorem doMap_of {v : VM} {va : BitVec 64} {n a : Nat} {l : List Nat} (ha : a = 1 ∨ a = 8) (hl : mapPages va n = some l) (active : v.parts[p].state = .active)
    (free : ∀ g ∈ l, alGet g v.mem.pages[p] = none) {w : VM} (all : VM.mapAll priv p a l v = some w) : v.doMap priv p va n a = (w, .done) := by
  have taken : (l.any fun g => (alGet g v.mem.pages[p]).isSome) = false := List.any_eq_false.mpr fun g hg => by rw [free g hg]; simp
  unfold VM.doMap
  simp only [hl, active, taken, all]
  refine if_neg ?_
  rcases ha with rfl | rfl <;> simp [attrPlace, attrStash, attrPin, attrParam, paramBarred]

end

/-! Taking a frame and a counter slot. -/

section
variable {v : VM} {p : PartId} {g priv : Nat}

theorem mem_stackOrder (last : Nat) {st : Nat} (h : st < 24) : st ∈ stackOrder last := by
  refine List.mem_map.mpr ⟨(st + 24 * (last + 1) - (last + 1)) % 24, List.mem_range.mpr (Nat.mod_lt _ (by decide)), ?_⟩
  omega

theorem getD_mod_mem {l : List Nat} (h : l ≠ []) (k : Nat) : l.getD (k % l.length) 0 ∈ l := by
  have room : k % l.length < l.length := Nat.mod_lt _ (List.length_pos_iff.mpr h)
  rw [List.getD_eq_getElem _ _ room]
  exact List.getElem_mem room

/-- A frame is taken from a stack that has a free one. -/
theorem takeFrame_of (room : ∃ st, st < 24 ∧ freeFrames v.mem priv st ≠ []) :
    ∃ st f, v.takeFrame priv = some ({ v with mem := { v.mem with lastStack := st }, free := v.free + 1 }, .t1 f) ∧ f ∈ freeFrames v.mem priv st := by
  obtain ⟨st, small, some'⟩ := room
  have found : (v.takeFrame priv).isSome := List.findSome?_isSome_iff.mpr ⟨st, mem_stackOrder _ small, by
    split
    · next none' => exact absurd none' some'
    · rfl⟩
  obtain ⟨r, hr⟩ := Option.isSome_iff_exists.mp found
  obtain ⟨st, _, taken⟩ := List.exists_of_findSome?_eq_some hr
  split at taken
  · cases taken
  · next some' =>
    rw [← Option.some.inj taken] at hr
    exact ⟨st, _, hr, getD_mod_mem some' _⟩

/-- A free frame is held by nothing. -/
theorem freeFrames_notHeld {m : Mem} {st f : Nat} (h : f ∈ freeFrames m priv st) : .t1 f ∉ heldLocs m := by
  obtain ⟨i, -, found⟩ := List.mem_filterMap.mp h
  dsimp only at found
  split at found
  · next c =>
    cases found
    obtain ⟨-, unheld, -⟩ := c
    simpa using unheld
  · cases found

theorem takeSlot_of (room : ∃ st, st < 24 ∧ freeSlots v.mem st ≠ []) :
    ∃ st c, v.takeSlot = some ({ v with mem := { v.mem with lastSlotStack := st, slots := c :: v.mem.slots }, free := v.free + 1 }, c) := by
  obtain ⟨st, small, some'⟩ := room
  have found : v.takeSlot.isSome := List.findSome?_isSome_iff.mpr ⟨st, mem_stackOrder _ small, by
    split
    · next none' => exact absurd none' some'
    · rfl⟩
  obtain ⟨r, hr⟩ := Option.isSome_iff_exists.mp found
  obtain ⟨st, _, taken⟩ := List.exists_of_findSome?_eq_some hr
  split at taken
  · cases taken
  · rw [← Option.some.inj taken] at hr
    exact ⟨st, _, hr⟩

/-- The region of a page that has taken backing (R401): a new generation under the current epoch, with counters in a slot of its own. -/
def Region.renewed (r : Region) (c : Nat) (epoch : BitVec 8) : Region :=
  { r with gen := r.gen + 1, peak := 0, watermark := 8192, rekeying := false, slot := c, epoch := epoch, inFlight := 0, inFlightOld := 0 }

theorem backAt_of (leaf : Leaf) (room : ∃ st, st < 24 ∧ freeSlots v.mem st ≠ []) :
    ∃ w c, v.backAt p g leaf = some w ∧ v.MemFree w ∧ w.mem.pages = modVec v.mem.pages p (alSet g leaf) ∧
      w.mem.regions = modVec v.mem.regions p (alSet g ((v.region p g).renewed c v.parts[p].epoch)) := by
  obtain ⟨st, c, slot⟩ := takeSlot_of room
  unfold VM.backAt
  rw [slot]
  dsimp only
  refine ⟨_, c, rfl, ?_⟩
  rw [(VM.setLeaf_eq _ p g leaf).choose_spec.choose_spec]
  exact ⟨⟨_, _, rfl⟩, rfl, rfl⟩

/-- A page whose partition has room in T1 takes a frame that nothing holds. -/
theorem backPage_t1 (mk : Loc → Leaf) (within' : v.parts[p].overQuota = false) (quota : t1Use v.mem p < quotaPages v.parts[p].force.t1)
    (frames : ∃ st, st < 24 ∧ freeFrames v.mem priv st ≠ []) (slots : ∃ st, st < 24 ∧ freeSlots v.mem st ≠ []) :
    ∃ w f c, v.backPage priv p g 1 mk = some w ∧ v.MemFree w ∧ .t1 f ∉ heldLocs v.mem ∧ w.mem.pages = modVec v.mem.pages p (alSet g (mk (.t1 f))) ∧
      w.mem.regions = modVec v.mem.regions p (alSet g ((v.region p g).renewed c v.parts[p].epoch)) := by
  obtain ⟨st, f, frame, isFree⟩ := takeFrame_of frames
  obtain ⟨w, c, backed, kept, pages, regions⟩ := backAt_of (v := { v with mem := { v.mem with lastStack := st }, free := v.free + 1 }) (p := p) (g := g) (mk (.t1 f)) slots
  refine ⟨w, f, c, ?_, VM.MemFree.trans ⟨_, _, rfl⟩ kept, freeFrames_notHeld isFree, pages, regions⟩
  unfold VM.backPage
  simp only [within', quota, frame, if_true]
  exact backed

/-- One page with attribute 8 is mapped where it finds backing. -/
theorem mapAll_t1 {w : VM} (page : v.backPage priv p g 1 (fun loc => { loc := loc, stash := false, param := false, pin := false }) = some w) : VM.mapAll priv p 8 [g] v = some w := by
  have attrs : attrStash 8 = false ∧ attrParam 8 = false ∧ attrPin 8 = false ∧ attrPlace 8 = 1 := by decide
  obtain ⟨stash, param, pin, place⟩ := attrs
  simp only [VM.mapAll, stash, param, pin, place, page]
  rfl

end

/-! The two requests. -/

section
variable {s : State} {q : Req} {p : PartId} (hr : reachable s) (sv : served s (0x5040 + p.val)) (may : opOrTenant s q p) (active : s.parts[p].state = .active)
include hr sv may active

theorem map_stash {n : Nat} (ha : (perPart s q p).mapAttr = 1) (hn : (perPart s q p).mapPages.toNat = n) (some' : 1 ≤ n) (whole : (perPart s q p).mapVa.toNat % 2 ^ 21 = 0)
    (short : (perPart s q p).mapVa.toNat + n * 2 ^ 21 ≤ 2 ^ 56)
    (free : ∀ g, (perPart s q p).mapVa.toNat / 2 ^ 21 ≤ g → g < (perPart s q p).mapVa.toNat / 2 ^ 21 + n → alGet g s.mem.pages[p] = none) :
    ∃ t, exec (.map q p) s = .next t ∧
      (∀ g, alGet g t.mem.pages[p] = if (perPart s q p).mapVa.toNat / 2 ^ 21 ≤ g ∧ g < (perPart s q p).mapVa.toNat / 2 ^ 21 + n then
        some { loc := .unbacked, stash := true, param := false, pin := false } else alGet g s.mem.pages[p]) ∧
      (∀ p', p' ≠ p → t.mem.pages[p'] = s.mem.pages[p']) ∧ (perPart t q p).mapStatus = 0 ∧ Responds q .done [] s t ∧ OnlyTouches [.mem, .free, .out, .dict] s t := by
  subst hn
  obtain ⟨w, all, ⟨m, k, rfl⟩, here, others⟩ := mapAll_stash (priv := privBytes s) (p := p)
    ((List.range (perPart s q p).mapPages.toNat).map (fun i => (perPart s q p).mapVa.toNat / 2 ^ 21 + i)) s.vm
  have done' := doMap_of (v := s.vm) (.inl rfl) (mapPages_eq_some whole some' short) active (fun g hg => free g (mem_pageRange.mp hg).1 (mem_pageRange.mp hg).2) all
  have work : mapWork 1 q p s = _ := (by simp only [mapWork, ha]; exact done')
  exact ⟨_, opMapOp_of hr sv may (code := 1) work, fun g => (here g).trans (by simp only [mem_pageRange]; rfl), others, mapped_status may rfl, mapped_responds rfl, rfl⟩

theorem map_t1 {g : Nat} (small : g < 2 ^ 35) (within' : s.parts[p].overQuota = false) (ha : (perPart s q p).mapAttr = 8) (hn : (perPart s q p).mapPages = 1)
    (hva : (perPart s q p).mapVa.toNat = g * 2 ^ 21) (free : alGet g s.mem.pages[p] = none) (quota : t1Use s.mem p < quotaPages s.parts[p].force.t1)
    (frames : ∃ st, st < 24 ∧ freeFrames s.mem (privBytes s) st ≠ []) (slots : ∃ st, st < 24 ∧ freeSlots s.mem st ≠ []) :
    ∃ t f, exec (.map q p) s = .next t ∧ alGet g t.mem.pages[p] = some { loc := .t1 f, stash := false, param := false, pin := false } ∧ .t1 f ∉ heldLocs s.mem ∧
      (t.vm.region p g).gen = (s.vm.region p g).gen + 1 ∧ (t.vm.region p g).watermark = 8192 ∧ (t.vm.region p g).rekeying = false ∧ (t.vm.region p g).epoch = s.parts[p].epoch ∧
      (∀ h, h ≠ g → alGet h t.mem.pages[p] = alGet h s.mem.pages[p]) ∧ (∀ p', p' ≠ p → t.mem.pages[p'] = s.mem.pages[p']) ∧ Responds q .done [] s t ∧
      OnlyTouches [.mem, .free, .out, .dict] s t := by
  obtain ⟨w, f, c, page, ⟨m, k, rfl⟩, unheld, pages, regions⟩ := backPage_t1 (v := s.vm) (g := g) (fun loc => { loc := loc, stash := false, param := false, pin := false }) within' quota frames slots
  have one : mapPages (perPart s q p).mapVa 1 = some [g] := by
    rw [mapPages_eq_some (by omega) (by omega) (by omega), hva]
    simp
  have done' := doMap_of (v := s.vm) (.inr rfl) one active (fun h hh => by rw [List.mem_singleton.mp hh]; exact free) (mapAll_t1 page)
  have work : mapWork 1 q p s = _ := (by simp only [mapWork, ha, hn]; exact done')
  have region : ∀ t : State, t.mem = m → t.vm.region p g = (s.vm.region p g).renewed c s.parts[p].epoch := fun t ht => by
    rw [VM.region, show t.vm.mem.regions = _ from ht ▸ regions, modVec_self, alGet_alSet_self]
    rfl
  refine ⟨_, f, opMapOp_of hr sv may (code := 1) work, ?_, unheld, ?_, ?_, ?_, ?_, fun h ne => ?_, fun p' ne => ?_, mapped_responds rfl, rfl⟩
  · rw [mapped_mem, pages, modVec_self, alGet_alSet_self]
  · rw [region _ rfl]; rfl
  · rw [region _ rfl]; rfl
  · rw [region _ rfl]; rfl
  · rw [region _ rfl]; rfl
  · rw [mapped_mem, pages, modVec_self]
    exact alGet_alSet_other _ _ _ _ ne
  · rw [mapped_mem, pages]
    exact modVec_other _ _ _ _ ne

end

/-- Settles O26: every page of a STASH request gets its leaf entry alone (`mapAll_stash`); a page in T1 gets a free frame (`takeFrame_of`) and a renewed region (`backAt_of`). -/
theorem mapsTakeFramesOrStayUnbacked : Obligations.MapsTakeFramesOrStayUnbacked :=
  ⟨fun _ _ _ _ hr sv may active ha hn some' whole short free => map_stash hr sv may active ha hn some' whole short free,
    fun _ _ _ _ small hr sv may active within' ha hn hva free quota frames slots => map_t1 hr sv may active small within' ha hn hva free quota frames slots⟩

end Sys2Proof.Machine
end

section
/-!
Settles O39: a home serves its lent range. First what a packet does that arrives in order, and what a packet that is sent leaves of the flows.
-/

namespace Sys2Proof.Machine

/-! The way out: straits and queues change, flows do not. -/

section
variable (s : State)

@[simp] theorem pump_flows (k : StraitId) (n : Nat) : (pump k n s).fab.flows = s.fab.flows := by
  induction n generalizing s with
  | zero => rfl
  | succ n ih =>
    unfold pump
    split
    · rfl
    · split
      · rfl
      · exact ih _
@[simp] theorem sendOn_flows (k : StraitId) (w : Waiting) : (sendOn k w s).fab.flows = s.fab.flows := by
  unfold sendOn drainQueue
  split
  · exact pump_flows _ _ _
  · rfl
@[simp] theorem routePkt_flows (o : OutPkt) (again : Bool) (x : Flow) : (routePkt o again x s).fab.flows = s.fab.flows := by
  unfold routePkt
  split
  · rfl
  · split
    · exact sendOn_flows _ _ _
    · split <;> rfl
/-- An acknowledgement is the last output; no flow changes. -/
theorem sendAck_eq (f psn : Nat) : ∃ fab, fab.flows = s.fab.flows ∧ sendAck f psn s = { s with fab := fab, out := s.out ++ [.ack f psn] } := by
  unfold sendAck
  dsimp only
  split
  · split
    · next k _ => exact ⟨(sendFlit k _ 1 none s).fab, rfl, rfl⟩
    · exact ⟨_, rfl, rfl⟩
  · exact ⟨_, rfl, rfl⟩

end

/-! What a flow that has taken a packet keeps (R285, R288). -/

section
variable (x : Flow) (p : Pkt) (frame : Nat)

@[simp] theorem Flow.takeAck_rxPsn : (x.takeAck p).rxPsn = x.rxPsn := by unfold Flow.takeAck; split <;> rfl
theorem Flow.took_kept : (x.took p frame).rxPsn = x.rxPsn + 1 ∧ (x.took p frame).txPsn = x.txPsn ∧ (x.took p frame).state = x.state := by
  have acked : (x.takeAck p).txPsn = x.txPsn ∧ (x.takeAck p).state = x.state := by unfold Flow.takeAck; split <;> exact ⟨rfl, rfl⟩
  unfold Flow.took Flow.dropOld
  dsimp only
  split <;> exact ⟨rfl, acked⟩

end

/-! A packet that arrives in order. -/

section
variable {s : State} {p : Pkt} {cls op len : Nat} {x : Flow}

theorem afterTaking_only : OnlyTouches [.out, .fab] s (afterTaking p cls op len x s) :=
  flushHost_only (setFlow_only (returnSlots_only (.refl _ _) (by decide)) (by decide)) (by decide) (by decide)
@[simp] theorem afterTaking_mem : (afterTaking p cls op len x s).mem = s.mem := afterTaking_only.mem_eq (by decide)
@[simp] theorem afterTaking_pow : (afterTaking p cls op len x s).pow = s.pow := afterTaking_only.pow_eq (by decide)
@[simp] theorem afterTaking_keys : (afterTaking p cls op len x s).keys = s.keys := rfl
@[simp] theorem afterTaking_idInForce : (afterTaking p cls op len x s).fab.idInForce = s.fab.idInForce := rfl
theorem getFlow_afterTaking : getFlow (afterTaking p cls op len x s) p.flow = some (x.took p (frameNow s)) := alGet_alSet_self _ _ _
theorem getFlow_afterTaking_other {f : Nat} (ne : f ≠ p.flow) : getFlow (afterTaking p cls op len x s) f = getFlow s f := alGet_alSet_other _ _ _ _ ne

variable (h : Arrives s p cls x)
include h

/-- A packet in order is taken, has its effect and is acknowledged. -/
theorem recvPkt_takes (eff : State → State) : recvPkt p cls op len true eff s = sendAck p.flow p.psn (eff (afterTaking p cls op len x s)) := by
  obtain ⟨-, -, mine, flow, opened, plain, known, allowed, tag, keyed, next⟩ := h
  have here : forMe (returnSlots p.strait (vcOf cls op) (slotsOf len) s) p = true := mine
  have flow' : getFlow (returnSlots p.strait (vcOf cls op) (slotsOf len) s) p.flow = some x := flow
  unfold recvPkt deliverPkt
  simp only [here, flow', opened, plain, known, tag, keyed, next, Flow.takeAck_rxPsn, if_true]
  simp only [List.contains_iff_mem.mpr allowed]
  rfl

theorem onStrait_takes (eff : State → State) : onStrait p s (recvPkt p cls op len true eff s) = .next (sendAck p.flow p.psn (eff (afterTaking p cls op len x s))) := by
  rw [recvPkt_takes h]
  exact need_of (Bool.and_eq_true_iff.mpr ⟨h.hub, decide_eq_true h.up⟩)

end

/-! The answer that a home sends on the flow. -/

/-- A flow that has sent a packet: the next PSN follows, and the packet waits for its acknowledgement (R285). -/
def Flow.withSent (o : OutPkt) (now : Nat) (x : Flow) : Flow := { x with txPsn := x.txPsn + 1, unacked := x.unacked ++ [o], used := now }

section
variable {u : State} {f : Nat} {z : Flow}

theorem sendPkt_flows (flow : getFlow u f = some z) (opened : z.state = .opened) (able : u.fab.idInForce ≠ 0xFFFF ∨ f < 18) (cls op csf : Nat) (payload : Bytes) :
    (sendPkt f cls op csf payload u).fab.flows = alSet f (z.withSent (mkPkt u f z 16 cls op csf payload) (frameNow u)) u.fab.flows := by
  unfold sendPkt sendPktHops
  rw [flow]
  dsimp only
  rw [if_pos ⟨opened, able⟩, routePkt_flows]
  rfl

end

section
variable {s : State} {p : Pkt} {cls op len : Nat} {x : Flow} (h : Arrives s p cls x)
include h

/-- After a packet was taken and answered: the flow has moved on by one each way, the answer waits on it, the acknowledgement went out last, and no other flow changed. -/
theorem takenAndAnswered {eff : State → State} {u : State} {rcls rop csf : Nat} {payload : Bytes} (does : eff (afterTaking p cls op len x s) = sendPkt p.flow rcls rop csf payload u)
    (fab : u.fab = (afterTaking p cls op len x s).fab) (keys : u.keys = s.keys) :
    ∃ t y, onStrait p s (recvPkt p cls op len true eff s) = .next t ∧ getFlow t p.flow = some y ∧ y.rxPsn = x.rxPsn + 1 ∧ y.txPsn = x.txPsn + 1 ∧
      y.unacked = (x.took p (frameNow s)).unacked ++ [mkPkt s p.flow (x.took p (frameNow s)) 16 rcls rop csf payload] ∧ t.out.getLast? = some (.ack p.flow p.psn) ∧
      (∀ f, f ≠ p.flow → getFlow t f = getFlow s f) ∧ t.mem = u.mem ∧ ∀ gs, OnlyTouches gs s u → Group.out ∈ gs → Group.fab ∈ gs → OnlyTouches gs s t := by
  obtain ⟨rx, tx, state⟩ := x.took_kept p (frameNow s)
  have flow : getFlow u p.flow = some (x.took p (frameNow s)) := by
    unfold getFlow
    rw [fab]
    exact getFlow_afterTaking
  have able : u.fab.idInForce ≠ 0xFFFF ∨ p.flow < 18 := by
    have mine := h.mine
    rw [fab, afterTaking_idInForce]
    unfold forMe at mine
    simp only [Bool.or_eq_true, Bool.and_eq_true, decide_eq_true_eq] at mine
    exact mine.symm.imp And.left id
  have sent := sendPkt_flows flow (state.trans h.opened) able rcls rop csf payload
  have packet : mkPkt u p.flow (x.took p (frameNow s)) 16 rcls rop csf payload = mkPkt s p.flow (x.took p (frameNow s)) 16 rcls rop csf payload := by
    simp only [mkPkt, slotKey, keys, fab, afterTaking_idInForce]
  obtain ⟨fab', flows, ack⟩ := sendAck_eq (sendPkt p.flow rcls rop csf payload u) p.flow p.psn
  have run := onStrait_takes (op := op) (len := len) h eff
  rw [does] at run
  refine ⟨_, (x.took p (frameNow s)).withSent (mkPkt u p.flow (x.took p (frameNow s)) 16 rcls rop csf payload) (frameNow u), run, ?_, rx, congrArg (· + 1) tx, congrArg (fun o => _ ++ [o]) packet, ?_, fun f ne => ?_, ?_, fun gs only out fabs => sendAck_only (sendPkt_only only out fabs) out fabs⟩
  · rw [ack, getFlow]
    dsimp only
    rw [flows, sent, alGet_alSet_self]
  · rw [ack]
    exact List.getLast?_concat
  · rw [ack, getFlow]
    dsimp only
    rw [flows, sent, alGet_alSet_other _ _ _ _ ne, fab]
    exact getFlow_afterTaking_other ne
  · rw [ack]
    exact sendPkt_mem u

end

/-! The lent range. -/

theorem alGet_lentStore_outside (data : List StoredSector) (b k : Nat) (m : Mem) (outside : k < b ∨ b + data.length ≤ k) : alGet k (lentStore b data m).lent = alGet k m.lent := by
  induction data generalizing b m with
  | nil => rfl
  | cons x data ih =>
    simp only [List.length_cons] at outside
    rw [lentStore, ih (b + 1) _ (by omega)]
    exact alGet_alSet_other _ _ _ _ (by omega)
theorem alGet_lentStore_inside (data : List StoredSector) (b i : Nat) (m : Mem) (inside : i < data.length) : alGet (b + i) (lentStore b data m).lent = data[i]? := by
  induction data generalizing b i m with
  | nil => exact absurd inside (Nat.not_lt_zero _)
  | cons x data ih =>
    cases i with
    | zero =>
      rw [lentStore, alGet_lentStore_outside _ _ _ _ (by omega)]
      exact alGet_alSet_self _ _ _
    | succ i =>
      rw [lentStore, show b + (i + 1) = b + 1 + i by omega, ih (b + 1) i _ (by simpa using inside)]
      rfl

/-- A CAS stores the new sector where the tag is the expected one. -/
def casStored (i : Nat) (expected : BitVec 64) (new : StoredSector) (u : State) : State := if (lentAt u.mem i).tag = expected then { u with mem := lentStore i [new] u.mem } else u

theorem casStored_eq {i : Nat} {expected : BitVec 64} {new : StoredSector} {u : State} :
    casStored i expected new u = { u with mem := if (lentAt u.mem i).tag = expected then lentStore i [new] u.mem else u.mem } := by
  unfold casStored
  split <;> rfl

section
variable {s : State} {p : Pkt} {g : GAddr} {tag : Byte} {x : Flow} (awake : s.pow.mod ≠ .doze) (ok : gaddrOk g) (whole : g.off.toNat % 256 = 0)
include awake

/-- A home answers a read of its lent range with the sectors as they are stored, or with the error that the line has. -/
theorem serveTarget_lent {u : State} {n : Nat} {bad : Bool} (pow : u.pow = s.pow) (mem : u.mem = s.mem) (id : u.fab.idInForce = s.fab.idInForce) (holds : lentHolds s g n) :
    serveTarget p (.global g) n tag bad u = if bad then sendPkt p.flow 1 2 (respCsf .uncorrectable tag) [] u
      else sendPkt p.flow 1 1 (respCsf .done tag) (sectorsBytes ((List.range n).map (fun i => lentAt s.mem (g.off.toNat / 256 + i)))) u := by
  have here : lentHolds u g n := by simpa only [lentHolds, mem, id] using holds
  unfold serveTarget serveRead
  rw [pow, if_neg awake]
  simp only [here, mem, if_true]
  rfl

/-- A write of the lent range stores its sectors. -/
theorem takeWrite_lent {u : State} {data : List StoredSector} (pow : u.pow = s.pow) (space : g.space = 1) :
    takeWrite p (.global g) tag data u = { u with mem := lentStore (g.off.toNat / 256) data u.mem } := by
  unfold takeWrite
  rw [pow, if_neg awake]
  exact if_pos space

theorem casSector_lent {u : State} {expected : BitVec 64} {new : StoredSector} (pow : u.pow = s.pow) :
    casSector p g tag expected new u =
      sendPkt p.flow 3 1 (respCsf .done tag) (sectorsBytes [lentAt u.mem (g.off.toNat / 256)]) (casStored (g.off.toNat / 256) expected new u) := by
  unfold casSector
  exact if_neg (by rw [pow]; exact awake)

include ok whole

theorem memrd_lent {n : Nat} (h : Arrives s p 1 x) (some' : 1 ≤ n) (few : n ≤ 4) (holds : lentHolds s g n) (bad : Bool) :
    ∃ t y, exec (.memrdRequest p (.global g) ⟨n, bad⟩ tag) s = .next t ∧ getFlow t p.flow = some y ∧ y.rxPsn = x.rxPsn + 1 ∧ y.txPsn = x.txPsn + 1 ∧
      y.unacked = (x.took p (frameNow s)).unacked ++ [if bad then mkPkt s p.flow (x.took p (frameNow s)) 16 1 2 (respCsf .uncorrectable tag) []
        else mkPkt s p.flow (x.took p (frameNow s)) 16 1 1 (respCsf .done tag) (sectorsBytes ((List.range n).map (fun i => lentAt s.mem (g.off.toNat / 256 + i))))] ∧
      t.out.getLast? = some (.ack p.flow p.psn) ∧ (∀ f, f ≠ p.flow → getFlow t f = getFlow s f) ∧ OnlyTouches [.out, .fab] s t := by
  have form : targetOk s p.flow (.global g) n = true := by simp [targetOk, some', few, ok, whole]
  have served' := serveTarget_lent (p := p) (tag := tag) (bad := bad) (u := afterTaking p 1 0 0 x s) awake afterTaking_pow afterTaking_mem rfl holds
  have run : exec (.memrdRequest p (.global g) ⟨n, bad⟩ tag) s = onStrait p s (recvPkt p 1 0 0 true (serveTarget p (.global g) n tag bad) s) := by
    rw [← form]
    rfl
  rw [run]
  cases bad <;>
  · obtain ⟨t, y, did, flow, rx, tx, waits, acked, others, -, only⟩ := takenAndAnswered h served' rfl rfl
    exact ⟨t, y, did, flow, rx, tx, waits, acked, others, only _ afterTaking_only (by decide) (by decide)⟩

theorem memwr_lent {data : List StoredSector} (h : Arrives s p 2 x) (some' : 1 ≤ data.length) (few : data.length ≤ 4) (holds : lentHolds s g data.length) :
    ∃ t, exec (.memwr p (.global g) tag data) s = .next t ∧ (∀ i < data.length, alGet (g.off.toNat / 256 + i) t.mem.lent = data[i]?) ∧
      (∀ k, k < g.off.toNat / 256 ∨ g.off.toNat / 256 + data.length ≤ k → alGet k t.mem.lent = alGet k s.mem.lent) ∧ getFlow t p.flow = some (x.took p (frameNow s)) ∧
      t.out = (afterTaking p 2 0 (sectorsLen data.length) x s).out ++ [.ack p.flow p.psn] ∧ OnlyTouches [.out, .mem, .fab] s t := by
  have form : writeOk s p.flow (.global g) data.length = true := by simp [writeOk, targetOk, some', few, ok, whole, holds]
  have space : g.space = 1 := by
    unfold lentHolds at holds
    simp only [Bool.and_eq_true, decide_eq_true_eq] at holds
    exact holds.1.2
  have run : exec (.memwr p (.global g) tag data) s = onStrait p s (recvPkt p 2 0 (sectorsLen data.length) true (takeWrite p (.global g) tag data) s) := by
    rw [← form]
    rfl
  rw [onStrait_takes h, takeWrite_lent awake afterTaking_pow space] at run
  obtain ⟨fab, flows, ack⟩ := sendAck_eq { afterTaking p 2 0 (sectorsLen data.length) x s with mem := lentStore (g.off.toNat / 256) data (afterTaking p 2 0 (sectorsLen data.length) x s).mem } p.flow p.psn
  rw [ack] at run
  refine ⟨_, run, fun i inside => alGet_lentStore_inside _ _ _ _ inside, fun k outside => ?_, ?_, rfl, ?_⟩
  · rw [← afterTaking_mem (s := s) (p := p) (cls := 2) (op := 0) (len := sectorsLen data.length) (x := x)]
    exact alGet_lentStore_outside _ _ _ _ outside
  · unfold getFlow
    rw [flows]
    exact getFlow_afterTaking
  · exact rfl

theorem cas_lent {expected : BitVec 64} {new : StoredSector} (h : Arrives s p 3 x) (holds : lentHolds s g 1) :
    ∃ t y, exec (.atomicSectorCas p g tag expected new) s = .next t ∧
      lentAt t.mem (g.off.toNat / 256) = (if (lentAt s.mem (g.off.toNat / 256)).tag = expected then new else lentAt s.mem (g.off.toNat / 256)) ∧
      (∀ k, k ≠ g.off.toNat / 256 → alGet k t.mem.lent = alGet k s.mem.lent) ∧ getFlow t p.flow = some y ∧ y.rxPsn = x.rxPsn + 1 ∧
      y.unacked = (x.took p (frameNow s)).unacked ++ [mkPkt s p.flow (x.took p (frameNow s)) 16 3 1 (respCsf .done tag) (sectorsBytes [lentAt s.mem (g.off.toNat / 256)])] ∧
      t.out.getLast? = some (.ack p.flow p.psn) ∧ OnlyTouches [.out, .mem, .fab] s t := by
  have form : (gaddrOk g && decide (g.off.toNat % 256 = 0) && lentHolds s g 1) = true := by simp [ok, whole, holds]
  have run : exec (.atomicSectorCas p g tag expected new) s = onStrait p s (recvPkt p 3 0 288 true (casSector p g tag expected new) s) := by
    rw [← form]
    rfl
  have answered := casSector_lent (p := p) (g := g) (tag := tag) (expected := expected) (new := new) (u := afterTaking p 3 0 288 x s) awake afterTaking_pow
  rw [casStored_eq, afterTaking_mem] at answered
  obtain ⟨t, y, did, flow, rx, -, waits, acked, -, stored, touched⟩ := takenAndAnswered h answered rfl rfl
  rw [run]
  refine ⟨t, y, did, ?_, fun k ne => ?_, flow, rx, waits, acked, touched _ rfl (by decide) (by decide)⟩ <;> rw [stored] <;> dsimp only
  · split
    · exact congrArg (Option.getD · _) (alGet_alSet_self _ _ _)
    · rfl
  · split
    · exact alGet_alSet_other _ _ _ _ ne
    · rfl

end

/-- Settles O39: `takenAndAnswered` for what a home answers, `lentStore` for what it keeps. -/
theorem homesServeTheirLentRange : Obligations.HomesServeTheirLentRange := by
  refine ⟨fun s p g n tag x h awake ok some' few whole holds bad => memrd_lent awake ok whole h some' few holds bad, fun s p g tag x awake ok whole => ⟨fun data h some' few holds => ?_, fun expected new h holds => ?_⟩⟩
  · exact memwr_lent awake ok whole h some' few holds
  · exact cas_lent awake ok whole h holds

end Sys2Proof.Machine
end

section
/-!
Settles O56: wakes from DOZE and state requests in ACTIVE. A wake in DOZE notes its cause and starts the array dies (`wake_doze`), which changes the power state alone; a request is `guarded`, and in ACTIVE a module that has joined the tick only notes what it takes.
-/

namespace Sys2Proof.Machine

/-! A wake in DOZE (R586, R590). -/

/-- The domains with die `d` starting, unless it has failed. -/
def startDie (v : Vector DomainState 5) (d : DieId) : Vector DomainState 5 := if v[d] = .failed then v else v.set d (.powering 1 [] false)

theorem startDie_self (v : Vector DomainState 5) (d : DieId) : (startDie v d)[d] = if v[d] = .failed then .failed else .powering 1 [] false := by
  unfold startDie
  split
  · assumption
  · exact Vector.getElem_set_self _
theorem startDie_other (v : Vector DomainState 5) {d e : DieId} (ne : e ≠ d) : (startDie v e)[d] = v[d] := by
  unfold startDie
  split
  · rfl
  · exact Vector.getElem_set_ne _ _ (fun h => ne (Fin.ext h))

theorem foldl_startDie (l : List DieId) (v : Vector DomainState 5) (d : DieId) : (l.foldl startDie v)[d] = if d ∈ l ∧ v[d] ≠ .failed then .powering 1 [] false else v[d] := by
  induction l generalizing v with
  | nil => simp
  | cons e l ih =>
    rw [List.foldl_cons, ih]
    by_cases same : e = d
    · subst same
      rw [startDie_self]
      generalize v[e] = y
      by_cases failed : y = .failed <;> simp [failed]
    · rw [startDie_other v same]
      simp [Ne.symm same]

/-- A module in DOZE that is woken by `code`. -/
def Power.woken (code : BitVec 8) (w : Power) : Power :=
  { w with request := 3, lastWake := code, domains := [(0 : DieId), 1, 2, 3].foldl startDie w.domains, mod := .starting, fromDoze := true, target := some .active }

section
variable {s : State}

theorem foldl_startDomain (l : List DieId) (u : State) : l.foldl (fun s d => if s.pow.domains[d] = .failed then s else startDomain d s) u =
    { u with pow := { u.pow with domains := l.foldl startDie u.pow.domains } } := by
  induction l generalizing u with
  | nil => rfl
  | cons d l ih =>
    rw [List.foldl_cons, List.foldl_cons, ih]
    unfold startDie
    split <;> rfl

theorem startFromDoze_eq : startFromDoze s = { s with pow := { s.pow with domains := [(0 : DieId), 1, 2, 3].foldl startDie s.pow.domains, mod := .starting, fromDoze := true, target := some .active } } := by
  unfold startFromDoze
  rw [foldl_startDomain]

theorem wake_doze {code : BitVec 8} (doze : s.pow.mod = .doze) (enabled : s.pow.pwrEn = true) (cool : s.pow.tripped = false) : wake code s = { s with pow := s.pow.woken code } := by
  unfold wake
  rw [if_neg (by simp [enabled, cool])]
  simp only [doze, startFromDoze_eq]
  rfl

theorem wakeable_of_doze (doze : s.pow.mod = .doze) : wakeable s = true := by simp [wakeable, doze]

end

theorem Power.woken_array (code : BitVec 8) (w : Power) {d : DieId} (array : d.val < 4) (good : w.domains[d] ≠ .failed) : (w.woken code).domains[d] = .powering 1 [] false := by
  have listed : d ∈ [(0 : DieId), 1, 2, 3] := by
    simp only [List.mem_cons, Fin.ext_iff]
    grind
  exact (foldl_startDie _ _ _).trans (if_pos ⟨listed, good⟩)
theorem Power.woken_hub (code : BitVec 8) (w : Power) : (w.woken code).domains[(4 : DieId)] = w.domains[(4 : DieId)] := (foldl_startDie _ _ _).trans (if_neg (by simp))

theorem unitIdBytes_take : unitIdBytes.take 16 = unitIdBytes := List.take_of_length_le (length_leBytes 16 _).le

/-! The three ways to be woken. -/

section
variable {s : State} (up : s.pow.mgmtUp = true) (doze : s.pow.mod = .doze) (enabled : s.pow.pwrEn = true) (cool : s.pow.tripped = false)
include doze enabled cool

include up in
theorem straitSignalWake_doze {k : StraitId} (fabric : s.fab.straits[k].mode = 1) (armed : s.fab.straits[k].link ≠ .up) : exec (.straitSignalWake k) s = .next { s with pow := s.pow.woken 1 } := by
  rw [← wake_doze doze enabled cool]
  exact need_of (by simpa [up, wakeable_of_doze doze] using ⟨fabric, armed⟩)

include up in
theorem sidebandWakeFrame_doze : exec (.sidebandWakeFrame 0x88B5 unitIdBytes true) s = .next { s with dict := s.dict.frames 1 1, pow := s.pow.woken 2 } := by
  have own : wakeFrame 0x88B5 unitIdBytes true s = wake 2 { s with dict := s.dict.frames 1 1 } := if_pos ⟨rfl, rfl, unitIdBytes_take, wakeable_of_doze doze⟩
  have run : exec (.sidebandWakeFrame 0x88B5 unitIdBytes true) s = .next (wakeFrame 0x88B5 unitIdBytes true s) := congrArg Host.Outcome.next (if_pos up)
  rw [run, own, wake_doze (s := { s with dict := s.dict.frames 1 1 }) doze enabled cool]

theorem wakePacket_doze {p : Pkt} {x : Flow} (h : Arrives s p 9 x) (named : s.fab.idInForce ≠ 0xFFFF) :
    exec (.wakePacket p s.fab.idInForce) s = .next (sendAck p.flow p.psn { afterTaking p 9 0 0 x s with pow := s.pow.woken 6 }) := by
  refine (onStrait_takes (op := 0) (len := 0) h _).trans ?_
  have pow : (afterTaking p 9 0 0 x s).pow = s.pow := afterTaking_pow
  have here : wakeDevice s.fab.idInForce p.hops (afterTaking p 9 0 0 x s) = wake 6 (afterTaking p 9 0 0 x s) := by
    unfold wakeDevice
    rw [if_pos afterTaking_idInForce.symm, if_pos (by rw [pow, doze])]
  rw [if_neg (by rwa [afterTaking_idInForce]), here, wake_doze (by rw [pow, doze]) (by rw [pow, enabled]) (by rw [pow, cool]), pow]

end

/-! Requests in ACTIVE (R581, R582, R584). -/

section
variable {s : State} {q : Req} (sv : served s 0x1100) (op : isOperator s q) (active : s.pow.mod = .active)

theorem acceptLower_joined {target : ModState} (joined : s.tick.joined) : acceptLower target s = { s with pow := { s.pow with atTick := some target, windowRun := false } } := if_pos joined

theorem requestDoze_active (active : s.pow.mod = .active) : requestDoze s = if dozeBarred s then (s, .denied) else (acceptLower .doze (setRequest 2 s), .done) := by
  unfold requestDoze
  rw [active]

include sv op active

theorem opStateDoze_active (joined : s.tick.joined) (free : dozeBarred s = false) : opStateDoze q s = ({ s with pow := { s.pow with request := 2, atTick := some .doze, windowRun := false } }, .done) := by
  refine (guarded_of sv op).trans ?_
  rw [requestDoze_active active, if_neg (by simp [free]), acceptLower_joined (by exact joined)]
  rfl
theorem opStateDoze_barred (barred : dozeBarred s) : opStateDoze q s = (s, .denied) := by
  refine (guarded_of sv op).trans ?_
  rw [requestDoze_active active, if_pos barred]
theorem opStateStandby_active (joined : s.tick.joined) (free : ∀ p : PartId, s.parts[p].state = .free) :
    opStateStandby q s = ({ s with pow := { s.pow with request := 1, atTick := some .standby, windowRun := false } }, .done) := by
  refine (guarded_of sv op).trans ?_
  unfold requestStandby
  rw [if_neg (by simpa [allParts] using free), active]
  exact congrArg (·, Status.done) (acceptLower_joined (by exact joined))
theorem opStateActive_active : opStateActive q s = ({ s with pow := { s.pow with request := 3, atTick := none, latched := none } }, .done) := by
  refine (guarded_of sv op).trans ?_
  unfold requestActive
  simp only [active]

omit active
theorem opStateStandby_held (held : ∃ p : PartId, s.parts[p].state ≠ .free) : opStateStandby q s = (s, .denied) := by
  refine (guarded_of sv op).trans (if_pos ?_)
  simpa [allParts] using held

end

/-- Settles O56: a wake is `wake_doze` in its three ways, a request in ACTIVE the answer to its guarded operation. -/
theorem wakesAndStateRequests : Obligations.WakesAndStateRequests := by
  refine ⟨fun s up doze enabled cool => ⟨?strait, ?frame, ?other, ?packet⟩, fun s q hr sv op active => ⟨?dozeTaken, ?dozeDenied, ?standbyTaken, ?standbyDenied, ?back⟩⟩
  case strait => exact fun k fabric armed => ⟨_, straitSignalWake_doze up doze enabled cool fabric armed, rfl, rfl, rfl, fun d array good => s.pow.woken_array 1 array good, s.pow.woken_hub 1, rfl⟩
  case frame => exact ⟨_, sidebandWakeFrame_doze up doze enabled cool, rfl, rfl, rfl⟩
  case other =>
    intro e b
    have counted : wakeFrame e b false s = { s with dict := s.dict.frames 1 1 } := by simp [wakeFrame]
    exact congrArg Host.Outcome.next ((if_pos up).trans counted)
  case packet =>
    intro p x h named
    obtain ⟨fab, flows, ack⟩ := sendAck_eq { afterTaking p 9 0 0 x s with pow := s.pow.woken 6 } p.flow p.psn
    have run := wakePacket_doze doze enabled cool h named
    rw [ack] at run
    refine ⟨_, run, rfl, rfl, ?_, rfl, rfl⟩
    rw [getFlow, flows]
    exact getFlow_afterTaking
  case dozeTaken => exact fun joined free => software_done hr (opStateDoze_active sv op active joined free)
  case dozeDenied => exact fun barred => software_denied hr (opStateDoze_barred sv op active barred)
  case standbyTaken => exact fun joined free => software_done hr (opStateStandby_active sv op active joined free)
  case standbyDenied => exact fun held => software_denied hr (opStateStandby_held sv op held)
  case back => exact software_done hr (opStateActive_active sv op active)

end Sys2Proof.Machine
end

section
/-!
What a change of one strait does to the straits (`SetsStrait`): the new value of the one, and every other as it was. Trainings, failures and shut-downs of a strait are such changes (R275, R277, R278).
-/

namespace Sys2Proof.Machine

/-- From `s` to `t` strait `k` takes the value `y`, and every other strait stands. -/
structure SetsStrait (k : StraitId) (y : Strait) (s t : State) : Prop where
  here : t.fab.straits[k] = y
  others : ∀ j, j ≠ k → t.fab.straits[j] = s.fab.straits[j]

section
variable {k : StraitId} {x y : Strait} {s t u : State}

theorem updStrait_sets (k : StraitId) (f : Strait → Strait) (s : State) : SetsStrait k (f s.fab.straits[k]) s (s.updStrait k f) := ⟨updStrait_at .., fun _ ne => updStrait_other _ _ _ _ ne⟩
theorem SetsStrait.refl (k : StraitId) (s : State) : SetsStrait k s.fab.straits[k] s s := ⟨rfl, fun _ _ => rfl⟩
theorem SetsStrait.trans (h : SetsStrait k x s t) (g : SetsStrait k y t u) : SetsStrait k y s u := ⟨g.here, fun j ne => (g.others j ne).trans (h.others j ne)⟩
theorem SetsStrait.updStrait (h : SetsStrait k x s t) (f : Strait → Strait) : SetsStrait k (f x) s (t.updStrait k f) := by
  have g := updStrait_sets k f t
  rw [h.here] at g
  exact h.trans g
theorem SetsStrait.same (h : SetsStrait k x s t) (straits : u.fab.straits = t.fab.straits) : SetsStrait k x s u := ⟨straits ▸ h.here, straits ▸ h.others⟩

/-- A strait that has gone down waits in DETECT with an empty flit layer (R278). -/
def Strait.down (x : Strait) : Strait := { x.fresh with link := .detect, width := 0, probeT1 := none }
/-- A strait that has begun to train (R275). -/
def Strait.training (x : Strait) : Strait := { x with link := .training, width := 0, counters := bump x.counters 3 1 }
/-- A strait whose training has failed once more (R278). -/
def Strait.failedOnce (x : Strait) : Strait := { x.down with trainFails := x.trainFails + 1, link := if 64 ≤ x.trainFails + 1 then .failed else .detect }

theorem SetsStrait.goDown (h : SetsStrait k x s t) : SetsStrait k x.down s (goDown k t) := (h.same (u := dropHop k t) rfl).updStrait _
theorem SetsStrait.beginTraining (h : SetsStrait k x s t) : SetsStrait k x.training s (beginTraining k t) := (h.same (u := dropHop k t) rfl).updStrait _
theorem SetsStrait.trainFail (h : SetsStrait k x s t) : SetsStrait k x.failedOnce s (trainFail k t) :=
  h.goDown.updStrait (fun x => { x with trainFails := x.trainFails + 1, link := if 64 ≤ x.trainFails + 1 then .failed else .detect })

/-- The HELLO that is offered on a strait is counted there (R279, R434). -/
theorem SetsStrait.offerHello (h : SetsStrait k x s t) (peer : Device) : ∃ n, SetsStrait k { x with counters := bump x.counters 4 n } s (offerHello (some k) peer t) := by
  exact ⟨_, ((h.same (u := { t with free := t.free + 1, fab := { t.fab with handshakes := _ } }) rfl).updStrait (fun x => { x with counters := bump x.counters 4 (slotsOf _) })).same rfl⟩

end

end Sys2Proof.Machine
end

section
/-!
Settles O35: how a strait trains, fails and is told to train.
-/

namespace Sys2Proof.Machine

section
variable {s : State} {k : StraitId}

/-- With at most one lane out for good a training ends with 8 data lanes (R270). -/
theorem trained8 (lanes : (permLanes s k).length ≤ 1) : trained8or4 s k 8 = true := by simp [trained8or4, lanes]

theorem enterHandshake_sets (n : Nat) : ∃ lanes spare c, SetsStrait k { s.fab.straits[k].fresh with link := .handshake, width := BitVec.ofNat 8 n, spare := spare, badLanes := lanes, counters := c } s (enterHandshake k n s) := by
  obtain ⟨c, h⟩ := (updStrait_sets k (fun x => { x.fresh with link := .handshake, width := BitVec.ofNat 8 n, spare := _, badLanes := _ }) s).offerHello 0xFFFF
  exact ⟨_, _, _, h⟩

section
variable (hub : hubUp s = true)
include hub

theorem straitTrainDone_lanes {n : Nat} (training : s.fab.straits[k].link = .training) (ok : trained8or4 s k n = true) : exec (.straitTrainDone k (.lanes n)) s = .next (enterHandshake k n s) :=
  (need_of (by simpa [hub] using training)).trans (congrArg Host.Outcome.next (if_pos ok))
theorem straitTrainDone_failed (training : s.fab.straits[k].link = .training) : exec (.straitTrainDone k .failed) s = .next (trainFail k s) := need_of (by simpa [hub] using training)
theorem straitRetrainTimer_of (detect : s.fab.straits[k].link = .detect) (fabric : s.fab.straits[k].mode = 1) (again : s.fab.straits[k].counters[3] ≠ 0) :
    exec (.straitRetrainTimer k) s = .next (beginTraining k s) := need_of (by simpa [hub] using ⟨⟨detect, fabric⟩, again⟩)
theorem signalDetect_of (detect : s.fab.straits[k].link = .detect) (fabric : s.fab.straits[k].mode = 1) : exec (.signalDetect k) s = .next (beginTraining k s) :=
  need_of (by simpa [hub] using ⟨detect, fabric⟩)
theorem pcieTraining_up {w : Nat} (host : s.fab.straits[k].mode = 2) (ferry : 16 ≤ k.val) (width : w ∈ [1, 2, 4, 8]) :
    exec (.pcieTraining k true w) s = .next (s.updStrait k (fun x => { x with link := .host, width := BitVec.ofNat 8 w, ide := false })) := by
  refine need_of ?_
  simp only [List.mem_cons, List.not_mem_nil, or_false] at width
  simpa [hub, ferry, or_assoc] using ⟨host, width⟩

end

/-! The requests of an OPERATOR. -/

section
variable {q : Req}

/-- A write of a persistent object that module flash takes (R544). -/
theorem software_flashed_taken {t : State} {r : State × Status} (hr : reachable s) (flash : (!q.flashFails) = true) (h : r = (t, .done)) :
    software s (answer q (flashed q true s r)) = .next (answer q (t, .done)) := by
  rw [software_flashed_done hr h, if_neg (by simpa using flash)]

variable (op : isOperator s q = true) (sv : served s (0x6000 + k.val) = true)
include op sv

theorem opTrain_fabric (hub : hubUp s = true) (fabric : s.fab.straits[k].mode = 1) : opTrain q k 1 s = (beginTraining k (s.updStrait k (fun x => { x with trainFails := 0 })), .done) :=
  (guarded_of sv (by simp [op])).trans (if_pos ⟨rfl, fabric, hub⟩)

/-- A strait that is down takes a mode in which it does not train. -/
def Strait.moded (v : Byte) (hub : Bool) (x : Strait) : Strait := { x with mode := v, ide := false, trainFails := 0, link := if v = 0 ∨ !hub then .off else .detect }

/-- A mode that does not train leaves the strait idle, or waiting for the host (R279). -/
theorem opStraitMode_idle {v : Byte} (may : v = 0 ∨ v = 2 ∧ 16 ≤ k.val ∧ isFerry s) (other : v ≠ s.fab.straits[k].mode) (alive : s.fab.straits[k].link ≠ .failed) :
    opStraitMode q k v s = ((goDown k s).updStrait k (Strait.moded v (hubUp s)), .done) := by
  have allowed : (isOperator s q && v.toNat ≤ 2 && (v ≠ 2 || (16 ≤ k.val && isFerry s))) = true := by
    rcases may with rfl | ⟨rfl, ferry, is⟩
    · simp [op]
    · simp [op, ferry, is]
  have quiet (h : Bool) : ¬(v = 1 ∧ h) := by rcases may with rfl | ⟨rfl, -⟩ <;> simp
  rw [opStraitMode, guarded_of sv allowed, if_neg other, if_neg alive]
  exact congrArg (·, Status.done) (if_neg (quiet _))

theorem opStraitMode_failed {v : Byte} (small : v.toNat ≤ 1) (other : v ≠ s.fab.straits[k].mode) (failed : s.fab.straits[k].link = .failed) :
    opStraitMode q k v s = (s.updStrait k (fun x => { x with mode := v, ide := false }), .done) := by
  have plain : (v ≠ 2 || (16 ≤ k.val && isFerry s)) = true := by
    rw [decide_eq_true (show v ≠ 2 by rintro rfl; exact absurd small (by decide))]
    rfl
  refine (guarded_of sv ?_).trans ((if_neg other).trans (if_pos failed))
  rw [op, plain, decide_eq_true (Nat.le_succ_of_le small)]
  rfl

end

end

/-- Settles O35: each training event runs under its condition, and each is a change of its own strait (`SetsStrait`). -/
theorem straitTrainingFollowsItsStates : Obligations.StraitTrainingFollowsItsStates := by
  intro s k
  refine ⟨?trained, ?failed, ?backOff, ?detect, ?train, ?mode, ?modeFailed, ?host⟩
  case trained =>
    intro hub training lanes
    obtain ⟨_, _, _, here, others⟩ := enterHandshake_sets (s := s) (k := k) 8
    exact ⟨_, straitTrainDone_lanes hub training (trained8 lanes), congrArg Strait.link here, congrArg Strait.width here, (congrArg Strait.trainFails here).trans rfl, congrArg Strait.txIndex here,
      congrArg Strait.rxIndex here, others, enterHandshake_only (.refl _ s) (by decide) (by decide) (by decide)⟩
  case failed =>
    intro hub training
    obtain ⟨here, others⟩ := (SetsStrait.refl k s).trainFail
    refine ⟨_, straitTrainDone_failed hub training, congrArg Strait.trainFails here, congrArg Strait.width here, (congrArg Strait.link here).trans ?_, others, trainFail_only (.refl _ s) (by decide)⟩
    unfold Strait.failedOnce
    grind
  case backOff =>
    intro hub detect fabric again
    obtain ⟨here, others⟩ := (SetsStrait.refl k s).beginTraining
    exact ⟨_, straitRetrainTimer_of hub detect fabric again, here, others, beginTraining_only (.refl _ s) (by decide)⟩
  case detect =>
    intro hub detect fabric
    obtain ⟨here, others⟩ := (SetsStrait.refl k s).beginTraining
    exact ⟨_, signalDetect_of hub detect fabric, here, others, beginTraining_only (.refl _ s) (by decide)⟩
  case train =>
    intro q hr hub op sv fabric
    obtain ⟨here, others⟩ := (updStrait_sets k (fun x => { x with trainFails := 0 }) s).beginTraining
    exact ⟨_, software_done hr (opTrain_fabric op sv hub fabric), here, others, rfl, answer_only (beginTraining_only (State_updStrait_only (.refl _ s) (by decide)) (by decide)) (by decide) (by decide)⟩
  case mode =>
    intro q v hr op sv may other alive flash
    obtain ⟨here, others⟩ := (SetsStrait.refl k s).goDown.updStrait (Strait.moded v (hubUp s))
    refine ⟨_, software_flashed_taken hr flash (opStraitMode_idle op sv (by tauto) other alive), congrArg Strait.mode here, congrArg Strait.width here, congrArg Strait.ide here,
      (congrArg Strait.link here).trans (if_congr ?_ rfl rfl), others, rfl, answer_only (State_updStrait_only (goDown_only (.refl _ s) (by decide)) (by decide)) (by decide) (by decide)⟩
    rcases may with rfl | ⟨rfl, -, -, hub⟩
    · simp
    · simp [hub]
  case modeFailed =>
    intro q v hr op sv small other failed flash
    obtain ⟨here, others⟩ := updStrait_sets k (fun x => { x with mode := v, ide := false }) s
    exact ⟨_, software_flashed_taken hr flash (opStraitMode_failed op sv small other failed), here, others, rfl, answer_only (State_updStrait_only (.refl _ s) (by decide)) (by decide) (by decide)⟩
  case host =>
    intro hub host ferry w width
    obtain ⟨here, others⟩ := updStrait_sets k (fun x => { x with link := .host, width := BitVec.ofNat 8 w, ide := false }) s
    exact ⟨_, pcieTraining_up hub host ferry width, here, others, State_updStrait_only (.refl _ s) (by decide)⟩

end Sys2Proof.Machine
end

section
/-!
Key slots and free numbers (R431, R432): what looking a number up gives in a list that has been filtered or added to, when a free number is found, and what a key of the module leaves of the other slots.
-/

namespace Sys2Proof.Machine

/-! Lists keyed by a number. -/

section
variable {α : Type} {k j : Nat} {v : α} {l : List (Nat × α)}

theorem alGet_eq_none_iff : alGet k l = none ↔ ∀ x ∈ l, x.1 ≠ k := by
  induction l with
  | nil => simp [alGet]
  | cons x l ih =>
    obtain ⟨i, w⟩ := x
    by_cases h : i = k <;> simp [alGet, h, ih]

/-- What is looked up stands after a filter that lets it through. -/
theorem alGet_filter_of (P : Nat × α → Bool) (h : alGet k l = some v) (pass : P (k, v) = true) : alGet k (l.filter P) = some v := by
  induction l with
  | nil => simp [alGet] at h
  | cons x l ih =>
    obtain ⟨i, w⟩ := x
    by_cases e : i = k
    · obtain rfl : w = v := by simpa [alGet, e] using h
      simp [e, pass, alGet]
    · have rest : alGet k l = some v := by simpa [alGet, e] using h
      rw [List.filter_cons]
      split
      · simpa [alGet, e] using ih rest
      · exact ih rest

theorem alGet_filter_none (P : Nat × α → Bool) (h : alGet k l = none) : alGet k (l.filter P) = none :=
  alGet_eq_none_iff.mpr fun x hx => alGet_eq_none_iff.mp h x (List.mem_of_mem_filter hx)

/-- Entries of other numbers stay where one is set. -/
theorem mem_alSet_of_ne {x : Nat × α} (h : x ∈ l) (ne : x.1 ≠ k) : x ∈ alSet k v l := by
  induction l with
  | nil => cases h
  | cons y l ih =>
    obtain ⟨i, w⟩ := y
    unfold alSet
    rcases List.mem_cons.mp h with rfl | h
    · grind
    · grind

end

/-! A free number is found where there is one. -/

section
variable {used : Nat → Bool} {lo n seed : Nat}

theorem pickFree_isSome {m : Nat} (low : lo ≤ m) (high : m < lo + n) (free : used m = false) : (pickFree used lo n seed).isSome := by
  have place : lo + (seed + (m - lo + n - seed % n)) % n = m := by
    have split : seed + (m - lo + n - seed % n) = m - lo + n * (seed / n + 1) := by
      have := Nat.div_add_mod seed n
      have := Nat.mod_lt seed (show 0 < n by omega)
      rw [Nat.mul_add]
      omega
    rw [split, Nat.add_mul_mod_self_left, Nat.mod_eq_of_lt (by omega)]
    omega
  rw [pickFree, Option.isSome_map, List.find?_isSome]
  refine ⟨(m - lo + n - seed % n) % n, List.mem_range.mpr (Nat.mod_lt _ (by omega)), ?_⟩
  rw [Nat.add_mod_mod, place, free]
  rfl

theorem pickFree_some {m : Nat} (h : pickFree used lo n seed = some m) : lo ≤ m ∧ m < lo + n ∧ used m = false := by
  obtain ⟨i, found, rfl⟩ := Option.map_eq_some_iff.mp h
  have range := List.mem_range.mp (List.mem_of_find?_eq_some found)
  have free := List.find?_some found
  refine ⟨Nat.le_add_right _ _, Nat.add_lt_add_left (Nat.mod_lt _ (by omega)) _, by simpa using free⟩

end

/-! Keys that are put into slots. -/

section
variable {s t : State} {b : Bool} {k : KeySlot} {i : Nat}

/-- A key takes a slot that nothing held. -/
theorem addKey_some (h : addKey b k s = some (t, i)) : alGet i s.keys.slots = none ∧ t = { s with keys := { s.keys with slots := alSet i k s.keys.slots }, free := s.free + 1 } := by
  obtain ⟨j, found, e⟩ := Option.map_eq_some_iff.mp h
  obtain ⟨rfl, rfl⟩ := Prod.mk.inj e
  exact ⟨by simpa using (pickFree_some found).2.2, rfl⟩

/-- A key of the module finds a reserved slot where one is free. -/
theorem addKey_reserved (room : ∃ m, m < 256 ∧ alGet m s.keys.slots = none) : ∃ t i, addKey false k s = some (t, i) := by
  obtain ⟨m, small, free⟩ := room
  have found := pickFree_isSome (used := fun i => (alGet i s.keys.slots).isSome) (lo := 0) (n := 256) (seed := Config.freeNat s.free) (Nat.zero_le m) (by omega) (by simp [free])
  obtain ⟨i, hi⟩ := Option.isSome_iff_exists.mp found
  exact ⟨_, i, congrArg (Option.map _) hi⟩

/-- A key that the module puts in place of another with its purpose and tag. -/
def sameKey (owner purpose tag : Nat) (x : Nat × KeySlot) : Bool := x.2.owner = owner && x.2.purpose = purpose && x.2.tag = tag

theorem setModuleKey_cases (owner purpose tag : Nat) (value : Bytes) (s : State) :
    let slots := s.keys.slots.filter (fun x => !sameKey owner purpose tag x)
    (∃ i, alGet i slots = none ∧ setModuleKey owner purpose tag value s =
      { s with keys := { s.keys with slots := alSet i (keyOf owner purpose 0 tag 0x1FFF value) slots }, free := s.free + 1 }) ∨
    ((∀ m, m < 256 → alGet m slots ≠ none) ∧ setModuleKey owner purpose tag value s = { s with keys := { s.keys with slots := slots } }) := by
  unfold setModuleKey
  dsimp only
  split
  · next t i found =>
    obtain ⟨free, rfl⟩ := addKey_some found
    exact .inl ⟨i, free, rfl⟩
  · next full =>
    refine .inr ⟨fun m small free => ?_, rfl⟩
    obtain ⟨t, i, found⟩ := addKey_reserved (k := keyOf owner purpose 0 tag 0x1FFF value) (s := { s with keys := { s.keys with slots := s.keys.slots.filter (fun x => !sameKey owner purpose tag x) } }) ⟨m, small, free⟩
    exact Option.some_ne_none _ (found.symm.trans full)

end

end Sys2Proof.Machine
end

section
/-!
Causeways (R294, R295): a path has one leg, or two different ones; a unit is sealed once and kept for replay, and what is received on one causeway changes it and the one that a relay leaves by.
-/

namespace Sys2Proof.Machine

/-! Paths. -/

/-- The legs from one die to another by way of a third are two different causeways. -/
theorem cswBetween_ne {a m b : DieId} (ne : a ≠ b) : cswBetween a m = none ∨ cswBetween a m ≠ cswBetween m b := by
  revert a m b
  decide

section
variable {s : State} {a m b : DieId} {path : List (Fin 8)} {detour : Bool}

theorem legs_some (ne : a ≠ b) (h : legs s a m b = some path) : ∃ c d, path = [c, d] ∧ d ≠ c := by
  unfold legs at h
  split at h
  · next c d first second =>
    split at h
    · refine ⟨c, d, (Option.some.inj h).symm, ?_⟩
      rintro rfl
      rcases cswBetween_ne (m := m) ne with none | other
      · rw [first] at none
        cases none
      · exact other (first.trans second.symm)
    · cases h
  · cases h

theorem head_legs (ne : a ≠ b) {l : List DieId} (h : (l.filterMap (fun m => legs s a m b)).head? = some path) : ∃ c d, path = [c, d] ∧ d ≠ c := by
  obtain ⟨m, -, found⟩ := List.mem_filterMap.mp (List.mem_of_head? h)
  exact legs_some ne found

/-- A path has one leg, or two different ones. -/
theorem cswPath_legs (h : cswPath s a b = some (path, detour)) : (∃ c, path = [c]) ∨ ∃ c d, path = [c, d] ∧ d ≠ c := by
  unfold cswPath at h
  split at h
  · cases h
  · next ne =>
    split at h
    · split at h
      · cases h
        exact .inl ⟨_, rfl⟩
      · obtain ⟨p, found, e⟩ := Option.map_eq_some_iff.mp h
        cases e
        exact .inr (head_legs ne found)
    · split at h
      · next found =>
        cases h
        exact .inr (legs_some ne found)
      · obtain ⟨p, found, e⟩ := Option.map_eq_some_iff.mp h
        cases e
        exact .inr (head_legs ne found)

end

/-! Units that are kept for replay. -/

section
variable {α : Type} (dir : Nat) (v : α) (x : α × α)

@[simp] theorem bySide_onSide : bySide dir (onSide dir v x) = v := by
  unfold bySide onSide
  split <;> rfl

end

section
variable (dir i : Nat) (u : Bytes) (x : Causeway)

@[simp] theorem Causeway.keep_sent : bySide dir (x.keep dir i u).sent = i + 1 := bySide_onSide ..
@[simp] theorem Causeway.keep_next : (x.keep dir i u).next = x.next := rfl
@[simp] theorem Causeway.keep_resendRun : (x.keep dir i u).resendRun = x.resendRun := rfl
theorem Causeway.keep_replay : bySide dir (x.keep dir i u).replay = (bySide dir x.replay ++ [(i, u)]).drop ((bySide dir x.replay).length + 1 - 1024) := by
  simp [Causeway.keep]
/-- The replay buffer holds the last 1,024 units. -/
theorem Causeway.keep_bounded : (bySide dir (x.keep dir i u).replay).length ≤ 1024 := by
  rw [Causeway.keep_replay]
  simp
  omega
/-- The unit just kept is the one of its index. -/
@[simp] theorem Causeway.kept_keep : (x.keep dir i u).kept dir i = u := by
  have last : ∃ l, (bySide dir x.replay ++ [(i, u)]).drop ((bySide dir x.replay).length + 1 - 1024) = l ++ [(i, u)] := ⟨_, List.drop_append_of_le_length (by omega)⟩
  obtain ⟨l, hl⟩ := last
  rw [Causeway.kept, Causeway.keep_replay, hl]
  simp

end

/-! What is received on a causeway. -/

section
variable {s : State} {c : Fin 8} {dir : Nat} {b : Bytes}

theorem cswSend_at (i : Nat) : (cswSend c dir i b s).fab.causeways[c] = (s.fab.causeways[c]).keep dir i (sealUnit (cswKey s c dir) i b) := modVec_self ..

/-- Once the unit that arrives has been sent, its index is behind those sent; nothing else of what is received changes. -/
theorem cswSent_kept : ∃ x : Causeway, cswSent c dir b s = { s with fab := { s.fab with causeways := modVec s.fab.causeways c (fun _ => x) } } ∧ x.next = s.fab.causeways[c].next ∧
    x.resendRun = s.fab.causeways[c].resendRun ∧ bySide dir x.next < bySide dir x.sent ∧ (bySide dir x.replay).length ≤ max 1024 (bySide dir s.fab.causeways[c].replay).length := by
  unfold cswSent
  split
  · next sent =>
    refine ⟨s.fab.causeways[c], ?_, rfl, rfl, sent, le_max_right _ _⟩
    have same : modVec s.fab.causeways c (fun _ => s.fab.causeways[c]) = s.fab.causeways := by simp [modVec]
    rw [same]
  · exact ⟨_, rfl, rfl, rfl, by simp, (Causeway.keep_bounded ..).trans (le_max_left _ _)⟩

end

end Sys2Proof.Machine
end

section
/-!
Faults of a strait's lanes and link, and the switch of its hop key (R276 to R278, R309): each is a change of that strait (`SetsStrait`); the switch puts the next key in place of the latest, which then stands as the previous one.
-/

namespace Sys2Proof.Machine

/-! Lanes (R276 to R278). -/

section
variable (lane : Fin 9) (n : Nat) (x : Strait)

/-- A swap takes effect at its index, and waits for it before (R276). -/
theorem Strait.swapped_of (h : x.swap = some (lane, n)) : x.swapped = if n ≤ x.txIndex then { x with spare := BitVec.ofNat 8 lane.val, swap := none } else x := by
  unfold Strait.swapped
  rw [h]

/-- A strait on which a swap to the spare lane has been agreed. -/
def Strait.swapping : Strait := Strait.swapped { x with swap := some (lane, n), badLanes := lane :: x.badLanes }

theorem Strait.swapping_eq : ∃ spare swap, x.swapping lane n = { x with spare := spare, swap := swap, badLanes := lane :: x.badLanes } ∧
    if n ≤ x.txIndex then spare = BitVec.ofNat 8 lane.val ∧ swap = none else spare = x.spare ∧ swap = some (lane, n) := by
  unfold Strait.swapping
  rw [Strait.swapped_of lane n _ rfl]
  by_cases due : n ≤ x.txIndex
  · exact ⟨_, _, if_pos due, by rw [if_pos due]; exact ⟨rfl, rfl⟩⟩
  · exact ⟨_, _, if_neg due, by rw [if_neg due]; exact ⟨rfl, rfl⟩⟩

/-- The flit that leaves carries the spare lane that the strait then has. -/
theorem Strait.sent_replay_last (key : Nat → Bytes) (vc slots : Nat) (b : Bytes) : ((Strait.sent key vc slots b x).replay.getLast?).map (·.spare) = some x.swapped.spare := by
  have kept (l : List SentFlit) (f : SentFlit) : ((l ++ [f]).drop (l.length + 1 - 2048)).getLast? = some f := by
    rw [List.drop_append_of_le_length (by omega)]
    exact List.getLast?_concat
  unfold Strait.sent
  dsimp only
  rw [kept, Option.map_some]

end

section
variable {s : State} {k : StraitId} (on : flowing s k = true)
include on

theorem laneSwap_of {lane : Fin 9} {n : Nat} (spare : s.fab.straits[k].spare = 0xFF) (idle : s.fab.straits[k].swap = none) (full : s.fab.straits[k].width = 8) (data : lane.val ≠ 8) :
    exec (.laneSwap k lane n) s = .next (State.emit { s.updStrait k (Strait.swapping lane n) with
      ras := s.ras.strike (frameNow s) (laneUnit k lane.val) lane.val } [.laneSwap k lane n]) :=
  need_of (by simpa [on] using ⟨⟨⟨spare, idle⟩, full⟩, data⟩)

theorem straitDown_of {c : DownCause} (cause : c ≠ .replayFailed ∨ 8 ≤ s.fab.straits[k].replayFails) : exec (.straitDown k c) s = .next (goDown k s) :=
  need_of (by simpa [on] using cause)

/-- The state in which a further lane has been found faulty. -/
def laneLost (k : StraitId) (lane : Fin 9) (s : State) : State :=
  { s.updStrait k (fun x => { x with badLanes := lane :: x.badLanes }) with ras := s.ras.strike (frameNow s) (laneUnit k lane.val) lane.val }

theorem laneRetrainNarrow_of {lane : Fin 9} (second : s.fab.straits[k].spare ≠ 0xFF ∨ s.fab.straits[k].swap.isSome) (new : lane ∉ s.fab.straits[k].badLanes) :
    exec (.laneRetrainNarrow k lane) s = .next (if 9 - (faultyLanes (laneLost k lane s) k).length < 4 then goDown k (laneLost k lane s) else beginTraining k (goDown k (laneLost k lane s))) :=
  need_of (by simpa [on] using ⟨second, new⟩)

end

/-- Lanes found faulty are those of the strait's list and of the wear record. -/
theorem faultyLanes_congr {s t : State} {k : StraitId} (bad : t.fab.straits[k].badLanes = s.fab.straits[k].badLanes) (ras : t.ras = s.ras) : faultyLanes t k = faultyLanes s k := by
  simp only [faultyLanes, permLanes, bad, ras]

/-! The hop key (R309). -/

section
variable {s : State} {k : StraitId} {tx : Bool} {n i : Nat} {old : KeySlot}

/-- The generation of one direction that follows. -/
def nextHopGen (k : StraitId) (tx : Bool) (s : State) : Nat := (if tx then s.fab.straits[k].hopGen.1 else s.fab.straits[k].hopGen.2) + 1

/-- A strait one of whose directions has switched to generation `g` from flit `n` on. -/
def Strait.switched (tx : Bool) (n g : Nat) (x : Strait) : Strait :=
  { x with hopGen := if tx then (g, x.hopGen.2) else (x.hopGen.1, g), hopSwitch := if tx then (some n, x.hopSwitch.2) else (x.hopSwitch.1, some n) }

theorem Strait.switched_genAt (n : Nat) (x : Strait) (m : Nat) : (x.switched true n (x.hopGen.1 + 1)).genAt m = if m < n then x.hopGen.1 else x.hopGen.1 + 1 := rfl

/-- The slots once the latest key of a direction is that of generation `g`. -/
def hopSlots (i : Nat) (old : KeySlot) (g : Nat) (s : State) : List (Nat × KeySlot) := alSet i { old with value := nextGenKey old.value g, epoch := g % 256 } s.keys.slots

theorem switchHopKey_of (h : findKey s.keys 0x40 0x16 (hopTag k.val (!tx)) = some (i, old)) :
    switchHopKey k tx n s = setModuleKey 0x40 0x16 (prevHopTag k.val (!tx)) old.value
      { s.updStrait k (Strait.switched tx n (nextHopGen k tx s)) with keys := { s.keys with slots := hopSlots i old (nextHopGen k tx s) s } } := by
  unfold switchHopKey
  simp only [updStrait_keys, h]
  rfl

theorem findKey_some {ks : Keys} {owner purpose tag : Nat} (h : findKey ks owner purpose tag = some (i, old)) :
    (i, old) ∈ ks.slots ∧ old.revoked = false ∧ old.owner = owner ∧ old.purpose = purpose ∧ old.tag = tag := by
  refine ⟨List.mem_of_find?_eq_some h, ?_⟩
  have fits := List.find?_some h
  simpa [and_assoc] using fits

theorem prevHopTag_ne (k : Nat) (rx : Bool) : hopTag k rx ≠ prevHopTag k rx := by
  unfold prevHopTag
  omega

/-- What the switch leaves in the slots: the next key, the previous one where a slot is free, and every other slot. -/
theorem setModuleKey_hop {u : State} {g : Nat} (h : findKey s.keys 0x40 0x16 (hopTag k.val (!tx)) = some (i, old)) (slots : u.keys.slots = hopSlots i old g s) :
    let t := setModuleKey 0x40 0x16 (prevHopTag k.val (!tx)) old.value u
    t.fab = u.fab ∧ (alGet i t.keys.slots).map (·.value) = some (nextGenKey old.value g) ∧
    ((∃ m, m < 256 ∧ alGet m s.keys.slots = none) → ∃ j y, alGet j t.keys.slots = some y ∧ y.owner = 0x40 ∧ y.purpose = 0x16 ∧ y.tag = prevHopTag k.val (!tx) ∧ y.value = old.value) ∧
    (∀ x ∈ s.keys.slots, x.1 ≠ i → x.2.tag ≠ prevHopTag k.val (!tx) ∨ x.2.purpose ≠ 0x16 ∨ x.2.owner ≠ 0x40 → x ∈ t.keys.slots) := by
  obtain ⟨stands, -, owner, purpose, tag⟩ := findKey_some h
  -- the latest key is not the previous one, so it stays where the previous one is replaced
  have latest : alGet i (u.keys.slots.filter (fun x => !sameKey 0x40 0x16 (prevHopTag k.val (!tx)) x)) = some { old with value := nextGenKey old.value g, epoch := g % 256 } := by
    refine alGet_filter_of _ (by rw [slots]; exact alGet_alSet_self _ _ _) ?_
    simp [sameKey, tag, prevHopTag_ne]
  have others : ∀ x ∈ s.keys.slots, x.1 ≠ i → x.2.tag ≠ prevHopTag k.val (!tx) ∨ x.2.purpose ≠ 0x16 ∨ x.2.owner ≠ 0x40 → x ∈ u.keys.slots.filter (fun x => !sameKey 0x40 0x16 (prevHopTag k.val (!tx)) x) := by
    intro x hx ne differs
    refine List.mem_filter.mpr ⟨by rw [slots]; exact mem_alSet_of_ne hx ne, ?_⟩
    simp only [sameKey, Bool.not_eq_true', Bool.and_eq_false_iff, decide_eq_false_iff_not]
    tauto
  rcases setModuleKey_cases 0x40 0x16 (prevHopTag k.val (!tx)) old.value u with ⟨j, free, did⟩ | ⟨full, did⟩
  · have other : i ≠ j := by rintro rfl; rw [latest] at free; cases free
    rw [did]
    refine ⟨rfl, ?_, fun _ => ⟨j, _, alGet_alSet_self _ _ _, rfl, rfl, rfl, rfl⟩, fun x hx ne differs => ?_⟩
    · dsimp only
      rw [alGet_alSet_other _ _ _ _ other, latest]
      rfl
    · exact mem_alSet_of_ne (others x hx ne differs) (alGet_eq_none_iff.mp free x (others x hx ne differs))
  · rw [did]
    refine ⟨rfl, by dsimp only; rw [latest]; rfl, fun ⟨m, small, unused⟩ => absurd ?_ (full m small), others⟩
    have other : m ≠ i := by rintro rfl; exact alGet_eq_none_iff.mp unused _ stands rfl
    refine alGet_filter_none _ ?_
    rw [slots, hopSlots, alGet_alSet_other _ _ _ _ other]
    exact unused

end

end Sys2Proof.Machine
end

section
/-!
Settles O37: a unit that arrives on a causeway (R294, R295), and each fault in turn.
-/

namespace Sys2Proof.Machine

/-! A unit that arrives (R294, R295). -/

section
variable {s : State} {c : Fin 8} {dir : Nat} {b : Bytes}

/-- A unit with a good tag counts, its run of resends is over, and no other causeway changes. -/
theorem cswTake_sent : ∃ fab, cswTake c dir (cswSent c dir b s) = { s with fab := fab } ∧ fab.causeways[c].resendRun = 0 ∧ (∀ d, d ≠ c → fab.causeways[d] = s.fab.causeways[d]) ∧
    fab.causewayStats = cswStat c 0 1 s.fab.causewayStats := by
  obtain ⟨x, sent, -⟩ := cswSent_kept (s := s) (c := c) (dir := dir) (b := b)
  rw [sent]
  refine ⟨_, rfl, ?_, fun d ne => ?_, rfl⟩
  · dsimp only
    rw [modVec_self]
  · dsimp only
    rw [modVec_other _ _ _ _ ne, modVec_other _ _ _ _ ne]

/-- A unit that is passed on leaves by the next causeway, sealed under that one's key and next index, and is kept there. -/
theorem cswRelay_of {d : Fin 8} {at' : DieId} {detour : Bool} : ∃ i u dir, (cswRelay c d at' detour b s).out = s.out ++ [.cswUnit d i u] ∧ u = sealUnit (cswKey s d dir) i b ∧
    i = bySide dir s.fab.causeways[d].sent ∧ (cswRelay c d at' detour b s).fab.causeways[d] = (s.fab.causeways[d]).keep dir i u ∧
    (cswRelay c d at' detour b s).fab.causewayStats = cswStat c (if detour then 3 else 2) 1 s.fab.causewayStats ∧ ∀ e, e ≠ d → (cswRelay c d at' detour b s).fab.causeways[e] = s.fab.causeways[e] := by
  refine ⟨_, _, cswTo d (legEnd d at'), ?_, rfl, rfl, modVec_self .., rfl, fun e ne => modVec_other _ _ _ _ ne⟩
  unfold cswRelay
  dsimp only [emit_out]
  rw [cswSend_at, Causeway.kept_keep]
  rfl

/-- What a unit with a good tag does, on its way along a path of one leg or of two (R295). -/
theorem cswUnitIn_good {a : DieId} {path : List (Fin 8)} {detour : Bool} (legs : (∃ d, path = [d]) ∨ ∃ d e, path = [d, e] ∧ e ≠ d) :
    let t := cswUnitIn c a path detour true b s
    t.fab.causeways[c].resendRun = 0 ∧ (∀ d, d ≠ c → d ∉ path → t.fab.causeways[d] = s.fab.causeways[d]) ∧
    (if path.head? = some c ∧ path.length = 2 then
       t.fab.causewayStats = cswStat c (if detour then 3 else 2) 1 (cswStat c 0 1 s.fab.causewayStats) ∧
       ∃ d i u dir, t.out = s.out ++ [.cswUnit d i u] ∧ path = [c, d] ∧ u = sealUnit (cswKey s d dir) i b ∧ i = bySide dir s.fab.causeways[d].sent ∧
         t.fab.causeways[d] = (s.fab.causeways[d]).keep dir i u ∧ (t.fab.causeways[d]).kept dir i = u
     else t.fab.causewayStats = cswStat c 0 1 s.fab.causewayStats ∧ t.out = s.out) := by
  dsimp only
  by_cases relays : path.head? = some c ∧ path.length = 2
  · obtain ⟨d, rfl, ne⟩ : ∃ d, path = [c, d] ∧ d ≠ c := by
      rcases legs with ⟨d, rfl⟩ | ⟨d, e, rfl, ne⟩
      · cases relays.2
      · obtain rfl : d = c := by simpa using relays.1
        exact ⟨e, rfl, ne⟩
    obtain ⟨fab, take, run, others, stats⟩ := cswTake_sent (s := s) (c := c) (dir := cswTo c (legEnd c a)) (b := b)
    have did : cswUnitIn c a [c, d] detour true b s = cswRelay c d (legEnd c a) detour b { s with fab := fab } := by
      rw [← take]
      simp [cswUnitIn]
    obtain ⟨i, u, dir, out, sealed', index, kept, relayed, rest⟩ := cswRelay_of (s := { s with fab := fab }) (c := c) (b := b) (d := d) (at' := legEnd c a) (detour := detour)
    dsimp only at index kept relayed rest
    rw [others d ne] at index kept
    rw [did, if_pos relays]
    refine ⟨(congrArg Causeway.resendRun (rest c ne.symm)).trans run, fun e other off => (rest e (by simp at off; tauto)).trans (others e other), by rw [relayed, stats], d, i, u, dir, out, rfl, sealed', index, kept, ?_⟩
    rw [kept, Causeway.kept_keep]
  · have ends : (if path.head? = some c then path.drop 1 else []) = [] := by
      rcases legs with ⟨d, rfl⟩ | ⟨d, e, rfl, ne⟩
      · simp
      · exact if_neg fun h => relays ⟨h, rfl⟩
    have did : ∃ dir, cswUnitIn c a path detour true b s = cswTake c dir (cswSent c dir b s) := by
      unfold cswUnitIn
      simp only [ends, if_true]
      exact ⟨_, rfl⟩
    obtain ⟨dir, did⟩ := did
    obtain ⟨fab, take, run, others, stats⟩ := cswTake_sent (s := s) (c := c) (dir := dir) (b := b)
    rw [did, take, if_neg relays]
    exact ⟨run, fun d ne _ => others d ne, stats, rfl⟩

/-- A unit whose tag fails is resent as it is kept for replay (R294). -/
theorem cswUnitIn_bad {a : DieId} {path : List (Fin 8)} {detour : Bool} :
    let t := cswUnitIn c a path detour false b s
    ∃ dir, t.fab.causeways[c].resendRun = s.fab.causeways[c].resendRun + 1 ∧ t.fab.causeways[c].next = s.fab.causeways[c].next ∧ bySide dir s.fab.causeways[c].next < bySide dir t.fab.causeways[c].sent ∧
      (bySide dir t.fab.causeways[c].replay).length ≤ max 1024 (bySide dir s.fab.causeways[c].replay).length ∧ t.fab.causewayStats = cswStat c 1 1 s.fab.causewayStats ∧
      t.out = s.out ++ [.cswResend c (bySide dir s.fab.causeways[c].next) ((t.fab.causeways[c]).kept dir (bySide dir s.fab.causeways[c].next))] ∧ ∀ d, d ≠ c → t.fab.causeways[d] = s.fab.causeways[d] := by
  have did : ∃ dir, cswUnitIn c a path detour false b s =
      State.emit { cswSent c dir b s with fab := { (cswSent c dir b s).fab with
        causeways := modVec (cswSent c dir b s).fab.causeways c (fun x => { x with resendRun := x.resendRun + 1 }),
        causewayStats := cswStat c 1 1 (cswSent c dir b s).fab.causewayStats } }
        [.cswResend c (bySide dir (cswSent c dir b s).fab.causeways[c].next) ((cswSent c dir b s).fab.causeways[c].kept dir (bySide dir (cswSent c dir b s).fab.causeways[c].next))] := ⟨_, rfl⟩
  obtain ⟨dir, did⟩ := did
  obtain ⟨x, sent, next, run, ahead, bounded⟩ := cswSent_kept (s := s) (c := c) (dir := dir) (b := b)
  have here : (modVec s.fab.causeways c (fun _ => x))[c] = x := modVec_self ..
  rw [sent] at did
  dsimp only at did
  rw [here, next] at did
  have there : (cswUnitIn c a path detour false b s).fab.causeways[c] = { x with resendRun := x.resendRun + 1 } := by
    rw [did]
    dsimp only [emit_fab]
    rw [modVec_self, here]
  refine ⟨dir, by rw [there, run], by rw [there, next], ?_, ?_, ?_, ?_, fun d ne => ?_⟩
  · rw [there, ← next]
    exact ahead
  · rw [there]
    exact bounded
  · rw [did]
    rfl
  · rw [there, did]
    rfl
  · rw [did]
    dsimp only [emit_fab]
    rw [modVec_other _ _ _ _ ne, modVec_other _ _ _ _ ne]

/-- A die's loss touches no causeway (R295). -/
@[simp] theorem loseDie_fab (d : Fin 4) : (loseDie d s).fab = s.fab := by
  unfold loseDie
  dsimp only
  split <;> rfl

theorem execCausewayFail_of (up : cswUp s c = true) (run : 16 ≤ s.fab.causeways[c].resendRun) :
    ∃ t, exec (.causewayFail c) s = .next t ∧ t.fab = { s.fab with causeways := modVec s.fab.causeways c (fun x => { x with failed := true }) } := by
  have foldl_fab (l : List (Fin 4)) (u : State) : (l.foldl (fun s d => if (cswDies c.val).contains ⟨d.val, by omega⟩ then loseDie d s else s) u).fab = u.fab := by
    induction l generalizing u with
    | nil => rfl
    | cons d l ih =>
      rw [List.foldl_cons, ih]
      split
      · exact loseDie_fab d
      · rfl
  exact ⟨_, need_of (by simpa [up] using run), foldl_fab _ _⟩

theorem causewayUnitReceive_of {a d : DieId} {unit : CswUnit} {path : List (Fin 8)} {detour : Bool} (up : cswUp s c = true) (route : cswPath s a d = some (path, detour)) (on : c ∈ path)
    (whole : unit.bytes.length = 256) : exec (.causewayUnitReceive c a d unit) s = .next (cswUnitIn c a path detour unit.tagOk unit.bytes s) := by
  change execCausewayUnitReceive c a d unit s = _
  unfold execCausewayUnitReceive
  rw [route]
  exact need_of (by simpa [up, whole] using on)

end

/-- Settles O37: each fault of a strait is a change of that strait, the switch of a hop key `setModuleKey_hop` besides; a unit is `cswUnitIn_good` or `cswUnitIn_bad`. -/
theorem laneLinkAndCausewayFaultsAreHandled : Obligations.LaneLinkAndCausewayFaultsAreHandled := by
  refine ⟨fun s k on => ⟨?swap, ?sent, ?retrain, ?down, ?hop⟩, fun s c up => ⟨fun a b unit path detour route leg whole => ⟨?good, ?bad⟩, fun run => ?failed⟩⟩
  case swap =>
    intro lane n spare idle full data
    obtain ⟨here, others⟩ := updStrait_sets k (Strait.swapping lane n) s
    obtain ⟨_, _, swapping, taken⟩ := Strait.swapping_eq lane n s.fab.straits[k]
    rw [swapping] at here
    rw [spare] at taken
    refine ⟨_, laneSwap_of on spare idle full data, rfl, ?_, ?_, (congrArg Strait.link here).trans rfl, (congrArg Strait.width here).trans full, others, rfl⟩ <;> dsimp only [emit_fab] <;> rw [here]
    · exact List.mem_cons_self ..
    · exact taken
  case sent =>
    intro x lane n vc slots key b swap
    have spare : x.swapped.spare = if n ≤ x.txIndex then BitVec.ofNat 8 lane.val else x.spare := by
      rw [Strait.swapped_of lane n x swap]
      split <;> rfl
    exact ⟨spare, (x.sent_replay_last key vc slots b).trans (congrArg some spare)⟩
  case retrain =>
    intro lane second new
    have lost := (updStrait_sets k (fun x => { x with badLanes := lane :: x.badLanes }) s).same (u := laneLost k lane s) rfl
    have run := laneRetrainNarrow_of on second new
    split at run
    · next few =>
      obtain ⟨here, others⟩ := lost.goDown
      have faulty : faultyLanes (goDown k (laneLost k lane s)) k = faultyLanes (laneLost k lane s) k := faultyLanes_congr (by rw [here, lost.here]; rfl) rfl
      refine ⟨_, run, by rw [here]; exact List.mem_cons_self .., congrArg Strait.width here, ?_, others, execLaneRetrainNarrow_within s k lane _ run⟩
      rw [faulty, if_pos few, here]
      rfl
    · next enough =>
      obtain ⟨here, others⟩ := lost.goDown.beginTraining
      have faulty : faultyLanes (beginTraining k (goDown k (laneLost k lane s))) k = faultyLanes (laneLost k lane s) k := faultyLanes_congr (by rw [here, lost.here]; rfl) rfl
      refine ⟨_, run, by rw [here]; exact List.mem_cons_self .., congrArg Strait.width here, ?_, others, execLaneRetrainNarrow_within s k lane _ run⟩
      rw [faulty, if_neg enough, here]
      rfl
  case down =>
    intro cause hc
    obtain ⟨here, others⟩ := (SetsStrait.refl k s).goDown
    refine ⟨_, straitDown_of on hc, congrArg Strait.link here, congrArg Strait.width here, congrArg Strait.replay here, fun v => ?_, alGet_alDel_self _ _, others, goDown_only (.refl _ s) (by decide)⟩
    rw [here]
    exact Vector.getElem_replicate v.isLt
  case hop =>
    intro tx n i old flits found
    dsimp only
    have run : exec (.hopKeyNextGeneration k tx n) s = .next (switchHopKey k tx n s) := need_of (by simp [flits, found])
    obtain ⟨fab, latest, previous, rest⟩ := setModuleKey_hop (u := { s.updStrait k (Strait.switched tx n (nextHopGen k tx s)) with keys := { s.keys with slots := hopSlots i old (nextHopGen k tx s) s } }) found rfl
    rw [← switchHopKey_of found] at fab latest previous rest
    obtain ⟨here, others⟩ := (updStrait_sets k (Strait.switched tx n (nextHopGen k tx s)) s).same (congrArg Fabric.straits fab)
    refine ⟨_, run, here, fun send m => ?_, latest, previous, rest, others, execHopKeyNextGeneration_within s k tx n _ run⟩
    subst send
    rw [here]
    exact Strait.switched_genAt n _ m
  case good =>
    have run := causewayUnitReceive_of (unit := ⟨unit, true⟩) up route leg whole
    obtain ⟨resends, others, sent⟩ := cswUnitIn_good (s := s) (c := c) (b := unit) (a := a) (detour := detour) (cswPath_legs route)
    exact ⟨_, run, resends, others, sent, execCausewayUnitReceive_within s c a b _ _ run⟩
  case bad =>
    have run := causewayUnitReceive_of (unit := ⟨unit, false⟩) up route leg whole
    obtain ⟨dir, resends, next, ahead, bounded, stats, out, others⟩ := cswUnitIn_bad (s := s) (c := c) (b := unit) (a := a) (path := path) (detour := detour)
    exact ⟨_, dir, run, resends, next, ahead, bounded, stats, out, others, execCausewayUnitReceive_within s c a b _ _ run⟩
  case failed =>
    obtain ⟨t, did, fab⟩ := execCausewayFail_of up run
    refine ⟨t, did, ?_, fun d ne => ?_, execCausewayFail_within s c t did⟩ <;> rw [fab]
    · exact congrArg Causeway.failed (modVec_self ..)
    · exact modVec_other _ _ _ _ ne

end Sys2Proof.Machine
end

section
/-!
Packets on their way out (R273, R274, R281, R285): giving a packet to a strait changes the straits, perhaps the count of what could not be routed, and adds outputs; a flow that sends has moved on by one.
-/

namespace Sys2Proof.Machine

/-- A state after packets have left: the straits, the count of unroutable packets and the outputs have changed, and nothing else. -/
def State.sent (s : State) (straits : Vector Strait 18) (n : Nat) (o : List Output) : State := { s with fab := { s.fab with straits := straits, unroutable := n }, out := s.out ++ o }

/-- From `s` to `t` packets have left. -/
def Leaves (s t : State) : Prop := ∃ straits n o, t = s.sent straits n o

section
variable {s t u : State}

theorem Leaves.refl (s : State) : Leaves s s := ⟨s.fab.straits, s.fab.unroutable, [], by simp [State.sent]⟩
theorem Leaves.trans (h : Leaves s t) (g : Leaves t u) : Leaves s u := by
  obtain ⟨_, _, o, rfl⟩ := h
  obtain ⟨straits, n, o', rfl⟩ := g
  exact ⟨straits, n, o ++ o', by simp [State.sent]⟩
theorem Leaves.flows (h : Leaves s t) : t.fab.flows = s.fab.flows := by obtain ⟨_, _, _, rfl⟩ := h; rfl
theorem Leaves.mailbox (h : Leaves s t) : t.fab.mailbox = s.fab.mailbox := by obtain ⟨_, _, _, rfl⟩ := h; rfl
theorem Leaves.hostWaits (h : Leaves s t) : t.fab.hostWaits = s.fab.hostWaits := by obtain ⟨_, _, _, rfl⟩ := h; rfl
theorem Leaves.out (h : Leaves s t) : ∃ o, t.out = s.out ++ o := by obtain ⟨_, _, o, rfl⟩ := h; exact ⟨o, rfl⟩
theorem Leaves.only {gs : List Group} (h : Leaves s t) (ho : OnlyTouches gs u s) (out : Group.out ∈ gs) (fab : Group.fab ∈ gs) : OnlyTouches gs u t := by
  obtain ⟨_, _, _, rfl⟩ := h
  refine Eq.trans ?_ ho
  simp only [State.sent, State.hide, if_pos out, if_pos fab]

theorem updStrait_leaves (k : StraitId) (f : Strait → Strait) (s : State) : Leaves s (s.updStrait k f) := ⟨modVec s.fab.straits k f, s.fab.unroutable, [], by simp [State.sent, State.updStrait]⟩
theorem emit_leaves (s : State) (o : List Output) : Leaves s (s.emit o) := ⟨_, _, o, rfl⟩
theorem sendFlit_leaves (k : StraitId) (vc slots : Nat) (b : Option Bytes) (s : State) : Leaves s (sendFlit k vc slots b s) := updStrait_leaves _ _ _
theorem pump_leaves (k : StraitId) (n : Nat) (s : State) : Leaves s (pump k n s) := by
  induction n generalizing s with
  | zero => exact .refl s
  | succ n ih =>
    unfold pump
    split
    · exact .refl s
    · split
      · exact .refl s
      · exact ((updStrait_leaves _ _ _).trans ((sendFlit_leaves _ _ _ _ _).trans (emit_leaves _ _))).trans (ih _)
theorem sendOn_leaves (k : StraitId) (w : Waiting) (s : State) : Leaves s (sendOn k w s) := by
  unfold sendOn drainQueue
  split
  · exact (updStrait_leaves _ _ _).trans (pump_leaves _ _ _)
  · exact updStrait_leaves _ _ _
theorem routePkt_leaves (o : OutPkt) (again : Bool) (x : Flow) (s : State) : Leaves s (routePkt o again x s) := by
  unfold routePkt
  split
  · exact emit_leaves _ _
  · split
    · exact sendOn_leaves _ _ _
    · split
      · exact ⟨s.fab.straits, s.fab.unroutable + 1, [], by simp [State.sent]⟩
      · exact .refl s

/-- A packet that is sent is kept on its flow until it is acknowledged. -/
theorem sendPktHops_leaves {f : Nat} {z : Flow} (flow : getFlow u f = some z) (opened : z.state = .opened) (able : u.fab.idInForce ≠ 0xFFFF ∨ f < 18) (hops cls op csf : Nat) (payload : Bytes) :
    Leaves (setFlow f (z.withSent (mkPkt u f z hops cls op csf payload) (frameNow u)) u) (sendPktHops hops f cls op csf payload u) := by
  unfold sendPktHops
  rw [flow]
  dsimp only
  rw [if_pos ⟨opened, able⟩]
  exact routePkt_leaves _ _ _ _
theorem sendPkt_leaves {f : Nat} {z : Flow} (flow : getFlow u f = some z) (opened : z.state = .opened) (able : u.fab.idInForce ≠ 0xFFFF ∨ f < 18) (cls op csf : Nat) (payload : Bytes) :
    Leaves (setFlow f (z.withSent (mkPkt u f z 16 cls op csf payload) (frameNow u)) u) (sendPkt f cls op csf payload u) := sendPktHops_leaves flow opened able 16 cls op csf payload

end

end Sys2Proof.Machine
end

section
/-!
Settles O14: GO of a mailbox slot. A request for the ferry is the dictionary's own message (`message_answered`), whose response makes the slot DONE; one for another device goes out on the host flow (`sendPkt_leaves`), and its response lands in the slot.
-/

namespace Sys2Proof.Machine

/-! A read outside a session that comes by the mailbox (R554, R555). -/

section
variable {s : State} {m : DictMsg}

/-- A read is always answered. -/
theorem doRead_answers (m : DictMsg) (s : State) : ∃ r, (doRead m s).2 = some r := by
  unfold doRead readFrom
  split <;> exact ⟨_, rfl⟩
theorem doRead_out (m : DictMsg) (s : State) : (doRead m s).1.out = s.out := by
  unfold doRead readFrom hold
  split
  · split <;> rfl
  · rfl

theorem sbFrame_mailbox (mailbox : m.route = .mailbox) (i n : Nat) : sbFrame m i n s = s := if_neg (by simp [mailbox])
theorem respond_out (mailbox : m.route = .mailbox) (st : Status) (more : Bool) (data : Bytes) : ∃ b, (respond m st more data s).out = s.out ++ [.response m.sid m.src m.reqId st more b] := by
  unfold respond respondSeq
  dsimp only
  rw [sbFrame_mailbox mailbox]
  exact ⟨_, rfl⟩

/-- A message outside a session runs, and its answer is its response. -/
theorem message_answered {op : Nat} {f : State → State × Reply} (mailbox : m.route = .mailbox) (here : forHere s m) (sessionless : m.sid = 0) (form : msgForm op m)
    (answers : ∀ u, ∃ r, (f u).2 = some r) (quiet : ∀ u, (f u).1.out = u.out) : ∃ st more b, (message op m f s).out = s.out ++ [.response 0 m.src m.reqId st more b] := by
  have run : message op m f s = runMsg m f s := by
    unfold message
    rw [sbFrame_mailbox mailbox]
    simp [here, form, sessionless]
  obtain ⟨⟨st, more, data⟩, hr⟩ := answers { s with dict := { s.dict with counters := bump s.dict.counters 2 1 } }
  obtain ⟨b, out⟩ := respond_out (s := (f { s with dict := { s.dict with counters := bump s.dict.counters 2 1 } }).1) mailbox st more data
  rw [run]
  unfold runMsg
  dsimp only
  rw [hr]
  exact ⟨st, more, b, by rw [out, quiet, sessionless]⟩

end

/-! GO of a slot (R298, R565). -/

section
variable {s : State} {k : StraitId} {slot : Fin 16} {op : Byte} {m : DictMsg} {back : Option Bytes} (up : hostUp s k = true) (reach : reachable s = true)
include up reach

theorem mailboxGo_ide (ide : s.fab.straits[k].ide = true) : exec (.mailboxGo k slot op ⟨m, back⟩) s = .next (mailGo k slot op.toNat m back s) :=
  (need_of (Bool.and_eq_true_iff.mpr ⟨up, reach⟩)).trans (congrArg Host.Outcome.next (if_pos ide))
theorem mailboxGo_plain (ide : s.fab.straits[k].ide = false) : exec (.mailboxGo k slot op ⟨m, back⟩) s = .next (s.emit [.hostUnsupported k]) :=
  (need_of (Bool.and_eq_true_iff.mpr ⟨up, reach⟩)).trans (congrArg Host.Outcome.next (if_neg (by rw [ide]; exact Bool.false_ne_true)))
theorem mailboxGo_away (ide : s.fab.straits[k].ide = true) (away : forHere s m = false) :
    exec (.mailboxGo k slot op ⟨m, back⟩) s = .next (mailAway k slot op.toNat { m with route := .mailbox } back s) := by
  refine (mailboxGo_ide up reach ide).trans (congrArg Host.Outcome.next (if_neg ?_))
  exact ne_true_of_eq_false away

end

section
variable {s : State} {k : StraitId} {slot : Fin 16} {op : Nat} {m : DictMsg}

/-- A request that has left: its slot is DONE where the answer is back, and waits for it otherwise. -/
def mailLeft (k : StraitId) (slot : Fin 16) (m : DictMsg) (t : State) : Option Bytes → State
  | some b => mailDone k slot .done (t.emit [.mailboxData k slot b])
  | none => { t with fab := { t.fab with mailbox := (k, slot, m.reqId, m.dest) :: t.fab.mailbox.filter (fun x => !(x.1 = k && x.2.1 = slot)) } }

/-- A read for the ferry itself is answered, and its slot is DONE. -/
theorem mailGo_read (here : forHere s m) (sessionless : m.sid = 0) (form : msgForm 1 m) (back : Option Bytes) : ∃ st more b,
    (mailGo k slot 1 m back s).out = s.out ++ [.response 0 m.src m.reqId st more b, .mailboxDone k slot .done (1 + slot.val % 7)] ∧ OnlyTouches [.out, .dict] s (mailGo k slot 1 m back s) := by
  obtain ⟨st, more, b, out⟩ := message_answered (s := s) (m := { m with route := .mailbox }) (op := 1) (f := doRead { m with route := .mailbox }) rfl here sessionless form (doRead_answers _) (doRead_out _)
  have only : OnlyTouches [.out, .dict] s (message 1 { m with route := .mailbox } (doRead { m with route := .mailbox }) s) :=
    message_only (fun u hu => doRead_only hu (by decide)) (.refl _ s) (by decide) (by decide)
  have run : mailGo k slot 1 m back s = mailDone k slot .done (message 1 { m with route := .mailbox } (doRead { m with route := .mailbox }) s) := by
    refine (if_pos here).trans (if_neg ?_)
    change ¬(message 1 { m with route := .mailbox } (doRead { m with route := .mailbox }) s).out.length = s.out.length
    rw [out]
    simp
  rw [run]
  refine ⟨st, more, b, ?_, State_emit_only only (by decide)⟩
  rw [mailDone, emit_out, out, List.append_assoc]
  rfl

variable {f : Nat} {x : Flow} (found : findFlow s 0x40 m.dest 8 none = some f) (flow : getFlow s f = some x) (opened : x.state = .opened) (named : s.fab.idInForce ≠ 0xFFFF)
include found flow opened named

/-- A request for another device leaves on the host flow. -/
theorem mailAway_sends (back : Option Bytes) : ∃ t y, Leaves (setFlow f y s) t ∧ y.txPsn = x.txPsn + 1 ∧ mailAway k slot op m back s = mailLeft k slot m t back := by
  refine ⟨_, _, sendPkt_leaves flow opened (.inl named) 8 0 (m.reqId.toNat * 2 ^ 64) (pad32 (msgHeader op m ++ m.data)), rfl, ?_⟩
  unfold mailAway
  rw [found]
  cases back <;> rfl

end

/-- Settles O14: before IDE the access is refused; a request is executed here (`mailGo_read`), has no way (`mailAway`), or leaves on the host flow (`mailAway_sends`). -/
theorem mailboxRequestsAreCarried : Obligations.MailboxRequestsAreCarried := by
  intro s k slot m back up reach
  refine ⟨fun ide here sessionless start form => ?_, fun op ide away none' => ?_, fun op f x ide away named found flow opened => ⟨?_, fun b => ?_⟩, fun op ide => mailboxGo_plain up reach ide⟩
  · obtain ⟨st, more, b, out, only⟩ := mailGo_read (k := k) (slot := slot) here sessionless form back
    exact ⟨_, st, more, b, mailboxGo_ide up reach ide, out, only⟩
  · refine (mailboxGo_away up reach ide away).trans ?_
    unfold mailAway
    dsimp only
    rw [none']
    rfl
  · obtain ⟨t, y, left, psn, did⟩ := mailAway_sends (k := k) (slot := slot) (op := op.toNat) (m := { m with route := .mailbox }) found flow opened named none
    have flows := left.flows
    have only := left.only (setFlow_only (.refl _ s) (by decide)) (show Group.out ∈ [Group.out, .fab] by decide) (by decide)
    refine ⟨_, y, (mailboxGo_away up reach ide away).trans (congrArg Host.Outcome.next did), ?_, psn, List.mem_cons_self .., ?_⟩
    · exact (congrArg (alGet f) flows).trans (alGet_alSet_self _ _ _)
    · exact only.trans rfl
  · obtain ⟨t, y, left, psn, did⟩ := mailAway_sends (k := k) (slot := slot) (op := op.toNat) (m := { m with route := .mailbox }) found flow opened named (some b)
    obtain ⟨o, out⟩ := left.out
    refine ⟨_, y, o, (mailboxGo_away up reach ide away).trans (congrArg Host.Outcome.next did), ?_, psn, ?_, left.mailbox, ?_⟩
    · exact (congrArg (alGet f) left.flows).trans (alGet_alSet_self _ _ _)
    · change t.out ++ _ ++ _ = _
      rw [out]
      simp
    · exact State_emit_only (State_emit_only (left.only (setFlow_only (.refl _ s) (by decide)) (by decide) (by decide)) (by decide)) (by decide)

end Sys2Proof.Machine
end

section
/-!
Settles O40: what ends a read that waits for its home.
-/

namespace Sys2Proof.Machine

/-! A packet that is taken, where its effect leaves the flows as they are. -/

section
variable {s : State} {p : Pkt} {cls op len : Nat} {x : Flow}

/-- A packet in order whose effect changes no flow: it is acknowledged last, and its flow has moved on. -/
theorem takenLeavingFlows (h : Arrives s p cls x) (eff : State → State) (flows : (eff (afterTaking p cls op len x s)).fab.flows = (afterTaking p cls op len x s).fab.flows) :
    ∃ fab, onStrait p s (recvPkt p cls op len true eff s) =
        .next { eff (afterTaking p cls op len x s) with fab := fab, out := (eff (afterTaking p cls op len x s)).out ++ [.ack p.flow p.psn] } ∧
      alGet p.flow fab.flows = some (x.took p (frameNow s)) ∧ ∀ f, f ≠ p.flow → alGet f fab.flows = getFlow s f := by
  obtain ⟨fab, same, ack⟩ := sendAck_eq (eff (afterTaking p cls op len x s)) p.flow p.psn
  refine ⟨fab, by rw [onStrait_takes h, ack], ?_, fun f ne => ?_⟩ <;> rw [same, flows]
  · exact getFlow_afterTaking
  · exact getFlow_afterTaking_other ne

/-- Taking a packet makes no host read wait that did not. -/
theorem hostWaitOf_afterTaking {f : Nat} {tag : Byte} (none' : hostWaitOf s f tag = false) : hostWaitOf (afterTaking p cls op len x s) f tag = false := by
  unfold hostWaitOf at none' ⊢
  rw [List.any_eq_false] at none' ⊢
  exact fun h mem => none' h (List.mem_of_mem_filter mem)

theorem waitOf_afterTaking (f : Nat) (tag : Byte) : waitOf (afterTaking p cls op len x s) f tag = waitOf s f tag := by
  unfold waitOf
  rw [afterTaking_mem]

/-- What taking a packet puts out: the host reads that complete. -/
theorem afterTaking_out : ∃ a, (afterTaking p cls op len x s).out = s.out ++ a := ⟨_, rfl⟩

end

/-! A waiting read that ends. -/

theorem finishWait_ends (w : WaitRead) (data : Option Sector) (st : Status) (s : State) :
    ∃ mem, finishWait w data st s = { s with mem := mem, out := s.out ++ [.sectorData w.part w.va data st] } ∧ mem.waits = s.mem.waits.erase w := ⟨_, rfl, rfl⟩

/-- The sector sealed under the read's generation is delivered as its plaintext. -/
theorem dataWait_opens {s : State} {w : WaitRead} {l : Leaf} {base : Bytes} (d : Sector) (leaf : s.vm.leaf w.part w.va = some l) (gen : (s.vm.region w.part (pageOf w.va)).gen = w.gen)
    (key : s.vm.baseKey w.part l (s.vm.region w.part (pageOf w.va)).epoch.toNat = some base) :
    dataWait w (sealSector (kmat base (pageOf w.va) w.gen (s.vm.region w.part (pageOf w.va)).epoch.toNat) (lbnOf w.va) w.ctr d) s = finishWait w (some d) .done s := by
  unfold dataWait
  dsimp only
  rw [if_pos gen.symm, leaf, Option.bind_some, key]
  dsimp only
  rw [openSector_sealSector]

/-- A read that fails, its sector not found uncorrectable, ends with the status; the reads beside it wait on, and no flow changes. -/
theorem failWait_ends (w : WaitRead) {st : Status} (s : State) (other : st ≠ .uncorrectable) :
    (failWait w st s).out = s.out ++ [.sectorData w.part w.va none st] ∧ (failWait w st s).mem.waits = s.mem.waits.erase w ∧ (failWait w st s).fab = s.fab := by
  unfold failWait
  rw [if_neg other]
  dsimp only
  split <;> exact ⟨rfl, rfl, rfl⟩

/-! Every read of a sector ends. -/

/-- One read of a sector that ends with the others. -/
def VM.endWait (p : PartId) (st : Status) (v : VM) (w : WaitRead) : VM :=
  let r := v.region p (pageOf w.va)
  let r := if r.rekeying ∧ w.gen + 1 = r.gen then { r with inFlightOld := r.inFlightOld - 1 } else { r with inFlight := r.inFlight - 1 }
  let v := v.setRegion p (pageOf w.va) r
  { v with mem := { v.mem with waits := v.mem.waits.erase w }, out := v.out ++ [.sectorData p w.va none st] }

/-- The read waits on the sector of an address. -/
def WaitRead.sameSector (p : PartId) (va : Nat) (w : WaitRead) : Bool := w.part = p && w.va / 256 = va / 256

theorem VM.endWaits_eq (p : PartId) (va : Nat) (st : Status) (v : VM) : v.endWaits p va st = (v.mem.waits.filter (WaitRead.sameSector p va)).foldl (VM.endWait p st) v := rfl

theorem VM.foldl_endWait (p : PartId) (st : Status) (l : List WaitRead) (v : VM) :
    (l.foldl (VM.endWait p st) v).mem.waits = v.mem.waits.diff l ∧ (l.foldl (VM.endWait p st) v).parts = v.parts := by
  induction l generalizing v with
  | nil => exact ⟨rfl, rfl⟩
  | cons w l ih =>
    rw [List.diff_cons]
    exact ih (VM.endWait p st v w)

/-- What is left of a list without the members that meet a test meets it not. -/
theorem mem_diff_filter {α : Type} [DecidableEq α] {l : List α} {t : α → Bool} {a : α} (h : a ∈ l.diff (l.filter t)) : a ∈ l ∧ t a = false := by
  refine ⟨List.diff_subset _ _ h, Bool.eq_false_iff.mpr fun meets => ?_⟩
  have left := List.count_pos_iff.mpr h
  rw [List.count_diff, List.count_filter meets, Nat.sub_self] at left
  exact absurd left (Nat.lt_irrefl 0)

theorem VM.endWaits_leaves (p : PartId) (va : Nat) (st : Status) (v : VM) :
    (∀ w ∈ (v.endWaits p va st).mem.waits, w ∈ v.mem.waits ∧ w.sameSector p va = false) ∧ (v.endWaits p va st).parts = v.parts := by
  rw [VM.endWaits_eq]
  obtain ⟨waits, parts⟩ := VM.foldl_endWait p st (v.mem.waits.filter (WaitRead.sameSector p va)) v
  refine ⟨fun w mem => ?_, parts⟩
  rw [waits] at mem
  exact mem_diff_filter mem

/-- A line that its lender found uncorrectable is POISONED, and no read of the sector waits on. -/
theorem VM.markPoisoned_uncorrectable (p : PartId) (va : Nat) (v : VM) :
    (∀ w ∈ (v.markPoisoned p va .uncorrectable).mem.waits, w ∈ v.mem.waits ∧ w.sameSector p va = false) ∧
      (v.markPoisoned p va .uncorrectable).parts[p].poisonedSectors = v.parts[p].poisonedSectors + 1 := by
  unfold VM.markPoisoned
  obtain ⟨waits, parts⟩ := VM.endWaits_leaves p va .uncorrectable
    ((((({ v with mem := setCtr v.keys (v.region p (pageOf va)) (sectorOf va) 0xFFFF v.mem }).updPart p (fun x => { x with poisonedSectors := x.poisonedSectors + 1 })).stat 2 1).audit
      (auditOf 1 .uncorrectable p.val (va / 256 * 256) 256 (detail := (v.region p (pageOf va)).slot / 16384))).event p .uncorrectable)
  refine ⟨waits, ?_⟩
  dsimp only
  rw [parts]
  unfold VM.event VM.audit VM.stat VM.updPart
  dsimp only
  rw [modVec_self, modVec_self]
  rfl

/-! The packets. -/

section
variable {s : State} {p : Pkt} {tag : Byte} {x : Flow}

section
variable (h : Arrives s p 1 x) {w : WaitRead} (notHost : hostWaitOf s p.flow tag = false) (waits : waitOf s p.flow tag = some w)
include h notHost waits

theorem memrdData_delivers {l : Leaf} {base : Bytes} (d : Sector) (leaf : s.vm.leaf w.part w.va = some l) (gen : (s.vm.region w.part (pageOf w.va)).gen = w.gen)
    (key : s.vm.baseKey w.part l (s.vm.region w.part (pageOf w.va)).epoch.toNat = some base) :
    ∃ t, exec (.memrdData p 0 tag [sealSector (kmat base (pageOf w.va) w.gen (s.vm.region w.part (pageOf w.va)).epoch.toNat) (lbnOf w.va) w.ctr d]) s = .next t ∧
      t.out = (afterTaking p 1 1 (sectorsLen 1) x s).out ++ [.sectorData w.part w.va (some d) .done, .ack p.flow p.psn] ∧ t.mem.waits = s.mem.waits.erase w ∧
      getFlow t p.flow = some (x.took p (frameNow s)) ∧ OnlyTouches [.out, .mem, .fab] s t := by
  let y := sealSector (kmat base (pageOf w.va) w.gen (s.vm.region w.part (pageOf w.va)).epoch.toNat) (lbnOf w.va) w.ctr d
  let u := afterTaking p 1 1 (sectorsLen 1) x s
  have opened : takeData p.flow 0 tag [y] u = finishWait w (some d) .done u := by
    unfold takeData
    rw [if_neg (Bool.eq_false_iff.mp (hostWaitOf_afterTaking notHost)), (waitOf_afterTaking p.flow tag).trans waits]
    exact dataWait_opens (s := u) d leaf gen key
  obtain ⟨mem, ended, left⟩ := finishWait_ends w (some d) .done u
  have does := opened.trans ended
  obtain ⟨fab, run, flow, -⟩ := takenLeavingFlows (op := 1) (len := sectorsLen 1) h (takeData p.flow 0 tag [y]) (congrArg (fun t => t.fab.flows) does)
  rw [show takeData p.flow 0 tag [y] (afterTaking p 1 1 (sectorsLen 1) x s) = _ from does] at run
  exact ⟨_, run, List.append_assoc _ _ _, left, flow, rfl⟩

theorem memrdError_ends {st : Byte} {c : Status} (code : Status.ofCode st.toNat = some c) (other : c ≠ .uncorrectable) :
    ∃ t a, exec (.memrdError p st tag) s = .next t ∧ t.out = s.out ++ a ++ [.sectorData w.part w.va none c, .ack p.flow p.psn] ∧ t.mem.waits = s.mem.waits.erase w ∧
      getFlow t p.flow = some (x.took p (frameNow s)) := by
  let u := afterTaking p 1 2 0 x s
  have does : takeError p.flow st tag u = failWait w c u := by
    unfold takeError
    rw [if_neg (Bool.eq_false_iff.mp (hostWaitOf_afterTaking notHost)), (waitOf_afterTaking p.flow tag).trans waits, code]
    rfl
  obtain ⟨out, left, fab'⟩ := failWait_ends w u other
  obtain ⟨a, flushed⟩ := afterTaking_out (s := s) (p := p) (cls := 1) (op := 2) (len := 0) (x := x)
  obtain ⟨fab, run, flow, -⟩ := takenLeavingFlows (op := 2) (len := 0) h (takeError p.flow st tag) (by rw [does, fab'])
  refine ⟨_, a, run, ?_, ?_, flow⟩
  · show (takeError p.flow st tag u).out ++ _ = _
    rw [does, out, flushed]
    exact List.append_assoc _ _ _
  · exact (congrArg (fun t => t.mem.waits) does).trans left

theorem memrdError_poisons {st : Byte} (code : Status.ofCode st.toNat = some .uncorrectable) :
    ∃ t, exec (.memrdError p st tag) s = .next t ∧ (∀ y ∈ t.mem.waits, y ∈ s.mem.waits ∧ (y.part ≠ w.part ∨ y.va / 256 ≠ w.va / 256)) ∧
      t.parts[w.part].poisonedSectors = s.parts[w.part].poisonedSectors + 1 ∧ getFlow t p.flow = some (x.took p (frameNow s)) := by
  let u := afterTaking p 1 2 0 x s
  have does : takeError p.flow st tag u = u.putVM (u.vm.markPoisoned w.part w.va .uncorrectable) := by
    unfold takeError
    rw [if_neg (Bool.eq_false_iff.mp (hostWaitOf_afterTaking notHost)), (waitOf_afterTaking p.flow tag).trans waits, code]
    rfl
  obtain ⟨left, poisoned⟩ := VM.markPoisoned_uncorrectable w.part w.va u.vm
  obtain ⟨fab, run, flow, -⟩ := takenLeavingFlows (op := 2) (len := 0) h (takeError p.flow st tag) (congrArg (fun t => t.fab.flows) does)
  refine ⟨_, run, fun y mem => ?_, (congrArg (fun t => t.parts[w.part].poisonedSectors) does).trans poisoned, flow⟩
  have still : y ∈ (u.vm.markPoisoned w.part w.va .uncorrectable).mem.waits := (congrArg (fun t => t.mem.waits) does) ▸ mem
  obtain ⟨was, elsewhere⟩ := left y still
  refine ⟨was, ?_⟩
  simpa only [WaitRead.sameSector, Bool.and_eq_false_iff, decide_eq_false_iff_not] using elsewhere

end

section
variable (h : Arrives s p 3 x) (y : StoredSector)
include h

theorem atomicResult_unawaited (st : Byte) (not : (p.flow, tag.toNat) ∉ s.mem.casWaits) :
    ∃ t, exec (.atomicResult p st tag y) s = .next t ∧ t.out = (afterTaking p 3 1 (sectorsLen 1) x s).out ++ [.ack p.flow p.psn] ∧ getFlow t p.flow = some (x.took p (frameNow s)) ∧
      (∀ f, f ≠ p.flow → getFlow t f = getFlow s f) ∧ OnlyTouches [.out, .fab] s t := by
  let u := afterTaking p 3 1 (sectorsLen 1) x s
  have does : takeCas p st tag u = u := if_neg (fun c => not (List.contains_iff_mem.mp c))
  obtain ⟨fab, run, flow, others⟩ := takenLeavingFlows (op := 1) (len := sectorsLen 1) h (takeCas p st tag) (congrArg (fun t => t.fab.flows) does)
  rw [show takeCas p st tag (afterTaking p 3 1 (sectorsLen 1) x s) = u from does] at run
  exact ⟨_, run, rfl, flow, others, rfl⟩

theorem atomicResult_awaited (waits : (p.flow, tag.toNat) ∈ s.mem.casWaits) :
    ∃ t, exec (.atomicResult p 0 tag y) s = .next t ∧ t.mem.casWaits = s.mem.casWaits.erase (p.flow, tag.toNat) ∧ t.mem.waits = s.mem.waits ∧
      getFlow t p.flow = some (x.took p (frameNow s)) ∧ OnlyTouches [.out, .mem, .fab] s t := by
  let u := afterTaking p 3 1 (sectorsLen 1) x s
  have does : takeCas p 0 tag u = { u with mem := { u.mem with casWaits := u.mem.casWaits.erase (p.flow, tag.toNat) } } :=
    (if_pos (List.contains_iff_mem.mpr waits)).trans (if_pos rfl)
  obtain ⟨fab, run, flow, -⟩ := takenLeavingFlows (op := 1) (len := sectorsLen 1) h (takeCas p 0 tag) (congrArg (fun t => t.fab.flows) does)
  rw [show takeCas p 0 tag (afterTaking p 3 1 (sectorsLen 1) x s) = _ from does] at run
  exact ⟨_, run, rfl, rfl, flow, rfl⟩

end

end

/-- Settles O40: `takenLeavingFlows` for the packet, `finishWait_ends`, `failWait_ends` and `VM.markPoisoned_uncorrectable` for the reads that end. -/
theorem waitingReadsEndWithTheirAnswer : Obligations.WaitingReadsEndWithTheirAnswer := by
  refine fun s p tag x => ⟨fun w l base d h notHost waits leaf gen key => ?_, fun w st c h notHost waits code other => ?_, fun w st h notHost waits code => ?_, fun st y h not => ?_, fun y h waits => ?_⟩
  · exact memrdData_delivers h notHost waits d leaf gen key
  · exact memrdError_ends h notHost waits code other
  · exact memrdError_poisons h notHost waits code
  · exact atomicResult_unawaited h y st not
  · exact atomicResult_awaited h y waits

end Sys2Proof.Machine
end

section
/-!
Settles O41: packets that are not taken store nothing, and flows keep their order, retry, and are lost.
-/

namespace Sys2Proof.Machine

/-! A packet that is not taken (R284, R288, R290). -/

section
variable {s : State} {p : Pkt} {cls : Nat} {x : Flow} (eff : State → State) (flow : getFlow s p.flow = some x)
include flow

/-- A packet for a revoked context is only counted. -/
theorem deliverPkt_revoked (revoked : x.state = .revoked) (ok : Bool) : deliverPkt p cls ok eff s = dropRevoked x s := by
  unfold deliverPkt
  rw [flow]
  exact if_pos revoked

variable (opened : x.state = .opened) (plain : p.reserved = 0) (known : p.stray = false) (allowed : cls ∈ x.classes)
include opened plain known allowed

theorem deliverPkt_badTag (bad : p.tagOk = false ∨ x.holds p = false) : deliverPkt p cls true eff s = tagFailed p x s := by
  unfold deliverPkt
  simp [flow, opened, plain, known, allowed, bad]

variable (tag : p.tagOk = true) (keyed : x.holds p = true)
include tag keyed

/-- A packet before its turn counts for what it acknowledges. -/
theorem deliverPkt_ahead (ahead : x.rxPsn < p.psn) : deliverPkt p cls true eff s = flushHost (setFlow p.flow (x.takeAck p) s) := by
  unfold deliverPkt
  simp [flow, opened, plain, known, allowed, tag, keyed, Nat.ne_of_gt ahead, Nat.not_lt.mpr (Nat.le_of_lt ahead)]

/-- A packet that has been taken before is acknowledged again. -/
theorem deliverPkt_behind (behind : p.psn < x.rxPsn) : deliverPkt p cls true eff s = sendAck p.flow (x.rxPsn - 1) (flushHost (setFlow p.flow (x.takeAck p) s)) := by
  unfold deliverPkt
  simp [flow, opened, plain, known, allowed, tag, keyed, Nat.ne_of_lt behind, behind]

end

theorem recvPkt_mine {s : State} {p : Pkt} (mine : forMe s p = true) (cls op len : Nat) (ok : Bool) (eff : State → State) :
    recvPkt p cls op len ok eff s = deliverPkt p cls ok eff (returnSlots p.strait (vcOf cls op) (slotsOf len) s) := if_pos mine

theorem onStrait_up {s : State} {p : Pkt} (hub : hubUp s = true) (up : s.fab.straits[p.strait].link = .up) (t : State) : onStrait p s t = .next t :=
  need_of (Bool.and_eq_true_iff.mpr ⟨hub, decide_eq_true up⟩)

theorem tagFailed_counts (p : Pkt) (x : Flow) (s : State) : (tagFailed p x s).fab.tagFailures = s.fab.tagFailures + 1 ∧ (tagFailed p x s).mem = s.mem ∧ (tagFailed p x s).out = s.out := by
  unfold tagFailed
  dsimp only
  split <;> exact ⟨rfl, rfl, rfl⟩

theorem dropRevoked_counts (x : Flow) (s : State) : (dropRevoked x s).fab.keyRevoked = s.fab.keyRevoked + 1 ∧ (dropRevoked x s).mem = s.mem ∧ (dropRevoked x s).out = s.out := by
  unfold dropRevoked
  dsimp only
  split <;> exact ⟨rfl, rfl, rfl⟩

/-! An acknowledgement, and a retry. -/

/-- An acknowledgement of what the flow has sent ends what it covers. -/
theorem Flow.takeAck_covers {p : Pkt} {x : Flow} (valid : p.ackValid = true) (new : x.ackedPsn ≤ p.ackPsn) (sent : p.ackPsn < x.txPsn) :
    (x.takeAck p).ackedPsn = p.ackPsn ∧ (x.takeAck p).unacked = x.unacked.filter (fun o => p.ackPsn < o.psn) := by
  unfold Flow.takeAck
  rw [if_pos ⟨valid, new, sent⟩]
  exact ⟨rfl, rfl⟩

theorem takePureAck_takes {s : State} {p : Pkt} {cls : Nat} {x : Flow} (mine : forMe s p = true) (flow : getFlow s p.flow = some x) (opened : x.state = .opened) (plain : p.reserved = 0)
    (known : p.stray = false) (allowed : cls ∈ x.classes) (valid : p.ackValid = true) (tag : p.tagOk = true) (keyed : x.holds p = true) :
    takePureAck p cls s = flushHost (setFlow p.flow (x.takeAck p) (returnSlots p.strait (if p.flow < 18 then 0 else vcOf cls 15) 1 s)) := by
  have here : forMe (returnSlots p.strait (if p.flow < 18 then 0 else vcOf cls 15) 1 s) p = true := mine
  have flow' : getFlow (returnSlots p.strait (if p.flow < 18 then 0 else vcOf cls 15) 1 s) p.flow = some x := flow
  unfold takePureAck
  simp [here, flow', opened, plain, known, allowed, valid, tag, keyed]

theorem foldl_routePkt_leaves (again : Bool) (x : Flow) (l : List OutPkt) (s : State) : Leaves s (l.foldl (fun s o => routePkt o again x s) s) := by
  induction l generalizing s with
  | nil => exact .refl s
  | cons o l ih => exact (routePkt_leaves o again x s).trans (ih _)

/-! A flow that is lost (R288): the operations on it end, and no other flow changes. -/

/-- From `s` to `t` operations that waited on a flow have ended: the flows and the alerts stand. -/
structure EndsOps (s t : State) : Prop where
  flows : t.fab.flows = s.fab.flows
  alerts : t.dict.alerts = s.dict.alerts

section
variable {s t u : State}

theorem EndsOps.refl (s : State) : EndsOps s s := ⟨rfl, rfl⟩
theorem EndsOps.trans (h : EndsOps s t) (g : EndsOps t u) : EndsOps s u := ⟨g.flows.trans h.flows, g.alerts.trans h.alerts⟩

theorem failWait_endsOps (w : WaitRead) {st : Status} (other : st ≠ .uncorrectable) (s : State) : EndsOps s (failWait w st s) := by
  unfold failWait
  rw [if_neg other]
  dsimp only
  split <;> exact ⟨rfl, rfl⟩
theorem foldl_failWait_endsOps {st : Status} (other : st ≠ .uncorrectable) (l : List WaitRead) (s : State) : EndsOps s (l.foldl (fun s w => failWait w st s) s) := by
  induction l generalizing s with
  | nil => exact .refl s
  | cons w l ih => exact (failWait_endsOps w other s).trans (ih _)
theorem VM.foldl_audit_dict {α : Type} (e : AuditEntry) (l : List α) (v : VM) : (l.foldl (fun v _ => v.audit e) v).dict = v.dict := by
  induction l generalizing v with
  | nil => rfl
  | cons _ l ih => exact ih (v.audit e)
theorem endSends_endsOps (x : Flow) (st : Status) (s : State) : EndsOps s (endSends x st s) := by
  unfold endSends
  split
  · exact .refl s
  · refine ⟨rfl, ?_⟩
    have dict := congrArg Dict.alerts (VM.foldl_audit_dict (auditOf 1 st ((flowPart s x).elim 0x40 (·.val)) 0 0 (device := x.peer.toNat)) (x.unacked.filter (fun o => o.cls = 2 || o.cls = 3)) s.vm)
    split <;> exact dict
theorem endFlowOps_endsOps (f : Nat) (x : Flow) {st : Status} (other : st ≠ .uncorrectable) (s : State) : EndsOps s (endFlowOps f x st s) := by
  unfold endFlowOps
  have reads := foldl_failWait_endsOps other (s.mem.waits.filter (fun w => w.flow = f)) s
  have sends := endSends_endsOps x st { (s.mem.waits.filter (fun w => w.flow = f)).foldl (fun s w => failWait w st s) s with
    mem := { ((s.mem.waits.filter (fun w => w.flow = f)).foldl (fun s w => failWait w st s) s).mem with
      casWaits := ((s.mem.waits.filter (fun w => w.flow = f)).foldl (fun s w => failWait w st s) s).mem.casWaits.filter (fun c => c.1 ≠ f) } }
  have all := reads.trans ⟨sends.flows, sends.alerts⟩
  dsimp only
  split <;> exact ⟨all.flows, all.alerts⟩

end

theorem loseFlow_loses {s : State} (f : Nat) (x : Flow) {st : Status} (other : st ≠ .uncorrectable) :
    (∃ y, getFlow (loseFlow f x st s) f = some y ∧ y.state = .lost ∧ y.lastStatus = BitVec.ofNat 8 st.code ∧ y.unacked = []) ∧
      (∀ k, k ≠ f → getFlow (loseFlow f x st s) k = getFlow s k) ∧ (loseFlow f x st s).dict.alerts = s.dict.alerts := by
  have ends := endFlowOps_endsOps f x other
    (setFlow f { x with state := .lost, lastStatus := BitVec.ofNat 8 st.code, retries := if st = .linkLost then 8 else x.retries, unacked := [] } s)
  unfold loseFlow getFlow
  rw [ends.flows]
  exact ⟨⟨_, alGet_alSet_self _ _ _, rfl, rfl, rfl⟩, fun k ne => alGet_alSet_other _ _ _ _ ne, ends.alerts⟩

/-! The next key generation (R285). -/

theorem nextFlowKey_touches (f slot : Nat) (rx : Bool) (s : State) : ∃ keys free, (nextFlowKey f slot rx s).1 = { s with keys := keys, free := free } := by
  unfold nextFlowKey
  split
  · exact ⟨_, _, rfl⟩
  · split
    · next found => exact ⟨_, _, (addKey_some found).2⟩
    · exact ⟨_, _, rfl⟩

/-! The commands. -/

section
variable {s : State} {p : Pkt} {g : GAddr} {tag : Byte} {data : List StoredSector} {x : Flow}

theorem memwr_notTaken (hub : hubUp s = true) (up : s.fab.straits[p.strait].link = .up) (mine : forMe s p = true) (flow : getFlow s p.flow = some x) (form : gaddrOk g = true)
    (some' : 1 ≤ data.length) (few : data.length ≤ 4) (whole : g.off.toNat % 256 = 0) (holds : lentHolds s g data.length = true) (plain : p.reserved = 0) (known : p.stray = false) (allowed : 2 ∈ x.classes) :
    let u := flushHost (setFlow p.flow (x.takeAck p) (returnSlots p.strait (vcOf 2 0) (slotsOf (sectorsLen data.length)) s))
    (x.state = .opened → p.tagOk → x.holds p → x.rxPsn < p.psn → exec (.memwr p (.global g) tag data) s = .next u) ∧
    (x.state = .opened → p.tagOk → x.holds p → p.psn < x.rxPsn → exec (.memwr p (.global g) tag data) s = .next (sendAck p.flow (x.rxPsn - 1) u)) ∧
    u.mem = s.mem ∧
    (x.state = .opened → p.tagOk = false ∨ x.holds p = false →
      ∃ t, exec (.memwr p (.global g) tag data) s = .next t ∧ t.fab.tagFailures = s.fab.tagFailures + 1 ∧ t.mem = s.mem ∧ t.out = s.out) ∧
    (x.state = .revoked → ∃ t, exec (.memwr p (.global g) tag data) s = .next t ∧ t.fab.keyRevoked = s.fab.keyRevoked + 1 ∧ t.mem = s.mem ∧ t.out = s.out) := by
  let eff := takeWrite p (.global g) tag data
  let r := returnSlots p.strait (vcOf 2 0) (slotsOf (sectorsLen data.length)) s
  have suits : writeOk s p.flow (.global g) data.length = true := by simp [writeOk, targetOk, some', few, form, whole, holds]
  have run : exec (.memwr p (.global g) tag data) s = .next (deliverPkt p 2 true eff r) := by
    rw [← recvPkt_mine mine 2 0 (sectorsLen data.length) true eff, ← suits]
    exact onStrait_up hub up _
  have flow' : getFlow r p.flow = some x := flow
  refine ⟨fun opened tag keyed ahead => ?_, fun opened tag keyed behind => ?_, rfl, fun opened bad => ?_, fun revoked => ?_⟩ <;> rw [run]
  · rw [deliverPkt_ahead eff flow' opened plain known allowed tag keyed ahead]
  · rw [deliverPkt_behind eff flow' opened plain known allowed tag keyed behind]
  · rw [deliverPkt_badTag eff flow' opened plain known allowed bad]
    exact ⟨_, rfl, tagFailed_counts p x r⟩
  · rw [deliverPkt_revoked eff flow' revoked]
    exact ⟨_, rfl, dropRevoked_counts x r⟩

end

section
variable {s : State} {f : Nat} {x : Flow} (flow : getFlow s f = some x) (opened : x.state = .opened)
include flow opened

theorem pureAck_ends {p : Pkt} (on : p.flow = f) {cls : Nat} (allowed : cls ∈ x.classes) (hub : hubUp s = true) (up : s.fab.straits[p.strait].link = .up) (mine : forMe s p = true) (plain : p.reserved = 0)
    (known : p.stray = false) (tag : p.tagOk = true) (keyed : x.holds p = true) (valid : p.ackValid = true) (new : x.ackedPsn ≤ p.ackPsn) (sent : p.ackPsn < x.txPsn) :
    ∃ t y, exec (.pureAckReceive p cls) s = .next t ∧ getFlow t f = some y ∧ y.ackedPsn = p.ackPsn ∧ y.unacked = x.unacked.filter (fun o => p.ackPsn < o.psn) ∧ y.rxPsn = x.rxPsn ∧
      (∀ k, k ≠ f → getFlow t k = getFlow s k) ∧ OnlyTouches [.out, .fab] s t := by
  subst on
  obtain ⟨acked, left⟩ := Flow.takeAck_covers valid new sent
  have run : exec (.pureAckReceive p cls) s = .next (takePureAck p cls s) := onStrait_up hub up _
  rw [takePureAck_takes mine flow opened plain known allowed valid tag keyed] at run
  exact ⟨_, x.takeAck p, run, alGet_alSet_self _ _ _, acked, left, x.takeAck_rxPsn p, fun k ne => alGet_alSet_other _ _ _ _ ne, rfl⟩

theorem flowRetryTimeout_runs (hub : hubUp s = true) (unacked : x.unacked ≠ []) : exec (.flowRetryTimeout f) s = .next (retryFlow f x s) := by
  have may : mayRetry s f = true := by
    unfold mayRetry
    rw [flow]
    simp [opened, unacked]
  refine Eq.trans (show exec (.flowRetryTimeout f) s = execFlowRetryTimeout f s from rfl) ?_
  unfold execFlowRetryTimeout
  rw [flow]
  exact need_of (Bool.and_eq_true_iff.mpr ⟨hub, may⟩)

theorem retry_resends (hub : hubUp s = true) (unacked : x.unacked ≠ []) (few : x.retries < 7) :
    ∃ t y, exec (.flowRetryTimeout f) s = .next t ∧ getFlow t f = some y ∧ y.state = .opened ∧ y.retries = x.retries + 1 ∧ y.unacked = x.unacked ∧
      y.route = nextCand (routeOf s x.peer) x.route ∧ (∀ k, k ≠ f → getFlow t k = getFlow s k) ∧ OnlyTouches [.out, .fab] s t := by
  let y : Flow := { x with retries := x.retries + 1, route := nextCand (routeOf s x.peer) x.route }
  have leaves := foldl_routePkt_leaves true y x.unacked (setFlow f y s)
  have resends : retryFlow f x s = x.unacked.foldl (fun s o => routePkt o true y s) (setFlow f y s) := by
    unfold retryFlow
    rw [if_neg (by rw [opened]; decide), if_neg (by omega)]
  have flows : ∀ k, getFlow (retryFlow f x s) k = alGet k (alSet f y s.fab.flows) := fun k => by
    rw [resends, getFlow, leaves.flows]
    rfl
  refine ⟨_, y, flowRetryTimeout_runs flow opened hub unacked, (flows f).trans (alGet_alSet_self _ _ _), opened, rfl, rfl, rfl, fun k ne => (flows k).trans (alGet_alSet_other _ _ _ _ ne), ?_⟩
  rw [resends]
  exact leaves.only rfl (by decide) (by decide)

theorem retry_loses (hub : hubUp s = true) (unacked : x.unacked ≠ []) (many : 7 ≤ x.retries) :
    ∃ t y, exec (.flowRetryTimeout f) s = .next t ∧ getFlow t f = some y ∧ y.state = .lost ∧ y.lastStatus = 0x40 ∧ y.unacked = [] ∧ (∀ k, k ≠ f → getFlow t k = getFlow s k) := by
  have lost : retryFlow f x s = loseFlow f x .linkLost s := by
    unfold retryFlow
    rw [if_neg (by rw [opened]; decide), if_pos (by omega)]
  obtain ⟨⟨y, now, state, status, empty⟩, others, -⟩ := loseFlow_loses (s := s) f x (st := .linkLost) (by decide)
  exact ⟨_, y, (flowRetryTimeout_runs flow opened hub unacked).trans (by rw [lost]), now, state, status, empty, others⟩

theorem integrityLost_loses (many : 8 ≤ x.tagFails) :
    ∃ t y, exec (.flowIntegrityLost f) s = .next t ∧ getFlow t f = some y ∧ y.state = .lost ∧ y.lastStatus = 0x20 ∧ y.unacked = [] ∧
      t.dict.alerts = t.ras.auditCount :: s.dict.alerts ∧ (∀ k, k ≠ f → getFlow t k = getFlow s k) := by
  obtain ⟨⟨y, now, state, status, empty⟩, others, alerts⟩ := loseFlow_loses (s := s) f x (st := .integrity) (by decide)
  let u := loseFlow f x .integrity s
  have run : exec (.flowIntegrityLost f) s = .next (u.putVM ((u.vm.audit (auditOf 8 .integrity x.owner 0 0 (device := x.peer.toNat))).alert x.owner)) := by
    refine Eq.trans (show exec (.flowIntegrityLost f) s = execFlowIntegrityLost f s from rfl) ?_
    unfold execFlowIntegrityLost
    rw [flow]
    exact need_of (by simp [opened, many])
  exact ⟨_, y, run, now, state, status, empty, congrArg (List.cons _) alerts, others⟩

theorem keygenAdvance_moves (first : x.keygen = false) (far : 2 ^ 47 ≤ x.txPsn ∨ 2 ^ 47 ≤ x.rxPsn) :
    ∃ t y, exec (.flowKeygenAdvance f) s = .next t ∧ getFlow t f = some y ∧ y.keygen = true ∧ y.oldKeys = some (x.txKey, x.rxKey) ∧ y.txPsn = x.txPsn ∧ y.rxPsn = x.rxPsn ∧ y.state = .opened ∧
      (∀ k, k ≠ f → getFlow t k = getFlow s k) ∧ OnlyTouches [.free, .fab, .keys] s t := by
  let a := nextFlowKey f x.txKey false s
  let b := nextFlowKey f x.rxKey true a.1
  have run : exec (.flowKeygenAdvance f) s = .next (setFlow f { x with keygen := true, oldKeys := some (x.txKey, x.rxKey), txKey := a.2, rxKey := b.2 } b.1) := by
    refine Eq.trans (show exec (.flowKeygenAdvance f) s = execFlowKeygenAdvance f s from rfl) ?_
    unfold execFlowKeygenAdvance
    rw [flow]
    exact need_of (by simpa [opened, first] using far)
  obtain ⟨keys, free, tx⟩ : ∃ keys free, a.1 = { s with keys := keys, free := free } := nextFlowKey_touches f x.txKey false s
  obtain ⟨keys', free', rx⟩ : ∃ keys free, b.1 = { a.1 with keys := keys, free := free } := nextFlowKey_touches f x.rxKey true a.1
  rw [rx, tx] at run
  exact ⟨_, _, run, alGet_alSet_self _ _ _, rfl, rfl, rfl, rfl, opened, fun k ne => alGet_alSet_other _ _ _ _ ne, rfl⟩

end

/-- Settles O41: the branches of `deliverPkt` that take nothing, `takePureAck_takes`, `foldl_routePkt_leaves` for a retry, `loseFlow_loses` for a flow that ends. -/
theorem packetsAndFlowsKeepTheirOrder : Obligations.PacketsAndFlowsKeepTheirOrder := by
  refine ⟨fun s p g tag data x hub up mine flow form some' few whole holds plain known allowed => ?_, fun s f x flow opened => ⟨?_, ?_, ?_, ?_, ?_⟩⟩
  · exact memwr_notTaken hub up mine flow form some' few whole holds plain known allowed
  · intro p on cls allowed hub up mine plain known tag keyed valid new sent
    exact pureAck_ends flow opened on allowed hub up mine plain known tag keyed valid new sent
  · exact fun hub unacked few => retry_resends flow opened hub unacked few
  · exact fun hub unacked many => retry_loses flow opened hub unacked many
  · exact fun many => integrityLost_loses flow opened many
  · exact fun first far => keygenAdvance_moves flow opened first far

end Sys2Proof.Machine
end

section
/-!
Flow contexts (R286, R436): what an engine's open does, and a pair key that expires.
-/

namespace Sys2Proof.Machine

/-! Opening. -/

/-- A context that an engine of the module opens, its keys and state still to be set. -/
def newContext (s : State) (peer : Device) (peerFlow : Nat) (classes : List Nat) : Flow :=
  { peerFlow := peerFlow, peer := peer, owner := 0x40, classes := classes, session := none, used := frameNow s, route := startCand (routeOf s peer) peerFlow }

/-- A flow outside a session is none of a session. -/
theorem flowKind_unbound {owner : Nat} {classes : List Nat} {kind : FlowKind} (h : flowKind owner classes none = some kind) : kind ≠ .session := by
  rintro rfl
  unfold flowKind at h
  grind

section
variable {s : State} {peer : Device} {peerFlow : Nat} {classes : List Nat} {kind : FlowKind}

/-- The context that an open takes is free, and none of the straits' own. -/
theorem pickContext (room : ∃ f, 18 ≤ f ∧ f < 262143 ∧ getFlow s f = none) :
    ∃ f, pickFree (fun i => (getFlow s i).isSome) 18 262125 (Config.freeNat s.free) = some f ∧ 18 ≤ f ∧ getFlow s f = none := by
  obtain ⟨m, low, high, free⟩ := room
  obtain ⟨f, found⟩ := Option.isSome_iff_exists.mp (pickFree_isSome (used := fun i => (getFlow s i).isSome) (seed := Config.freeNat s.free) low (show m < 18 + 262125 by omega) (by simp [free]))
  obtain ⟨range, -, unused⟩ := pickFree_some found
  exact ⟨f, found, range, by simpa using unused⟩

section
variable (named : s.fab.idInForce ≠ 0xFFFF) (sort : flowKind 0x40 classes none = some kind) {f : Nat} (found : pickFree (fun i => (getFlow s i).isSome) 18 262125 (Config.freeNat s.free) = some f)
include named sort found

theorem openFlow_keyed (keyed : havePair s.keys peer ∨ kind = .dictionary) {tx rx : Nat} (slots : flowSlots kind 0x40 peer none { s with free := s.free + 1 } = some ({ s with free := s.free + 1 }, tx, rx)) :
    openFlow 0x40 peer peerFlow classes none s = (setFlow f { newContext s peer peerFlow classes with txKey := tx, rxKey := rx, state := .opened } { s with free := s.free + 1 }, .done) := by
  unfold openFlow
  rw [sort]
  simp only [found, jointBarred, partOf, named, keyed, slots]
  rfl

theorem openFlow_unkeyed (keyless : havePair s.keys peer = false) (other : kind ≠ .dictionary) :
    openFlow 0x40 peer peerFlow classes none s = (offerHello none peer (setFlow f { newContext s peer peerFlow classes with state := .opening } { s with free := s.free + 1 }), .done) := by
  unfold openFlow
  rw [sort]
  simp only [found, jointBarred, partOf, named, keyless, other]
  rfl

end

/-- An open by the module itself records its status in the context alone. -/
theorem flowOpen_runs (hub : hubUp s = true) : exec (.flowOpen 0x40 peer peerFlow classes none) s = .next (openFlow 0x40 peer peerFlow classes none s).1 := need_of hub

/-- The offer of a handshake stands, and changes no flow. -/
theorem offerHello_offers (hop : Option StraitId) (s : State) : (findHs (offerHello hop peer s) true hop peer).isSome ∧ (offerHello hop peer s).fab.flows = s.fab.flows := by
  unfold findHs offerHello sendHandshake State.entropy
  cases hop <;> simp [State.emit, State.updStrait]

section
variable (hub : hubUp s = true) (named : s.fab.idInForce ≠ 0xFFFF) (sort : flowKind 0x40 classes none = some kind) (room : ∃ f, 18 ≤ f ∧ f < 262143 ∧ getFlow s f = none)
include hub named sort room

/-- Under a key that is held the context is OPEN. -/
theorem flowOpen_keyed (keyed : havePair s.keys peer ∨ kind = .dictionary) {tx rx : Nat} (slots : flowSlots kind 0x40 peer none { s with free := s.free + 1 } = some ({ s with free := s.free + 1 }, tx, rx)) :
    ∃ t f, exec (.flowOpen 0x40 peer peerFlow classes none) s = .next t ∧ 18 ≤ f ∧ getFlow s f = none ∧
      getFlow t f = some { newContext s peer peerFlow classes with txKey := tx, rxKey := rx, state := .opened } ∧ (∀ k, k ≠ f → getFlow t k = getFlow s k) ∧ OnlyTouches [.free, .fab] s t := by
  obtain ⟨f, found, low, free⟩ := pickContext room
  have run := flowOpen_runs (s := s) (peer := peer) (peerFlow := peerFlow) (classes := classes) hub
  rw [openFlow_keyed named sort found keyed slots] at run
  exact ⟨_, f, run, low, free, alGet_alSet_self _ _ _, fun k ne => alGet_alSet_other _ _ _ _ ne, rfl⟩

/-- A peer without a pair key is offered a handshake, and the context waits for it. -/
theorem flowOpen_unkeyed (keyless : havePair s.keys peer = false) (other : kind ≠ .dictionary) :
    ∃ t f, exec (.flowOpen 0x40 peer peerFlow classes none) s = .next t ∧ getFlow s f = none ∧ getFlow t f = some { newContext s peer peerFlow classes with state := .opening } ∧
      (findHs t true none peer).isSome ∧ (∀ k, k ≠ f → getFlow t k = getFlow s k) ∧ OnlyTouches [.out, .free, .fab] s t := by
  obtain ⟨f, found, -, free⟩ := pickContext room
  have run := flowOpen_runs (s := s) (peer := peer) (peerFlow := peerFlow) (classes := classes) hub
  rw [openFlow_unkeyed named sort found keyless other] at run
  obtain ⟨offered, flows⟩ := offerHello_offers (peer := peer) none (setFlow f { newContext s peer peerFlow classes with state := .opening } { s with free := s.free + 1 })
  refine ⟨_, f, run, free, ?_, offered, fun k ne => ?_, rfl⟩ <;> rw [getFlow, flows]
  · exact alGet_alSet_self _ _ _
  · exact alGet_alSet_other _ _ _ _ ne

end

/-- The keys of a flow that is neither a session's nor a dictionary's are the pair's. -/
theorem flowSlots_pair (notSession : kind ≠ .session) (notDictionary : kind ≠ .dictionary) (s : State) : ∃ tx rx, flowSlots kind 0x40 peer none s = some (s, tx, rx) := by
  cases kind with
  | session => exact absurd rfl notSession
  | dictionary => exact absurd rfl notDictionary
  | pool | host => exact ⟨_, _, rfl⟩

/-- Classes that R286 has no flow for open none. -/
theorem flowOpen_kindless (hub : hubUp s = true) (sort : flowKind 0x40 classes none = none) : exec (.flowOpen 0x40 peer peerFlow classes none) s = .next s := by
  have refused : (openFlow 0x40 peer peerFlow classes none s).1 = s := by
    unfold openFlow
    simp only [sort, ite_self]
  rw [flowOpen_runs hub, refused]

/-- A partition that has all its contexts gets no other: QUOTA is counted for it. -/
theorem flowOpen_quota {p : PartId} (hub : hubUp s = true) (named : s.fab.idInForce ≠ 0xFFFF) (sort : (flowKind p.val classes none).isSome) (active : s.parts[p].state = .active)
    (full : s.parts[p].force.flows.toNat ≤ flowsUsed s p.val) :
    ∃ t, exec (.flowOpen p.val peer peerFlow classes none) s = .next t ∧ t.fab = s.fab ∧ t.parts[p] = Part.event .quota s.parts[p] ∧ (∀ p', p' ≠ p → t.parts[p'] = s.parts[p']) ∧
      OnlyTouches [.parts, .dict] s t := by
  have own : partOf p.val = some p := dif_pos p.isLt
  obtain ⟨kind, sort⟩ := Option.isSome_iff_exists.mp sort
  have refused : openFlow p.val peer peerFlow classes none s = (s, .quota) := by
    unfold openFlow
    simp only [own, sort, active, named, Nat.not_lt.mpr full]
    rfl
  have run : exec (.flowOpen p.val peer peerFlow classes none) s = .next (s.putVM (s.vm.event p .quota)) := by
    refine Eq.trans (show _ = execFlowOpen p.val peer peerFlow classes none s from rfl) ?_
    unfold execFlowOpen
    dsimp only
    rw [own, refused]
    exact need_of hub
  exact ⟨_, run, rfl, modVec_self .., fun p' ne => modVec_other _ _ _ _ ne, rfl⟩

/-! A pair key that no flow has used. -/

theorem findKey_filter_none {k : Keys} {P : Nat × KeySlot → Bool} {owner purpose tag : Nat} (drops : ∀ x : Nat × KeySlot, x.2.purpose = purpose → x.2.tag = tag → P x = false) :
    findKey { k with slots := k.slots.filter P } owner purpose tag = none := by
  refine List.find?_eq_none.mpr fun x mem => ?_
  have kept := (List.mem_filter.mp mem).2
  intro sel
  simp only [Bool.and_eq_true, decide_eq_true_eq] at sel
  exact absurd kept (Bool.eq_false_iff.mp (drops x sel.1.2 sel.2))

theorem pairKeyExpire_destroys (held : havePair s.keys peer = true) (idle : ∀ x ∈ pairFlows s peer, x.2.used + 1000 ≤ frameNow s) :
    ∃ t, exec (.pairKeyExpire peer) s = .next t ∧ havePair t.keys peer = false ∧ pairFlows t peer = [] ∧
      (∀ x ∈ s.fab.flows, x.1 < 18 ∨ x.2.peer ≠ peer ∨ x.2.session.isSome → x ∈ t.fab.flows) ∧ OnlyTouches [.keys, .fab] s t := by
  refine ⟨_, need_of (Bool.and_eq_true_iff.mpr ⟨held, List.all_eq_true.mpr fun x mem => decide_eq_true (idle x mem)⟩), ?_, ?_, fun x mem stays => ?_, rfl⟩
  · unfold havePair
    rw [findKey_filter_none (fun x purpose tag => by simp [purpose, tag, pairTag])]
    rfl
  · exact List.filter_eq_nil_iff.mpr fun x mem => by simpa only [Bool.not_eq_true', Bool.not_eq_true] using (List.mem_filter.mp mem).2
  · refine List.mem_filter.mpr ⟨mem, ?_⟩
    rcases stays with hop | other | bound
    · simp [Nat.not_le.mpr hop]
    · simp [other]
    · simp [bound]

end

end Sys2Proof.Machine
end

section
/-!
Settles O42: flow contexts open, and handshakes answer or fail (R434, R435).
-/

namespace Sys2Proof.Machine

/-! What the end of a handshake leaves: the handshakes under way and the count of those that failed. -/

/-- From `s` to `t` handshakes stand as they were, and outputs only follow. -/
structure KeepsHandshakes (s t : State) : Prop where
  handshakes : t.fab.handshakes = s.fab.handshakes
  failures : t.fab.hsFailures = s.fab.hsFailures
  out : ∃ a, t.out = s.out ++ a

section
variable {s t u : State}

theorem KeepsHandshakes.refl (s : State) : KeepsHandshakes s s := ⟨rfl, rfl, [], (List.append_nil _).symm⟩
theorem KeepsHandshakes.trans (h : KeepsHandshakes s t) (g : KeepsHandshakes t u) : KeepsHandshakes s u := by
  obtain ⟨a, ha⟩ := h.out
  obtain ⟨b, hb⟩ := g.out
  exact ⟨g.handshakes.trans h.handshakes, g.failures.trans h.failures, a ++ b, by rw [hb, ha, List.append_assoc]⟩
/-- A state whose handshakes, failures and outputs are those of another. -/
theorem KeepsHandshakes.same (handshakes : t.fab.handshakes = s.fab.handshakes) (failures : t.fab.hsFailures = s.fab.hsFailures) (out : t.out = s.out) : KeepsHandshakes s t :=
  ⟨handshakes, failures, [], out.trans (List.append_nil _).symm⟩
/-- A state that differs from where a run begins in nothing that counts here. -/
theorem KeepsHandshakes.prepend (h : KeepsHandshakes t u) (fab : t.fab.handshakes = s.fab.handshakes ∧ t.fab.hsFailures = s.fab.hsFailures) (out : t.out = s.out) : KeepsHandshakes s u :=
  .trans (.same fab.1 fab.2 out) h
theorem KeepsHandshakes.findHs (h : KeepsHandshakes s t) (opener : Bool) (hop : Option StraitId) (peer : Device) : findHs t opener hop peer = findHs s opener hop peer := by
  unfold Machine.findHs
  rw [h.handshakes]

theorem recordOpen_keeps (owner : Nat) (st : Status) (s : State) : KeepsHandshakes s (recordOpen owner st s) := by
  unfold recordOpen
  split <;> exact .same rfl rfl rfl
theorem foldl_keepsHandshakes {α : Type} (f : State → α → State) (each : ∀ s a, KeepsHandshakes s (f s a)) (l : List α) (s : State) : KeepsHandshakes s (l.foldl f s) := by
  induction l generalizing s with
  | nil => exact .refl s
  | cons a l ih => exact (each s a).trans (ih _)
theorem endOpening_keeps (peer : Device) (st : Status) (s : State) : KeepsHandshakes s (endOpening peer st s) :=
  .prepend (foldl_keepsHandshakes (fun s (x : Nat × Flow) => recordOpen x.2.owner st s) (fun s x => recordOpen_keeps x.2.owner st s) _ _) ⟨rfl, rfl⟩ rfl
theorem addKey_keeps {b : Bool} {k : KeySlot} {i : Nat} (h : addKey b k s = some (t, i)) : KeepsHandshakes s t := by
  obtain ⟨-, rfl⟩ := addKey_some h
  exact .same rfl rfl rfl
theorem sessionKeys_keeps {peer : Device} {sess : Nat} {digest : BitVec 512} {i j : Nat} (h : sessionKeys peer sess digest s = some (t, i, j)) : KeepsHandshakes s t := by
  unfold sessionKeys at h
  split at h
  · split at h
    · next first =>
      obtain ⟨r, second, e⟩ := Option.map_eq_some_iff.mp h
      obtain ⟨rfl, -⟩ := Prod.mk.inj e
      exact (addKey_keeps first).trans (addKey_keeps second)
    · cases h
  · cases h
theorem settleOpening_keeps (peer : Device) (s : State) : KeepsHandshakes s (settleOpening peer s) := by
  refine foldl_keepsHandshakes _ (fun s x => ?_) _ _
  split
  · exact .same rfl rfl rfl
  · dsimp only
    split
    · exact .prepend (recordOpen_keeps _ _ _) ⟨rfl, rfl⟩ rfl
    · split
      · next keys => exact (sessionKeys_keeps keys).trans (.same rfl rfl rfl)
      · exact .prepend (recordOpen_keeps _ _ _) ⟨rfl, rfl⟩ rfl

/-- Putting a key in place touches the keys and the free values alone. -/
theorem replaceKey_touches (shared : Bool) (purpose tag : Nat) (value : Bytes) (s : State) : ∃ keys free, (replaceKey shared purpose tag value s).1 = { s with keys := keys, free := free } := by
  unfold replaceKey
  dsimp only
  split
  · next added => exact ⟨_, _, (addKey_some added).2⟩
  · exact ⟨_, _, rfl⟩
theorem replaceKey_keeps (shared : Bool) (purpose tag : Nat) (value : Bytes) (s : State) : KeepsHandshakes s (replaceKey shared purpose tag value s).1 := by
  obtain ⟨keys, free, e⟩ := replaceKey_touches shared purpose tag value s
  rw [e]
  exact .same rfl rfl rfl
theorem installPair_keeps (peer : Device) (fw : BitVec 512) (tx rx : Bytes) (s : State) : KeepsHandshakes s (installPair peer fw tx rx s) := by
  unfold installPair
  dsimp only
  split
  · exact .prepend (endOpening_keeps _ _ _) ⟨rfl, rfl⟩ rfl
  · obtain ⟨keys, free, tx'⟩ := replaceKey_touches true 0x17 (pairTag peer false) tx
      { s with keys := { s.keys with slots := s.keys.slots.filter (fun k => !(k.2.purpose = 0x17 && k.2.tag / 2 = peer.toNat)) } }
    rw [tx']
    obtain ⟨keys', free', rx'⟩ := replaceKey_touches true 0x17 (pairTag peer true) rx { s with keys := keys, free := free }
    rw [rx']
    exact .prepend (settleOpening_keeps _ _) ⟨rfl, rfl⟩ rfl

/-- A recovery that waits for the strait asks for its image: the fabric stands. -/
theorem askOver_leaves (k : StraitId) (s : State) : (askOver k s).fab = s.fab ∧ ∃ a, (askOver k s).out = s.out ++ a := by
  have kept : (s.fab = s.fab) ∧ ∃ a, s.out = s.out ++ a := ⟨rfl, [], (List.append_nil _).symm⟩
  unfold askOver
  split
  · split
    · unfold askImage State.emitOver
      split <;> exact ⟨rfl, _, rfl⟩
    · exact kept
  · exact kept

/-- Hop keys are in place: the strait is UP and its hop flow open. -/
theorem installHop_installs (k : StraitId) (peer : Device) (tx rx : Bytes) (s : State) :
    KeepsHandshakes s (installHop k peer tx rx s) ∧ (installHop k peer tx rx s).fab.straits[k].link = .up ∧ (installHop k peer tx rx s).fab.straits[k].peer = peer ∧
      ∃ y, getFlow (installHop k peer tx rx s) k.val = some y ∧ y.state = .opened ∧ y.peer = peer ∧ y.rxPsn = 0 ∧ y.txPsn = 0 := by
  let a := replaceKey false 0x16 (hopTag k.val false) tx s
  let b := replaceKey false 0x16 (hopTag k.val true) rx a.1
  let n := Config.freeNat b.1.free % 18
  let y : Flow := { peer := peer, peerFlow := n, owner := 0x40, txKey := a.2, rxKey := b.2, classes := [7, 8, 9], state := .opened, used := frameNow b.1 }
  let up := State.updStrait { b.1 with free := b.1.free + 1 } k (fun x => { x with link := .up, peer := peer, peerStrait := BitVec.ofNat 8 n, trainFails := 0 })
  have made : installHop k peer tx rx s = askOver k (setFlow k.val y up) := rfl
  obtain ⟨fab, out⟩ := askOver_leaves k (setFlow k.val y up)
  have keys : KeepsHandshakes s b.1 := (replaceKey_keeps _ _ _ _ _).trans (replaceKey_keeps _ _ _ _ _)
  have asked : KeepsHandshakes (setFlow k.val y up) (askOver k (setFlow k.val y up)) := ⟨congrArg _ fab, congrArg _ fab, out⟩
  have strait : up.fab.straits[k] = { b.1.fab.straits[k] with link := .up, peer := peer, peerStrait := BitVec.ofNat 8 n, trainFails := 0 } := modVec_self ..
  rw [made]
  refine ⟨keys.trans (.prepend asked ⟨rfl, rfl⟩ rfl), ?_, ?_, y, ?_, rfl, rfl, rfl, rfl⟩
  · rw [fab]
    exact congrArg Strait.link strait
  · rw [fab]
    exact congrArg Strait.peer strait
  · rw [getFlow, fab]
    exact alGet_alSet_self _ _ _

theorem installKeys_keeps (hop : Option StraitId) (opener : Bool) (peer : Device) (fw : BitVec 512) (kmat : Bytes) (s : State) : KeepsHandshakes s (installKeys hop opener peer fw kmat s) := by
  unfold installKeys
  dsimp only
  split
  · exact (installHop_installs _ _ _ _ _).1
  · exact installPair_keeps _ _ _ _ _

/-- A handshake that fails counts, and the others stand. -/
theorem hsFail_counts (hop : Option StraitId) (peer : Device) (s : State) : (hsFail hop peer s).fab.hsFailures = s.fab.hsFailures + 1 ∧ (hsFail hop peer s).fab.handshakes = s.fab.handshakes := by
  unfold hsFail
  dsimp only
  split
  · exact ⟨rfl, rfl⟩
  · have kept := endOpening_keeps peer .denied { s with fab := { s.fab with hsFailures := s.fab.hsFailures + 1 } }
    exact ⟨kept.failures, kept.handshakes⟩

theorem sendHandshake_sends (kind : Nat) (hop : Option StraitId) (peer : Device) (nonce : BitVec 256) (ct sig : Bytes) (len : Nat) (s : State) :
    (sendHandshake kind hop peer nonce ct sig len s).fab.handshakes = s.fab.handshakes ∧ (sendHandshake kind hop peer nonce ct sig len s).fab.hsFailures = s.fab.hsFailures ∧
      (sendHandshake kind hop peer nonce ct sig len s).out = s.out ++ [.handshake kind hop peer nonce ct sig] := by
  cases hop <;> exact ⟨rfl, rfl, rfl⟩

/-! A handshake that is dropped is found no more. -/

/-- The handshake is one with this peer at this end. -/
def HsState.is (opener : Bool) (hop : Option StraitId) (peer : Device) (x : HsState) : Bool := x.opener = opener && x.hop = hop && (hop.isSome || x.peer = peer)

theorem findHs_eq (s : State) (opener : Bool) (hop : Option StraitId) (peer : Device) : findHs s opener hop peer = s.fab.handshakes.find? (HsState.is opener hop peer) := rfl

theorem findHs_none_of {opener : Bool} {hop : Option StraitId} {peer : Device} (h : ∀ x ∈ t.fab.handshakes, x ∈ s.fab.handshakes ∧ x.is opener hop peer = false) : findHs t opener hop peer = none :=
  List.find?_eq_none.mpr fun x mem => Bool.eq_false_iff.mp (h x mem).2

theorem mem_dropHs {opener : Bool} {hop : Option StraitId} {peer : Device} {x : HsState} (mem : x ∈ (dropHs opener hop peer s).fab.handshakes) : x ∈ s.fab.handshakes ∧ x.is opener hop peer = false := by
  obtain ⟨was, other⟩ := List.mem_filter.mp mem
  exact ⟨was, (Bool.not_eq_true' _).mp other⟩

theorem findHs_dropHs (opener : Bool) (hop : Option StraitId) (peer : Device) (s : State) : findHs (dropHs opener hop peer s) opener hop peer = none := findHs_none_of fun _ => mem_dropHs

/-- Dropping the other end's handshake brings none back. -/
theorem findHs_dropHs_none {opener : Bool} {hop : Option StraitId} {peer : Device} (other : Bool) (h : findHs s opener hop peer = none) : findHs (dropHs other hop peer s) opener hop peer = none := by
  rw [findHs_eq, List.find?_eq_none] at h ⊢
  exact fun x mem => h x (mem_dropHs mem).1

end

/-! The messages. -/

section
variable {s : State} {h : Handshake} (open' : hsOpen s h.hop = true)

/-- The answer to a HELLO that is acceptable: REPLY, and the handshake waits for FINISH. -/
theorem helloIn_answers (higher : ¬ Config.unitId.toNat ≤ h.unit.toNat) (ok : peerOk s h = true) :
    (∃ nonce ct sig, (helloIn h s).out = s.out ++ [.handshake 1 h.hop h.device nonce ct sig]) ∧ (findHs (helloIn h s) false h.hop h.device).isSome ∧ OnlyTouches [.out, .free, .fab] s (helloIn h s) := by
  unfold helloIn
  rw [if_neg higher, if_neg (by simp [ok])]
  refine ⟨⟨_, _, _, (sendHandshake_sends _ _ _ _ _ _ _ _).2.2⟩, ?_, ?_⟩
  · dsimp only
    rw [findHs_eq, (sendHandshake_sends _ _ _ _ _ _ _ _).1, List.find?_cons_of_pos (by simp [HsState.is])]
    rfl
  · cases h.hop <;> rfl

/-- A REPLY that is acceptable is followed by FINISH and the keys. -/
theorem replyIn_finishes {x : HsState} (waits : findHs s true h.hop h.device = some x)
    (good : ¬ (h.unit.toNat ≤ Config.unitId.toNat ∨ !peerOk s h ∨ !hsSigned h.cert (x.transcript ++ peerHello h ++ h.ct) h.sig)) :
    (∃ ct sig a, (replyIn h s).out = s.out ++ .handshake 2 h.hop h.device 0 ct sig :: a) ∧ (replyIn h s).fab.hsFailures = s.fab.hsFailures ∧
      (replyIn h s).fab.handshakes = (dropHs true h.hop h.device s).fab.handshakes := by
  obtain ⟨kmat, ct, sig, len, made⟩ : ∃ kmat ct sig len, replyIn h s =
      installKeys h.hop true h.device h.fwDigest kmat (sendHandshake 2 h.hop h.device 0 ct sig len { dropHs true h.hop h.device s with free := s.free + 1 }) := by
    unfold replyIn
    rw [waits]
    exact ⟨_, _, _, _, if_neg good⟩
  obtain ⟨left, failures, out⟩ := sendHandshake_sends 2 h.hop h.device 0 ct sig len { dropHs true h.hop h.device s with free := s.free + 1 }
  have kept := installKeys_keeps h.hop true h.device h.fwDigest kmat (sendHandshake 2 h.hop h.device 0 ct sig len { dropHs true h.hop h.device s with free := s.free + 1 })
  obtain ⟨a, after⟩ := kept.out
  rw [made]
  refine ⟨⟨ct, sig, a, ?_⟩, kept.failures.trans failures, kept.handshakes.trans left⟩
  rw [after, out]
  exact List.append_assoc _ _ _

theorem replyIn_fails {x : HsState} (waits : findHs s true h.hop h.device = some x)
    (bad : h.unit.toNat ≤ Config.unitId.toNat ∨ !peerOk s h ∨ !hsSigned h.cert (x.transcript ++ peerHello h ++ h.ct) h.sig) :
    replyIn h s = hsFail h.hop h.device (dropHs true h.hop h.device s) := by
  unfold replyIn
  rw [waits]
  exact if_pos bad

/-- The keys of a FINISH that is well signed; a failure otherwise. -/
theorem finishIn_eq {x : HsState} (waits : findHs s false h.hop h.device = some x) :
    (hsSigned x.peerCert (x.transcript ++ h.ct) h.sig = true →
      ∃ kmat, finishIn h s = installKeys h.hop false h.device x.peerFw kmat (dropHs true h.hop h.device (dropHs false h.hop h.device s))) ∧
    (hsSigned x.peerCert (x.transcript ++ h.ct) h.sig = false → finishIn h s = hsFail h.hop h.device (dropHs true h.hop h.device (dropHs false h.hop h.device s))) := by
  unfold finishIn
  rw [waits]
  dsimp only
  exact ⟨fun signed => ⟨_, if_neg (by simp [signed])⟩, fun unsigned => if_pos (by simp [unsigned])⟩

include open'

theorem hello_runs :
    ∃ t, exec (.hello h) s = .next t ∧
      (if Config.unitId.toNat ≤ h.unit.toNat then t = s
       else if peerOk s h then (∃ nonce ct sig, t.out = s.out ++ [.handshake 1 h.hop h.device nonce ct sig]) ∧ (findHs t false h.hop h.device).isSome ∧ OnlyTouches [.out, .free, .fab] s t
       else t.fab.hsFailures = s.fab.hsFailures + 1) := by
  refine ⟨helloIn h s, need_of open', ?_⟩
  split
  · next lower => exact if_pos lower
  · next higher =>
    split
    · next ok => exact helloIn_answers higher ok
    · next bad =>
      unfold helloIn
      rw [if_neg higher, if_pos (by simpa using bad)]
      exact (hsFail_counts _ _ _).1

theorem reply_runs {x : HsState} (waits : findHs s true h.hop h.device = some x) :
    ∃ t, exec (.reply h) s = .next t ∧ findHs t true h.hop h.device = none ∧
      (if h.unit.toNat ≤ Config.unitId.toNat ∨ !peerOk s h ∨ !hsSigned h.cert (x.transcript ++ peerHello h ++ h.ct) h.sig then t.fab.hsFailures = s.fab.hsFailures + 1
       else (∃ ct sig a, t.out = s.out ++ .handshake 2 h.hop h.device 0 ct sig :: a) ∧ t.fab.hsFailures = s.fab.hsFailures) := by
  have gone := findHs_dropHs true h.hop h.device s
  refine ⟨replyIn h s, need_of open', ?_⟩
  split
  · next bad =>
    obtain ⟨counted, left⟩ := hsFail_counts h.hop h.device (dropHs true h.hop h.device s)
    rw [replyIn_fails waits bad, findHs_eq, left]
    exact ⟨gone, counted⟩
  · next good =>
    obtain ⟨sent, failures, left⟩ := replyIn_finishes waits good
    rw [findHs_eq, left]
    exact ⟨gone, sent, failures⟩

theorem finish_runs {x : HsState} (waits : findHs s false h.hop h.device = some x) :
    ∃ t, exec (.finish h) s = .next t ∧ findHs t false h.hop h.device = none ∧
      t.fab.hsFailures = s.fab.hsFailures + (if hsSigned x.peerCert (x.transcript ++ h.ct) h.sig then 0 else 1) ∧
      (∀ k, h.hop = some k → hsSigned x.peerCert (x.transcript ++ h.ct) h.sig →
        t.fab.straits[k].link = .up ∧ t.fab.straits[k].peer = h.device ∧ ∃ y, getFlow t k.val = some y ∧ y.state = .opened ∧ y.peer = h.device ∧ y.rxPsn = 0 ∧ y.txPsn = 0) := by
  let u := dropHs true h.hop h.device (dropHs false h.hop h.device s)
  have gone : findHs u false h.hop h.device = none := findHs_dropHs_none true (findHs_dropHs false h.hop h.device s)
  obtain ⟨installs, fails⟩ := finishIn_eq waits
  refine ⟨finishIn h s, need_of open', ?_⟩
  cases signed : hsSigned x.peerCert (x.transcript ++ h.ct) h.sig with
  | false =>
    obtain ⟨counted, left⟩ := hsFail_counts h.hop h.device u
    rw [fails signed, findHs_eq, left]
    exact ⟨gone, counted, fun _ _ no => absurd no (by decide)⟩
  | true =>
    obtain ⟨kmat, made⟩ := installs signed
    have kept := installKeys_keeps h.hop false h.device x.peerFw kmat u
    rw [made, kept.findHs]
    refine ⟨gone, kept.failures, fun k hop _ => ?_⟩
    rw [hop]
    exact (installHop_installs k h.device _ _ _).2

end

/-- Settles O42: `flowOpen_keyed` and `flowOpen_unkeyed` for the contexts, `KeepsHandshakes` for what the end of a handshake leaves. -/
theorem flowsAndHandshakesOpenOrFail : Obligations.FlowsAndHandshakesOpenOrFail := by
  refine ⟨fun s peer => ⟨fun peerFlow classes kind hub named sort room => ⟨fun other keyed => ?_, fun other keyless => ?_, fun i dictionary slot => ?_⟩, ?_, ?_, ?_⟩, fun s h open' => ⟨?_, ?_, ?_⟩⟩
  · obtain ⟨tx, rx, slots⟩ := flowSlots_pair (peer := peer) (flowKind_unbound sort) other { s with free := s.free + 1 }
    obtain ⟨t, f, run, low, free, now, others, only⟩ := flowOpen_keyed (peerFlow := peerFlow) hub named sort room (.inl keyed) slots
    exact ⟨t, f, _, run, low, free, now, rfl, rfl, rfl, rfl, rfl, rfl, rfl, others, only⟩
  · obtain ⟨t, f, run, free, now, offered, others, only⟩ := flowOpen_unkeyed (peerFlow := peerFlow) hub named sort room keyless other
    exact ⟨t, f, _, run, free, now, rfl, rfl, offered, others, only⟩
  · subst dictionary
    have slots : flowSlots .dictionary 0x40 peer none { s with free := s.free + 1 } = some ({ s with free := s.free + 1 }, i, i) :=
      congrArg (Option.map _) slot
    obtain ⟨t, f, run, -, free, now, others, only⟩ := flowOpen_keyed (peerFlow := peerFlow) hub named sort room (.inr rfl) slots
    exact ⟨t, f, _, run, free, now, rfl, rfl, rfl, others, only⟩
  · exact fun peerFlow classes hub sort => flowOpen_kindless hub sort
  · exact fun p peerFlow classes hub named sort active full => flowOpen_quota hub named sort active full
  · exact fun held idle => pairKeyExpire_destroys held idle
  · exact hello_runs open'
  · exact fun x waits => reply_runs open' waits
  · exact fun x waits => finish_runs open' waits

end Sys2Proof.Machine
end

section
/-!
Settles O38: requests of a host on S16 or S17.
-/

namespace Sys2Proof.Machine

/-! A read of another module is asked for in packets of at most four sectors. -/

/-- One packet of a read of another module: the state after it, and the tags in use. -/
def askSectors (f : AptFields) (fl first n : Nat) (acc : State × List Nat) (i : Nat) : State × List Nat :=
  let t := freeTag acc.1 fl acc.2
  let c := min 4 (n - 4 * i)
  (sendPkt fl 1 0 (hostAddr f (first + 1024 * i) acc.1 * 2 ^ 16 + (c - 1) * 2 ^ 8 + t) [] { acc.1 with free := acc.1.free + 1 }, acc.2 ++ [t])

/-- `m` packets have left on a flow since `s`. -/
structure Asked (s : State) (fl : Nat) (x : Flow) (m : Nat) (u : State) : Prop where
  flow : ∃ y, getFlow u fl = some y ∧ y.state = .opened ∧ y.txPsn = x.txPsn + m
  named : u.fab.idInForce ≠ 0xFFFF
  only : OnlyTouches [.out, .free, .fab] s u

section
variable {s u : State} {fl m : Nat} {x : Flow}

theorem Leaves.named {t : State} (h : Leaves s t) : t.fab.idInForce = s.fab.idInForce := by
  obtain ⟨_, _, _, rfl⟩ := h
  rfl

theorem Asked.sends (h : Asked s fl x m u) (cls op csf : Nat) (payload : Bytes) : Asked s fl x (m + 1) (sendPkt fl cls op csf payload { u with free := u.free + 1 }) := by
  obtain ⟨⟨y, flow, opened, psn⟩, named, only⟩ := h
  have leaves := sendPkt_leaves (u := { u with free := u.free + 1 }) flow opened (.inl named) cls op csf payload
  have now : getFlow (sendPkt fl cls op csf payload { u with free := u.free + 1 }) fl = alGet fl (alSet fl (y.withSent _ _) u.fab.flows) := congrArg (alGet fl) leaves.flows
  exact ⟨⟨_, now.trans (alGet_alSet_self _ _ _), opened, congrArg (· + 1) psn⟩, leaves.named.symm ▸ named, sendPkt_only (only.trans rfl) (by decide) (by decide)⟩

theorem foldl_askSectors (f : AptFields) (first n : Nat) (flow : getFlow s fl = some x) (opened : x.state = .opened) (named : s.fab.idInForce ≠ 0xFFFF) (m : Nat) :
    Asked s fl x m ((List.range m).foldl (askSectors f fl first n) (s, [])).1 := by
  induction m with
  | zero => exact ⟨⟨x, flow, opened, rfl⟩, named, .refl _ _⟩
  | succ m ih =>
    rw [List.range_succ, List.foldl_append]
    exact ih.sends _ _ _ _

end

/-! What the host asks for. -/

section
variable {s : State} {k : StraitId} {off len : Nat} {f : AptFields}

theorem hostRead_runs (up : hostUp s k = true) (some' : 1 ≤ len) (few : len ≤ 4096) (ok : Bool) : exec (.hostRead ⟨k, ok⟩ off len) s = .next (hostReadOp k off len ok s) :=
  need_of (by simp [up, some', few])

theorem hostWrite_runs {data : Bytes} (up : hostUp s k = true) (some' : 1 ≤ data.length) (few : data.length ≤ 512) (ok : Bool) :
    exec (.hostWrite ⟨k, ok⟩ off data) s = .next (hostWriteOp k off data ok s) :=
  need_of (by simp [up, some', few])

section
variable (plain : s.fab.straits[k].ide = false)
include plain

theorem hostReadOp_plain (ok : Bool) : hostReadOp k off len ok s = s.emit [.hostUnsupported k] := if_pos (by rw [plain]; rfl)
theorem hostWriteOp_plain (data : Bytes) (ok : Bool) : hostWriteOp k off data ok s = s.emit [.hostUnsupported k] := if_pos (by rw [plain]; rfl)

end

section
variable (ide : s.fab.straits[k].ide = true)
include ide

theorem hostReadOp_discards : hostReadOp k off len false s = ideFailed k s := by
  unfold hostReadOp
  rw [ide]
  rfl
theorem hostWriteOp_discards (data : Bytes) : hostWriteOp k off data false s = ideFailed k s := by
  unfold hostWriteOp
  rw [ide]
  rfl
theorem hostReadOp_met (entry : aptAt s off len false = some f) : hostReadOp k off len true s = if f.device = s.fab.idInForce then readLocal k f off len s else readRemote k f off len s := by
  unfold hostReadOp
  rw [ide, entry]
  rfl
theorem hostWriteOp_met {data : Bytes} (entry : aptAt s off data.length true = some f) :
    hostWriteOp k off data true s = if f.device = s.fab.idInForce then writeLocal k f off data s else writeRemote k f off data s := by
  unfold hostWriteOp
  rw [ide, entry]
  rfl

end

/-- Entries of a partition name it. -/
theorem partOf_val (p : PartId) : partOf p.val = some p := dif_pos p.isLt

theorem readLocal_lent (kind : f.kind = 1) (posts : openPosts s k = []) (inside : f.va + off % 2 ^ 21 + len ≤ s.mem.lendBytes.toNat) :
    readLocal k f off len s =
      s.emit [.hostData k ((pieces (f.va + off % 2 ^ 21) len).flatMap (fun x => slice (sectorBytes (lentAt s.mem (x.1 / 256)).cipher) (x.1 % 256) x.2))] := by
  unfold readLocal completeHost
  rw [if_pos kind, if_pos inside, if_pos posts]

section
variable {p : PartId} (kind : f.kind = 2) (part : f.part = p.val)
include kind part

theorem readLocal_granted {v : VM} {b : Bytes} (grant : granted s p = true) (posts : openPosts s k = []) (read : s.vm.readBytes p (f.va + off % 2 ^ 21) len = (v, some b)) :
    readLocal k f off len s = (s.putVM v).emit [.hostData k b] := by
  unfold readLocal completeHost
  rw [if_neg (by rw [kind]; decide), part, partOf_val]
  dsimp only
  rw [if_pos grant, read]
  exact if_pos posts

theorem writeLocal_granted {data : Bytes} {v : VM} {n : Nat} (grant : granted s p = true) (written : s.vm.writeBytes p (f.va + off % 2 ^ 21) data true = (v, n, .done)) :
    writeLocal k f off data s = notePosts k s (s.putWrites v) := by
  unfold writeLocal
  rw [if_neg (by rw [kind]; decide), part, partOf_val]
  dsimp only
  rw [if_pos grant, written]

theorem writeLocal_ungranted (data : Bytes) (grant : granted s p = false) : writeLocal k f off data s = s.putVM (s.vm.event p .denied) := by
  unfold writeLocal
  rw [if_neg (by rw [kind]; decide), part, partOf_val]
  exact if_neg (by rw [grant]; decide)

end

/-- A read of a device that no flow reaches ends in Completer Abort, with its audit entry. -/
theorem readRemote_unreached (none' : findFlow s 0x40 f.device 8 none = none) (posts : openPosts s k = []) :
    readRemote k f off len s = (s.putVM (s.vm.audit (auditOf 4 .linkLost 0x40 (f.va + off % 2 ^ 21) len))).emit [.hostAbort k] := by
  unfold readRemote
  rw [none']
  exact if_pos posts

/-- A read of another device waits for its home, its packets on the host flow. -/
theorem readRemote_waits {fl : Nat} {x : Flow} (found : findFlow s 0x40 f.device 8 none = some fl) (flow : getFlow s fl = some x) (opened : x.state = .opened) (named : s.fab.idInForce ≠ 0xFFFF) :
    ∃ y, getFlow (readRemote k f off len s) fl = some y ∧
      y.txPsn = x.txPsn + ceilDiv ((f.va + off % 2 ^ 21 + len + 255) / 256 - (f.va + off % 2 ^ 21) / 256) 4 ∧
      (∃ w ∈ (readRemote k f off len s).fab.hostWaits, w.strait = k ∧ w.flow = fl ∧ w.len = len ∧ w.failed = false) ∧ OnlyTouches [.out, .free, .fab] s (readRemote k f off len s) := by
  let va := f.va + off % 2 ^ 21
  let n := (va + len + 255) / 256 - va / 256
  let r := (List.range (ceilDiv n 4)).foldl (askSectors f fl (va / 256 * 256) n) (s, [])
  let w : HostWait := { strait := k, flow := fl, off := va - va / 256 * 256, len := len, tags := r.2 }
  have made : readRemote k f off len s = waitHost w r.1 := by
    unfold readRemote
    rw [found]
    rfl
  obtain ⟨⟨y, now, -, psn⟩, -, only⟩ : Asked s fl x (ceilDiv n 4) r.1 := foldl_askSectors f _ n flow opened named _
  rw [made]
  refine ⟨y, now, psn, ⟨{ w with after := openPosts r.1 k }, List.mem_append_right _ (List.mem_singleton_self _), rfl, rfl, rfl, rfl⟩, only.trans rfl⟩

end

/-- Settles O38: one lemma for each kind of target of `hostReadOp` and `hostWriteOp`, and `Asked` for the packets of a read of another module. -/
theorem hostRequestsAreServed : Obligations.HostRequestsAreServed := by
  refine fun s k up => ⟨⟨need_of up, rfl⟩, need_of up, ?_, fun plain => ⟨?_, ?_, ?_⟩, ?_, ?_, ?_, ?_, ?_, ?_⟩
  · exact ⟨_, need_of up, modVec_self .., fun j ne => modVec_other _ _ _ _ ne, rfl⟩
  · exact (need_of up).trans (congrArg Host.Outcome.next (if_neg (by rw [plain]; decide)))
  · exact fun off len ok some' few => by rw [hostRead_runs up some' few, hostReadOp_plain plain]
  · exact fun off data ok some' few => by rw [hostWrite_runs up some' few, hostWriteOp_plain plain]
  · intro ide off data len someData fewData some' few c mem
    have runs : exec c s = .next (ideFailed k s) := by
      rcases List.mem_pair.mp mem with rfl | rfl
      · rw [hostRead_runs up some' few, hostReadOp_discards ide]
      · rw [hostWrite_runs up someData fewData, hostWriteOp_discards ide]
    exact ⟨_, runs, modVec_self .., fun j ne => modVec_other _ _ _ _ ne, rfl⟩
  · intro off len f ide entry here kind posts some' few inside
    exact ⟨_, by rw [hostRead_runs up some' few, hostReadOp_met ide entry, if_pos here, readLocal_lent kind posts inside], rfl⟩
  · intro off len f p v b ide entry here kind part grant posts some' few read
    rw [hostRead_runs up some' few, hostReadOp_met ide entry, if_pos here, readLocal_granted kind part grant posts read]
  · intro off len f ide entry away some' few
    have run : exec (.hostRead ⟨k, true⟩ off len) s = .next (readRemote k f off len s) := by rw [hostRead_runs up some' few, hostReadOp_met ide entry, if_neg away]
    refine ⟨fun none' posts => ?_, fun fl x found flow opened named => ?_⟩
    · rw [run, readRemote_unreached none' posts]
      exact ⟨_, rfl, List.getLast?_concat, rfl, rfl⟩
    · obtain ⟨y, waits⟩ := readRemote_waits (k := k) (off := off) (len := len) found flow opened named
      exact ⟨_, y, run, waits⟩
  · intro off data f p v n ide entry here kind part grant some' few written
    rw [hostWrite_runs up some' few, hostWriteOp_met ide entry, if_pos here, writeLocal_granted kind part grant written]
  · intro off data f p ide entry here kind part grant some' few
    rw [hostWrite_runs up some' few, hostWriteOp_met ide entry, if_pos here, writeLocal_ungranted kind part data grant]
    exact ⟨_, rfl, rfl⟩

end Sys2Proof.Machine
end

section
/-!
Sessions and their layers (R312, R317): what is read after a session or a layer has been changed, and what a chunk that is placed leaves of them.
-/

namespace Sys2Proof.Machine

/-! Reading a session and a layer after a change. -/

section
variable {s : State} {i l : Nat} {x : Session}

theorem getSess_updSession (f : Session → Session) (h : getSess s i = some x) : getSess (updSession i f s) i = some (f x) := by
  unfold getSess updSession at *
  rw [alGet_alMod, if_pos rfl, h]
  rfl
theorem getSess_updLayer (f : Layer → Layer) (h : getSess s i = some x) : getSess (updLayer i l f s) i = some (x.updLayer l f) := getSess_updSession _ h
theorem getSess_of_bind {t : State} (bind : t.bind = s.bind) : getSess t i = getSess s i := by
  unfold getSess
  rw [bind]
theorem workOf_of_sess (h : getSess s i = some x) (v : Nat) : workOf s i l v = (x.layer l).step v := by
  unfold workOf
  rw [h]
  rfl

theorem Session.updLayer_inside (f : Layer → Layer) (inside : l < x.layers.length) : (x.updLayer l f).layer l = f (x.layer l) := by
  simp [Session.layer, Session.updLayer, List.getD_eq_getElem?_getD, inside]
theorem Session.layer_outside (outside : x.layers.length ≤ l) : x.layer l = {} := by
  simp [Session.layer, List.getD_eq_getElem?_getD, outside]
theorem Session.updLayer_outside (f : Layer → Layer) (outside : x.layers.length ≤ l) : (x.updLayer l f).layer l = {} :=
  Session.layer_outside (by simpa [Session.updLayer] using outside)
/-- A change of a layer is made where the session has the layer. -/
theorem Session.updLayer_cases (x : Session) (l : Nat) (f : Layer → Layer) : (x.updLayer l f).layer l = f (x.layer l) ∨ (x.updLayer l f).layer l = x.layer l := by
  rcases Nat.lt_or_ge l x.layers.length with inside | outside
  · exact .inl (x.updLayer_inside f inside)
  · exact .inr ((Session.updLayer_outside f outside).trans (Session.layer_outside outside).symm)

end

/-! What leaves the sessions as they are. -/

theorem sendRank_bind (i rank cls op layer step chunk : Nat) (payload : Bytes) (s : State) : (sendRank i rank cls op layer step chunk payload s).bind = s.bind :=
  (sendRank_only (gs := [.out, .fab]) (.refl _ s) (by decide) (by decide)).bind_eq (by decide)
theorem forwardChunk_bind (i l v c : Nat) (b : Bytes) (s : State) : (forwardChunk i l v c b s).bind = s.bind :=
  (forwardChunk_only (gs := [.out, .fab]) (.refl _ s) (by decide) (by decide)).bind_eq (by decide)
theorem handOver_bind (i l h dst : Nat) (s : State) : (handOver i l h dst s).bind = s.bind :=
  (handOver_only (gs := [.out, .fab]) (.refl _ s) (by decide) (by decide)).bind_eq (by decide)
theorem writeChunk_bind (p : PartId) (g : Gathering) (v c : Nat) (b : Bytes) (s : State) : (writeChunk p g v c b s).1.bind = s.bind :=
  (writeChunk_only (gs := [.out, .free, .parts, .mem, .fab, .ras, .dict]) (.refl _ s) (by decide) (by decide) (by decide) (by decide) (by decide) (by decide) (by decide)).bind_eq (by decide)
theorem healed_bind (i l v : Nat) (s : State) : (healed i l v s).bind = s.bind :=
  (healed_only (gs := [.out, .free, .parts, .mem, .fab, .ras, .dict]) (.refl _ s) (by decide) (by decide) (by decide) (by decide) (by decide) (by decide) (by decide)).bind_eq (by decide)

/-! A chunk that is placed (R339). -/

/-- A chunk of an image that no entry takes is counted. -/
def Session.dropImage (x : Session) : Session := { x with elastic := { x.elastic with imageDropped := x.elastic.imageDropped + 1 } }
/-- A chunk stands in the parameter buffer. -/
def Version.place (c : Nat) (r : Version) : Version := { r with placed := c :: r.placed }

/-- Of the sessions, placing a chunk changes at most the count of those discarded, or what is placed. -/
theorem placeChunk_sessions (i l v c : Nat) (s : State) :
    (placeChunk i l v c s).bind = s.bind ∨ (placeChunk i l v c s).bind = (updSession i Session.dropImage s).bind ∨
      (placeChunk i l v c s).bind = (updLayer i l (Layer.updRecv v (Version.place c)) s).bind := by
  unfold placeChunk
  split
  · split
    · split
      · split
        · exact .inr (.inl rfl)
        · split
          · exact .inl rfl
          · split
            · next written =>
              have kept := (congrArg (fun r => r.1.bind) written).symm.trans (writeChunk_bind _ _ _ _ _ s)
              refine .inr (.inr ((healed_bind _ _ _ _).trans ?_))
              exact congrArg (fun b : Bindery => { b with sessions := alMod i (Session.updLayer l (Layer.updRecv v (Version.place c))) b.sessions }) kept
            · next written => exact .inl ((congrArg (fun r => r.1.bind) written).symm.trans (writeChunk_bind _ _ _ _ _ s))
      · exact .inr (.inl rfl)
      · exact .inl rfl
    · exact .inl rfl
  · exact .inl rfl

/-! A chunk that is kept. -/

/-- A chunk of a version stands at the rank. -/
def HasChunk (i l v c : Nat) (s : State) : Prop := ∃ y r, getSess s i = some y ∧ r ∈ (y.layer l).recv ∧ r.version = v ∧ (alGet c r.chunks).isSome

section
variable {i l v c : Nat} {s t : State}

theorem HasChunk.of_bind (h : HasChunk i l v c s) (bind : t.bind = s.bind) : HasChunk i l v c t := by
  obtain ⟨y, r, sess, has⟩ := h
  exact ⟨y, r, (getSess_of_bind bind).trans sess, has⟩
theorem HasChunk.placed (h : HasChunk i l v c s) (n k : Nat) : HasChunk i l v c (updLayer i l (Layer.updRecv n (Version.place k)) s) := by
  obtain ⟨y, r, sess, mem, version, chunk⟩ := h
  rcases y.updLayer_cases l (Layer.updRecv n (Version.place k)) with now | now
  · refine ⟨_, if r.version = n then r.place k else r, getSess_updLayer _ sess, ?_, ?_, ?_⟩
    · rw [now]
      exact List.mem_map_of_mem mem
    · split <;> exact version
    · split <;> exact chunk
  · exact ⟨_, r, getSess_updLayer _ sess, now ▸ mem, version, chunk⟩
theorem HasChunk.dropped (h : HasChunk i l v c s) : HasChunk i l v c (updSession i Session.dropImage s) := by
  obtain ⟨y, r, sess, has⟩ := h
  exact ⟨_, r, getSess_updSession _ sess, has⟩
theorem HasChunk.placeChunk (h : HasChunk i l v c s) (n k : Nat) : HasChunk i l v c (placeChunk i l n k s) := by
  rcases placeChunk_sessions i l n k s with bind | bind | bind
  · exact h.of_bind bind
  · exact h.dropped.of_bind bind
  · exact (h.placed n k).of_bind bind

/-- What a layer receives of a version with one chunk more. -/
def Layer.withChunk (v c : Nat) (b : Bytes) (frame : Nat) (y : Layer) : Layer :=
  Layer.updRecv v (fun r => { r with chunks := alSet c b r.chunks }) (if y.recv.any (fun r => r.version = v) then y else { y with recv := y.recv ++ [{ version := v, chunks := [], firstFrame := frame }] })

theorem Layer.withChunk_has (v c : Nat) (b : Bytes) (frame : Nat) (y : Layer) : ∃ r ∈ (y.withChunk v c b frame).recv, r.version = v ∧ (alGet c r.chunks).isSome := by
  have there : ∃ r ∈ (if y.recv.any (fun r => r.version = v) then y else { y with recv := y.recv ++ [{ version := v, chunks := [], firstFrame := frame }] } : Layer).recv, r.version = v := by
    split
    · next has => simpa using has
    · exact ⟨_, List.mem_append_right _ (List.mem_singleton_self _), rfl⟩
  obtain ⟨r, mem, version⟩ := there
  refine ⟨{ r with chunks := alSet c b r.chunks }, ?_, version, by simp⟩
  exact List.mem_map.mpr ⟨r, mem, if_pos version⟩

/-- A chunk is discarded, or it is kept and perhaps placed. -/
theorem takeChunk_cases (i l v c : Nat) (b : Bytes) (s : State) : takeChunk i l v c b s = s ∨
    takeChunk i l v c b s = updLayer i l (Layer.withChunk v c b (frameNow s)) s ∨ takeChunk i l v c b s = placeChunk i l v c (updLayer i l (Layer.withChunk v c b (frameNow s)) s) := by
  unfold takeChunk
  split
  · split
    · exact (ite_eq_or_eq _ s _).imp_right fun kept => by
        rw [kept]
        exact (ite_eq_or_eq _ _ _).symm
    · exact .inl rfl
  · exact .inl rfl

/-- A chunk of a version that is neither too old nor abandoned is kept. -/
theorem takeChunk_keeps {x : Session} {cfg : SessCfg} (b : Bytes) (sess : getSess s i = some x) (block : x.cfg = some cfg) (inside : l < x.layers.length) (few : c < cfg.chunks l)
    (new : ∀ n, (x.layer l).newest = some n → n ≤ v + 1) (standing : x.elastic.restoreVersion = 0xFFFFFFFF ∨ x.elastic.restoreVersion.toNat ≤ v) : HasChunk i l v c (takeChunk i l v c b s) := by
  have kept : HasChunk i l v c (updLayer i l (Layer.withChunk v c b (frameNow s)) s) := by
    obtain ⟨r, mem, version, chunk⟩ := Layer.withChunk_has v c b (frameNow s) (x.layer l)
    exact ⟨_, r, getSess_updLayer _ sess, by rwa [Session.updLayer_inside _ inside], version, chunk⟩
  have abandoned : (decide (x.elastic.restoreVersion ≠ 0xFFFFFFFF) && decide (v < x.elastic.restoreVersion.toNat)) = false := by
    rcases standing with none' | reached
    · simp [none']
    · simp [Nat.not_lt.mpr reached]
  unfold takeChunk
  rw [sess]
  dsimp only
  rw [block]
  dsimp only
  rw [if_neg]
  · split
    · exact kept.placeChunk v c
    · exact kept
  · rintro (many | old)
    · exact Nat.not_le.mpr few many
    · rw [abandoned, Bool.or_false] at old
      split at old
      · next n newest => exact Nat.not_lt.mpr (new n newest) (of_decide_eq_true old)
      · cases old

end

end Sys2Proof.Machine
end

section
/-!
An owner's reductions (R325, R329, R334): a notice stands in its step until the step closes, and nothing else adds to what an owner reduces.
-/

namespace Sys2Proof.Machine

/-- From `s` to `t` no reduction of the layer has come or changed. -/
def ShrinksReduction (i l : Nat) (s t : State) : Prop := ∀ x, getSess s i = some x → ∃ y, getSess t i = some y ∧ (y.layer l).reduction ⊆ (x.layer l).reduction

section
variable {i l : Nat} {s t u : State}

theorem ShrinksReduction.of_bind (bind : t.bind = s.bind) : ShrinksReduction i l s t := fun x sess => ⟨x, (getSess_of_bind bind).trans sess, List.Subset.refl _⟩
theorem ShrinksReduction.refl (s : State) : ShrinksReduction i l s s := .of_bind rfl
theorem ShrinksReduction.trans (h : ShrinksReduction i l s t) (g : ShrinksReduction i l t u) : ShrinksReduction i l s u := fun x sess => by
  obtain ⟨y, sess, first⟩ := h x sess
  obtain ⟨z, sess, second⟩ := g y sess
  exact ⟨z, sess, List.Subset.trans second first⟩
theorem ShrinksReduction.to_bind {t' : State} (h : ShrinksReduction i l s t) (bind : t'.bind = t.bind) : ShrinksReduction i l s t' := h.trans (.of_bind bind)
theorem ShrinksReduction.session {f : Session → Session} (each : ∀ x, ((f x).layer l).reduction ⊆ (x.layer l).reduction) (s : State) : ShrinksReduction i l s (updSession i f s) :=
  fun x sess => ⟨f x, getSess_updSession f sess, each x⟩
theorem Session.updLayer_reduction {f : Layer → Layer} (each : ∀ y, (f y).reduction ⊆ y.reduction) (x : Session) : ((x.updLayer l f).layer l).reduction ⊆ (x.layer l).reduction := by
  rcases x.updLayer_cases l f with now | now <;> rw [now]
  · exact each _
  · exact List.Subset.refl _
theorem ShrinksReduction.layer {f : Layer → Layer} (each : ∀ y, (f y).reduction ⊆ y.reduction) (s : State) : ShrinksReduction i l s (updLayer i l f s) :=
  .session (Session.updLayer_reduction each) s
theorem ShrinksReduction.ite {P : Prop} [Decidable P] (yes : ShrinksReduction i l s t) (no : ShrinksReduction i l s u) : ShrinksReduction i l s (if P then t else u) := by
  split
  · exact yes
  · exact no
theorem ShrinksReduction.foldl {α : Type} {f : State → α → State} (each : ∀ s a, ShrinksReduction i l s (f s a)) (as : List α) (s : State) : ShrinksReduction i l s (as.foldl f s) := by
  induction as generalizing s with
  | nil => exact .refl s
  | cons a as ih => exact (each s a).trans (ih _)

end

/-! Publishing leaves the reductions. -/

section
variable (i l : Nat)

theorem placeChunk_shrinks (v c : Nat) (s : State) : ShrinksReduction i l s (placeChunk i l v c s) := by
  rcases placeChunk_sessions i l v c s with bind | bind | bind
  · exact .of_bind bind
  · exact .to_bind (.session (f := Session.dropImage) (fun _ => List.Subset.refl _) s) bind
  · exact .to_bind (.layer (f := Layer.updRecv v (Version.place c)) (fun _ => List.Subset.refl _) s) bind
theorem takeChunk_shrinks (v c : Nat) (b : Bytes) (s : State) : ShrinksReduction i l s (takeChunk i l v c b s) := by
  have kept : ShrinksReduction i l s (updLayer i l (Layer.withChunk v c b (frameNow s)) s) := .layer (fun y => by
    unfold Layer.withChunk
    split <;> exact List.Subset.refl _) s
  rcases takeChunk_cases i l v c b s with took | took | took <;> rw [took]
  · exact .refl s
  · exact kept
  · exact kept.trans (placeChunk_shrinks i l v c _)
theorem takeShadow_shrinks (w : Nat) (s : State) : ShrinksReduction i l s (takeShadow i l w s) := by
  refine .session (fun x => ?_) s
  split
  · split
    · change ((Session.updLayer l _ x).layer l).reduction ⊆ _
      refine x.updLayer_reduction ?_
      exact fun _ => List.Subset.refl _
    · exact List.Subset.refl _
  · exact List.Subset.refl _
theorem tipIns_shrinks (v : Nat) (s : State) : ShrinksReduction i l s (tipIns i l v s) := by
  unfold tipIns
  split
  · split
    · dsimp only
      refine .trans (.foldl (fun s h => ?_) _ s) (.layer ?_ _)
      rotate_left
      · exact fun _ => List.Subset.refl _
      split
      · exact .refl s
      · refine .foldl (fun s k => ?_) _ s
        split
        · refine .foldl (fun s r => ?_) _ s
          split
          · exact .of_bind (sendRank_bind ..)
          · exact .refl s
        · exact .refl s
    · exact .refl s
  · exact .refl s
theorem publish_shrinks (v : Nat) (image : Bytes) (exps : List Int) (rec : Bytes) (s : State) : ShrinksReduction i l s (publish i l v image exps rec s) := by
  unfold publish
  dsimp only
  refine .trans ?_ (tipIns_shrinks i l v _)
  refine .trans ?_ (takeShadow_shrinks i l v _)
  refine .trans (.layer ?_ s) (.foldl (fun s c => ?_) _ _)
  · exact fun _ => List.Subset.refl _
  · exact .trans (.of_bind (forwardChunk_bind ..)) (takeChunk_shrinks i l v c.1 c.2 _)

/-- The close of a step drops its reduction and leaves the others. -/
theorem closeStep_shrinks (v : Nat) (s : State) : ShrinksReduction i l s (closeStep i l v s) := by
  have dropped : ∀ (w : List OwnTensor), ShrinksReduction i l s (updLayer i l (fun y => { y with tensors := w, reduction := y.reduction.filter (fun q => q.step ≠ v), late := 0, departed := [] }) s) :=
    fun w => .layer (fun y => List.filter_sublist.subset) s
  unfold closeStep
  split
  · exact .refl s
  · next x _ =>
    split
    · dsimp only
      refine .ite (dropped _) ?_
      rcases x.elastic.handoverMap with _ | ⟨h, m⟩
      · exact (dropped _).trans (publish_shrinks i l (v + 1) _ _ _ _)
      · rcases x.elastic.handing with _ | ⟨who, _⟩
        · exact (dropped _).trans (publish_shrinks i l (v + 1) _ _ _ _)
        · exact .ite (((dropped _).trans (publish_shrinks i l (v + 1) _ _ _ _)).to_bind (handOver_bind ..)) ((dropped _).trans (publish_shrinks i l (v + 1) _ _ _ _))
    · exact .refl s
theorem tryClose_shrinks (v : Nat) (s : State) : ShrinksReduction i l s (tryClose i l v s) := by
  unfold tryClose
  split
  · split
    · split
      · exact closeStep_shrinks i l v s
      · exact .refl s
    · exact .refl s
  · exact .refl s

end

/-! A notice at the owner (R325). -/

/-- A rank's notice stands in every reduction of a step at the owner. -/
def NoticeStands (i l v rank : Nat) (s : State) : Prop := ∃ y, getSess s i = some y ∧ ∀ r ∈ (y.layer l).reduction, r.step = v → rank ∈ r.absent

section
variable {i l v rank : Nat} {s t : State}

theorem NoticeStands.shrinks (h : NoticeStands i l v rank s) (g : ShrinksReduction i l s t) : NoticeStands i l v rank t := by
  obtain ⟨x, sess, stands⟩ := h
  obtain ⟨y, sess, fewer⟩ := g x sess
  exact ⟨y, sess, fun r mem => stands r (fewer mem)⟩

/-- What a notice leaves in the reduction of its step. -/
def Reduction.withAbsent (rank : Nat) (r : Reduction) : Reduction := { r with absent := (rank :: r.absent).dedup }

theorem modRed_notice {x : Session} (sess : getSess s i = some x) (v rank : Nat) : NoticeStands i l v rank (modRed i l v (Reduction.withAbsent rank) s) := by
  refine ⟨_, getSess_updSession _ sess, fun r mem step => ?_⟩
  rcases Nat.lt_or_ge l x.layers.length with inside | outside
  · rw [Session.updLayer_inside _ inside] at mem
    obtain ⟨q, -, rfl⟩ := List.mem_map.mp mem
    by_cases own : q.step = v
    · rw [if_pos own]
      exact List.mem_dedup.mpr (List.mem_cons_self ..)
    · rw [if_neg own] at step
      exact absurd step own
  · rw [Session.updLayer_outside _ outside] at mem
    cases mem

/-- A notice for the step that the owner is at stands, or its step has closed. -/
theorem noticeOne_stands {x : Session} (sess : getSess s i = some x) (mine : x.ownerOf l v = x.me) (current : ownAt x l v = .current) : NoticeStands i l v rank (noticeOne i l v rank false s) := by
  have taken : noticeOne i l v rank false s = tryClose i l v (modRed i l v (Reduction.withAbsent rank) s) := by
    unfold noticeOne
    rw [sess]
    dsimp only
    rw [if_neg (not_not.mpr mine), current]
    exact if_neg (fun h => absurd h.1 (by decide))
  rw [taken]
  exact (modRed_notice sess v rank).shrinks (tryClose_shrinks i l v _)

end

end Sys2Proof.Machine
end

section
/-!
Settles O45: packets of the Bindery are taken in order and have their effect.
-/

namespace Sys2Proof.Machine

/-- A packet in order whose fields keep the rules of its class has its effect and is acknowledged. -/
theorem onStrait_takes_formed {s : State} {p : Pkt} {cls op len : Nat} {f : Flow} {ok : Bool} (h : Arrives s p cls f) (formed : ok = true) (eff : State → State) :
    onStrait p s (recvPkt p cls op len ok eff s) = .next (sendAck p.flow p.psn (eff (afterTaking p cls op len f s))) := by
  rw [formed]
  exact onStrait_takes h eff

/-! Work on a step that is opened and changed. -/

/-- The work on a step, opened where there is none. -/
def Layer.withStep (v : Nat) (y : Layer) : Layer := if y.steps.any (fun w => w.step = v) then y else { y with steps := y.steps ++ [{ step := v }] }

theorem Layer.step_withStep (v : Nat) (y : Layer) : ∃ w, (y.withStep v).step v = some w := by
  unfold Layer.withStep Layer.step
  split
  · next has =>
    obtain ⟨w, mem, own⟩ := List.any_eq_true.mp has
    exact Option.isSome_iff_exists.mp (List.find?_isSome.mpr ⟨w, mem, own⟩)
  · exact Option.isSome_iff_exists.mp (List.find?_isSome.mpr ⟨_, List.mem_append_right _ (List.mem_singleton_self _), decide_eq_true rfl⟩)

/-- A change of a step's work that keeps its number is what the step shows. -/
theorem Layer.step_updStep {v : Nat} {f : StepWork → StepWork} (keeps : ∀ w, (f w).step = w.step) {y : Layer} {w : StepWork} (now : y.step v = some w) : (y.updStep v f).step v = some (f w) := by
  unfold Layer.step Layer.updStep at *
  have same : (fun w => decide (StepWork.step w = v)) ∘ (fun w => if w.step = v then f w else w) = fun w => decide (w.step = v) := by
    funext w
    dsimp only [Function.comp]
    split
    · rw [keeps]
    · rfl
  rw [List.find?_map, same, now]
  exact congrArg some (if_pos (of_decide_eq_true (List.find?_some (p := fun w : StepWork => decide (w.step = v)) now)))

/-! What the packets do. -/

section
variable {u : State} {flow i l v : Nat} {x : Session} {rank : Nat}

section
variable {k : ContribMsg} (sess : getSess u k.session = some x) (sender : senderRank u x flow = some rank) (open' : x.open' = true) (layer : k.layer < x.layersOf)
  (mine : x.ownerOf k.layer k.step = x.me) (late : x.isLive rank = false ∨ ownAt x k.layer k.step = .late)
include sess sender open' layer mine late

theorem contribIn_late : contribIn flow k u = countLate k.session k.layer u := by
  unfold contribIn
  rw [sess]
  dsimp only
  rw [sender]
  dsimp only
  rw [if_neg (by simp [open', layer]), if_pos ⟨mine, late.imp_left fun gone => by rw [gone]; rfl⟩]

/-- A contribution for a closed step is counted as late. -/
theorem contribIn_counts : ∃ y, getSess (contribIn flow k u) k.session = some y ∧ y.counters[(4 : Nat)]'(by decide) = x.counters[(4 : Nat)]'(by decide) + 1 ∧ OnlyTouches [.bind] u (contribIn flow k u) := by
  rw [contribIn_late sess sender open' layer mine late]
  refine ⟨_, getSess_updSession _ sess, ?_, rfl⟩
  simp [Session.count, Session.updLayer, bump]

end

/-- A roll waits at a rank that has not closed. -/
theorem rollIn_waits {ranks : List Nat} (sess : getSess u i = some x) (sender : senderRank u x flow = some rank) (open' : x.open' = true) (layer : l < x.layersOf) (inside : l < x.layers.length)
    (other : x.ownerOf l v ≠ x.me) (pending : (x.layer l).closedAt v = false) (unrecovered : ∀ w, (x.layer l).step v = some w → w.recovered = false) :
    ∃ w, workOf (rollIn flow i l v ranks u) i l v = some w ∧ w.roll = some ranks := by
  have quiet : (((x.layer l).step v).map (·.recovered)).getD false = false := by
    cases work : (x.layer l).step v with
    | none => rfl
    | some w => exact unrecovered w work
  have waits : rollIn flow i l v ranks u = updWork i l v (fun w => { w with roll := some ranks }) (openWork i l v u) := by
    unfold rollIn
    rw [sess]
    dsimp only
    rw [sender]
    dsimp only
    rw [if_neg (by simp [open', layer]), if_neg other, if_neg (by rw [quiet]; decide), if_neg (by rw [pending]; decide)]
  have opened : getSess (openWork i l v u) i = some (x.updLayer l (Layer.withStep v)) := getSess_updLayer _ sess
  have still : l < (x.updLayer l (Layer.withStep v)).layers.length := by simpa [Session.updLayer] using inside
  obtain ⟨w, work⟩ := (x.layer l).step_withStep v
  refine ⟨{ w with roll := some ranks }, ?_, rfl⟩
  rw [waits, updWork, workOf_of_sess (getSess_updLayer _ opened), Session.updLayer_inside _ still, Session.updLayer_inside _ inside]
  refine Layer.step_updStep ?_ work
  exact fun _ => rfl

/-- A notice stands at the owner. -/
theorem absentIn_stands (sess : getSess u i = some x) (sender : senderRank u x flow = some rank) (open' : x.open' = true) (live : x.isLive rank = true) (mine : x.ownerOf l v = x.me)
    (current : ownAt x l v = .current) : NoticeStands i l v rank (absentIn flow i l v false u) := by
  have noticed : absentIn flow i l v false u = noticeOne i l v rank false u := by
    unfold absentIn
    rw [sess]
    dsimp only
    rw [sender]
    dsimp only
    rw [if_neg (by simp [open']), if_neg (by simp [live])]
    rfl
  rw [noticed]
  exact noticeOne_stands sess mine current

/-- A request to recover a finished step changes nothing of the sessions. -/
theorem recoverIn_finished {n : Nat} (sess : getSess u i = some x) (newest : (x.layer l).newest = some n) (finished : v < n) : (recoverIn flow i l v u).bind = u.bind := by
  unfold recoverIn
  rw [sess]
  dsimp only
  rw [newest]
  dsimp only
  rw [if_pos (decide_eq_true finished), apply_ite State.bind, sendRank_bind, ite_self]

/-- A chunk of a version is kept. -/
theorem paramIn_keeps {m : ChunkMsg} {c : SessCfg} (sess : getSess u m.session = some x) (block : x.cfg = some c) (open' : x.open' = true) (layer : m.layer < c.layers.length) (inside : m.layer < x.layers.length)
    (sender : (senderRank u x flow).isSome) (few : m.chunk < c.chunks m.layer) (new : ∀ n, (x.layer m.layer).newest = some n → n ≤ m.step + 1)
    (standing : x.elastic.restoreVersion = 0xFFFFFFFF ∨ x.elastic.restoreVersion.toNat ≤ m.step) : HasChunk m.session m.layer m.step m.chunk (paramIn flow m u) := by
  unfold paramIn
  rw [sess]
  dsimp only
  rw [block]
  dsimp only
  rw [if_neg (by simp [open', layer, Option.isSome_iff_ne_none.mp sender])]
  refine takeChunk_keeps _ ((getSess_of_bind ?_).trans sess) block inside few new standing
  rw [apply_ite State.bind, forwardChunk_bind, ite_self]

theorem answerResend_gone (r : Nat) (sess : getSess u i = some x) (gone : (x.layer l).kept.find? (fun r => r.version = v) = none) : answerResend i l v r u = (u, false) := by
  unfold answerResend
  rw [sess]
  dsimp only
  rw [gone]

/-- A resend of a version that is kept no longer is discarded and counted. -/
theorem resendIn_discards {c : SessCfg} (sess : getSess u i = some x) (block : x.cfg = some c) (sender : (senderRank u x flow).isSome) (open' : x.open' = true) (layer : l < c.layers.length)
    (mine : x.ownerOf l (v - 1) = x.me) (gone : (x.layer l).kept.find? (fun r => r.version = v) = none) :
    resendIn flow i l v u = updElastic i (fun e => { e with resendsDropped := e.resendsDropped + 1 }) u := by
  obtain ⟨r, sender⟩ := Option.isSome_iff_exists.mp sender
  unfold resendIn
  rw [sess]
  dsimp only
  rw [block, sender]
  dsimp only
  rw [if_neg (by simp [open', layer]), if_pos mine, answerResend_gone r sess gone]

end

/-! A snapshot's chunk at its keeper (R364). -/

/-- A copy that is filling stays. -/
theorem trimKeeps_filling (owner n : Nat) {h : KeepCopy} (filling : h.complete = false) : trimKeeps owner n [h] = [h] := by
  simp [trimKeeps, filling, sortKey]

theorem allChunks_one {n c : Nat} (b : Bytes) (more : 1 < n) : allChunks n (alSet c b []) = false := by
  unfold allChunks
  rw [List.all_eq_false]
  rcases Nat.eq_zero_or_pos c with rfl | pos
  · exact ⟨1, List.mem_range.mpr more, by simp [alSet, alGet]⟩
  · exact ⟨0, List.mem_range.mpr (by omega), by simp [alSet, alGet, Nat.ne_of_gt pos]⟩

section
variable {u : State} {i l owner step chunk : Nat} {x : Session} {c : SessCfg} {b : Bytes}

/-- The first chunk of a snapshot of several is kept, where there is room. -/
theorem keepChunk_keeps (sess : getSess u i = some x) (block : x.cfg = some c) (inside : l < x.layers.length) (few : chunk < shadowChunks c l) (empty : (x.layer l).keeps = [])
    (several : 1 < shadowChunks c l) (room : carveUsed u.bind + b.length ≤ u.bind.carveout.toNat) :
    ∃ y h, getSess (keepChunk i l owner step chunk 2 b u) i = some y ∧ (y.layer l).keeps = [h] ∧ h.owner = owner ∧ h.step = step ∧ h.complete = false ∧ (alGet chunk h.chunks).isSome := by
  have filling := allChunks_one (c := chunk) b several
  unfold keepChunk
  rw [sess]
  dsimp only
  rw [block]
  dsimp only
  rw [empty, if_neg (by simp [Nat.not_le.mpr few]), if_neg (Nat.not_lt.mpr room)]
  let copy : KeepCopy := { owner := owner, step := step, chunks := alSet chunk b [], complete := allChunks (shadowChunks c l) (alSet chunk b []) }
  refine ⟨_, copy, getSess_updLayer _ sess, ?_, rfl, rfl, filling, by simp [copy]⟩
  rw [Session.updLayer_inside _ inside]
  dsimp only
  rw [empty]
  exact trimKeeps_filling owner 2 (h := copy) filling

/-- A chunk of a layer's owner, outside a restore and a handover, is one of a snapshot. -/
theorem tipinIn_keeps {flow : Nat} {m : ChunkMsg} (sess : getSess u m.session = some x) (block : x.cfg = some c) (sender : senderRank u x flow = some owner) (open' : x.open' = true)
    (layer : m.layer < c.layers.length) (calm : (x.layer m.layer).restore = none) (settled : x.elastic.handing = none) (owns : x.elastic.owners.getD m.layer 0xFFFF = owner) :
    tipinIn flow m u = keepChunk m.session m.layer owner m.step m.chunk 2 (m.payload.take (min 1024 (c.shadow m.layer - 1024 * m.chunk))) u := by
  unfold tipinIn
  rw [sess]
  dsimp only
  rw [block, sender]
  dsimp only
  rw [if_neg (by simp [open', layer]), calm, settled]
  dsimp only
  rw [if_neg (fun h => Bool.false_ne_true h.1), if_neg Bool.false_ne_true, if_pos owns]

end

/-- Settles O45: `onStrait_takes` for the order of a packet, and one lemma for the effect of each kind. -/
theorem binderyPacketsHaveTheirEffect : Obligations.BinderyPacketsHaveTheirEffect := by
  refine fun s p f i l v m k => ⟨fun h zero part few => ⟨?_, ?_⟩, fun ranks h small => ⟨?_, ?_⟩, fun whole h => ⟨?_, ?_⟩, fun h => ⟨?_, ?_⟩, fun h short => ⟨?_, ?_⟩, fun h => ⟨?_, ?_⟩,
    fun h short => ⟨?_, ?_⟩⟩
  · exact onStrait_takes_formed h (by simp [zero, part, few]) _
  · exact fun x rank sess sender open' layer mine late => contribIn_counts sess sender open' layer mine late
  · exact onStrait_takes_formed h (List.all_eq_true.mpr fun r mem => decide_eq_true (small r mem)) _
  · exact fun x rank sess sender open' layer inside other pending unrecovered => rollIn_waits sess sender open' layer inside other pending unrecovered
  · exact onStrait_takes h _
  · rintro x rank sess sender open' live rfl mine current
    exact absentIn_stands sess sender open' live mine current
  · exact onStrait_takes h _
  · exact fun x n sess newest finished => recoverIn_finished sess newest finished
  · exact onStrait_takes_formed h (decide_eq_true short) _
  · exact fun x c sess block open' layer inside sender few new standing => paramIn_keeps sess block open' layer inside sender few new standing
  · exact onStrait_takes h _
  · intro x c sess block sender open' layer mine gone
    rw [resendIn_discards sess block sender open' layer mine gone]
    exact ⟨_, getSess_updSession _ sess, rfl, rfl⟩
  · exact onStrait_takes_formed h (decide_eq_true short) _
  · intro x c r sess block sender open' layer inside calm settled owns few empty several room
    rw [tipinIn_keeps sess block sender open' layer calm settled owns]
    exact keepChunk_keeps sess block inside few empty several (Nat.le_trans (Nat.add_le_add_left ((List.length_take_le ..).trans (Nat.min_le_left ..)) _) room)

end Sys2Proof.Machine
end

section
/-!
What a session keeps (R312, R317, R337): publishing a version and closing an owner's step leave the rank's part of its session, and what a rank does after its close leaves the marks of its steps.
-/

namespace Sys2Proof.Machine

/-! A view of a session that two states share. -/

/-- From `s` to `t` what `view` shows of session `i` stays. -/
def KeepsSession {α : Type} (view : Session → α) (i : Nat) (s t : State) : Prop := (getSess t i).map view = (getSess s i).map view

section
variable {α : Type} {view : Session → α} {i : Nat} {s t u : State}

theorem KeepsSession.refl (s : State) : KeepsSession view i s s := rfl
theorem KeepsSession.trans (h : KeepsSession view i s t) (g : KeepsSession view i t u) : KeepsSession view i s u := Eq.trans g h
theorem KeepsSession.of_bind (bind : t.bind = s.bind) : KeepsSession view i s t := congrArg (Option.map view) (getSess_of_bind bind)
theorem KeepsSession.to_bind {t' : State} (h : KeepsSession view i s t) (bind : t'.bind = t.bind) : KeepsSession view i s t' := h.trans (.of_bind bind)
theorem KeepsSession.session {f : Session → Session} (each : ∀ x, view (f x) = view x) (s : State) : KeepsSession view i s (updSession i f s) := by
  unfold KeepsSession
  cases sess : getSess s i with
  | none =>
    unfold getSess updSession at *
    rw [alGet_alMod, if_pos rfl, sess]
    rfl
  | some x => rw [getSess_updSession f sess, Option.map_some, Option.map_some, each]
theorem KeepsSession.ite {P : Prop} [Decidable P] (yes : KeepsSession view i s t) (no : KeepsSession view i s u) : KeepsSession view i s (if P then t else u) := by
  split
  · exact yes
  · exact no
theorem KeepsSession.foldl {β : Type} {f : State → β → State} (each : ∀ s b, KeepsSession view i s (f s b)) (bs : List β) (s : State) : KeepsSession view i s (bs.foldl f s) := by
  induction bs generalizing s with
  | nil => exact .refl s
  | cons b bs ih => exact (each s b).trans (ih _)
/-- A view that shows less is kept too. -/
theorem KeepsSession.coarser {β : Type} {less : Session → β} (h : KeepsSession view i s t) (each : ∀ x y, view y = view x → less y = less x) : KeepsSession less i s t := by
  unfold KeepsSession at *
  cases before : getSess s i with
  | none =>
    rw [before, Option.map_none, Option.map_eq_none_iff] at h
    rw [h]
  | some x =>
    rw [before] at h
    obtain ⟨y, after, same⟩ := Option.map_eq_some_iff.mp h
    rw [after]
    exact congrArg some (each x y same)
/-- The session that is kept. -/
theorem KeepsSession.found {x : Session} (h : KeepsSession view i s t) (sess : getSess s i = some x) : ∃ y, getSess t i = some y ∧ view y = view x := by
  unfold KeepsSession at h
  rw [sess] at h
  exact Option.map_eq_some_iff.mp h

end

theorem getSess_listSession (i : Nat) (s : State) : getSess (listSession i s) i = some ((getSess s i).getD {}) := by
  cases sess : getSess s i with
  | none =>
    unfold listSession
    rw [sess]
    exact alGet_alSet_self _ _ _
  | some x =>
    unfold listSession
    rw [sess]
    exact sess

/-! The rank's part of a session: without what its owners publish and reduce. -/

/-- A layer without what comes with versions and with an owner's reduction. -/
def Layer.rankPart (y : Layer) : Layer := { y with recv := [], tensors := [], kept := [], reduction := [], late := 0, shadows := [], departed := [] }
/-- A session without what comes with versions and with an owner's reduction. -/
def Session.rankPart (x : Session) : Session := { x with elastic := { x.elastic with imageDropped := 0, shortfall := 0 }, layers := x.layers.map Layer.rankPart }

theorem map_modify_same {α β : Type} {f : α → α} {g : α → β} (same : ∀ a, g (f a) = g a) (l : List α) (n : Nat) : (l.modify n f).map g = l.map g := by
  induction l generalizing n with
  | nil => simp
  | cons a l ih => cases n <;> simp [same, ih]

theorem Session.updLayer_rankPart {f : Layer → Layer} (each : ∀ y, (f y).rankPart = y.rankPart) (x : Session) (l : Nat) : (x.updLayer l f).rankPart = x.rankPart := by
  unfold Session.rankPart Session.updLayer
  rw [map_modify_same each]

theorem Session.rankPart_shortfall (x : Session) (n : Nat) : { x with elastic := { x.elastic with shortfall := n } }.rankPart = x.rankPart := rfl

/-- The rank's part of a session stays. -/
abbrev KeepsRankPart (i : Nat) (s t : State) : Prop := KeepsSession Session.rankPart i s t

theorem KeepsRankPart.layer {i : Nat} {f : Layer → Layer} (each : ∀ y, (f y).rankPart = y.rankPart) (l : Nat) (s : State) : KeepsRankPart i s (updLayer i l f s) :=
  .session (fun x => x.updLayer_rankPart each l) s

section
variable (i l : Nat)

theorem placeChunk_rankPart (v c : Nat) (s : State) : KeepsRankPart i s (placeChunk i l v c s) := by
  rcases placeChunk_sessions i l v c s with bind | bind | bind
  · exact .of_bind bind
  · exact .to_bind (.session (f := Session.dropImage) (fun _ => rfl) s) bind
  · exact .to_bind (KeepsRankPart.layer (f := Layer.updRecv v (Version.place c)) (fun _ => rfl) l s) bind
theorem takeChunk_rankPart (v c : Nat) (b : Bytes) (s : State) : KeepsRankPart i s (takeChunk i l v c b s) := by
  have kept : KeepsRankPart i s (updLayer i l (Layer.withChunk v c b (frameNow s)) s) := KeepsRankPart.layer (fun y => by
    unfold Layer.withChunk
    split <;> rfl) l s
  rcases takeChunk_cases i l v c b s with took | took | took <;> rw [took]
  · exact .refl s
  · exact kept
  · exact kept.trans (placeChunk_rankPart i l v c _)
theorem takeShadow_rankPart (w : Nat) (s : State) : KeepsRankPart i s (takeShadow i l w s) := by
  refine .session (fun x => ?_) s
  split
  · split
    · refine (Session.rankPart_shortfall _ _).trans (x.updLayer_rankPart ?_ l)
      exact fun _ => rfl
    · rfl
  · rfl
theorem tipIns_rankPart (v : Nat) (s : State) : KeepsRankPart i s (tipIns i l v s) := by
  unfold tipIns
  split
  · split
    · dsimp only
      refine .trans (.foldl (fun s h => ?_) _ s) (KeepsRankPart.layer ?_ l _)
      · refine .ite (.refl s) (.foldl (fun s k => .ite (.foldl (fun s r => .ite (.of_bind (sendRank_bind ..)) (.refl s)) _ s) (.refl s)) _ s)
      · exact fun _ => rfl
    · exact .refl s
  · exact .refl s
theorem publish_rankPart (v : Nat) (image : Bytes) (exps : List Int) (rec : Bytes) (s : State) : KeepsRankPart i s (publish i l v image exps rec s) := by
  unfold publish
  dsimp only
  refine .trans (.trans (.trans (KeepsRankPart.layer ?_ l s) (.foldl (fun s c => ?_) _ _)) (takeShadow_rankPart i l v _)) (tipIns_rankPart i l v _)
  · exact fun _ => rfl
  · exact (KeepsSession.of_bind (forwardChunk_bind ..)).trans (takeChunk_rankPart i l v c.1 c.2 _)
/-- The close of a layer step is its owner's work alone. -/
theorem closeStep_rankPart (v : Nat) (s : State) : KeepsRankPart i s (closeStep i l v s) := by
  have dropped : ∀ (w : List OwnTensor), KeepsRankPart i s (updLayer i l (fun y => { y with tensors := w, reduction := y.reduction.filter (fun q => q.step ≠ v), late := 0, departed := [] }) s) :=
    fun w => KeepsRankPart.layer (fun _ => by rfl) l s
  unfold closeStep
  split
  · exact .refl s
  · next x _ =>
    split
    · dsimp only
      refine .ite (dropped _) ?_
      have published := fun w image exps rec => (dropped w).trans (publish_rankPart i l (v + 1) image exps rec _)
      split
      · exact .ite ((published ..).to_bind (handOver_bind ..)) (published ..)
      · exact published ..
    · exact .refl s
theorem tryClose_rankPart (v : Nat) (s : State) : KeepsRankPart i s (tryClose i l v s) := by
  unfold tryClose
  split
  · split
    · exact .ite (closeStep_rankPart i l v s) (.refl s)
    · exact .refl s
  · exact .refl s

end

/-! The marks of a session's steps: whether each is closed and withheld, without what goes out of it. -/

/-- A step's work without what goes out of it. -/
def StepWork.marks (w : StepWork) : StepWork := { w with contrib := [], held := [], roll := none }
/-- A layer of the rank's part without what goes out of its steps. -/
def Layer.marks (y : Layer) : Layer := { y.rankPart with steps := y.steps.map StepWork.marks }
/-- A session without what its owners do, what goes out of its steps and what is counted. -/
def Session.marks (x : Session) : Session := { x.rankPart with counters := Vector.replicate 6 0, clamps := 0, layers := x.layers.map Layer.marks }

theorem Session.marks_of_rankPart {x y : Session} (h : y.rankPart = x.rankPart) : y.marks = x.marks := by
  have further : ∀ x : Session, x.marks = { x.rankPart with counters := Vector.replicate 6 0, clamps := 0, layers := x.rankPart.layers.map (fun y => { y with steps := y.steps.map StepWork.marks }) } := fun x => by
    unfold Session.marks Session.rankPart
    rw [List.map_map]
    rfl
  rw [further, h, ← further]

theorem Session.updLayer_marks {f : Layer → Layer} (each : ∀ y, (f y).marks = y.marks) (x : Session) (l : Nat) : (x.updLayer l f).marks = x.marks := by
  unfold Session.marks Session.rankPart Session.updLayer
  rw [map_modify_same each]
theorem Layer.updStep_marks {f : StepWork → StepWork} (each : ∀ w, (f w).marks = w.marks) (v : Nat) (y : Layer) : (y.updStep v f).marks = y.marks := by
  unfold Layer.marks Layer.updStep
  rw [List.map_map]
  refine congrArg (fun ws => { y.rankPart with steps := ws }) (List.map_congr_left fun w _ => ?_)
  dsimp only [Function.comp]
  split
  · exact each w
  · rfl

theorem Session.marks_count (k n : Nat) (x : Session) : (x.count k n).marks = x.marks := rfl

/-- The layer of a session's marks. -/
theorem Session.layer_marks (x : Session) (l : Nat) : x.marks.layer l = (x.layer l).marks := List.getD_map _ ({} : Layer) Layer.marks
theorem Layer.step_marks (y : Layer) (v : Nat) : y.marks.step v = (y.step v).map StepWork.marks := List.find?_map ..

/-- The marks of a session's steps stay. -/
abbrev KeepsMarks (i : Nat) (s t : State) : Prop := KeepsSession Session.marks i s t

section
variable {i : Nat} {s t : State}

theorem KeepsMarks.of_rankPart (h : KeepsRankPart i s t) : KeepsMarks i s t := h.coarser (fun _ _ => Session.marks_of_rankPart)
theorem KeepsMarks.layer {f : Layer → Layer} (each : ∀ y, (f y).marks = y.marks) (l : Nat) (s : State) : KeepsMarks i s (updLayer i l f s) := .session (fun x => x.updLayer_marks each l) s
theorem KeepsMarks.work {f : StepWork → StepWork} (each : ∀ w, (f w).marks = w.marks) (l v : Nat) (s : State) : KeepsMarks i s (updWork i l v f s) :=
  KeepsMarks.layer (Layer.updStep_marks each v) l s

end

section
variable (i l v : Nat)

theorem modRed_rankPart (f : Reduction → Reduction) (s : State) : KeepsRankPart i s (modRed i l v f s) := .session (fun x => x.updLayer_rankPart (fun _ => by rfl) l) s

theorem sendContrib_bind (rank b : Nat) (x : Partial) (leaf : Option Nat) (s : State) : (sendContrib i rank l v b x leaf s).bind = s.bind :=
  (sendContrib_only (gs := [.out, .fab]) (.refl _ s) (by decide) (by decide)).bind_eq (by decide)
theorem forwardPartial_bind (b : Nat) (y : Partial) (s : State) : (forwardPartial i l v b y s).bind = s.bind :=
  (forwardPartial_only (gs := [.out, .fab]) (.refl _ s) (by decide) (by decide)).bind_eq (by decide)

theorem sendOwn_marks (dst : Nat) (leaf : Option Nat) (all : Bool) (s : State) : KeepsMarks i s (sendOwn i l v dst leaf all s) := by
  unfold sendOwn
  split
  · refine .trans (.foldl (fun s q => .of_bind (sendContrib_bind ..)) _ s) (.session (fun x => ?_) _)
    exact (Session.marks_count ..).trans (x.updLayer_marks (Layer.updStep_marks (fun _ => by rfl) v) l)
  · exact .refl s
theorem passRoll_marks (ranks : List Nat) (s : State) : KeepsMarks i s (passRoll i l v ranks s) := by
  unfold passRoll
  split
  · exact .trans ((sendOwn_marks i l v _ _ _ s).to_bind (sendRank_bind ..)) (KeepsMarks.work (fun _ => by rfl) l v _)
  · exact .refl s
theorem foldOn_marks (b : Nat) (y own : Partial) (s : State) : KeepsMarks i s (foldOn i l v b y own s) := by
  refine .to_bind (.session (fun x => ?_) s) (forwardPartial_bind ..)
  exact (Session.marks_count ..).trans ((Session.updLayer_marks (Layer.updStep_marks (fun _ => by rfl) v) _ l).trans (by rfl))
theorem releaseHeld_marks (s : State) : KeepsMarks i s (releaseHeld i l v s) := by
  unfold releaseHeld
  split
  · refine .trans (KeepsMarks.work (fun _ => by rfl) l v s) (.foldl (fun s h => ?_) _ _)
    split
    · exact foldOn_marks i l v _ _ _ s
    · exact .of_bind (forwardPartial_bind ..)
  · exact .refl s

/-- What follows a rank's close leaves the marks. -/
theorem afterClose_marks (s : State) : KeepsMarks i s (afterClose i l v s) := by
  unfold afterClose
  split
  · next x w _ _ =>
    refine .ite ?_ (.ite (.ite (.refl s) (sendOwn_marks ..)) ?_)
    · exact ((KeepsMarks.of_rankPart (modRed_rankPart ..)).trans (KeepsMarks.work (fun _ => by rfl) l v _)).trans (KeepsMarks.of_rankPart (tryClose_rankPart ..))
    · have released := releaseHeld_marks i l v s
      split
      · exact released.trans (passRoll_marks ..)
      · exact .ite (released.trans (passRoll_marks ..)) released
  · exact .refl s

end

end Sys2Proof.Machine
end

section
/-!
Settles O46: versions become visible, and what is missing is asked for again.
-/

namespace Sys2Proof.Machine

theorem Session.inside_of_layer {x : Session} {l : Nat} (h : x.layer l ≠ {}) : l < x.layers.length :=
  Nat.lt_of_not_le fun outside => h (Session.layer_outside outside)

/-! A version that is whole (R339). -/

theorem writeRecord_bind (x : Session) (p : PartId) (b : Bytes) (s : State) : (writeRecord x p b s).1.bind = s.bind :=
  (writeRecord_only (gs := [.out, .free, .parts, .mem, .fab, .ras, .dict]) (.refl _ s) (by decide) (by decide) (by decide) (by decide) (by decide) (by decide) (by decide)).bind_eq (by decide)

/-- What is found under a key is found where only other keys have been dropped. -/
theorem alGet_filter {α : Type} {P : Nat × α → Bool} {k : Nat} (stays : ∀ a, P (k, a) = true) (l : List (Nat × α)) : alGet k (l.filter P) = alGet k l := by
  induction l with
  | nil => rfl
  | cons x l ih =>
    obtain ⟨j, a⟩ := x
    rw [List.filter_cons]
    by_cases own : j = k
    · subst own
      rw [if_pos (stays a)]
      simp [alGet]
    · split <;> simp [alGet, own, ih]

section
variable {v : Nat} {exps : List Int} {tree : Bool}

theorem Layer.publish_agreed (y : Layer) : alGet v (y.publish v exps tree).agreed = some (exps, tree) :=
  (alGet_filter (fun _ => by simp) _).trans (alGet_alSet_self ..)
theorem Layer.publish_recv (y : Layer) : ∀ k ∈ (y.publish v exps tree).recv, v ≤ k.version + 1 := fun _ mem => of_decide_eq_true (List.mem_filter.mp mem).2

end

/-- What publication leaves in the session. -/
def Session.published (l v : Nat) (exps : List Int) (tree : Bool) (x : Session) : Session := { x.updLayer l (Layer.publish v exps tree) with recordCount := x.recordCount + 1 }

section
variable {s : State} {i l v : Nat} {x : Session} {c : SessCfg} {p : PartId} {r : Version} (sess : getSess s i = some x) (block : x.cfg = some c) (part : x.part = some p)
  (come : (x.layer l).recv.find? (fun r => r.version = v) = some r)
include sess block part come

/-- A version whose record is written is published. -/
theorem publishLocal_written (written : (writeRecord x p (r.record (c.imageBytes l) (c.bucketsOf l)) s).2 = .done) :
    getSess (publishLocal i l v s) i = some (x.published l v (r.exps (c.imageBytes l) (c.bucketsOf l)) (recTree (r.record (c.imageBytes l) (c.bucketsOf l)))) := by
  have kept := writeRecord_bind x p (r.record (c.imageBytes l) (c.bucketsOf l)) s
  unfold publishLocal
  rw [sess]
  dsimp only
  rw [block, part, come]
  dsimp only
  generalize writeRecord x p (r.record (c.imageBytes l) (c.bucketsOf l)) s = w at written kept ⊢
  obtain ⟨u, st⟩ := w
  subst written
  have now := getSess_updSession (Session.published l v (r.exps (c.imageBytes l) (c.bucketsOf l)) (recTree (r.record (c.imageBytes l) (c.bucketsOf l)))) ((getSess_of_bind kept).trans sess)
  dsimp only
  split
  · exact now
  · exact now

/-- A version whose record cannot be written stays unpublished. -/
theorem publishLocal_unwritten (failed : (writeRecord x p (r.record (c.imageBytes l) (c.bucketsOf l)) s).2 ≠ .done) : (publishLocal i l v s).bind = s.bind := by
  have kept := writeRecord_bind x p (r.record (c.imageBytes l) (c.bucketsOf l)) s
  unfold publishLocal
  rw [sess]
  dsimp only
  rw [block, part, come]
  dsimp only
  generalize writeRecord x p (r.record (c.imageBytes l) (c.bucketsOf l)) s = w at failed kept ⊢
  obtain ⟨u, st⟩ := w
  split
  · next e =>
    cases e
    exact absurd rfl failed
  · next e =>
    cases e
    exact kept

theorem published_shows (written : (writeRecord x p (r.record (c.imageBytes l) (c.bucketsOf l)) s).2 = .done) :
    ∃ y, getSess (publishLocal i l v s) i = some y ∧ (y.layer l).newest = some v ∧ y.recordCount = x.recordCount + 1 ∧
      alGet v (y.layer l).agreed = some (r.exps (c.imageBytes l) (c.bucketsOf l), recTree (r.record (c.imageBytes l) (c.bucketsOf l))) ∧ ∀ k ∈ (y.layer l).recv, v ≤ k.version + 1 := by
  have inside : l < x.layers.length := Session.inside_of_layer fun none' => by rw [none'] at come; cases come
  have layer : ∀ exps tree, (x.published l v exps tree).layer l = (x.layer l).publish v exps tree := fun _ _ => x.updLayer_inside _ inside
  refine ⟨_, publishLocal_written sess block part come written, ?_, rfl, ?_, ?_⟩ <;> rw [layer]
  · rfl
  · exact Layer.publish_agreed _
  · exact Layer.publish_recv _

end

/-! A resend is asked for (R340). -/

section
variable {s : State} {i l v f : Nat} {x : Session} {z : Flow}

theorem rankFlow_updSession {g : Session → Session} (block : ∀ x, (g x).cfg = x.cfg) (rank cls : Nat) : rankFlow (updSession i g s) i rank cls = rankFlow s i rank cls := by
  have cfg : (getSess (updSession i g s) i).bind (·.cfg) = (getSess s i).bind (·.cfg) := by
    unfold getSess updSession
    rw [alGet_alMod, if_pos rfl, Option.bind_map]
    exact congrArg (Option.bind _) (funext block)
  unfold rankFlow
  rw [cfg]
  rfl

/-- The request goes to the owner. -/
theorem requestResend_sends (sess : getSess s i = some x) (other : x.ownerOf l (v - 1) ≠ x.me) (way : rankFlow s i (x.ownerOf l (v - 1)) 5 = some f) :
    requestResend i l v s = sendPkt f 5 1 (sessCsf i l v 0) [] (expectResend i l v s) := by
  have way : rankFlow (expectResend i l v s) i (x.ownerOf l (v - 1)) 5 = some f := (rankFlow_updSession (fun _ => by rfl) _ _).trans way
  unfold requestResend
  rw [sess]
  dsimp only
  rw [if_neg other, sendRank, way]
  rfl

theorem requestResend_flow (sess : getSess s i = some x) (other : x.ownerOf l (v - 1) ≠ x.me) (way : rankFlow s i (x.ownerOf l (v - 1)) 5 = some f) (flow : getFlow s f = some z)
    (opened : z.state = .opened) (named : s.fab.idInForce ≠ 0xFFFF) :
    ∃ z', getFlow (requestResend i l v s) f = some z' ∧ z'.txPsn = z.txPsn + 1 ∧ z'.unacked = z.unacked ++ [mkPkt s f z 16 5 1 (sessCsf i l v 0) []] ∧
      OnlyTouches [.out, .fab, .bind] s (requestResend i l v s) := by
  rw [requestResend_sends sess other way]
  refine ⟨z.withSent (mkPkt s f z 16 5 1 (sessCsf i l v 0) []) (frameNow s), ?_, rfl, rfl, sendPkt_only (updLayer_only (.refl _ s) (by decide)) (by decide) (by decide)⟩
  unfold getFlow
  rw [sendPkt_flows (u := expectResend i l v s) flow opened (.inl named)]
  exact alGet_alSet_self ..

end

/-! A keeper that does not answer (R371). -/

theorem sendHeads_bind (i chunk : Nat) (m : RosterMsg) (s : State) : (sendHeads i chunk m s).bind = s.bind :=
  (sendHeads_only (gs := [.out, .fab]) (.refl _ s) (by decide) (by decide)).bind_eq (by decide)

section
variable {s : State} {i l w k : Nat} {x : Session} {ks : List Nat} {chunks : List (Nat × Bytes)}

/-- The keeper that stands first is asked, and the restore ends where none is left. -/
theorem askKeeper_asks (sess : getSess s i = some x) (inside : l < x.layers.length) (restore : (x.layer l).restore = some (w, ks, chunks)) :
    ∃ y, getSess (askKeeper i l s) i = some y ∧ (y.layer l).restore = if ks = [] then none else some (w, ks, []) := by
  unfold askKeeper
  rw [sess]
  dsimp only
  rw [restore]
  cases ks with
  | cons k ks =>
    refine ⟨_, (getSess_of_bind (sendRank_bind ..)).trans (getSess_updLayer _ sess), ?_⟩
    rw [Session.updLayer_inside _ inside]
    rfl
  | nil =>
    dsimp only
    have ended := fun chunk m => (getSess_of_bind (sendHeads_bind i chunk m _)).trans (getSess_updLayer (l := l) (fun y => { y with restore := none }) sess)
    split
    · refine ⟨_, getSess_updSession _ (ended ..), ?_⟩
      exact congrArg Layer.restore (x.updLayer_inside _ inside)
    · exact ⟨_, ended .., congrArg Layer.restore (x.updLayer_inside _ inside)⟩

/-- The keeper asked is passed over. -/
theorem passKeeper_passes (sess : getSess s i = some x) (restore : (x.layer l).restore = some (w, k :: ks, chunks)) :
    ∃ y, getSess (passKeeper i l s) i = some y ∧ (y.layer l).restore = if ks = [] then none else some (w, ks, []) := by
  have inside : l < x.layers.length := Session.inside_of_layer fun none' => by rw [none'] at restore; cases restore
  refine askKeeper_asks (chunks := []) (getSess_updLayer _ sess) (by simpa [Session.updLayer] using inside) ?_
  rw [Session.updLayer_inside _ inside]
  dsimp only
  rw [restore]
  rfl

theorem keeperDue_of (sess : getSess s i = some x) (open' : x.open' = true) (restore : (x.layer l).restore = some (w, k :: ks, chunks)) (late : (x.layer l).restoreAsked + 2 ≤ frameNow s) :
    keeperDue s i l = true := by
  unfold keeperDue
  rw [sess]
  dsimp only
  rw [restore, open']
  exact decide_eq_true late

end

/-- Settles O46: `published_shows` and `publishLocal_unwritten` for a version that is whole, `requestResend_flow` for a resend, `passKeeper_passes` for a silent keeper. -/
theorem versionsArePublishedAndAskedFor : Obligations.VersionsArePublishedAndAskedFor := by
  refine fun s i x l v sess up => ⟨fun c p r block part come may => ?_, fun f z due other way flow opened named => ?_, fun w k ks chunks open' restore late => ?_⟩
  · have run : exec (.versionPublish i l v) s = .next (publishLocal i l v s) := need_of (Bool.and_eq_true_iff.mpr ⟨up, may⟩)
    by_cases written : (writeRecord x p (r.record (c.imageBytes l) (c.bucketsOf l)) s).2 = .done
    · obtain ⟨y, now, shows⟩ := published_shows sess block part come written
      exact ⟨_, y, run, now, by rwa [if_pos written]⟩
    · have bind := publishLocal_unwritten sess block part come written
      exact ⟨_, x, run, (getSess_of_bind bind).trans sess, by rwa [if_neg written]⟩
  · obtain ⟨z', now, sent⟩ := requestResend_flow sess other way flow opened named
    exact ⟨_, z', need_of (Bool.and_eq_true_iff.mpr ⟨up, due⟩), now, sent⟩
  · obtain ⟨y, now, restored⟩ := passKeeper_passes sess restore
    exact ⟨_, y, need_of (Bool.and_eq_true_iff.mpr ⟨up, keeperDue_of sess open' restore late⟩), now, restored, passKeeper_only (.refl _ s) (by decide) (by decide) (by decide)⟩

end Sys2Proof.Machine
end

section
/-!
A rank that closes or withholds a layer (R321, R322). What follows a rank's close leaves the marks of its steps (`afterClose_marks`), so they are read where the rank sets them.
-/

namespace Sys2Proof.Machine

/-! What the marks show. -/

theorem Session.layer_of_marks {x y : Session} (h : y.marks = x.marks) (l : Nat) : (y.layer l).marks = (x.layer l).marks := by
  rw [← Session.layer_marks, h, Session.layer_marks]
theorem Layer.closed_of_marks {x y : Layer} (h : y.marks = x.marks) : y.closed = x.closed := by simpa [Layer.marks, Layer.rankPart] using congrArg Layer.closed h
theorem Layer.residual_of_marks {x y : Layer} (h : y.marks = x.marks) : y.residual = x.residual := by simpa [Layer.marks, Layer.rankPart] using congrArg Layer.residual h
/-- A step that is closed and withheld stays so. -/
theorem Layer.withheld_of_marks {x y : Layer} {v : Nat} (h : y.marks = x.marks) (withheld : ∃ k, x.step v = some k ∧ k.closed = true ∧ k.withheld = true) :
    ∃ k, y.step v = some k ∧ k.closed = true ∧ k.withheld = true := by
  obtain ⟨k, step, closed, held⟩ := withheld
  have same : (y.step v).map StepWork.marks = some k.marks := by rw [← Layer.step_marks, h, Layer.step_marks, step, Option.map_some]
  obtain ⟨w, now, marks⟩ := Option.map_eq_some_iff.mp same
  exact ⟨w, now, (congrArg StepWork.closed marks).trans closed, (congrArg StepWork.withheld marks).trans held⟩

theorem Session.updLayer_length (f : Layer → Layer) (x : Session) (l : Nat) : (x.updLayer l f).layers.length = x.layers.length := by simp [Session.updLayer]
theorem Session.updLayer_other (f : Layer → Layer) (x : Session) {l k : Nat} (other : k ≠ l) : (x.updLayer l f).layer k = x.layer k := by
  simp [Session.layer, Session.updLayer, List.getD_eq_getElem?_getD, Ne.symm other]

/-! A layer that is withheld (R321). -/

/-- A step's work that is withheld: what was computed is discarded. -/
def StepWork.withhold (w : StepWork) : StepWork := { w with closed := true, withheld := true, g := [], waiting := [] }
/-- A layer with a step withheld. -/
def Layer.withhold (v : Nat) (y : Layer) : Layer := { y.updStep v StepWork.withhold with closed := (v :: y.closed).dedup }

section
variable (v : Nat) (y : Layer)

theorem Layer.withhold_closed : v ∈ (y.withhold v).closed := List.mem_dedup.mpr (List.mem_cons_self ..)
theorem Layer.withStep_residual : (y.withStep v).residual = y.residual := by
  unfold Layer.withStep
  split <;> rfl
theorem Layer.withhold_step : ∃ k, ((y.withStep v).withhold v).step v = some k ∧ k.closed = true ∧ k.withheld = true := by
  obtain ⟨w, opened⟩ := y.step_withStep v
  exact ⟨w.withhold, Layer.step_updStep (fun _ => by rfl) opened, rfl, rfl⟩

end

section
variable {s : State} {i l v : Nat} {x : Session}

theorem getSess_openWork (sess : getSess s i = some x) : getSess (openWork i l v s) i = some (x.updLayer l (Layer.withStep v)) := getSess_updLayer _ sess

/-- A rank that withholds a layer marks its step. -/
theorem withholdLayer_marks (sess : getSess s i = some x) : ∃ y, getSess (withholdLayer i l v s) i = some y ∧ y.marks = ((x.updLayer l (Layer.withStep v)).updLayer l (Layer.withhold v)).marks := by
  have marked := getSess_updLayer (l := l) (Layer.withhold v) (getSess_openWork (l := l) (v := v) sess)
  unfold withholdLayer
  rw [sess]
  refine (afterClose_marks i l v _).found ?_
  split
  · exact marked
  · exact (getSess_of_bind (sendRank_bind ..)).trans marked

/-- Withholding a layer leaves how many layers there are, and which steps are withheld. -/
theorem withholdLayer_shape (i l v : Nat) (s : State) : KeepsSession (fun x => (x.layers.length, x.withholding)) i s (withholdLayer i l v s) := by
  unfold KeepsSession
  cases sess : getSess s i with
  | none =>
    unfold withholdLayer
    rw [sess]
    exact congrArg (Option.map _) sess
  | some x =>
    obtain ⟨y, now, marks⟩ := withholdLayer_marks (l := l) (v := v) sess
    rw [now]
    have layers : y.layers.length = x.layers.length := by
      simpa [Session.marks, Session.updLayer] using congrArg (fun z : Session => z.layers.length) marks
    have withholding := congrArg Session.withholding marks
    exact congrArg some (Prod.ext layers withholding)

/-- The step is closed at the rank. -/
def StepClosed (i l v : Nat) (s : State) : Prop := ∃ y, getSess s i = some y ∧ v ∈ (y.layer l).closed
/-- The step is closed at the rank, and withheld. -/
def StepWithheld (i l v : Nat) (s : State) : Prop := ∃ y, getSess s i = some y ∧ ∃ k, (y.layer l).step v = some k ∧ k.closed = true ∧ k.withheld = true

section
variable (sess : getSess s i = some x) (inside : l < x.layers.length)
include sess inside

theorem withholdLayer_withholds : ∃ y, getSess (withholdLayer i l v s) i = some y ∧ v ∈ (y.layer l).closed ∧ (y.layer l).residual = (x.layer l).residual ∧
    ∃ k, (y.layer l).step v = some k ∧ k.closed = true ∧ k.withheld = true := by
  obtain ⟨y, now, marks⟩ := withholdLayer_marks (l := l) (v := v) sess
  have layer := Session.layer_of_marks marks l
  rw [Session.updLayer_inside _ (by rwa [Session.updLayer_length]), Session.updLayer_inside _ inside] at layer
  exact ⟨y, now, Layer.closed_of_marks layer ▸ Layer.withhold_closed v _, (Layer.residual_of_marks layer).trans (Layer.withStep_residual v _), Layer.withheld_of_marks layer (Layer.withhold_step v _)⟩
theorem withholdLayer_closed : StepClosed i l v (withholdLayer i l v s) := by
  obtain ⟨y, now, closed, -⟩ := withholdLayer_withholds (v := v) sess inside
  exact ⟨y, now, closed⟩
theorem withholdLayer_withheld : StepWithheld i l v (withholdLayer i l v s) := by
  obtain ⟨y, now, -, -, step⟩ := withholdLayer_withholds (v := v) sess inside
  exact ⟨y, now, step⟩

end

theorem StepWithheld.withholdLayer {k : Nat} (h : StepWithheld i k v s) (l : Nat) : StepWithheld i k v (withholdLayer i l v s) := by
  obtain ⟨x, sess, step⟩ := h
  by_cases own : k = l
  · subst own
    refine withholdLayer_withheld sess (Session.inside_of_layer fun none' => ?_)
    obtain ⟨w, step, -⟩ := step
    rw [none'] at step
    cases step
  · obtain ⟨y, now, marks⟩ := withholdLayer_marks (l := l) (v := v) sess
    have layer := Session.layer_of_marks marks k
    rw [Session.updLayer_other _ _ own, Session.updLayer_other _ _ own] at layer
    exact ⟨y, now, Layer.withheld_of_marks layer step⟩

/-- Each of the layers that are withheld one after the other is. -/
theorem foldl_withholdLayer {k : Nat} {ls : List Nat} (sess : getSess s i = some x) (inside : k < x.layers.length) (mem : k ∈ ls) : StepWithheld i k v (ls.foldl (fun s l => withholdLayer i l v s) s) := by
  induction ls generalizing s x with
  | nil => cases mem
  | cons l ls ih =>
    obtain ⟨y, now, shape⟩ := (withholdLayer_shape i l v s).found sess
    by_cases later : k ∈ ls
    · have layers : y.layers.length = x.layers.length := (Prod.ext_iff.mp shape).1
      exact ih now (layers ▸ inside) later
    · obtain rfl : k = l := (List.mem_cons.mp mem).resolve_right later
      have stays : ∀ (ls : List Nat) (s : State), StepWithheld i k v s → StepWithheld i k v (ls.foldl (fun s l => withholdLayer i l v s) s) := fun ls => by
        induction ls with
        | nil => exact fun _ h => h
        | cons l ls ih => exact fun _ h => ih _ (h.withholdLayer l)
      exact stays ls _ (withholdLayer_withheld sess inside)

end

/-! The rank's own close (R321, R322). -/

section
variable {s : State} {i l v : Nat} {x : Session} (sess : getSess s i = some x) (inside : l < x.layers.length)
include sess inside

theorem buildLayer_closed {c : SessCfg} (block : x.cfg = some c) : StepClosed i l v (buildLayer i l v s) := by
  unfold buildLayer
  rw [sess]
  dsimp only
  rw [block]
  dsimp only
  obtain ⟨y, now, marks⟩ := (afterClose_marks i l v _).found (getSess_updSession _ (getSess_openWork (l := l) (v := v) sess))
  refine ⟨y, now, ?_⟩
  rw [Layer.closed_of_marks (Session.layer_of_marks (marks.trans (Session.marks_count ..)) l), Session.updLayer_inside _ (by rwa [Session.updLayer_length])]
  exact List.mem_dedup.mpr (List.mem_cons_self ..)

theorem closeRank_closed {c : SessCfg} (block : x.cfg = some c) : StepClosed i l v (closeRank i l v s) := by
  unfold closeRank
  rw [sess]
  dsimp only
  split
  · exact withholdLayer_closed sess inside
  · split
    · exact withholdLayer_closed (getSess_updSession _ sess) inside
    · split
      · exact withholdLayer_closed (getSess_updLayer _ sess) (by rwa [Session.updLayer_length])
      · exact buildLayer_closed sess inside block

omit inside in
theorem closeRank_withholding (must : v ∈ x.withholding) : closeRank i l v s = withholdLayer i l v s := by
  unfold closeRank
  rw [sess]
  exact if_pos (List.contains_iff_mem.mpr must)

end

end Sys2Proof.Machine
end

section
/-!
Settles O44: layers close, are withheld, or are recovered by their owner.
-/

namespace Sys2Proof.Machine

/-! Writes of CLOSE_LAYER and WITHHOLD (R316, R321). -/

section
variable {s : State} {q : Req} {i l v : Nat} {x : Session} {w : BitVec 64} (sess : getSess s i = some x) (sv : served s (0x7001 + i)) (few : i < 255) (may : sessMay s q i)
  (short : w.toNat < 2 ^ 48) (word : w.toNat = v * 2 ^ 16 + l) (small : l < 2 ^ 16)
include sess sv few may short word small

theorem opCloseLayer_of (ok : closable x l v = true) : opCloseLayer q i w s = (closeRank i l v s, .done) := by
  obtain ⟨rfl, rfl⟩ : w.toNat % 2 ^ 16 = l ∧ w.toNat / 2 ^ 16 = v := by omega
  refine guarded_of sv ?_
  rw [sess]
  simp only [few, may, short, ok, decide_true, Bool.and_true]

theorem opWithhold_of (open' : x.open' = true) (still : l = 0xFFFF ∨ (unclosed x v).contains l) : opWithhold q i w s = (withhold i l v s, .done) := by
  obtain ⟨rfl, rfl⟩ : w.toNat % 2 ^ 16 = l ∧ w.toNat / 2 ^ 16 = v := by omega
  refine guarded_of sv ?_
  rw [sess]
  simp only [few, may, short, open', decide_true, Bool.true_and, Bool.or_eq_true, decide_eq_true_eq]
  exact still

end

/-- A layer that may be closed is one of the session's, which has its block. -/
theorem closable_inside {x : Session} {l v : Nat} (ok : closable x l v = true) : l < x.layers.length ∧ ∃ c, x.cfg = some c := by
  simp only [closable, Session.open', Bool.and_eq_true] at ok
  obtain ⟨⟨⟨⟨-, block⟩, -⟩, known⟩, -⟩ := ok
  refine ⟨Session.inside_of_layer fun none' => ?_, Option.isSome_iff_exists.mp block⟩
  rw [none'] at known
  cases known

/-- WITHHOLD withholds the layers that it names, and notes the step. -/
theorem withhold_withholds {s : State} {i : Nat} {x : Session} (sess : getSess s i = some x) (l v : Nat) : ∃ y, getSess (withhold i l v s) i = some y ∧ v ∈ y.withholding ∧
    ∀ k ∈ (if l = 0xFFFF then unclosed x v else [l]), k < x.layers.length → ∃ z, (y.layer k).step v = some z ∧ z.closed = true ∧ z.withheld = true := by
  have noted := getSess_updSession (fun x => { x with withholding := (v :: x.withholding).dedup }) sess
  unfold withhold
  rw [sess]
  obtain ⟨y, now, shape⟩ := (KeepsSession.foldl (fun s l => withholdLayer_shape i l v s) (if l = 0xFFFF then unclosed x v else [l]) _).found noted
  have withholding : y.withholding = (v :: x.withholding).dedup := (Prod.ext_iff.mp shape).2
  refine ⟨y, now, withholding ▸ List.mem_dedup.mpr (List.mem_cons_self ..), fun k mem inside => ?_⟩
  obtain ⟨y', now', step⟩ := foldl_withholdLayer (v := v) noted inside mem
  cases now.symm.trans now'
  exact step

/-! The fold window (R327). -/

/-- A partial whose window has passed waits no longer. -/
theorem windowFalls_drops {s : State} {i l v b : Nat} {x : Session} {w : StepWork} {h : Nat × Partial} (sess : getSess s i = some x) (work : (x.layer l).step v = some w)
    (held : w.held.find? (fun h => h.1 = b) = some h) : workOf (windowFalls i l v b s) i l v = some { w with held := w.held.filter (fun k => k.1 ≠ b) } := by
  have inside : l < x.layers.length := Session.inside_of_layer fun none' => by rw [none'] at work; cases work
  unfold windowFalls
  rw [workOf_of_sess sess, work, Option.bind_some, held]
  refine (workOf_of_sess ((getSess_of_bind (forwardPartial_bind ..)).trans (getSess_updLayer _ sess)) v).trans ?_
  rw [Session.updLayer_inside _ inside]
  exact Layer.step_updStep (fun _ => by rfl) work

theorem windowDue_of {s : State} {i l v b : Nat} {w : StepWork} {h : Nat × Partial} (work : workOf s i l v = some w) (pending : w.closed = false) (held : w.held.find? (fun h => h.1 = b) = some h) :
    windowDue s i l v b = true := by
  have waits : w.held.any (fun h => h.1 = b) = true := by simpa [held] using List.find?_isSome (xs := w.held) (p := fun h => decide (h.1 = b))
  unfold windowDue
  rw [work]
  dsimp only
  rw [pending, waits]
  rfl

/-! The owner's deadline (R332, R333). -/

/-- What a choice of one after the other leaves is the first or one of the list. -/
theorem foldl_picks {α : Type} {f : Option α → α → Option α} (pick : ∀ m a, f m a = m ∨ f m a = some a) {l : List α} {m : Option α} {v : α} (h : l.foldl f m = some v) : m = some v ∨ v ∈ l := by
  induction l generalizing m with
  | nil => exact .inl h
  | cons a l ih =>
    rcases ih h with first | later
    · rcases pick m a with e | e <;> rw [e] at first
      · exact .inl first
      · exact .inr (Option.some.inj first ▸ List.mem_cons_self ..)
    · exact .inr (List.mem_cons_of_mem _ later)

/-- The newest version of an owner is one that it keeps. -/
theorem Layer.kept_of_ownStep {y : Layer} {v : Nat} (own : y.ownStep = some v) : ∃ old, y.kept.find? (fun r => r.version = v) = some old := by
  have newest : v ∈ y.kept.map (·.version) := (foldl_picks (fun m n => ?_) own).resolve_left (by simp)
  · obtain ⟨r, mem, version⟩ := List.mem_map.mp newest
    exact Option.isSome_iff_exists.mp (List.find?_isSome.mpr ⟨r, mem, decide_eq_true version⟩)
  · cases m with
    | none => exact .inr rfl
    | some k => exact (max_choice n k).symm.imp (congrArg some) (congrArg some)

section
variable {s : State} {i l v : Nat} {x : Session} {r : Reduction}

theorem Session.inside_of_redOf (red : redOf x l v = some r) : l < x.layers.length :=
  Session.inside_of_layer fun none' => by
    unfold redOf at red
    rw [none'] at red
    cases red

theorem deadlineDue_of (sess : getSess s i = some x) (red : redOf x l v = some r) (open' : x.open' = true) (own : (x.layer l).ownStep = some v) (due : r.deadline ≤ frameNow s) :
    deadlineDue s i l v = true := by
  unfold deadlineDue
  rw [sess]
  dsimp only
  rw [red]
  simp [open', own, due]
theorem deadlineFalls_of (sess : getSess s i = some x) (red : redOf x l v = some r) : deadlineFalls i l v s = if r.tree ∨ r.recovering then closeStep i l v s else startRecovery i l v s := by
  unfold deadlineFalls
  rw [sess]
  dsimp only
  rw [red]

/-- A layer whose step has closed at its owner. -/
def Layer.afterStep (v : Nat) (ts : List OwnTensor) (y : Layer) : Layer := { y with tensors := ts, reduction := y.reduction.filter (fun q => q.step ≠ v), late := 0, departed := [] }

/-- The close of a step drops its reduction first. -/
theorem closeStep_drops {c : SessCfg} {old : Version} (sess : getSess s i = some x) (block : x.cfg = some c) (red : redOf x l v = some r) (kept : (x.layer l).kept.find? (fun r => r.version = v) = some old) :
    ∃ ts, ShrinksReduction i l (updLayer i l (Layer.afterStep v ts) s) (closeStep i l v s) := by
  unfold closeStep
  rw [sess]
  dsimp only
  rw [block, red, kept]
  dsimp only
  refine ⟨_, .ite (.refl _) ?_⟩
  rcases x.elastic.handoverMap with _ | ⟨h, m⟩
  · exact publish_shrinks i l (v + 1) _ _ _ _
  · rcases x.elastic.handing with _ | ⟨who, _⟩
    · exact publish_shrinks i l (v + 1) _ _ _ _
    · exact .ite ((publish_shrinks i l (v + 1) _ _ _ _).to_bind (handOver_bind ..)) (publish_shrinks i l (v + 1) _ _ _ _)

theorem closeStep_closes {c : SessCfg} (sess : getSess s i = some x) (block : x.cfg = some c) (red : redOf x l v = some r) (own : (x.layer l).ownStep = some v) :
    ∃ y, getSess (closeStep i l v s) i = some y ∧ ∀ z ∈ (y.layer l).reduction, z.step ≠ v := by
  obtain ⟨old, kept⟩ := Layer.kept_of_ownStep own
  obtain ⟨ts, shrinks⟩ := closeStep_drops sess block red kept
  obtain ⟨y, now, fewer⟩ := shrinks _ (getSess_updLayer _ sess)
  rw [Session.updLayer_inside _ (Session.inside_of_redOf red)] at fewer
  exact ⟨y, now, fun z mem => of_decide_eq_true (List.mem_filter.mp (fewer mem)).2⟩

/-! A recovery. -/

/-- What a recovery discards is not taken up again with this rank's own answer. -/
theorem ownAnswer_fresh (x : Session) (l v : Nat) (r : Reduction) : (ownAnswer x l v r).recovering = r.recovering ∧ (ownAnswer x l v r).acc = r.acc := by
  have leaf : ∀ (b : Nat) (y : Partial) (r : Reduction), (r.leaf x.me b y true).recovering = r.recovering ∧ (r.leaf x.me b y true).acc = r.acc := fun b y r => by
    unfold Reduction.leaf
    split
    · exact ⟨rfl, rfl⟩
    · split <;> exact ⟨rfl, rfl⟩
  have leaves : ∀ (qs : List (Nat × Partial × Bool)) (r : Reduction), (qs.foldl (fun r q => r.leaf x.me q.1 q.2.1 true) r).recovering = r.recovering ∧
      (qs.foldl (fun r q => r.leaf x.me q.1 q.2.1 true) r).acc = r.acc := fun qs => by
    induction qs with
    | nil => exact fun _ => ⟨rfl, rfl⟩
    | cons q qs ih => exact fun r => ⟨(ih _).1.trans (leaf ..).1, (ih _).2.trans (leaf ..).2⟩
  unfold ownAnswer
  split
  · next w _ =>
    split
    · exact ⟨rfl, rfl⟩
    · split
      · exact leaves w.contrib r
      · exact ⟨rfl, rfl⟩
  · exact ⟨rfl, rfl⟩

/-- After a change of a step's reductions each of them is changed. -/
theorem modRed_each {f : Reduction → Reduction} (sess : getSess s i = some x) (inside : l < x.layers.length) :
    ∃ y, getSess (modRed i l v f s) i = some y ∧ y.counters = x.counters ∧ y.layers.length = x.layers.length ∧ ∀ z ∈ (y.layer l).reduction, z.step = v → ∃ r, z = f r := by
  refine ⟨_, getSess_updSession _ sess, rfl, Session.updLayer_length .., fun z mem step => ?_⟩
  rw [Session.updLayer_inside _ inside] at mem
  obtain ⟨r, -, rfl⟩ := List.mem_map.mp mem
  by_cases own : r.step = v
  · exact ⟨r, if_pos own⟩
  · rw [if_neg own] at step
    exact absurd step own

/-- What leaves the sessions each time leaves them. -/
theorem foldl_bind {β : Type} {f : State → β → State} (each : ∀ s b, (f s b).bind = s.bind) (bs : List β) (s : State) : (bs.foldl f s).bind = s.bind := by
  induction bs generalizing s with
  | nil => rfl
  | cons b bs ih => exact (ih _).trans (each s b)

/-- A reduction that starts over for a recovery. -/
def Reduction.restart (deadline : Nat) (r : Reduction) : Reduction :=
  { r with recovering := true, acc := [], leaves := [], counted := [], given := [], absent := [], dropped := [], rescaled := [], rollDone := false, deadline := deadline }

/-- A recovery is counted, and what the step had gathered is discarded. -/
theorem startRecovery_restarts (sess : getSess s i = some x) (inside : l < x.layers.length) : ∃ y, getSess (startRecovery i l v s) i = some y ∧
    y.counters[(5 : Nat)]'(by decide) = x.counters[(5 : Nat)]'(by decide) + 1 ∧ ∀ z ∈ (y.layer l).reduction, z.step = v → z.recovering = true ∧ z.acc = [] := by
  unfold startRecovery
  rw [sess]
  dsimp only
  obtain ⟨x', changed, counters, layers, each⟩ := modRed_each (v := v) (f := fun r => ownAnswer x l v (r.restart (frameNow s + (match x.cfg with | some c => c.deadline | none => 0)))) sess inside
  have counted := getSess_updSession (fun x => (x.count 5 1).updLayer l (Layer.updStep v (fun w => { w with recovered := true, held := [], roll := none }))) changed
  have asked := (getSess_of_bind (foldl_bind (fun s r => sendRank_bind i r 4 0 l v 0xFFFFFF recoverPayload s) (x.elastic.live.filter (fun r => r ≠ x.me)) _)).trans counted
  obtain ⟨y, now, rank⟩ := (tryClose_rankPart i l v _).found asked
  obtain ⟨y', now', fewer⟩ := tryClose_shrinks i l v _ _ asked
  cases now.symm.trans now'
  refine ⟨y, now, ?_, fun z mem step => ?_⟩
  · have same := congrArg Session.counters rank
    dsimp only [Session.rankPart] at same
    rw [same, ← counters]
    simp [Session.count, Session.updLayer, bump]
  · have before := fewer mem
    rw [Session.updLayer_inside _ (layers ▸ inside)] at before
    obtain ⟨r, rfl⟩ := each z before step
    exact ownAnswer_fresh ..

end

/-- Settles O44: what a rank closes is read in the marks of its steps, what its owner closes or recovers in the reductions that are left. -/
theorem layersCloseAreWithheldOrRecovered : Obligations.LayersCloseAreWithheldOrRecovered := by
  refine fun s i x l v sess => ⟨fun q w reach sv few may short word small ok => ?_, fun q w reach sv few may short word small open' still => ?_, fun b w h up work pending held => ?_,
    fun r up open' red own due => ?_⟩
  · obtain ⟨inside, c, block⟩ := closable_inside ok
    have run : exec (.closeLayer q i w) s = .next (answer q (closeRank i l v s, .done)) := software_done reach (opCloseLayer_of sess sv few may short word small ok)
    obtain ⟨y, now, closed⟩ := closeRank_closed (v := v) sess inside block
    refine ⟨_, y, run, now, closed, List.getLast?_concat, fun must => ?_⟩
    obtain ⟨y', now', -, residual, step⟩ := withholdLayer_withholds (v := v) sess inside
    rw [closeRank_withholding sess must] at now
    cases now.symm.trans now'
    exact ⟨residual, step⟩
  · have run : exec (.withhold q i w) s = .next (answer q (withhold i l v s, .done)) := software_done reach (opWithhold_of sess sv few may short word small open' still)
    obtain ⟨y, now, noted, withheld⟩ := withhold_withholds sess l v
    exact ⟨_, y, run, now, noted, List.getLast?_concat, withheld⟩
  · have step := (workOf_of_sess sess v).symm.trans work
    exact ⟨_, need_of (Bool.and_eq_true_iff.mpr ⟨up, windowDue_of work pending held⟩), windowFalls_drops sess step held, windowFalls_only (.refl _ s) (by decide) (by decide) (by decide)⟩
  · have run : exec (.ownerDeadline i l v) s = .next (if r.tree ∨ r.recovering then closeStep i l v s else startRecovery i l v s) := by
      rw [← deadlineFalls_of sess red]
      exact need_of (Bool.and_eq_true_iff.mpr ⟨up, deadlineDue_of sess red open' own due⟩)
    by_cases gathered : r.tree ∨ r.recovering
    · obtain ⟨c, block⟩ := Option.isSome_iff_exists.mp (Bool.and_eq_true_iff.mp open').2
      obtain ⟨y, now, closed⟩ := closeStep_closes sess block red own
      exact ⟨_, y, run.trans (congrArg Host.Outcome.next (if_pos gathered)), now, by rwa [if_pos gathered]⟩
    · obtain ⟨y, now, restarted⟩ := startRecovery_restarts (v := v) sess (Session.inside_of_redOf red)
      exact ⟨_, y, run.trans (congrArg Host.Outcome.next (if_neg gathered)), now, by rwa [if_neg gathered]⟩

end Sys2Proof.Machine
end

section
/-!
Settles O43: sessions open, form and close. Whether a session runs is decided by `tryRun`; what it publishes then leaves the rank's part of the session (`publish_rankPart`).
-/

namespace Sys2Proof.Machine

/-! A session runs (R315). -/

/-- Every owner is this rank or has answered with an equal digest. -/
def Session.whole (x : Session) : Bool := x.elastic.owners.all (fun r => r = x.me || x.agreed.contains r)
/-- A session that forms runs where it is whole. -/
def Session.ran (x : Session) : Session := if x.state = 1 ∧ x.whole then { x with state := 2 } else x

theorem Session.ran_of {x : Session} (h : x.state = 1 ∧ x.whole) : x.ran = { x with state := 2 } := if_pos h
theorem Session.ran_not {x : Session} (h : ¬(x.state = 1 ∧ x.whole)) : x.ran = x := if_neg h
theorem Session.ran_forming {x : Session} (forming : x.state = 1) : x.ran = { x with state := if x.whole then 2 else 1 } := by
  cases whole : x.whole
  · rw [Session.ran_not (by simp [whole]), if_neg Bool.false_ne_true, ← forming]
  · rw [Session.ran_of ⟨forming, whole⟩, if_pos rfl]
theorem Session.ran_running {x : Session} (running : x.state = 2) : x.ran = x := Session.ran_not (by simp [running])

/-- Running changes the state alone. -/
theorem Session.ran_kept (x : Session) : ∃ st, x.ran = { x with state := st } := by
  unfold Session.ran
  split
  · exact ⟨2, rfl⟩
  · exact ⟨x.state, rfl⟩

theorem publishFirst_rankPart (i l : Nat) (s : State) : KeepsRankPart i s (publishFirst i l s) := by
  unfold publishFirst
  split
  · split
    · dsimp only
      refine .ite (.refl s) (.trans ?_ (publish_rankPart ..))
      exact (KeepsSession.of_bind rfl).trans (KeepsRankPart.layer (fun _ => by rfl) l { s with free := s.free + 1 })
    · exact .refl s
  · exact .refl s

theorem tryRun_runs {s : State} {i : Nat} {x : Session} (sess : getSess s i = some x) : ∃ y, getSess (tryRun i s) i = some y ∧ y.rankPart = x.ran.rankPart := by
  unfold tryRun
  rw [sess]
  dsimp only
  split
  · next whole =>
    rw [Session.ran_of whole]
    exact (KeepsSession.foldl (fun s l => publishFirst_rankPart i l s) _ _).found (getSess_updSession _ sess)
  · next not' =>
    rw [Session.ran_not not']
    exact ⟨x, sess, rfl⟩

/-! OPEN (R315). -/

theorem openFlows_bind (i : Nat) (p : PartId) (c : SessCfg) (me : Nat) (s : State) : (openFlows i p c me s).bind = s.bind :=
  (openFlows_only (gs := [.out, .free, .parts, .mem, .fab, .keys, .ras, .dict]) (.refl _ s) (by decide) (by decide) (by decide) (by decide) (by decide) (by decide) (by decide) (by decide)).bind_eq (by decide)

/-- A session that has been opened stands under its number. -/
def putSession (i : Nat) (x : Session) (s : State) : State := { s with bind := { s.bind with sessions := alSet i x s.bind.sessions }, free := s.free + 1 }
theorem getSess_putSession (i : Nat) (x : Session) (s : State) : getSess (putSession i x s) i = some x := alGet_alSet_self ..

section
variable {s : State} {q : Req} {i : Nat}

/-- OPEN of a session that is FREE or STOPPED. -/
theorem opSessionOpen_of (sv : served s (0x7001 + i)) (few : i < 255) (may : sessMay s q i) (up : hubUp s) (shut : ((getSess s i).getD {}).state = 0 ∨ ((getSess s i).getD {}).state = 3) :
    opSessionOpen q i s = setOpStatus i (doOpen q i { (getSess s i).getD {} with cfg := none } (listSession i s)) :=
  (guarded_of sv (by simp [few, may])).trans (congrArg (setOpStatus i) (if_pos ⟨up, shut⟩))

/-- Bytes that the session of a block reserves at a rank (R315). -/
abbrev sessionBytes (b : Bytes) (me : Nat) : Nat := reserveBytes (cfgOf b) me ((cfgOf b).layers.map (·.ownerRank))

theorem listSession_carveout : (listSession i s).bind.carveout = s.bind.carveout := by
  unfold listSession
  split <;> rfl
theorem rankHere_listSession (p : PartId) (c : SessCfg) : rankHere (listSession i s) p c = rankHere s p c := by
  unfold listSession
  split <;> rfl

/-- CONFIG_DIGEST is that of the block read; nothing else of the session changes. -/
theorem noteDigest_notes {y : Session} (sess : getSess s i = some y) (q : Req) (x : Session) :
    ∃ z, getSess (noteDigest q i x s) i = some z ∧ z.state = y.state ∧ ∀ b, readBlock s q i x = some b → z.digest = Config.sha3 b := by
  unfold noteDigest
  split
  · next b read => exact ⟨_, getSess_updSession _ sess, rfl, fun _ e => by cases read.symm.trans e; rfl⟩
  · next none' => exact ⟨y, sess, rfl, fun _ e => by cases none'.symm.trans e⟩

/-- An OPEN that is refused: its status, the digest of the block read, and the session's state as it was. -/
theorem refusedOpen (s : State) (q : Req) (i : Nat) (x : Session) (st : Status) :
    ∃ y, getSess (answer q (setOpStatus i (noteDigest q i x (listSession i s), st))) i = some y ∧ y.opStatus = BitVec.ofNat 8 st.code ∧ y.state = ((getSess s i).getD {}).state ∧
      (∀ b, readBlock (listSession i s) q i x = some b → y.digest = Config.sha3 b) ∧
      Responds q st [] s (answer q (setOpStatus i (noteDigest q i x (listSession i s), st))) ∧
      OnlyTouches [.out, .bind, .dict] s (answer q (setOpStatus i (noteDigest q i x (listSession i s), st))) := by
  obtain ⟨z, now, state, digest⟩ := noteDigest_notes (getSess_listSession i s) q x
  have noted : ∀ gs, Group.bind ∈ gs → OnlyTouches gs s (setOpStatus i (noteDigest q i x (listSession i s), st)).1 := fun gs mem =>
    setOpStatus_only (noteDigest_only (listSession_only (.refl _ s) mem) mem) mem
  refine ⟨_, getSess_updSession _ now, rfl, state, digest, ?_, answer_only (noted _ (by decide)) (by decide) (by decide)⟩
  exact congrArg (· ++ _) ((noted [.bind] (by decide)).out_eq (by decide))

section
variable {x : Session} {p : PartId} {b : Bytes}

/-- At OPEN no owner has answered: the session is whole where this rank owns every layer. -/
theorem openedSession_whole (s : State) (x : Session) (p : PartId) (c : SessCfg) (b : Bytes) (me : Nat) : (openedSession s x p c b me).whole = c.layers.all (fun l => l.ownerRank = me) :=
  List.all_map.trans (congrArg (List.all c.layers) (funext fun _ => Bool.or_false _))

theorem doOpen_unsuitable (none' : openBlock s q i x = none) : doOpen q i x s = (noteDigest q i x s, .denied) := by
  unfold doOpen
  rw [none']

section
variable (suits : openBlock s q i x = some (p, b))
include suits

theorem readBlock_suitable : readBlock s q i x = some b := by
  unfold readBlock
  rw [suits]

theorem doOpen_quota (full : s.bind.carveout.toNat < carveUsed s.bind + sessionBytes b ((rankHere s p (cfgOf b)).getD 0)) : doOpen q i x s = (noteDigest q i x s, .quota) := by
  unfold doOpen
  rw [suits]
  exact if_pos full

theorem doOpen_opens (room : carveUsed s.bind + sessionBytes b ((rankHere s p (cfgOf b)).getD 0) ≤ s.bind.carveout.toNat) :
    ∃ u y, doOpen q i x s = (u, .done) ∧ getSess u i = some y ∧ y.rankPart = (openedSession s x p (cfgOf b) b ((rankHere s p (cfgOf b)).getD 0)).ran.rankPart := by
  have runs : doOpen q i x s = (tryRun i (openFlows i p (cfgOf b) ((rankHere s p (cfgOf b)).getD 0) (putSession i (openedSession s x p (cfgOf b) b ((rankHere s p (cfgOf b)).getD 0)) s)), .done) := by
    unfold doOpen
    rw [suits]
    exact if_neg (Nat.not_lt.mpr room)
  obtain ⟨y, now, rank⟩ := tryRun_runs ((getSess_of_bind (openFlows_bind i p (cfgOf b) ((rankHere s p (cfgOf b)).getD 0) _)).trans (getSess_putSession i (openedSession s x p (cfgOf b) b ((rankHere s p (cfgOf b)).getD 0)) s))
  exact ⟨_, y, runs, now, rank⟩

end

end

end

/-! The digest exchange (R315). -/

theorem mem_insKey_of {α : Type} {key : α → Nat} {x y : α} {l : List α} (h : y = x ∨ y ∈ l) : y ∈ insKey key x l := by
  induction l with
  | nil => simpa [insKey] using h
  | cons z l ih =>
    unfold insKey
    split
    · rcases h with own | mem
      · exact List.mem_cons_of_mem _ (ih (.inl own))
      · exact List.mem_cons.mpr ((List.mem_cons.mp mem).imp id (fun later => ih (.inr later)))
    · exact List.mem_cons.mpr h
theorem mem_sortKey_of {α : Type} {key : α → Nat} {y : α} {l : List α} (h : y ∈ l) : y ∈ sortKey key l := by
  have sorted : ∀ (l acc : List α), y ∈ acc ∨ y ∈ l → y ∈ l.foldl (fun acc x => insKey key x acc) acc := fun l => by
    induction l with
    | nil => exact fun _ h => h.resolve_right List.not_mem_nil
    | cons x l ih =>
      refine fun acc h => ih _ ?_
      rcases h with mem | mem
      · exact .inl (mem_insKey_of (.inr mem))
      · exact (List.mem_cons.mp mem).imp (fun own => mem_insKey_of (.inl own)) id
  exact sorted l [] (.inr h)

/-- The answers of other ranks of the block. -/
def Session.others (c : SessCfg) (answers : List (Nat × BitVec 512)) (x : Session) : List (Nat × BitVec 512) := answers.filter (fun a => a.1 < c.ranks.length && a.1 ≠ x.me)
/-- Ranks that answered with an equal digest. -/
def Session.equals (c : SessCfg) (answers : List (Nat × BitVec 512)) (x : Session) : List Nat := ((x.others c answers).filter (fun a => a.2 = x.digest)).map (·.1)
/-- A session after the answers: an equal digest joins. -/
def Session.joined (c : SessCfg) (answers : List (Nat × BitVec 512)) (x : Session) : Session :=
  { x with agreed := (x.equals c answers ++ x.agreed).dedup, differ := (((x.others c answers).filter (fun a => a.2 ≠ x.digest)).map (·.1) ++ x.differ).dedup,
           elastic := { x.elastic with live := insertRanks (x.equals c answers) x.elastic.live, coordinator := coordinatorOf c (insertRanks (x.equals c answers) x.elastic.live) } }

section
variable {s : State} {i : Nat} {x : Session} {c : SessCfg} {answers : List (Nat × BitVec 512)}

theorem digestIn_runs (sess : getSess s i = some x) (block : x.cfg = some c) : ∃ y, getSess (digestIn i answers s) i = some y ∧ y.rankPart = (x.joined c answers).ran.rankPart := by
  refine tryRun_runs ((getSess_updSession _ sess).trans ?_)
  split
  · next c' found =>
    cases block.symm.trans found
    rfl
  · next none' => cases block.symm.trans none'

section
variable {a : Nat × BitVec 512} (mem : a ∈ answers) (rank : a.1 < c.ranks.length) (other : a.1 ≠ x.me)
include mem rank other

theorem Session.mem_others : a ∈ x.others c answers := List.mem_filter.mpr ⟨mem, by simp [rank, other]⟩
theorem Session.joined_equal (equal : a.2 = x.digest) : a.1 ∈ (x.joined c answers).agreed ∧ a.1 ∈ (x.joined c answers).elastic.live := by
  have joins : a.1 ∈ x.equals c answers := List.mem_map_of_mem (f := Prod.fst) (List.mem_filter.mpr ⟨Session.mem_others mem rank other, decide_eq_true equal⟩)
  exact ⟨List.mem_dedup.mpr (List.mem_append_left _ joins), mem_sortKey_of (List.mem_dedup.mpr (List.mem_append_left _ joins))⟩
theorem Session.joined_unequal (unequal : a.2 ≠ x.digest) : a.1 ∈ (x.joined c answers).differ :=
  List.mem_dedup.mpr (List.mem_append_left _ (List.mem_map_of_mem (f := Prod.fst) (List.mem_filter.mpr ⟨Session.mem_others mem rank other, decide_eq_true unequal⟩)))

end

end

/-! CLOSE (R354). -/

section
variable {s : State} {q : Req} {i : Nat} {x : Session}

theorem withholdSteps_shape (i l : Nat) (ws : List StepWork) (s : State) : KeepsSession (fun x => (x.layers.length, x.withholding)) i s (ws.foldl (fun s w => withholdLayer i l w.step s) s) := by
  refine KeepsSession.foldl ?_ ws s
  exact fun s w => withholdLayer_shape i l w.step s

/-- What was open is withheld, the flows close, and the carve-out is freed. -/
theorem closeSession_frees (sess : getSess s i = some x) : ∃ u y, getSess u i = some y ∧ closeSession i s = updSession i (freeCarve 0) (closeFlows i (x.elastic.departState = 2) u) := by
  have kept : KeepsSession (fun x => (x.layers.length, x.withholding)) i s
      (if x.open' then (List.range x.layersOf).foldl (fun s l => ((x.layer l).steps.filter (fun w => !w.closed)).foldl (fun s w => withholdLayer i l w.step s) s) s else s) := by
    exact .ite (KeepsSession.foldl (fun s l => withholdSteps_shape i l _ s) (List.range x.layersOf) s) (.refl s)
  obtain ⟨y, now, -⟩ := kept.found sess
  refine ⟨_, y, now, ?_⟩
  unfold closeSession
  rw [sess]

theorem closeFlows_closes (i : Nat) (s : State) : ∀ f ∈ (closeFlows i false s).fab.flows, f.2.session ≠ some i := fun f mem => by
  simpa using (List.mem_filter.mp mem).2

theorem opSessionClose_of (sv : served s (0x7001 + i)) (few : i < 255) (may : sessMay s q i) (sess : getSess s i = some x) (used : x.state ≠ 0) :
    opSessionClose q i s = setOpStatus i (closeSession i s, .done) := by
  refine (guarded_of sv (by simp [few, may])).trans (congrArg (setOpStatus i) (if_neg ?_))
  rwa [sess]

end

/-- Settles O43: an OPEN ends as `refusedOpen` or `doOpen_opens` say, the answers as `digestIn_runs`, a CLOSE as `closeSession_frees`. -/
theorem sessionsFormAndClose : Obligations.SessionsFormAndClose := by
  refine fun s i => ⟨?_, ?_, ?_⟩
  · intro q reach sv few may up shut x
    have runs : exec (.sessionOpOpen q i) s = .next (answer q (setOpStatus i (doOpen q i x (listSession i s)))) := by
      rw [← opSessionOpen_of sv few may up shut]
      exact software_of reach
    refine ⟨fun none' => ?_, fun p b suits full => ?_, fun p b suits room => ?_⟩
    · obtain ⟨y, now, status, state, digest, responds⟩ := refusedOpen s q i x .denied
      rw [doOpen_unsuitable none'] at runs
      exact ⟨_, y, runs, now, status, state, digest, responds⟩
    · obtain ⟨y, now, status, state, digest, responds⟩ := refusedOpen s q i x .quota
      rw [doOpen_quota suits (by rwa [listSession_carveout, rankHere_listSession])] at runs
      exact ⟨_, y, runs, now, status, state, digest b (readBlock_suitable suits), responds⟩
    · obtain ⟨u, y, opened, now, rank⟩ := doOpen_opens suits (by rwa [listSession_carveout, rankHere_listSession])
      rw [rankHere_listSession, Session.ran_forming rfl, openedSession_whole] at rank
      rw [opened] at runs
      exact ⟨_, _, runs, getSess_updSession _ now, rfl, congrArg Session.digest rank, congrArg Session.part rank, congrArg Session.cfg rank, congrArg Session.myRank rank,
        congrArg Session.reserved rank, congrArg Session.state rank, List.getLast?_concat⟩
  · intro answers x up sess open' some'
    obtain ⟨c, block⟩ := Option.isSome_iff_exists.mp (Bool.and_eq_true_iff.mp open').2
    obtain ⟨y, now, rank⟩ := digestIn_runs (answers := answers) sess block
    have run : exec (.sessionDigestMatch i answers) s = .next (digestIn i answers s) := need_of (by simp [up, sess, open', some'])
    obtain ⟨st, kept⟩ := (x.joined c answers).ran_kept
    have shows := rank.trans (congrArg Session.rankPart kept)
    have agreed : y.agreed = (x.joined c answers).agreed := (congrArg Session.agreed shows :)
    have live : y.elastic.live = (x.joined c answers).elastic.live := congrArg (fun z => z.elastic.live) shows
    have differ : y.differ = (x.joined c answers).differ := (congrArg Session.differ shows :)
    refine ⟨_, y, run, now, (congrArg Session.digest shows :), fun c' block' a mem few other => ?_, fun forming => ?_, fun running => ?_⟩
    · cases block.symm.trans block'
      rw [agreed, live, differ]
      exact ⟨Session.joined_equal mem few other, Session.joined_unequal mem few other⟩
    · rw [agreed]
      rw [Session.ran_forming (x := x.joined c answers) forming] at rank
      exact congrArg Session.state rank
    · rw [Session.ran_running (x := x.joined c answers) running] at rank
      exact (congrArg Session.state rank).trans running
  · intro q x reach sv few may sess used
    obtain ⟨u, y, now, closed⟩ := closeSession_frees sess
    have run : exec (.sessionOpClose q i) s = .next (answer q (setOpStatus i (closeSession i s, .done))) := by
      rw [← opSessionClose_of sv few may sess used]
      exact software_of reach
    rw [closed] at run
    refine ⟨_, _, run, getSess_updSession _ (getSess_updSession _ ((getSess_of_bind rfl).trans now)), rfl, rfl, rfl, rfl, rfl, rfl, fun stays => ?_, List.getLast?_concat⟩
    rw [decide_eq_false stays]
    exact closeFlows_closes i u

end Sys2Proof.Machine
end

section
/-!
Settles O47: rosters and requests have their effect, silence and deadlines are noted, and a hold ends in the declaration (R355 to R361, R375 to R377).
-/

namespace Sys2Proof.Machine

/-- A change of what a session knows of its ranks reads back. -/
theorem getSess_updElastic {s : State} {i : Nat} {x : Session} (f : Elastic → Elastic) (h : getSess s i = some x) : getSess (updElastic i f s) i = some { x with elastic := f x.elastic } :=
  getSess_updSession _ h

/-! Messages of rosters as they arrive. -/

section
variable {s : State} {flow : Nat} {m : RosterMsg} {x : Session}

theorem sendRoster_bind (i rank chunk : Nat) (m : RosterMsg) (s : State) : (sendRoster i rank chunk m s).bind = s.bind := sendRank_bind ..
/-- A roster that goes to several ranks leaves the sessions. -/
theorem sendRosters_bind (i chunk : Nat) (m : RosterMsg) (ranks : List Nat) (s : State) : (ranks.foldl (fun s r => sendRoster i r chunk m s) s).bind = s.bind :=
  foldl_bind (fun s r => sendRoster_bind i r chunk m s) ranks s

section
variable (sess : getSess s m.session = some x) (open' : x.open' = true) (none' : x.elastic.next = none)
include sess open' none'

/-- Where no roster waits, the epoch in effect decides (R359). -/
theorem rosterIn_old (old : m.epoch ≤ x.elastic.epoch) : rosterIn m s = updElastic m.session (fun e => { e with discarded := e.discarded + 1 }) s := by
  unfold rosterIn
  rw [sess]
  dsimp only
  rw [if_neg (by simp [open']), none', if_pos (by simp [old])]

/-- A newer roster goes on down the tree, and waits here. -/
theorem rosterIn_newer (newer : x.elastic.epoch < m.epoch) (kept : m.live.contains x.rank' = true) :
    rosterIn m s = updElastic m.session (fun e => { e with next := some m }) ((treeKids x.elastic.live m.sender x.me).foldl (fun s r => sendRoster m.session r 0 m s) s) := by
  unfold rosterIn
  rw [sess]
  dsimp only
  rw [if_neg (by simp [open']), none', if_neg (by simp [newer]), if_pos kept]

theorem rosterIn_waits (newer : x.elastic.epoch < m.epoch) (kept : m.live.contains x.rank' = true) :
    getSess (rosterIn m s) m.session = some { x with elastic := { x.elastic with next := some m } } := by
  rw [rosterIn_newer sess open' none' newer kept]
  exact getSess_updElastic _ ((getSess_of_bind (sendRosters_bind ..)).trans sess)

end

/-- The first request of a rank stands last in the queue (R376). -/
theorem queueRequest_queues {i rank deadline : Nat} (sess : getSess s i = some x) (dated : deadline ≠ 0) (new : ∀ r ∈ x.elastic.requests, r.1 ≠ rank) :
    getSess (queueRequest i rank deadline s) i = some { x with elastic := { x.elastic with requests := x.elastic.requests ++ [(rank, deadline)] } } := by
  refine (getSess_updElastic _ sess).trans ?_
  dsimp only
  rw [if_neg dated, if_neg (by simpa [List.any_eq_true] using fun w mem => new (rank, w) mem rfl)]

theorem departIn_eq_queueRequest (sess : getSess s m.session = some x) (open' : x.open' = true) (head : x.isHead = true) (sender : senderRank s x flow = some m.handover.toNat)
    (live : x.isLive m.handover.toNat = true) : departIn flow m s = queueRequest m.session m.handover.toNat m.effective s := by
  unfold departIn
  rw [sess]
  exact if_pos ⟨open', head, sender, live⟩

/-- A failure to restore the step of the rollback in effect is kept (R375). -/
theorem noteFailed_notes {i w : Nat} (sess : getSess s i = some x) (none' : x.elastic.next = none) (current : stepOpt x.elastic.rollback = some w) :
    getSess (noteFailed i w s) i = some { x with elastic := { x.elastic with restoreFailed := some w } } := by
  refine (getSess_updElastic _ sess).trans ?_
  dsimp only
  rw [none']
  dsimp only
  rw [if_pos current]

theorem failedIn_eq_noteFailed (sess : getSess s m.session = some x) (open' : x.open' = true) (head : x.isHead = true) : failedIn m s = noteFailed m.session m.rollback.toNat s := by
  unfold failedIn
  rw [sess]
  exact if_pos ⟨open', head⟩

end

/-! The declaration (R357, R360). -/

/-- Ranks that have gone are declared, whatever the roster carries besides. -/
theorem rosterDue_declares {i frame : Nat} {x : Session} {gone : List Nat} (failed : List Nat) (some' : gone ≠ []) :
    ∃ m, rosterDue i frame x gone failed = some m ∧ m.live = x.elastic.live.filter (fun r => !gone.contains r) ∧ m.epoch = x.elastic.epoch + 1 ∧ m.effective = frame + 1 := by
  unfold rosterDue
  dsimp only
  rw [if_neg (fun h => some' (List.isEmpty_iff.mp h.1))]
  refine ⟨_, rfl, ?_⟩
  split
  case h_1 | h_2 => exact ⟨rfl, rfl, rfl⟩
  case h_3 => split <;> exact ⟨rfl, rfl, rfl⟩

/-- The live ranks that a declaration takes to have gone: those found, and those whose flow is lost. -/
abbrev goneRanks (s : State) (i : Nat) (x : Session) : List Nat := ((x.elastic.found.map (·.1)) ++ lostRanks s i x).dedup.filter (fun r => x.elastic.live.contains r)

section
variable {s : State} {i frame : Nat} {x : Session}

/-- A forced declaration holds nothing back: the roster that is due goes out, and waits. -/
theorem declare_forced (sess : getSess s i = some x) (coord : x.isCoord = true) (open' : x.open' = true) (none' : x.elastic.next = none) :
    ∃ failed, (rosterDue i frame x (goneRanks s i x) failed = none → declare true i frame s = updElastic i (fun e => { e with held := 0 }) s) ∧
      ∀ m, rosterDue i frame x (goneRanks s i x) failed = some m → declare true i frame s = (treeKids x.elastic.live x.me x.me).foldl (fun s r => sendRoster i r 0 m s)
        (updElastic i (fun e => { e with next := some m, stopNext := none, restoreFailed := if m.doRollback then none else e.restoreFailed }) (updElastic i (fun e => { e with held := 0 }) s)) := by
  refine ⟨lostRanks s i x ++ (x.elastic.found.filter (·.2)).map (·.1), ?_⟩
  unfold declare
  rw [sess]
  dsimp only
  rw [if_neg (by simp [coord, open', none'])]
  simp only [Bool.not_true, Bool.and_false, Bool.false_eq_true, if_false]
  exact ⟨fun due => by simp only [due], fun m due => by simp only [due]⟩

/-- The end of a hold: nothing is held any more, and what has gone is declared for the next frame. -/
theorem declare_forced_declares (sess : getSess s i = some x) (coord : x.isCoord = true) (open' : x.open' = true) (none' : x.elastic.next = none) :
    ∃ y, getSess (declare true i frame s) i = some y ∧ y.elastic.held = 0 ∧ (goneRanks s i x ≠ [] →
      ∃ m, y.elastic.next = some m ∧ m.live = x.elastic.live.filter (fun r => !(goneRanks s i x).contains r) ∧ m.epoch = x.elastic.epoch + 1 ∧ m.effective = frame + 1) := by
  obtain ⟨failed, quiet, declared⟩ := declare_forced (frame := frame) sess coord open' none'
  have held := getSess_updElastic (fun e => { e with held := 0 }) sess
  cases due : rosterDue i frame x (goneRanks s i x) failed with
  | none =>
    rw [quiet due]
    refine ⟨_, held, rfl, fun some' => ?_⟩
    obtain ⟨m, made, -⟩ := rosterDue_declares failed some'
    cases due.symm.trans made
  | some m =>
    rw [declared m due]
    refine ⟨_, (getSess_of_bind (sendRosters_bind ..)).trans (getSess_updElastic _ held), rfl, fun some' => ?_⟩
    obtain ⟨m', made, shows⟩ := rosterDue_declares failed some'
    cases due.symm.trans made
    exact ⟨m, rfl, shows⟩

end

/-! Heartbeats, silence and deadlines (R356, R376). -/

section
variable {s : State} {i : SessIx} {x : Session}

theorem sessionHeartbeat_acks {peer f : Nat} {z : Flow} (up : hubUp s = true) (beats : beatFlow s i peer = some f) (flow : getFlow s f = some z) :
    exec (.sessionHeartbeat i peer) s = .next (sendAck f (z.rxPsn - 1) s) := by
  have acks : heartbeat i peer s = sendAck f (z.rxPsn - 1) s := by simp [heartbeat, beats, flow]
  rw [← acks]
  exact need_of (by simp [up, beats])

theorem quorumDue_of (sess : getSess s i = some x) (coord : x.isCoord = true) (open' : x.open' = true) (none' : x.elastic.next = none) (held : 16 ≤ x.elastic.held) : quorumDue s i = true := by
  simp [quorumDue, sess, coord, open', none', held]

theorem deadlinePassed_of {rank : Nat} (sess : getSess s i = some x) (open' : x.open' = true) (coord : x.isCoord = true) (live : x.isLive rank = true)
    (overdue : ∃ r ∈ x.elastic.requests, r.1 = rank ∧ r.2 ≤ frameNow s) : deadlinePassed s i rank = true := by
  have any : x.elastic.requests.any (fun r => r.1 = rank && decide (r.2 ≤ frameNow s)) = true := by simpa using overdue
  simp [deadlinePassed, sess, open', coord, live, any]

end

/-! Planned departures (R376, R377, R380). -/

/-- A request to depart at a frame is pending, and goes out. -/
def Elastic.departing (fr : BitVec 64) (e : Elastic) : Elastic := { e with departAt := fr, sendRequest := some fr.toNat, departState := if e.departState = 0 then 1 else e.departState }
/-- A withdrawal takes back a request that is pending, and otherwise the frame alone. -/
def Elastic.withdrawn (e : Elastic) : Elastic := if e.departState = 1 then { e with departAt := 0, sendRequest := some 0, departState := 0 } else { e with departAt := 0 }

theorem Elastic.withdrawn_pending {e : Elastic} (pending : e.departState = 1) : e.withdrawn = { e with departAt := 0, sendRequest := some 0, departState := 0 } := if_pos pending
theorem Elastic.withdrawn_staying {e : Elastic} (staying : e.departState = 0) : e.withdrawn = { e with departAt := 0 } := if_neg (by rw [staying]; decide)

section
variable {s : State} {q : Req} {i : SessIx} {x : Session}

/-- A write that changes what a session knows of its ranks is answered, and touches nothing else. -/
theorem answer_updElastic (f : Elastic → Elastic) : Responds q .done [] s (answer q (updElastic i f s, .done)) ∧ OnlyTouches [.out, .bind, .dict] s (answer q (updElastic i f s, .done)) :=
  ⟨rfl, answer_only (updElastic_only (.refl _ s) (by decide)) (by decide) (by decide)⟩
theorem getSess_answer_updElastic (f : Elastic → Elastic) (sess : getSess s i = some x) :
    getSess (answer q (updElastic i f s, .done)) i = some { x with elastic := f x.elastic } := getSess_updElastic f sess

section
variable (reach : reachable s = true)
include reach

/-- A frame nearer than four frames ahead is refused (R361). -/
theorem departAtFrameSet_early {fr : BitVec 64} (early : fr.toNat < frameNow s + 4) : exec (.departAtFrameSet q i fr) s = .next (answer q (s, .denied)) :=
  software_denied reach (guarded_not (by simp [Nat.not_le.mpr early]))

section
variable (sess : getSess s i = some x)
include sess

theorem departWithdraw_late (late : 2 ≤ x.elastic.departState.toNat) : exec (.departWithdraw q i) s = .next (answer q (s, .denied)) :=
  software_denied reach (guarded_not (by simp [sess, Nat.not_lt.mpr late]))

section
variable (sv : served s (0x7001 + i) = true) (few : i < 255) (op : isOperator s q = true)
include sv few op

theorem departAtFrameSet_runs {fr : BitVec 64} (open' : x.open' = true) (staying : x.elastic.departState ≠ 3) (ahead : frameNow s + 4 ≤ fr.toNat) :
    exec (.departAtFrameSet q i fr) s =
      .next (answer q (updElastic i (Elastic.departing fr) s, .done)) :=
  software_done reach (guarded_of sv (by simpa [few, op, ahead, sess, open'] using staying))

theorem departWithdraw_runs (early : x.elastic.departState.toNat < 2) :
    exec (.departWithdraw q i) s =
      .next (answer q (updElastic i Elastic.withdrawn s, .done)) :=
  software_done reach (guarded_of sv (by simp [few, op, sess, early]))

end

end

end

end

/-- Settles O47: `onStrait_takes` for the order of a message, one lemma for the effect of each kind, `declare_forced_declares` for the end of a hold, and guarded writes for the OPERATOR's departures. -/
theorem rostersAndDeparturesAreFollowed : Obligations.RostersAndDeparturesAreFollowed := by
  refine fun s i => ⟨fun p f m h => ⟨⟨onStrait_takes h _, ?_⟩, ⟨onStrait_takes h _, ?_⟩, ⟨onStrait_takes h _, ?_⟩⟩, fun x sess up open' => ⟨?_, ?_, ?_, ?_⟩,
    fun q x reach sv few op sess => ⟨?_, ?_, ?_, ?_, ?_⟩⟩
  · refine fun x sess open' none' => ⟨fun old => ⟨_, ?_, rfl⟩, fun newer kept => ⟨_, rosterIn_waits sess open' none' newer kept, rfl⟩⟩
    rw [rosterIn_old sess open' none' old]
    exact getSess_updElastic _ sess
  · intro x sess open' head sender live dated new
    rw [departIn_eq_queueRequest sess open' head sender live]
    exact ⟨_, queueRequest_queues sess dated new, rfl⟩
  · intro x sess open' head none' current
    rw [failedIn_eq_noteFailed sess open' head]
    exact ⟨_, noteFailed_notes sess none' current, rfl⟩
  · exact fun peer f z beats flow => sessionHeartbeat_acks up beats flow
  · intro rank watched
    exact ⟨_, _, need_of (by simp [up, watched]), getSess_updSession _ sess, List.mem_cons_self .., rfl, rfl, updSession_only (.refl _ s) (by decide)⟩
  · intro coord none' held
    obtain ⟨y, now, ended, declares⟩ := declare_forced_declares (frame := frameNow s) sess coord open' none'
    refine ⟨_, y, need_of (by simp [up, quorumDue_of sess coord open' none' held]), now, ended, ?_⟩
    rintro gone rfl
    exact declares
  · intro rank coord live overdue
    refine ⟨_, _, need_of (by simp [up, deadlinePassed_of sess open' coord live overdue]), getSess_updElastic _ sess, List.mem_cons_self .., fun r mem => ?_, updElastic_only (.refl _ s) (by decide)⟩
    exact of_decide_eq_true (List.mem_filter.mp mem).2
  · intro fr open' staying ahead
    exact ⟨_, _, departAtFrameSet_runs reach sess sv few op open' staying ahead, getSess_answer_updElastic _ sess, rfl, rfl, rfl, answer_updElastic _⟩
  · exact fun fr early => departAtFrameSet_early reach early
  · intro pending
    have now := getSess_answer_updElastic (q := q) Elastic.withdrawn sess
    rw [Elastic.withdrawn_pending pending] at now
    exact ⟨_, _, departWithdraw_runs reach sess sv few op (by rw [pending]; decide), now, rfl, rfl, rfl, answer_updElastic _⟩
  · intro staying
    have now := getSess_answer_updElastic (q := q) Elastic.withdrawn sess
    rw [Elastic.withdrawn_staying staying] at now
    exact ⟨_, departWithdraw_runs reach sess sv few op (by rw [staying]; decide), now, answer_updElastic _⟩
  · exact fun late => departWithdraw_late reach sess late

end Sys2Proof.Machine
end

section
/-!
Sectors of pages in T1: what looking a sector up leaves as it was, and a sector sealed in its frame that reads back (R391, R402, R403).
-/

namespace Sys2Proof.Machine

/-! Lookups: translation, access count, cache lines and RS_CORRECTED change no data. -/

/-- A leaf entry but for its access count (R249). -/
def Leaf.uncounted (l : Leaf) : Leaf := { l with acc := 0 }

/-- `w` is `v` after lookups. -/
structure VM.Looked (v w : VM) : Prop where
  same : ∃ tlb cache dirty counters pages n, w = { v with mem := { v.mem with tlb := tlb, cache := cache, dirty := dirty, counters := counters, pages := pages }, free := n }
  pages : ∀ (q : PartId) g, (alGet g w.mem.pages[q]).map Leaf.uncounted = (alGet g v.mem.pages[q]).map Leaf.uncounted

section
variable {u v w : VM} {p : PartId} {va : Nat} {l : Leaf}

theorem VM.Looked.refl (v : VM) : v.Looked v := ⟨⟨_, _, _, _, _, _, rfl⟩, fun _ _ => rfl⟩
theorem VM.Looked.trans (h : u.Looked v) (k : v.Looked w) : u.Looked w := by
  refine ⟨?_, fun q g => (k.pages q g).trans (h.pages q g)⟩
  obtain ⟨_, _, _, _, _, _, rfl⟩ := h.same
  obtain ⟨_, _, _, _, _, _, rfl⟩ := k.same
  exact ⟨_, _, _, _, _, _, rfl⟩

theorem VM.translate_looked (v : VM) (p : PartId) (va : Nat) : v.Looked (v.translate p va) := by
  unfold VM.translate
  dsimp only
  split
  · exact .refl v
  · exact ⟨⟨_, _, _, _, _, _, rfl⟩, fun _ _ => rfl⟩
theorem VM.cacheLook_looked (v : VM) (r : Region) (i : Nat) (loc : Loc) (write : Bool) : v.Looked (v.cacheLook r i loc write) := by
  have lines : ∀ (u : VM) st path, u.Looked (u.cacheLines st path write) := fun u st path => ⟨⟨_, _, _, _, _, _, rfl⟩, fun _ _ => rfl⟩
  unfold VM.cacheLook
  split
  · exact (lines v _ _).trans (lines _ _ _)
  · exact lines v _ _
theorem VM.stat_looked (v : VM) (i k : Nat) : v.Looked (v.stat i k) := ⟨⟨_, _, _, _, _, _, rfl⟩, fun _ _ => rfl⟩
theorem VM.touch_looked (v : VM) (p : PartId) (va : Nat) (acc : Bool) : v.Looked (v.touch p va acc) := by
  unfold VM.touch
  split
  · refine ⟨⟨_, _, _, _, _, _, rfl⟩, fun q g => ?_⟩
    by_cases own : q = p
    · subst own
      simp only [modVec_self, alGet_alMod]
      split
      · rw [Option.map_map]
        rfl
      · rfl
    · simp only [modVec_other _ _ _ _ own]
  · exact .refl v
theorem VM.opened_looked (v : VM) (p : PartId) (va : Nat) (l : Leaf) (acc : Bool) : v.Looked (v.opened p va l acc) :=
  ((v.translate_looked p va).trans (VM.touch_looked _ p va acc)).trans (VM.cacheLook_looked _ _ _ _ _)

namespace VM.Looked
variable (h : v.Looked w)
include h

theorem memFree : v.MemFree w := by
  obtain ⟨_, _, _, _, _, _, rfl⟩ := h.same
  exact ⟨_, _, rfl⟩
theorem region_eq (g : Nat) : w.region p g = v.region p g := by
  obtain ⟨_, _, _, _, _, _, rfl⟩ := h.same
  rfl
theorem ctrs_eq : w.mem.ctrs = v.mem.ctrs := by
  obtain ⟨_, _, _, _, _, _, rfl⟩ := h.same
  rfl
theorem t1_eq : w.mem.t1 = v.mem.t1 := by
  obtain ⟨_, _, _, _, _, _, rfl⟩ := h.same
  rfl
theorem keys_eq : w.keys = v.keys := by
  obtain ⟨_, _, _, _, _, _, rfl⟩ := h.same
  rfl
theorem migrating_eq (g : Nat) : w.migrating p g = v.migrating p g := by
  obtain ⟨_, _, _, _, _, _, rfl⟩ := h.same
  rfl
theorem baseKey_eq {l' : Leaf} (same : l'.uncounted = l.uncounted) (e : Nat) : w.baseKey p l' e = v.baseKey p l e := by
  obtain ⟨_, _, _, _, _, _, rfl⟩ := h.same
  have param : l'.param = l.param := (congrArg Leaf.param same :)
  simp only [VM.baseKey, param]
theorem absent_eq {l' : Leaf} (same : l'.uncounted = l.uncounted) : w.absent p va l' = v.absent p va l := by
  obtain ⟨_, _, _, _, _, _, rfl⟩ := h.same
  have loc : l'.loc = l.loc := (congrArg Leaf.loc same :)
  simp only [VM.absent, VM.place, VM.region, loc]
/-- A lookup finds the leaf entry that was there, counted or not. -/
theorem leaf_some (hl : v.leaf p va = some l) : ∃ l', w.leaf p va = some l' ∧ l'.uncounted = l.uncounted := by
  have walk : walks w.mem p va = walks v.mem p va := by
    obtain ⟨_, _, _, _, _, _, rfl⟩ := h.same
    rfl
  have entry := h.pages p (pageOf va)
  unfold VM.leaf at hl ⊢
  rw [walk]
  split at hl
  · next up =>
    rw [hl, Option.map_some] at entry
    obtain ⟨l', found, same⟩ := Option.map_eq_some_iff.mp entry
    exact ⟨l', (if_pos up).trans found, same⟩
  · cases hl

end VM.Looked

/-- A page that is not being copied is accessed at its leaf entry's place. -/
theorem VM.place_settled (settled : v.migrating p (pageOf va) = false) (l : Leaf) : v.place p va l = l.loc := by
  have none' : v.mem.migrations.find? (fun m => m.part = p && m.page = pageOf va) = none := List.find?_eq_none.mpr fun m mem => List.any_eq_false.mp settled m mem
  rw [VM.place, none']

/-- A read that gave data had its key, and changed no data. -/
theorem readSector_data {n : Nat} {acc : Bool} {x : Sector} (hl : v.leaf p va = some l) (hu : l.loc ≠ .unbacked) (h : (v.readSector p va (.asStored n) acc).2 = .data x) :
    (∃ base, v.baseKey p l (genOf (v.region p (pageOf va)) (sectorOf va)).2 = some base) ∧ v.Looked (v.readSector p va (.asStored n) acc).1 := by
  have opened := v.opened_looked p va l acc
  unfold VM.opened at opened
  unfold VM.readSector at h ⊢
  rw [hl] at h ⊢
  simp only [hu, if_false, VM.translate_region, VM.translate_baseKey] at h ⊢
  cases hb : v.baseKey p l (genOf (v.region p (pageOf va)) (sectorOf va)).2 with
  | none => simp only [hb] at h; cases h
  | some base =>
    refine ⟨⟨base, rfl⟩, ?_⟩
    simp only [hb] at h ⊢
    split
    · exact opened
    · next written =>
      rw [if_neg written] at h
      split
      · exact opened
      · next whole =>
        rw [if_neg whole] at h
        split
        · exact opened.trans (VM.stat_looked _ _ _)
        · next fails =>
          rw [fails] at h
          cases h

end

@[simp] theorem VM.region_setRegion_self (v : VM) (p : PartId) (g : Nat) (r : Region) : (v.setRegion p g r).region p g = r := by
  rw [VM.region, VM.setRegion, modVec_self, alGet_alSet_self, Option.getD_some]
theorem VM.region_setRegion_other (v : VM) (p : PartId) {g h : Nat} (r : Region) (other : h ≠ g) : (v.setRegion p g r).region p h = v.region p h := by
  rw [VM.region, VM.region, VM.setRegion, modVec_self, alGet_alSet_other _ _ _ _ other]

/-! A sector of a page in T1 stored under a counter (R403). -/

section
variable (v : VM) (p : PartId) (va f c : Nat) (r : Region) (y : StoredSector)

/-- Sector `va` of frame `f` is stored with its counter, and the page's region record written. -/
def VM.storeT1 : VM :=
  ({ v with mem := setCtr v.keys r (sectorOf va) c (storeAt (.t1 f) (sectorOf va) y v.mem) }).setRegion p (pageOf va) r

theorem VM.storeT1_region : (v.storeT1 p va f c r y).region p (pageOf va) = r := VM.region_setRegion_self ..
theorem VM.storeT1_ctr : ctrOf (v.storeT1 p va f c r y).mem r (sectorOf va) = c := alGet_alPut_self ..
theorem VM.storeT1_t1_other {k : Nat} (other : k ≠ f * 8192 + sectorOf va) : alGet k (v.storeT1 p va f c r y).mem.t1 = alGet k v.mem.t1 := alGet_alSet_other _ _ _ _ other
theorem VM.storeT1_ctrs_other {k : Nat} (other : k ≠ ctrKey r (sectorOf va)) : alGet k (v.storeT1 p va f c r y).mem.ctrs = alGet k v.mem.ctrs := alGet_alPut_other _ _ _ _ _ other
theorem VM.storeT1_memFree : v.MemFree (v.storeT1 p va f c r y) := ⟨_, _, rfl⟩

variable {v p va f c r y}

/-- A sector sealed under its region's key and the counter stored with it reads back. -/
theorem VM.storeT1_reads {l : Leaf} {base : Bytes} {x : Sector} (hl : v.leaf p va = some l) (hf : l.loc = .t1 f) (settled : v.migrating p (pageOf va) = false)
    (key : v.baseKey p l (genOf r (sectorOf va)).2 = some base) (written : c ≠ 0) (whole : c ≠ 0xFFFF)
    (sealed : y = sealSector (kmat base (pageOf va) (genOf r (sectorOf va)).1 (genOf r (sectorOf va)).2) (lbnOf va) c x) (n : Nat) (acc : Bool) :
    ((v.storeT1 p va f c r y).readSector p va (.asStored n) acc).2 = .data x := by
  have ctr := v.storeT1_ctr p va f c r y
  have place : (v.storeT1 p va f c r y).place p va l = .t1 f := (VM.place_settled (v := v.storeT1 p va f c r y) settled l).trans hf
  have there : storedAt (v.storeT1 p va f c r y).mem (.t1 f) (sectorOf va) = y := by simp [VM.storeT1, VM.setRegion, setCtr, treeUpdate, storeAt, storedAt]
  refine readSector_sealed (v.storeT1 p va f c r y) p va n acc l base x hl (by rw [hf]; nofun) ?_ ?_ ?_ ?_ <;> rw [VM.storeT1_region]
  · exact key
  · rw [ctr]; exact written
  · rw [ctr]; exact whole
  · rw [ctr, place, there, sealed]

end

/-! The write of a sector (R403) and of part of one (R404) where nothing holds it up. -/

/-- A region's record after a write that took counter `c` under the current key (PEAK of R400). -/
def Region.wrote (r : Region) (c : Nat) : Region := { r with peak := max r.peak c }

/-- A sector of a page in T1 that is written at once: no copy, no re-encryption, no failed stack, no key gone, no wrap. -/
structure VM.Writable (v : VM) (p : PartId) (va : Nat) (l : Leaf) (f : Nat) (base : Bytes) : Prop where
  leaf : v.leaf p va = some l
  loc : l.loc = .t1 f
  settled : v.migrating p (pageOf va) = false
  steady : (v.region p (pageOf va)).rekeying = false
  key : v.baseKey p l (v.region p (pageOf va)).epoch.toNat = some base
  present : v.absent p va l = false
  room : nextCtr v.mem (v.region p (pageOf va)) (sectorOf va) < 0xF000

theorem nextCtr_pos (m : Mem) (r : Region) (i : Nat) : 0 < nextCtr m r i := by
  unfold nextCtr
  dsimp only
  split <;> omega
theorem nextCtr_congr {m n : Mem} (h : n.ctrs = m.ctrs) (r : Region) (i : Nat) : nextCtr n r i = nextCtr m r i := by
  unfold nextCtr ctrOf
  rw [h]
theorem genOf_steady {r : Region} (steady : r.rekeying = false) (i : Nat) : genOf r i = (r.gen, r.epoch.toNat) := by simp [genOf, steady]

section
variable {v w : VM} {p : PartId} {va f : Nat} {l : Leaf} {base : Bytes}

/-- Lookups leave a sector writable. -/
theorem VM.Writable.looked (h : v.Writable p va l f base) (k : v.Looked w) : ∃ l', w.Writable p va l' f base := by
  obtain ⟨l', leaf, same⟩ := k.leaf_some h.leaf
  exact ⟨l', leaf, (congrArg Leaf.loc same :).trans h.loc, (k.migrating_eq _).trans h.settled, by rw [k.region_eq]; exact h.steady, by rw [k.region_eq, k.baseKey_eq same]; exact h.key,
    (k.absent_eq same).trans h.present, by rw [k.region_eq, nextCtr_congr k.ctrs_eq]; exact h.room⟩

/-- The write of a whole sector stores it sealed under the next counter (R400, R403). -/
theorem VM.Writable.writeAs_stores (h : v.Writable p va l f base) {r : Region} {c : Nat} (hr : v.region p (pageOf va) = r) (hc : nextCtr v.mem r (sectorOf va) = c) (x : Sector) (acc cas : Bool) :
    ∃ w, v.Looked w ∧ v.writeAs p va x acc cas = (w.storeT1 p va f c (r.wrote c) (sealSector (kmat base (pageOf va) r.gen r.epoch.toNat) (lbnOf va) c x), .done) := by
  have place : ∀ w : VM, v.Looked w → w.place p va l = .t1 f := fun w k => (VM.place_settled ((k.migrating_eq _).trans h.settled) l).trans h.loc
  have noWait : v.writeWait p va = v := if_pos (Nat.le_trans (Nat.le_of_lt h.room) (by decide))
  have room := h.room
  have steady := h.steady
  have key := h.key
  rw [hr] at room steady key
  rw [hc] at room
  have old : (r.rekeying && decide (r.watermark ≤ sectorOf va)) = false := by rw [steady]; rfl
  have looked := ((v.translate_looked p va).trans (VM.touch_looked _ p va acc)).trans (VM.cacheLook_looked _ r (sectorOf va) (.t1 f) true)
  unfold VM.writeAs
  rw [h.leaf]
  simp only [h.loc, noWait, reduceCtorEq, if_false]
  unfold VM.writeNow
  rw [h.leaf]
  simp only [place v (.refl v), VM.cutOff, h.present, Bool.false_eq_true, if_false, VM.translate_region, hr, genOf_steady steady, VM.translate_baseKey, key, old, place _ (v.translate_looked p va)]
  generalize (((v.translate p va).touch p va acc).cacheLook r (sectorOf va) (.t1 f) true) = w at looked
  have ctr : nextCtr w.mem r (sectorOf va) = c := (nextCtr_congr looked.ctrs_eq _ _).trans hc
  simp only [place w looked, ctr, Nat.not_le.mpr room, false_and, if_false, VM.sendOf, List.append_nil]
  exact ⟨w, looked, rfl⟩

/-- `w` is `v` after sector `va` of frame `f` was written as `x`. -/
structure VM.Wrote (v w : VM) (p : PartId) (va f : Nat) (x : Sector) : Prop where
  memFree : v.MemFree w
  mapped : ∃ l, w.leaf p va = some l ∧ l.loc ≠ .unbacked ∧ w.place p va l = .t1 f
  reads : ∀ n acc, (w.readSector p va (.asStored n) acc).2 = .data x
  counts : ctrOf w.mem (w.region p (pageOf va)) (sectorOf va) = nextCtr v.mem (v.region p (pageOf va)) (sectorOf va)
  t1 : ∀ k, k ≠ f * 8192 + sectorOf va → alGet k w.mem.t1 = alGet k v.mem.t1
  ctrs : ∀ k, k ≠ ctrKey (v.region p (pageOf va)) (sectorOf va) → alGet k w.mem.ctrs = alGet k v.mem.ctrs

theorem VM.Writable.writeAs_wrote (h : v.Writable p va l f base) (x : Sector) (acc cas : Bool) : ∃ w, v.writeAs p va x acc cas = (w, .done) ∧ v.Wrote w p va f x := by
  obtain ⟨u, looked, stores⟩ := h.writeAs_stores rfl rfl x acc cas
  obtain ⟨l', leaf, same⟩ := looked.leaf_some h.leaf
  have loc : l'.loc = .t1 f := (congrArg Leaf.loc same :).trans h.loc
  have settled : u.migrating p (pageOf va) = false := (looked.migrating_eq _).trans h.settled
  refine ⟨_, stores, looked.memFree.trans (VM.storeT1_memFree ..), ⟨l', leaf, by rw [loc]; nofun, (VM.place_settled settled l').trans loc⟩, ?_, ?_, ?_, ?_⟩
  · have gen : ∀ c, genOf ((v.region p (pageOf va)).wrote c) (sectorOf va) = ((v.region p (pageOf va)).gen, (v.region p (pageOf va)).epoch.toNat) := fun c => genOf_steady h.steady _
    refine VM.storeT1_reads (base := base) leaf loc settled ?_ (Nat.pos_iff_ne_zero.mp (nextCtr_pos ..)) (fun e => absurd h.room (by rw [e]; decide)) ?_ <;> rw [gen]
    rw [looked.baseKey_eq same]
    exact h.key
  · rw [VM.storeT1_region]
    exact VM.storeT1_ctr ..
  · intro k other
    rw [VM.storeT1_t1_other _ _ _ _ _ _ _ other, looked.t1_eq]
  · intro k other
    exact (VM.storeT1_ctrs_other _ _ _ _ _ ((v.region p (pageOf va)).wrote _) _ other).trans (by rw [looked.ctrs_eq])

end

/-! The sector that an address lies in. -/

theorem pageOf_sector (va : Nat) : pageOf (va / 256 * 256) = pageOf va := by unfold pageOf; omega
theorem sectorOf_sector (va : Nat) : sectorOf (va / 256 * 256) = sectorOf va := by unfold sectorOf; omega
theorem VM.leaf_sector (v : VM) (p : PartId) (va : Nat) : v.leaf p (va / 256 * 256) = v.leaf p va := by
  have keys : ∀ level ∈ [0, 1, 2], walkKey level (va / 256 * 256) = walkKey level va := by
    simp only [List.forall_mem_cons, walkKey]
    refine ⟨by omega, by omega, by omega, nofun⟩
  have walk : walks v.mem p (va / 256 * 256) = walks v.mem p va := by
    simp only [List.forall_mem_cons] at keys
    obtain ⟨k0, k1, k2, -⟩ := keys
    simp only [walks, List.all_cons, k0, k1, k2, List.all_nil]
  rw [VM.leaf, VM.leaf, walk, pageOf_sector]
theorem VM.absent_sector (v : VM) (p : PartId) (va : Nat) (l : Leaf) : v.absent p (va / 256 * 256) l = v.absent p va l := by simp only [VM.absent, VM.place, pageOf_sector, sectorOf_sector]

/-- Bytes over the whole sector leave nothing of it. -/
theorem mergeSector_whole (old : Sector) {b : Bytes} (whole : b.length = 256) : mergeSector old 0 b = bytesSector b := by
  have rest : (sectorBytes old).drop 256 = [] := List.drop_eq_nil_of_le (Nat.le_of_eq (length_sectorBytes old))
  simp [mergeSector, whole, rest, List.take_of_length_le (Nat.le_of_eq whole)]

/-- Writing part of a sector writes it whole, as it reads but for the bytes given (R404). -/
theorem VM.writePart_merges {v : VM} {p : PartId} {va : Nat} {b : Bytes} {acc : Bool} {l : Leaf} {old : Sector} (hl : v.leaf p va = some l) (hu : l.loc ≠ .unbacked)
    (h : (v.readSector p (va / 256 * 256) (.asStored 0) false).2 = .data old) :
    ∃ w cas, v.Looked w ∧ v.writePart p va b (.asStored 0) acc = w.writeAs p (va / 256 * 256) (mergeSector old (va % 256) b) acc cas := by
  unfold VM.writePart
  simp only [hl, hu, if_false]
  split
  · next whole =>
    obtain ⟨start, long⟩ := whole
    refine ⟨v, false, .refl v, ?_⟩
    rw [start, mergeSector_whole old long, Nat.div_mul_cancel (Nat.dvd_of_mod_eq_zero start)]
    rfl
  · obtain ⟨w, r⟩ : ∃ w, v.readSector p (va / 256 * 256) (.asStored 0) false = (w, .data old) := ⟨_, Prod.ext rfl h⟩
    have looked := (readSector_data ((v.leaf_sector p va).trans hl) hu h).2
    rw [r] at looked ⊢
    exact ⟨w, true, looked, rfl⟩

/-! The commands. -/

section
variable {s : State} {w : VM}

theorem VM.MemFree.vm_eq (h : s.vm.MemFree w) : ({ s with mem := w.mem, free := w.free } : State).vm = w := by
  obtain ⟨m, n, rfl⟩ := h
  rfl

/-- A write that is done and sends no packet. -/
theorem writeOp_done {p : PartId} {va : Nat} {run : VM → VM × Status} (done : run s.vm = (w, .done)) (free : s.vm.MemFree w) :
    writeOp p va run s = { s with mem := w.mem, free := w.free } := by
  rw [writeOp, done, if_pos rfl, free.putWrites_eq]

/-- A read of a sector in T1 that finds data answers them at once. -/
theorem readOp_data {p : PartId} {va f : Nat} {l : Leaf} {x : Sector} (hl : s.vm.leaf p va = some l) (hu : l.loc ≠ .unbacked) (place : s.vm.place p va l = .t1 f)
    (data : (s.vm.readSector p va (.asStored 0) true).2 = .data x) : (readOp p va (.asStored 0) s).out = s.out ++ [.sectorData p va (some x) .done] := by
  have free := (readSector_data hl hu data).2.memFree
  unfold readOp
  simp only [hl, place]
  rw [data, free.putVM_eq]
  rfl

end

/-- Settles O28: a sector that can be written at once reads back as written (`VM.Writable.writeAs_wrote`); a partial write is a whole one of what `VM.writePart_merges` names. -/
theorem writtenSectorsReadBack : Obligations.WrittenSectorsReadBack := by
  refine ⟨fun s p va x l f base up whole hl hf settled steady key present room => ?whole, fun s p va b l f old up some' within hl hf settled steady data present room => ?part⟩
  case whole =>
    have able : s.vm.Writable p va.toNat l f base := ⟨hl, hf, settled, steady, key, present, room⟩
    obtain ⟨w, done, wrote⟩ := able.writeAs_wrote x true false
    obtain ⟨l', leaf, backed, place⟩ := wrote.mapped
    have run : exec (.sectorWrite p va x) s = .next { s with mem := w.mem, free := w.free } := (need_of (by simp [up, whole])).trans (congrArg _ (writeOp_done done wrote.memFree))
    have vm := wrote.memFree.vm_eq
    rw [← vm] at leaf place
    refine ⟨_, _, run, need_of (by simpa [memUp, hubUp, whole] using up), readOp_data leaf backed place ?_, ?_, wrote.t1, wrote.ctrs, rfl⟩ <;> rw [vm]
    · exact wrote.reads 0 true
    · exact wrote.counts
  case part =>
    have hu : l.loc ≠ .unbacked := by rw [hf]; nofun
    obtain ⟨⟨base, key⟩, -⟩ := readSector_data ((s.vm.leaf_sector p _).trans hl) hu data
    rw [pageOf_sector, genOf_steady steady] at key
    have able : s.vm.Writable p (va.toNat / 256 * 256) l f base := ⟨(s.vm.leaf_sector p _).trans hl, hf, by rwa [pageOf_sector], by rwa [pageOf_sector], by rwa [pageOf_sector],
      (s.vm.absent_sector p _ l).trans present, by rwa [pageOf_sector, sectorOf_sector]⟩
    obtain ⟨u, cas, looked, merges⟩ := VM.writePart_merges (b := b) (acc := true) hl hu data
    obtain ⟨l', able⟩ := able.looked looked
    obtain ⟨w, done, wrote⟩ := able.writeAs_wrote (mergeSector old (va.toNat % 256) b) true cas
    have free := looked.memFree.trans wrote.memFree
    have run : exec (.sectorPartialWrite p va b (.asStored 0)) s = .next { s with mem := w.mem, free := w.free } :=
      (need_of (by simp [up, some', within])).trans (congrArg _ (writeOp_done (merges.trans done) free))
    refine ⟨_, run, ?_, fun k other => ?_, rfl⟩
    · rw [free.vm_eq]
      exact wrote.reads 0 false
    · exact (wrote.t1 k (by rwa [sectorOf_sector])).trans (by rw [looked.t1_eq]; rfl)

end Sys2Proof.Machine
end

section
/-!
Refutes O30: its clause on a sector with data. `mayRekey` looks for the page among all region records of its partition, and the rest of a re-encryption takes the first record of the page.
Where the list names the page twice, the two may differ, and the watermark of the first may lie past the page. Where each page has one record that clause holds, and the others hold of every state: that is shown first.
-/

namespace Sys2Proof.Machine

/-! One sector of a re-encryption (R406). -/

section
variable {v : VM} {p : PartId} {g : Nat}

/-- A sector without data only moves the watermark. -/
theorem VM.rekeyOne_skips (none' : ctrOf v.mem (v.region p g) (v.region p g).watermark ∈ [0, 0xFFFF]) (d : Delivered) :
    v.rekeyOne p g d = v.setRegion p g { v.region p g with watermark := (v.region p g).watermark + 1 } :=
  if_pos (by simpa using none')

/-- The address of a sector of a page lies in the page, at the sector. -/
theorem pageOf_at {i : Nat} (page : g < 2 ^ 35) (sector : i < 8192) : pageOf (g * 2 ^ 21 + 256 * i) = g := by unfold pageOf; omega
theorem sectorOf_at {i : Nat} (sector : i < 8192) : sectorOf (g * 2 ^ 21 + 256 * i) = i := by unfold sectorOf; omega

/-- The region's record after its next sector was re-encrypted. -/
def Region.rekeyed (r : Region) : Region := { r with watermark := r.watermark + 1, peak := max r.peak 1 }

theorem genOf_rekeyed (r : Region) : genOf r.rekeyed r.watermark = (r.gen, r.epoch.toNat) := by simp [genOf, Region.rekeyed]

/-- The leaf entry of a page whose sector was read. -/
theorem leaf_of_data {va n : Nat} {acc : Bool} {x : Sector} {l : Leaf} (hl : alGet (pageOf va) v.mem.pages[p] = some l) (data : (v.readSector p va (.asStored n) acc).2 = .data x) :
    v.leaf p va = some l := by
  cases walk : walks v.mem p va with
  | true => rw [VM.leaf, walk, if_pos rfl, hl]
  | false =>
    rw [readSector_notMapped (by rw [VM.leaf, walk]; rfl)] at data
    cases data

/-- A sector of a page in T1 that has data is stored again, sealed under the new key with counter 1. -/
theorem VM.rekeyOne_seals {r : Region} {va f : Nat} {l : Leaf} {base : Bytes} {x : Sector} (hr : v.region p g = r) (hva : g * 2 ^ 21 + 256 * r.watermark = va) (page : pageOf va = g)
    (sector : sectorOf va = r.watermark) (hl : v.leaf p va = some l) (hf : l.loc = .t1 f) (settled : v.migrating p g = false) (written : ctrOf v.mem r r.watermark ∉ [0, 0xFFFF])
    (data : (v.readSector p va (.asStored 0) false).2 = .data x) (key : v.baseKey p l r.epoch.toNat = some base) :
    ∃ u, v.Looked u ∧ v.rekeyOne p g (.asStored 0) = u.storeT1 p va f 1 r.rekeyed (sealSector (kmat base g r.gen r.epoch.toNat) (lbnOf va) 1 x) := by
  have looked := (readSector_data hl (by rw [hf]; nofun) data).2
  obtain ⟨u, read⟩ : ∃ u, v.readSector p va (.asStored 0) false = (u, .data x) := ⟨_, Prod.ext rfl data⟩
  rw [read] at looked
  obtain ⟨l', leaf, same⟩ := looked.leaf_some hl
  have place : u.place p va l' = .t1 f := (VM.place_settled (by rw [page, looked.migrating_eq]; exact settled) l').trans ((congrArg Leaf.loc same :).trans hf)
  have none' : ¬(ctrOf v.mem r r.watermark = 0 ∨ ctrOf v.mem r r.watermark = 0xFFFF) := by simpa using written
  refine ⟨u, looked, ?_⟩
  unfold VM.rekeyOne
  simp only [hr, hva, none', if_false, read, looked.region_eq, leaf, looked.baseKey_eq same, key, place, VM.cutOff, VM.sendOf, List.append_nil, Bool.false_eq_true]
  rw [VM.storeT1, page, sector]
  rfl

/-- A list whose keys rise gives at a key the value that stands there. -/
theorem alGet_of_mem {α : Type} {x : Nat × α} {l : List (Nat × α)} (once : keysRise l) (mem : x ∈ l) : alGet x.1 l = some x.2 := by
  induction l with
  | nil => cases mem
  | cons y l ih =>
    obtain ⟨above, once⟩ := (keysRise_cons y l).mp once
    rcases List.mem_cons.mp mem with rfl | mem
    · exact if_pos rfl
    · exact (if_neg (Nat.ne_of_lt (above x mem))).trans (ih once mem)

/-- Where each page has one record, a region whose turn it is has sectors left. -/
theorem watermark_of_mayRekey (once : keysRise v.mem.regions[p]) (turn : mayRekey v p g) : (v.region p g).watermark < 8192 := by
  unfold mayRekey at turn
  split at turn
  · next l hl =>
    obtain ⟨y, listed, entry⟩ := List.mem_map.mp (List.contains_iff_mem.mp (Bool.and_eq_true_iff.mp turn).2)
    obtain ⟨q, -, here⟩ := List.mem_flatMap.mp (mem_sortKey (List.mem_of_mem_take listed))
    obtain ⟨x, record, waits⟩ := List.mem_filterMap.mp here
    split at waits
    · split at waits
      · next left =>
        cases waits
        cases entry
        rw [VM.region, alGet_of_mem once record]
        simp only [Bool.and_eq_true, decide_eq_true_eq] at left
        exact left.1.2
      · cases waits
    · cases waits
  · cases turn

end

/-! A region becomes STEADY (R407). -/

section
variable {v : VM} {p : PartId} {g : Nat}

/-- A region that missed nothing has nothing to enter. -/
theorem VM.enterMissed_nothing (whole : (v.region p g).lossDue = false) (fixed : v.parts[p].rotating = false) (low : (v.region p g).peak < 0xF000) : v.enterMissed p g = v := by
  unfold VM.enterMissed
  simp only [whole, fixed, Nat.not_le.mpr low, Bool.false_eq_true, false_and, if_false, ite_self]

theorem VM.steady_steadies (done : maySteady v p g) (whole : (v.region p g).lossDue = false) (fixed : v.parts[p].rotating = false) (low : (v.region p g).peak < 0xF000) :
    v.steady p g = v.setRegion p g { v.region p g with rekeying := false, watermark := 8192 } := by
  have may : (v.region p g).rekeying ∧ 8192 ≤ (v.region p g).watermark ∧ (v.region p g).inFlightOld = 0 := by simpa [maySteady, and_assoc] using done
  refine (if_pos may).trans (VM.enterMissed_nothing ?_ fixed ?_) <;> rw [VM.region_setRegion_self]
  · exact whole
  · exact low

end

/-! The commands. -/

section
variable {s : State} {p : PartId} {g : Nat}

theorem rekeySector_skips (active : s.pow.mod = .active) (turn : mayRekey s.vm p g) (none' : ctrOf s.mem (s.vm.region p g) (s.vm.region p g).watermark ∈ [0, 0xFFFF]) (d : Delivered) :
    ∃ t, exec (.rekeySector p g d) s = .next t ∧ t.vm.region p g = { s.vm.region p g with watermark := (s.vm.region p g).watermark + 1 } ∧ (∀ h, h ≠ g → t.vm.region p h = s.vm.region p h) ∧
      t.mem.t1 = s.mem.t1 ∧ t.mem.ctrs = s.mem.ctrs ∧ OnlyTouches [.mem] s t := by
  refine ⟨_, need_of (by simp [active, turn]), ?_⟩
  rw [VM.rekeyOne_skips none']
  exact ⟨VM.region_setRegion_self .., fun h other => VM.region_setRegion_other _ _ _ other, rfl, rfl, rfl⟩

/-- The clause that O30 states too widely, with what it lacks: each page has one record. -/
theorem rekeySector_keeps {l : Leaf} {f : Nat} {x : Sector} {base : Bytes} (once : keysRise s.mem.regions[p]) (active : s.pow.mod = .active) (turn : mayRekey s.vm p g) (page : g < 2 ^ 35)
    (hl : alGet g s.mem.pages[p] = some l) (hf : l.loc = .t1 f) (settled : s.vm.migrating p g = false) (written : ctrOf s.mem (s.vm.region p g) (s.vm.region p g).watermark ∉ [0, 0xFFFF])
    (data : (s.vm.readSector p (g * 2 ^ 21 + 256 * (s.vm.region p g).watermark) (.asStored 0) false).2 = .data x) (key : s.vm.baseKey p l (s.vm.region p g).epoch.toNat = some base) :
    ∃ t, exec (.rekeySector p g (.asStored 0)) s = .next t ∧ (t.vm.region p g).watermark = (s.vm.region p g).watermark + 1 ∧
      ctrOf t.mem (t.vm.region p g) (s.vm.region p g).watermark = 1 ∧
      (t.vm.readSector p (g * 2 ^ 21 + 256 * (s.vm.region p g).watermark) (.asStored 0) false).2 = .data x ∧ OnlyTouches [.mem, .free] s t := by
  have left := watermark_of_mayRekey (v := s.vm) once turn
  generalize hr : s.vm.region p g = r at *
  have atPage := pageOf_at page left
  have atSector := sectorOf_at (g := g) left
  generalize hva : g * 2 ^ 21 + 256 * r.watermark = va at *
  have leaf := leaf_of_data (by rw [atPage]; exact hl) data
  obtain ⟨u, looked, seals⟩ := VM.rekeyOne_seals hr hva atPage atSector leaf hf settled written data key
  obtain ⟨l', leaf', same⟩ := looked.leaf_some leaf
  have free := looked.memFree.trans (u.storeT1_memFree p va f 1 r.rekeyed (sealSector (kmat base g r.gen r.epoch.toNat) (lbnOf va) 1 x))
  have region := u.storeT1_region p va f 1 r.rekeyed (sealSector (kmat base g r.gen r.epoch.toNat) (lbnOf va) 1 x)
  have ctr := u.storeT1_ctr p va f 1 r.rekeyed (sealSector (kmat base g r.gen r.epoch.toNat) (lbnOf va) 1 x)
  rw [atPage] at region
  rw [atSector] at ctr
  have run : exec (.rekeySector p g (.asStored 0)) s = .next _ := need_of (by simp [active, turn])
  rw [seals, free.putWrites_eq] at run
  refine ⟨_, run, ?_, ?_, ?_, rfl⟩
  · rw [free.vm_eq, region]
    rfl
  · rw [free.vm_eq, region]
    exact ctr
  · rw [free.vm_eq]
    refine VM.storeT1_reads (base := base) leaf' ((congrArg Leaf.loc same :).trans hf) ((looked.migrating_eq _).trans (by rw [atPage]; exact settled)) ?_ (by decide) (by decide) ?_ 0 false <;>
      rw [atSector, genOf_rekeyed]
    · exact (looked.baseKey_eq same _).trans key
    · rw [atPage]

theorem regionSteady_steadies (done : maySteady s.vm p g) (fixed : s.parts[p].rotating = false) (low : (s.vm.region p g).peak < 0xF000) (whole : (s.vm.region p g).lossDue = false) :
    ∃ t, exec (.regionSteady p g) s = .next t ∧ t.vm.region p g = { s.vm.region p g with rekeying := false, watermark := 8192 } ∧ (∀ h, h ≠ g → t.vm.region p h = s.vm.region p h) ∧
      OnlyTouches [.mem] s t := by
  refine ⟨_, need_of done, ?_⟩
  rw [VM.steady_steadies done whole fixed low]
  exact ⟨VM.region_setRegion_self .., fun h other => VM.region_setRegion_other _ _ _ other, rfl⟩

theorem rotationComplete_destroys (rotating : s.parts[p].rotating) (done : rotationLeft s.vm p = 0) :
    ∃ t, exec (.rotationComplete p) s = .next t ∧ t.parts[p] = { s.parts[p] with rotating := false } ∧ (∀ p', p' ≠ p → t.parts[p'] = s.parts[p']) ∧
      (∀ k ∈ t.keys.slots, k.2.owner = p.val → k.2.purpose = 1 ∨ k.2.purpose = 2 → k.2.epoch = s.parts[p].epoch.toNat) ∧
      (∀ k ∈ s.keys.slots, k.2.owner ≠ p.val ∨ (k.2.purpose ≠ 1 ∧ k.2.purpose ≠ 2) ∨ k.2.epoch = s.parts[p].epoch.toNat → k ∈ t.keys.slots) ∧ OnlyTouches [.parts, .keys] s t := by
  refine ⟨_, need_of (Bool.and_eq_true_iff.mpr ⟨rotating, decide_eq_true done⟩), modVec_self .., fun _ other => modVec_other _ _ _ _ other, fun k kept own purpose => ?_, fun k held live => List.mem_filter.mpr ⟨held, ?_⟩, rfl⟩
  · have stays := (List.mem_filter.mp kept).2
    have old : (decide (k.2.purpose = 1) || decide (k.2.purpose = 2)) = true := by simpa using purpose
    simpa [own, old] using stays
  · rcases live with other | ⟨h1, h2⟩ | now
    · simp [other]
    · simp [h1, h2]
    · simp [now]

end

/-! A page named twice. -/

/-- Page 1 is listed twice, first with no sector left. -/
def twiceListed : State :=
  { ({} : State) with
    pow := { ({} : State).pow with mod := .active }
    parts := ({} : State).parts.set 0 { ({} : Part) with state := .active, cls := 2 }
    keys := { ({} : State).keys with slots := [(0, { owner := 0, epoch := 0, purpose := 2, kind := 0, mask := 1, value := [] })] }
    mem := { ({} : State).mem with
      pages := ({} : State).mem.pages.set 0 [(1, { loc := .t1 0, stash := false, param := false, pin := false }), (2, { loc := .unbacked, stash := true, param := true, pin := false })]
      regions := ({} : State).mem.regions.set 0 [(1, { watermark := 8192, rekeying := true }), (1, { rekeying := true })]
      tables := ({} : State).mem.tables.set 0 [(walkKey 0 0x400000, 0), (walkKey 1 0x400000, 0), (walkKey 2 0x400000, 0)]
      ctrs := [(8192, 1)] } }

/-- Sector 8192 from page 1 is the first of page 2, which reads as zero; page 2 has another key, which is gone, so the re-encryption waits. -/
theorem twiceListed_waits : twiceListed.vm.rekeyOne 0 1 (.asStored 0) = twiceListed.vm := rfl

/-- Refutes O30: in `twiceListed` page 1 has its turn for its second record, while the watermark of its first lies past the page, so nothing of the page is re-encrypted and no watermark moves. -/
theorem not_reencryptionKeepsTheData : ¬ Obligations.ReencryptionKeepsTheData := by
  intro keeps
  obtain ⟨-, sector, -, -⟩ := keeps twiceListed 0 1 rfl
  have leaf : twiceListed.vm.leaf 0 (1 * 2 ^ 21 + 256 * 8192) = some { loc := .unbacked, stash := true, param := true, pin := false } := rfl
  have data : (twiceListed.vm.readSector 0 (1 * 2 ^ 21 + 256 * 8192) (.asStored 0) false).2 = .data 0 := by rw [readSector_unbacked leaf rfl]
  have written : ctrOf twiceListed.mem (twiceListed.vm.region 0 1) (twiceListed.vm.region 0 1).watermark = 1 := rfl
  have key : twiceListed.vm.baseKey 0 { loc := .t1 0, stash := false, param := false, pin := false } 0 = some [] := rfl
  obtain ⟨t, run, moved, -⟩ := sector _ 0 0 [] rfl (by decide) rfl rfl rfl (by rw [written]; decide) data key
  have waits : exec (.rekeySector 0 1 (.asStored 0)) twiceListed = .next (twiceListed.putWrites (twiceListed.vm.rekeyOne 0 1 (.asStored 0))) := need_of rfl
  rw [twiceListed_waits] at waits
  cases waits.symm.trans run
  exact absurd moved (by decide)

end Sys2Proof.Machine
end

section
/-!
What of a partition memory work, the end of a slice and the close of a rank leave: they count and report in its record, and never write its state, its keys, its quotas or its removal (`Part.standing`).
-/

namespace Sys2Proof.Machine

/-- A partition's record without what an engine's work counts and reports in it: live statistics (R552), POISONED_SECTORS (R417) and the engine's copy of the gathering entries (R255). -/
def Part.standing (x : Part) : Part := { x with live := Vector.replicate 32 0, events := Vector.replicate 128 0, poisonedSectors := 0, gatherings := [] }

/-- What stands in the records of all partitions. -/
def standings (ps : Vector Part 64) : Vector Part 64 := ps.map Part.standing

@[simp] theorem standings_at (ps : Vector Part 64) (p : PartId) : (standings ps)[p] = ps[p].standing := Vector.getElem_map _ p.isLt

theorem standing_of_standings {ps qs : Vector Part 64} (h : standings ps = standings qs) (p : PartId) : ps[p].standing = qs[p].standing := by
  rw [← standings_at, ← standings_at, h]

/-- An update that counts or reports leaves what stands. -/
theorem standings_modVec (ps : Vector Part 64) (p : PartId) {f : Part → Part} (counts : ∀ x, (f x).standing = x.standing) : standings (modVec ps p f) = standings ps := by
  refine Vector.ext fun i hi => ?_
  by_cases same : p.val = i <;> simp [standings, modVec, same, counts]


theorem Part.count_standing (x : Part) (i k : Nat) : (x.count i k).standing = x.standing := rfl

theorem state_of_standing {x y : Part} (h : x.standing = y.standing) : x.state = y.state := by
  have := congrArg Part.state h
  exact this
theorem gen_of_standing {x y : Part} (h : x.standing = y.standing) : x.gen = y.gen := by
  have := congrArg Part.gen h
  exact this

/-! Memory work. -/

theorem VM.foldl_standings {α : Type} {f : VM → α → VM} (hf : ∀ v x, standings (f v x).parts = standings v.parts) (l : List α) (v : VM) : standings (l.foldl f v).parts = standings v.parts :=
  foldl_keeps (fun v => standings v.parts) hf l v
theorem VM.foldl_fst_standings {α β : Type} {f : VM × β → α → VM × β} (hf : ∀ u x, standings (f u x).1.parts = standings u.1.parts) (l : List α) (u : VM × β) :
    standings (l.foldl f u).1.parts = standings u.1.parts :=
  foldl_keeps (fun u => standings u.1.parts) hf l u

/-- The state that a pair carries, where a match has taken the pair apart. -/
theorem VM.fst_standings {β : Type} {u : VM × β} {v : VM} {c : β} (e : u = (v, c)) : standings v.parts = standings u.1.parts := by subst e; rfl

section
variable (p : PartId) (page va i : Nat) (acc : Bool) (v : VM)

/-! Regions, leaf entries and caches. -/

@[simp] theorem VM.audit_parts (e : AuditEntry) : (v.audit e).parts = v.parts := rfl
@[simp] theorem VM.alert_parts (n : Nat) : (v.alert n).parts = v.parts := rfl
@[simp] theorem VM.stat_parts (k : Nat) : (v.stat i k).parts = v.parts := rfl
@[simp] theorem VM.growTable_parts (level : Nat) : (v.growTable p va level).parts = v.parts := by unfold VM.growTable; split <;> rfl
@[simp] theorem VM.translate_parts : (v.translate p va).parts = v.parts := by unfold VM.translate; dsimp only; split <;> rfl
@[simp] theorem VM.setRegion_parts (r : Region) : (v.setRegion p page r).parts = v.parts := rfl
@[simp] theorem VM.setLeaf_parts (l : Leaf) : (v.setLeaf p page l).parts = v.parts := by
  unfold VM.setLeaf
  exact foldl_keeps (fun u : VM => u.parts) (fun u k => VM.growTable_parts p _ u k) _ v
@[simp] theorem VM.cacheLines_parts (path : List (Nat × Nat × Nat)) (w : Bool) : (v.cacheLines i path w).parts = v.parts := rfl
@[simp] theorem VM.cacheLook_parts (r : Region) (loc : Loc) (w : Bool) : (v.cacheLook r i loc w).parts = v.parts := by unfold VM.cacheLook; split <;> simp
@[simp] theorem VM.touch_parts : (v.touch p va acc).parts = v.parts := by unfold VM.touch; split <;> rfl
@[simp] theorem VM.endWaits_parts (st : Status) : (v.endWaits p va st).parts = v.parts := by
  unfold VM.endWaits
  exact foldl_keeps (fun u : VM => u.parts) (fun _ _ => by rfl) _ _
@[simp] theorem VM.enterRekey_parts (reason : Reason) (e : Nat) : (v.enterRekey p page reason e).parts = v.parts := rfl
@[simp] theorem VM.enterMissed_parts : (v.enterMissed p page).parts = v.parts := by
  unfold VM.enterMissed
  dsimp only
  (repeat' split) <;> rfl
@[simp] theorem VM.migrateOne_parts : (v.migrateOne p page).parts = v.parts := by unfold VM.migrateOne; split <;> rfl
@[simp] theorem VM.refused_parts (len : Nat) (st : Status) : (v.refused p va len st).parts = v.parts := by unfold VM.refused; split <;> rfl

theorem VM.updPart_standings {f : Part → Part} (counts : ∀ x, (f x).standing = x.standing) : standings (v.updPart p f).parts = standings v.parts := standings_modVec _ _ counts
@[simp] theorem VM.count_standings (k : Nat) : standings (v.updPart p (Part.count i k)).parts = standings v.parts := v.updPart_standings p fun _ => rfl
@[simp] theorem VM.poisoned_standings (n : BitVec 64) : standings (v.updPart p (fun x => { x with poisonedSectors := x.poisonedSectors + n })).parts = standings v.parts :=
  v.updPart_standings p fun _ => rfl
@[simp] theorem VM.event_standings (c : Status) : standings (v.event p c).parts = standings v.parts := v.updPart_standings p fun _ => rfl

/-! Failures. -/

@[simp] theorem VM.markPoisoned_standings (st : Status) : standings (v.markPoisoned p va st).parts = standings v.parts := by
  unfold VM.markPoisoned
  cases st <;> simp
@[simp] theorem VM.treeLoss_standings (r : Region) (level : Nat) (integrity : Bool) : standings (v.treeLoss r i level integrity).parts = standings v.parts := by
  unfold VM.treeLoss
  refine VM.foldl_standings (fun u x => ?_) _ _
  dsimp only
  (repeat' split) <;> simp

/-! Reading. -/

@[simp] theorem VM.readSector_standings (d : Delivered) : standings (v.readSector p va d acc).1.parts = standings v.parts := by
  unfold VM.readSector
  dsimp only
  (repeat' split) <;> simp
@[simp] theorem readVirtual_standings (faults : Faults) (len : Nat) : standings (readVirtual p faults va len v).1.parts = standings v.parts := by
  refine VM.foldl_fst_standings (fun u x => ?_) _ _
  dsimp only
  split
  · rfl
  · split <;> rename_i e <;> simp [VM.fst_standings e]

/-! Re-encrypting and copying. -/

@[simp] theorem VM.rekeyOne_standings (d : Delivered) : standings (v.rekeyOne p page d).parts = standings v.parts := by
  unfold VM.rekeyOne
  dsimp only
  (repeat' split) <;> simp
@[simp] theorem VM.rekeyPast_standings : standings (v.rekeyPast p page i).parts = standings v.parts := VM.foldl_standings (fun _ _ => VM.rekeyOne_standings ..) _ _
@[simp] theorem VM.migrateEnd_standings : standings (v.migrateEnd p page).parts = standings v.parts := by
  unfold VM.migrateEnd
  dsimp only
  (repeat' split) <;> simp
@[simp] theorem VM.migrateAll_standings : standings (v.migrateAll p page).parts = standings v.parts := by
  unfold VM.migrateAll
  split
  · rw [VM.migrateEnd_standings]
    exact VM.foldl_standings (fun u _ => congrArg standings (u.migrateOne_parts p page)) _ _
  · rfl
@[simp] theorem VM.unback_standings : standings (v.unback p page).parts = standings v.parts := by
  unfold VM.unback
  dsimp only
  (repeat' split) <;> simp

/-! Writing. -/

@[simp] theorem VM.writeWait_standings : standings (v.writeWait p va).parts = standings v.parts := by
  unfold VM.writeWait
  dsimp only
  (repeat' split) <;> simp
@[simp] theorem VM.writeNow_standings (x : Sector) (cas : Bool) : standings (v.writeNow p va x acc cas).1.parts = standings v.parts := by
  unfold VM.writeNow
  dsimp only
  (repeat' split) <;> simp
@[simp] theorem VM.writeAs_standings (x : Sector) (cas : Bool) : standings (v.writeAs p va x acc cas).1.parts = standings v.parts := by
  unfold VM.writeAs
  split
  · rfl
  · split <;> simp
@[simp] theorem VM.writePart_standings (b : Bytes) (d : Delivered) : standings (v.writePart p va b d acc).1.parts = standings v.parts := by
  unfold VM.writePart
  split
  · rfl
  · split
    · rfl
    · split
      · exact v.writeAs_standings ..
      · split <;> rename_i e <;> simp [VM.fst_standings e]
@[simp] theorem VM.writeBytes_standings (b : Bytes) : standings (v.writeBytes p va b acc).1.parts = standings v.parts := by
  refine VM.foldl_fst_standings (fun u x => ?_) _ _
  dsimp only
  split
  · split <;> rename_i e <;> simp [VM.fst_standings e]
  · rfl
@[simp] theorem VM.poisonSector_standings : standings (v.poisonSector p va).1.parts = standings v.parts := by
  unfold VM.poisonSector
  dsimp only
  (repeat' split) <;> simp

/-! Gathering entries. -/

@[simp] theorem setGather_standings (g : Gathering) : standings (setGather p i g v).parts = standings v.parts := v.updPart_standings p fun _ => rfl
@[simp] theorem reportGather_standings : standings (reportGather p i v).parts = standings v.parts := by
  unfold reportGather
  dsimp only
  (repeat' split) <;> simp

@[simp] theorem startRotation_parts : (startRotation p v).parts = v.parts := foldl_keeps VM.parts (fun u x => by split <;> rfl) _ _

end
end Sys2Proof.Machine
end

section
/-!
What the end of a slice and the close of a rank leave of the partitions' records (R188, R451): what stands (`standings`). Operations that do not touch the partitions leave them whole, by their frames.
-/

namespace Sys2Proof.Machine

theorem State.foldl_standings {α : Type} {f : State → α → State} (hf : ∀ s x, standings (f s x).parts = standings s.parts) (l : List α) (s : State) : standings (l.foldl f s).parts = standings s.parts :=
  foldl_keeps (fun s => standings s.parts) hf l s
theorem State.foldl_fst_standings {α β : Type} {f : State × β → α → State × β} (hf : ∀ u x, standings (f u x).1.parts = standings u.1.parts) (l : List α) (u : State × β) :
    standings (l.foldl f u).1.parts = standings u.1.parts :=
  foldl_keeps (fun u => standings u.1.parts) hf l u

/-- The state that a pair carries, where a match has taken the pair apart. -/
theorem State.fst_standings {β : Type} {u : State × β} {v : State} {c : β} (e : u = (v, c)) : standings v.parts = standings u.1.parts := by subst e; rfl

/-- Every group of the state but the partitions. -/
def sparingParts : List Group := [.out, .free, .tick, .gov, .rings, .arrays, .mem, .fab, .keys, .bind, .life, .ras, .lh, .dict, .side, .pow, .fw]

theorem parts_of_only {s t : State} (h : OnlyTouches sparingParts s t) : t.parts = s.parts := h.parts_eq (by decide)

@[simp] theorem vm_parts (s : State) : s.vm.parts = s.parts := rfl
@[simp] theorem vmOn_parts (s : State) (d : Nat) : (s.vmOn d).parts = s.parts := rfl
@[simp] theorem putVM_parts (s : State) (v : VM) : (s.putVM v).parts = v.parts := rfl

section
variable (s : State)

/-! Operations that do not touch the partitions. -/

@[simp] theorem revokeFlows_parts {sel} : (revokeFlows sel s).parts = s.parts := rfl
@[simp] theorem sendT2_parts {w} : (sendT2 s w).parts = s.parts := parts_of_only (sendT2_only (.refl _ _) (by decide) (by decide) (by decide))
@[simp] theorem dropGrad_parts {p r} : (dropGrad p r s).parts = s.parts := parts_of_only (dropGrad_only (.refl _ _) (by decide))
@[simp] theorem commitGrad_parts {p r v n} : (commitGrad p r v n s).parts = s.parts := parts_of_only (commitGrad_only (.refl _ _) (by decide))
@[simp] theorem faultRing_parts {p r st} : (faultRing p r st s).parts = s.parts := rfl
@[simp] theorem addConds_parts {a e l} : (addConds a e l s).parts = s.parts := updEntry_parts _
@[simp] theorem sendEvent_parts {event part} : (sendEvent event part s).parts = s.parts := rfl
@[simp] theorem forwardChunk_parts {i l v c b} : (forwardChunk i l v c b s).parts = s.parts := parts_of_only (forwardChunk_only (.refl _ _) (by decide) (by decide))
@[simp] theorem takeShadow_parts {i l w} : (takeShadow i l w s).parts = s.parts := rfl
@[simp] theorem updLayer_parts {i l f} : (updLayer i l f s).parts = s.parts := rfl
@[simp] theorem tipIns_parts {i l v} : (tipIns i l v s).parts = s.parts := parts_of_only (tipIns_only (.refl _ _) (by decide) (by decide) (by decide))
@[simp] theorem modRed_parts {i l v f} : (modRed i l v f s).parts = s.parts := rfl
@[simp] theorem handOver_parts {i l h dst} : (handOver i l h dst s).parts = s.parts := parts_of_only (handOver_only (.refl _ _) (by decide) (by decide))
@[simp] theorem openWork_parts {i l v} : (openWork i l v s).parts = s.parts := rfl
@[simp] theorem updWork_parts {i l v f} : (updWork i l v f s).parts = s.parts := rfl
@[simp] theorem sendRank_parts {i rank cls op layer step chunk payload} : (sendRank i rank cls op layer step chunk payload s).parts = s.parts := parts_of_only (sendRank_only (.refl _ _) (by decide) (by decide))
@[simp] theorem sendOwn_parts {i l v dst leaf all} : (sendOwn i l v dst leaf all s).parts = s.parts := parts_of_only (sendOwn_only (.refl _ _) (by decide) (by decide) (by decide))
@[simp] theorem passRoll_parts {i l v ranks} : (passRoll i l v ranks s).parts = s.parts := parts_of_only (passRoll_only (.refl _ _) (by decide) (by decide) (by decide))
@[simp] theorem releaseHeld_parts {i l v} : (releaseHeld i l v s).parts = s.parts := parts_of_only (releaseHeld_only (.refl _ _) (by decide) (by decide) (by decide))
@[simp] theorem closeFlows_parts {i keep} : (closeFlows i keep s).parts = s.parts := rfl

/-! Memory work put back. -/

@[simp] theorem putWrites_parts {v : VM} : (s.putWrites v).parts = v.parts := foldl_keeps State.parts (fun u _ => sendT2_parts u) _ _
@[simp] theorem updPart_count_standings {p i k} : standings (s.updPart p (Part.count i k)).parts = standings s.parts := standings_modVec _ _ fun _ => rfl

/-! The end of a slice. -/

@[simp] theorem countRemote_standings {a areas} : standings (countRemote a areas s).parts = standings s.parts := updPart_count_standings s
@[simp] theorem addCounts_standings {p x} : standings (addCounts p x s).parts = standings s.parts := by
  unfold addCounts
  rw [updPart_parts, standings_modVec]
  simp only [Part.count_standing, implies_true]
@[simp] theorem auditDispute_parts {a st u} : (auditDispute a st u s).parts = s.parts := rfl
@[simp] theorem readSource_standings {a p faults w off len} : standings (readSource s a p faults w off len).1.parts = standings s.parts := by
  unfold readSource
  dsimp only
  split <;> simp
@[simp] theorem writeDest_standings {a p w off r own} : standings (writeDest s a p w off r own).1.parts = standings s.parts := by
  unfold writeDest
  dsimp only
  split
  · rfl
  · split
    · split <;> rename_i e <;> simp [VM.fst_standings e]
    · split <;> rename_i e <;> simp [VM.fst_standings e]
  all_goals rfl
@[simp] theorem copyGo_standings {a e d faults n f} : standings (copyGo a e d faults n f s).parts = standings s.parts := by
  induction f generalizing s with
  | zero => rfl
  | succ f ih =>
    unfold copyGo
    split
    · rfl
    · dsimp only
      split
      · rfl
      · rw [ih, updEntry_parts, addConds_parts]
        split
        · exact readSource_standings s
        · exact (writeDest_standings _).trans (readSource_standings s)
@[simp] theorem copyTo_standings {a e d faults n} : standings (copyTo a e d faults n s).parts = standings s.parts := by unfold copyTo; split <;> simp
@[simp] theorem copyFree_standings {a e d n} : standings (copyFree a e d n s).parts = standings s.parts := by unfold copyFree; split <;> simp
@[simp] theorem spillMover_standings {a e d} : standings (spillMover a e d s).parts = standings s.parts := by unfold spillMover; split <;> simp
@[simp] theorem cutMovers_standings {a moved} : standings (cutMovers a moved s).parts = standings s.parts := by
  refine State.foldl_standings (fun u e => ?_) _ _
  (repeat' split) <;> simp
@[simp] theorem leaveDispute_parts {a} : (leaveDispute a s).parts = s.parts := by unfold leaveDispute; split <;> rfl
@[simp] theorem stopArrays_standings {p r t arrays} : standings (stopArrays p r t arrays s).parts = standings s.parts := by
  refine State.foldl_standings (fun u a => ?_) _ _
  dsimp only
  split
  · refine (State.foldl_standings (fun v x => ?_) _ _).trans ?_
    · split <;> simp
    · simp
  · rfl
@[simp] theorem countConds_standings {p l} : standings (countConds p l s).parts = standings s.parts := State.foldl_standings (fun u c => by simp) _ _
@[simp] theorem endAttempt_standings {p r code t} : standings (endAttempt p r code t s).1.parts = standings s.parts := by
  unfold endAttempt
  split
  · rfl
  · dsimp only
    rw [countConds_standings, State.foldl_standings (fun u e => countConds_standings u)]
    refine (standings_modVec _ _ fun _ => by simp only [Part.count_standing]).trans ?_
    split <;> simp
@[simp] theorem writeRec_standings {p base va b} : standings (writeRec p base va b s).1.parts = standings s.parts := by unfold writeRec; split <;> simp
@[simp] theorem putEntries_standings {p code completed run} : standings (putEntries p code completed run s).1.parts = standings s.parts := by
  refine State.foldl_fst_standings (fun u a => State.foldl_fst_standings (fun u x => ?_) _ _) _ _
  split <;> simp
@[simp] theorem putSubject_standings {p x final st grad bad} : standings (putSubject p x final st grad bad s).1.parts = standings s.parts := by unfold putSubject; split <;> simp
@[simp] theorem advanceHead_standings {p r} : standings (advanceHead p r s).parts = standings s.parts := updPart_count_standings _
@[simp] theorem retired_standings {n p r st grad} : standings (retired n p r st grad s).parts = standings s.parts := by
  induction n generalizing s st grad with
  | zero => rfl
  | succ n ih =>
    unfold retired
    split
    · simp
    · dsimp only
      split
      · rfl
      · split <;> rename_i e <;> simp [ih, State.fst_standings e, putRecord]
@[simp] theorem closeAttempt_standings {c} : standings (closeAttempt c s).parts = standings s.parts := by
  unfold closeAttempt
  dsimp only
  split <;> rename_i e
  · split <;> rename_i e'
    · (repeat' split) <;> simp [State.fst_standings e', State.fst_standings e]
    · simp [State.fst_standings e', State.fst_standings e]
  · simp [State.fst_standings e]
@[simp] theorem abortRun_standings {p r code t} : standings (abortRun p r code t s).parts = standings s.parts := by
  unfold abortRun
  split <;> rename_i e <;> simp [State.fst_standings e]
@[simp] theorem abortSlices_standings {p} : standings (abortSlices p s).parts = standings s.parts := State.foldl_standings (fun _ _ => abortRun_standings _) _ _

/-! The close of a rank. -/

@[simp] theorem writeChunk_standings {p g v c b} : standings (writeChunk p g v c b s).1.parts = standings s.parts := by
  unfold writeChunk
  dsimp only
  (repeat' split) <;> simp
@[simp] theorem healed_standings {i l v} : standings (healed i l v s).parts = standings s.parts := by
  unfold healed
  (repeat' split) <;> simp
@[simp] theorem placeChunk_standings {i l v c} : standings (placeChunk i l v c s).parts = standings s.parts := by
  unfold placeChunk
  split
  · split
    · split
      · dsimp only
        split
        · simp
        · split
          · rfl
          · split <;> rename_i e <;> simp [State.fst_standings e]
      · rfl
      · rfl
    · rfl
  · rfl
@[simp] theorem takeChunk_standings {i l v c b} : standings (takeChunk i l v c b s).parts = standings s.parts := by
  unfold takeChunk
  dsimp only
  (repeat' split) <;> simp
@[simp] theorem publish_standings {i l v image exps rec} : standings (publish i l v image exps rec s).parts = standings s.parts := by
  unfold publish
  dsimp only
  rw [tipIns_parts, takeShadow_parts, State.foldl_standings (fun u c => by simp), updLayer_parts]
@[simp] theorem closeStep_standings {i l v} : standings (closeStep i l v s).parts = standings s.parts := by
  unfold closeStep
  dsimp only
  (repeat' split) <;> simp
@[simp] theorem tryClose_standings {i l v} : standings (tryClose i l v s).parts = standings s.parts := by
  unfold tryClose
  (repeat' split) <;> simp
@[simp] theorem afterClose_standings {i l v} : standings (afterClose i l v s).parts = standings s.parts := by
  unfold afterClose
  dsimp only
  (repeat' split) <;> simp
@[simp] theorem withholdLayer_standings {i l v} : standings (withholdLayer i l v s).parts = standings s.parts := by
  unfold withholdLayer
  dsimp only
  (repeat' split) <;> simp
@[simp] theorem closeSession_standings {i} : standings (closeSession i s).parts = standings s.parts := by
  unfold closeSession
  split
  · dsimp only
    rw [updSession_parts, closeFlows_parts]
    split
    · exact State.foldl_standings (fun u l => State.foldl_standings (fun w k => withholdLayer_standings w) _ _) _ _
    · rfl
  · rfl
@[simp] theorem closeRanksOf_standings {p} : standings (closeRanksOf p s).parts = standings s.parts := by
  refine State.foldl_standings (fun u x => ?_) _ _
  split <;> simp

end
end Sys2Proof.Machine
end

section
/-!
Settles O33: how a partition comes and goes (R427, R450 to R455).
-/

namespace Sys2Proof.Machine

section
variable {gs : List Group} {s t : State} (h : OnlyTouches gs s t)
include h

theorem OnlyTouches.keys_eq (n : Group.keys ∉ gs) : t.keys = s.keys := by simpa only [State.hide, if_neg n] using congrArg State.keys h
theorem OnlyTouches.life_eq (n : Group.life ∉ gs) : t.life = s.life := by simpa only [State.hide, if_neg n] using congrArg State.life h

end

/-- A request at a module that hears it is answered with what its operation gives. -/
theorem software_answer {s : State} {q : Req} {r r' : State × Status} (hr : reachable s) (h : r = r') : software s (answer q r) = .next (answer q r') := by
  rw [software_of hr, h]

/-! CREATE (R427). -/

section
variable {s : State} {q : Req} {p : PartId}

theorem opCreate_of (sv : served s (0x3000 + p.val)) (op : isOperator s q) (keys : tenantKeysOn s) (free : s.parts[p].state = .free) (arrays : bitmapFits s p s.parts[p].written.bitmap)
    (t1 : t1Fits s p s.parts[p].written.t1.toNat) : opCreate q p s = setPartStatus p (s.updPart p (fun x => { x with createPending := true }), .done) := by
  have fits : doCreate p s = (s.updPart p (fun x => { x with createPending := true }), .done) := if_pos ⟨keys, free, arrays, t1⟩
  rw [opCreate, guarded_of sv op, fits]

theorem opCreate_held (sv : served s (0x3000 + p.val)) (op : isOperator s q) (held : s.parts[p].state ≠ .free) : opCreate q p s = setPartStatus p (s, .denied) := by
  have denied : doCreate p s = (s, .denied) := if_neg fun may => held may.2.1
  rw [opCreate, guarded_of sv op, denied]

theorem create_pends (hr : reachable s) (sv : served s (0x3000 + p.val)) (op : isOperator s q) (keys : tenantKeysOn s) (free : s.parts[p].state = .free)
    (arrays : bitmapFits s p s.parts[p].written.bitmap) (t1 : t1Fits s p s.parts[p].written.t1.toNat) :
    ∃ t, exec (.create q p) s = .next t ∧ t.parts[p] = { s.parts[p] with createPending := true, opStatus := 0 } ∧ (∀ p', p' ≠ p → t.parts[p'] = s.parts[p']) ∧
      Responds q .done [] s t ∧ OnlyTouches [.parts, .out, .dict] s t := by
  refine ⟨_, software_done hr (opCreate_of sv op keys free arrays t1), ?_, fun p' other => ?_, rfl, ?_⟩
  · rw [answer_parts, updPart_at, updPart_at]
    rfl
  · rw [answer_parts, updPart_other _ _ _ _ other, updPart_other _ _ _ _ other]
  · exact answer_only (State_updPart_only (State_updPart_only (.refl _ s) (by decide)) (by decide)) (by decide) (by decide)

theorem create_denied (hr : reachable s) (sv : served s (0x3000 + p.val)) (op : isOperator s q) (held : s.parts[p].state ≠ .free) :
    ∃ t, exec (.create q p) s = .next t ∧ t.parts[p] = { s.parts[p] with opStatus := 0x60 } ∧ (∀ p', p' ≠ p → t.parts[p'] = s.parts[p']) ∧ Responds q .denied [] s t ∧
      OnlyTouches [.parts, .out, .dict] s t := by
  refine ⟨_, software_answer hr (opCreate_held sv op held), ?_, answer_updPart_other _ _ _ _ _, rfl, answer_updPart_only ..⟩
  exact updPart_at ..

end

/-! REMOVE (R450, R451). -/

/-- Who a session is for, and whether it has been revoked. -/
def DSess.standing (x : DSess) : Role × Option PartId × Bool := (x.role, x.part, x.revoked)

/-- An event takes a SEQ of the sessions that hear it, and changes none of them otherwise. -/
theorem sendEvent_sessions {s : State} {event part : Nat} {x : DSess} (h : x ∈ (sendEvent event part s).dict.sessions) : ∃ y ∈ s.dict.sessions, x.standing = y.standing := by
  obtain ⟨y, hy, rfl⟩ := List.mem_map.mp h
  refine ⟨y, hy, ?_⟩
  split <;> rfl

/-- Every flow of an owner whose flows are revoked is REVOKED. -/
theorem revokeFlows_owner {s : State} {n : Nat} {x : Nat × Flow} (h : x ∈ (revokeFlows (fun f => f.owner = n) s).fab.flows) (mine : x.2.owner = n) : x.2.state = .revoked := by
  obtain ⟨y, -, rfl⟩ := List.mem_map.mp h
  by_cases hit : y.2.owner = n
  · simp [hit]
  · simp [hit] at mine

section
variable (p : PartId) (forced : Bool) (s : State)

/-- The partition's slices and ranks have ended and its flows are revoked: what a removal begins from. -/
def quiesced : State := revokeFlows (fun x => x.owner = p.val) (closeRanksOf p (abortSlices p s))

theorem quiesced_standings : standings (quiesced p s).parts = standings s.parts := by simp [quiesced]

/-- The revocation itself: one step in all parts of the state (R450, R451). -/
def revokePart (r : Removal) : State :=
  { s with
    parts := modVec s.parts p (fun x => { x with state := .removing, createPending := false, releases := [], rotating := false, removal := some r }),
    rings := modVec s.rings p (fun v => v.map (fun g => { g with enable := false, owed := none, closing := none })),
    keys := { s.keys with slots := s.keys.slots.map (fun k => if k.2.owner = p.val then (k.1, { k.2 with revoked := true }) else k) },
    dict := { s.dict with sessions := s.dict.sessions.map (fun x => if x.role = .tenant ∧ x.part = some p then { x with revoked := true } else x) },
    mem := stopMemory p s.mem,
    fab := voidAperture p s.fab,
    gov := { s.gov with admission := s.gov.admission.map (fun a => { a with rest := a.rest.filter (fun c => c.part ≠ p) }) } }

/-- A removal revokes once the partition's slices and ranks have ended, and then says so in an event. -/
theorem startRemoval_eq : ∃ r, startRemoval p forced s = sendEvent 4 p.val (revokePart p (quiesced p s) r) := ⟨_, rfl⟩

theorem revokePart_keys (r : Removal) {k : Nat × KeySlot} (h : k ∈ (revokePart p s r).keys.slots) (mine : k.2.owner = p.val) : k.2.revoked := by
  obtain ⟨x, -, rfl⟩ := List.mem_map.mp h
  by_cases hit : x.2.owner = p.val
  · simp [hit]
  · simp [hit] at mine

theorem revokePart_rings (r : Removal) (g : RingId) : (revokePart p s r).rings[p][g].enable = false := by
  rw [show (revokePart p s r).rings[p] = _ from modVec_self ..]
  exact congrArg Ring.enable (Vector.getElem_map _ g.isLt)

theorem revokePart_sessions (r : Removal) {x : DSess} (h : x ∈ (revokePart p s r).dict.sessions) (role : x.role = .tenant) (mine : x.part = some p) : x.revoked := by
  obtain ⟨z, -, rfl⟩ := List.mem_map.mp h
  by_cases hit : z.role = .tenant ∧ z.part = some p
  · simp [hit]
  · rw [if_neg hit] at role mine
    exact absurd ⟨role, mine⟩ hit

theorem revokePart_removing (r : Removal) : (revokePart p s r).parts[p].state = .removing := congrArg Part.state (modVec_self ..)
theorem revokePart_other (r : Removal) {k : PartId} (other : k ≠ p) : (revokePart p s r).parts[k] = s.parts[k] := modVec_other _ _ _ _ other
theorem revokePart_flows (r : Removal) : (revokePart p s r).fab.flows = s.fab.flows := rfl

/-! What the whole of it leaves. -/

theorem sendEvent_keys (event part : Nat) : (sendEvent event part s).keys = s.keys := rfl
theorem sendEvent_fab (event part : Nat) : (sendEvent event part s).fab = s.fab := rfl
theorem sendEvent_rings (event part : Nat) : (sendEvent event part s).rings = s.rings := rfl

theorem startRemoval_removing : (startRemoval p forced s).parts[p].state = .removing := by
  obtain ⟨r, eq⟩ := startRemoval_eq p forced s
  rw [eq, sendEvent_parts, revokePart_removing]

theorem startRemoval_other {k : PartId} (other : k ≠ p) : (startRemoval p forced s).parts[k].standing = s.parts[k].standing := by
  obtain ⟨r, eq⟩ := startRemoval_eq p forced s
  rw [eq, sendEvent_parts, revokePart_other _ _ _ other]
  exact standing_of_standings (quiesced_standings p s) k

theorem startRemoval_state_other {k : PartId} (other : k ≠ p) : (startRemoval p forced s).parts[k].state = s.parts[k].state :=
  state_of_standing (startRemoval_other p forced s other)

theorem startRemoval_life : (startRemoval p forced s).life = s.life := by
  have only : OnlyTouches [.out, .free, .gov, .parts, .rings, .arrays, .mem, .fab, .keys, .bind, .ras, .dict] s (startRemoval p forced s) := by apply startRemoval_only (.refl _ _) <;> decide
  exact only.life_eq (by decide)

theorem startRemoval_keys {k : Nat × KeySlot} (h : k ∈ (startRemoval p forced s).keys.slots) (mine : k.2.owner = p.val) : k.2.revoked := by
  obtain ⟨r, eq⟩ := startRemoval_eq p forced s
  rw [eq, sendEvent_keys] at h
  exact revokePart_keys p (quiesced p s) r h mine

theorem startRemoval_flows {x : Nat × Flow} (h : x ∈ (startRemoval p forced s).fab.flows) (mine : x.2.owner = p.val) : x.2.state = .revoked := by
  obtain ⟨r, eq⟩ := startRemoval_eq p forced s
  rw [eq, sendEvent_fab, revokePart_flows] at h
  exact revokeFlows_owner h mine

theorem startRemoval_rings (g : RingId) : (startRemoval p forced s).rings[p][g].enable = false := by
  obtain ⟨r, eq⟩ := startRemoval_eq p forced s
  rw [eq, sendEvent_rings]
  exact revokePart_rings p (quiesced p s) r g

theorem startRemoval_sessions {x : DSess} (h : x ∈ (startRemoval p forced s).dict.sessions) (role : x.role = .tenant) (mine : x.part = some p) : x.revoked := by
  obtain ⟨r, eq⟩ := startRemoval_eq p forced s
  rw [eq] at h
  obtain ⟨y, hy, same⟩ := sendEvent_sessions h
  have revoked := revokePart_sessions p (quiesced p s) r hy ((congrArg (·.1) same).symm.trans role) ((congrArg (·.2.1) same).symm.trans mine)
  exact (congrArg (·.2.2) same).trans revoked

end

section
variable {s : State} {q : Req} {p : PartId}

theorem doRemove_of (live : s.parts[p].state = .created ∨ s.parts[p].state = .active) : doRemove p s = (startRemoval p false s, .done) := by
  rcases live with h | h <;> simp only [doRemove, h]

theorem remove_revokes (hr : reachable s) (sv : served s (0x3000 + p.val)) (may : opOrTenant s q p) (live : s.parts[p].state = .created ∨ s.parts[p].state = .active) :
    ∃ t, exec (.remove q p) s = .next t ∧ t.parts[p].state = .removing ∧ (∀ k ∈ t.keys.slots, k.2.owner = p.val → k.2.revoked) ∧
      (∀ x ∈ t.fab.flows, x.2.owner = p.val → x.2.state = .revoked) ∧ (∀ r : RingId, t.rings[p][r].enable = false) ∧
      (∀ x ∈ t.dict.sessions, x.role = .tenant → x.part = some p → x.revoked) := by
  have op : opRemove q p s = setPartStatus p (startRemoval p false s, .done) := by rw [opRemove, guarded_of sv may, doRemove_of live]
  have removing := startRemoval_removing p false s
  have keys := fun x => startRemoval_keys p false s (k := x)
  have flows := fun x => startRemoval_flows p false s (x := x)
  have rings := startRemoval_rings p false s
  have sessions := fun x => startRemoval_sessions p false s (x := x)
  generalize startRemoval p false s = u at op removing keys flows rings sessions
  refine ⟨_, software_answer hr op, (congrArg Part.state (updPart_at ..)).trans removing, keys, flows, rings, fun x hx => ?_⟩
  rw [answer_sessions] at hx
  exact sessions x hx

end

/-! Completion (R452, R455). -/

section
variable (p : PartId) (s : State)

theorem freePages_keys : (freePages p s).keys = s.keys :=
  (freePages_only (.refl [.out, .free, .parts, .mem, .fab, .ras, .dict] s) (by decide) (by decide) (by decide) (by decide) (by decide) (by decide) (by decide)).keys_eq (by decide)
theorem freePages_standings : standings (freePages p s).parts = standings s.parts := by
  unfold freePages
  dsimp only
  rw [putWrites_parts]
  exact VM.foldl_standings (fun v page => v.unback_standings p page) _ _
theorem freePages_pages : (freePages p s).mem.pages[p] = [] := modVec_self ..
theorem freePages_window : (freePages p s).mem.window[p] = [] := modVec_self ..
theorem openDebug_eq : ∃ l, openDebug s = { s with life := l } := by
  unfold openDebug
  split
  · exact ⟨_, rfl⟩
  · exact ⟨s.life, rfl⟩

end

/-- What a removal leaves of the record of its partition: its GEN, its statistics and the removal record (R455, R519). -/
def Part.vacated (rec : BitVec 256) (y : Part) : Part :=
  { gen := y.gen, removalRecord := rec, live := y.live, latched := y.latched, events := y.events, eventsLatched := y.eventsLatched, poisonedSectors := y.poisonedSectors,
    poisonedLatched := y.poisonedLatched, latchedFrame := y.latchedFrame }

section
variable {p : PartId} {s : State} {x : Removal}

/-- The state whose pages a completing removal gives back: the partition's keys are destroyed. -/
def withoutKeys (p : PartId) (s : State) : State := { s with keys := { s.keys with slots := s.keys.slots.filter (fun k => k.2.owner ≠ p.val) } }

theorem finishRemoval_eq (done : Nat) (h : s.parts[p].removal = some x) : ∃ u rec waits l, u = freePages p (withoutKeys p s) ∧
    finishRemoval p done s = { u with
      parts := modVec u.parts p (Part.vacated rec), rings := modVec u.rings p (fun _ => Vector.replicate 16 {}), mem := { u.mem with casWaits := waits },
      fab := { u.fab with flows := u.fab.flows.filter (fun f => f.2.owner ≠ p.val) }, life := l } := by
  unfold finishRemoval
  rw [h]
  dsimp only
  exact ⟨freePages p (withoutKeys p s), _, _, _, rfl, (openDebug_eq _).choose_spec⟩

theorem removalComplete_clears (joined : s.tick.joined) (removing : s.parts[p].state = .removing) (h : s.parts[p].removal = some x) (quiet : accessesDone s p) :
    ∃ t, exec (.removalComplete p) s = .next t ∧ t.parts[p].state = .free ∧ t.parts[p].gen = s.parts[p].gen ∧ (∀ k ∈ t.keys.slots, k.2.owner ≠ p.val) ∧
      (∀ x ∈ t.fab.flows, x.2.owner ≠ p.val) ∧ t.mem.pages[p] = [] ∧ t.mem.window[p] = [] ∧ (∀ g : RingId, t.rings[p][g] = {}) ∧
      (∀ p', p' ≠ p → t.parts[p'].state = s.parts[p'].state) := by
  obtain ⟨u, rec, waits, l, hu, done⟩ := finishRemoval_eq (frameNow s + 1) h
  have stands : ∀ k : PartId, u.parts[k].standing = s.parts[k].standing := standing_of_standings (by rw [hu, freePages_standings]; rfl)
  have gen : u.parts[p].gen = s.parts[p].gen := gen_of_standing (stands p)
  have state : ∀ k : PartId, u.parts[k].state = s.parts[k].state := fun k => state_of_standing (stands k)
  refine ⟨_, (need_of (by rw [joined, removing, h, quiet]; rfl)).trans (congrArg _ done), ?_⟩
  refine ⟨?state, ?gen, fun k hk => ?keys, fun f hf => ?flows, ?pages, ?window, fun g => ?rings, fun k other => ?others⟩
  case state => exact congrArg Part.state (modVec_self ..)
  case gen => exact (congrArg Part.gen (modVec_self ..)).trans gen
  case keys =>
    have kept : k ∈ (withoutKeys p s).keys.slots := by rwa [← freePages_keys p, ← hu]
    simpa using (List.mem_filter.mp kept).2
  case flows => simpa using (List.mem_filter.mp hf).2
  case pages => exact hu ▸ freePages_pages ..
  case window => exact hu ▸ freePages_window ..
  case rings =>
    change (modVec u.rings p fun _ => Vector.replicate 16 {})[p][g] = {}
    rw [modVec_self]
    exact Vector.getElem_replicate g.isLt
  case others => exact (congrArg Part.state (modVec_other _ _ _ _ other)).trans (state k)

end

/-- Settles O33: CREATE only marks the partition, or is denied; REMOVE is `startRemoval`, whose completion is `finishRemoval_eq`. -/
theorem partitionsAreCreatedAndRemoved : Obligations.PartitionsAreCreatedAndRemoved := fun _ _ =>
  ⟨fun _ hr sv op keys free arrays t1 => create_pends hr sv op keys free arrays t1, fun _ hr sv op held => create_denied hr sv op held,
    fun _ hr sv may live => remove_revokes hr sv may live, fun _ joined removing h quiet => removalComplete_clears joined removing h quiet⟩

end Sys2Proof.Machine
end

section
/-!
Settles O34: the three imports of a tenant's secret (R438 to R442). Each puts two keys into shared slots and changes the record of its partition; the request ends in OP_STATUS, and its nonce is used up whichever way it ends.
-/

namespace Sys2Proof.Machine

/-! Room in the shared slots (R432). -/

theorem length_filter_alSet_le {α : Type} (P : Nat × α → Bool) (i : Nat) (v : α) (l : List (Nat × α)) : ((alSet i v l).filter P).length ≤ (l.filter P).length + 1 := by
  have put : ∀ m : List (Nat × α), (((i, v) :: m).filter P).length ≤ (m.filter P).length + 1 := fun m => by
    rw [List.filter_cons]
    split <;> simp
  induction l with
  | nil => exact put []
  | cons x l ih =>
    obtain ⟨j, w⟩ := x
    unfold alSet
    split
    · exact put _
    · split
      · exact (put l).trans (Nat.add_le_add_right ((List.sublist_cons_self _ l).filter P).length_le 1)
      · simp only [List.filter_cons]
        split <;> simpa using ih

/-- A key takes at most one shared slot. -/
theorem sharedFree_alSet (ks : Keys) (i : Nat) (k : KeySlot) : sharedFree ks ≤ sharedFree { ks with slots := alSet i k ks.slots } + 1 := by
  have := length_filter_alSet_le (fun x => decide (256 ≤ x.1)) i k ks.slots
  unfold sharedFree
  dsimp only
  omega

/-- A shared slot that counts as free is one that holds no key. -/
theorem exists_shared_of_sharedFree {ks : Keys} (room : 0 < sharedFree ks) : ∃ m, 256 ≤ m ∧ m < 256 + 3840 ∧ alGet m ks.slots = none := by
  by_contra full
  have held : List.range' 256 3840 ⊆ (ks.slots.filter (fun x => 256 ≤ x.1)).map (·.1) := fun m hm => by
    obtain ⟨low, high⟩ := List.mem_range'_1.mp hm
    obtain ⟨k, hk⟩ := Option.ne_none_iff_exists'.mp fun none' => full ⟨m, low, high, none'⟩
    exact List.mem_map.mpr ⟨(m, k), List.mem_filter.mpr ⟨mem_of_alGet hk, by simpa using low⟩, rfl⟩
  have count := (List.subperm_of_subset List.nodup_range' held).length_le
  rw [List.length_range', List.length_map] at count
  unfold sharedFree at room
  omega

section
variable {s : State} {p : PartId}

theorem addKey_shared (k : KeySlot) (room : 0 < sharedFree s.keys) : ∃ t i, addKey true k s = some (t, i) := by
  obtain ⟨m, low, high, free⟩ := exists_shared_of_sharedFree room
  have found := pickFree_isSome (used := fun i => (alGet i s.keys.slots).isSome) (seed := Config.freeNat s.free) low high (by simp [free])
  obtain ⟨i, hi⟩ := Option.isSome_iff_exists.mp found
  unfold addKey
  dsimp only
  rw [if_pos rfl, if_pos rfl, hi]
  exact ⟨_, i, rfl⟩

/-- Two free shared slots take a secret and its memory key, each in a slot of its own. -/
theorem putSecret_of (ps pm e : Nat) (secret mem : Bytes) (room : 2 ≤ sharedFree s.keys) :
    ∃ slots i n, putSecret p ps pm e secret mem s = some { s with keys := { s.keys with slots := slots }, free := n } ∧ alGet i slots = some (keyOf p.val ps e 0 0x1FFF secret) := by
  unfold putSecret
  generalize keyOf p.val ps e 0 0x1FFF secret = k
  obtain ⟨t, i, first⟩ := addKey_shared k (by omega : 0 < sharedFree s.keys)
  obtain ⟨-, ht⟩ := addKey_some first
  have left : 0 < sharedFree t.keys := by
    have := sharedFree_alSet s.keys i k
    rw [ht]
    dsimp only
    omega
  obtain ⟨u, j, second⟩ := addKey_shared (keyOf p.val pm e 0 i mem) left
  obtain ⟨fresh, hu⟩ := addKey_some second
  have slots : t.keys.slots = alSet i k s.keys.slots := by rw [ht]
  have other : i ≠ j := fun same => by simp [slots, same] at fresh
  refine ⟨alSet j (keyOf p.val pm e 0 i mem) t.keys.slots, i, s.free + 1 + 1, ?_, ?_⟩
  · rw [first]
    dsimp only
    rw [second, hu, ht]
    rfl
  · rw [alGet_alSet_other _ _ _ _ other, slots, alGet_alSet_self]

/-! The three imports. -/

/-- An import has left the nonces, this record of its partition, and a slot with this key. -/
def Imported (p : PartId) (s u : State) (y : Part) (k : KeySlot) : Prop := u.keys.nonces = s.keys.nonces ∧ u.parts[p] = y ∧ ∃ i, alGet i u.keys.slots = some k

variable {x : ImportBlob}

theorem importDone_first (secret : Bytes) (op : x.op = 1) (room : 2 ≤ sharedFree s.keys) : ∃ u, importDone x p secret s = some u ∧
    Imported p s u { s.parts[p] with epoch := 0, state := .active, keyId := keyIdOf secret p.val } (keyOf p.val 1 0 0 0x1FFF secret) := by
  obtain ⟨slots, i, n, put, held⟩ := putSecret_of (s := (s.entropy).2) (p := p) 1 2 0 secret (partitionMemory secret (s.entropy).1 p.val 0) room
  unfold importDone
  simp only [op]
  rw [put]
  exact ⟨_, rfl, rfl, updPart_at .., i, held⟩

theorem importDone_next (secret : Bytes) (op : x.op = 2) (room : 2 ≤ sharedFree s.keys) : ∃ u, importDone x p secret s = some u ∧
    Imported p s u { s.parts[p] with epoch := s.parts[p].epoch + 1, keyId := keyIdOf secret p.val, rotating := true } (keyOf p.val 1 (s.parts[p].epoch + 1).toNat 0 0x1FFF secret) := by
  have epoch : (s.parts[p].epoch + 1).toNat = (s.parts[p].epoch.toNat + 1) % 256 := BitVec.toNat_add ..
  obtain ⟨slots, i, n, put, held⟩ := putSecret_of (s := (s.entropy).2) (p := p) 1 2 ((s.parts[p].epoch.toNat + 1) % 256) secret
    (partitionMemory secret (s.entropy).1 p.val ((s.parts[p].epoch.toNat + 1) % 256)) room
  have written : BitVec.ofNat 8 ((s.parts[p].epoch.toNat + 1) % 256) = s.parts[p].epoch + 1 := by rw [← epoch, BitVec.ofNat_toNat, BitVec.setWidth_eq]
  unfold importDone
  simp only [op]
  refine ⟨_, congrArg (Option.map _) put, rfl, ?_, i, epoch ▸ held⟩
  dsimp only
  rw [putVM_parts, startRotation_parts, vm_parts, updPart_at]
  exact congrArg (fun e => { s.parts[p] with epoch := e, keyId := keyIdOf secret p.val, rotating := true }) written

theorem importDone_joint (secret : Bytes) (op : x.op = 3) (room : 2 ≤ sharedFree s.keys) : ∃ u, importDone x p secret s = some u ∧
    Imported p s u { s.parts[p] with jointSession := BitVec.ofNat 8 x.session, jointKeyId := keyIdOf secret p.val } (keyOf p.val 3 0 0 0x1FFF secret) := by
  obtain ⟨slots, i, n, put, held⟩ := putSecret_of (s := (s.entropy).2) (p := p) 3 4 0 secret (jointMemory secret (s.entropy).1 p.val x.session) room
  unfold importDone
  simp only [op]
  rw [put]
  exact ⟨_, rfl, rfl, updPart_at .., i, held⟩

end

/-! The request. -/

section
variable {s : State} {q : Req} {b : Bytes} {p : PartId}

theorem useNonce_used (n : BitVec 256) (s : State) : (n, false) ∉ (useNonce n s).keys.nonces := by
  intro h
  obtain ⟨x, -, hx⟩ := List.mem_map.mp h
  split at hx
  · cases hx
  · rename_i other
    exact other (congrArg (·.1) hx)

/-- A request for a partition by its tenant, as the rules want it, with a nonce that is not used. -/
structure Importable (s : State) (q : Req) (b : Bytes) (p : PartId) : Prop where
  reach : reachable s = true
  serves : served s 0x8002 = true
  tenant : tenantOf s q p = true
  form : importForm b = true
  part : (importBlob b).part = p.val
  keys : tenantKeysOn s = true
  fresh : ((importBlob b).nonce, false) ∈ s.keys.nonces
  room : roomFor s p 2 = true
  suits : importSuits s q (importBlob b) p = true

theorem Importable.sharedRoom (h : Importable s q b p) : 2 ≤ sharedFree s.keys := by
  have room := h.room
  simp only [roomFor, Bool.and_eq_true, decide_eq_true_eq] at room
  exact room.2

/-- A blob that does not open is DENIED, and its nonce is used up (R439). -/
theorem opKeyImport_closed (h : Importable s q b p) (closed : importSecret b = none) : opKeyImport q b s = setPartStatus p (useNonce (importBlob b).nonce s, .denied) := by
  unfold opKeyImport
  simp [h.part, partOf_val, h.serves, h.tenant, h.form, closed, setPartStatus]

/-- A blob that opens has its import (R439, R440, R442). -/
theorem opKeyImport_opened {secret : Bytes} {u : State} (h : Importable s q b p) (opened : importSecret b = some secret) (done : importDone (importBlob b) p secret (useNonce (importBlob b).nonce s) = some u) :
    opKeyImport q b s = setPartStatus p (u, .done) := by
  have keys : tenantKeysOn (useNonce (importBlob b).nonce s) = true := h.keys
  have suits : importSuits (useNonce (importBlob b).nonce s) q (importBlob b) p = true := h.suits
  have room : roomFor (useNonce (importBlob b).nonce s) p 2 = true := h.room
  unfold opKeyImport
  simp [h.part, partOf_val, h.serves, h.tenant, h.form, h.fresh, keys, suits, room, opened, done, setPartStatus]

/-- How such a request ends: with the import that its OP stands for, or DENIED; its nonce is used up either way. -/
theorem import_ends {c : Instr} {y : Bytes → Part} {k : Bytes → KeySlot} (h : Importable s q b p) (run : exec c s = software s (answer q (opKeyImport q b s)))
    (done : ∀ x, ∃ u, importDone (importBlob b) p x (useNonce (importBlob b).nonce s) = some u ∧ Imported p (useNonce (importBlob b).nonce s) u (y x) (k x)) :
    ∃ t, exec c s = .next t ∧ ((importBlob b).nonce, false) ∉ t.keys.nonces ∧
      (∀ x, importSecret b = some x → t.parts[p] = { y x with opStatus := 0 } ∧ ∃ i, alGet i t.keys.slots = some (k x)) ∧
      (importSecret b = none → t.parts[p] = { s.parts[p] with opStatus := 0x60 } ∧ t.keys.slots = s.keys.slots) := by
  cases secret : importSecret b with
  | none =>
    refine ⟨_, run.trans (software_answer h.reach (opKeyImport_closed h secret)), useNonce_used _ s, fun x e => (Option.some_ne_none _ e.symm).elim, fun _ => ⟨updPart_at .., rfl⟩⟩
  | some x =>
    obtain ⟨u, imports, nonces, part, slot⟩ := done x
    refine ⟨_, run.trans (software_answer h.reach (opKeyImport_opened h secret imports)), ?_, fun x' e => ?_, fun e => (Option.some_ne_none _ e).elim⟩
    · exact fun used => useNonce_used _ s (nonces ▸ used)
    · obtain rfl := Option.some.inj e
      exact ⟨(updPart_at ..).trans (by rw [part]; rfl), slot⟩

end

/-- Settles O34: each OP is an import that `import_ends` carries to its answer, the key by `putSecret_of`. -/
theorem tenantKeysAreImported : Obligations.TenantKeysAreImported := by
  intro s q b p hr sv tenant form part keys fresh room
  have importable : importSuits s q (importBlob b) p = true → Importable s q b p := fun suits => ⟨hr, sv, tenant, form, part, keys, fresh, room, suits⟩
  refine ⟨fun op created => ?first, fun op active steady bound => ?next, fun op active joint bound none' => ?joint⟩
  case first =>
    have h := importable (by simpa [importSuits, op] using created)
    obtain ⟨t, run, used, opened, closed⟩ := import_ends (c := .partitionKey q b) h (if_pos (decide_eq_true op)) fun x => importDone_first x op h.sharedRoom
    refine ⟨t, run, used, ?_⟩
    cases secret : importSecret b with
    | none => exact closed secret
    | some x =>
      obtain ⟨rec, i, held⟩ := opened x secret
      rw [rec]
      exact ⟨rfl, rfl, rfl, rfl, i, _, held, rfl, rfl, rfl, rfl⟩
  case next =>
    have h := importable (by simpa [importSuits, op, bound] using ⟨active, steady⟩)
    obtain ⟨t, run, used, opened, closed⟩ := import_ends (c := .rotate q b) h (if_pos (decide_eq_true op)) fun x => importDone_next x op h.sharedRoom
    refine ⟨t, run, used, ?_⟩
    cases secret : importSecret b with
    | none => exact closed secret
    | some x =>
      obtain ⟨rec, i, held⟩ := opened x secret
      rw [rec]
      exact ⟨rfl, rfl, rfl, rfl, i, _, held, rfl, rfl, rfl, rfl⟩
  case joint =>
    have single : (s.keys.slots.find? (fun k => k.2.owner = p.val && k.2.purpose = 3)).isNone := by
      rw [Option.isNone_iff_eq_none, List.find?_eq_none]
      intro k hk both
      simp only [Bool.and_eq_true, decide_eq_true_eq] at both
      exact none' k hk both.1 both.2
    have h := importable (by simpa [importSuits, op, bound, single] using ⟨active, joint⟩)
    obtain ⟨t, run, used, opened, closed⟩ := import_ends (c := .jointKey q b) h (if_pos (decide_eq_true op)) fun x => importDone_joint x op h.sharedRoom
    refine ⟨t, run, used, ?_⟩
    cases secret : importSecret b with
    | none => exact closed secret
    | some x =>
      obtain ⟨rec, i, held⟩ := opened x secret
      rw [rec]
      exact ⟨rfl, rfl, rfl, i, _, held, rfl, rfl, rfl⟩

end Sys2Proof.Machine
end

section
/-!
Settles O48: reports and certificates (R445, R448), and the writes of the life cycle and of debug (R462, R474 to R477).
-/

namespace Sys2Proof.Machine

/-! The session of a request (R556). -/

section
variable {s : State} {q : Req} {x : DSess}

theorem perOf_of_findSess (h : findSess s q = some x) : perOf s q = x.vals := by rw [perOf, h]; rfl

/-- A session that has an ID is found by it alone. -/
theorem findSess_sid (named : q.sid ≠ 0) : findSess s q = s.dict.sessions.find? (fun x => x.sid = q.sid && q.sid ≠ 0) := by
  unfold findSess
  congr 1
  funext y
  simp [named]

/-- The record of a session is that of a request (R556). -/
def DSess.isOf (q : Req) (x : DSess) : Bool := x.sid = q.sid && (q.sid ≠ 0 || x.src = q.src)

theorem findSess_isOf : findSess s q = s.dict.sessions.find? (DSess.isOf q) := rfl

/-- A change of a session that leaves who it is. -/
theorem findSess_updSess (f : DSess → DSess) (who : ∀ y, (f y).isOf q = y.isOf q) (h : findSess s q = some x) : findSess (updSess q f s) q = some (f x) := by
  have sessions : (updSess q f s).dict.sessions = s.dict.sessions.map (fun y => if y.isOf q then f y else y) := by
    unfold updSess
    rw [h]
    rfl
  have same : (DSess.isOf q ∘ fun y => if y.isOf q then f y else y) = DSess.isOf q := by
    funext y
    simp only [Function.comp]
    split
    · exact who y
    · rfl
  have mine : x.isOf q = true := List.find?_some h
  rw [findSess_isOf, sessions, List.find?_map, same, ← findSess_isOf, h, Option.map_some, if_pos mine]

theorem roleOf_congr {t : State} (h : t.dict.sessions = s.dict.sessions) : roleOf t q = roleOf s q := by simp only [roleOf, findSess, h]

/-- A role other than METER is the one that an unrevoked session has. -/
theorem roleOf_session (h : findSess s q = some x) (role : roleOf s q ≠ .meter) : q.sid ≠ 0 ∧ x.revoked = false := by
  unfold roleOf at role
  rw [h] at role
  refine ⟨fun anonymous => role (if_pos anonymous), ?_⟩
  by_contra revoked
  simp [revoked] at role

theorem roleOf_of_session (named : q.sid ≠ 0) (h : findSess s q = some x) (stands : x.revoked = false) : roleOf s q = x.role := by
  unfold roleOf
  rw [if_neg named, h]
  simp [stands]

end

/-! Attestation (R445, R448). -/

section
variable {s : State} {q : Req}

theorem opSign_of (sv : served s 0x8040) (may : mayAttest s q) (idle : (perOf s q).attPending = none) :
    opSign q s = (updPer q (fun x => { x with attStatus := 1, attPending := some (reportBytes s x.attNonce) }) s, .done) := guarded_of sv (by simp [may, idle])
theorem opLoadCert_of (sv : served s 0x8040) (may : mayAttest s q) (idle : (perOf s q).attPending = none) :
    opLoadCert q s = (updPer q (fun x => { x with attStatus := 0, attData := s.life.cert }) s, .done) := guarded_of sv (by simp [may, idle])
/-- While a report waits for its signature the buffer takes no other operation. -/
theorem mayAttest_busy (busy : (perOf s q).attPending ≠ none) : (served s 0x8040 && (mayAttest s q && (perOf s q).attPending.isNone)) = false := by
  have waits : (perOf s q).attPending.isNone = false := by rwa [Option.isNone_eq_false_iff, Option.isSome_iff_ne_none]
  rw [waits, Bool.and_false, Bool.and_false]

/-- A report that waits for its signature is one of a session. -/
theorem findSess_of_pending {b : Bytes} (h : (perOf s q).attPending = some b) : ∃ x, findSess s q = some x ∧ x.vals.attPending = some b := by
  cases found : findSess s q with
  | none => simp [perOf, found] at h
  | some x => exact ⟨x, rfl, perOf_of_findSess found ▸ h⟩

theorem signComplete_lists {b : Bytes} (named : q.sid ≠ 0) (h : (perOf s q).attPending = some b) (up : s.pow.mgmtUp) :
    ∃ t, exec (.signComplete q.sid) s = .next t ∧ (perOf t q).attStatus = 0 ∧ (perOf t q).attData = b ∧ (perOf t q).attPending = none ∧
      (BitVec.ofNat 256 (leNat (slice b 40 32)), false) ∈ t.keys.nonces ∧ t.keys.nonces.length ≤ 64 ∧ t.keys.slots = s.keys.slots ∧ OnlyTouches [.keys, .dict] s t := by
  obtain ⟨x, found, pending⟩ := findSess_of_pending h
  have byId := findSess_sid (s := s) named
  have run : execSignComplete q.sid s = .next (signDone { sid := q.sid, src := 0 } b s) := by
    unfold execSignComplete
    rw [← byId, found, Option.bind_some, pending]
    exact need_of up
  have vals : perOf (signDone { sid := q.sid, src := 0 } b s) q = { x.vals with attStatus := 0, attData := b, attPending := none } := by
    have same : ∀ u : State, findSess u { sid := q.sid, src := 0 } = findSess u q := fun u =>
      (findSess_sid (q := { sid := q.sid, src := 0 }) named).trans (findSess_sid named).symm
    refine perOf_of_findSess ((same _).symm.trans (findSess_updPer _ ?_))
    exact (same _).trans found
  refine ⟨_, run, ?_, ?_, ?_, List.mem_of_mem_head? rfl, List.length_take_le .., rfl, ?_⟩
  · rw [vals]
  · rw [vals]
  · rw [vals]
  · exact updPer_only (.upd (.refl _ s) rfl (.inr rfl) (.inr rfl) (.inr rfl) (.inr rfl) (.inr rfl) (.inr rfl) (.inr rfl) (.inr rfl) (.inr rfl) (.inl (by decide)) (.inr rfl) (.inr rfl) (.inr rfl) (.inr rfl)
      (.inr rfl) (.inr rfl) (.inr rfl) (.inr rfl)) (by decide)

end

/-! The certificate and the operator key (R462, R469, R559). -/

section
variable {s : State} {q : Req}

theorem opCertWrite_of {b : Bytes} (sv : served s 0xA004) (maker : isMaker s q) (first : s.life.force = 1) (whole : b.length = 8192) :
    opCertWrite q b s = ({ s with life := { s.life with cert := b } }, .done) := guarded_of sv (by simp [maker, first, whole])

theorem opEnrol_own {d : BitVec 512} {x : DSess} (sv : served s 0xA005) (role : roleOf s q = .enrol) (integrator : s.life.force = 2) (open' : s.life.operatorDigest = 0) (nonzero : d ≠ 0)
    (found : findSess s q = some x) (own : Config.sha3 x.ownKey = d) :
    opEnrol q d s = (updSess q (fun x => { x with role := .operator }) { s with life := { s.life with operatorDigest := d } }, .done) :=
  guarded_of sv (by simp only [role, integrator, open', found, own, ne_eq, nonzero, decide_true, not_false_eq_true, Bool.and_self])

theorem opEnrol_foreign {d : BitVec 512} {x : DSess} (found : findSess s q = some x) (foreign : Config.sha3 x.ownKey ≠ d) : opEnrol q d s = (s, .denied) :=
  guarded_not (by simp only [found, foreign, decide_false, Bool.and_false])

theorem enrol_ends {d : BitVec 512} {x : DSess} (hr : reachable s) (sv : served s 0xA005) (role : roleOf s q = .enrol) (integrator : s.life.force = 2) (open' : s.life.operatorDigest = 0)
    (nonzero : d ≠ 0) (found : findSess s q = some x) :
    ∃ t, exec (.operatorKeyEnrol q d) s = .next t ∧
      (if Config.sha3 x.ownKey = d then t.life = { s.life with operatorDigest := d } ∧ roleOf t q = .operator ∧ Responds q .done [] s t else t = answer q (s, .denied)) := by
  by_cases own : Config.sha3 x.ownKey = d
  · refine ⟨_, software_done hr (opEnrol_own sv role integrator open' nonzero found own), ?_⟩
    obtain ⟨named, stands⟩ := roleOf_session found (by rw [role]; decide)
    rw [if_pos own]
    refine ⟨rfl, (roleOf_congr answer_sessions).trans ?_, rfl⟩
    exact roleOf_of_session (x := { x with role := .operator }) named (findSess_updSess _ (fun _ => rfl) found) stands
  · refine ⟨_, software_denied hr (opEnrol_foreign found own), ?_⟩
    rw [if_neg own]

end

/-! Debug (R474 to R477). -/

section
variable {s : State} {q : Req}

theorem setModuleKey_beside (owner purpose tag : Nat) (value : Bytes) (s : State) : OnlyTouches [.free, .keys] s (setModuleKey owner purpose tag value s) :=
  setModuleKey_only (.refl _ s) (by decide) (by decide)

/-- The key of a challenge stands in the DEBUG slot. -/
def challengeKeyed (s : State) : State := setModuleKey 0x40 0x1B 0 (s.entropy).1 (s.entropy).2

theorem challengeKeyed_life : (challengeKeyed s).life = s.life := (setModuleKey_beside 0x40 0x1B 0 (s.entropy).1 (s.entropy).2).life_eq (by decide)
theorem challengeKeyed_out : (challengeKeyed s).out = s.out := (setModuleKey_beside 0x40 0x1B 0 (s.entropy).1 (s.entropy).2).out_eq (by decide)

theorem doChallenge_of (heard : dbgOpen s) : doChallenge s =
    ({ challengeKeyed s with life := { (challengeKeyed s).life with challenge := BitVec.ofNat 256 (leNat (s.entropy).1), dbg := if (challengeKeyed s).life.dbg = 3 then 3 else 1 } }, .done) := if_pos heard

/-- What CHALLENGE leaves of debug: the nonce, and the state that waits for its response. -/
def Life.challenged (n : Bytes) (x : Life) : Life := { x with challenge := BitVec.ofNat 256 (leNat n), dbg := if x.dbg = 3 then 3 else 1, dbgStatus := 0 }

theorem opChallenge_of (sv : served s 0xA002) (may : opOrMaker s q) (heard : dbgOpen s) :
    opChallenge q s = ({ challengeKeyed s with life := (challengeKeyed s).life.challenged (s.entropy).1 }, .done) := by
  rw [opChallenge, guarded_of sv may, doChallenge_of heard]
  generalize challengeKeyed s = u
  rfl

theorem challenge_draws (hr : reachable s) (sv : served s 0xA002) (may : opOrMaker s q) (heard : dbgOpen s) (shut : s.life.dbg ≠ 3) :
    ∃ t, exec (.challenge q) s = .next t ∧ t.life.dbg = 1 ∧ t.life.challenge = BitVec.ofNat 256 (leNat (s.entropy).1) ∧ t.life.dbgStatus = 0 ∧ Responds q .done [] s t ∧
      OnlyTouches [.out, .free, .keys, .life, .dict] s t := by
  have only : OnlyTouches [.out, .free, .keys, .life, .dict] s (answer q (opChallenge q s)) :=
    answer_only (opChallenge_only (.refl _ s) (by decide) (by decide) (by decide)) (by decide) (by decide)
  have op := opChallenge_of sv may heard
  have life := challengeKeyed_life (s := s)
  have out := challengeKeyed_out (s := s)
  generalize challengeKeyed s = u at op life out
  rw [op] at only
  refine ⟨_, software_answer hr op, if_neg (by rwa [life]), rfl, rfl, ?_, only⟩
  unfold Responds
  rw [answer_out, ← out]

/-- What OPEN does with one partition: one that stands is removed, and a CREATE that is pending is dropped outside MAKER. -/
def removeStanding (s : State) (p : PartId) : State :=
  if s.parts[p].state = .created ∨ s.parts[p].state = .active then startRemoval p true s
  else if s.parts[p].createPending then s.updPart p (fun x => { x with createPending := s.life.force = 1 }) else s

theorem removeStanding_life (p : PartId) : (removeStanding s p).life = s.life := by
  unfold removeStanding
  split
  · exact startRemoval_life ..
  · split <;> rfl

theorem removeStanding_other {p k : PartId} (other : k ≠ p) : (removeStanding s p).parts[k].state = s.parts[k].state := by
  unfold removeStanding
  split
  · exact startRemoval_state_other _ _ _ other
  · split
    · exact congrArg Part.state (updPart_other _ _ _ _ other)
    · rfl

theorem removeStanding_self {p : PartId} (held : s.parts[p].state ≠ .free) : (removeStanding s p).parts[p].state = .removing := by
  unfold removeStanding
  split
  · exact startRemoval_removing ..
  · rename_i standing
    have removing : s.parts[p].state = .removing := by
      cases h : s.parts[p].state with
      | free => exact absurd h held
      | created => exact absurd (.inl h) standing
      | active => exact absurd (.inr h) standing
      | removing => rfl
    split
    · exact (congrArg Part.state (updPart_at ..)).trans removing
    · exact removing

theorem foldl_removeStanding_removing {p : PartId} (l : List PartId) (s : State) (removing : s.parts[p].state = .removing) : (l.foldl removeStanding s).parts[p].state = .removing := by
  induction l generalizing s with
  | nil => exact removing
  | cons k l ih =>
    refine ih _ ?_
    by_cases here : p = k
    · subst here
      exact removeStanding_self (by rw [removing]; decide)
    · exact (removeStanding_other here).trans removing

/-- Every partition of a list that is not FREE is being removed after the list's turn. -/
theorem foldl_removeStanding {p : PartId} (l : List PartId) (s : State) (listed : p ∈ l) (held : s.parts[p].state ≠ .free) : (l.foldl removeStanding s).parts[p].state = .removing := by
  induction l generalizing s with
  | nil => cases listed
  | cons k l ih =>
    by_cases here : p = k
    · subst here
      exact foldl_removeStanding_removing l _ (removeStanding_self held)
    · exact ih _ ((List.mem_cons.mp listed).resolve_left here) ((removeStanding_other here).symm ▸ held)

/-- The state in which OPEN has dropped the challenge and removed the partitions (R476). -/
def debugCleared (s : State) : State :=
  allParts.foldl (fun s p => removeStanding s p) { eraseChallenge s with life := { (eraseChallenge s).life with dbg := 2 } }

theorem debugCleared_life : (debugCleared s).life = { (eraseChallenge s).life with dbg := 2 } := foldl_keeps State.life (fun _ p => removeStanding_life p) _ _
theorem debugCleared_removing {p : PartId} (held : s.parts[p].state ≠ .free) : (debugCleared s).parts[p].state = .removing := foldl_removeStanding _ _ (List.mem_finRange p) held

/-- Pair and session keys are revoked (R476). -/
def revokeSessionKeys (s : State) : State :=
  { s with keys := { s.keys with slots := s.keys.slots.map (fun k => if k.2.purpose = 0x17 ∨ k.2.purpose = 0x18 then (k.1, { k.2 with revoked := true }) else k) } }

/-- An OPEN clears the partitions, revokes the keys, and then the flows under them. -/
theorem beginDebug_eq (s : State) : ∃ sel, beginDebug s = revokeFlows sel (revokeSessionKeys (debugCleared s)) := by
  have cleared : debugCleared s = _ := debugCleared.eq_1 s
  unfold removeStanding at cleared
  unfold beginDebug
  dsimp only at cleared ⊢
  rw [← cleared]
  generalize debugCleared s = u
  exact ⟨_, rfl⟩

theorem revokeSessionKeys_revoked {k : Nat × KeySlot} (h : k ∈ (revokeSessionKeys s).keys.slots) (session : k.2.purpose = 0x17 ∨ k.2.purpose = 0x18) : k.2.revoked := by
  obtain ⟨x, -, rfl⟩ := List.mem_map.mp h
  by_cases hit : x.2.purpose = 0x17 ∨ x.2.purpose = 0x18
  · simp [hit]
  · rw [if_neg hit] at session
    exact absurd session hit

theorem debugOpen_opens (hr : reachable s) (sv : served s 0xA002) (may : opOrMaker s q) (heard : dbgOpen s) (shut : s.life.dbg ≠ 3) (ok : responseOk s) :
    ∃ t, exec (.debugOpen q) s = .next t ∧ t.life.dbg = 2 ∧ t.life.challenge = 0 ∧ t.life.dbgStatus = 0 ∧
      (∀ p : PartId, s.parts[p].state ≠ .free → t.parts[p].state = .removing) ∧ (∀ k ∈ t.keys.slots, k.2.purpose = 0x17 ∨ k.2.purpose = 0x18 → k.2.revoked) := by
  obtain ⟨sel, begun⟩ := beginDebug_eq s
  have op : opDebugOpen q s = setDbg (revokeFlows sel (revokeSessionKeys (debugCleared s)), .done) := by
    rw [opDebugOpen, guarded_of sv may, doDebugOpen, if_neg (by simp [heard, show s.life.dbg ≠ 3#8 from shut]), if_pos ok, begun]
  have life := debugCleared_life (s := s)
  have parts := fun p => debugCleared_removing (s := s) (p := p)
  generalize debugCleared s = u at op life parts
  exact ⟨_, software_answer hr op, congrArg Life.dbg life, congrArg Life.challenge life, rfl, parts, fun k => revokeSessionKeys_revoked⟩

end

/-- Settles O48: each write is its guarded operation; the end of a signature is `signComplete_lists`, an enrolment `enrol_ends`, debug `challenge_draws` and `debugOpen_opens`. -/
theorem reportsCertificatesAndDebug : Obligations.ReportsCertificatesAndDebug := by
  refine ⟨fun s => ⟨fun q hr sv may idle => ⟨?sign, ?load⟩, fun q hr busy => ⟨?signBusy, ?loadBusy⟩, fun q b named pending up => signComplete_lists named pending up⟩,
    fun s q hr => ⟨fun b sv maker first whole => ?cert, fun d x sv role integrator open' nonzero found => enrol_ends hr sv role integrator open' nonzero found,
      fun sv may heard shut => ⟨challenge_draws hr sv may heard shut, fun ok => debugOpen_opens hr sv may heard shut ok⟩⟩⟩
  case sign => exact software_done hr (opSign_of sv may idle)
  case load => exact software_done hr (opLoadCert_of sv may idle)
  case signBusy => exact software_denied hr (guarded_not (mayAttest_busy busy))
  case loadBusy => exact software_denied hr (guarded_not (mayAttest_busy busy))
  case cert => exact software_done hr (opCertWrite_of sv maker first whole)

end Sys2Proof.Machine
end

section
/-!
Settles O4: the one-way fuses. The life-cycle word is only ever combined with further bits, the firmware floor rises to the larger of two versions, the seal count goes up and the seal is set; every other operation leaves them. The operations that touch the life cycle, the firmware or the Lighthouse are gone through one by one; the rest is excluded by the frames.
-/

namespace Sys2Proof.Machine

theorem OnlyTouches.lh_eq {gs : List Group} {s t : State} (h : OnlyTouches gs s t) (n : Group.lh ∉ gs) : t.lh = s.lh := by
  simpa only [State.hide, if_neg n] using congrArg State.lh h
theorem OnlyTouches.fw_eq {gs : List Group} {s t : State} (h : OnlyTouches gs s t) (n : Group.fw ∉ gs) : t.fw = s.fw := by
  simpa only [State.hide, if_neg n] using congrArg State.fw h

/-! The relation. -/

section
variable {gs : List Group} {s t u : State}

/-- No bit of the word goes back. -/
def WordGains (v w : BitVec 64) : Prop := ∀ i, v.getLsbD i → w.getLsbD i

theorem WordGains.refl (w : BitVec 64) : WordGains w w := fun _ set => set
theorem WordGains.or (w m : BitVec 64) : WordGains w (w ||| m) := fun _ set => by rw [BitVec.getLsbD_or, set, Bool.true_or]
theorem WordGains.or_right {v w : BitVec 64} (h : WordGains v w) (m : BitVec 64) : WordGains v (w ||| m) := fun i set => WordGains.or w m i (h i set)

theorem FusesOnlyGain.of_eq (word : t.life.word = s.life.word) (floor : t.fw.floor = s.fw.floor) (count : t.lh.sealCount = s.lh.sealCount) (sealed : t.lh.sealed = s.lh.sealed) :
    FusesOnlyGain s t :=
  ⟨fun _ set => word ▸ set, floor.ge, count.ge, fun set => sealed ▸ set⟩

theorem FusesOnlyGain.refl (s : State) : FusesOnlyGain s s := .of_eq rfl rfl rfl rfl

theorem FusesOnlyGain.trans (h : FusesOnlyGain s t) (k : FusesOnlyGain t u) : FusesOnlyGain s u := by
  obtain ⟨word, floor, count, sealed⟩ := h
  obtain ⟨word', floor', count', sealed'⟩ := k
  exact ⟨fun i set => word' i (word i set), floor.trans floor', count.trans count', fun set => sealed' (sealed set)⟩

/-- The last of two changes first: what it is a change of is then known. -/
theorem FusesOnlyGain.after (k : FusesOnlyGain t u) (h : FusesOnlyGain s t) : FusesOnlyGain s u := h.trans k

/-- Every group but the three that hold fuses. -/
def sparingFuses : List Group := [.out, .free, .tick, .gov, .parts, .rings, .arrays, .mem, .fab, .keys, .bind, .ras, .dict, .side, .pow]

/-- What touches none of the three groups. -/
theorem FusesOnlyGain.spared (h : OnlyTouches gs s t) (life : Group.life ∉ gs) (fw : Group.fw ∉ gs) (lh : Group.lh ∉ gs) : FusesOnlyGain s t :=
  .of_eq (congrArg Life.word (h.life_eq life)) (congrArg Firmware.floor (h.fw_eq fw)) (congrArg Lighthouse.sealCount (h.lh_eq lh)) (congrArg Lighthouse.sealed (h.lh_eq lh))
theorem FusesOnlyGain.beside (h : OnlyTouches sparingFuses s t) : FusesOnlyGain s t := .spared h (by decide) (by decide) (by decide)

/-- What touches the life cycle alone of the three groups. -/
theorem FusesOnlyGain.of_word (h : OnlyTouches gs s t) (fw : Group.fw ∉ gs) (lh : Group.lh ∉ gs) (word : WordGains s.life.word t.life.word) : FusesOnlyGain s t :=
  ⟨word, (congrArg Firmware.floor (h.fw_eq fw)).ge, (congrArg Lighthouse.sealCount (h.lh_eq lh)).ge, fun set => h.lh_eq lh ▸ set⟩

theorem FusesOnlyGain.foldl {α : Type} {f : State → α → State} (each : ∀ u x, FusesOnlyGain u (f u x)) (l : List α) (s : State) : FusesOnlyGain s (l.foldl f s) := by
  induction l generalizing s with
  | nil => exact .refl s
  | cons x l ih => exact (each s x).trans (ih _)

theorem FusesOnlyGain.emit (h : FusesOnlyGain s t) (o : List Output) : FusesOnlyGain s (t.emit o) := h

end

/-! Requests: what guards, answers and programs them gains no more than their work. -/

section
variable {s : State} {q : Req} {r : State × Status}

theorem guarded_gains {i : Nat} {b : Bool} (h : FusesOnlyGain s r.1) : FusesOnlyGain s (guarded s i b r).1 := by
  unfold guarded
  split
  · exact h
  · exact .refl s
theorem flashed_gains {b : Bool} (h : FusesOnlyGain s r.1) : FusesOnlyGain s (flashed q b s r).1 := by
  unfold flashed
  split
  · exact .refl s
  · exact h
theorem answer_gains (h : FusesOnlyGain s r.1) : FusesOnlyGain s (answer q r) := h.trans (.beside (answer_only (.refl _ _) (by decide) (by decide)))

end

/-! The life cycle (R464 to R472). -/

section
variable {s : State} {q : Req}

theorem sealBy_gains (b : Bytes) (s : State) : FusesOnlyGain s (sealBy b s) := by
  unfold sealBy
  dsimp only
  split
  · exact ⟨WordGains.refl _, le_rfl, le_rfl, fun _ => rfl⟩
  · exact .refl s

theorem lcDeny_gains (s : State) : FusesOnlyGain s (lcDeny s).1 := by
  unfold lcDeny
  split <;> exact .of_eq rfl rfl rfl rfl
theorem doNewNonce_gains (s : State) : FusesOnlyGain s (doNewNonce s).1 := by
  unfold doNewNonce
  split
  · exact .of_eq rfl rfl rfl rfl
  · exact lcDeny_gains s
/-- The state in which a transition runs: its intent byte stands. -/
def transitionBegun (s : State) : State :=
  let x := signedReq s.life.request
  { s with life := { s.life with running := some x.target, status := 1, nonce := 0, flashRequest := s.life.request, word := s.life.word ||| intentMask x.target } }

theorem doTransition_accepted (h : lcAccepts s (signedReq s.life.request)) :
    doTransition s = (if 3 ≤ (signedReq s.life.request).target then (sealBy s.life.request (transitionBegun s)).emit [.lhRequest s.life.request] else transitionBegun s, .done) := if_pos h
theorem doTransition_refused (h : lcAccepts s (signedReq s.life.request) = false) :
    doTransition s = lcDeny (if lcOpen s then { s with life := { s.life with nonce := 0 } } else s) := if_neg (by simp [h])

theorem transitionBegun_gains (s : State) : FusesOnlyGain s (transitionBegun s) := .of_word (gs := [.life]) rfl (by decide) (by decide) (WordGains.or _ _)

theorem doTransition_gains (s : State) : FusesOnlyGain s (doTransition s).1 := by
  cases h : lcAccepts s (signedReq s.life.request) with
  | true =>
    rw [doTransition_accepted h]
    dsimp only
    split
    · exact ((transitionBegun_gains s).trans (sealBy_gains _ _)).emit _
    · exact transitionBegun_gains s
  | false =>
    rw [doTransition_refused h]
    split
    · exact .trans (t := { s with life := { s.life with nonce := 0 } }) (.of_eq rfl rfl rfl rfl) (lcDeny_gains _)
    · exact lcDeny_gains s
theorem opNewNonce_gains : FusesOnlyGain s (opNewNonce q s).1 := guarded_gains (doNewNonce_gains s)
theorem opTransition_gains : FusesOnlyGain s (opTransition q s).1 := guarded_gains (doTransition_gains s)
theorem opLcRequest_gains {b : Bytes} : FusesOnlyGain s (opLcRequest q b s).1 := guarded_gains (.of_eq rfl rfl rfl rfl)
theorem opDbgResponse_gains {b : Bytes} : FusesOnlyGain s (opDbgResponse q b s).1 := guarded_gains (.of_eq rfl rfl rfl rfl)
theorem opCertWrite_gains {b : Bytes} : FusesOnlyGain s (opCertWrite q b s).1 := guarded_gains (.of_eq rfl rfl rfl rfl)
theorem opEnrol_gains {d : BitVec 512} : FusesOnlyGain s (opEnrol q d s).1 := by
  have enrolled : FusesOnlyGain s { s with life := { s.life with operatorDigest := d } } := .of_eq rfl rfl rfl rfl
  exact guarded_gains (enrolled.trans (.beside (updSess_only (.refl _ _) (by decide))))

theorem programmed_gains (t : Nat) (s : State) : FusesOnlyGain s (programmed t s) :=
  .of_word (gs := [.life]) rfl (by decide) (by decide) ((WordGains.or _ _).or_right _)
theorem cutTransition_gains (s : State) : FusesOnlyGain s (cutTransition s) := by
  unfold cutTransition
  split
  · exact .of_word (gs := [.life, .free]) rfl (by decide) (by decide) (WordGains.or _ _)
  · exact .refl s

/-- The word that the boot ROM leaves is the one that stood, with further bits (R466, R472). -/
theorem bootWord_gains {w : BitVec 64} {done : Bool} (h : bootWord s = some (w, done)) : WordGains s.life.word w := by
  unfold bootWord at h
  dsimp only at h
  split at h
  · split at h
    · cases h
      exact (WordGains.or _ _).or_right _
    · cases h
  · cases h
    exact WordGains.or _ _

/-- The life cycle after a reset, before the boot ROM has looked at the word. -/
def lifeReset (s : State) : State := { s with life := s.life.reset }
/-- The word that the boot ROM leaves has come into force. -/
def lifeInForce (w : BitVec 64) (done : Bool) (s : State) : State := { s with life := { s.life with word := w, recovered := done, force := lcState w } }

theorem bootLife_some {w : BitVec 64} {done : Bool} (h : bootWord (lifeReset s) = some (w, done)) :
    bootLife s = (if 3 ≤ lcState w ∧ !s.lh.sealed then (sealBy s.life.flashRequest (lifeInForce w done (lifeReset s))).emit [.lhRequest s.life.flashRequest] else lifeInForce w done (lifeReset s), true) := by
  unfold lifeReset at h
  simp only [bootLife, h]
  rfl
theorem bootLife_none (h : bootWord (lifeReset s) = none) :
    bootLife s = ({ lifeReset s with life := { (lifeReset s).life with status := 0x60, force := lcState s.life.word } }, false) := by
  unfold lifeReset at h
  simp only [bootLife, h]
  rfl

theorem bootLife_gains (s : State) : FusesOnlyGain s (bootLife s).1 := by
  have reset : FusesOnlyGain s (lifeReset s) := .of_eq rfl rfl rfl rfl
  match h : bootWord (lifeReset s) with
  | some (w, done) =>
    have booted : FusesOnlyGain s (lifeInForce w done (lifeReset s)) := reset.trans ⟨bootWord_gains h, le_rfl, le_rfl, id⟩
    rw [bootLife_some h]
    dsimp only
    split
    · exact (booted.trans (sealBy_gains _ _)).emit _
    · exact booted
  | none =>
    rw [bootLife_none h]
    exact reset.trans (.of_eq rfl rfl rfl rfl)

end

/-! Debug (R474 to R477): what it changes of the life cycle is not the word. -/

section
variable {s : State} {q : Req}

theorem setDbg_gains {r : State × Status} (h : FusesOnlyGain s r.1) : FusesOnlyGain s (setDbg r).1 := h
theorem eraseChallenge_gains (s : State) : FusesOnlyGain s (eraseChallenge s) := .of_eq rfl rfl rfl rfl
theorem challengeKeyed_gains (s : State) : FusesOnlyGain s (challengeKeyed s) :=
  .beside (setModuleKey_only (State_entropy_only (.refl _ _) (by decide)) (by decide) (by decide))
theorem doChallenge_gains (s : State) : FusesOnlyGain s (doChallenge s).1 := by
  by_cases heard : dbgOpen s
  · have keyed := challengeKeyed_gains s
    rw [doChallenge_of heard]
    generalize challengeKeyed s = u at keyed ⊢
    exact keyed.trans (.of_eq rfl rfl rfl rfl)
  · rw [doChallenge, if_neg heard]
    exact .refl s
theorem opChallenge_gains : FusesOnlyGain s (opChallenge q s).1 := guarded_gains (setDbg_gains (doChallenge_gains s))

theorem revokeSessionKeys_gains (s : State) : FusesOnlyGain s (revokeSessionKeys s) := .of_eq rfl rfl rfl rfl
theorem removeStanding_gains (s : State) (p : PartId) : FusesOnlyGain s (removeStanding s p) := by
  unfold removeStanding
  split
  · refine .beside ?_
    apply startRemoval_only (.refl _ _) <;> decide
  · split <;> exact .of_eq rfl rfl rfl rfl

theorem beginDebug_gains (s : State) : FusesOnlyGain s (beginDebug s) := by
  obtain ⟨sel, begun⟩ := beginDebug_eq s
  have opening : FusesOnlyGain s { eraseChallenge s with life := { (eraseChallenge s).life with dbg := 2 } } := .of_eq rfl rfl rfl rfl
  have cleared : FusesOnlyGain s (debugCleared s) := by
    unfold debugCleared
    exact opening.trans (.foldl removeStanding_gains _ _)
  rw [begun]
  exact (cleared.trans (revokeSessionKeys_gains _)).trans (.beside (revokeFlows_only (.refl _ _) (by decide)))

theorem opDebugOpen_gains : FusesOnlyGain s (opDebugOpen q s).1 := by
  refine guarded_gains (setDbg_gains ?_)
  unfold doDebugOpen
  split
  · exact .refl s
  · split
    · exact beginDebug_gains s
    · exact eraseChallenge_gains s

end

/-! The Lighthouse (R521 to R532). -/

section
variable {s : State}

/-- The seal of the Lighthouse: how many changes it counts, and whether it is set. -/
def Lighthouse.sealOf (l : Lighthouse) : Nat × Bool := (l.sealCount, l.sealed)

@[simp] theorem writeSeal_seal {hour : Nat} {c : BitVec 512} (l : Lighthouse) : (writeSeal hour c l).sealOf = l.sealOf := rfl
@[simp] theorem makeRoom_seal (l : Lighthouse) : (makeRoom l).sealOf = l.sealOf := by
  unfold makeRoom
  split
  · rfl
  · split <;> rfl
@[simp] theorem closeMinute_seal (extra : Nat) (sign : Bool) (l : Lighthouse) : (closeMinute extra sign l).sealOf = l.sealOf := by
  have room := makeRoom_seal l
  unfold closeMinute
  dsimp only
  split
  · split
    · exact (writeSeal_seal _).trans room
    · exact room
  · exact room
@[simp] theorem closeFrame_seal (frame len flags : Nat) (l : Lighthouse) : (closeFrame frame len flags l).1.sealOf = l.sealOf := by
  have due : (if minuteDue l then closeMinute 0 true l else l).sealOf = l.sealOf := by
    split
    · exact closeMinute_seal 0 true l
    · rfl
  exact due

/-- A change of the Lighthouse that leaves its seal. -/
theorem FusesOnlyGain.of_seal {gs : List Group} {t : State} (h : OnlyTouches gs s t) (life : Group.life ∉ gs) (fw : Group.fw ∉ gs) (same : t.lh.sealOf = s.lh.sealOf) : FusesOnlyGain s t :=
  .of_eq (congrArg Life.word (h.life_eq life)) (congrArg Firmware.floor (h.fw_eq fw)) (congrArg Prod.fst same) (congrArg Prod.snd same)

/-- The groups that the Lighthouse's own work changes. -/
def lhWork : List Group := [.out, .free, .lh, .dict]

theorem strobe_gains (frame len : Nat) (adjusted : Bool) (s : State) : FusesOnlyGain s (strobe frame len adjusted s) := by
  refine .of_seal (gs := lhWork) ?_ (by decide) (by decide) ?_
  · apply strobe_only (.refl _ _) <;> decide
  · unfold strobe
    split
    · rfl
    · exact closeFrame_seal frame len 0 s.lh
theorem overdue_gains (len : Nat) (s : State) : FusesOnlyGain s (overdue len s) := by
  refine .of_seal (gs := lhWork) ?_ (by decide) (by decide) (closeFrame_seal ((s.lh.lastFrame.getD 0) + 1) len 2 s.lh)
  apply overdue_only (.refl _ _) <;> decide
theorem selfTimed_gains (s : State) : FusesOnlyGain s (selfTimed s) := by
  refine .of_seal (gs := lhWork) ?_ (by decide) (by decide) (closeFrame_seal (2 ^ 64 - 1) 1000000 1 s.lh)
  apply selfTimed_only (.refl _ _) <;> decide
theorem lhDown_gains (len : Nat) (s : State) : FusesOnlyGain s (lhDown len s) := by
  refine .of_seal (gs := lhWork) ?_ (by decide) (by decide) ((closeMinute_seal _ _ _).trans (closeFrame_seal _ _ _ s.lh))
  apply lhDown_only (.refl _ _) <;> decide

@[simp] theorem tapEntry_seal (e : Byte) (l : Lighthouse) : (tapEntry e l).sealOf = l.sealOf := by
  unfold tapEntry
  split
  · rfl
  · split <;> rfl
theorem tapWord_seal {die : Fin 4} {seq : Byte} {entries : List Byte} (l : Lighthouse) : (tapWord die seq entries l).sealOf = l.sealOf := by
  have changed (p : Prop) [Decidable p] (u : Lighthouse) : (if p then closeMinute 0 true u else u).sealOf = u.sealOf := by
    split
    · exact closeMinute_seal 0 true u
    · rfl
  exact (foldl_keeps Lighthouse.sealOf (fun u e => tapEntry_seal e u) _ _).trans (changed _ _)

theorem freshCal_gains (s : State) : FusesOnlyGain s (freshCal s) := by
  unfold freshCal
  split <;> exact .of_eq rfl rfl rfl rfl
theorem calibrate_gains (c : Calibration) (s : State) : FusesOnlyGain s (calibrate c s) := by
  refine .trans ?_ (freshCal_gains _)
  split
  · exact ⟨WordGains.refl _, le_rfl, Nat.le_succ _, id⟩
  · exact .refl s
theorem lhUp_gains (s : State) : FusesOnlyGain s (lhUp s) := by
  refine .trans ?_ (freshCal_gains _)
  have sealed := foldl_keeps Lighthouse.sealOf (f := fun l h => writeSeal h (if s.lh.everOn then s.lh.chain.getD chainInit else chainInit) l) (fun u h => writeSeal_seal u) s.lh.sealDue
    { s.lh with chain := some (if s.lh.everOn then s.lh.chain.getD chainInit else chainInit) }
  exact .of_seal (gs := [.lh]) rfl (by decide) (by decide) sealed
theorem lhSilent_gains (s : State) : FusesOnlyGain s (lhSilent s) := by
  refine .of_seal (gs := touches .lighthouseSilent) ?_ (by decide) (by decide) ?_
  · apply lhSilent_only (.refl _ _) <;> exact mem_touches rfl
  · unfold lhSilent
    dsimp only
    split <;> rfl

/-- A write at the Lighthouse sets its node ID at most, and not its seal (R535). -/
theorem lhWrite_gains (m : DictMsg) (s : State) : FusesOnlyGain s (lhWrite m s) := by
  refine .of_seal (gs := lhWork) ?_ (by decide) (by decide) ?_
  · apply lhWrite_only (.refl _ _) <;> decide
  · have answered (r : State × Reply) : (lhAnswer m r).lh = r.1.lh := by
      unfold lhAnswer
      split <;> rfl
    unfold lhWrite
    dsimp only
    split
    · rfl
    · rw [answered]
      split
      · split
        · split <;> rfl
        all_goals rfl
      · rfl

end

/-! Firmware (R594 to R599). -/

section
variable {s : State} {q : Req}

/-- A change of the firmware's state that leaves its floor. -/
theorem FusesOnlyGain.of_floor {gs : List Group} {t : State} (h : OnlyTouches gs s t) (life : Group.life ∉ gs) (lh : Group.lh ∉ gs) (same : t.fw.floor = s.fw.floor) : FusesOnlyGain s t :=
  .of_eq (congrArg Life.word (h.life_eq life)) same (congrArg Lighthouse.sealCount (h.lh_eq lh)) (congrArg Lighthouse.sealed (h.lh_eq lh))

theorem reachActive_gains (s : State) : FusesOnlyGain s (reachActive s) := by
  unfold reachActive
  split
  · refine .trans (t := { s with pow := { s.pow with mod := .active, target := none }, fw := { s.fw with floor := max s.fw.floor (runningVersion s) } })
      ⟨WordGains.refl _, le_max_left _ _, le_rfl, id⟩ (.beside ?_)
    apply carryLatched_only (.refl _ _) <;> decide
  · exact .refl s
theorem joinTick_gains (n : Announce) (s : State) : FusesOnlyGain s (joinTick n s) :=
  (reachActive_gains _).after ((FusesOnlyGain.beside (hearAnnounce_only (.refl _ _) (by decide) (by decide) (by decide))).after (.of_eq rfl rfl rfl rfl))
theorem announceIn_gains (n : Announce) (s : State) : FusesOnlyGain s (announceIn n s) := by
  have heard := hearAnnounce_only (a0 := n) (.refl sparingFuses s) (by decide) (by decide) (by decide)
  have forwarded := forwardAnnounce_only (a0 := n) (.refl sparingFuses s) (by decide) (by decide) (by decide)
  unfold announceIn
  split
  · exact joinTick_gains n s
  · split
    · split
      · exact .beside heard
      · exact .beside forwarded
    · split
      · refine .beside ?_
        apply adoptMaster_only (.refl _ _) <;> decide
      · exact .beside forwarded
theorem selfMaster_gains (s : State) : FusesOnlyGain s (selfMaster s) := by
  unfold selfMaster
  split
  · exact (reachActive_gains _).after ((FusesOnlyGain.beside (becomeMaster_only (.refl _ _) (by decide))).after (.of_eq rfl rfl rfl rfl))
  · exact (reachActive_gains _).after (.of_eq rfl rfl rfl rfl)

theorem fetchOn_gains (k : Option StraitId) (s : State) : FusesOnlyGain s (fetchOn k s) := by
  refine .of_floor (gs := [.out, .free, .fab, .dict, .fw]) (by apply fetchOn_only (.refl _ _) <;> decide) (by decide) (by decide) ?_
  have asked (f : FetchRun) (u : State) : (askImage f u).fw = u.fw := (askImage_only (.refl [.out, .dict] u) (by decide) (by decide)).fw_eq (by decide)
  have trained (k : StraitId) (u : State) : (beginTraining k u).fw = u.fw := (beginTraining_only (.refl [.fab] u) (by decide)).fw_eq (by decide)
  unfold fetchOn
  dsimp only
  split
  · split
    · rw [asked]
      rfl
    · rw [trained]
      rfl
  · rw [asked]
    rfl
theorem startFetch_gains (s : State) : FusesOnlyGain s (startFetch s) := fetchOn_gains _ s
theorem restartFetch_gains (s : State) : FusesOnlyGain s (restartFetch s) := by
  unfold restartFetch
  split
  · exact (FusesOnlyGain.beside (startDomain_only (.refl _ _) (by decide))).after (.of_eq rfl rfl rfl rfl)
  · exact startFetch_gains s
theorem takeOffer_gains (k : Option StraitId) (id : BitVec 64) (seg : Nat) (ct : Bytes) (total : Nat) (s : State) : FusesOnlyGain s (takeOffer k id seg ct total s) := by
  unfold takeOffer
  (repeat' split) <;> exact .of_eq rfl rfl rfl rfl

theorem startFromStandby_gains (s : State) : FusesOnlyGain s (startFromStandby s) := .beside (by apply startFromStandby_only (.refl _ _) <;> decide)
theorem hubReady_gains (s : State) : FusesOnlyGain s (hubReady s) := by
  unfold hubReady
  split
  · exact .beside (startDies_only (startStraits_only (.refl _ _) (by decide)) (by decide))
  · exact startFetch_gains s
theorem runImage_gains (b : Bytes) (s : State) : FusesOnlyGain s (runImage b s) := by
  have taken : FusesOnlyGain s { s with fw := { s.fw with flash := Config.imageEncrypt flashKey b, running := some b, recovered := true, fetch := none } } := .of_eq rfl rfl rfl rfl
  refine taken.trans ?_
  unfold runImage
  dsimp only
  split
  · split
    · exact .beside (startDies_only (startStraits_only (.refl _ _) (by decide)) (by decide))
    · exact startFromStandby_gains _
    · exact .refl _
  · split
    · exact .of_eq rfl rfl rfl rfl
    · refine .beside ?_
      apply beginStandby_only (.refl _ _) <;> decide
theorem imageCome_gains (f : FetchRun) (s : State) : FusesOnlyGain s (imageCome f s) := by
  unfold imageCome
  dsimp only
  split
  · exact runImage_gains _ s
  · split
    · exact fetchOn_gains _ s
    · exact .of_eq rfl rfl rfl rfl
theorem takeImage_gains (id : BitVec 64) (off : Nat) (ct tag : Bytes) (s : State) : FusesOnlyGain s (takeImage id off ct tag s) := by
  unfold takeImage
  split
  · next f _ =>
    have kept (g : FetchRun) : FusesOnlyGain s { s with fw := { s.fw with fetch := some g } } := .of_eq rfl rfl rfl rfl
    split
    · split
      · exact .refl s
      · split
        · exact .refl s
        · dsimp only
          split
          · split
            · exact (kept _).trans (imageCome_gains _ _)
            · exact kept _
          · split
            · exact .beside (State_emitOver_only (.refl _ _) (by decide) (by decide))
            · exact .refl s
    · exact .refl s
  · exact .refl s
theorem serveRequest_gains (k : Option StraitId) (id : BitVec 64) (seg : Nat) (key : Bytes) (s : State) : FusesOnlyGain s (serveRequest k id seg key s) := by
  have sent (o : List Output) (u : State) : FusesOnlyGain u (State.emitOver k o u) := .beside (State_emitOver_only (.refl _ _) (by decide) (by decide))
  unfold serveRequest
  extract_lets busy
  split
  · exact sent _ s
  · split
    · exact .of_eq rfl rfl rfl rfl
    · split
      · split
        · exact .refl s
        · exact (sent _ _).after (.of_eq rfl rfl rfl rfl)
      · exact .refl s

theorem commitDone_gains (b : Bytes) (s : State) : FusesOnlyGain s (commitDone b s) := by
  unfold commitDone
  split <;> exact .of_eq rfl rfl rfl rfl
theorem cutCommit_gains (s : State) : FusesOnlyGain s (cutCommit s) := by
  unfold cutCommit
  split
  · split <;> exact .of_eq rfl rfl rfl rfl
  · exact .refl s
theorem opFwBegin_gains : FusesOnlyGain s (opFwBegin q s).1 := guarded_gains (.of_eq rfl rfl rfl rfl)
theorem opFwChunk_gains {b : Bytes} : FusesOnlyGain s (opFwChunk q b s).1 := guarded_gains (.of_eq rfl rfl rfl rfl)
theorem opFwCommit_gains : FusesOnlyGain s (opFwCommit q s).1 := guarded_gains (.of_eq rfl rfl rfl rfl)

end

/-! Power (R572 to R592). -/

section
variable {s : State}

theorem resetAll_gains (s : State) : FusesOnlyGain s (resetAll s) := by
  have cut := (cutTransition_gains s).trans (cutCommit_gains _)
  have lost : FusesOnlyGain (cutCommit (cutTransition s)) (loseTenants (leaveTick (cutCommit (cutTransition s)))) := by
    refine .beside ?_
    apply loseTenants_only (leaveTick_only (.refl _ _) (by decide) (by decide)) <;> decide
  unfold resetAll
  dsimp only
  generalize loseTenants (leaveTick (cutCommit (cutTransition s))) = u at lost ⊢
  exact (cut.trans lost).trans (.of_eq rfl rfl rfl rfl)
theorem bootImage_gains (s : State) : FusesOnlyGain s (bootImage s) := by
  unfold bootImage
  dsimp only
  split
  · split
    · exact (startFromStandby_gains _).after (.of_eq rfl rfl rfl rfl)
    · exact .of_eq rfl rfl rfl rfl
  · split
    · exact (startFromStandby_gains _).after (.of_eq rfl rfl rfl rfl)
    · exact (fetchOn_gains _ _).after (.of_eq rfl rfl rfl rfl)
/-- The management domain as boot step 1 leaves it. -/
def bootEntered (cause wakeCode : BitVec 8) (s : State) : State :=
  { resetAll s with pow := { (resetAll s).pow with mgmtUp := true, mod := .booting, boots := (resetAll s).pow.boots + 1, cause := cause, nextCause := none, lastWake := wakeCode } }
/-- How a boot goes on from step 2. -/
def bootOn : State × Bool → State
  | (s, false) => { s with pow := { s.pow with mod := .recovery } }
  | (s, true) => if s.life.force = 5 then { s with pow := { s.pow with mod := .standby, scrapped := true } } else bootImage (ladderKeys s)
theorem boot_eq (cause wakeCode : BitVec 8) (s : State) : boot cause wakeCode s = bootOn (bootLife (bootEntered cause wakeCode s)) := rfl
theorem bootEntered_gains (cause wakeCode : BitVec 8) (s : State) : FusesOnlyGain s (bootEntered cause wakeCode s) := resetAll_gains s
theorem bootOn_gains (r : State × Bool) : FusesOnlyGain r.1 (bootOn r) := by
  unfold bootOn
  split
  · exact .of_eq rfl rfl rfl rfl
  · split
    · exact .of_eq rfl rfl rfl rfl
    · exact .trans (.beside (ladderKeys_only (.refl _ _) (by decide) (by decide))) (bootImage_gains _)
theorem boot_gains (cause wakeCode : BitVec 8) (s : State) : FusesOnlyGain s (boot cause wakeCode s) := by
  rw [boot_eq]
  exact ((bootEntered_gains cause wakeCode s).trans (bootLife_gains _)).trans (bootOn_gains _)
theorem powerOff_gains (s : State) : FusesOnlyGain s (powerOff s) := resetAll_gains s
theorem holdReset_gains (s : State) : FusesOnlyGain s (holdReset s) := resetAll_gains s
theorem turnOn_gains (railsOk : Bool) (s : State) : FusesOnlyGain s (turnOn railsOk s) := by
  unfold turnOn
  dsimp only
  split
  · exact (boot_gains _ _ _).after (.of_eq rfl rfl rfl rfl)
  · exact .of_eq rfl rfl rfl rfl
theorem releaseReset_gains (s : State) : FusesOnlyGain s (releaseReset s) := by
  unfold releaseReset
  dsimp only
  split
  · exact (boot_gains _ _ _).after (.of_eq rfl rfl rfl rfl)
  · exact .of_eq rfl rfl rfl rfl

theorem trip_gains (s : State) : FusesOnlyGain s (trip s) := by
  have lost : FusesOnlyGain s (loseTenants (leaveTick s)) := by
    refine .beside ?_
    apply loseTenants_only (leaveTick_only (.refl _ _) (by decide) (by decide)) <;> decide
  have cut := lost.trans (cutCommit_gains _)
  unfold trip
  dsimp only
  generalize cutCommit (loseTenants (leaveTick s)) = u at cut ⊢
  exact FusesOnlyGain.after (.beside (thermalCause_only (.refl _ _) (by decide) (by decide))) (.after (.of_eq rfl rfl rfl rfl) cut)

theorem domainUp_gains (d : DieId) (s : State) : FusesOnlyGain s (domainUp d s) := by
  unfold domainUp
  dsimp only
  split
  · exact (hubReady_gains _).after (.of_eq rfl rfl rfl rfl)
  · refine FusesOnlyGain.after (.beside ?_) (.of_eq rfl rfl rfl rfl)
    apply settle_only (.refl _ _) <;> decide
theorem readyStep_gains (d : DieId) (trained : List Nat) (retry : Bool) (s : State) (r : Ready) : FusesOnlyGain s (readyStep d trained retry s r) := by
  have trainedOn (l : List Nat) : FusesOnlyGain s (trainOn d l retry s) := .beside (trainOn_only (.refl _ _) (by decide))
  cases r with
  | railGood => exact .of_eq rfl rfl rfl rfl
  | pllLock => exact .of_eq rfl rfl rfl rfl
  | repairDone =>
    change FusesOnlyGain s (if d = 4 then setStep d 5 trained retry s else trainOn d trained retry s)
    split
    · exact .of_eq rfl rfl rfl rfl
    · exact trainedOn _
  | trainDone => exact trainedOn _
  | logicReady => exact domainUp_gains d s
theorem failHub_gains (s : State) : FusesOnlyGain s (failHub s) := by
  have audited : FusesOnlyGain s (auditRepair { s with pow := { s.pow with domains := s.pow.domains.set 4 .failed } }) := by
    refine FusesOnlyGain.after (.beside ?_) (.of_eq rfl rfl rfl rfl)
    apply auditRepair_only (.refl _ _) <;> decide
  refine audited.trans ?_
  unfold failHub
  dsimp only
  split
  · exact .of_eq rfl rfl rfl rfl
  · exact fetchOn_gains _ _
theorem timeout_gains (d : DieId) (trained : List Nat) (retry : Bool) (s : State) (r : Ready) : FusesOnlyGain s (timeout d trained retry s r) := by
  unfold timeout
  split
  · refine .trans (.beside ?_) (.beside (trainOn_only (.refl _ _) (by decide)))
    apply failStack_only (.refl _ _) <;> decide
  · split
    · exact .of_eq rfl rfl rfl rfl
    · split
      · exact failHub_gains s
      · have failed : OnlyTouches sparingFuses s (failDie d s) := by
          apply failDie_only (.refl _ _) <;> decide
        refine .beside ?_
        apply settle_only failed <;> decide

end

/-! Removals and the tick. -/

section
variable {s : State}

theorem openDebug_gains (s : State) : FusesOnlyGain s (openDebug s) := by
  unfold openDebug
  split <;> exact .of_eq rfl rfl rfl rfl
theorem openDebug_word (s : State) : (openDebug s).life.word = s.life.word := by
  unfold openDebug
  split <;> rfl
theorem finishRemoval_gains (p : PartId) (done : Nat) (s : State) : FusesOnlyGain s (finishRemoval p done s) := by
  refine .of_word (gs := [.out, .free, .parts, .rings, .mem, .fab, .keys, .life, .ras, .dict]) (by apply finishRemoval_only (.refl _ _) <;> decide) (by decide) (by decide) ?_
  have freed (u : State) : (freePages p u).life = u.life := by
    refine OnlyTouches.life_eq (gs := sparingFuses) ?_ (by decide)
    apply freePages_only (.refl _ _) <;> decide
  have word : (finishRemoval p done s).life.word = s.life.word := by
    unfold finishRemoval
    split
    · rfl
    · dsimp only
      rw [openDebug_word, freed]
  exact fun _ set => word ▸ set
theorem finishRemovals_gains (done : Nat) (s : State) : FusesOnlyGain s (finishRemovals done s) := by
  refine .foldl (fun u p => ?_) _ s
  split
  · exact finishRemoval_gains p done u
  · exact .refl u
theorem step4_gains (s : State) : FusesOnlyGain s (step4 s) := by
  have dropped (u : State) : FusesOnlyGain u (dropLost u) := .beside (dropLost_only (.refl _ _) (by decide) (by decide))
  have quotas (u : State) : FusesOnlyGain u (allParts.foldl (fun s p => applyQuota p s) u) :=
    .foldl (fun u p => .beside (by apply applyQuota_only (.refl _ _) <;> decide)) _ u
  have created (u : State) : FusesOnlyGain u (allParts.foldl (fun s p => if s.parts[p].createPending then becomeCreated p s else s) u) := by
    refine .foldl (fun u p => ?_) _ u
    split
    · exact .beside (by apply becomeCreated_only (.refl _ _) <;> decide)
    · exact .refl u
  have worked (u : State) : FusesOnlyGain u (stepSessions (stepMemory u)) := by
    have memory : OnlyTouches sparingFuses u (stepMemory u) := by apply stepMemory_only (.refl _ _) <;> decide
    exact .beside (by apply stepSessions_only memory <;> decide)
  unfold step4
  exact (openDebug_gains _).after ((worked _).after ((created _).after ((quotas _).after ((dropped _).after (finishRemovals_gains _ s)))))

/-- The tick closes the Lighthouse's frame record and may complete a removal; the rest of it is beside the fuses. -/
theorem frameTick_gains (t : TickIn) (s : State) : FusesOnlyGain s (frameTick t s) := by
  have settled (u : State) : FusesOnlyGain u (settleAdmission u) := .beside (by apply settleAdmission_only (.refl _ _) <;> decide)
  have ended (u : State) : FusesOnlyGain u (latchAll (addEnergy t (closeAll (endAll t u).2 (endAll t u).1))) := by
    have ends : OnlyTouches sparingFuses u (endAll t u).1 := by apply endAll_only (.refl _ _) <;> decide
    have closed : OnlyTouches sparingFuses u (closeAll (endAll t u).2 (endAll t u).1) := by apply closeAll_only ends <;> decide
    exact .beside (by apply latchAll_only (addEnergy_only closed (by decide) (by decide)) <;> decide)
  have announced (u : State) : FusesOnlyGain u (sendAnnounce (reachSuccessors t (advanceFrame u))) :=
    .beside (sendAnnounce_only (reachSuccessors_only (advanceFrame_only (.refl _ _) (by decide)) (by decide)) (by decide) (by decide))
  have gathered (u : State) : FusesOnlyGain u (if u.pow.mod = .active then u.putWrites (tickGather u.vm) else u) := by
    split
    · exact .beside (by apply State_putWrites_only (.refl _ _) <;> decide)
    · exact .refl u
  have budgeted (period : Nat) (u : State) : FusesOnlyGain u (settle (windowEnd (step7 (step6 period t (testSwaps u))))) := by
    have budget : OnlyTouches sparingFuses u (step6 period t (testSwaps u)) := by apply step6_only (testSwaps_only (.refl _ _) (by decide)) <;> decide
    have admitted : OnlyTouches sparingFuses u (step7 (step6 period t (testSwaps u))) := by apply step7_only budget <;> decide
    have window : OnlyTouches sparingFuses u (windowEnd (step7 (step6 period t (testSwaps u)))) := by apply windowEnd_only admitted <;> decide
    exact .beside (by apply settle_only window <;> decide)
  unfold frameTick
  exact (budgeted _ _).after ((step4_gains _).after ((gathered _).after ((announced _).after ((strobe_gains _ _ _ _).after ((ended _).after (settled s))))))

end

/-! Writes of objects (R6, R544). -/

section
variable {s : State} {q : Req}

theorem when_gains {b : Bool} {t : State} (h : FusesOnlyGain s t) : FusesOnlyGain s (when b s t).1 := by
  unfold when
  split
  · exact h
  · exact .refl s

theorem opModuleValue_gains (index sub n : Nat) (b : Bytes) : FusesOnlyGain s (opModuleValue q index sub n b s).1 := by
  unfold opModuleValue
  split
  · exact .beside (opDescQuery_only (.refl _ _) (by decide))
  · split
    · exact .beside (by apply opStateStandby_only (.refl _ _) <;> decide)
    · split
      · exact .beside (by apply opStateDoze_only (.refl _ _) <;> decide)
      · exact .beside (by apply opStateActive_only (.refl _ _) <;> decide)
  · exact .beside (opAlertAck_only (.refl _ _) (by decide))
  · exact when_gains (.of_eq rfl rfl rfl rfl)
  · exact opFwChunk_gains
  · split
    · exact opFwBegin_gains
    · exact opFwCommit_gains
  · exact .beside (opFramePeriod_only (.refl _ _) (by decide))
  all_goals exact .of_eq rfl rfl rfl rfl

theorem opSystemValue_gains (index sub n : Nat) (b : Bytes) : FusesOnlyGain s (opSystemValue q index sub n b s).1 := by
  unfold opSystemValue
  split
  · split
    · exact .beside (opCarveout_only (.refl _ _) (by decide))
    · exact .refl s
  · exact .beside (by apply opKeyImport_only (.refl _ _) <;> decide)
  · exact .beside (opSlotQuery_only (.refl _ _) (by decide))
  · exact .of_eq rfl rfl rfl rfl
  · split
    · exact .beside (opSign_only (.refl _ _) (by decide))
    · exact .beside (opLoadCert_only (.refl _ _) (by decide))
  · exact .of_eq rfl rfl rfl rfl
  · exact .of_eq rfl rfl rfl rfl
  · exact .of_eq rfl rfl rfl rfl
  · split <;> exact .of_eq rfl rfl rfl rfl
  · exact .beside (opUnitQuery_only (.refl _ _) (by decide))
  · exact .beside (opHistQuery_only (.refl _ _) (by decide))
  · exact .beside (opAuditQuery_only (.refl _ _) (by decide))
  · exact when_gains (.of_eq rfl rfl rfl rfl)
  · exact .beside (opLibChunk_only (.refl _ _) (by decide))
  · split
    · exact .beside (opLibBegin_only (.refl _ _) (by decide))
    · exact .beside (opLibCommit_only (.refl _ _) (by decide))
  · split
    · exact opNewNonce_gains
    · exact opTransition_gains
  · exact opLcRequest_gains
  · split
    · exact opChallenge_gains
    · exact opDebugOpen_gains
  · exact opDbgResponse_gains
  · exact opCertWrite_gains
  · exact opEnrol_gains
  · exact .beside (opLhQuery_only (.refl _ _) (by decide))
  · exact .beside (opLhQuery_only (.refl _ _) (by decide))
  · exact .beside (opLhQuery_only (.refl _ _) (by decide))
  · exact .beside (opLhQuery_only (.refl _ _) (by decide))
  · exact .beside (opLhQuery_only (.refl _ _) (by decide))
  · split <;> exact .refl s

theorem applyWrite_gains (index sub : Nat) (b : Bytes) : FusesOnlyGain s (applyWrite q index sub b s).1 := by
  unfold applyWrite
  dsimp only
  split
  · split
    · exact .beside (by apply opPartValue_only (.refl _ _) <;> decide)
    · split
      · exact .refl s
      · split
        · split
          · exact .beside (opRingEnable_only (.refl _ _) (by decide))
          · exact .beside (opRingValue_only (.refl _ _) (by decide))
        · exact .beside (by apply opMemValue_only (.refl _ _) <;> decide)
  · split
    · exact .beside (opStraitValue_only (.refl _ _) (by decide))
    · exact .beside (by apply opSessionObject_only (.refl _ _) <;> decide)
    · split
      · exact opModuleValue_gains ..
      · split
        · exact .beside (by apply opFabricValue_only (.refl _ _) <;> decide)
        · exact opSystemValue_gains ..

theorem writeObject_gains (index sub : Nat) (b : Bytes) : FusesOnlyGain s (writeObject q index sub b s).1 := by
  have written := applyWrite_gains (s := s) (q := q) index sub b
  unfold writeObject
  generalize (writable s q index sub && _ : Bool) = may
  split
  · exact flashed_gains written
  · exact .refl s

end

/-! Messages (R554 to R565): the message itself counts and answers, and its work does the rest. -/

section
variable {s : State} {m : DictMsg}

theorem respond_gains (st : Status) (more : Bool) (data : Bytes) (s : State) : FusesOnlyGain s (respond m st more data s) := .beside (respond_only (.refl _ _) (by decide) (by decide))
theorem respondSeq_gains (st : Status) (more : Bool) (data : Bytes) (s : State) : FusesOnlyGain s (respondSeq m st more data s) := .beside (respondSeq_only (.refl _ _) (by decide) (by decide))
theorem respondClear_gains (st : Status) (more : Bool) (data : Bytes) (s : State) : FusesOnlyGain s (respondClear m st more data s) :=
  .beside (respondClear_only (.refl _ _) (by decide) (by decide))

section
variable {f : State → State × Reply} (hf : ∀ u, FusesOnlyGain u (f u).1)
include hf

theorem runMsg_gains (s : State) : FusesOnlyGain s (runMsg m f s) := by
  unfold runMsg
  dsimp only
  have run := (hf { s with dict := { s.dict with counters := bump s.dict.counters 2 1 } }).after (.of_eq (s := s) rfl rfl rfl rfl)
  split
  · exact run.trans (respond_gains _ _ _ _)
  · exact run
theorem inSession_gains (x : DSess) (s : State) : FusesOnlyGain s (inSession m x f s) := by
  unfold inSession
  split
  · exact respondClear_gains _ _ _ _
  · split
    · exact .of_eq rfl rfl rfl rfl
    · dsimp only
      split
      · exact (respondSeq_gains _ _ _ _).after (.of_eq rfl rfl rfl rfl)
      · exact (runMsg_gains hf _).after (.of_eq rfl rfl rfl rfl)
theorem message_gains (op : Nat) (s : State) : FusesOnlyGain s (message op m f s) := by
  have framed : FusesOnlyGain s (sbFrame m 1 1 s) := .beside (sbFrame_only (.refl _ _) (by decide))
  unfold message
  dsimp only
  split
  · exact framed
  · split
    · exact framed.trans (.of_eq rfl rfl rfl rfl)
    · split
      · exact framed.trans (runMsg_gains hf _)
      · split
        · exact framed.trans (respondClear_gains _ _ _ _)
        · exact framed.trans (inSession_gains hf _ _)

end

theorem doWrite_gains (m : DictMsg) (s : State) : FusesOnlyGain s (doWrite m s).1 := by
  have taken (key limit : Nat) : FusesOnlyGain s (takeSegment (reqOf m) key limit m s).1 := .beside (takeSegment_only (.refl _ _) (by decide))
  unfold doWrite
  split
  · exact .refl s
  · have segment := taken (objectNo m) (lengthLimit s m.index.toNat m.sub.toNat)
    split <;> rename_i e <;> rw [e] at segment
    · exact segment
    · exact segment
    · exact segment.trans (writeObject_gains ..)
theorem doRead_gains (m : DictMsg) (s : State) : FusesOnlyGain s (doRead m s).1 := .beside (doRead_only (.refl _ _) (by decide))
theorem doReadBlock_gains (m : DictMsg) (s : State) : FusesOnlyGain s (doReadBlock m s).1 := .beside (doReadBlock_only (.refl _ _) (by decide))
theorem doOpen1_gains (m : DictMsg) (s : State) : FusesOnlyGain s (doOpen1 m s).1 := .beside (doOpen1_only (.refl _ _) (by decide) (by decide) (by decide))
theorem doOpen3_gains (m : DictMsg) (s : State) : FusesOnlyGain s (doOpen3 m s).1 := .beside (doOpen3_only (.refl _ _) (by decide) (by decide) (by decide))

theorem dictMessage_gains (op : Nat) (m : DictMsg) (s : State) : FusesOnlyGain s (dictMessage op m s) := by
  unfold dictMessage
  split
  · exact message_gains (doRead_gains m) ..
  · exact message_gains (doWrite_gains m) ..
  · exact message_gains (doReadBlock_gains m) ..
  · exact message_gains (doOpen1_gains _) ..
  · exact message_gains (doOpen3_gains m) ..
  · exact .beside (closeMsg_only (.refl _ _) (by decide) (by decide) (by decide))
  · exact .of_eq rfl rfl rfl rfl
theorem mailGo_gains (k : StraitId) (slot : Fin 16) (op : Nat) (m : DictMsg) (back : Option Bytes) (s : State) : FusesOnlyGain s (mailGo k slot op m back s) := by
  unfold mailGo
  dsimp only
  split
  · split
    · exact dictMessage_gains ..
    · exact (dictMessage_gains ..).emit _
  · exact .beside (mailAway_only (.refl _ _) (by decide) (by decide))

end

/-! The commands. -/

/-- The fuses of the state that an outcome holds, if it holds one, have only gained. -/
def GainsAfter (s : State) (o : Res) : Prop := ∀ t, o = .next t → FusesOnlyGain s t

section
variable {s t : State}

theorem next_gains (h : FusesOnlyGain s t) : GainsAfter s (.next t) := fun _ e => by cases e; exact h
theorem fault_gains {f : Fault} : GainsAfter s (.fault f) := fun _ e => by cases e
theorem need_gains {b : Bool} (h : FusesOnlyGain s t) : GainsAfter s (need b t) := fun _ e => (need_next.mp e).2 ▸ h
theorem heard_gains {b : Bool} (h : FusesOnlyGain s t) : GainsAfter s (heard b s t) := next_gains (by
  split
  · exact h
  · exact .refl s)
theorem answered_gains {q : Req} {r : State × Status} (h : FusesOnlyGain s r.1) : GainsAfter s (software s (answer q r)) := heard_gains (answer_gains h)
/-- A command that touches none of the groups that hold fuses. -/
theorem spared_gains {i : Instr} (spared : ∀ g ∈ [Group.life, .fw, .lh], g ∉ touches i) : GainsAfter s (exec i s) := fun _ e => by
  have only := everyCommandTouchesOnlyItsGroups i s _ e
  exact .spared only (spared _ (by decide)) (spared _ (by decide)) (spared _ (by decide))

theorem execTransitionProgrammed_gains : GainsAfter s (execTransitionProgrammed s) := by
  unfold execTransitionProgrammed
  split
  · exact need_gains (programmed_gains _ s)
  · exact fault_gains
theorem execWrite_gains (m : DictMsg) : GainsAfter s (execWrite m s) := by
  unfold execWrite
  split
  · exact next_gains (lhWrite_gains m s)
  · exact heard_gains (message_gains (doWrite_gains m) ..)
theorem execMailboxGo_gains (k : StraitId) (slot : Fin 16) (op : Byte) (m : MailRequest) : GainsAfter s (execMailboxGo k slot op m s) := by
  unfold execMailboxGo
  split
  · exact need_gains (mailGo_gains ..)
  · exact need_gains ((FusesOnlyGain.refl s).emit _)
theorem execModResetNAssert_gains : GainsAfter s (execModResetNAssert s) := by
  unfold execModResetNAssert
  split
  · exact need_gains (holdReset_gains s)
  · exact need_gains (.of_eq rfl rfl rfl rfl)
theorem execDomainReady_gains (d : DieId) (r : Ready) : GainsAfter s (execDomainReady d r s) := by
  unfold execDomainReady
  split
  · exact need_gains (readyStep_gains ..)
  · exact fault_gains
theorem execDomainReadyTimeout_gains (d : DieId) (r : Ready) : GainsAfter s (execDomainReadyTimeout d r s) := by
  unfold execDomainReadyTimeout
  split
  · exact need_gains (timeout_gains ..)
  · exact fault_gains
theorem hear_gains (k : Option StraitId) (s : State) : FusesOnlyGain s (s.hear k) := .beside (State_hear_only (.refl _ _) (by decide))
theorem execRecoveryRequest_gains (k : Option StraitId) (id : BitVec 64) (seg : Nat) (key : Bytes) : GainsAfter s (execRecoveryRequest k id seg key s) := by
  refine heard_gains ?_
  split
  · exact (hear_gains k s).trans (serveRequest_gains ..)
  · exact hear_gains k s
theorem execRecoveryData_gains (id : BitVec 64) (off : Nat) (ct tag : Bytes) : GainsAfter s (execRecoveryData id off ct tag s) := by
  have listened : FusesOnlyGain s (match s.fw.fetch with | some f => s.hear f.strait | none => s) := by
    split
    · exact hear_gains _ s
    · exact .refl s
  refine heard_gains ?_
  split
  · exact listened.trans (takeImage_gains ..)
  · exact listened
theorem execRecoveryStraitTimeout_gains : GainsAfter s (execRecoveryStraitTimeout s) := by
  unfold execRecoveryStraitTimeout
  split
  · exact need_gains (fetchOn_gains ..)
  · exact fault_gains
theorem execFwCommitComplete_gains : GainsAfter s (execFwCommitComplete s) := by
  unfold execFwCommitComplete
  split
  · exact need_gains (commitDone_gains ..)
  · exact fault_gains

/-- Every command only gains: those that touch no fuse by their frame, the others by what they do. -/
theorem exec_gains (i : Instr) : GainsAfter s (exec i s) := by
  cases i with
  | frameTick => exact need_gains (frameTick_gains ..)
  | tickAnnounce => exact need_gains (announceIn_gains ..)
  | tickSelfMaster => exact need_gains (selfMaster_gains s)
  | mailboxGo => exact execMailboxGo_gains _ _ _ _
  | removalComplete => exact need_gains (finishRemoval_gains ..)
  | newNonce => exact answered_gains opNewNonce_gains
  | transition => exact answered_gains opTransition_gains
  | transitionProgrammed => exact execTransitionProgrammed_gains
  | lhSealRequest => exact need_gains (sealBy_gains ..)
  | certWrite => exact answered_gains opCertWrite_gains
  | operatorKeyEnrol => exact answered_gains opEnrol_gains
  | challenge => exact answered_gains opChallenge_gains
  | debugOpen => exact answered_gains opDebugOpen_gains
  | adcSample => exact need_gains (.of_eq rfl rfl rfl rfl)
  | occupancyWord => exact need_gains (.of_seal (gs := [.lh]) rfl (by decide) (by decide) (tapWord_seal s.lh))
  | strobeOverdue => exact need_gains (overdue_gains ..)
  | selfTimedClose => exact need_gains (selfTimed_gains s)
  | minuteClose => exact need_gains (.of_seal (gs := [.lh]) rfl (by decide) (by decide) (closeMinute_seal 0 true s.lh))
  | lhPowerLoss => exact need_gains (lhDown_gains ..)
  | lhPowerOn => exact need_gains (lhUp_gains s)
  | calibrationChange => exact need_gains (calibrate_gains ..)
  | lighthouseSilent => exact need_gains (lhSilent_gains s)
  | write => exact execWrite_gains _
  | inputTurnOn => exact need_gains (turnOn_gains ..)
  | inputTurnOff => exact need_gains (powerOff_gains s)
  | overVoltage => exact need_gains (powerOff_gains s)
  | modResetNAssert => exact execModResetNAssert_gains
  | watchdogExpire => exact need_gains (boot_gains ..)
  | thermalTrip => exact need_gains (trip_gains s)
  | domainReady => exact execDomainReady_gains _ _
  | domainReadyTimeout => exact execDomainReadyTimeout_gains _ _
  | recoveryRequest => exact execRecoveryRequest_gains _ _ _ _
  | recoveryOffer => exact heard_gains ((hear_gains _ s).trans (takeOffer_gains ..))
  | recoveryData => exact execRecoveryData_gains _ _ _ _
  | recoveryStraitTimeout => exact execRecoveryStraitTimeout_gains
  | recoveryRestart => exact need_gains (restartFetch_gains s)
  | fwBegin => exact answered_gains opFwBegin_gains
  | fwCommit => exact answered_gains opFwCommit_gains
  | fwChunk => exact answered_gains opFwChunk_gains
  | registerWrite => exact answered_gains (writeObject_gains ..)
  | modResetNRelease => exact need_gains (releaseReset_gains s)
  | fwCommitComplete => exact execFwCommitComplete_gains
  | _ => exact spared_gains (by simp only [touches]; decide)

end

/-- Settles O4: a step is the command at the front of the queue, and every command only gains. -/
theorem fusesOnlyGainOverEveryStep : Obligations.FusesOnlyGainOverEveryStep := by
  intro s t e
  unfold step at e
  split at e
  · cases e
    exact .refl s
  · next c rest _ =>
    have front : FusesOnlyGain s { s with pending := rest } := .of_eq rfl rfl rfl rfl
    exact front.trans (exec_gains c t e)

end Sys2Proof.Machine
end

section
/-! Settles O1. -/

namespace Sys2Proof.Machine

/-- Settles O1: the queue's front is taken, and its rest is the queue that the command runs with. -/
theorem stepRunsTheFrontCommand : Obligations.StepRunsTheFrontCommand := fun _ _ => rfl

end Sys2Proof.Machine
end

section
/-!
Settles O17: the checks of a product pass. `checkOn` gives both answers of R488 at once; the entry takes the one and the partition counts both.
-/

namespace Sys2Proof.Machine

section
variable {s : State} {a : ArrayId} {e : Nat} {x : EntryRun} {d : PassDesc}

theorem Part.count_live_self {i : Nat} (h : i < 32) (k : Nat) (x : Part) : (x.count i k).live[i] = x.live[i] + BitVec.ofNat 64 k := by simp [Part.count, bump, h]
theorem Part.count_live_other {i j : Nat} (h : j < 32) (other : i ≠ j) (k : Nat) (x : Part) : (x.count i k).live[j] = x.live[j] := by
  unfold Part.count bump
  split
  · next inside => exact Vector.getElem_set_ne inside h other
  · rfl

/-- R488: class 0 is checked where the pass asks for it; class 1 unless the pass asks for none and no policy forces it; class 2 and above always. -/
theorem checkOn_fst (cls policy check : Nat) :
    (checkOn cls policy check).1 = if cls = 0 then decide (check = 1) else if cls = 1 then (if check = 2 then decide (policy ≠ 0) else true) else true := by
  match cls with
  | 0 => rfl
  | 1 => by_cases none : check = 2 <;> simp [checkOn, none]
  | n + 2 => simp [checkOn]

/-- A pass that asks for no check is refused where it is checked all the same, outside class 0. -/
theorem checkOn_snd (cls policy check : Nat) : (checkOn cls policy check).2 = decide (check = 2 ∧ (cls = 1 ∧ policy ≠ 0 ∨ 2 ≤ cls)) := by
  match cls with
  | 0 => simp [checkOn]
  | 1 => by_cases none : check = 2 <;> simp [checkOn, none]
  | n + 2 => simp [checkOn]

/-- The partition's counts of a pass that has started: 0x0F of those checked, 0x12 of those refused. -/
theorem passBegun_counts (x : EntryRun) (product : d.type = .product) (full : d.empty = false) :
    let on := checkOn s.parts[partHere s a].cls.toNat s.ras.policy[partHere s a].toNat d.check
    (passBegun a e x d s).parts[partHere s a] = (s.parts[partHere s a].count 0x0F (if on.1 then 1 else 0)).count 0x12 (if on.2 then 1 else 0) := by
  unfold passBegun
  dsimp only
  rw [if_pos product, updEntry_parts, updArray_parts, updPart_at, full, Bool.not_false, Bool.and_true]

theorem entryAt_passBegun_checked (product : d.type = .product) (full : d.empty = false) (hx : entryAt s a e = some x) :
    ∃ y, entryAt (passBegun a e x d s) a e = some y ∧ y.checked = (checkOn s.parts[partHere s a].cls.toNat s.ras.policy[partHere s a].toNat d.check).1 := by
  unfold passBegun
  rw [entryAt_updEntry_self, entryAt_updArray rfl, entryAt, entriesOf_updPart, ← entryAt, hx]
  exact ⟨_, rfl, by rw [if_pos product, full, Bool.not_false, Bool.and_true]⟩

end

/-- Settles O17: the pass starts as `execPassStart_of` says, and its entry and its partition's counts have the two answers of `checkOn`. -/
theorem checksFollowThePolicy : Obligations.ChecksFollowThePolicy := by
  intro s a e x d hx hd started ended may product full
  obtain ⟨y, hy, checked⟩ := entryAt_passBegun_checked product full hx
  have counts := passBegun_counts (s := s) (a := a) (e := e) x product full
  refine ⟨passBegun a e x d s, y, (execPassStart_of hx hd started ended may).trans (congrArg _ (passStart_eq x d)), hy, ?_, ?_, ?_⟩
  · rw [checked, checkOn_fst]
  · rw [counts, Part.count_live_other (by decide) (by decide), Part.count_live_self (by decide), checked]
    split <;> rfl
  · rw [counts, Part.count_live_self (by decide), Part.count_live_other (by decide) (by decide), checkOn_snd]
    simp only [decide_eq_true_eq]
    split <;> rfl

end Sys2Proof.Machine
end

section
/-!
Settles O49: the life cycle. NEW_NONCE and TRANSITION are guarded writes; what an accepted request leaves of the life cycle is that of `transitionBegun`, since the Lighthouse is all that its delivery reaches.
-/

namespace Sys2Proof.Machine

section
variable {s : State} {q : Req}

theorem sealBy_life (b : Bytes) (s : State) : (sealBy b s).life = s.life := (sealBy_only (.refl [.lh] s) (by decide)).life_eq (by decide)

theorem opNewNonce_of (sv : served s 0xA001) (may : opOrMaker s q) (free : lcOpen s) :
    opNewNonce q s = ({ s with life := { s.life with nonce := Config.entropy s.free, status := 0 }, free := s.free + 1 }, .done) :=
  (guarded_of sv (by rw [may, Bool.true_or])).trans (if_pos free)
theorem opTransition_of (sv : served s 0xA001) (may : opOrMaker s q) : opTransition q s = doTransition s := guarded_of sv (by rw [may, Bool.true_or])

theorem doTransition_accepted_life (accepted : lcAccepts s (signedReq s.life.request)) : (doTransition s).1.life = (transitionBegun s).life ∧ (doTransition s).2 = .done := by
  rw [doTransition_accepted accepted]
  refine ⟨?_, rfl⟩
  dsimp only
  split
  · exact sealBy_life _ _
  · rfl
/-- A refused request uses up the nonce where LC_OP is heard. -/
theorem doTransition_refused_of (free : lcOpen s) (refused : lcAccepts s (signedReq s.life.request) = false) :
    doTransition s = ({ s with life := { s.life with nonce := 0, status := 0x60 } }, .denied) := by
  obtain ⟨idle, -⟩ := (Bool.and_eq_true _ _).mp free
  rw [doTransition_refused refused, if_pos free, lcDeny, if_neg (by simpa using idle)]

theorem transition_ends (hr : reachable s) (sv : served s 0xA001) (may : opOrMaker s q) (free : lcOpen s) :
    ∃ t, exec (.transition q) s = .next t ∧ t.life.nonce = 0 ∧
      (if lcAccepts s (signedReq s.life.request) then
         t.life.running = some (signedReq s.life.request).target ∧ t.life.status = 1 ∧ t.life.flashRequest = s.life.request ∧ t.life.word = s.life.word ||| intentMask (signedReq s.life.request).target
       else t.life = { s.life with nonce := 0, status := 0x60 } ∧ Responds q .denied [] s t ∧ OnlyTouches [.life, .out, .dict] s t) := by
  have op := opTransition_of sv may
  cases h : lcAccepts s (signedReq s.life.request) with
  | true =>
    obtain ⟨life, -⟩ := doTransition_accepted_life h
    have answered : (answer q (doTransition s)).life = (transitionBegun s).life := life
    refine ⟨_, software_answer hr op, ?_, ?_⟩
    · rw [answered]
      rfl
    · rw [answered]
      exact ⟨rfl, rfl, rfl, rfl⟩
  | false =>
    rw [doTransition_refused_of free h] at op
    refine ⟨_, software_answer hr op, rfl, rfl, rfl, ?_⟩
    exact answer_only (.upd (.refl _ s) rfl (.inr rfl) (.inr rfl) (.inr rfl) (.inr rfl) (.inr rfl) (.inr rfl) (.inr rfl) (.inr rfl) (.inr rfl) (.inr rfl) (.inr rfl) (.inl (by decide)) (.inr rfl)
      (.inr rfl) (.inr rfl) (.inr rfl) (.inr rfl) (.inr rfl)) (by decide) (by decide)

theorem execTransitionProgrammed_of {n : Nat} (running : s.life.running = some n) (up : s.pow.mgmtUp) : execTransitionProgrammed s = .next (programmed n s) := by
  unfold execTransitionProgrammed
  rw [running]
  exact need_of up

end

/-- Settles O49: the two writes are `opNewNonce_of` and `transition_ends`, and the end of the steps is `programmed`. -/
theorem lifeCycleTransitionsRun : Obligations.LifeCycleTransitionsRun := fun _ _ =>
  ⟨fun hr sv may free => ⟨software_done hr (opNewNonce_of sv may free), transition_ends hr sv may free⟩, fun _ running up => execTransitionProgrammed_of running up⟩

end Sys2Proof.Machine
end

section
/-!
Settles O50: the scan library and the firmware image. Each write is its guarded operation, and each completion is one decision on the staged file.
-/

namespace Sys2Proof.Machine

section
variable {s : State} {q : Req}

theorem libOpen (may : opOrMaker s q) (idle : s.ras.libStatus ≠ 1) : (opOrMaker s q && decide (s.ras.libStatus ≠ 1)) = true := Bool.and_eq_true_iff.mpr ⟨may, decide_eq_true idle⟩

section
variable (sv : served s 0x9020) (may : opOrMaker s q) (idle : s.ras.libStatus ≠ 1)
include sv may idle

theorem opLibBegin_of : opLibBegin q s = ({ s with ras := { s.ras with libStage := [], libStatus := 0 } }, .done) := guarded_of sv (libOpen may idle)
theorem opLibChunk_of {d : Bytes} (whole : d.length = 1024) : opLibChunk q d s = ({ s with ras := { s.ras with libStage := alSet s.ras.libOffset.toNat d s.ras.libStage } }, .done) :=
  guarded_of sv (Bool.and_eq_true_iff.mpr ⟨libOpen may idle, decide_eq_true whole⟩)
theorem opLibCommit_of : opLibCommit q s = ({ s with ras := { s.ras with libStatus := 1 } }, .done) := guarded_of sv (libOpen may idle)

end

section
variable (sv : served s 0x1120) (stage : mayStage s q)
include sv stage

theorem opFwBegin_of : opFwBegin q s = ({ s with fw := { s.fw with stage := [], status := 0 } }, .done) := guarded_of sv stage
theorem opFwChunk_of {b : Bytes} (whole : b.length = 1024) : opFwChunk q b s = ({ s with fw := { s.fw with stage := alSet s.fw.offset.toNat b s.fw.stage } }, .done) :=
  guarded_of sv (by simp [stage, whole])
theorem opFwCommit_of : opFwCommit q s = ({ s with fw := { s.fw with committing := some (stagedImage s), status := 1 } }, .done) := guarded_of sv stage

end

theorem mayStage_of (may : opOrMaker s q) (active : s.pow.mod = .active) (idle : s.fw.committing = none) : mayStage s q := by simp [mayStage, may, active, idle]

theorem execFwCommitComplete_of {b : Bytes} (committing : s.fw.committing = some b) (up : s.pow.mgmtUp) : execFwCommitComplete s = .next (commitDone b s) := by
  unfold execFwCommitComplete
  rw [committing]
  exact need_of up
theorem commitDone_eq (b : Bytes) (s : State) : commitDone b s = { s with fw := (if imageOk b s.fw.floor then { s.fw with flash := Config.imageEncrypt flashKey b, committing := none, status := 0 }
    else { s.fw with committing := none, status := 0x60 }) } := by
  unfold commitDone
  split <;> rfl

end

/-- Settles O50: each write's guard holds, and a completion installs the file only where it is accepted. -/
theorem imagesAreStagedAndCommitted : Obligations.ImagesAreStagedAndCommitted := by
  intro s q
  refine ⟨fun hr sv may idle => ⟨?_, fun d whole => ?_, ?_⟩, fun busy => need_of (decide_eq_true busy), fun hr sv may active idle => ⟨?_, fun b whole => ?_, ?_⟩, fun b committing up => ?_⟩
  · exact software_done hr (opLibBegin_of sv may idle)
  · exact software_done hr (opLibChunk_of sv may idle whole)
  · exact software_done hr (opLibCommit_of sv may idle)
  · exact software_done hr (opFwBegin_of sv (mayStage_of may active idle))
  · exact software_done hr (opFwChunk_of sv (mayStage_of may active idle) whole)
  · exact software_done hr (opFwCommit_of sv (mayStage_of may active idle))
  · exact (execFwCommitComplete_of committing up).trans (congrArg _ (commitDone_eq b s))

end Sys2Proof.Machine
end

section
/-!
Settles O54: calibration, seal, reads and silence of the Lighthouse.
-/

namespace Sys2Proof.Machine

section
variable {s : State}

/-- Whether a change is accepted or not, its nonce is replaced; an accepted one counts and waits for the next frame record. -/
theorem calibrate_ends (c : Calibration) (s : State) :
    (calibrate c s).lh.sealCount = s.lh.sealCount + (if calOk s.lh c then 1 else 0) ∧ (calibrate c s).lh.calPending = (if calOk s.lh c then some c.body else s.lh.calPending) ∧
      (calibrate c s).lh.calNonce = (if s.lh.sealed then 0 else Config.entropy s.free) ∧ (calibrate c s).lh.minutes = s.lh.minutes := by
  unfold calibrate freshCal
  by_cases accepted : calOk s.lh c <;> by_cases closed : s.lh.sealed <;> simp [accepted, closed]

/-- R532: the requests that the Lighthouse takes for its seal. -/
def sealAccepted (b : Bytes) : Prop :=
  (signedReq b).format = 1 ∧ (signedReq b).reservedZero ∧ (signedReq b).target ∈ [3, 4, 5] ∧ (signedReq b).unit = Config.unitId ∧ (signedReq b).signed Config.lhLifeCycleDigest "JT480 LIFE CYCLE"

theorem sealBy_accepted {b : Bytes} (powered : s.lh.powered) (h : sealAccepted b) : sealBy b s = { s with lh := { s.lh with sealed := true, calNonce := 0 } } := by
  obtain ⟨format, zero, target, unit, signed⟩ := h
  exact if_pos ⟨powered, format, zero, by simpa using target, unit, signed⟩
theorem sealBy_refused {b : Bytes} (h : ¬sealAccepted b) : sealBy b s = s :=
  if_neg fun ⟨_, format, zero, target, unit, signed⟩ => h ⟨format, zero, by simpa using target, unit, signed⟩

theorem lhFind_minute {m : MinuteRec} {l : Lighthouse} (h : m ∈ l.minutes) : lhFind l (.minute m.minute) ≠ none := by
  have found : (l.minutes.find? (fun x => x.minute = m.minute)).isSome := List.find?_isSome.mpr ⟨m, h, decide_eq_true rfl⟩
  rw [lhFind, ← Option.isSome_iff_ne_none, Option.isSome_map]
  exact found

theorem lhSilent_again (silent : s.lh.silent = true) : lhSilent s = s := if_pos silent

end

/-- Settles O54: a change is `calibrate_ends`, a request `sealBy_accepted` or `sealBy_refused`; silence that is new raises the alert, and silence that stands changes nothing. -/
theorem theLighthouseIsCalibratedSealedAndRead : Obligations.TheLighthouseIsCalibratedSealedAndRead := by
  refine fun s => ⟨fun c powered => ?_, fun b powered up => ?_, fun r powered up => need_of (by simp [powered, up]), fun m h => lhFind_minute h, fun up heard => ?_, fun up silent => ?_⟩
  · obtain ⟨count, pending, nonce, minutes⟩ := calibrate_ends c s
    exact ⟨_, need_of powered, count, pending, nonce, minutes, calibrate_only (.refl _ _) (by decide) (by decide)⟩
  · refine ⟨_, need_of (by simp [powered, up]), ?_⟩
    by_cases accepted : sealAccepted b
    · exact .inl ⟨accepted, sealBy_accepted powered accepted⟩
    · exact .inr ⟨accepted, sealBy_refused accepted⟩
  · refine ⟨_, need_of up, ?_⟩
    rw [lhSilent, if_neg (by simp [heard])]
    exact ⟨rfl, rfl, rfl, rfl⟩
  · exact (need_of up).trans (congrArg _ (lhSilent_again silent))

end Sys2Proof.Machine
end

section
/-!
Settles O6: what the answer to a write leaves, and whose session values a write reaches. A record of a session is found by who it is (`DSess.isOf`), which a change of its values leaves; so the changed record is found for its own request, and no request of another session ID finds it.
-/

namespace Sys2Proof.Machine

section
variable {s : State} {q r : Req} {f : DSess → DSess}

theorem DSess.isOf_sid {x : DSess} (h : x.isOf q) : x.sid = q.sid := of_decide_eq_true (Bool.and_eq_true_iff.mp h).1

/-- A change of a session's record that leaves its ID is seen by no request of another ID. -/
theorem findSess_updSess_other (who : ∀ y, (f y).sid = y.sid) (other : r.sid ≠ q.sid) : findSess (updSess q f s) r = findSess s r := by
  have foreign (y : DSess) (mine : y.isOf q) : y.isOf r = false := by
    rw [Bool.eq_false_iff]
    exact fun his => other ((DSess.isOf_sid his).symm.trans (DSess.isOf_sid mine))
  have foreign' (y : DSess) (mine : y.sid = q.sid) : (f y).isOf r = false := by
    rw [Bool.eq_false_iff]
    exact fun his => other ((DSess.isOf_sid his).symm.trans ((who y).trans mine))
  rw [findSess_isOf, findSess_isOf, updSess]
  cases h : findSess s q with
  | some x =>
    have mapped (l : List DSess) : (l.map (fun y => if y.isOf q then f y else y)).find? (DSess.isOf r) = l.find? (DSess.isOf r) := by
      induction l with
      | nil => rfl
      | cons y l ih =>
        by_cases mine : y.isOf q
        · rw [List.map_cons, if_pos mine, List.find?_cons_of_neg (by simp [foreign' y (DSess.isOf_sid mine)]), ih, List.find?_cons_of_neg (by simp [foreign y mine])]
        · rw [List.map_cons, if_neg mine, List.find?_cons, List.find?_cons, ih]
    exact mapped _
  | none =>
    dsimp only
    split
    · next anonymous => exact List.find?_cons_of_neg (by rw [foreign' _ anonymous.symm]; exact Bool.false_ne_true)
    · rfl

/-- A request without a session gets its record at its first use (R556). -/
theorem findSess_updSess_new (who : (f { sid := 0, src := q.src, role := .meter }).isOf q) (anonymous : q.sid = 0) (h : findSess s q = none) :
    findSess (updSess q f s) q = some (f { sid := 0, src := q.src, role := .meter }) := by
  rw [findSess_isOf, updSess, h]
  dsimp only
  rw [if_pos anonymous]
  exact List.find?_cons_of_pos who

theorem perOf_updPer {f : PerSession → PerSession} (h : q.sid = 0 ∨ (findSess s q).isSome) : perOf (updPer q f s) q = f (perOf s q) := by
  cases found : findSess s q with
  | some x => rw [perOf_of_findSess (findSess_updPer f found), perOf_of_findSess found]
  | none =>
    have anonymous : q.sid = 0 := h.resolve_right (by simp [found])
    have mine : (DSess.isOf q { sid := 0, src := q.src, role := .meter, vals := f {} }) = true := by simp [DSess.isOf, anonymous]
    rw [updPer, perOf_of_findSess (findSess_updSess_new mine anonymous found)]
    simp [perOf, found]
theorem perOf_updPer_other {f : PerSession → PerSession} (other : r.sid ≠ q.sid) : perOf (updPer q f s) r = perOf s r := by
  have found := findSess_updSess_other (s := s) (f := fun x => { x with vals := f x.vals }) (fun _ => rfl) other
  rw [perOf, updPer, found, ← perOf]

/-- A counted request changes the dictionary's counters alone. -/
theorem executed_dict (n : Nat) (s : State) : (executed q n s).dict.counters = bump s.dict.counters 2 1 ∧ (executed q n s).dict.sessions = s.dict.sessions ∧
    (executed q n s).dict.openings = s.dict.openings ∧ (executed q n s).dict.alerts = s.dict.alerts ∧ (executed q n s).dict.events = s.dict.events := by
  have keeps {α : Type} (π : Dict → α) (frames : ∀ d : Dict, π ((d.frames 1 1).frames 2 n) = π d) : π (executed q n s).dict = π { s.dict with counters := bump s.dict.counters 2 1 } :=
    (apply_ite π _ _ _).trans (by rw [frames, ite_self])
  exact ⟨keeps Dict.counters fun _ => rfl, keeps Dict.sessions fun _ => rfl, keeps Dict.openings fun _ => rfl, keeps Dict.alerts fun _ => rfl, keeps Dict.events fun _ => rfl⟩

end

/-- Settles O6: the answer is `executed` and its response, and a session's values are found by `perOf_updPer` and `perOf_updPer_other`. -/
theorem answersAndSessionValuesKeepApart : Obligations.AnswersAndSessionValuesKeepApart := by
  refine ⟨fun q u st => ?_, fun q r f s own => ⟨perOf_updPer own, fun other => perOf_updPer_other other, updPer_only (.refl _ s) (by decide)⟩⟩
  obtain ⟨counters, sessions, openings, alerts, events⟩ := executed_dict (q := q) 1 u
  exact ⟨rfl, answer_only (.refl _ u) (by decide) (by decide), counters, sessions, openings, alerts, events⟩

end Sys2Proof.Machine
end

section
/-!
Settles O10: POWER_LIMIT_W (R211) as the object of a write by index and subindex. Its description gives its type, its range and its role, and `writeObject` asks for all three.
-/

namespace Sys2Proof.Machine

section
variable {s : State} {q : Req}

theorem writeObject_refused {index sub : Nat} {b : Bytes} (h : writable s q index sub = false) : writeObject q index sub b s = (s, .denied) := by simp [writeObject, h]

/-- POWER_LIMIT_W in the tables: an unsigned 16-bit integer of 300 to 3,300, kept in flash, read by OPERATOR and MAKER and written by OPERATOR. -/
abbrev powerLimit : Desc := { ty := 3, len := 2, rd := rOp, wr := 2, dflt := 3300, lo := 300, hi := 3300, persist := true }

theorem descOf_powerLimit (s : State) : descOf s 0x2100 0 = some powerLimit := rfl
theorem inFlash_powerLimit (s : State) : inFlash s 0x2100 0 = true := rfl
theorem fitsType_powerLimit (b : Bytes) : fitsType powerLimit b = (decide (b.length = 2) && (decide (300 ≤ leNat b) && decide (leNat b ≤ 3300))) := by
  simp [fitsType]
theorem applyWrite_powerLimit (q : Req) (b : Bytes) (s : State) :
    applyWrite q 0x2100 0 b s = ({ s with gov := { s.gov with limit := BitVec.ofNat 16 (leNat (b.take 8)) } }, .done) := rfl

/-- OPERATOR alone writes it. -/
theorem mayUse_powerLimit : mayUse s q 0x2100 powerLimit.wr true = isOperator s q := by
  unfold mayUse isOperator
  cases roleOf s q with
  | tenant => exact Bool.and_false _
  | _ => rfl
theorem writable_powerLimit : writable s q 0x2100 0 = (served s 0x2100 && isOperator s q) := by
  unfold writable
  rw [descOf_powerLimit]
  dsimp only
  rw [mayUse_powerLimit]
  simp [recoveryOpen]

theorem writeObject_powerLimit (b : Bytes) : writeObject q 0x2100 0 b s =
    if (served s 0x2100 && isOperator s q) && (decide (b.length = 2) && (decide (300 ≤ leNat b) && decide (leNat b ≤ 3300))) then
      flashed q true s ({ s with gov := { s.gov with limit := BitVec.ofNat 16 (leNat (b.take 8)) } }, .done)
    else (s, .denied) := by
  simp only [writeObject, writable_powerLimit, descOf_powerLimit, inFlash_powerLimit, applyWrite_powerLimit, fitsType_powerLimit]

theorem opPowerLimit_of {w : BitVec 16} (sv : served s 0x2100) (op : isOperator s q) (low : 300 ≤ w.toNat) (high : w.toNat ≤ 3300) :
    writeObject q 0x2100 0 (leBytes 2 w.toNat) s = flashed q true s ({ s with gov := { s.gov with limit := w } }, .done) := by
  have value : leNat (leBytes 2 w.toNat) = w.toNat := leNat_leBytes (by omega)
  have whole : (leBytes 2 w.toNat).take 8 = leBytes 2 w.toNat := List.take_of_length_le (by rw [length_leBytes]; decide)
  rw [writeObject_powerLimit, if_pos (by simp [sv, op, value, low, high]), whole, value, BitVec.ofNat_toNat, BitVec.setWidth_eq]

theorem opPowerLimit_denied {b : Bytes} (h : b.length ≠ 2 ∨ leNat b < 300 ∨ 3300 < leNat b ∨ !isOperator s q) : writeObject q 0x2100 0 b s = (s, .denied) := by
  rw [writeObject_powerLimit, if_neg]
  simp only [Bool.and_eq_true, decide_eq_true_eq]
  rintro ⟨⟨-, op⟩, len, low, high⟩
  rcases h with h | h | h | h
  · exact h len
  · omega
  · omega
  · simp [op] at h

end

/-- Settles O10: POWER_LIMIT_W takes what `opPowerLimit_of` lets through, and what is not writable, out of range or another's is denied. -/
theorem registerWritesKeepTypeRangeAndRole : Obligations.RegisterWritesKeepTypeRangeAndRole := by
  refine fun s q hr => ⟨fun w sv op low high => ?_, fun b h => software_denied hr (opPowerLimit_denied h), fun index sub b h => software_denied hr (writeObject_refused h)⟩
  exact (software_answer hr (opPowerLimit_of sv op low high)).trans (by rw [flashed_done])

end Sys2Proof.Machine
end

section
/-!
Settles O15: the sideband node (R564) and the I3C target (R567). What comes from outside is `heard` where the node or the management domain has power; a directed I3C command has its effect where the target holds an address, and is not acknowledged otherwise.
-/

namespace Sys2Proof.Machine

section
variable {s t : State}

theorem heard_of {b : Bool} (h : b = true) : heard b s t = .next t := congrArg _ (if_pos h)

/-! The sideband node. -/

theorem sbLink_of {v : Byte} (up : s.pow.mgmtUp) (h : v.toNat ≤ 1 ∨ (v = 2 ∧ s.side.node ≠ 0xFF)) : execSbLinkStateChange v s = .next { s with side := { s.side with link := v } } := by
  have lowOrNode : v.toNat ≤ 2 ∧ (v ≠ 2 ∨ s.side.node ≠ 0xFF) := by
    rcases h with low | ⟨rfl, node⟩
    · exact ⟨by omega, .inl (by rintro rfl; exact absurd low (by decide))⟩
    · exact ⟨le_rfl, .inr node⟩
  obtain ⟨low, node⟩ := lowOrNode
  exact need_of (Bool.and_eq_true_iff.mpr ⟨Bool.and_eq_true_iff.mpr ⟨up, decide_eq_true low⟩, (Bool.or_eq_true _ _).mpr (node.imp decide_eq_true decide_eq_true)⟩)

theorem echo_short (lighthouse : Bool) {b : Bytes} (short : b.length ≤ 1232) : echo lighthouse b s = (nodeFrames lighthouse 1 s).emit [.echoReply lighthouse b] := if_pos (by omega)

/-! The I3C target. -/

theorem directed_of (up : s.pow.mgmtUp) (held : s.side.i3cAddr.isSome) : directed s t = .next t := (heard_of up).trans (congrArg _ (if_pos held))
theorem directed_nack (up : s.pow.mgmtUp) (free : s.side.i3cAddr = none) : directed s t = .next (s.emit [.i3cNack]) := (heard_of up).trans (congrArg _ (if_neg (by simp [free])))

end

theorem sideband_answers (s : State) :
    (∀ v : Byte, s.pow.mgmtUp → v.toNat ≤ 1 ∨ (v = 2 ∧ s.side.node ≠ 0xFF) → exec (.sbLinkStateChange v) s = .next { s with side := { s.side with link := v } }) ∧
    (∀ b : Bytes, reachable s → b.length ≤ 1232 →
      ∃ t, exec (.icmpv6Echo false b) s = .next t ∧ t.out = s.out ++ [.echoReply false b] ∧ t.dict.sb = bump (bump s.dict.sb 1 1) 2 1 ∧ OnlyTouches [.out, .dict] s t) ∧
    (∀ b : Bytes, s.lh.powered → b.length ≤ 1232 → exec (.icmpv6Echo true b) s = .next (s.emit [.echoReply true b])) ∧
    (∀ mac : BitVec 48, s.lh.powered →
      exec (.neighbourDiscovery true true (linkLocal lhMac) mac) s = .next (s.emit [.advert true (BitVec.ofNat 48 (leNat lhMac))]) ∧
      ∀ a : BitVec 128, exec (.neighbourDiscovery true false a mac) s = .next { s with side := { s.side with lhNeighbours := kvSet a mac s.side.lhNeighbours } }) ∧
    (∀ (a : BitVec 128) (mac : BitVec 48), reachable s →
      ∃ t, exec (.neighbourDiscovery false false a mac) s = .next t ∧ t.side = { s.side with neighbours := kvSet a mac s.side.neighbours } ∧ OnlyTouches [.dict, .side] s t) := by
  refine ⟨fun v up h => sbLink_of up h, fun b hr short => ?_, fun b powered short => ?_, fun mac powered => ⟨?_, fun a => heard_of powered⟩, fun a mac hr => ⟨_, heard_of hr, rfl, rfl⟩⟩
  · have run : exec (.icmpv6Echo false b) s = .next (echo false b s) := heard_of hr
    rw [echo_short false short] at run
    exact ⟨_, run, rfl, rfl, rfl⟩
  · exact (heard_of powered).trans (congrArg _ (echo_short true short))
  · exact (heard_of powered).trans (congrArg _ (if_pos (decide_eq_true rfl)))

theorem i3cTarget_answers (s : State) (up : s.pow.mgmtUp) :
    (∀ a : BitVec 7, s.side.i3cAddr = none →
      exec (.entdaa a) s = .next (({ s with side := { s.side with i3cAddr := some a } }).emit [.i3c (pidBytes ++ [Config.i3cBcr, Config.i3cDcr])])) ∧
    exec .rstdaa s = .next { s with side := { s.side with i3cAddr := none } } ∧
    (s.side.i3cAddr.isSome →
      (∀ a : BitVec 7, exec (.setnewda a) s = .next { s with side := { s.side with i3cAddr := some a } }) ∧
      exec .getpid s = .next (s.emit [.i3c pidBytes]) ∧ exec .getbcr s = .next (s.emit [.i3c [Config.i3cBcr]]) ∧ exec .getdcr s = .next (s.emit [.i3c [Config.i3cDcr]]) ∧
      exec .getstatus s = .next (s.emit [.i3c (leBytes 2 Config.i3cStatus.toNat).reverse]) ∧ exec .getmrl s = .next (s.emit [.i3c (leBytes 2 Config.i3cMaxRead.toNat).reverse]) ∧
      exec .getmwl s = .next (s.emit [.i3c (leBytes 2 Config.i3cMaxWrite.toNat).reverse]) ∧
      (∀ b : Byte, exec (.i3cPrivateWrite [b]) s = .next { s with side := { s.side with i3cPos := b.toNat } }) ∧
      (∀ n : Nat, exec (.i3cPrivateRead n) s = .next (s.emit [.i3c (slice s.side.i3cData s.side.i3cPos n)]))) ∧
    (s.side.i3cAddr = none → ∀ c ∈ [Instr.getpid, .getbcr, .getdcr, .getstatus, .getmrl, .getmwl, .i3cPrivateRead 1], exec c s = .next (s.emit [.i3cNack])) ∧
    (∀ w mv : BitVec 16, ∃ t, exec (.i3cRefresh w mv) s = .next t ∧ t.side.powerW = w ∧ t.side.mv = mv ∧ t.side.i3cData = readout { s with side := { s.side with powerW := w, mv := mv } } ∧
      OnlyTouches [.side] s t) := by
  refine ⟨fun a free => (heard_of up).trans (congrArg _ (if_neg (by simp [free]))), heard_of up, fun held => ?_, fun free c hc => ?_, fun w mv => ⟨_, need_of up, rfl, rfl, rfl, rfl⟩⟩
  · exact ⟨fun a => directed_of up held, directed_of up held, directed_of up held, directed_of up held, directed_of up held, directed_of up held, directed_of up held,
      fun b => directed_of up held, fun n => directed_of up held⟩
  · simp only [List.mem_cons, List.not_mem_nil, or_false] at hc
    rcases hc with rfl | rfl | rfl | rfl | rfl | rfl | rfl <;> exact directed_nack up free

/-- Settles O15: the node's part and the target's part. -/
theorem theSidebandAndTheI3cTargetAnswer : Obligations.TheSidebandAndTheI3cTargetAnswer := ⟨sideband_answers, i3cTarget_answers⟩

end Sys2Proof.Machine
end

section
/-!
The rules of a dictionary message that comes by a dictionary flow (R554, R555, R557, R558), and O12. On the fabric a response carries its data as it is (R560) and no frame is counted, so a message without a session runs and answers once; in a session it is dropped, answered from the kept responses, or run.
-/

namespace Sys2Proof.Machine

section
variable {s t : State} {m : DictMsg} {n : Nat}

/-! The record of a session. -/

theorem sessOf_sid {x : DSess} (h : sessOf s n = some x) : x.sid = n ∧ n ≠ 0 := of_decide_eq_true (p := x.sid = n ∧ n ≠ 0) (by simpa using List.find?_some h)

/-- A change of records that leaves their IDs changes each session's own record. -/
theorem sessOf_map {g : DSess → DSess} (sessions : t.dict.sessions = s.dict.sessions.map g) (who : ∀ x, (g x).sid = x.sid) (n : Nat) : sessOf t n = (sessOf s n).map g := by
  unfold sessOf
  rw [sessions, List.find?_map]
  congr 2
  funext x
  simp only [Function.comp, who]
theorem sessOf_congr (sessions : t.dict.sessions = s.dict.sessions) (n : Nat) : sessOf t n = sessOf s n := by rw [sessOf, sessions, ← sessOf]
theorem sessOf_none : sessOf s n = none ↔ n = 0 ∨ ∀ x ∈ s.dict.sessions, x.sid ≠ n := by
  by_cases zero : n = 0 <;> simp [sessOf, zero]
theorem findSess_sessOf {q : Req} (named : q.sid ≠ 0) : findSess s q = sessOf s q.sid := findSess_sid named

/-- A session's record, changed by `f`, is found under its ID. -/
theorem sessOf_updSess {q : Req} {x : DSess} {f : DSess → DSess} (who : ∀ y, (f y).isOf q = y.isOf q) (h : sessOf s q.sid = some x) : sessOf (updSess q f s) q.sid = some (f x) := by
  have named := (sessOf_sid h).2
  rw [← findSess_sessOf named] at h ⊢
  exact findSess_updSess f who h

/-! Responses on the fabric. -/

theorem sbFrame_fabric (fabric : m.route = .fabric) (i k : Nat) : sbFrame m i k s = s := if_neg (by simp [fabric])
theorem msgWire_fabric (fabric : m.route = .fabric) (st : Status) (more : Bool) (b : Bytes) : msgWire s m st more b = b := by
  unfold msgWire
  split
  · exact if_pos fabric
  · rfl

/-- What the response of a message leaves of a session's record: its own session sends the next SEQ. -/
def DSess.answers (m : DictMsg) (x : DSess) : DSess := if x.sid = m.sid ∧ m.sid ≠ 0 then x.sent else x
/-- The response as it is kept in its own session (R558). -/
def DSess.keeps (m : DictMsg) (k : Kept) (x : DSess) : DSess := if x.sid = m.sid ∧ m.sid ≠ 0 then { x with kept := (k :: x.kept).take 8 } else x
/-- A response as it is kept. -/
def keptOf (m : DictMsg) (st : Status) (more : Bool) (b : Bytes) : Kept :=
  { reqId := m.reqId, index := m.index.toNat, sub := m.sub.toNat, offset := m.offset, data := m.data, status := st, more := more, answer := b }

theorem DSess.answers_sid (m : DictMsg) (x : DSess) : (x.answers m).sid = x.sid := (apply_ite DSess.sid _ _ _).trans (ite_self _)
theorem DSess.keeps_sid (m : DictMsg) (k : Kept) (x : DSess) : (x.keeps m k).sid = x.sid := (apply_ite DSess.sid _ _ _).trans (ite_self _)

theorem respondSeq_fabric (fabric : m.route = .fabric) (st : Status) (more : Bool) (b : Bytes) :
    respondSeq m st more b s = { s with dict := { s.dict with sessions := s.dict.sessions.map (DSess.answers m) }, out := s.out ++ [.response m.sid m.src m.reqId st more b] } := by
  unfold respondSeq
  dsimp only
  rw [sbFrame_fabric fabric, msgWire_fabric fabric]
  rfl
theorem respond_fabric (fabric : m.route = .fabric) (st : Status) (more : Bool) (b : Bytes) :
    respond m st more b s = { s with
      dict := { s.dict with sessions := (s.dict.sessions.map (DSess.keeps m (keptOf m st more b))).map (DSess.answers m) }, out := s.out ++ [.response m.sid m.src m.reqId st more b] } :=
  respondSeq_fabric fabric st more b

/-- Without a session no record changes. -/
theorem respond_sessionless (fabric : m.route = .fabric) (sessionless : m.sid = 0) (st : Status) (more : Bool) (b : Bytes) :
    respond m st more b s = s.emit [.response 0 m.src m.reqId st more b] := by
  have answers : DSess.answers m = id := funext fun x => if_neg (by simp [sessionless])
  have keeps : DSess.keeps m (keptOf m st more b) = id := funext fun x => if_neg (by simp [sessionless])
  rw [respond_fabric fabric, answers, keeps, List.map_id, List.map_id, sessionless]
  rfl

/-- In a session the response takes the next SEQ. -/
theorem sessOf_respondSeq {x : DSess} (fabric : m.route = .fabric) (h : sessOf s m.sid = some x) (st : Status) (more : Bool) (b : Bytes) :
    sessOf (respondSeq m st more b s) m.sid = some x.sent := by
  rw [sessOf_map (congrArg (·.dict.sessions) (respondSeq_fabric fabric st more b)) (DSess.answers_sid m), h]
  exact congrArg some (if_pos (sessOf_sid h))
/-- In a session the response takes the next SEQ and is kept. -/
theorem sessOf_respond {x : DSess} (fabric : m.route = .fabric) (h : sessOf s m.sid = some x) (st : Status) (more : Bool) (b : Bytes) :
    sessOf (respond m st more b s) m.sid = some { x.sent with kept := (keptOf m st more b :: x.kept).take 8 } := by
  refine sessOf_respondSeq (x := { x with kept := (keptOf m st more b :: x.kept).take 8 }) fabric ?_ st more b
  rw [sessOf_map (s := s) (g := DSess.keeps m (keptOf m st more b)) rfl (DSess.keeps_sid m _), h]
  exact congrArg some (if_pos (sessOf_sid h))
/-- A response of another session leaves this one's record. -/
theorem sessOf_respond_other (fabric : m.route = .fabric) (other : n ≠ m.sid) (st : Status) (more : Bool) (b : Bytes) : sessOf (respond m st more b s) n = sessOf s n := by
  have sessions : (respond m st more b s).dict.sessions = s.dict.sessions.map (DSess.answers m ∘ DSess.keeps m (keptOf m st more b)) := by
    rw [respond_fabric fabric, ← List.map_map]
  rw [sessOf_map sessions fun x => (DSess.answers_sid m _).trans (DSess.keeps_sid m _ x)]
  cases h : sessOf s n with
  | none => rfl
  | some x =>
    have foreign : ¬(x.sid = m.sid ∧ m.sid ≠ 0) := fun mine => other ((sessOf_sid h).1.symm.trans mine.1)
    simp [DSess.answers, DSess.keeps, foreign]

/-! A message and its ways. -/

/-- The request counts as executed (R553). -/
def counted (s : State) : State := { s with dict := { s.dict with counters := bump s.dict.counters 2 1 } }
/-- The message is the last one that its session has accepted (R557). -/
def DSess.accepts (m : DictMsg) (x : DSess) : DSess := if x.sid = m.sid then { x with seqIn := m.seq } else x
def accepted (m : DictMsg) (s : State) : State := { s with dict := { s.dict with sessions := s.dict.sessions.map (DSess.accepts m) } }

theorem DSess.accepts_sid (m : DictMsg) (x : DSess) : (x.accepts m).sid = x.sid := (apply_ite DSess.sid _ _ _).trans (ite_self _)
theorem sessOf_accepted {x : DSess} (h : sessOf s m.sid = some x) : sessOf (accepted m s) m.sid = some { x with seqIn := m.seq } := by
  rw [sessOf_map (s := s) (g := DSess.accepts m) rfl (DSess.accepts_sid m), h]
  exact congrArg some (if_pos (sessOf_sid h).1)
theorem sessOf_accepted_other (other : n ≠ m.sid) : sessOf (accepted m s) n = sessOf s n := by
  rw [sessOf_map (s := s) (g := DSess.accepts m) rfl (DSess.accepts_sid m)]
  cases h : sessOf s n with
  | none => rfl
  | some x => exact congrArg some (if_neg fun mine => other ((sessOf_sid h).1.symm.trans mine))

theorem runMsg_answers {f : State → State × Reply} {st : Status} {more : Bool} {b : Bytes} (h : (f (counted s)).2 = some (st, more, b)) :
    runMsg m f s = respond m st more b (f (counted s)).1 := by
  unfold runMsg
  dsimp only
  rw [show (f { s with dict := { s.dict with counters := bump s.dict.counters 2 1 } }).2 = some (st, more, b) from h]
  rfl
theorem runMsg_silent {f : State → State × Reply} (h : (f (counted s)).2 = none) : runMsg m f s = (f (counted s)).1 := by
  unfold runMsg
  dsimp only
  rw [show (f { s with dict := { s.dict with counters := bump s.dict.counters 2 1 } }).2 = none from h]
  rfl

section
variable {op : Nat} {f : State → State × Reply} (fabric : m.route = .fabric) (here : forHere s m = true) (form : msgForm op m = true)
include fabric here form

theorem message_sessionless (sessionless : m.sid = 0) : message op m f s = runMsg m f s := by
  unfold message
  rw [sbFrame_fabric fabric]
  simp [here, form, sessionless]
theorem message_session {x : DSess} (h : sessOf s m.sid = some x) : message op m f s = inSession m x f s := by
  unfold message
  rw [sbFrame_fabric fabric]
  simp [here, form, h, (sessOf_sid h).2]

end

section
variable {x : DSess} {f : State → State × Reply} (stands : x.revoked = false)
include stands

theorem inSession_dropped (h : m.tagOk = false ∨ m.seq ≤ x.seqIn) : inSession m x f s = dropMsg s := by
  unfold inSession
  rw [if_neg (by simp [stands]), if_pos (by simpa using h)]
theorem inSession_repeated {k : Kept} (tag : m.tagOk = true) (new : x.seqIn < m.seq) (h : keptFor m x = some k) : inSession m x f s = respondSeq m k.status k.more k.answer (accepted m s) := by
  unfold inSession
  rw [if_neg (by simp [stands]), if_neg (by simp [tag, new])]
  dsimp only
  rw [h]
  rfl
theorem inSession_runs (tag : m.tagOk = true) (new : x.seqIn < m.seq) (h : keptFor m x = none) : inSession m x f s = runMsg m f (accepted m s) := by
  unfold inSession
  rw [if_neg (by simp [stands]), if_neg (by simp [tag, new])]
  dsimp only
  rw [h]
  rfl

end

/-! Reads from the first byte. -/

theorem readFrom_start {q : Req} {key : Nat} {b : Bytes} : readFrom q key 0 (some b) s = (hold q key b s, some (.done, decide (960 < b.length), b.take 960)) := by
  simp [readFrom, pieceOf]
theorem readFrom_none {q : Req} {key : Nat} : readFrom q key 0 none s = (s, some (.denied, false, [])) := rfl

/-- The Lighthouse takes nothing from a dictionary flow (R535). -/
theorem lhServes_fabric (fabric : m.route = .fabric) : lhServes s m = false := by simp [lhServes, fabric]
theorem read_fabric (hr : reachable s) (fabric : m.route = .fabric) : exec (.read m) s = .next (message 1 m (doRead m) s) :=
  (if_neg (by simp [lhServes_fabric fabric])).trans (heard_of hr)
theorem write_fabric (hr : reachable s) (fabric : m.route = .fabric) : exec (.write m) s = .next (message 2 m (doWrite m) s) :=
  (if_neg (by simp [lhServes_fabric fabric])).trans (heard_of hr)
theorem readBlock_heard (hr : reachable s) : exec (.readBlock m) s = .next (message 3 m (doReadBlock m) s) := heard_of hr

/-- The answer of a read outside any session. -/
theorem message_reads {op : Nat} {f : State → State × Reply} {q : Req} {key : Nat} {fresh : Option Bytes} (fabric : m.route = .fabric) (here : forHere s m) (form : msgForm op m)
    (sessionless : m.sid = 0) (reads : f (counted s) = readFrom q key 0 fresh (counted s)) :
    (∀ b, fresh = some b → (message op m f s).out = s.out ++ [.response 0 m.src m.reqId .done (decide (960 < b.length)) (b.take 960)]) ∧
    (fresh = none → (message op m f s).out = s.out ++ [.response 0 m.src m.reqId .denied false []]) := by
  rw [message_sessionless fabric here form sessionless]
  constructor
  · rintro b rfl
    rw [readFrom_start] at reads
    rw [runMsg_answers (congrArg Prod.snd reads), respond_sessionless fabric sessionless, reads]
    rfl
  · rintro rfl
    rw [readFrom_none] at reads
    rw [runMsg_answers (congrArg Prod.snd reads), respond_sessionless fabric sessionless, reads]
    rfl

theorem doRead_start (start : m.offset = 0) : doRead m s = readFrom (reqOf m) (objectNo m) 0 (readObject s (reqOf m) m.index.toNat m.sub.toNat) s := by rw [doRead, start]
theorem doReadBlock_start (start : m.offset = 0) :
    doReadBlock m s = readFrom (reqOf m) (2 ^ 32 + 256 * objectNo m + m.count.toNat) 0 (blockOf s (reqOf m) m.index.toNat m.sub.toNat m.count.toNat) s := by rw [doReadBlock, start]

end

/-- Settles O12: a read is `readFrom` of the value in the state that counts the request (`message_reads`). -/
theorem readsAnswerTheValueOrDenied : Obligations.ReadsAnswerTheValueOrDenied := by
  rintro s _ m hr fabric here sessionless start rfl
  have readOnly : OnlyTouches [.out, .dict] s (message 1 m (doRead m) s) := message_only (fun _ hu => doRead_only hu (by decide)) (.refl _ s) (by decide) (by decide)
  have blockOnly : OnlyTouches [.out, .dict] s (message 3 m (doReadBlock m) s) := message_only (fun _ hu => doReadBlock_only hu (by decide)) (.refl _ s) (by decide) (by decide)
  refine ⟨fun b form value => ?_, fun form none' => ?_, fun b form value => ?_⟩
  · exact ⟨_, read_fabric hr fabric, (message_reads fabric here form sessionless (doRead_start start)).1 b value, readOnly⟩
  · exact ⟨_, read_fabric hr fabric, (message_reads fabric here form sessionless (doRead_start start)).2 none', readOnly⟩
  · exact ⟨_, readBlock_heard hr, (message_reads fabric here form sessionless (doReadBlock_start start)).1 b value, blockOnly⟩

end Sys2Proof.Machine
end

section
/-!
Settles O11: a message of a session is dropped, answered from the kept responses, or run (R557, R558, R562). To run it leaves the session's role and reach as they are, so that what may be written and how long it is are those of the state before.
-/

namespace Sys2Proof.Machine

/-! What a change of records leaves of the access rules. -/

/-- A change of a record that leaves who it is and what it may do. -/
structure KeepsAccess (g : DSess → DSess) : Prop where
  sid : ∀ x, (g x).sid = x.sid
  src : ∀ x, (g x).src = x.src
  role : ∀ x, (g x).role = x.role
  part : ∀ x, (g x).part = x.part
  bound : ∀ x, (g x).bound = x.bound
  revoked : ∀ x, (g x).revoked = x.revoked

section
variable {s t : State} {q : Req} {g : DSess → DSess} (acc : KeepsAccess g) (sessions : t.dict.sessions = s.dict.sessions.map g)
include acc sessions

theorem findSess_map : findSess t q = (findSess s q).map g := by
  unfold findSess
  rw [sessions, List.find?_map]
  congr 2
  funext x
  simp only [Function.comp, acc.sid, acc.src]
theorem roleOf_map : roleOf t q = roleOf s q := by
  unfold roleOf
  rw [findSess_map acc sessions]
  cases findSess s q with
  | none => rfl
  | some x => simp [acc.role, acc.revoked]
theorem isTenant_map (p : PartId) : isTenant t q p = isTenant s q p := by
  unfold isTenant
  rw [roleOf_map acc sessions, findSess_map acc sessions]
  cases findSess s q with
  | none => rfl
  | some x => simp [acc.part, acc.bound]

variable (bind : t.bind = s.bind)
include bind

theorem sessMay_map (i : Nat) : sessMay t q i = sessMay s q i := by
  have part : (getSess t i).bind (·.part) = (getSess s i).bind (·.part) := by rw [getSess, bind, ← getSess]
  unfold sessMay isOperator
  rw [part, roleOf_map acc sessions, findSess_map acc sessions]
  simp only [isTenant_map acc sessions]
  congr 2
  cases findSess s q with
  | none => rfl
  | some x => simp [acc.bound]
theorem reaches_map (index : Nat) : reaches t q index = reaches s q index := by
  unfold reaches
  rw [findSess_map acc sessions]
  cases findSess s q with
  | none => rfl
  | some x => simp only [Option.map_some, acc.part, sessMay_map acc sessions bind]
theorem mayUse_map (index mask : Nat) (write : Bool) : mayUse t q index mask write = mayUse s q index mask write := by
  unfold mayUse unboundMay
  rw [roleOf_map acc sessions, findSess_map acc sessions, reaches_map acc sessions bind]
  cases findSess s q with
  | none => rfl
  | some x => simp only [Option.map_some, acc.bound]

end

section
variable {s : State} {m : DictMsg} {q : Req} {x : DSess}

theorem DSess.accepts_keepsAccess (m : DictMsg) : KeepsAccess (DSess.accepts m) := by
  constructor <;> intro x <;> exact (apply_ite _ _ _ _).trans (ite_self _)

/-- The state in which an accepted message runs. -/
def atRun (m : DictMsg) (s : State) : State := counted (accepted m s)

/-- The tables of the objects speak of nothing of the dictionary. -/
theorem plainDesc_atRun (index sub : Nat) : plainDesc (atRun m s) index sub = plainDesc s index sub := by
  have session (i : Nat) : descSession (atRun m s) i sub = descSession s i sub := rfl
  have tick : descTick (atRun m s) index sub = descTick s index sub := rfl
  have net : descNet (atRun m s) index sub = descNet s index sub := rfl
  have life : descLife (atRun m s) index sub = descLife s index sub := rfl
  unfold plainDesc
  simp only [session, tick, net, life]
theorem descOf_atRun (index sub : Nat) : descOf (atRun m s) index sub = descOf s index sub := by
  unfold descOf
  simp only [plainDesc_atRun]
theorem served_atRun (index : Nat) : served (atRun m s) index = served s index := rfl
theorem lengthLimit_atRun (index sub : Nat) : lengthLimit (atRun m s) index sub = lengthLimit s index sub := by rw [lengthLimit, descOf_atRun, ← lengthLimit]
theorem writable_atRun (index sub : Nat) : writable (atRun m s) q index sub = writable s q index sub := by
  have may (i mask : Nat) : mayUse (atRun m s) q i mask true = mayUse s q i mask true := mayUse_map (s := s) (t := atRun m s) (DSess.accepts_keepsAccess m) rfl rfl i mask true
  unfold writable
  rw [served_atRun, descOf_atRun]
  simp only [may]
  rfl

/-! One segment that is the whole value. -/

theorem flags_final (h : m.flags = 1) : m.flags.getLsbD 0 = true := by rw [h]; rfl

/-- A last segment that continues the value as staged makes it whole, and nothing stays staged. -/
theorem takeSegment_last {key limit : Nat} {old : Bytes} (staged : (if m.offset = 0 then some [] else (findSess s q).bind (fun x => alGet key x.staged)) = some old)
    (next : m.offset = old.length) (room : old.length + m.data.length ≤ limit) (final : m.flags = 1) :
    takeSegment q key limit m s = (updSess q (fun x => { x with staged := alDel key x.staged }) s, .whole (old ++ m.data)) := by
  unfold takeSegment
  dsimp only
  rw [staged]
  dsimp only
  rw [if_neg (by rw [List.length_append]; omega), if_pos (flags_final final)]
theorem takeSegment_whole {key limit : Nat} (start : m.offset = 0) (room : m.data.length ≤ limit) (final : m.flags = 1) :
    takeSegment q key limit m s = (updSess q (fun x => { x with staged := alDel key x.staged }) s, .whole m.data) :=
  takeSegment_last (old := []) (if_pos start) start (by simpa using room) final

/-- The state in which a write of one segment runs: nothing is staged of its object. -/
def unstaged (m : DictMsg) (s : State) : State := updSess (reqOf m) (fun x => { x with staged := alDel (objectNo m) x.staged }) s
theorem sessOf_unstaged (h : sessOf s m.sid = some x) : sessOf (unstaged m s) m.sid = some { x with staged := alDel (objectNo m) x.staged } :=
  sessOf_updSess (q := reqOf m) (f := fun x => { x with staged := alDel (objectNo m) x.staged }) (fun _ => rfl) h

theorem doWrite_whole (start : m.offset = 0) (final : m.flags = 1) (may : writable s (reqOf m) m.index.toNat m.sub.toNat) (room : m.data.length ≤ lengthLimit s m.index.toNat m.sub.toNat) :
    doWrite m s = ((writeObject (reqOf m) m.index.toNat m.sub.toNat m.data (unstaged m s)).1, some ((writeObject (reqOf m) m.index.toNat m.sub.toNat m.data (unstaged m s)).2, false, [])) := by
  unfold doWrite
  rw [if_neg (by simp [may]), takeSegment_whole start room final]
  rfl

/-! A read in a session. -/

/-- A read from the first byte is answered, and leaves of its session all but the held value. -/
theorem readFrom_answers {key : Nat} (fresh : Option Bytes) (h : sessOf s q.sid = some x) : ∃ st more b, (readFrom q key 0 fresh s).2 = some (st, more, b) ∧
    (readFrom q key 0 fresh s).1.out = s.out ∧ (readFrom q key 0 fresh s).1.dict.counters = s.dict.counters ∧
    ∃ y, sessOf (readFrom q key 0 fresh s).1 q.sid = some y ∧ y.seqIn = x.seqIn ∧ y.seqOut = x.seqOut := by
  cases fresh with
  | none => exact ⟨_, _, _, rfl, rfl, rfl, x, h, rfl, rfl⟩
  | some b =>
    rw [readFrom_start]
    exact ⟨_, _, _, rfl, rfl, rfl, _, sessOf_updSess (fun _ => rfl) h, rfl, rfl⟩

/-- A kept response repeats its own request. -/
theorem keptFor_kept {y : DSess} (st : Status) (more : Bool) (b : Bytes) (l : List Kept) : keptFor m { y with kept := (keptOf m st more b :: l).take 8 } = some (keptOf m st more b) :=
  List.find?_cons_of_pos (by simp [keptOf])

theorem session_reads {f : State → State × Reply} {key : Nat} {fresh : Option Bytes} (fabric : m.route = .fabric) (h : sessOf s m.sid = some x)
    (reads : f (atRun m s) = readFrom (reqOf m) key 0 fresh (atRun m s)) : ∃ st more b, (runMsg m f (accepted m s)).out = s.out ++ [.response m.sid m.src m.reqId st more b] ∧
      (runMsg m f (accepted m s)).dict.counters = bump s.dict.counters 2 1 ∧ (sessOf (runMsg m f (accepted m s)) m.sid).map (·.seqIn) = some m.seq ∧
      (sessOf (runMsg m f (accepted m s)) m.sid).map (·.seqOut) = some (x.seqOut + 1) ∧ ((sessOf (runMsg m f (accepted m s)) m.sid).bind (fun y => keptFor m y)).isSome := by
  have atSess : sessOf (atRun m s) m.sid = some { x with seqIn := m.seq } := (sessOf_congr rfl _).trans (sessOf_accepted h)
  obtain ⟨st, more, b, answer, out, counters, y, record, seqIn, seqOut⟩ := readFrom_answers (q := reqOf m) (key := key) fresh atSess
  rw [← reads] at answer out counters record
  have sess := sessOf_respond fabric record st more b
  have run : runMsg m f (accepted m s) = respond m st more b (f (atRun m s)).1 := runMsg_answers answer
  rw [run]
  refine ⟨st, more, b, ?_, ?_, ?_, ?_, ?_⟩
  · rw [respond_fabric fabric]
    exact congrArg (· ++ _) out
  · rw [respond_fabric fabric]
    exact counters
  · rw [sess]
    exact congrArg some seqIn
  · rw [sess]
    exact congrArg (fun n => some (n + 1)) seqOut
  · rw [sess, Option.bind_some, keptFor_kept]
    rfl

/-! The three requests of a session. -/

theorem msgForm_single {op : Nat} (form : msgForm 3 m) (single : m.count = 0) : msgForm op m = true := by
  simpa [msgForm, single] using form

/-- A READ, WRITE or READ_BLOCK of a session is a message in it. -/
theorem sessionRequest {c : Instr} (hc : c ∈ [Instr.read m, .write m, .readBlock m]) (hr : reachable s) (fabric : m.route = .fabric) (here : forHere s m) (h : sessOf s m.sid = some x)
    (form : msgForm 3 m) (single : m.count = 0) : ∃ f, exec c s = .next (inSession m x f s) := by
  simp only [List.mem_cons, List.not_mem_nil, or_false] at hc
  rcases hc with rfl | rfl | rfl
  · exact ⟨_, by rw [read_fabric hr fabric, message_session fabric here (msgForm_single form single) h]⟩
  · exact ⟨_, by rw [write_fabric hr fabric, message_session fabric here (msgForm_single form single) h]⟩
  · exact ⟨_, by rw [readBlock_heard hr, message_session fabric here form h]⟩

/-- A READ or READ_BLOCK from the first byte reads its value, and touches the dictionary. -/
theorem sessionRead {c : Instr} (hc : c ∈ [Instr.read m, .readBlock m]) (hr : reachable s) (fabric : m.route = .fabric) (here : forHere s m) (h : sessOf s m.sid = some x)
    (form : msgForm 3 m) (single : m.count = 0) (start : m.offset = 0) :
    ∃ f, exec c s = .next (inSession m x f s) ∧ OnlyTouches [.out, .dict] s (inSession m x f s) ∧ ∀ u, ∃ key fresh, f u = readFrom (reqOf m) key 0 fresh u := by
  simp only [List.mem_cons, List.not_mem_nil, or_false] at hc
  rcases hc with rfl | rfl
  · exact ⟨doRead m, by rw [read_fabric hr fabric, message_session fabric here (msgForm_single form single) h],
      inSession_only (fun _ hu => doRead_only hu (by decide)) (.refl _ s) (by decide) (by decide), fun u => ⟨_, _, doRead_start start⟩⟩
  · exact ⟨doReadBlock m, by rw [readBlock_heard hr, message_session fabric here form h],
      inSession_only (fun _ hu => doReadBlock_only hu (by decide)) (.refl _ s) (by decide) (by decide), fun u => ⟨_, _, doReadBlock_start start⟩⟩

end

/-- Settles O11: dropped, answered again, or run: a read by `session_reads`, a write of one segment by `doWrite_whole`. -/
theorem sessionMessagesRunOnceInOrder : Obligations.SessionMessagesRunOnceInOrder := by
  intro s m x hr fabric here named h stands
  refine ⟨fun c hc form single old => ?_, fun c k hc form single tag new kept => ?_, fun c hc form single tag new kept start => ?_, fun form tag new kept start final may room => ?_⟩
  · obtain ⟨f, run⟩ := sessionRequest hc hr fabric here h form single
    rw [run, inSession_dropped stands old]
  · obtain ⟨f, run⟩ := sessionRequest hc hr fabric here h form single
    rw [run, inSession_repeated stands tag new kept]
    have sess := sessOf_respondSeq fabric (sessOf_accepted h) k.status k.more k.answer
    rw [respondSeq_fabric fabric] at sess ⊢
    exact ⟨_, rfl, rfl, rfl, congrArg (Option.map (·.seqIn)) sess, rfl⟩
  · obtain ⟨f, run, only, reads⟩ := sessionRead hc hr fabric here h form single start
    obtain ⟨key, fresh, reads⟩ := reads (atRun m s)
    rw [inSession_runs stands tag new kept] at run only
    obtain ⟨st, more, b, out, counters, seqIn, seqOut, again⟩ := session_reads fabric h reads
    exact ⟨_, st, more, b, run, out, counters, seqIn, seqOut, again, only⟩
  · have whole := doWrite_whole (s := atRun m s) start final ((writable_atRun _ _).trans may) ((lengthLimit_atRun (s := s) _ _).symm ▸ room)
    have atSess : sessOf (atRun m s) m.sid = some { x with seqIn := m.seq } := (sessOf_congr rfl _).trans (sessOf_accepted h)
    refine ⟨unstaged m (atRun m s), ?_, rfl, rfl, congrArg (Option.map (·.seqIn)) (sessOf_unstaged atSess), ?_⟩
    · rw [write_fabric hr fabric, message_session fabric here form h, inSession_runs stands tag new kept, runMsg_answers (congrArg Prod.snd whole)]
      exact congrArg (fun r => Host.Outcome.next (respond m _ _ _ r)) (congrArg Prod.fst whole)
    · exact updSess_only (show OnlyTouches [.dict] s (atRun m s) from rfl) (by decide)

end Sys2Proof.Machine
end

section
/-!
Settles O13: how a session opens and ends (R559 to R563). OPEN_1 and OPEN_3 are messages without a session; the value of each is whole with its last segment (`takeSegment_last`). A session that ends is taken out of the records and its key slot is erased.
-/

namespace Sys2Proof.Machine

section
variable {s : State} {m : DictMsg} {n k : Nat} {x : DSess}

theorem OnlyTouches.dict_eq {gs : List Group} {t : State} (h : OnlyTouches gs s t) (not : Group.dict ∉ gs) : t.dict = s.dict := by
  simpa only [State.hide, if_neg not] using congrArg State.dict h

/-! The end of a session (R562, R563). -/

theorem endSession_sessions : (endSession n s).dict.sessions = s.dict.sessions.filter (fun x => x.sid ≠ n || n = 0) := by
  unfold endSession
  split <;> rfl
theorem endSession_out : (endSession n s).out = s.out := by
  unfold endSession
  split <;> rfl
theorem endSession_erases {i : Nat} (h : sessOf s n = some x) (slot : x.slot = some i) : alGet i (endSession n s).keys.slots = none := by
  unfold endSession
  rw [h, Option.bind_some, slot]
  exact alGet_alDel_self i s.keys.slots
theorem sessOf_endSession (named : n ≠ 0) : sessOf (endSession n s) n = none := by
  rw [sessOf_none, endSession_sessions]
  exact .inr fun x hx => by simpa [named] using (List.mem_filter.mp hx).2
theorem sessOf_endSession_other (other : k ≠ n) : sessOf (endSession n s) k = sessOf s k := by
  unfold sessOf
  rw [endSession_sessions, List.find?_filter]
  congr 1
  funext x
  by_cases mine : x.sid = k
  · simp [mine, other]
  · simp [mine]

/-- What an ended session leaves. -/
theorem endSession_ends (h : sessOf s n = some x) : sessOf (endSession n s) n = none ∧ (∀ i, x.slot = some i → alGet i (endSession n s).keys.slots = none) ∧
    ∀ k, k ≠ n → sessOf (endSession n s) k = sessOf s k :=
  ⟨sessOf_endSession (sessOf_sid h).2, fun _ slot => endSession_erases h slot, fun _ other => sessOf_endSession_other other⟩

theorem sessionIdle_ends (up : s.pow.mgmtUp) (h : sessOf s n = some x) (stands : x.revoked = false) : exec (.sessionIdleTimeout n) s = .next (endSession n s) :=
  need_of (by simp [up, h, stands])

/-- A CLOSE that its session accepts is answered, and the session ends. -/
theorem closeMsg_ends (fabric : m.route = .fabric) (here : forHere s m) (form : msgForm 0x14 m) (h : sessOf s m.sid = some x) (stands : x.revoked = false) (tag : m.tagOk)
    (new : x.seqIn < m.seq) (fresh : keptFor m x = none) : closeMsg m s = endSession m.sid (respond m .done false [] (atRun m s)) := by
  have done : message 0x14 m (fun s => (s, some (if m.sid = 0 then .denied else .done, false, []))) s = respond m .done false [] (atRun m s) := by
    rw [message_session fabric here form h, inSession_runs stands tag new fresh, if_neg (sessOf_sid h).2]
    exact runMsg_answers rfl
  have sess := sessOf_respond fabric (s := atRun m s) ((sessOf_congr rfl _).trans (sessOf_accepted h)) .done false []
  unfold closeMsg
  dsimp only
  rw [done, h, sess]
  exact if_pos new

theorem close_ends (hr : reachable s) (fabric : m.route = .fabric) (here : forHere s m) (form : msgForm 0x14 m) (h : sessOf s m.sid = some x) (stands : x.revoked = false) (tag : m.tagOk)
    (new : x.seqIn < m.seq) (fresh : keptFor m x = none) :
    ∃ t, exec (.sessionClose m) s = .next t ∧ sessOf t m.sid = none ∧ t.out = s.out ++ [.response m.sid m.src m.reqId .done false []] ∧ (∀ i, x.slot = some i → alGet i t.keys.slots = none) ∧
      (∀ n, n ≠ m.sid → sessOf t n = sessOf s n) ∧ OnlyTouches [.out, .keys, .dict] s t := by
  have atSess : sessOf (atRun m s) m.sid = some { x with seqIn := m.seq } := (sessOf_congr rfl _).trans (sessOf_accepted h)
  obtain ⟨gone, erased, others⟩ := endSession_ends (sessOf_respond fabric atSess .done false [])
  refine ⟨_, (heard_of hr).trans (congrArg Host.Outcome.next (closeMsg_ends fabric here form h stands tag new fresh)), gone, ?_, erased, fun n other => ?_, ?_⟩
  · rw [endSession_out, respond_fabric fabric]
    rfl
  · rw [others n other, sessOf_respond_other fabric other]
    exact (sessOf_congr rfl _).trans (sessOf_accepted_other other)
  · exact endSession_only (respond_only (show OnlyTouches [.out, .keys, .dict] s (atRun m s) from rfl) (by decide) (by decide)) (by decide) (by decide)

/-! OPEN_1 (R559, R561). -/

/-- OPEN_2 names the opening that it has made. -/
theorem offerSession_offers (fabric : m.route = .fabric) (role part : Nat) (b : Bytes) : ∃ o nonce pub sig, (offerSession m role part b s).dict.openings = o :: s.dict.openings ∧
    (offerSession m role part b s).out = s.out ++ [.open2 m.src o.sid nonce pub sig] ∧ o.src = m.src ∧ o.role = role ∧ o.part = partOf part := by
  unfold offerSession
  simp only [sbFrame_fabric fabric]
  exact ⟨_, _, _, _, rfl, rfl, rfl, rfl, rfl⟩

theorem doOpen1_offers (start : m.offset = 0) (final : m.flags = 1) (size : m.data.length = 34) (may : open1Ok s m.route (leNat (m.data.take 1)) (leNat (slice m.data 1 1))) :
    doOpen1 m s = (offerSession m (leNat (m.data.take 1)) (leNat (slice m.data 1 1)) m.data (updSess (openerOf m) (fun x => { x with staged := alDel (2 ^ 24 + 0x10) x.staged }) s), none) := by
  unfold doOpen1
  rw [takeSegment_whole start (by omega) final]
  exact if_pos ⟨size, may⟩

theorem open1_offers (hr : reachable s) (here : forHere s m) (fabric : m.route = .fabric) (form : msgForm 0x10 { m with sid := 0 }) (start : m.offset = 0) (final : m.flags = 1)
    (size : m.data.length = 34) (may : open1Ok s m.route (leNat (m.data.take 1)) (leNat (slice m.data 1 1))) :
    ∃ t o nonce pub sig, exec (.open1 m) s = .next t ∧ t.out = s.out ++ [.open2 m.src o.sid nonce pub sig] ∧ t.dict.openings = o :: s.dict.openings ∧ o.src = m.src ∧
      o.role = leNat (m.data.take 1) ∧ o.part = partOf (leNat (slice m.data 1 1)) ∧ OnlyTouches [.out, .free, .dict] s t := by
  have offers := doOpen1_offers (s := counted s) (m := { m with sid := 0 }) start final size may
  have run : message 0x10 { m with sid := 0 } (doOpen1 { m with sid := 0 }) s = (doOpen1 { m with sid := 0 } (counted s)).1 :=
    (message_sessionless (m := { m with sid := 0 }) fabric here form rfl).trans (runMsg_silent (congrArg Prod.snd offers))
  have only : OnlyTouches [.out, .free, .dict] s (doOpen1 { m with sid := 0 } (counted s)).1 :=
    doOpen1_only (show OnlyTouches [.out, .free, .dict] s (counted s) from rfl) (by decide) (by decide) (by decide)
  obtain ⟨o, nonce, pub, sig, openings, out, src, role, part⟩ :=
    offerSession_offers (m := { m with sid := 0 }) (s := updSess (openerOf m) (fun x => { x with staged := alDel (2 ^ 24 + 0x10) x.staged }) (counted s)) fabric (leNat (m.data.take 1)) (leNat (slice m.data 1 1)) m.data
  refine ⟨_, o, nonce, pub, sig, (heard_of hr).trans (congrArg Host.Outcome.next run), ?_, ?_, src, role, part, only⟩
  · exact (congrArg (fun r => r.1.out) offers).trans out
  · exact (congrArg (fun r => r.1.dict.openings) offers).trans openings

/-! OPEN_3 (R559 to R561). -/

/-- A started session is the first of the records; nothing else of the dictionary changes. -/
theorem startSession_starts (m : DictMsg) (o : Opening) (r : Proof3) (ct d : Bytes) (s : State) : ∃ y : DSess, (startSession m o r ct d s).dict = { s.dict with sessions := y :: s.dict.sessions } ∧
    (startSession m o r ct d s).out = s.out ∧ y.sid = o.sid ∧ y.role = r.role ∧ y.bound = r.bound ∧ y.part = o.part := by
  unfold startSession
  dsimp only
  have only : OnlyTouches [.free, .keys] s (sessSlot r o (Config.kmac256 (Config.kemDecaps o.kemSeed ct ++ r.root) (digestBytes (o.transcript ++ ct ++ d)) 512 sessCtx) s).1 :=
    sessSlot_only (.refl _ s) (by decide) (by decide)
  rw [only.dict_eq (by decide), only.out_eq (by decide)]
  exact ⟨_, rfl, rfl, rfl, rfl, rfl, rfl⟩

/-- The opening is used up (R560). -/
def usedUp (o : Opening) (s : State) : State := { s with dict := { s.dict with openings := s.dict.openings.filter (fun x => x.sid ≠ o.sid) } }

/-- What a whole OPEN_3 proves. -/
def proved (m : DictMsg) (o : Opening) (b : Bytes) (s : State) : Proof3 := proofOf (usedUp o s) m.route o (b.take 1568) (b.drop 1568)
/-- The session that a whole OPEN_3 starts. -/
def started (m : DictMsg) (o : Opening) (b : Bytes) (s : State) : State := startSession m o (proved m o b s) (b.take 1568) (b.drop 1568) (usedUp o s)

theorem decideOpen_eq (m : DictMsg) (o : Opening) (b : Bytes) (s : State) : decideOpen m o b s =
    if b.length < 1568 ∨ !(proved m o b s).ok ∨ !hearsOpens (usedUp o s) o.role then (openFailed (usedUp o s), some (.denied, false, []))
    else if !sessRoom (usedUp o s) (proved m o b s) o.part then (openFailed (usedUp o s), some (.quota, false, []))
    else (started m o b s, some (.done, false, [])) := rfl

theorem started_starts (m : DictMsg) (o : Opening) (b : Bytes) (s : State) : ∃ y : DSess, (started m o b s).dict.sessions = y :: s.dict.sessions ∧
    (started m o b s).dict.openings = s.dict.openings.filter (fun x => x.sid ≠ o.sid) ∧ (started m o b s).out = s.out ∧
    y.sid = o.sid ∧ y.role = (proved m o b s).role ∧ y.bound = (proved m o b s).bound ∧ y.part = o.part := by
  obtain ⟨y, dict, out, who⟩ := startSession_starts m o (proved m o b s) (b.take 1568) (b.drop 1568) (usedUp o s)
  exact ⟨y, congrArg Dict.sessions dict, congrArg Dict.openings dict, out, who⟩

/-- A whole OPEN_3 is answered and uses its opening up; it starts a session exactly where it is DONE. -/
theorem decideOpen_cases (m : DictMsg) (o : Opening) (b : Bytes) (s : State) : ∃ st, (decideOpen m o b s).2 = some (st, false, []) ∧ (decideOpen m o b s).1.out = s.out ∧
    (decideOpen m o b s).1.dict.openings = s.dict.openings.filter (fun x => x.sid ≠ o.sid) ∧
    ((st ≠ .done ∧ (decideOpen m o b s).1.dict.sessions = s.dict.sessions) ∨ (st = .done ∧ ∃ y, (decideOpen m o b s).1.dict.sessions = y :: s.dict.sessions ∧ y.sid = o.sid)) := by
  rw [decideOpen_eq]
  split
  · exact ⟨_, rfl, rfl, rfl, .inl ⟨by decide, rfl⟩⟩
  split
  · exact ⟨_, rfl, rfl, rfl, .inl ⟨by decide, rfl⟩⟩
  · obtain ⟨y, sessions, openings, out, sid, -⟩ := started_starts m o b s
    exact ⟨_, rfl, out, openings, .inr ⟨rfl, y, sessions, sid⟩⟩

/-- The first session of a partition that is CREATED and not yet keyed needs no proof (R561). -/
theorem decideOpen_unbound {o : Opening} {b : Bytes} {p : PartId} (role : o.role = 4) (part : o.part = some p) (created : s.parts[p].state = .created) (size : b.length = 1568)
    (hears : hearsOpens s 4) (first : liveSess s (fun y => y.role = .tenant && !y.bound && y.part = some p) = 0) :
    (decideOpen m o b s).2 = some (.done, false, []) ∧ ∃ y, (decideOpen m o b s).1.dict.sessions = y :: s.dict.sessions ∧ y.sid = o.sid ∧ y.role = .tenant ∧ y.bound = false ∧ y.part = some p := by
  have rest : b.drop 1568 = [] := List.drop_eq_nil_of_le size.le
  have proof : proved m o b s = { ok := true, role := .tenant, bound := false, key := [], root := zeros 32, epoch := 0, parent := 0x1FFF } := by
    have state : (usedUp o s).parts[p].state = .created := created
    simp only [proved, proofOf, role, part, state, rest]
    simp
  have heard : hearsOpens (usedUp o s) o.role = true := by rw [role]; exact hears
  have room : sessRoom (usedUp o s) (proved m o b s) o.part = true := by
    rw [part, proof]
    exact decide_eq_true (first ▸ Nat.one_pos)
  have run : decideOpen m o b s = (started m o b s, some (.done, false, [])) := by
    rw [decideOpen_eq, if_neg (by simp [size, proof, heard]), if_neg (by simp [room])]
  obtain ⟨y, sessions, -, -, sid, yrole, bound, ypart⟩ := started_starts m o b s
  rw [proof] at yrole bound
  rw [run]
  exact ⟨rfl, y, sessions, sid, yrole, bound, ypart.trans part⟩

/-- An OPEN_3's value is no longer staged. -/
def unstage (m : DictMsg) (x : DSess) : DSess := if x.isOf (openerOf m) then { x with staged := alDel (2 ^ 24 + 0x12) x.staged } else x

theorem unstage_keepsAccess (m : DictMsg) : KeepsAccess (unstage m) := by
  constructor <;> intro x <;> exact (apply_ite _ _ _ _).trans (ite_self _)

/-- The state in which a whole OPEN_3 is decided. -/
def heardOut (m : DictMsg) (s : State) : State := updSess (openerOf m) (fun x => { x with staged := alDel (2 ^ 24 + 0x12) x.staged }) (counted s)

theorem heardOut_sessions (h : findSess s (openerOf m) = some x) : (heardOut m s).dict.sessions = s.dict.sessions.map (unstage m) := by
  have counts : findSess (counted s) (openerOf m) = some x := h
  unfold heardOut updSess
  rw [counts]
  rfl
theorem liveSess_map {t : State} {g : DSess → DSess} {f : DSess → Bool} (acc : KeepsAccess g) (sees : ∀ x, f (g x) = f x) (sessions : t.dict.sessions = s.dict.sessions.map g) :
    liveSess t f = liveSess s f := by
  unfold liveSess
  rw [sessions, List.filter_map, List.length_map]
  congr 2
  funext x
  simp only [Function.comp, acc.sid, acc.revoked, sees]

variable {o : Opening} {b : Bytes}

theorem doOpen3_whole (opening : openingOf s m = some o) (h : findSess s (openerOf m) = some x) (staged : alGet (2 ^ 24 + 0x12) x.staged = some b) (some' : b ≠ []) (next : m.offset = b.length)
    (final : m.flags = 1) (room : b.length + m.data.length ≤ 8787) : doOpen3 m (counted s) = decideOpen m o (b ++ m.data) (heardOut m s) := by
  have counts : openingOf (counted s) m = some o := opening
  have held : (findSess (counted s) (openerOf m)).bind (fun x => alGet (2 ^ 24 + 0x12) x.staged) = some b := (congrArg (Option.bind · _) h).trans staged
  have later : m.offset ≠ 0 := by rw [next]; exact List.length_pos_iff.mpr some' |>.ne'
  unfold doOpen3
  rw [counts]
  dsimp only
  rw [takeSegment_last ((if_neg later).trans held) next room final]
  rfl

/-- OPEN_3 is a message without a session, and its answer is outside of any. -/
theorem open3_answers {st : Status} (hr : reachable s) (fabric : m.route = .fabric) (here : forHere s m) (form : msgForm 0x12 { m with sid := 0, seq := 0 })
    (answer : (doOpen3 m (counted s)).2 = some (st, false, [])) : exec (.open3 m) s = .next ((doOpen3 m (counted s)).1.emit [.response 0 m.src m.reqId st false []]) := by
  refine (heard_of hr).trans (congrArg Host.Outcome.next ?_)
  exact (message_sessionless (m := { m with sid := 0, seq := 0 }) fabric here form rfl).trans ((runMsg_answers answer).trans (respond_sessionless (m := { m with sid := 0, seq := 0 }) fabric rfl _ _ _))

theorem open3_decides (hr : reachable s) (fabric : m.route = .fabric) (here : forHere s m) (named : o.sid ≠ 0) (opening : openingOf s m = some o) (free : ∀ y ∈ s.dict.sessions, y.sid ≠ o.sid)
    (form : msgForm 0x12 { m with sid := 0, seq := 0 }) (h : findSess s (openerOf m) = some x) (staged : alGet (2 ^ 24 + 0x12) x.staged = some b) (some' : b ≠ []) (next : m.offset = b.length)
    (final : m.flags = 1) (room : b.length + m.data.length ≤ 8787) :
    ∃ t st, exec (.open3 m) s = .next t ∧ t.out = s.out ++ [.response 0 m.src m.reqId st false []] ∧ (∀ y ∈ t.dict.openings, y.sid ≠ o.sid) ∧ (sessOf t o.sid).isSome = decide (st = .done) ∧
      OnlyTouches [.out, .free, .keys, .dict] s t ∧
      (∀ p, o.role = 4 → o.part = some p → s.parts[p].state = .created → b.length + m.data.length = 1568 → hearsOpens s 4 → liveSess s (fun y => y.role = .tenant && !y.bound && y.part = some p) = 0 →
        st = .done ∧ ∃ y, sessOf t o.sid = some y ∧ y.role = .tenant ∧ y.bound = false ∧ y.part = some p) := by
  have whole := doOpen3_whole opening h staged some' next final room
  have only : OnlyTouches [.out, .free, .keys, .dict] s (doOpen3 m (counted s)).1 :=
    doOpen3_only (show OnlyTouches [.out, .free, .keys, .dict] s (counted s) from rfl) (by decide) (by decide) (by decide)
  have absent : sessOf (heardOut m s) o.sid = none := by
    rw [sessOf_map (heardOut_sessions h) (unstage_keepsAccess m).sid, sessOf_none.mpr (.inr free)]
    rfl
  have first {u : State} {y : DSess} (sessions : u.dict.sessions = y :: (heardOut m s).dict.sessions) (sid : y.sid = o.sid) : sessOf u o.sid = some y := by
    rw [sessOf, sessions]
    exact List.find?_cons_of_pos (by simp [sid, named])
  obtain ⟨st, answer, out, openings, outcome⟩ := decideOpen_cases m o (b ++ m.data) (heardOut m s)
  refine ⟨_, st, open3_answers hr fabric here form ((congrArg Prod.snd whole).trans answer), ?_, ?_, ?_, State_emit_only only (by decide), ?_⟩
  · rw [whole, emit_out, out]
    rfl
  · rw [whole]
    intro y hy
    have used : y ∈ (decideOpen m o (b ++ m.data) (heardOut m s)).1.dict.openings := hy
    rw [openings] at used
    exact of_decide_eq_true (List.mem_filter.mp used).2
  · rw [whole]
    rcases outcome with ⟨refused, sessions⟩ | ⟨done, y, sessions, sid⟩
    · rw [decide_eq_false refused]
      exact congrArg Option.isSome ((sessOf_congr sessions _).trans absent)
    · rw [decide_eq_true done]
      exact congrArg Option.isSome (first sessions sid)
  · intro p role part created size hears none'
    have live : liveSess (heardOut m s) (fun y => y.role = .tenant && !y.bound && y.part = some p) = 0 :=
      (liveSess_map (unstage_keepsAccess m) (fun x => by simp only [(unstage_keepsAccess m).role, (unstage_keepsAccess m).bound, (unstage_keepsAccess m).part]) (heardOut_sessions h)).trans none'
    obtain ⟨done, y, sessions, sid, tenant, unbound, ypart⟩ := decideOpen_unbound (s := heardOut m s) (m := m) (b := b ++ m.data) role part created (by rw [List.length_append]; exact size) hears live
    rw [answer] at done
    refine ⟨congrArg Prod.fst (Option.some.inj done), y, ?_, tenant, unbound, ypart⟩
    rw [whole]
    exact first sessions sid

end

/-- Settles O13: an opening is offered (`open1_offers`) and decided (`open3_decides`); a session ends by CLOSE (`close_ends`) or silence (`endSession_ends`). -/
theorem sessionsOpenProveAndEnd : Obligations.SessionsOpenProveAndEnd := by
  refine ⟨fun s m hr here => ⟨?_, fun x fabric named h stands form tag new fresh => close_ends hr fabric here form h stands tag new fresh, fun sid x named h stands => ?_, fun q n x b h staged => ?_⟩,
    fun s m o x b hr fabric here _ named opening free form h staged some' next final room => open3_decides hr fabric here named opening free form h staged some' next final room⟩
  · rintro _ _ fabric form start final size rfl rfl may
    exact open1_offers hr here fabric form start final size may
  · have up : s.pow.mgmtUp = true := by
      simp only [reachable, Bool.and_eq_true] at hr
      exact hr.1.1
    obtain ⟨gone, erased, others⟩ := endSession_ends h
    exact ⟨_, sessionIdle_ends up h stands, gone, erased, others, endSession_only (.refl _ s) (by decide) (by decide)⟩
  · refine ⟨_, _, need_of (by simp [hr, h, staged]), findSess_updSess _ (fun _ => rfl) h, alGet_alDel_self n x.staged, rfl, updSess_only (.refl _ s) (by decide)⟩

end Sys2Proof.Machine
end

section
/-!
Settles O51: both ends of a recovery fetch (R596 to R598). A message over a strait counts no sideband frame, so each of them is its own function on the state as it stands.
-/

namespace Sys2Proof.Machine

section
variable {s : State} {k : StraitId} {id : BitVec 64}

theorem recoveryOffer_heard {seg : Nat} {ct : Bytes} {n : Nat} (up : s.pow.mgmtUp = true) (carried : heardOver s (some k) = true) :
    exec (.recoveryOffer (some k) id seg ct n) s = .next (takeOffer (some k) id seg ct n s) := heard_of (Bool.and_eq_true_iff.mpr ⟨up, carried⟩)
theorem hear_strait : s.hear (some k) = s := rfl

/-! The server (R598). -/

section
variable (up : s.pow.mgmtUp = true) (carried : heardOver s (some k) = true) (gives : serves s (some k) = true)

include up carried gives in
theorem recoveryRequest_served {seg : Nat} {key : Bytes} : exec (.recoveryRequest (some k) id seg key) s = .next (serveRequest (some k) id seg key s) :=
  (heard_of (Bool.and_eq_true_iff.mpr ⟨up, carried⟩)).trans (congrArg Host.Outcome.next (if_pos gives))
include up gives in
theorem recoveryResume_served {off : Nat} {v : ServeRun} (h : s.fw.serve = some v) (mine : v.fetchId = id) (strait : v.strait = some k) :
    exec (.recoveryResume id off) s = .next (s.emit (dataFrom v (s.fw.running.getD []) off)) := by
  refine (heard_of up).trans (congrArg Host.Outcome.next ?_)
  rw [h]
  dsimp only
  rw [strait, hear_strait]
  unfold serveResume
  rw [h]
  dsimp only
  rw [if_pos ⟨mine, strait ▸ gives⟩, strait]
  rfl

end

/-- Whose key is awaited, another's REQUEST finds it busy (R598). -/
theorem serveRequest_busy {seg : Nat} {key : Bytes} {v : ServeRun} (h : s.fw.serve = some v) (other : v.fetchId ≠ id) (waits : v.secret = none) :
    serveRequest (some k) id seg key s = s.emit [.recovery (some k) 5 id 0 0 []] := by
  unfold serveRequest
  rw [h]
  exact if_pos (by simp [waits, other])
/-- The server is not busy for its own fetch, nor once it has answered. -/
theorem serveRequest_first {key : Bytes} (idle : ∀ v, s.fw.serve = some v → v.secret.isSome ∨ v.fetchId = id) :
    serveRequest (some k) id 0 key s = { s with fw := { s.fw with serve := some { fetchId := id, strait := some k, key := key, secret := none, sent := 0 } } } := by
  unfold serveRequest
  cases h : s.fw.serve with
  | none => rfl
  | some v =>
    refine if_neg ?_
    rcases idle v h with answered | mine
    · simp [Option.isSome_iff_ne_none.mp answered]
    · simp [mine]
/-- With the second segment of its key, the OFFER and the whole image go out. -/
theorem serveRequest_second {key : Bytes} {v : ServeRun} (h : s.fw.serve = some v) (mine : v.fetchId = id) (waits : v.secret = none) : ∃ t a b w,
    serveRequest (some k) id 1 key s = t ∧ t.fw.serve = some w ∧ w.secret.isSome ∧ w.key = v.key ++ key ∧ w.sent = (s.fw.running.getD []).length ∧
    t.out = s.out ++ [.recovery (some k) 2 id 0 (s.fw.running.getD []).length a, .recovery (some k) 2 id 1 (s.fw.running.getD []).length b] ++ dataFrom w (s.fw.running.getD []) 0 ∧
    OnlyTouches [.out, .free, .fw] s t := by
  unfold serveRequest
  rw [h]
  dsimp only
  rw [if_neg (by simp [mine]), if_neg Nat.one_ne_zero, if_neg (by simp [mine, waits])]
  exact ⟨_, _, _, _, rfl, rfl, rfl, rfl, rfl, (List.append_assoc ..).symm, rfl⟩

/-! The requester (R596, R597). -/

section
variable {f : FetchRun} (h : s.fw.fetch = some f)
include h

theorem takeOffer_first {ct : Bytes} {n : Nat} (strait : f.strait = some k) (none' : f.ct = []) (size : ct.length = 1024) :
    takeOffer (some k) f.fetchId 0 ct n s = { s with fw := { s.fw with fetch := some { f with ct := ct } } } := by
  unfold takeOffer
  rw [h]
  dsimp only
  rw [if_neg (by simp [strait]), if_pos ⟨rfl, none', size⟩]
theorem takeOffer_second {ct : Bytes} {n : Nat} (strait : f.strait = some k) (first : f.ct.length = 1024) :
    takeOffer (some k) f.fetchId 1 ct n s = { s with fw := { s.fw with fetch := some { f with ct := f.ct ++ ct, total := some n } } } := by
  unfold takeOffer
  rw [h]
  dsimp only
  rw [if_neg (by simp [strait]), if_neg (by simp), if_pos ⟨rfl, first⟩]


section
variable {n off : Nat} {ct tag b : Bytes} (total : f.total = some n)
include total

/-- A DATA message whose tag fails is dropped. -/
theorem takeImage_dropped (fails : Config.gcmOpen (dataKey (Config.kemDecaps f.kemSeed f.ct) f.fetchId) off [] ct tag = none) : takeImage f.fetchId off ct tag s = s := by
  unfold takeImage
  rw [h]
  dsimp only
  rw [total]
  dsimp only
  rw [if_neg (not_not.mpr rfl), fails]
/-- Data that pass their check are taken in order, and a gap is asked for. -/
theorem takeImage_passed (passes : Config.gcmOpen (dataKey (Config.kemDecaps f.kemSeed f.ct) f.fetchId) off [] ct tag = some b) : takeImage f.fetchId off ct tag s =
    if off = f.data.length then
      (if ((f.data ++ b).take n).length = n then imageCome { f with data := (f.data ++ b).take n } { s with fw := { s.fw with fetch := some { f with data := (f.data ++ b).take n } } }
      else { s with fw := { s.fw with fetch := some { f with data := (f.data ++ b).take n } } })
    else if f.data.length < off then s.emitOver f.strait [.recovery f.strait 4 f.fetchId 0 f.data.length []]
    else s := by
  unfold takeImage
  rw [h]
  dsimp only
  rw [total]
  dsimp only
  rw [if_neg (not_not.mpr rfl), passes]

end

theorem recoveryData_takes (strait : f.strait = some k) (waits : fetching s = true) {off : Nat} {ct tag : Bytes} : exec (.recoveryData f.fetchId off ct tag) s = .next (takeImage f.fetchId off ct tag s) := by
  have up : s.pow.mgmtUp = true := (Bool.and_eq_true_iff.mp waits).2
  refine (heard_of up).trans (congrArg Host.Outcome.next ?_)
  rw [h]
  dsimp only
  rw [strait, hear_strait]
  exact if_pos waits

end

/-! A fetch begins again (R596). -/

/-- The state after the draws of a fetch's key and ID. -/
def drawn (s : State) : State := s.entropy.2.entropy.2.entropy.2
/-- The fetch that begins on a strait, or over the sideband. -/
def freshFetch (k : Option StraitId) (s : State) : FetchRun :=
  { fetchId := BitVec.ofNat 64 (leNat s.entropy.2.entropy.2.entropy.1), kemSeed := s.entropy.1 ++ s.entropy.2.entropy.1, strait := k }
def fetchBegun (k : Option StraitId) (s : State) : State := { drawn s with fw := { s.fw with fetch := some (freshFetch k s) } }

/-- On a strait that is not up the fetch trains it first. -/
theorem fetchOn_trains (down : s.fab.straits[k].link ≠ .up) : ∃ t g, fetchOn (some k) s = t ∧ t.fw.fetch = some g ∧ g.strait = some k ∧ g.data = [] ∧ g.total = none ∧
    t.fab.straits[k].link = .training ∧ OnlyTouches [.free, .fab, .fw] s t := by
  have run : fetchOn (some k) s = beginTraining k (fetchBegun (some k) s) := if_neg down
  rw [run]
  exact ⟨_, freshFetch (some k) s, rfl, rfl, rfl, rfl, rfl, congrArg Strait.link (modVec_self ..), rfl⟩
/-- Over the sideband its REQUEST goes out at once. -/
theorem fetchOn_sideband : ∃ t g, fetchOn none s = t ∧ t.fw.fetch = some g ∧ g.strait = none ∧ g.data = [] ∧ g.total = none ∧ OnlyTouches [.out, .free, .dict, .fw] s t :=
  ⟨askImage (freshFetch none s) (fetchBegun none s), freshFetch none s, rfl, rfl, rfl, rfl, rfl, rfl⟩

theorem straitTimeout_next {f : FetchRun} (h : s.fw.fetch = some f) (strait : f.strait = some k) (waits : fetching s = true) :
    exec .recoveryStraitTimeout s = .next (fetchOn (fabricFrom s (k.val + 1)) s) := by
  have on : s.fw.fetch.bind (·.strait) = some k := by rw [h]; exact strait
  change execRecoveryStraitTimeout s = _
  unfold execRecoveryStraitTimeout
  rw [on]
  exact need_of waits
theorem recoveryRestart_fetches {f : FetchRun} (h : s.fw.fetch = some f) (waits : fetching s = true) (hub : hubUp s = true) : exec .recoveryRestart s = .next (fetchOn (fabricFrom s 0) s) := by
  have hubOn : s.pow.domains[4] = .up := of_decide_eq_true hub
  refine (need_of (Bool.and_eq_true_iff.mpr ⟨waits, by rw [h]; rfl⟩)).trans (congrArg Host.Outcome.next ?_)
  unfold restartFetch startFetch
  rw [if_neg (by simp [hubOn]), if_pos hub]

end

theorem recovery_isServed (s : State) (k : StraitId) (id : BitVec 64) (up : s.pow.mgmtUp) (carried : heardOver s (some k)) (gives : serves s (some k)) :
    (∀ key : Bytes, (∀ v, s.fw.serve = some v → v.secret.isSome ∨ v.fetchId = id) →
      exec (.recoveryRequest (some k) id 0 key) s = .next { s with fw := { s.fw with serve := some { fetchId := id, strait := some k, key := key, secret := none, sent := 0 } } }) ∧
    (∀ (key : Bytes) (v : ServeRun), s.fw.serve = some v → v.fetchId = id → v.secret = none →
      ∃ t a b w, exec (.recoveryRequest (some k) id 1 key) s = .next t ∧ t.fw.serve = some w ∧ w.secret.isSome ∧ w.key = v.key ++ key ∧ w.sent = (s.fw.running.getD []).length ∧
        t.out = s.out ++ [.recovery (some k) 2 id 0 (s.fw.running.getD []).length a, .recovery (some k) 2 id 1 (s.fw.running.getD []).length b] ++ dataFrom w (s.fw.running.getD []) 0 ∧
        OnlyTouches [.out, .free, .fw] s t) ∧
    (∀ (key : Bytes) (v : ServeRun), s.fw.serve = some v → v.fetchId ≠ id → v.secret = none →
      exec (.recoveryRequest (some k) id 0 key) s = .next (s.emit [.recovery (some k) 5 id 0 0 []])) ∧
    (∀ (off : Nat) (v : ServeRun), s.fw.serve = some v → v.fetchId = id → v.strait = some k →
      exec (.recoveryResume id off) s = .next (s.emit (dataFrom v (s.fw.running.getD []) off))) := by
  refine ⟨fun key idle => ?_, fun key v h mine waits => ?_, fun key v h other waits => ?_, fun off v h mine strait => recoveryResume_served up gives h mine strait⟩
  · rw [recoveryRequest_served up carried gives, serveRequest_first idle]
  · obtain ⟨t, a, b, w, run, rest⟩ := serveRequest_second (k := k) (key := key) h mine waits
    exact ⟨t, a, b, w, by rw [recoveryRequest_served up carried gives, run], rest⟩
  · rw [recoveryRequest_served up carried gives, serveRequest_busy h other waits]

/-- Settles O51: the server's part, and the requester's by its fetch. -/
theorem recoveryIsServedAndFetched : Obligations.RecoveryIsServedAndFetched := by
  refine ⟨recovery_isServed, fun s f k h strait waits hub => ?_⟩
  have up : s.pow.mgmtUp = true := (Bool.and_eq_true_iff.mp waits).2
  refine ⟨fun linked => ?_, ?_, fun n total => ?_, fun n off ct tag total => ?_, fun k' next down => ?_, fun last => ?_, fun last => ?_⟩
  · have carried : heardOver s (some k) = true := Bool.and_eq_true_iff.mpr ⟨hub, decide_eq_true linked⟩
    exact ⟨fun ct n none' size => by rw [recoveryOffer_heard up carried, takeOffer_first h strait none' size], fun ct n first => by rw [recoveryOffer_heard up carried, takeOffer_second h strait first]⟩
  · refine (heard_of up).trans (congrArg Host.Outcome.next ?_)
    rw [h]
    dsimp only
    rw [strait, hear_strait]
  · change execRecoveryDataGap s = _
    unfold execRecoveryDataGap
    rw [h]
    dsimp only
    rw [need_of (Bool.and_eq_true_iff.mpr ⟨waits, by rw [total]; rfl⟩), strait]
    rfl
  · refine ⟨_, recoveryData_takes h strait waits, ?_⟩
    split
    · next fails => exact takeImage_dropped h total fails
    · next b passes =>
      rw [takeImage_passed h total passes]
      refine ⟨fun inOrder more => ?_, fun gap => ?_, fun old => ?_⟩
      · have size : (f.data ++ b).length < n := by rwa [List.length_append]
        rw [if_pos inOrder, List.take_of_length_le size.le, if_neg size.ne]
      · rw [if_neg gap.ne', if_pos gap, strait]
        rfl
      · rw [if_neg old.ne, if_neg old.not_gt]
  · obtain ⟨t, g, run, rest⟩ := fetchOn_trains down
    exact ⟨t, g, by rw [straitTimeout_next h strait waits, next, run], rest⟩
  · obtain ⟨t, g, run, rest⟩ := fetchOn_sideband (s := s)
    exact ⟨t, g, by rw [straitTimeout_next h strait waits, last, run], rest⟩
  · obtain ⟨t, g, run, rest⟩ := fetchOn_sideband (s := s)
    exact ⟨t, g, by rw [recoveryRestart_fetches h waits hub, last, run], rest⟩

end Sys2Proof.Machine
end

section
/-!
The records of the units and their history (R483, R498, R499), and O52: the in-field test, retirement, SUSPECT, the errors of the two memories and the temperatures. An entry in the history changes no unit, and a change of one unit is seen at that unit alone.
-/

namespace Sys2Proof.Machine

section
variable {r : Ras} {u v : Nat} {x : PUnit} {a : Nat}

/-! One unit (R483). -/

@[simp] theorem unit_setUnit_self (u : Nat) (x : PUnit) (r : Ras) : (r.setUnit u x).unit u = x := by rw [Ras.unit, Ras.setUnit, alGet_alSet_self, Option.getD_some]
theorem unit_setUnit_other (x : PUnit) (r : Ras) (other : v ≠ u) : (r.setUnit u x).unit v = r.unit v := by
  rw [Ras.unit, Ras.setUnit, alGet_alSet_other _ _ _ _ other, ← Ras.unit]
@[simp] theorem unit_enter (f w e d v : Nat) (r : Ras) : (r.enter f w e d).unit v = r.unit v := rfl

/-- The CHECKER that follows its ARRAY leaves every other unit. -/
theorem unit_pairState_other (st : UnitState) (r : Ras) (other : v ≠ 0x2000 + unitIndex u) : (r.pairState u st).unit v = r.unit v := by
  unfold Ras.pairState
  dsimp only
  split
  · rfl
  · exact unit_setUnit_other _ _ other
/-- A unit that is in the state already stays as it is. -/
theorem unit_pairState_same {st : UnitState} (h : (r.unit v).state = st) : (r.pairState u st).unit v = r.unit v := by
  by_cases pair : v = 0x2000 + unitIndex u
  · unfold Ras.pairState
    dsimp only
    split
    · rfl
    · rw [pair, unit_setUnit_self, ← pair, ← h]
  · exact unit_pairState_other st r pair
@[simp] theorem out_pairState (u : Nat) (st : UnitState) (r : Ras) : (r.pairState u st).out = r.out := (apply_ite Ras.out _ _ _).trans (ite_self _)

/-! Free spares (R510). -/

/-- A list of units with a test that a unit's new record fails holds it no longer. -/
theorem filter_alSet_of_not {p : Nat × PUnit → Bool} (fails : p (u, x) = false) (l : List (Nat × PUnit)) (absent : ∀ y, (u, y) ∈ l → p (u, y) = false) :
    (alSet u x l).filter p = l.filter p := by
  induction l with
  | nil => simp [alSet, fails]
  | cons y l ih =>
    obtain ⟨v, y⟩ := y
    have rest := ih fun z hz => absent z (List.mem_cons_of_mem _ hz)
    unfold alSet
    split
    · simp [fails]
    split
    · next same =>
      subst same
      rw [List.filter_cons_of_neg (by simp [fails]), List.filter_cons_of_neg (by simp [absent y List.mem_cons_self])]
    · rw [List.filter_cons, List.filter_cons, rest]

/-- A unit that is no free spare, and becomes none, leaves the free spares as they are. -/
theorem spares_setUnit {die : Nat} {busy : List Nat} (notSpare : x.state ≠ .spare) (absent : u ∉ r.spares die busy) : (r.setUnit u x).spares die busy = r.spares die busy := by
  refine congrArg (List.map Prod.fst) (filter_alSet_of_not (by simp [notSpare]) r.units fun y hy => ?_)
  rw [Bool.eq_false_iff]
  exact fun passes => absent (List.mem_map.mpr ⟨(u, y), List.mem_filter.mpr ⟨hy, passes⟩, rfl⟩)

end

/-! The in-field test (R496, R497). -/

section
variable {s : State} {u : BitVec 16}

section
variable (tested : (s.ras.unit u.toNat).state = .underTest) (stays : (s.ras.unit u.toNat).leaving = false) (sound : (s.ras.unit u.toNat).permanent = false)
include tested stays sound

theorem testComplete_array (array : unitKind u.toNat ≠ 2) (r : TestResult) : exec (.testComplete u r) s = .next (testDone u.toNat r s) :=
  (need_of (by simp [tested, stays, sound])).trans (congrArg Host.Outcome.next (if_neg array))
theorem testComplete_checkerPasses (checker : unitKind u.toNat = 2) : exec (.testComplete u .pass) s = .next { s with ras := s.ras.enter (frameNow s) u.toNat 3 0 } :=
  (need_of (by simp [tested, stays, sound])).trans (congrArg Host.Outcome.next (if_pos checker))
theorem testComplete_checkerFails (checker : unitKind u.toNat = 2) {r : TestResult} (fails : r ≠ .pass) : exec (.testComplete u r) s = .next (checkerFailed u.toNat s) := by
  refine (need_of (by simp [tested, stays, sound])).trans (congrArg Host.Outcome.next ((if_pos checker).trans ?_))
  cases r with
  | pass => exact absurd rfl fails
  | failReproduced => rfl
  | failRepairable row => rfl

end

theorem testDone_repairs (first : (s.ras.unit u.toNat).retest = false) (rows : (s.ras.unit u.toNat).rowsUsed < 4) :
    (testDone u.toNat (.failRepairable true) s).ras.unit u.toNat = { s.ras.unit u.toNat with rowsUsed := (s.ras.unit u.toNat).rowsUsed + 1, retest := true } ∧
    (testDone u.toNat (.failRepairable true) s).ras.lineRepairs = s.ras.lineRepairs + 1 ∧ ∀ v, v ≠ u.toNat → (testDone u.toNat (.failRepairable true) s).ras.unit v = s.ras.unit v := by
  have fits : ¬((s.ras.unit u.toNat).retest ∨ if true then 4 ≤ (s.ras.unit u.toNat).rowsUsed else 4 ≤ (s.ras.unit u.toNat).colsUsed) := by simp [first, rows]
  unfold testDone
  dsimp only
  rw [if_neg fits]
  exact ⟨unit_setUnit_self .., rfl, fun v other => unit_setUnit_other _ _ other⟩

/-- What a test's outcome leaves of the unit and of the others. -/
theorem test_completes (tested : (s.ras.unit u.toNat).state = .underTest) (stays : (s.ras.unit u.toNat).leaving = false) (sound : (s.ras.unit u.toNat).permanent = false) :
    (unitKind u.toNat ≠ 2 → ∃ t, exec (.testComplete u .pass) s = .next t ∧ (t.ras.unit u.toNat).leaving = true ∧ (t.ras.unit u.toNat).deferrals = 0 ∧
      (t.ras.unit u.toNat).nextTest = nextTestFrame s.ras (frameNow s) (s.ras.unit u.toNat) ∧ (t.ras.unit u.toNat).permanent = false ∧
      (∀ v, v ≠ u.toNat → t.ras.unit v = s.ras.unit v) ∧ OnlyTouches [.free, .ras] s t) ∧
    (∃ t, exec (.testComplete u .failReproduced) s = .next t ∧ (t.ras.unit u.toNat).permanent = true ∧ (∀ v, v ≠ u.toNat → t.ras.unit v = s.ras.unit v) ∧ OnlyTouches [.free, .ras] s t) ∧
    (unitKind u.toNat ≠ 2 → (s.ras.unit u.toNat).retest = false → (s.ras.unit u.toNat).rowsUsed < 4 →
      ∃ t, exec (.testComplete u (.failRepairable true)) s = .next t ∧ (t.ras.unit u.toNat).rowsUsed = (s.ras.unit u.toNat).rowsUsed + 1 ∧ (t.ras.unit u.toNat).retest = true ∧
        t.ras.lineRepairs = s.ras.lineRepairs + 1 ∧ (∀ v, v ≠ u.toNat → t.ras.unit v = s.ras.unit v) ∧ OnlyTouches [.free, .ras] s t) ∧
    (unitKind u.toNat = 2 → ∃ t, exec (.testComplete u .pass) s = .next t ∧ t.ras.units = s.ras.units ∧ OnlyTouches [.ras] s t) ∧
    (unitKind u.toNat = 2 → ∀ row, ∃ t, exec (.testComplete u (.failRepairable row)) s = .next t ∧ (t.ras.unit u.toNat).permanent = true ∧ t.ras.lineRepairs = s.ras.lineRepairs ∧
      (∀ v, v ≠ u.toNat → t.ras.unit v = s.ras.unit v) ∧ OnlyTouches [.free, .ras] s t) := by
  refine ⟨fun array => ?_, ?_, fun array first rows => ?_, fun checker => ⟨_, testComplete_checkerPasses tested stays sound checker, rfl, rfl⟩, fun checker row => ?_⟩
  · refine ⟨testDone u.toNat .pass s, testComplete_array tested stays sound array _, ?_, ?_, ?_, ?_, fun v other => unit_setUnit_other _ _ other, rfl⟩
    all_goals simp [testDone, sound]
  · by_cases checker : unitKind u.toNat = 2
    · exact ⟨_, testComplete_checkerFails tested stays sound checker nofun, by simp [checkerFailed], fun v other => unit_setUnit_other _ _ other, rfl⟩
    · exact ⟨testDone u.toNat .failReproduced s, testComplete_array tested stays sound checker _, by simp [testDone], fun v other => unit_setUnit_other _ _ other, rfl⟩
  · obtain ⟨self, repairs, others⟩ := testDone_repairs first rows
    exact ⟨_, testComplete_array tested stays sound array _, congrArg PUnit.rowsUsed self, congrArg PUnit.retest self, repairs, others, rfl⟩
  · exact ⟨_, testComplete_checkerFails tested stays sound checker nofun, by simp [checkerFailed], rfl, fun v other => unit_setUnit_other _ _ other, rfl⟩

/-- A unit that has waited 64 times goes without a spare, and its CHECKER with it. -/
theorem takeOut_takes (inService : (s.ras.unit u.toNat).state = .inService) (waited : 64 ≤ (s.ras.unit u.toNat).deferrals) (idle : unitIdle s u.toNat) :
    ∃ t, exec (.testDeferLimit u) s = .next t ∧
      t.ras.unit u.toNat = { s.ras.unit u.toNat with state := .underTest, takenFrom := (s.ras.unit u.toNat).serves, serves := none, deferrals := 0 } ∧
      (∀ a, (s.ras.unit u.toNat).serves = some a → a ∈ t.ras.out) ∧ (∀ v, v ≠ u.toNat → v ≠ 0x2000 + unitIndex u.toNat → t.ras.unit v = s.ras.unit v) ∧ OnlyTouches [.ras] s t := by
  refine ⟨_, need_of (by simp [inService, waited, idle]), ?_, fun a serves => ?_, fun v other pair => ?_, rfl⟩
  · have self := unit_setUnit_self u.toNat { s.ras.unit u.toNat with state := .underTest, takenFrom := (s.ras.unit u.toNat).serves, serves := none, deferrals := 0 } s.ras
    unfold takeOut
    dsimp only
    split <;> exact (unit_pairState_same (congrArg PUnit.state self)).trans self
  · unfold takeOut
    dsimp only
    rw [serves]
    simp
  · unfold takeOut
    dsimp only
    split <;> exact (unit_pairState_other _ _ pair).trans (unit_setUnit_other _ _ other)

theorem suspect_clears (may : mayClear s u.toNat) :
    ∃ t, exec (.suspectClear u) s = .next t ∧ t.ras.unit u.toNat = { s.ras.unit u.toNat with suspect := false } ∧ (∀ v, v ≠ u.toNat → t.ras.unit v = s.ras.unit v) ∧ OnlyTouches [.ras] s t :=
  ⟨_, need_of may, unit_setUnit_self .., fun _ other => unit_setUnit_other _ _ other, rfl⟩

end

/-! Retirement (R499, R502, R507). -/

/-- The units after one of them has retired, before its logical array goes elsewhere. -/
def Ras.vacate (frame u : Nat) (r : Ras) : Ras :=
  (r.setUnit u { r.unit u with state := .retired, suspect := false, serves := none, takenFrom := none, leaving := false, retest := false, permanent := true }).enter frame u 6 0
/-- The logical array that an ARRAY serves, or was taken from. -/
def PUnit.array (x : PUnit) : Option Nat := x.serves.or x.takenFrom

section
variable {s : State} {u sp a : Nat} {rest : List Nat}

/-- The units after a spare has taken over a logical array. -/
def Ras.takeOver (sp a : Nat) (r : Ras) : Ras := { r.setUnit sp { r.unit sp with state := .inService, serves := some a } with out := r.out.erase a }
/-- The units after a logical array is lost. -/
def Ras.lose (frame u a : Nat) (r : Ras) : Ras := { r with lostPending := (a :: r.lostPending).dedup, out := r.out.erase a }.enter frame u 9 a

/-- The units after a retired unit's logical array has found its place. -/
def Ras.handOver (frame u a : Nat) (spares : List Nat) (r : Ras) : Ras := match spares with | sp :: _ => r.takeOver sp a | [] => r.lose frame u a
/-- The units after an ARRAY with a logical array has retired. -/
def retiredRas (u a : Nat) (s : State) : Ras := (s.ras.vacate (frameNow s) u).handOver (frameNow s) u a ((s.ras.vacate (frameNow s) u).spares (unitDie u) (rerunUnits s))

theorem PUnit.array_some {x : PUnit} (h : x.array = some a) : x.serves = some a ∨ (x.serves = none ∧ x.takenFrom = some a) := by
  unfold PUnit.array at h
  cases serves : x.serves with
  | none => exact .inr ⟨rfl, by rwa [serves, Option.none_or] at h⟩
  | some b => exact .inl (by rwa [serves, Option.some_or] at h)

/-- A unit without a logical array retires alone. -/
theorem retireOne_alone (none' : (s.ras.unit u).array = none) : retireOne u s = rasAudit u { s with ras := s.ras.vacate (frameNow s) u } := by
  obtain ⟨serves, taken⟩ := Option.or_eq_none_iff.mp none'
  unfold retireOne
  dsimp only
  rw [serves, taken]
  dsimp only
  rw [if_neg Bool.false_ne_true]
  split
  · contradiction
  · rfl

section
variable (kind : unitKind u = 1) (serves : (s.ras.unit u).array = some a)
include kind serves

theorem retireOne_eq : retireOne u s = if !s.ras.lostPending.contains a && (retiredRas u a s).lostPending.contains a
    then rasAudit u (rasAudit u { s with ras := retiredRas u a s }) else rasAudit u { s with ras := retiredRas u a s } := by
  unfold retireOne
  rcases PUnit.array_some serves with on | ⟨on, taken⟩
  · dsimp only
    rw [kind, on]
    rfl
  · dsimp only
    rw [kind, on, taken]
    rfl

/-- The first free spare of its die takes the logical array over. -/
theorem retireOne_spare (spares : (s.ras.vacate (frameNow s) u).spares (unitDie u) (rerunUnits s) = sp :: rest) :
    retireOne u s = rasAudit u { s with ras := (s.ras.vacate (frameNow s) u).takeOver sp a } := by
  have taken : retiredRas u a s = (s.ras.vacate (frameNow s) u).takeOver sp a := by rw [retiredRas, spares]; rfl
  have kept : (!s.ras.lostPending.contains a && ((s.ras.vacate (frameNow s) u).takeOver sp a).lostPending.contains a) = false := by
    change (!s.ras.lostPending.contains a && s.ras.lostPending.contains a) = false
    cases s.ras.lostPending.contains a <;> rfl
  rw [retireOne_eq kind serves, taken, if_neg (by rw [kept]; exact Bool.false_ne_true)]
/-- Without a free spare the logical array is lost, which is an entry of its own. -/
theorem retireOne_lost (spares : (s.ras.vacate (frameNow s) u).spares (unitDie u) (rerunUnits s) = []) :
    retireOne u s = if s.ras.lostPending.contains a then rasAudit u { s with ras := (s.ras.vacate (frameNow s) u).lose (frameNow s) u a }
      else rasAudit u (rasAudit u { s with ras := (s.ras.vacate (frameNow s) u).lose (frameNow s) u a }) := by
  have lost : retiredRas u a s = (s.ras.vacate (frameNow s) u).lose (frameNow s) u a := by rw [retiredRas, spares]; rfl
  have holds : ((s.ras.vacate (frameNow s) u).lose (frameNow s) u a).lostPending.contains a = true := List.contains_iff_mem.mpr (List.mem_dedup.mpr List.mem_cons_self)
  rw [retireOne_eq kind serves, lost, holds]
  cases s.ras.lostPending.contains a <;> rfl

end

theorem unit_vacate (f u : Nat) (r : Ras) : ((r.vacate f u).unit u).state = .retired ∧ ((r.vacate f u).unit u).serves = none := by simp [Ras.vacate]
theorem spares_vacate {f die : Nat} {busy : List Nat} {r : Ras} (absent : u ∉ r.spares die busy) : (r.vacate f u).spares die busy = r.spares die busy :=
  spares_setUnit (x := { r.unit u with state := .retired, suspect := false, serves := none, takenFrom := none, leaving := false, retest := false, permanent := true }) nofun absent
theorem unit_takeOver_self (r : Ras) : (r.takeOver sp a).unit sp = { r.unit sp with state := .inService, serves := some a } := unit_setUnit_self ..
theorem unit_takeOver_other (r : Ras) (other : u ≠ sp) : (r.takeOver sp a).unit u = r.unit u := unit_setUnit_other _ _ other

/-- What a retired ARRAY leaves: its logical array at a spare, or lost, and one audit entry or two. -/
theorem retireOne_leaves (kind : unitKind u = 1) (absent : u ∉ s.ras.spares (unitDie u) (rerunUnits s) ∨ ((s.ras.unit u).serves = none ∧ (s.ras.unit u).takenFrom = none)) :
    ((retireOne u s).ras.unit u).state = .retired ∧ ((retireOne u s).ras.unit u).serves = none ∧
    (∀ a sp rest, (s.ras.unit u).serves = some a → s.ras.spares (unitDie u) (rerunUnits s) = sp :: rest →
      ((retireOne u s).ras.unit sp).serves = some a ∧ ((retireOne u s).ras.unit sp).state = .inService) ∧
    (∀ a, (s.ras.unit u).serves = some a → s.ras.spares (unitDie u) (rerunUnits s) = [] → a ∈ (retireOne u s).ras.lostPending) ∧
    (retireOne u s).ras.auditCount = s.ras.auditCount + (if ((s.ras.unit u).serves.or (s.ras.unit u).takenFrom).any (fun a =>
      (s.ras.spares (unitDie u) (rerunUnits s)).isEmpty && !s.ras.lostPending.contains a) then 2 else 1) ∧ OnlyTouches [.free, .ras] s (retireOne u s) := by
  obtain ⟨retired, empty⟩ := unit_vacate (frameNow s) u s.ras
  cases array : (s.ras.unit u).array with
  | none =>
    obtain ⟨serves, -⟩ := Option.or_eq_none_iff.mp array
    rw [show (s.ras.unit u).serves.or (s.ras.unit u).takenFrom = none from array, retireOne_alone array, serves]
    exact ⟨retired, empty, nofun, nofun, rfl, rfl⟩
  | some a =>
    rw [show (s.ras.unit u).serves.or (s.ras.unit u).takenFrom = some a from array, Option.any_some]
    have serving {b : Nat} (h : (s.ras.unit u).serves = some b) : b = a := by
      rw [PUnit.array, h] at array
      exact Option.some.inj array
    have notSpare : u ∉ s.ras.spares (unitDie u) (rerunUnits s) := absent.resolve_right fun ⟨serves, taken⟩ => by simp [PUnit.array, serves, taken] at array
    have vacated := spares_vacate (f := frameNow s) notSpare
    cases spares : s.ras.spares (unitDie u) (rerunUnits s) with
    | nil =>
      have lost : a ∈ ((s.ras.vacate (frameNow s) u).lose (frameNow s) u a).lostPending := List.mem_dedup.mpr List.mem_cons_self
      rw [retireOne_lost kind array (vacated.trans spares)]
      cases s.ras.lostPending.contains a
      · exact ⟨retired, empty, nofun, fun b serves _ => (serving serves).symm ▸ lost, rfl, rfl⟩
      · exact ⟨retired, empty, nofun, fun b serves _ => (serving serves).symm ▸ lost, rfl, rfl⟩
    | cons sp rest =>
      have other : u ≠ sp := fun same => notSpare (spares ▸ same ▸ List.mem_cons_self)
      rw [retireOne_spare kind array (vacated.trans spares)]
      have unit : ∀ v, (rasAudit u { s with ras := (s.ras.vacate (frameNow s) u).takeOver sp a }).ras.unit v = ((s.ras.vacate (frameNow s) u).takeOver sp a).unit v := fun v => rfl
      rw [unit u, unit_takeOver_other _ other]
      refine ⟨retired, empty, ?_, nofun, rfl, rfl⟩
      rintro b _ _ serves ⟨⟩
      rw [unit sp, unit_takeOver_self]
      exact ⟨congrArg some (serving serves).symm, rfl⟩

end

/-! Window and external memory, and temperatures (R254, R503, R504, R577). -/

section
variable {s : State}

/-- A strike is entered with its frame. -/
theorem strike_strikeFrames (f u d : Nat) (r : Ras) : ((r.strike f u d).unit u).strikeFrames = f :: (r.unit u).strikeFrames := by
  unfold Ras.strike Ras.suspect
  dsimp only
  split <;> simp

/-- A double error poisons its 256-byte range (R503). -/
theorem winMark_poisons (p : PartId) (off : Nat) (m : Mem) : winPoisoned (winMark p (off / 256 * 256) 256 m) p off 1 := by
  have range : (off / 256 * 256 + 256 + 255) / 256 - off / 256 * 256 / 256 = 1 := by omega
  unfold winPoisoned winMark
  dsimp only
  rw [modVec_self, List.any_eq_true]
  refine ⟨off / 256, List.mem_dedup.mpr (List.mem_append_right _ ?_), ?_⟩
  · rw [range]
    simp
  · have low := Nat.div_mul_le_self off 256
    have high := Nat.lt_div_mul_add (a := off) (b := 256) (by decide)
    simp only [Bool.and_eq_true, decide_eq_true_eq]
    omega

theorem windowEcc_double (p : PartId) (off bank : Nat) : winPoisoned (windowEcc p off bank true s).mem p off 1 ∧ (windowEcc p off bank true s).ras.auditCount = s.ras.auditCount + 1 ∧
    ((windowEcc p off bank true s).ras.unit (0x3000 + bank)).strikeFrames = frameNow s :: (s.ras.unit (0x3000 + bank)).strikeFrames ∧ (windowEcc p off bank true s).mem.window = s.mem.window :=
  ⟨winMark_poisons p off s.mem, congrArg (· + 1) (strike_auditCount ..), strike_strikeFrames .., rfl⟩
theorem windowEcc_single (p : PartId) (off bank : Nat) : (windowEcc p off bank false s).mem = s.mem ∧ OnlyTouches [.ras] s (windowEcc p off bank false s) := ⟨rfl, rfl⟩

/-- A die's temperature and its hot pin stand at once (R577). -/
theorem setTemp_stands {d : DieId} {c : Nat} (low : c < 255) : (setTemp d c s).pow.temps[d] = BitVec.ofNat 8 c ∧ (∀ e : DieId, e ≠ d → (setTemp d c s).pow.temps[e] = s.pow.temps[e]) ∧
    (∀ h : d.val < 4, (setTemp d c s).pow.hot[d.val] = decide (s.gov.inForce.2.2.1 ≤ c)) ∧ OnlyTouches [.out, .dict, .pow] s (setTemp d c s) := by
  have least : min c 254 = c := by omega
  unfold setTemp
  rw [least]
  extract_lets _ _ pow'
  have cause : OnlyTouches [.out, .dict] { s with pow := pow' } (thermalCause { s with pow := pow' }) := by apply thermalCause_only (.refl _ _) <;> decide
  have power : (thermalCause { s with pow := pow' }).pow = pow' := cause.pow_eq (by decide)
  have temps : pow'.temps = s.pow.temps.set d (BitVec.ofNat 8 c) := by
    unfold pow'
    split <;> rfl
  rw [power, temps]
  refine ⟨Vector.getElem_set_self .., fun e other => Vector.getElem_set_ne _ _ fun same => other (Fin.ext same.symm), fun h => ?_, ?_⟩
  · have hot : pow'.hot = s.pow.hot.set d.val (decide (s.gov.inForce.2.2.1 ≤ c)) := congrArg Power.hot (dif_pos h)
    rw [hot]
    exact Vector.getElem_set_self ..
  · apply thermalCause_only (show OnlyTouches [.out, .dict, .pow] s { s with pow := pow' } from rfl) <;> decide

end

/-- An ARRAY retires alone. -/
theorem unitRetire_of (s : State) (u : BitVec 16) :
    ((s.ras.unit u.toNat).permanent → (s.ras.unit u.toNat).state ≠ .retired → unitIdle s u.toNat → unitKind u.toNat = 1 → exec (.unitRetire u) s = .next (retireOne u.toNat s)) := by
  intro permanent stands idle kind
  refine (need_of (by simp [permanent, stands, idle])).trans (congrArg Host.Outcome.next (if_neg fun checker => ?_))
  exact absurd (kind.symm.trans checker.1) (by decide)

/-- Settles O52: the units' part by `test_completes`, `takeOut_takes`, `retireOne_leaves` and `suspect_clears`; the errors' and temperatures' part by `windowEcc_double`, `hbmRepair` and `setTemp_stands`. -/
theorem unitsAreTestedAndErrorsNoted : Obligations.UnitsAreTestedAndErrorsNoted := by
  refine ⟨fun s u => ⟨fun tested stays sound => test_completes tested stays sound, fun inService waited idle => takeOut_takes inService waited idle,
    fun permanent stands idle kind absent => ⟨_, unitRetire_of s u permanent stands idle kind, retireOne_leaves kind absent⟩, suspect_clears⟩,
    fun s => ⟨fun p off bank here real active => ?_, fun k row up present => ?_, fun d c up low => ⟨_, need_of (decide_eq_true up), setTemp_stands low⟩, fun k c up present hot => ?_⟩⟩
  · have run (dbl : Bool) : exec (.windowEccError p off bank dbl) s = .next (windowEcc p off bank dbl s) := need_of (by rw [decide_eq_true here]; simp [real, active])
    exact ⟨⟨_, run true, windowEcc_double p off bank⟩, ⟨_, run false, windowEcc_single p off bank⟩⟩
  · have run (left : Bool) : exec (.hbmRowRepair k row left) s = .next (hbmRepair k row left s) := need_of (by simp [up, present])
    exact ⟨⟨_, run true, rfl, rfl, rfl, List.mem_cons_self, rfl⟩, ⟨_, run false, rfl, rfl, rfl, rfl⟩⟩
  · refine ⟨_, need_of (by simp [up, present]), ?_, rfl⟩
    have doubled : (setStackTemp k c s).mem.doubledRefresh = (k :: s.mem.doubledRefresh).dedup := if_pos hot
    rw [doubled]
    exact List.mem_dedup.mpr List.mem_cons_self

end Sys2Proof.Machine
end

section
/-!
Settles O53: how the Lighthouse counts (R517 to R520, R533) and closes its records (R521 to R526, R530). A frame record that finds no minute due closes alone (`closeFrame_open`); a minute record closes into the chain, and with the last minute of an hour its seal is written (`closeMinute_room`).
-/

namespace Sys2Proof.Machine

/-! Energy (R517, R518, R533). -/

section
variable {s : State} {uj : Nat}

theorem increment_below (low : uj < 625) : increment uj = 0 := if_pos low
theorem increment_within (low : 625 ≤ uj) (high : uj ≤ 625000) : increment uj = uj := by rw [increment, if_neg (by omega), Nat.min_eq_left high]
theorem increment_above (high : 625000 < uj) : increment uj = 625000 := by rw [increment, if_neg (by omega), Nat.min_eq_right high.le]

theorem adcSample_of (powered : s.lh.powered) (uj : Nat) : exec (.adcSample uj) s = .next (({ s with lh := (sample uj s.lh).1 }).emit (if (sample uj s.lh).2 then [.lhPulse] else [])) :=
  need_of powered
/-- A sample adds its increment, and counts its time below and above the range. -/
theorem sample_counts (uj : Nat) (l : Lighthouse) : (sample uj l).1.accUj = l.accUj + increment uj ∧ (sample uj l).1.totalUj = l.totalUj + increment uj ∧
    (sample uj l).1.belowUs = l.belowUs + (if uj < 625 then 125 else 0) ∧ (sample uj l).1.overUs = l.overUs + (if 475000 < uj then 125 else 0) ∧
    (sample uj l).2 = decide ((l.totalUj + increment uj) / 10000000 ≠ l.totalUj / 10000000) := ⟨rfl, rfl, rfl, rfl, rfl⟩

theorem lighthouse_measures (powered : s.lh.powered) :
    (∀ uj : Nat, uj < 625 → ∃ t, exec (.adcSample uj) s = .next t ∧ t.lh.accUj = s.lh.accUj ∧ t.lh.totalUj = s.lh.totalUj ∧ t.lh.belowUs = s.lh.belowUs + 125 ∧ t.out = s.out ∧ OnlyTouches [.lh] s t) ∧
    (∀ uj : Nat, 625 ≤ uj → uj ≤ 625000 →
      ∃ t, exec (.adcSample uj) s = .next t ∧ t.lh.accUj = s.lh.accUj + uj ∧ t.lh.totalUj = s.lh.totalUj + uj ∧
        t.out = s.out ++ (if (s.lh.totalUj + uj) / 10000000 = s.lh.totalUj / 10000000 then [] else [.lhPulse]) ∧ OnlyTouches [.out, .lh] s t) ∧
    (∀ uj : Nat, 625000 < uj → ∃ t, exec (.adcSample uj) s = .next t ∧ t.lh.totalUj = s.lh.totalUj + 625000 ∧ t.lh.overUs = s.lh.overUs + 125 ∧ OnlyTouches [.out, .lh] s t) := by
  refine ⟨fun uj low => ?_, fun uj low high => ?_, fun uj high => ?_⟩
  · obtain ⟨acc, total, below, -, pulse⟩ := sample_counts uj s.lh
    rw [increment_below low] at acc total pulse
    rw [if_pos low] at below
    have still : ({ s with lh := (sample uj s.lh).1 }).emit (if (sample uj s.lh).2 then [.lhPulse] else []) = { s with lh := (sample uj s.lh).1 } := by
      rw [pulse]
      simp [State.emit]
    exact ⟨_, (adcSample_of powered uj).trans (congrArg Host.Outcome.next still), acc, total, below, rfl, rfl⟩
  · obtain ⟨acc, total, -, -, pulse⟩ := sample_counts uj s.lh
    rw [increment_within low high] at acc total pulse
    refine ⟨_, adcSample_of powered uj, acc, total, ?_, rfl⟩
    rw [emit_out, pulse]
    by_cases same : (s.lh.totalUj + uj) / 10000000 = s.lh.totalUj / 10000000 <;> simp [same]
  · obtain ⟨-, total, -, over', -⟩ := sample_counts uj s.lh
    rw [increment_above high] at total
    rw [if_pos (by omega)] at over'
    exact ⟨_, adcSample_of powered uj, total, over', rfl⟩

end

/-! Occupancy (R519, R520). -/

section
variable {l : Lighthouse} {die : Fin 4} {seq e : Byte} {p : PartId}

/-- An entry of no holder counts for none. -/
theorem tapEntry_idle (l : Lighthouse) : tapEntry 0x7F l = l := rfl
theorem foldl_tapEntry_idle (n : Nat) (l : Lighthouse) : (List.replicate n 0x7F).foldl (fun l e => tapEntry e l) l = l := by
  induction n with
  | zero => rfl
  | succ n ih => rwa [List.replicate_succ, List.foldl_cons, tapEntry_idle]
theorem tapEntry_part (h : e.toNat % 128 = p.val) :
    tapEntry e l = { l with counts := modVec l.counts p (· + 1), genSeen := modVec l.genSeen p (fun _ => some (e.getLsbD 7)) } := by
  have part : partOf (e.toNat % 128) = some p := by rw [h]; exact dif_pos p.isLt
  unfold tapEntry
  rw [part]

/-- A word in sequence misses nothing, and counts an entry for its partition. -/
theorem tapWord_counts (empty : l.gathered = []) (next : ∀ k, l.tapSeq[die] = some k → seq = k + 1) (h : e.toNat % 128 = p.val) : (tapWord die seq (e :: List.replicate 33 0x7F) l).counts = modVec l.counts p (· + 1) ∧
    (tapWord die seq (e :: List.replicate 33 0x7F) l).gapUs = l.gapUs ∧ (tapWord die seq (e :: List.replicate 33 0x7F) l).tapSeq = l.tapSeq.set die (some seq) := by
  unfold tapWord
  extract_lets gap m n
  have none' : gap = 0 := by
    unfold gap
    cases last : l.tapSeq[die] with
    | none => rfl
    | some k => simp [next k last]
  have open' : n = m := if_neg fun due => by simp [m, empty] at due
  rw [open', List.foldl_cons, foldl_tapEntry_idle, tapEntry_part h]
  exact ⟨rfl, by rw [show m.gapUs = l.gapUs + gap from rfl, none', Nat.add_zero], rfl⟩

end

/-! Frame records (R521 to R523). -/

section
variable {l : Lighthouse} {frame len flags : Nat}

/-- The frame record that the open one becomes. -/
def frameRec (frame len flags : Nat) (l : Lighthouse) : FrameRec :=
  { frame := frame, seq := l.seq, minute := l.minute, energyMj := l.accUj / 1000, lengthUs := len, belowUs := l.belowUs, overUs := l.overUs, gapUs := l.gapUs, peakW := l.peakW,
    sealCount := l.sealCount, flags := l.flags ||| flags ||| (if l.powerOn then 0x80 else 0), counts := l.counts.toList }

/-- A frame record that finds no minute due closes alone. -/
theorem closeFrame_open (open' : minuteDue l = false) : (closeFrame frame len flags l).2 = frameRec frame len flags l ∧ (closeFrame frame len flags l).1.seq = l.seq + 1 ∧
    (closeFrame frame len flags l).1.accUj = l.accUj % 1000 ∧ (closeFrame frame len flags l).1.gathered = l.gathered ++ [frameRec frame len flags l] ∧
    (closeFrame frame len flags l).1.minute = l.minute ∧ (closeFrame frame len flags l).1.minutes = l.minutes ∧ (closeFrame frame len flags l).1.chain = l.chain ∧
    (closeFrame frame len flags l).1.seals = l.seals := by
  unfold closeFrame
  rw [if_neg (by simp [open'])]
  exact ⟨rfl, rfl, rfl, rfl, rfl, rfl, rfl, rfl⟩

end

section
variable {s : State} (powered : s.lh.powered = true) (open' : minuteDue s.lh = false)
include powered open'

theorem strobeOverdue_closes {n : Nat} (us : Nat) (last : s.lh.lastFrame = some n) : ∃ t r, exec (.strobeOverdue us) s = .next t ∧ t.out = s.out ++ [.recordLine r] ∧ r.frame = n + 1 ∧ r.seq = s.lh.seq ∧
    r.energyMj = s.lh.accUj / 1000 ∧ r.lengthUs = us ∧ t.lh.seq = s.lh.seq + 1 ∧ t.lh.accUj = s.lh.accUj % 1000 ∧ t.lh.lastFrame = some (n + 1) ∧ t.lh.holdover = true ∧
    t.lh.gathered = s.lh.gathered ++ [r] ∧ t.lh.minute = s.lh.minute ∧ OnlyTouches [.out, .lh, .dict] s t := by
  have due : s.lh.lastFrame.getD 0 + 1 = n + 1 := by rw [last]; rfl
  obtain ⟨rec', seq, acc, gathered, minute, -⟩ := closeFrame_open (frame := n + 1) (len := us) (flags := 2) open'
  refine ⟨overdue us s, frameRec (n + 1) us 2 s.lh, need_of (by rw [powered, last]; rfl), ?_, rfl, rfl, rfl, rfl, ?_, ?_, ?_, rfl, ?_, ?_, overdue_only (.refl _ s) (by decide) (by decide) (by decide)⟩
  all_goals unfold overdue
  all_goals rw [due]
  · exact congrArg (fun r => s.out ++ [Output.recordLine r]) rec'
  · exact seq
  · exact acc
  · rfl
  · exact gathered
  · exact minute

theorem selfTimed_closes (alone : s.tick.joined = false) : ∃ t r, exec .selfTimedClose s = .next t ∧ t.out = s.out ++ [.recordLine r] ∧ r.frame = 2 ^ 64 - 1 ∧ r.seq = s.lh.seq ∧ r.lengthUs = 1000000 ∧
    t.lh.seq = s.lh.seq + 1 ∧ t.lh.gathered = s.lh.gathered ++ [r] ∧ OnlyTouches [.out, .lh, .dict] s t := by
  obtain ⟨rec', seq, -, gathered, -⟩ := closeFrame_open (frame := 2 ^ 64 - 1) (len := 1000000) (flags := 1) open'
  exact ⟨selfTimed s, frameRec (2 ^ 64 - 1) 1000000 1 s.lh, need_of (by rw [powered, alone]; rfl), congrArg (fun r => s.out ++ [Output.recordLine r]) rec', rfl, rfl, rfl, seq, gathered,
    selfTimed_only (.refl _ s) (by decide) (by decide) (by decide)⟩

end

/-! Minutes, the chain and the seals (R524 to R527, R529, R530). -/

section
variable {l : Lighthouse} {extra : Nat} {sign : Bool}

theorem makeRoom_room (room : l.minutes.length < 60 * flashHours) : makeRoom l = l := if_pos room

/-- The open minute after its record has gone to flash and into the chain. -/
def minuteClosed (extra : Nat) (l : Lighthouse) : Lighthouse :=
  { l with minutes := l.minutes ++ [minuteOf l extra], chain := some (chainNext (l.chain.getD chainInit) (minuteOf l extra)), minute := l.minute + 1, gathered := [], minuteUs := 0,
           genSeen := Vector.replicate 64 none }

/-- A minute closes where flash has room; with the last of an hour its seal is written, or falls due. -/
theorem closeMinute_room (room : l.minutes.length < 60 * flashHours) : closeMinute extra sign l =
    if l.minute % 60 = 59 then (if sign then writeSeal (l.minute / 60) (chainNext (l.chain.getD chainInit) (minuteOf l extra)) (minuteClosed extra l)
      else { minuteClosed extra l with sealDue := l.sealDue ++ [l.minute / 60] })
    else minuteClosed extra l := by
  unfold closeMinute
  dsimp only
  rw [makeRoom_room room]
  rfl

theorem minuteClose_of {s : State} (powered : s.lh.powered) (due : minuteDue s.lh) : exec .minuteClose s = .next { s with lh := closeMinute 0 true s.lh } := need_of (by simp [powered, due])

/-- A minute closed without a signature leaves the seals. -/
theorem closeMinute_unsigned (room : l.minutes.length < 60 * flashHours) : (closeMinute extra false l).minutes = l.minutes ++ [minuteOf l extra] ∧
    (closeMinute extra false l).chain = some (chainNext (l.chain.getD chainInit) (minuteOf l extra)) ∧ (closeMinute extra false l).seals = l.seals := by
  rw [closeMinute_room room]
  split <;> exact ⟨rfl, rfl, rfl⟩

/-- The number of the frame record that a loss of power closes, and its flags. -/
def lossFrame (l : Lighthouse) : Nat := match l.lastFrame with | some n => n + 1 | none => 2 ^ 64 - 1
def lossFlags (l : Lighthouse) : Nat := if l.lastFrame.isNone then 1 else 0
/-- The Lighthouse without power, once its open minute has closed. -/
def goneDark (l : Lighthouse) : Lighthouse :=
  { closeMinute 0x200 false l with powered := false, ring := [], samples := [], tapSeq := Vector.replicate 4 none, lastFrame := none, holdover := false }
theorem lhDown_eq (us : Nat) (s : State) : lhDown us s =
    emitRecord (goneDark (closeFrame (lossFrame s.lh) us (lossFlags s.lh) s.lh).1, (closeFrame (lossFrame s.lh) us (lossFlags s.lh) s.lh).2) s := rfl

/-- The loss of power closes the open frame record and then the open minute. -/
theorem powerLoss_closes {s : State} (us : Nat) (powered : s.lh.powered) (dark : s.pow.input = false) (open' : minuteDue s.lh = false) (room : s.lh.minutes.length < 60 * flashHours) :
    ∃ t r m, exec (.lhPowerLoss us) s = .next t ∧ t.lh.powered = false ∧ t.out = s.out ++ [.recordLine r] ∧ t.lh.minutes = s.lh.minutes ++ [m] ∧ m.records = s.lh.gathered.length + 1 ∧
      t.lh.chain = some (chainNext (s.lh.chain.getD chainInit) m) ∧ t.lh.seals = s.lh.seals ∧ t.lh.ring = [] ∧ OnlyTouches [.out, .lh, .dict] s t := by
  obtain ⟨-, -, -, gathered, -, minutes, chain, seals⟩ := closeFrame_open (frame := lossFrame s.lh) (len := us) (flags := lossFlags s.lh) open'
  obtain ⟨closed, chained, sealed'⟩ := closeMinute_unsigned (l := (closeFrame (lossFrame s.lh) us (lossFlags s.lh) s.lh).1) (extra := 0x200) (by rwa [minutes])
  rw [minutes] at closed
  rw [chain] at chained
  rw [seals] at sealed'
  have run : exec (.lhPowerLoss us) s = .next (lhDown us s) := need_of (by rw [powered, dark]; rfl)
  have only : OnlyTouches [.out, .lh, .dict] s (lhDown us s) := lhDown_only (.refl _ s) (by decide) (by decide) (by decide)
  rw [lhDown_eq] at run only
  exact ⟨_, (closeFrame (lossFrame s.lh) us (lossFlags s.lh) s.lh).2, minuteOf (closeFrame (lossFrame s.lh) us (lossFlags s.lh) s.lh).1 0x200, run, rfl, rfl, closed,
    (congrArg List.length gathered).trans List.length_append, chained, sealed', rfl, only⟩

/-- The seals that waited for power are written with it (R530). -/
theorem foldl_writeSeal_length (c : BitVec 512) (hours : List Nat) (l : Lighthouse) : (hours.foldl (fun l h => writeSeal h c l) l).seals.length = l.seals.length + hours.length := by
  induction hours generalizing l with
  | nil => rfl
  | cons h hours ih =>
    rw [List.foldl_cons, ih, show (writeSeal h c l).seals.length = l.seals.length + 1 from List.length_append, List.length_cons]
    omega
theorem foldl_writeSeal_keeps {α : Type} (π : Lighthouse → α) (each : ∀ h c l, π (writeSeal h c l) = π l) (c : BitVec 512) (hours : List Nat) (l : Lighthouse) :
    π (hours.foldl (fun l h => writeSeal h c l) l) = π l := foldl_keeps π (fun l h => each h c l) hours l

/-- A fresh nonce leaves the rest of the Lighthouse; sealed, it is zero. -/
theorem freshCal_lh (s : State) : ∃ n, (freshCal s).lh = { s.lh with calNonce := n } ∧ (s.lh.sealed → n = 0) := by
  unfold freshCal
  split
  · exact ⟨0, rfl, fun _ => rfl⟩
  · next unsealed => exact ⟨_, rfl, fun h => absurd h unsealed⟩

/-- The chain that a Lighthouse starts with, and the Lighthouse after the seals that waited. -/
def firstChain (l : Lighthouse) : BitVec 512 := if l.everOn then l.chain.getD chainInit else chainInit
def sealedUp (l : Lighthouse) : Lighthouse := l.sealDue.foldl (fun m h => writeSeal h (firstChain l) m) { l with chain := some (firstChain l) }
theorem lhUp_eq (s : State) : lhUp s = freshCal { s with lh := { sealedUp s.lh with powered := true, everOn := true, powerOn := true } } := rfl

theorem sealedUp_keeps (l : Lighthouse) : (sealedUp l).minutes = l.minutes ∧ (sealedUp l).chain = some (firstChain l) ∧ (sealedUp l).sealed = l.sealed ∧
    (sealedUp l).seals.length = l.seals.length + l.sealDue.length :=
  ⟨foldl_writeSeal_keeps Lighthouse.minutes (fun _ _ _ => rfl) .., foldl_writeSeal_keeps Lighthouse.chain (fun _ _ _ => rfl) .., foldl_writeSeal_keeps Lighthouse.sealed (fun _ _ _ => rfl) ..,
    foldl_writeSeal_length ..⟩

theorem powerOn_starts {s : State} (dark : s.lh.powered = false) (input : s.pow.input) : ∃ t, exec .lhPowerOn s = .next t ∧ t.lh.powered = true ∧ t.lh.powerOn = true ∧ t.lh.minutes = s.lh.minutes ∧
    t.lh.chain.isSome ∧ t.lh.seals.length = s.lh.seals.length + s.lh.sealDue.length ∧ (s.lh.sealed → t.lh.calNonce = 0) ∧ OnlyTouches [.free, .lh] s t := by
  have run : exec .lhPowerOn s = .next (lhUp s) := need_of (by rw [dark, input]; rfl)
  obtain ⟨minutes, chain, sealed', seals⟩ := sealedUp_keeps s.lh
  obtain ⟨n, lh, zero⟩ := freshCal_lh { s with lh := { sealedUp s.lh with powered := true, everOn := true, powerOn := true } }
  rw [← lhUp_eq] at lh
  refine ⟨lhUp s, run, ?_, ?_, ?_, ?_, ?_, fun h => ?_, lhUp_only (.refl _ s) (by decide) (by decide)⟩
  all_goals rw [lh]
  · exact minutes
  · exact congrArg Option.isSome chain
  · exact seals
  · exact zero (sealed'.trans h)

end

/-- Settles O53: the counts, and the records as they close. -/
theorem lighthouseRecordsCloseInOrder : Obligations.LighthouseRecordsCloseInOrder := by
  refine ⟨fun s powered => ?_, fun s => ⟨fun us n powered last open' => strobeOverdue_closes powered open' us last, fun powered alone open' => selfTimed_closes powered open' alone,
    fun powered due room more => ?_, fun powered due room last => ?_, fun us powered dark open' room => powerLoss_closes us powered dark open' room, fun dark input => powerOn_starts dark input⟩⟩
  · obtain ⟨below, within, above⟩ := lighthouse_measures powered
    refine ⟨below, within, above, fun die seq e p up empty next holder => ?_⟩
    obtain ⟨counts, gap, seqs⟩ := tapWord_counts empty next holder
    refine ⟨_, need_of (by simp [powered, up]), ?_, fun p' other => ?_, gap, ?_, rfl⟩
    · exact (congrArg (·[p]) counts).trans (modVec_self ..)
    · exact (congrArg (·[p']) counts).trans (modVec_other _ _ _ _ other)
    · exact (congrArg (·[die]) seqs).trans (Vector.getElem_set_self ..)
  · have run := minuteClose_of powered due
    rw [closeMinute_room room, if_neg more] at run
    exact ⟨_, minuteOf s.lh 0, run, rfl, rfl, rfl, rfl, rfl, rfl, rfl, rfl, rfl⟩
  · have run := minuteClose_of powered due
    rw [closeMinute_room room, if_pos last, if_pos rfl] at run
    exact ⟨_, minuteOf s.lh 0, _, run, rfl, rfl, rfl, rfl, rfl⟩

end Sys2Proof.Machine
end

section
/-!
Settles O55: what the input, the resets, MOD_PWR_EN and a thermal trip do to the module (R572, R575, R584, R589 to R592). A reset takes every session, flow and partition (`resetAll_clears`) and keeps what outlives it (`resetAll_keeps`); a boot starts from there, and none of its ways on (`Booted`) brings a session or a flow back.
-/

namespace Sys2Proof.Machine

section
variable {s t : State}

/-! What a reset leaves (R457, R544, R571). -/

theorem cutTransition_keeps (s : State) : (cutTransition s).life.operatorDigest = s.life.operatorDigest := by
  unfold cutTransition
  split <;> rfl
theorem cutCommit_keeps (s : State) : (cutCommit s).fw.floor = s.fw.floor := by
  unfold cutCommit
  split
  · split <;> rfl
  · rfl
theorem cutTransition_beside (s : State) : OnlyTouches [.free, .life] s (cutTransition s) := cutTransition_only (.refl _ s) (by decide) (by decide)
theorem cutCommit_beside (s : State) : OnlyTouches [.free, .fw] s (cutCommit s) := cutCommit_only (.refl _ s) (by decide) (by decide)
/-- What ends with power or reset touches neither the power state, the Lighthouse nor what is sent. -/
theorem cut_beside (s : State) : (cutCommit (cutTransition s)).pow = s.pow ∧ (cutCommit (cutTransition s)).lh = s.lh ∧ (cutCommit (cutTransition s)).out = s.out := by
  have life := cutTransition_beside s
  have fw := cutCommit_beside (cutTransition s)
  exact ⟨(fw.pow_eq (by decide)).trans (life.pow_eq (by decide)), (fw.lh_eq (by decide)).trans (life.lh_eq (by decide)), (fw.out_eq (by decide)).trans (life.out_eq (by decide))⟩

theorem parts_free (h : t.parts = Vector.replicate 64 {}) (p : PartId) : t.parts[p].state = .free := by
  rw [h]
  exact congrArg Part.state (Vector.getElem_replicate _)

theorem resetAll_clears (s : State) : (resetAll s).dict.sessions = [] ∧ (resetAll s).fab.flows = [] ∧ (resetAll s).keys.slots = [] ∧ (resetAll s).parts = Vector.replicate 64 {} := ⟨rfl, rfl, rfl, rfl⟩
theorem resetAll_keeps (s : State) : (resetAll s).fw.floor = s.fw.floor ∧ (resetAll s).life.operatorDigest = s.life.operatorDigest ∧ (resetAll s).lh.powered = s.lh.powered ∧ (resetAll s).out = s.out ∧
    (resetAll s).pow.boots = s.pow.boots ∧ (resetAll s).pow.input = s.pow.input ∧ (resetAll s).pow.resetLow = s.pow.resetLow := by
  obtain ⟨pow, lh, out⟩ := cut_beside s
  have floor : (cutTransition s).fw = s.fw := (cutTransition_beside s).fw_eq (by decide)
  have life : (cutCommit (cutTransition s)).life = (cutTransition s).life := (cutCommit_beside _).life_eq (by decide)
  exact ⟨(cutCommit_keeps _).trans (congrArg Firmware.floor floor), (congrArg Life.operatorDigest life).trans (cutTransition_keeps s), (congrArg Lighthouse.powered lh :), out,
    (congrArg Power.boots pow :), (congrArg Power.input pow :), (congrArg Power.resetLow pow :)⟩

/-! A boot (R592, R593). -/

/-- What every way of a boot keeps of the power state: its domain is up, its number and cause, the reset pin and the input. -/
def Power.boot (w : Power) : Bool × BitVec 32 × BitVec 8 × Option (BitVec 8) × Bool × Bool := (w.mgmtUp, w.boots, w.cause, w.nextCause, w.resetLow, w.input)

/-- The module boots with a power state, without a session or a flow. -/
structure Booted (b : Bool × BitVec 32 × BitVec 8 × Option (BitVec 8) × Bool × Bool) (t : State) : Prop where
  power : t.pow.boot = b
  sessions : t.dict.sessions = []
  flows : t.fab.flows = []

theorem OnlyTouches.fab_eq {gs : List Group} (h : OnlyTouches gs s t) (not : Group.fab ∉ gs) : t.fab = s.fab := by
  simpa only [State.hide, if_neg not] using congrArg State.fab h

/-- Step 4 of a boot with its keys drawn. -/
def fromStandby (u : State) : State :=
  { startDomain 4 u with
    pow := { (startDomain 4 u).pow with mod := .booting, fromDoze := false, target := some .active, cause := u.pow.nextCause.getD u.pow.cause, nextCause := none },
    mem := { u.mem with stacksFailed := [] } }
theorem startFromStandby_eq (s : State) : startFromStandby s = fromStandby (bootKeys s) := by
  unfold startFromStandby
  generalize bootKeys s = u
  rfl

section
variable {low input : Bool} {n : BitVec 32} {c : BitVec 8} (h : Booted (true, n, c, none, low, input) s)
include h

theorem Booted.beside {gs : List Group} (only : OnlyTouches gs s t) (pow : Group.pow ∉ gs) (dict : Group.dict ∉ gs) (fab : Group.fab ∉ gs) : Booted (true, n, c, none, low, input) t := by
  refine ⟨?_, ?_, ?_⟩
  · rw [only.pow_eq pow, h.power]
  · rw [only.dict_eq dict, h.sessions]
  · rw [only.fab_eq fab, h.flows]

/-- Step 4 takes up the cause that waits, and none does at a boot. -/
theorem Booted.startFromStandby : Booted (true, n, c, none, low, input) (startFromStandby s) := by
  have keys : OnlyTouches [.free, .keys] s (bootKeys s) := bootKeys_only (.refl _ s) (by decide) (by decide)
  obtain ⟨power, sessions, flows⟩ := h.beside keys (by decide) (by decide) (by decide)
  rw [startFromStandby_eq]
  generalize bootKeys s = u at power sessions flows
  simp only [Power.boot, Prod.mk.injEq] at power
  obtain ⟨up, boots, cause, next, pin, on⟩ := power
  have taken : (fromStandby u).pow.boot = (u.pow.mgmtUp, u.pow.boots, u.pow.nextCause.getD u.pow.cause, none, u.pow.resetLow, u.pow.input) := rfl
  exact ⟨by rw [taken, up, boots, next, cause, pin, on]; rfl, sessions, flows⟩

/-- A fetch over the sideband sends its request, and opens no session. -/
theorem Booted.fetch : Booted (true, n, c, none, low, input) (fetchOn none s) := by
  have run : fetchOn none s = askImage (freshFetch none s) (fetchBegun none s) := rfl
  exact ⟨run ▸ h.power, run ▸ h.sessions, run ▸ h.flows⟩

theorem Booted.bootImage : Booted (true, n, c, none, low, input) (bootImage s) := by
  unfold Machine.bootImage
  dsimp only
  split
  · split
    · exact Booted.startFromStandby ⟨h.power, h.sessions, h.flows⟩
    · exact ⟨h.power, h.sessions, h.flows⟩
  · split
    · exact Booted.startFromStandby ⟨h.power, h.sessions, h.flows⟩
    · exact Booted.fetch ⟨h.power, h.sessions, h.flows⟩

end

theorem bootEntered_booted (c w : BitVec 8) (s : State) : Booted (true, s.pow.boots + 1, c, none, s.pow.resetLow, s.pow.input) (bootEntered c w s) := by
  obtain ⟨sessions, flows, -⟩ := resetAll_clears s
  obtain ⟨-, -, -, -, boots, input, low⟩ := resetAll_keeps s
  refine ⟨?_, sessions, flows⟩
  change (true, (resetAll s).pow.boots + 1, c, none, (resetAll s).pow.resetLow, (resetAll s).pow.input) = _
  rw [boots, input, low]

theorem boot_booted (c w : BitVec 8) (s : State) : Booted (true, s.pow.boots + 1, c, none, s.pow.resetLow, s.pow.input) (boot c w s) := by
  have life : OnlyTouches [.out, .life, .lh] (bootEntered c w s) (bootLife (bootEntered c w s)).1 := bootLife_only (.refl _ _) (by decide) (by decide) (by decide)
  have h := (bootEntered_booted c w s).beside life (by decide) (by decide) (by decide)
  rw [boot_eq]
  generalize bootLife (bootEntered c w s) = r at h
  obtain ⟨u, goes⟩ := r
  cases goes with
  | false => exact ⟨h.power, h.sessions, h.flows⟩
  | true =>
    unfold bootOn
    dsimp only
    split
    · exact ⟨h.power, h.sessions, h.flows⟩
    · have keys : OnlyTouches [.free, .keys] u (ladderKeys u) := ladderKeys_only (.refl _ _) (by decide) (by decide)
      exact (h.beside keys (by decide) (by decide) (by decide)).bootImage

/-- What a boot shows of its power state. -/
theorem Booted.shows {up low input : Bool} {n : BitVec 32} {c : BitVec 8} {x : Option (BitVec 8)} (h : Booted (up, n, c, x, low, input) t) :
    t.pow.mgmtUp = up ∧ t.pow.boots = n ∧ t.pow.cause = c ∧ t.pow.resetLow = low ∧ t.pow.input = input := by
  have power := h.power
  simp only [Power.boot, Prod.mk.injEq] at power
  obtain ⟨up, boots, cause, -, low, input⟩ := power
  exact ⟨up, boots, cause, low, input⟩

/-! The input and the resets (R572, R589, R592). -/

theorem powerOff_falls (s : State) : (powerOff s).pow.mod = .off ∧ (powerOff s).pow.mgmtUp = false ∧ (powerOff s).pow.input = false ∧ (powerOff s).dict.sessions = [] ∧ (powerOff s).fab.flows = [] ∧
    (powerOff s).keys.slots = [] ∧ (∀ p : PartId, (powerOff s).parts[p].state = .free) ∧ (powerOff s).fw.floor = s.fw.floor ∧ (powerOff s).life.operatorDigest = s.life.operatorDigest ∧
    (powerOff s).lh.powered = s.lh.powered ∧ (powerOff s).out = s.out := by
  obtain ⟨sessions, flows, slots, parts⟩ := resetAll_clears s
  obtain ⟨floor, digest, lh, out, -⟩ := resetAll_keeps s
  exact ⟨rfl, rfl, rfl, sessions, flows, slots, parts_free parts, floor, digest, lh, out⟩

theorem holdReset_holds (s : State) : (holdReset s).pow.resetLow = true ∧ (holdReset s).pow.mgmtUp = false ∧ (holdReset s).pow.mod = .off ∧ (holdReset s).dict.sessions = [] ∧ (holdReset s).fab.flows = [] ∧
    (∀ p : PartId, (holdReset s).parts[p].state = .free) ∧ (holdReset s).out = s.out := by
  obtain ⟨sessions, flows, -, parts⟩ := resetAll_clears s
  obtain ⟨-, -, -, out, -⟩ := resetAll_keeps s
  exact ⟨rfl, rfl, rfl, sessions, flows, parts_free parts, out⟩

theorem modReset_release (held : s.pow.resetLow) (input : s.pow.input) : ∃ t, exec .modResetNRelease s = .next t ∧ Booted (true, s.pow.boots + 1, 2, none, false, s.pow.input) t :=
  ⟨_, (need_of held).trans (congrArg Host.Outcome.next (if_pos input)), boot_booted 2 0 { s with pow := { s.pow with resetLow := false } }⟩
theorem watchdog_boots (up : s.pow.mgmtUp) : ∃ t, exec .watchdogExpire s = .next t ∧ Booted (true, s.pow.boots + 1, 5, none, s.pow.resetLow, s.pow.input) t :=
  ⟨_, need_of up, boot_booted 5 0 s⟩
theorem inputTurnOn_boots (dark : s.pow.input = false) (free : s.pow.resetLow = false) :
    ∃ t, exec (.inputTurnOn true) s = .next t ∧ Booted (true, s.pow.boots + 1, 1, none, s.pow.resetLow, true) t :=
  ⟨_, (need_of (by rw [dark, free]; cases s.pow.mgmtUp <;> rfl)).trans (congrArg Host.Outcome.next (if_pos ⟨rfl, by rw [free]; rfl⟩)), boot_booted 1 _ { s with pow := { s.pow with input := true } }⟩
theorem inputTurnOn_fails (dark : s.pow.input = false) : exec (.inputTurnOn false) s = .next { s with pow := { s.pow with input := true } } :=
  (need_of (by rw [dark]; exact Bool.or_true _)).trans (congrArg Host.Outcome.next (by
    unfold turnOn
    exact if_neg fun ⟨h, _⟩ => Bool.false_ne_true h))

/-! MOD_PWR_EN and the trip (R575, R584, R590, R591). -/

/-- The pin's rise is a wake, which in STANDBY starts step 4 of the boot. -/
theorem modPwrEnRise_wakes (low : s.pow.pwrEn = false) (up : s.pow.mgmtUp) (standby : s.pow.mod = .standby) (cool : s.pow.tripped = false) (whole : s.pow.scrapped = false)
    (good : s.pow.domains[4] ≠ .failed) : exec .modPwrEnRise s = .next (startFromStandby { s with pow := { s.pow with pwrEn := true, request := 3, lastWake := 3 } }) := by
  refine (need_of (by rw [low]; rfl)).trans (congrArg Host.Outcome.next ((if_pos up).trans ?_))
  unfold wake
  rw [if_neg (by simp [cool])]
  simp only [standby]
  rw [if_neg (by simp [whole, good])]

theorem startFromStandby_power (s : State) : (startFromStandby s).pow.pwrEn = s.pow.pwrEn ∧ (startFromStandby s).pow.mod = .booting ∧ (startFromStandby s).pow.lastWake = s.pow.lastWake ∧
    (startFromStandby s).pow.domains[4] = .powering 1 [] false := by
  have keys : OnlyTouches [.free, .keys] s (bootKeys s) := bootKeys_only (.refl _ s) (by decide) (by decide)
  have pow := keys.pow_eq (by decide)
  rw [startFromStandby_eq, ← pow]
  generalize bootKeys s = u
  exact ⟨rfl, rfl, rfl, Vector.getElem_set_self _⟩

theorem modPwrEnRise_starts (low : s.pow.pwrEn = false) (up : s.pow.mgmtUp) (standby : s.pow.mod = .standby) (cool : s.pow.tripped = false) (whole : s.pow.scrapped = false)
    (good : s.pow.domains[4] ≠ .failed) : ∃ t, exec .modPwrEnRise s = .next t ∧ t.pow.pwrEn = true ∧ t.pow.mod = .booting ∧ t.pow.lastWake = 3 ∧ t.pow.domains[4] = .powering 1 [] false := by
  have wakes := modPwrEnRise_wakes low up standby cool whole good
  have power := startFromStandby_power { s with pow := { s.pow with pwrEn := true, request := 3, lastWake := 3 } }
  generalize startFromStandby { s with pow := { s.pow with pwrEn := true, request := 3, lastWake := 3 } } = t at wakes power
  exact ⟨t, wakes, power⟩

theorem modPwrEnFall_stops (high : s.pow.pwrEn = true) (active : s.pow.mod = .active) :
    exec .modPwrEnFall s = .next (beginStandby { s with pow := { s.pow with pwrEn := false, tripped := false, nextCause := some 3 } }) := by
  refine (need_of high).trans (congrArg Host.Outcome.next ?_)
  unfold dropEnable
  simp only [active]

theorem beginStandby_begins (s : State) : (beginStandby s).pow.pwrEn = s.pow.pwrEn ∧ (beginStandby s).pow.tripped = s.pow.tripped ∧ (beginStandby s).pow.mod = .stopping ∧
    (beginStandby s).pow.target = some .standby ∧ (beginStandby s).tick.joined = false ∧ (∀ p : PartId, (beginStandby s).parts[p].state = .free) ∧ (beginStandby s).fab.flows = [] :=
  ⟨rfl, rfl, rfl, rfl, rfl, parts_free rfl, rfl⟩

/-- A trip takes every compute domain off at once, and the tenants with it. -/
theorem trip_trips (s : State) : (trip s).pow.mod = .standby ∧ (trip s).pow.tripped = true ∧ (∀ e : DieId, (trip s).pow.domains[e] = .off ∧ (trip s).pow.temps[e] = 0xFF) ∧ (trip s).tick.joined = false ∧
    (∀ p : PartId, (trip s).parts[p].state = .free) ∧ (trip s).fab.flows = [] := by
  have cut : OnlyTouches [.free, .fw] (loseTenants (leaveTick s)) (cutCommit (loseTenants (leaveTick s))) := cutCommit_beside _
  unfold trip
  dsimp only
  generalize hu : State.mk .. = u
  have cause : OnlyTouches [.out, .dict] u (thermalCause u) := thermalCause_only (.refl _ _) (by decide) (by decide)
  rw [cause.pow_eq (by decide), cause.tick_eq (by decide), cause.parts_eq (by decide), cause.fab_eq (by decide)]
  subst hu
  refine ⟨rfl, rfl, fun e => ⟨Vector.getElem_replicate _, Vector.getElem_replicate _⟩, ?_, ?_, ?_⟩
  · exact (congrArg (·.joined) (cut.tick_eq (by decide)) :)
  · exact parts_free (cut.parts_eq (by decide))
  · exact (congrArg Fabric.flows (cut.fab_eq (by decide)) :)

end

/-- Settles O55: the input and the resets by `resetAll_clears` and `boot_booted`, the pin and the trip by what each of them starts. -/
theorem powerEventsMoveTheModule : Obligations.PowerEventsMoveTheModule := by
  refine ⟨fun s => ⟨fun input c hc => ?_, fun free input => ?_, fun held input => ?_, fun up => ?_, fun dark free => ?_, inputTurnOn_fails⟩, fun s => ⟨fun low up standby cool whole good => ?_, fun high active => ?_, fun d on good => ?_⟩⟩
  · rcases hc with rfl | rfl <;> exact ⟨_, need_of input, powerOff_falls s⟩
  · exact ⟨_, (need_of (by rw [free]; rfl)).trans (congrArg Host.Outcome.next (if_pos input)), holdReset_holds s⟩
  · obtain ⟨t, run, h⟩ := modReset_release held input
    obtain ⟨up, boots, cause, low, -⟩ := h.shows
    exact ⟨t, run, low, up, boots, cause, h.sessions, h.flows⟩
  · obtain ⟨t, run, h⟩ := watchdog_boots up
    obtain ⟨on, boots, cause, -⟩ := h.shows
    exact ⟨t, run, on, boots, cause, h.sessions, h.flows⟩
  · obtain ⟨t, run, h⟩ := inputTurnOn_boots dark free
    obtain ⟨up, boots, cause, -, input⟩ := h.shows
    exact ⟨t, run, input, up, boots, cause, h.sessions, h.flows⟩
  · exact modPwrEnRise_starts low up standby cool whole good
  · obtain ⟨enabled, tripped, stops⟩ := beginStandby_begins { s with pow := { s.pow with pwrEn := false, tripped := false, nextCause := some 3 } }
    exact ⟨_, modPwrEnFall_stops high active, enabled, tripped, stops⟩
  · exact ⟨_, need_of (Bool.and_eq_true_iff.mpr ⟨decide_eq_true on, decide_eq_true good⟩), trip_trips s⟩

end Sys2Proof.Machine
end

section
/-!
Settles O57: the sequences of the compute domains (R582, R585 to R588). A ready signal that its step awaits sets the next step of that domain alone; the array dies go down together into DOZE, and the last of them off ends the shut-down.
-/

namespace Sys2Proof.Machine

section
variable {s : State} {d : DieId} {step : Nat} {l : List Nat} {r : Bool}

/-! The steps of a power-up (R585 to R587). -/

theorem domainReady_of (h : s.pow.domains[d] = .powering step l r) {sig : Ready} (awaits : awaited d step l s sig) : exec (.domainReady d sig) s = .next (readyStep d l r s sig) := by
  change execDomainReady d sig s = _
  unfold execDomainReady
  rw [h]
  exact need_of awaits
theorem domainReadyTimeout_of (h : s.pow.domains[d] = .powering step l r) {sig : Ready} (awaits : awaited d step l s sig) :
    exec (.domainReadyTimeout d sig) s = .next (timeout d l r s sig) := by
  change execDomainReadyTimeout d sig s = _
  unfold execDomainReadyTimeout
  rw [h]
  exact need_of awaits

/-- A domain's step is its own. -/
theorem setStep_sets (d : DieId) (step : Nat) (l : List Nat) (r : Bool) (s : State) : (setStep d step l r s).pow.domains[d] = .powering step l r ∧
    (∀ e : DieId, e ≠ d → (setStep d step l r s).pow.domains[e] = s.pow.domains[e]) ∧ OnlyTouches [.pow] s (setStep d step l r s) :=
  ⟨Vector.getElem_set_self _, fun e other => Vector.getElem_set_ne d.isLt e.isLt fun same => other (Fin.ext same.symm), rfl⟩

/-- A time-out from STANDBY repeats the sequence once. -/
theorem timeout_railGood (cold : s.pow.fromDoze = false) (first : r = false) : timeout d l r s .railGood = setStep d 1 [] true s := if_pos (by simp [cold, first])

theorem readyStep_hub : readyStep 4 l r s .repairDone = setStep 4 5 l r s := rfl
theorem readyStep_array (array : d.val < 4) (waits : stacksLeft d l s ≠ []) : readyStep d l r s .repairDone = setStep d 4 l r s := by
  have notHub : d ≠ 4 := fun hub => by simp [hub] at array
  refine (if_neg notHub).trans ?_
  unfold trainOn
  rw [if_neg (by simpa using waits)]

/-- An array die whose logic is ready is up; at a boot nothing waits for it alone. -/
theorem domainUp_booting (array : d.val < 4) (boots : s.pow.mod = .booting) : domainUp d s = { s with pow := { s.pow with domains := s.pow.domains.set d .up } } := by
  have notHub : d ≠ 4 := fun hub => by simp [hub] at array
  refine (if_neg notHub).trans ?_
  unfold settle
  exact if_neg fun ⟨starts, _⟩ => by simp [boots] at starts

/-! Into DOZE (R422, R582, R588). -/

/-- Every domain of the list that is on goes down; the others stay. -/
theorem stopDomains_at (ds : List DieId) (s : State) (d : DieId) :
    (stopDomains ds s).pow.domains[d] = if s.pow.domains[d] = .off ∨ s.pow.domains[d] = .failed ∨ d ∉ ds then s.pow.domains[d] else .stopping := by
  unfold stopDomains
  simp only [Fin.getElem_fin, Vector.getElem_ofFn, Fin.eta, List.contains_eq_mem]
  split
  · next off => simp [off]
  · next failed => simp [failed]
  · next notOff notFailed =>
    by_cases listed : d ∈ ds
    · simp only [listed, decide_true, if_true, not_true, or_false]
      exact (if_neg (not_or.mpr ⟨notOff, notFailed⟩)).symm
    · simp [listed]

/-- The module as it goes into DOZE with every stack saved. -/
def dozing (s : State) : State :=
  stopDomains [0, 1, 2, 3] { s with mem := { s.mem with savedRoots := (List.finRange 24).flatMap (fun k => stackRoots s.mem k), selfRefresh := true, cache := [], dirty := [] },
                                    pow := { s.pow with atTick := none, windowRun := false } }
theorem dozeEntry_nil (s : State) : dozeEntry [] s = dozing s := rfl

theorem mem_arrayDies {d : DieId} (array : d.val < 4) : d ∈ [(0 : DieId), 1, 2, 3] := by
  simp only [List.mem_cons, Fin.ext_iff]
  grind
theorem mem_dies (d : DieId) : d ∈ [(0 : DieId), 1, 2, 3, 4] := by
  revert d
  decide

/-- A domain that is still going down holds the shut-down: an array die's, or any on the way to STANDBY. -/
theorem downDone_held (stops : s.pow.domains[d] = .stopping) (waited : d.val < 4 ∨ s.pow.target ≠ some .doze) : downDone s = false := by
  rw [Bool.eq_false_iff]
  unfold downDone
  dsimp only
  split
  · next doze =>
    intro all
    exact of_decide_eq_true (List.all_eq_true.mp all d (mem_arrayDies (waited.resolve_right (not_not.mpr doze)))) stops
  · exact fun all => of_decide_eq_true (List.all_eq_true.mp all d (mem_dies d)) stops
theorem downDone_doze (doze : s.pow.target = some .doze) (down : ∀ e : DieId, e.val < 4 → s.pow.domains[e] ≠ .stopping) : downDone s = true := by
  unfold downDone
  rw [doze]
  simp only [List.all_cons, List.all_nil, Bool.and_true, Bool.and_eq_true, decide_eq_true_eq]
  exact ⟨down 0 (by decide), down 1 (by decide), down 2 (by decide), down 3 (by decide)⟩

theorem dozing_dies (on : ∀ d : DieId, d.val < 4 → s.pow.domains[d] = .up) : (∀ d : DieId, d.val < 4 → (dozing s).pow.domains[d] = .stopping) ∧ (dozing s).pow.domains[4] = s.pow.domains[4] := by
  refine ⟨fun d array => ?_, ?_⟩
  · rw [dozing, stopDomains_at, if_neg]
    simp only [on d array, mem_arrayDies array]
    simp
  · exact (stopDomains_at [0, 1, 2, 3] _ 4).trans (if_pos (.inr (.inr (by decide))))

theorem dozeEntry_dozes (window : s.pow.windowRun) (waits : s.pow.atTick = some .doze) (on : ∀ d : DieId, d.val < 4 → s.pow.domains[d] = .up) : exec (.dozeEntry []) s = .next (dozing s) := by
  refine (need_of (by simp [window, waits])).trans (congrArg Host.Outcome.next ?_)
  dsimp only
  rw [dozeEntry_nil, downDone_held (d := 0) ((dozing_dies on).1 0 (by decide)) (.inl (by decide))]
  exact if_neg Bool.false_ne_true

/-! A domain off (R588, R591). -/

/-- The power state with an array die off: its sensor and its hot pin read nothing. -/
def Power.dieOff (d : DieId) (array : d.val < 4) (w : Power) : Power := { w with domains := w.domains.set d .off, temps := w.temps.set d 0xFF, hot := w.hot.set d.val false }
/-- The module with an array die off, and then with its THERMAL cause as the other dies give it, before the shut-down may end. -/
def dieDark (d : DieId) (array : d.val < 4) (s : State) : State :=
  { s with pow := s.pow.dieOff d array, mem := { s.mem with doubledRefresh := s.mem.doubledRefresh.filter (fun k => stackDie k ≠ d) } }
def dieOff (d : DieId) (array : d.val < 4) (s : State) : State := thermalCause (dieDark d array s)

section
variable (array : d.val < 4)

theorem domainOff_array : domainOff d s = if downDone (dieOff d array s) then shutDownEnds (dieOff d array s) else dieOff d array s := by
  unfold domainOff
  simp only [dif_pos array]
  rfl
theorem dieOff_only : OnlyTouches [.out, .mem, .dict, .pow] s (dieOff d array s) :=
  thermalCause_only (show OnlyTouches [.out, .mem, .dict, .pow] s (dieDark d array s) from rfl) (by decide) (by decide)
theorem dieOff_pow : (dieOff d array s).pow = s.pow.dieOff d array := by
  have cause : OnlyTouches [.out, .dict] (dieDark d array s) (dieOff d array s) := thermalCause_only (.refl _ _) (by decide) (by decide)
  exact cause.pow_eq (by decide)
theorem Power.dieOff_self (w : Power) : (w.dieOff d array).domains[d] = .off ∧ (w.dieOff d array).temps[d] = 0xFF := ⟨Vector.getElem_set_self _, Vector.getElem_set_self _⟩
theorem Power.dieOff_other (w : Power) {e : DieId} (other : e ≠ d) : (w.dieOff d array).domains[e] = w.domains[e] := Vector.getElem_set_ne d.isLt e.isLt fun same => other (Fin.ext same.symm)

variable (stops : s.pow.domains[d] = .stopping)
include array stops

theorem domainOff_of : exec (.domainOff d) s = .next (domainOff d s) := by
  have notHub : d ≠ 4 := fun hub => by simp [hub] at array
  exact need_of (Bool.and_eq_true_iff.mpr ⟨decide_eq_true stops, (Bool.or_eq_true _ _).mpr (.inl (decide_eq_true notHub))⟩)

/-- The last array die off ends the way into DOZE. -/
theorem domainOff_doze (target : s.pow.target = some .doze) (plain : s.pow.latched = none) (last : ∀ e : DieId, e.val < 4 → e ≠ d → s.pow.domains[e] ≠ .stopping) :
    exec (.domainOff d) s = .next { dieOff d array s with pow := { s.pow.dieOff d array with mod := .doze, target := none, latched := none } } := by
  have pow := dieOff_pow (s := s) array
  have toDoze : (dieOff d array s).pow.target = some .doze := by rw [pow]; exact target
  have plain' : (dieOff d array s).pow.latched = none := by rw [pow]; exact plain
  have down : downDone (dieOff d array s) = true := by
    refine downDone_doze toDoze fun e arr => ?_
    rw [pow]
    by_cases mine : e = d
    · rw [mine, (Power.dieOff_self array s.pow).1]
      nofun
    · rw [Power.dieOff_other array _ mine]
      exact last e arr mine
  rw [domainOff_of array stops, domainOff_array array, if_pos down, ← pow]
  unfold shutDownEnds
  dsimp only
  rw [toDoze, plain']

/-- On the way to STANDBY the hub goes last. -/
theorem domainOff_standby (target : s.pow.target = some .standby) (hub : s.pow.domains[4] = .stopping) : exec (.domainOff d) s = .next (dieOff d array s) := by
  have pow := dieOff_pow (s := s) array
  have notHub : (4 : DieId) ≠ d := fun same => by simp [← same] at array
  have held : (dieOff d array s).pow.domains[(4 : DieId)] = .stopping := by
    rw [pow, Power.dieOff_other array _ notHub]
    exact hub
  rw [domainOff_of array stops, domainOff_array array, downDone_held held (.inr (by rw [pow]; exact fun h => nomatch target.symm.trans h))]
  exact congrArg Host.Outcome.next (if_neg Bool.false_ne_true)

end

end

/-- Settles O57: a power-up by `domainReady_of` and `setStep_sets`, DOZE by `dozeEntry_dozes`, a domain off by `domainOff_doze` and `domainOff_standby`. -/
theorem domainsFollowTheirSequences : Obligations.DomainsFollowTheirSequences := by
  intro s
  refine ⟨fun d l r h => ⟨⟨_, domainReady_of h rfl, setStep_sets d 2 l r s⟩, fun cold first => ?_⟩, fun d l r h => ?_, fun l r h => ?_, fun d l r array h waits => ?_, fun d l r array h boots => ?_,
    fun window waits target on => ?_, fun d array stops target plain last => ?_, fun d array stops target hub => ?_⟩
  · exact ⟨_, (domainReadyTimeout_of h rfl).trans (congrArg Host.Outcome.next (timeout_railGood cold first)), setStep_sets d 1 [] true s⟩
  · obtain ⟨sets, -, only⟩ := setStep_sets d 3 l r s
    exact ⟨_, domainReady_of h rfl, sets, only⟩
  · obtain ⟨sets, -, only⟩ := setStep_sets 4 5 l r s
    exact ⟨_, (domainReady_of (d := 4) h rfl).trans (congrArg Host.Outcome.next readyStep_hub), sets, only⟩
  · obtain ⟨sets, -, only⟩ := setStep_sets d 4 l r s
    exact ⟨_, (domainReady_of h rfl).trans (congrArg Host.Outcome.next (readyStep_array array waits)), sets, only⟩
  · exact ⟨_, (domainReady_of h rfl).trans (congrArg Host.Outcome.next (domainUp_booting array boots)), Vector.getElem_set_self _, rfl⟩
  · obtain ⟨dies, hub⟩ := dozing_dies on
    exact ⟨_, dozeEntry_dozes window waits on, rfl, rfl, rfl, rfl, dies, hub, rfl, rfl⟩
  · obtain ⟨off, cold⟩ := Power.dieOff_self array s.pow
    exact ⟨_, domainOff_doze array stops target plain last, rfl, rfl, off, cold, (dieOff_only array).trans rfl⟩
  · have pow := dieOff_pow (s := s) array
    refine ⟨_, domainOff_standby array stops target hub, ?_, ?_, fun e other => ?_, dieOff_only array⟩
    all_goals rw [pow]
    · rfl
    · exact (Power.dieOff_self array s.pow).1
    · exact Power.dieOff_other array s.pow other

end Sys2Proof.Machine
end
